-- ==== Sys2Proof/Word.lean ====
section
/-! DEFINITION. The word types the manual computes in, and their plainest arithmetic. -/

namespace Sys2Proof

abbrev Byte := BitVec 8

/-- A scalar object's value, zero-extended (R434). -/
abbrev Val := BitVec 64

/-- The addition that saturates at the all-ones value, as every count of the manual does unless it wraps. -/
def satAdd {w : Nat} (x : BitVec w) (k : Nat) : BitVec w :=
  if x.toNat + k < 2 ^ w then x + BitVec.ofNat w k else BitVec.allOnes w

end Sys2Proof
end

