-- ==== Sys2Proof/Syntax.lean ====
section
/-! DEFINITION. The commands of the block, one constructor per row of the table of operations and events, and the
types of their operands. What a wire brings with an error is an operand `flips`: the positions, within the code's
item, that arrive inverted; the code of R84 then decides (assumption 5). -/

namespace Sys2Proof

/-- The two soft-adapter sides of a junction: core side A and edge side B (R16). -/
inductive Side where
  | a | b
  deriving DecidableEq, Repr

/-- The four transaction networks (R239). -/
inductive Net where
  | request | response | snoop | data
  deriving DecidableEq, Repr

/-- What pulls the die into a power-on reset (R65, R472). -/
inductive ResetPin where
  | resetN | pwrOk
  deriving DecidableEq, Repr

/-- A monitored rail (R63). -/
inductive Rail where
  | aon
  | reg (k : Nat)
  deriving DecidableEq, Repr

/-- The path a dictionary request arrives on, with the tag it carries (R438, R441, R445). -/
inductive Path where
  /-- Management bus. -/
  | bus
  /-- Mailbox of host port `p`. -/
  | mailbox (p : Nat)
  /-- OBJECT transaction of initiator `unit`, tagged `ward`, with its transaction tag. -/
  | inBand (unit : BitVec 16) (ward : BitVec 4) (tag : BitVec 10)
  /-- Message to endpoint 0x0C1 from `src`, tagged `ward`, with its REPLY_SOCK. -/
  | service (src : BitVec 16) (ward : BitVec 4) (sock : BitVec 5)
  /-- The local core. -/
  | firmware
  /-- Firmware of another die of the package, through a bridge endpoint. -/
  | peer (die : BitVec 6) (unit : BitVec 16) (tag : BitVec 10)
  deriving DecidableEq, Repr

/-- The head of a request: its path, the level it names and its REQ_ID (R444). -/
structure Access where
  path : Path
  level : BitVec 2
  reqId : BitVec 32
  deriving DecidableEq, Repr

/-- What an initiator offers with a request (R244): operation, address, length, tag, level, and write data. -/
structure TxnArgs where
  op : BitVec 4
  addr : BitVec 64
  lenM1 : BitVec 5
  tag : BitVec 10
  prio : BitVec 2
  data : List (BitVec 1024)
  strb : List (BitVec 128)
  deriving DecidableEq, Repr

/-- An I3C common command code addressed to the target (R59 to R61). -/
inductive Ccc where
  /-- ENTDAA, with the dynamic address the controller assigns. -/
  | entdaa (addr : BitVec 7)
  /-- SETNEWDA, a new dynamic address for a target that holds one. -/
  | setnewda (addr : BitVec 7)
  /-- RSTDAA: dynamic addresses are given up. -/
  | rstdaa
  /-- GETPID: the provisional identifier is returned. -/
  | getpid
  /-- ENEC and DISEC, with the events that are enabled or disabled: bit 0 for in-band interrupts. -/
  | enec (events : BitVec 8)
  | disec (events : BitVec 8)
  /-- GETBCR, GETDCR and GETSTATUS: bus and device characteristics, and the status. -/
  | getbcr
  | getdcr
  | getstatus
  /-- Any other code of the bus. -/
  | other (code : BitVec 8)
  deriving DecidableEq, Repr

/-- What the master finds at another die of a package image: its LOAD_STATUS, and the BRIDGE_STATUS of its four bridges (R327). -/
structure DieResult where
  die : BitVec 6
  load : BitVec 32
  bridges : List (BitVec 32)
  deriving DecidableEq, Repr

/-- What a destination die answers about a channel's end (R220). -/
inductive RankAnswer where
  | rank (r : BitVec 8)
  /-- The die has no such endpoint. -/
  | noEndpoint
  /-- The endpoint does not belong to the ward, or takes no channels. -/
  | otherWard
  deriving DecidableEq, Repr

/-- A message of the exchange between the firmware of two dies over a channel that runs between them (R220). -/
inductive RankReply where
  /-- The destination die's answer to the pending write of an entry of this die. -/
  | received (a : RankAnswer)
  /-- This die is the destination: it answers about `dest`, for an entry of another die's endpoint of rank `rank`, and registers the
  channel. -/
  | given (dest : BitVec 16) (ward : BitVec 4) (rank : BitVec 8)
  /-- The entry of another die's endpoint no longer holds a channel into this die. -/
  | withdrawn
  deriving DecidableEq, Repr

/-- What the sideband brings towards the end of an enumeration (R320, R321). -/
inductive AssignBody where
  /-- ASSIGN, with the dies of the package. -/
  | dies (dieMap : BitVec 64)
  /-- The enumeration has failed, by this cause. -/
  | failed (cause : BitVec 3)
  deriving DecidableEq, Repr

/-- What a die reports to the package master (R327, R328). -/
inductive DieReport where
  /-- Its largest period count, every ingress being stopped. -/
  | count (t : BitVec 32)
  /-- Its LOAD_STATUS. -/
  | status (v : BitVec 32)
  deriving DecidableEq, Repr

/-- A word of one of the block's stores (R483), as the patrol scrubber and an injection name it. -/
inductive StoreWord where
  /-- Kind 0: word `i` of physical bank `sel` of junction `n`: output list `l` (0 to 5) or intake list `l - 6`. -/
  | bank (n : Nat) (sel : Bool) (l : Nat) (i : Nat)
  /-- Kind 1: join record in `slot` of physical bank `sel` of junction `n`. -/
  | join (n : Nat) (sel : Bool) (slot : Nat)
  /-- Kind 1: tally-store entry `i` of junction `n`. -/
  | tally (n : Nat) (i : Nat)
  /-- Kind 2: word `i` of the socket store of junction `n`. -/
  | socket (n : Nat) (i : Nat)
  /-- Kind 3: beat `i` of the staging buffer of channel `c` of engine `e`. -/
  | staging (e : Nat) (c : Nat) (i : Nat)
  /-- Kind 4: element `i` of block `blk` of chunk `chunk` of channel `c` of gate `g`. -/
  | reduction (g : Nat) (c : Nat) (chunk : Nat) (i : Nat)
  /-- Kind 5: the packet of `seq` kept for `peer` and class `cls` at gate `g`: `rx` in the reorder share, else in the retransmit share. -/
  | gateBuf (g : Nat) (peer : BitVec 22) (cls : BitVec 2) (seq : BitVec 32) (rx : Bool)
  /-- Kind 6: entry `i` of the plat. -/
  | plat (i : Nat)
  /-- Kind 7: the management-SRAM word that holds the value of object `index`:`sub`. -/
  | sram (index : BitVec 16) (sub : BitVec 8)
  /-- Kind 7: a word of trace record `i`. -/
  | trace (i : Nat)
  deriving DecidableEq, Repr


/-- The block's commands: one constructor for each row of the table of operations and events, in the table's order. -/
inductive Instr where
  /-- POWER_ON_RESET_ASSERT (R65). RESET_N or PWR_OK is held low for 100 ns or more, and the die enters a class P reset for at least 10 µs. -/
  | powerOnResetAssert (pin : ResetPin) (ns : Nat)
  /-- RESET_RELEASE (R454). The effective release of reset starts the start sequence: fuses are sensed, the time base starts and the boot ROM runs. -/
  | resetRelease (straps : BitVec 4) (romOk : Bool)
  /-- REGION_START_RELEASE (R454). During start-up the power manager releases a region once its monitor reads above warning, and the region enters ACTIVE. -/
  | regionStartRelease (k : Nat)
  /-- BRIDGE_TRAIN_COMPLETE (R306). A Scarf bridge finishes training at the selected rate and its groups come up. -/
  | bridgeTrainComplete (b : Nat) (slow : Bool) (bad : BitVec 8) (repair : BitVec 64) (partner : Option (BitVec 6))
  /-- FW_IMAGE_START (R456). The boot ROM measures a held image with SHA-384, latches the measurement and starts the firmware in STARTING. -/
  | fwImageStart
  /-- FIRMWARE_RUNNING (R454). Firmware reports itself running: CORE_STATE becomes RUNNING and READY goes high. -/
  | firmwareRunning (rel : BitVec 32)
  /-- SYNC_EDGE (R72). A SYNC rising edge latches the time base into SYNC_TIME, increments SYNC_COUNT and may start a freeze. -/
  | syncEdge
  /-- TIMEREF_LOSS (R66). No TIMEREF edge arrives for 1 µs, so the fault source is raised and the time base moves to the on-die oscillator. -/
  | timerefLoss
  /-- TIMEREF_RETURN (R67). After 16 good consecutive edges the time base resumes counting TIMEREF without a step, and offsets are invalidated and measured again. -/
  | timerefReturn
  /-- OSCILLATOR_TRIM (R67). Every 1 ms, while TIMEREF edges arrive, the on-die oscillator is trimmed against them. -/
  | oscillatorTrim
  /-- ADAPTER_CLOCK_STOP (R34). The licensee stops an adapter port clock, and the channels hold their state. -/
  | adapterClockStop (n : Nat) (side : Side)
  /-- ADAPTER_CLOCK_START (R34). The licensee restarts an adapter port clock, and the held channels resume. -/
  | adapterClockStart (n : Nat) (side : Side)
  /-- ADAPTER_CLOCK_MEASURE (R76). Every 1 ms, A_CLOCK and B_CLOCK are measured against the time base. -/
  | adapterClockMeasure (n : Nat) (side : Side) (mhz : BitVec 16)
  /-- ADAPTER_RESET_ASSERT (R36). An X_RST_N input falls: runs, messages, sockets, withdrawn requests and open transactions are handled as R36 sets out. -/
  | adapterResetAssert (n : Nat) (side : Side)
  /-- ADAPTER_RESET_RELEASE (R36). An adapter reset is released, synchronised to the port clock, and the port resumes normal service. -/
  | adapterResetRelease (n : Nat) (side : Side)
  /-- TENSOR_INJECT_BEAT (R40). The A or B ingress accepts a tensor beat whose flow matches the next intake position of the live bank. -/
  | tensorInjectBeat (n : Nat) (side : Side) (flow : BitVec 12) (lower : BitVec 4096) (upper : Option (BitVec 4096)) (last : Bool)
  /-- TENSOR_DELIVER_BEAT (R38). The adapter delivers a beat of one or two flits of a run to the core, with TO_FLAGS on the last beat. -/
  | tensorDeliverBeat (n : Nat) (side : Side)
  /-- CORE_WAKE_REQUEST (R50). J_WAKE or an offered VALID at a gated junction starts a wake of its region. -/
  | coreWakeRequest (n : Nat)
  /-- CONTROL_SEND (R43). A core port takes a complete message from CS_, checks it, stamps it and injects it, or returns a local NAK. -/
  | controlSend (n : Nat) (dest : BitVec 16) (sock : BitVec 5) (kind : BitVec 2) (tag : BitVec 8) (words : List (BitVec 32))
  /-- NAK_DELIVER (R45). A NAK reaches a core port and is queued for CN_, or is discarded and counted when the queue is full. -/
  | nakDeliver (n : Nat)
  /-- SOCKET_POP (R46). The function unit pops a word from a socket; the last word frees the message and retries the store of any held result. -/
  | socketPop (n : Nat) (sock : Nat)
  /-- TXN_REQUEST_ACCEPT (R244). An initiator port accepts a request, checks its rules and the address map, and claims a response buffer. -/
  | txnRequestAccept (unit : Nat) (rq : TxnArgs)
  /-- TOKEN_BUCKET_RELEASE (R259). In regulated mode, a waiting request is released once the token bucket covers its cost. -/
  | tokenBucketRelease (unit : Nat)
  /-- SLOT_RESERVATION_ARRIVE (R251). A reservation is latched at the target and is answered with a GRANT or, at a memory attachment, through the standard arbiter. -/
  | slotReservationArrive (unit : Nat)
  /-- LEASE_RETURN_ARRIVE (R252). A returned leased slot reaches the target and goes back to its pool. -/
  | leaseReturnArrive (unit : Nat)
  /-- SLOT_GRANT_ARRIVE (R251). A GRANT reaches the initiator, which sends the waiting request into the granted slot. -/
  | slotGrantArrive (unit : Nat)
  /-- SLOT_BACKOFF_ARRIVE (R255). A BACKOFF reaches the initiator, which increments STREAK and starts its back-off wait. -/
  | slotBackoffArrive (unit : Nat)
  /-- BACKOFF_EXPIRE (R255). The back-off wait of 64 ns × 2^min(STREAK − 1, 10) ends and the requester may retry. -/
  | backoffExpire (unit : Nat) (target : Nat) (level : BitVec 2)
  /-- TXN_FLIT_ARRIVE (R250). A transaction router input corrects or discards a flit under its inner code. -/
  | txnFlitArrive (n : Nat) (net : Net) (inp : Nat) (flips : List Nat)
  /-- TXN_PACKET_FORWARD (R240). A transaction router output chooses and passes the next packet by LEVEL, round-robin order and the starvation rule. -/
  | txnPacketForward (n : Nat) (net : Net) (out : Nat)
  /-- TXN_REQUEST_ARRIVE (R250). A request reaches its target, is checked for ward rights and is served or forwarded onward. -/
  | txnRequestArrive (unit : Nat)
  /-- TXN_RESPONSE_ARRIVE (R249). A completion reaches the initiator, is matched by TAG and GEN, and fills its response buffer. -/
  | txnResponseArrive (unit : Nat)
  /-- TXN_DATA_ARRIVE (R249). A data packet reaches its receiver, is checked and is joined to its request or answer. -/
  | txnDataArrive (unit : Nat)
  /-- TXN_TIMEOUT_EXPIRE (R260). TXN_TIMEOUT expires, so the initiator completes the transaction with TIMEOUT and frees the buffer. -/
  | txnTimeoutExpire (unit : Nat) (tag : BitVec 10)
  /-- TAG_QUARANTINE_EXPIRE (R260). Twice TXN_TIMEOUT after a timeout has passed, so the tag may be used again. -/
  | tagQuarantineExpire (unit : Nat) (tag : BitVec 10)
  /-- TARGET_SLOT_TIMEOUT (R261). A target has held a slot for twice TXN_TIMEOUT, so it frees the slot and raises the fault source. -/
  | targetSlotTimeout (unit : Nat) (src : BitVec 16) (tag : BitVec 10)
  /-- SNOOP_REPLY_ARRIVE (R265). A snoop reply, with any line data, reaches the home and is combined. -/
  | snoopReplyArrive (unit : Nat) (src : Nat) (stag : BitVec 8) (resp : BitVec 2) (line : Option (BitVec 512))
  /-- SNOOP_TIMEOUT (R265). No snoop reply arrives within TXN_TIMEOUT, so the home takes INVALID and completes with TARGET_ERROR. -/
  | snoopTimeout (unit : Nat) (stag : BitVec 8)
  /-- CORE_TARGET_ANSWER (R49). A core target half answers an XQ_ request on XP_, and a late answer is discarded. -/
  | coreTargetAnswer (n : Nat) (tag : BitVec 10) (status : BitVec 3) (data : List (BitVec 1024))
  /-- MA_COMMAND_ISSUE (R53). A memory attachment issues a command once read-buffer space is reserved and MQ_READY allows. -/
  | maCommandIssue (a : Nat)
  /-- MA_READ_DATA (R51). Read beats arrive from the controller, and their status applies to the run or transaction. -/
  | maReadData (a : Nat) (tag : BitVec 10) (data : BitVec 4096) (status : BitVec 2)
  /-- MA_WRITE_COMPLETION (R51). An MB_ beat reports that a write has reached memory. -/
  | maWriteCompletion (a : Nat) (tag : BitVec 10) (status : BitVec 2)
  /-- HOST_INBOUND_REQUEST (R54). A host inbound request is ward-tagged and checked against HOST_WARD_MASK, or goes to the mailbox. -/
  | hostInboundRequest (p : Nat) (ward : BitVec 4) (mbx : Bool) (rq : TxnArgs)
  /-- HOST_COMPLETION_ARRIVE (R56). The host controller returns a completion on HOP_ for an outbound request. -/
  | hostCompletionArrive (p : Nat) (tag : BitVec 10) (status : BitVec 3) (data : List (BitVec 1024))
  /-- HOST_SNOOP_ARRIVE (R264). A snoop from the caching agent on HSQ_ snoops the core ports and returns the combined reply on HSP_. -/
  | hostSnoopArrive (p : Nat) (line : BitVec 35) (ty : BitVec 2) (tag : BitVec 8)
  /-- HOST_IRQ_MESSAGE (R230). A message to a host-port endpoint queues its vector as an interrupt, or is refused with QUEUE_FULL. -/
  | hostIrqMessage (p : Nat)
  /-- HOST_IRQ_DELIVER (R230). A queued interrupt vector leaves on HI_IRQ when HI_IRQ_READY allows. -/
  | hostIrqDeliver (p : Nat)
  /-- COH_WINDOW_WRITE (R263). A COH_WINDOW write is checked, and a change or clear of a valid window starts invalidation of the old window. -/
  | cohWindowWrite (acc : Access) (p : Nat) (i : Nat) (v : BitVec 64)
  /-- COH_WINDOW_INVALIDATE_COMPLETE (R263). The home has invalidated and written back the old window's lines, so the window write completes. -/
  | cohWindowInvalidateComplete (p : Nat) (i : Nat)
  /-- ARB_RENUMBER (R257). An initiator's arbiter input number is changed, swapping with the initiator that holds the new number. -/
  | arbRenumber (acc : Access) (a : Nat) (v : BitVec 32)
  /-- POOL_SIZE_WRITE (R272). The pool sizes of a memory attachment change; a pool above its new size grants nothing until its occupancy falls. -/
  | poolSizeWrite (acc : Access) (a : Nat) (v : BitVec 32)
  /-- I3C_CCC (R61). The I3C target answers a common command code, including dynamic address assignment. -/
  | i3cCcc (ccc : Ccc)
  /-- MCTP_MESSAGE_RECEIVE (R443). An MCTP message arrives on the management bus and is dispatched by type, or is answered PATH_BUSY. -/
  | mctpMessageReceive (ty : BitVec 8) (iana : BitVec 32) (mtag : BitVec 3) (body : List (BitVec 8))
  /-- MCTP_CONTROL_MESSAGE (R443). An MCTP control message of type 0x00 is handled. -/
  | mctpControlMessage (mtag : BitVec 3) (body : List (BitVec 8))
  /-- TENSOR_FLIT_ARRIVE (R90). A flit is latched at a junction input: its inner code is corrected, and its flow and run length are checked. -/
  | tensorFlitArrive (n : Nat) (inp : Nat) (flips : List Nat)
  /-- PACE_GAUGE_WINDOW (R101). Each 1 µs window, a region's gauge updates PACE_RATE and PACE_MIN. -/
  | paceGaugeWindow (k : Nat) (rate : BitVec 16)
  /-- OUTPUT_PASS_FLIT (R122). An output at a PASS entry passes the named flit once it is present and the latch is free, and advances through its list. -/
  | outputPassFlit (n : Nat) (out : Nat) (flips : List Nat)
  /-- WAKE_HOLD_EXPIRE (R129). WAKE_HOLD passes after the last wake-ahead request for a region, and the power manager may gate it again. -/
  | wakeHoldExpire (k : Nat)
  /-- SCHED_LOAD_CHECKS_COMPLETE (R137). The load checks of a staged image finish, and LOAD_STATUS enters CHECKED or FAILED. -/
  | schedLoadChecksComplete (w : BitVec 4)
  /-- EPOCH_ARM (R140). ARM written to EPOCH_CTRL in CHECKED starts the arm checks. -/
  | epochArm (acc : Access) (w : BitVec 4)
  /-- EPOCH_ARM_CHECK_COMPLETE (R140). DIST_GEN and the bank CRCs have been checked, so LOAD_STATUS enters ARMED or FAILED; with no ingress, T = 0 is sent at once. -/
  | epochArmCheckComplete (w : BitVec 4)
  /-- EPOCH_CANCEL (R147). CANCEL abandons a pending arm or releases the stopped ingresses, and LOAD_STATUS enters IDLE with code 0x11. -/
  | epochCancel (acc : Access) (w : BitVec 4)
  /-- FORCE_STAGED (R148). At L2, FORCE_STAGED sends forced markers to make the staged image live on every junction of the ward. -/
  | forceStaged (acc : Access) (w : BitVec 4)
  /-- FORCE_NULL (R148). At L2, FORCE_NULL sends forced markers to make the null bank live on every junction of the ward. -/
  | forceNull (acc : Access) (w : BitVec 4)
  /-- EPOCH_TARGET_SET (R142). Once every ingress has stopped, the sequencer sets T to the largest count, sends it and releases the ingresses. -/
  | epochTargetSet (w : BitVec 4) (t : Option (BitVec 32))
  /-- EPOCH_TARGET_ARRIVE (R144). T reaches a junction, and its empty lists swap at once. -/
  | epochTargetArrive (n : Nat)
  /-- EPOCH_MARKER_ARRIVE (R144). An epoch marker reaches an input; lists swap once their T-th period is done and the marker is consumed. -/
  | epochMarkerArrive (n : Nat) (inp : Nat)
  /-- EPOCH_SWAP_COMPLETE (R146). Every junction has swapped, so LOAD_STATUS enters LIVE, EPOCH increments and the digests update. -/
  | epochSwapComplete (w : BitVec 4)
  /-- FORCED_MARKER_ARRIVE (R148). A junction stops at a flit boundary, ends partial runs, discards the ward's flits and makes the target bank live. -/
  | forcedMarkerArrive (n : Nat)
  /-- FORCED_SWAP_COMPLETE (R148). Every junction has completed the forced swap, so LOAD_STATUS enters LIVE with code 0x12. -/
  | forcedSwapComplete (w : BitVec 4)
  /-- REDUCTION_JOIN_FLIT (R160). With flit k of every operand present and the latch free, the node combines the flits into one output flit. -/
  | reductionJoinFlit (n : Nat) (residueBad : Option (BitVec 3))
  /-- TALLY_CAPTURE_FLIT (R177). A flit of the TALLY_IN run is captured into the tally store. -/
  | tallyCaptureFlit (n : Nat)
  /-- TAP_CTRL_WRITE (R187). The tap set-up changes, taking effect at the next FIRST flit at the selected output. -/
  | tapCtrlWrite (acc : Access) (n : Nat) (v : BitVec 32)
  /-- CONTROL_FLIT_ARRIVE (R204). A control router input corrects a flit, or discards damaged flits and completes or loses the message. -/
  | controlFlitArrive (n : Nat) (inp : Nat) (flips : List Nat)
  /-- CONTROL_MESSAGE_FORWARD (R206). A control router output grants a whole message, in round-robin order, once the next input has room. -/
  | controlMessageForward (n : Nat) (out : Nat)
  /-- CONTROL_MESSAGE_DELIVER (R211). A message reaches its destination and, after checks in order, is stored or refused. -/
  | controlMessageDeliver (ep : Nat)
  /-- COMBINE_CONTRIBUTION (R223). A contribution is added lane by lane into the accumulator of a combining socket or combiner. -/
  | combineContribution (ep : Nat)
  /-- COMBINER_RELEASE_SEND (R226). A combiner sends the next release to socket 31 of a port that RELEASE_MAP names, or discards and counts it. -/
  | combinerReleaseSend (n : Nat)
  /-- RELEASE_DELIVER (R227). A release reaches a RELEASE socket and replaces any unpopped release. -/
  | releaseDeliver (n : Nat)
  /-- TRIP_INCREMENT (R291). An increment adds to a trip counter, and waiting channels are released in channel order. -/
  | tripIncrement (ep : Nat)
  /-- PSTATE_REQUEST (R469). A performance-state request to the power manager is granted or refused against the budget and WARN. -/
  | pstateRequest
  /-- SERVICE_MESSAGE_RECEIVE (R441). An in-band expedited request message reaches endpoint 0x0C1 and is queued or refused. -/
  | serviceMessageReceive
  /-- SOCK_CFG_WRITE (R214). A socket configuration write is checked for use, ring and kind, and applied. -/
  | sockCfgWrite (acc : Access) (n : Nat) (sock : Nat) (v : BitVec 64)
  /-- SOCK_STAT_CLEAR (R233). A write to SOCK_STAT sets DROPS and HIGH_MSGS to zero. -/
  | sockStatClear (acc : Access) (n : Nat) (sock : Nat)
  /-- CHANNEL_ENTRY_WRITE (R220). A channel entry write is checked against rank order and ward, with a remote rank query for another die. -/
  | channelEntryWrite (acc : Access) (table : BitVec 16) (entry : Nat) (v : BitVec 32)
  /-- CHANNEL_RANK_REPLY (R220). The destination die's firmware returns the rank, and the pending channel write is accepted or refused. `table`
  is the entry's table where this die asked, and the sending endpoint where another die did. -/
  | channelRankReply (table : BitVec 16) (entry : Nat) (reply : RankReply)
  /-- CHANNEL_CHECK_TIMEOUT (R220). No rank answer comes within 1 ms, so the write is refused with CHECK_INCOMPLETE. -/
  | channelCheckTimeout (table : BitVec 16) (entry : Nat)
  /-- RANK_WRITE (R220). A rank write is accepted only when every valid channel into and out of the endpoint still rises in rank. -/
  | rankWrite (acc : Access) (table : BitVec 16) (v : BitVec 8)
  /-- DMA_START (R297). START begins a channel from RING_HEAD, sets PENDING_START, or is held under WARN. -/
  | dmaStart (acc : Access) (e : Nat) (c : Nat)
  /-- DMA_STOP (R297). STOP moves the channel to STOPPING or IDLE. -/
  | dmaStop (acc : Access) (e : Nat) (c : Nat)
  /-- DMA_ABORT (R297). ABORT moves the channel to ABORTING or IDLE without write-back. -/
  | dmaAbort (acc : Access) (e : Nat) (c : Nat)
  /-- DMA_CLEAR (R297). CLEAR returns a HALTED channel to IDLE. -/
  | dmaClear (acc : Access) (e : Nat) (c : Nat)
  /-- DMA_DESCRIPTOR_FETCH (R288). A fetched slot is examined: OWN 0 idles the channel, and otherwise the descriptor is checked and may wait. -/
  | dmaDescriptorFetch (e : Nat) (c : Nat)
  /-- DMA_MOVER_STEP (R282). The mover moves one beat of the highest-priority ready channel. -/
  | dmaMoverStep (e : Nat)
  /-- DMA_WRITEBACK_COMPLETE (R288). A descriptor's status write completes, OWN is cleared, and the notification and ring events are sent. -/
  | dmaWritebackComplete (e : Nat) (c : Nat)
  /-- DMA_NAK_ARRIVE (R295). A NAK for a notification or ring event increments NOTIFY_NAK and sets NAKED. -/
  | dmaNakArrive (e : Nat)
  /-- CH_STAT_CLEAR (R300). A write to CH_STAT sets every field to zero. -/
  | chStatClear (acc : Access) (e : Nat) (c : Nat)
  /-- BRIDGE_FLIT_RECEIVE (R314). A bridge flit is corrected by FEC, checked by CRC and sequence, and kept or discarded with NAK. -/
  | bridgeFlitReceive (b : Nat) (g : Nat) (flit : BitVec 2048)
  /-- BRIDGE_RETRAIN_COMPLETE (R316). A bridge retrain ends, with or without lane repair. -/
  | bridgeRetrainComplete (b : Nat) (bad : BitVec 8) (repair : BitVec 64)
  /-- BRIDGE_LINK_DOWN (R330). The bridge link goes down: runs are ended, messages are refused and the fault source is raised. -/
  | bridgeLinkDown (b : Nat)
  /-- BRIDGE_CFG_WRITE (R331). Bridge configuration changes from the next training, and ENABLE 0 brings the link down. -/
  | bridgeCfgWrite (acc : Access) (b : Nat) (v : BitVec 8)
  /-- BRIDGE_ERR_CLEAR (R331). A write to BRIDGE_ERR sets every field to zero. -/
  | bridgeErrClear (acc : Access) (b : Nat)
  /-- ENUM_RECEIVE (R320). A die takes its first ENUM, records its position and parent, and forwards ENUM. -/
  | enumReceive (b : Nat) (col : Int) (row : Int) (masterId : BitVec 48) (facing : BitVec 2)
  /-- ENUM_QUIET_EXPIRE (R320). After 10 ms with no new die, the master fixes the origin and sends ASSIGN. `found` holds the other
  dies' positions, which the sideband has brought it (assumption 30). -/
  | enumQuietExpire (found : List (Int × Int))
  /-- ENUM_ASSIGN_RECEIVE (R320). A die takes ASSIGN and sets DIE_NUMBER; or it learns of a failure (R321), and
  the other operands say nothing. -/
  | enumAssignReceive (col0 : Int) (row0 : Int) (cols : BitVec 3) (rows : BitVec 3) (master : BitVec 6) (body : AssignBody)
  /-- ENUM_WAIT_EXPIRE (R320). Firmware has run 1 s without ENUM, so the die stays unenumerated. -/
  | enumWaitExpire
  /-- PKG_NUMBER_WRITE (R322). The master takes a PKG_NUMBER written at L3 and copies it to every enumerated die. -/
  | pkgNumberWrite (acc : Access) (v : BitVec 16)
  /-- TIME_REQ_RECEIVE (R324). A child stamps a TIME_REQ and answers with a TIME_RESP. -/
  | timeReqReceive (b : Nat)
  /-- TIME_RESP_RECEIVE (R324). The parent stamps t4, and after eight exchanges the child's offset and error are set. -/
  | timeRespReceive (b : Nat)
  /-- TB_PERIOD_EXPIRE (R325). TB_PERIOD elapses, so the offset is measured again. -/
  | tbPeriodExpire
  /-- TB_GEN_WRITE (R325). A write to TB_GEN starts an offset measurement. -/
  | tbGenWrite (acc : Access) (v : BitVec 32)
  /-- PKG_LOAD_CHECK_COMPLETE (R327). The master has checked the container, distributed the sections and checked the bridge groups, and PKG_STATUS enters CHECKED or FAILED. -/
  | pkgLoadCheckComplete (w : BitVec 4) (results : List DieResult)
  /-- PKG_ARM (R328). ARM written to PKG_CTRL arms the sequencers of every die in the image. -/
  | pkgArm (acc : Access) (w : BitVec 4)
  /-- PKG_CANCEL (R328). CANCEL written to PKG_CTRL applies R147 on every die. -/
  | pkgCancel (acc : Access) (w : BitVec 4)
  /-- PKG_DIE_REPORT (R328). A die reports its period count or its state to the master, which sets and sends T or completes the package swap. -/
  | pkgDieReport (w : BitVec 4) (die : BitVec 6) (report : DieReport)
  /-- GATE_REQUEST_ACCEPT (R346). A source gate looks up the plat and builds a fabric packet, or answers with an error. -/
  | gateRequestAccept (g : Nat) (flips : List Nat)
  /-- GATE_CTL_ACCEPT (R338). A gate accepts a block-internal control message into its CTL queue, or refuses it with QUEUE_FULL. -/
  | gateCtlAccept (g : Nat) (peer : BitVec 22) (flits : List (BitVec 72))
  /-- GATE_EGRESS_SEND (R337). The egress scheduler sends the next whole packet by class priority and deficit round-robin. -/
  | gateEgressSend (g : Nat)
  /-- FABRIC_PACKET_RECEIVE (R349). A gate checks an arriving packet and takes it into the reorder share, delivering in SEQ order. -/
  | fabricPacketReceive (g : Nat) (bytes : List (BitVec 8))
  /-- ACK_DELAY_EXPIRE (R350). ACK_DELAY passes after the first unacknowledged packet, and an ACK is sent. -/
  | ackDelayExpire (g : Nat) (peer : BitVec 22) (cls : BitVec 2)
  /-- RETX_TIMEOUT_EXPIRE (R351). RETX_TIMEOUT passes without an ACK, and the packet is retransmitted. -/
  | retxTimeoutExpire (g : Nat) (peer : BitVec 22) (cls : BitVec 2) (seq : BitVec 32)
  /-- CONNECTION_IDLE_EXPIRE (R348). A connection idle for 1 ms with nothing unacknowledged is freed. -/
  | connectionIdleExpire (g : Nat) (peer : BitVec 22)
  /-- PLAT_INSERT (R353). An entry is placed in a free way of its set, or refused. -/
  | platInsert (acc : Access) (v : BitVec 64)
  /-- PLAT_REMOVE (R353). The entry with the named KEY and SIZE is cleared. -/
  | platRemove (acc : Access) (v : BitVec 64)
  /-- PLAT_QUERY (R361). A written hall address is looked up, and a read returns the entry found. -/
  | platQuery (acc : Access) (v : BitVec 64)
  /-- GATE_CFG_WRITE (R362). Gate set-up changes, and ENABLE 0 drops every connection. -/
  | gateCfgWrite (acc : Access) (g : Nat) (v : BitVec 32)
  /-- GATE_ERR_CLEAR (R361). A write to GATE_ERR sets every field to zero. -/
  | gateErrClear (acc : Access) (g : Nat)
  /-- GATE_LINE_DOWN (R360). A gate line goes down: no packet leaves, and source-gate choice skips the gate. -/
  | gateLineDown (g : Nat)
  /-- GATE_LINE_UP (R360). A gate line returns, and waiting packets are retransmitted. -/
  | gateLineUp (g : Nat)
  /-- COLL_START (R374). START begins a collective channel from OP_RING_HEAD. -/
  | collStart (acc : Access) (g : Nat) (c : Nat)
  /-- COLL_STOP (R374). STOP stops a collective channel as for a DMA channel. -/
  | collStop (acc : Access) (g : Nat) (c : Nat)
  /-- COLL_ABORT (R374). ABORT aborts the operation with CANCELLED. -/
  | collAbort (acc : Access) (g : Nat) (c : Nat)
  /-- COLL_CLEAR (R374). CLEAR returns a HALTED collective channel to IDLE. -/
  | collClear (acc : Access) (g : Nat) (c : Nat)
  /-- COLL_RECORD_FETCH (R374). A fetched record is checked under R373 and the channel waits on its trigger counter. -/
  | collRecordFetch (g : Nat) (c : Nat)
  /-- COLL_INPUT_FLIT (R379). A member takes a contribution flit from IN_FLOW as its chunks need it. -/
  | collInputFlit (g : Nat) (c : Nat)
  /-- COLL_ARRIVE_RECEIVE (R396). The root of tree A stamps an ARRIVE record. -/
  | collArriveReceive (g : Nat)
  /-- COLL_READY_RECEIVE (R387). A READY from the parent lets the member send its tally or a chunk up. -/
  | collReadyReceive (g : Nat)
  /-- COLL_ABORT_RECEIVE (R398). An ABORT record aborts the operation with REMOTE and is forwarded once. -/
  | collAbortReceive (g : Nat)
  /-- TALLY_UP_RECEIVE (R377). A child's tally is combined, then sent up, or fixed at the root. -/
  | tallyUpReceive (g : Nat)
  /-- TALLY_DOWN_RECEIVE (R377). The final tally is taken, giving the block formats, and passed to the children. -/
  | tallyDownReceive (g : Nat)
  /-- DATA_UP_RECEIVE (R387). A child's chunk fragment is accumulated into the buffer. -/
  | dataUpReceive (g : Nat)
  /-- DATA_DOWN_RECEIVE (R387). The chunk total is passed to the children and delivered under R384. -/
  | dataDownReceive (g : Nat)
  /-- SW_CONTRIB_RECEIVE (R391). A gate that receives an SW_CONTRIB discards it. -/
  | swContribReceive (g : Nat)
  /-- SW_CAPACITY_RECEIVE (R390). A switch capacity advertisement is stored in SW_CAP of the matching groups. -/
  | swCapacityReceive (g : Nat)
  /-- SW_RESULT_RECEIVE (R391). A block of switch result is taken, and a complete chunk is released and delivered. -/
  | swResultReceive (g : Nat)
  /-- SW_REFUSE_RECEIVE (R392). A switch refusal starts a back-off for the next attempt, or the chunk falls back to its tree. -/
  | swRefuseReceive (g : Nat)
  /-- SW_RETRY_BACKOFF_EXPIRE (R392). The back-off ends, and the next switch attempt is sent. -/
  | swRetryBackoffExpire (g : Nat) (c : Nat) (chunk : BitVec 32)
  /-- SW_ATTEMPT_TIMEOUT (R393). No result or refusal arrives within RETX_TIMEOUT, so the attempt is resent or the operation aborts with SWITCH_LOST. -/
  | swAttemptTimeout (g : Nat) (c : Nat) (chunk : BitVec 32)
  /-- SW_CAP_EXPIRE (R390). 100 ms pass without an advertisement, and SW_CAP reads 0. -/
  | swCapExpire (g : Nat) (j : Nat)
  /-- STORE_ALLOC_GRANT (R386). The standard arbiter grants pool cells for a chunk buffer. -/
  | storeAllocGrant (g : Nat)
  /-- ARRIVE_RESEND_EXPIRE (R396). 1 µs after a discarded ARRIVE, the member sends it again. -/
  | arriveResendExpire (g : Nat) (c : Nat)
  /-- COLL_WRITEBACK_COMPLETE (R374). The record write-back completes; OWN is cleared, notified and the channel advances. -/
  | collWritebackComplete (g : Nat) (c : Nat)
  /-- COLL_STAT_CLEAR (R400). A write to COLL_STAT sets every field to zero. -/
  | collStatClear (acc : Access) (g : Nat) (c : Nat)
  /-- WARD_FORM (R416). FORM moves a FREE ward to FORMING. -/
  | wardForm (acc : Access) (w : BitVec 4)
  /-- WARD_ACTIVATE (R416). ACTIVATE moves a FORMING ward with junctions to ACTIVE. -/
  | wardActivate (acc : Access) (w : BitVec 4)
  /-- WARD_RESET (R418). RESET closes the ward and starts the reset sequence. -/
  | wardReset (acc : Access) (w : BitVec 4)
  /-- WARD_REVOKE (R418). REVOKE closes the ward and starts the revocation sequence. -/
  | wardRevoke (acc : Access) (w : BitVec 4)
  /-- WARD_DRAIN_COMPLETE (R418). The ward's traffic has drained, so FORCE_NULL is issued on its junctions. -/
  | wardDrainComplete (w : BitVec 4)
  /-- WARD_DRAIN_LIMIT_EXPIRE (R418). After 1 ms of drain, open transactions end with TIMEOUT. -/
  | wardDrainLimitExpire (w : BitVec 4)
  /-- WARD_SCRUB_COMPLETE (R420). The scrub ends, the reclaim record is written and the ward becomes FREE or ACTIVE. -/
  | wardScrubComplete (w : BitVec 4)
  /-- WARD_JUNCTIONS_WRITE (R417). Junction ownership changes under the state rules. -/
  | wardJunctionsWrite (acc : Access) (w : BitVec 4) (map : BitVec 128)
  /-- WARD_REFUSALS_CLEAR (R424). A write to WARD_REFUSALS sets it to zero. -/
  | wardRefusalsClear (acc : Access)
  /-- WATCHDOG_EXPIRE (R430). WDT_PERIOD passes without a kick, so WATCHDOG is raised and the core is held in reset or the spare is selected. -/
  | watchdogExpire
  /-- CORE_RESET_HOLD_EXPIRE (R430). After 10 µs in reset, the core restarts from the boot ROM. -/
  | coreResetHoldExpire
  /-- CORE_SEL_WRITE (R430). A write of 1 selects and starts the cold spare. -/
  | coreSelWrite (acc : Access) (v : BitVec 8)
  /-- READ (R444). An expedited read of a scalar object is executed at its slot turn. -/
  | read (acc : Access) (index : BitVec 16) (sub : BitVec 8)
  /-- WRITE (R444). An expedited write of a scalar object that has no step of its own is checked and applied whole. -/
  | write (acc : Access) (index : BitVec 16) (sub : BitVec 8) (len : Nat) (v : BitVec 64)
  /-- INIT_UPLOAD (R445). An upload of a DOMAIN opens, with a snapshot taken. -/
  | initUpload (acc : Access) (index : BitVec 16) (sub : BitVec 8)
  /-- INIT_DOWNLOAD (R445). A download of a DOMAIN of the named size opens. -/
  | initDownload (acc : Access) (index : BitVec 16) (sub : BitVec 8) (size : BitVec 32)
  /-- SEGMENT (R445). A SEGMENT moves the next bytes, and the LAST segment closes the transfer. -/
  | segment (acc : Access) (index : BitVec 16) (sub : BitVec 8) (xfer : BitVec 16) (arg : BitVec 32) (data : List (BitVec 8))
  /-- TRANSFER_ABORT (R445). ABORT from the requester ends an open transfer. -/
  | transferAbort (acc : Access) (index : BitVec 16) (sub : BitVec 8) (xfer : BitVec 16) (code : BitVec 32)
  /-- DESCRIBE (R447). DESCRIBE returns type, levels, class and maximum length of an object. -/
  | describe (acc : Access) (index : BitVec 16) (sub : BitVec 8)
  /-- TRANSFER_TIMEOUT_EXPIRE (R446). A transfer with no SEGMENT for 1 s is abandoned with TRANSFER_TIMEOUT. -/
  | transferTimeoutExpire (xfer : BitVec 16)
  /-- MAILBOX_REQUEST_WRITE (R442). A host write to the mailbox REQUEST field is stored, or is ignored with OVERRUN while BUSY. -/
  | mailboxRequestWrite (p : Nat) (offset : Nat) (bytes : List (BitVec 8))
  /-- MAILBOX_DOORBELL (R442). A DOORBELL write posts the REQUEST and sets BUSY, or sets OVERRUN while BUSY. -/
  | mailboxDoorbell (p : Nat)
  /-- ACCESS_STAT_CLEAR (R451). A write to ACCESS_STAT sets every field to zero. -/
  | accessStatClear (acc : Access)
  /-- GET_VERSION (R457). The SPDM responder answers GET_VERSION. -/
  | getVersion
  /-- GET_CAPABILITIES (R457). The SPDM responder answers GET_CAPABILITIES. -/
  | getCapabilities
  /-- NEGOTIATE_ALGORITHMS (R457). The SPDM responder negotiates P-384 and SHA-384. -/
  | negotiateAlgorithms (asym : BitVec 32) (hash : BitVec 32) (measSpec : BitVec 8)
  /-- GET_DIGESTS (R457). The SPDM responder returns the certificate digests. -/
  | getDigests
  /-- GET_CERTIFICATE (R457). The SPDM responder returns CERT_CHAIN of slot 0. -/
  | getCertificate (slot : BitVec 4) (offset : BitVec 16) (len : BitVec 16)
  /-- CHALLENGE (R457). The signing engine signs a challenge response. -/
  | challenge (slot : BitVec 4) (nonce : BitVec 256) (measHash : BitVec 8)
  /-- GET_MEASUREMENTS (R457). The signing engine returns the signed measurement blocks. -/
  | getMeasurements (index : BitVec 8) (nonce : BitVec 256)
  /-- FW_START (R476). START in FW_CTRL starts the held image from BOOT_ROM. -/
  | fwStart (acc : Access)
  /-- FW_HOLD (R476). HOLD restarts the core into the boot ROM without starting the image. -/
  | fwHold (acc : Access)
  /-- FUSE_CAPS (R461). The three path caps are fused, once, in blank. -/
  | fuseCaps (acc : Access) (v : BitVec 16)
  /-- DEBUG_DISABLE (R461). The test access port and factory test mode are disabled for good. -/
  | debugDisable (acc : Access) (v : BitVec 8)
  /-- LIFECYCLE_ADVANCE (R461). LIFECYCLE advances by one, with its preconditions, from the next start. -/
  | lifecycleAdvance (acc : Access) (v : BitVec 8)
  /-- DIE_RESET (R462). 0xD1 written to DIE_RESET resets classes D, W and V and restarts the start sequence. -/
  | dieReset (acc : Access) (v : BitVec 8)
  /-- PKG_RESET (R462). 0xA5 written at the master sends a package reset over the bridge sidebands. -/
  | pkgReset (acc : Access) (v : BitVec 8)
  /-- PKG_RESET_RECEIVE (R462). A die receives the package reset and performs a die reset that also restores class K. -/
  | pkgResetReceive
  /-- REGION_GATE (R465). A gating request is refused with its cause, or the region is switched off. -/
  | regionGate (acc : Access) (k : Nat)
  /-- REGION_WAKE (R466). WAKE written to REGION_CTRL starts a wake. -/
  | regionWake (acc : Access) (k : Nat)
  /-- REGION_RESET (R463). RESET written to REGION_CTRL resets the region: links are isolated, runs ended and loads failed. -/
  | regionReset (acc : Access) (k : Nat)
  /-- REGION_RESET_RELEASE (R464). A region in reset is released; values are restored and the region enters ACTIVE. -/
  | regionResetRelease (k : Nat)
  /-- REGION_WAKE_COMPLETE (R466). The wake ends, and the region becomes ACTIVE with held traffic moving. -/
  | regionWakeComplete (k : Nat)
  /-- AUTO_GATE_IDLE_EXPIRE (R467). A region idle for IDLE_US with AUTO_GATE set is gated if R465 allows. -/
  | autoGateIdleExpire (k : Nat)
  /-- RAIL_TARGET_WRITE (R468). A new rail target is written, and an I3C interrupt with byte 0x52 is raised. -/
  | railTargetWrite (acc : Access) (k : Nat) (v : BitVec 16)
  /-- RAIL_APPLIED_WRITE (R468). The board controller reports the rail voltage it applied. -/
  | railAppliedWrite (acc : Access) (k : Nat) (v : BitVec 16)
  /-- RAIL_REQUEST_TIMEOUT (R468). RAIL_TARGET has differed from RAIL_APPLIED for 10 ms, so RAIL_REQUEST is raised. -/
  | railRequestTimeout (k : Nat)
  /-- SUPPLY_WARN_ENTER (R471). A rail stays below warning for 50 ns: WARN rises, timeouts stop and cores are throttled. -/
  | supplyWarnEnter (rail : Rail)
  /-- SUPPLY_WARN_EXIT (R471). The rail stands above 0.63 V for 2 µs: WARN falls, held starts resume and dips are counted. -/
  | supplyWarnExit (rail : Rail)
  /-- SUPPLY_RESET_CROSS (R472). A rail falls below its reset threshold, resetting its region, or the die for VDD_AON. -/
  | supplyResetCross (rail : Rail)
  /-- SUPPLY_STAT_CLEAR (R476). A write to SUPPLY_STAT sets every field to zero. -/
  | supplyStatClear (acc : Access)
  /-- COLLECTOR_COMPARE_MISMATCH (R494). The copies of a collector register differ, so COLLECTOR_COMPARE is raised and the die enters the safe state. -/
  | collectorCompareMismatch (key : Nat) (copyA : Option (BitVec 64)) (copyB : Option (BitVec 64))
  /-- FAULT_CLEAR (R493). The status of a source, or of all sources, is cleared where allowed. -/
  | faultClear (acc : Access) (v : BitVec 16)
  /-- FAULT_SEV_WRITE (R491). A source's severity changes for later raises. -/
  | faultSevWrite (acc : Access) (src : Nat) (v : BitVec 8)
  /-- FAULT_THRESHOLD_WRITE (R492). FAULT_THRESHOLD changes, and FAULT_N follows at once. -/
  | faultThresholdWrite (acc : Access) (v : BitVec 8)
  /-- INJECT (R498). A fault injection is armed or disarmed at a named checker. -/
  | inject (acc : Access) (v : BitVec 64)
  /-- TEST_PORT_INJECT_ACCESS (R500). In factory test mode, INJECT is reached through the test access port instruction 0x2A. -/
  | testPortInjectAccess (v : BitVec 64)
  /-- WDT_KICK (R497). A write of 0x5A restarts the watchdog period. -/
  | wdtKick (acc : Access) (v : BitVec 8)
  /-- PATROL_SCRUB_READ (R484). The patrol scrubber reads a store word and corrects it. -/
  | patrolScrubRead (store : StoreWord) (flips : List Nat)
  /-- STORE_CORR_CLEAR (R508). A write to STORE_CORR sets every field to zero. -/
  | storeCorrClear (acc : Access)
  /-- RECORD_WRITE_COMPLETE (R502). The recorder finishes programming and verifying a record, then programs VALID. -/
  | recordWriteComplete (verified : Bool)
  /-- RECORDER_SCAN_COMPLETE (R503). The power-on scan sets REC_NEXT, OP_HOURS and POWER_CYCLES and queues POWER_ON. -/
  | recorderScanComplete
  /-- OPERATING_HOUR_TICK (R503). An operating hour passes, and every 16 hours a CHECKPOINT record is queued. -/
  | operatingHourTick
  /-- RETIRE_COL (R518). A physical column is retired: checks, span reset, antifuse map, new serving junctions and the rewritten DIST_TABLE. -/
  | retireCol (acc : Access) (phys : BitVec 8)
  /-- RETIRE_ROW (R518). A physical row is retired in the same sequence. -/
  | retireRow (acc : Access) (phys : BitVec 8)
  /-- RETIREMENT_RESUME (R518). A DEFERRED retirement proceeds once the ward leaves ARMED and SWAPPING. -/
  | retirementResume
  /-- STEER_WIRE (R520). Steering of a tensor-link wire to a spare wire starts. -/
  | steerWire (acc : Access) (n : BitVec 7) (point : BitVec 3) (wire : BitVec 13)
  /-- WIRE_STEER_STAGE (R520). After 64 flits the receiver switches to the spare, and after 64 more the suspect wire is released. -/
  | wireSteerStage (n : Nat) (point : Nat) (spareOk : Bool)
  /-- STEER_LANE (R522). A reduction lane is steered to the spare lane at the next FIRST output flit. -/
  | steerLane (acc : Access) (n : BitVec 7) (lane : BitVec 13)
  /-- MARGIN_MEASURE (R525). Each second, MARGIN is measured on the unused spare wires. -/
  | marginMeasure (n : Nat) (point : Nat) (steps : BitVec 8)
  /-- PACE_DRIFT_MEASURE (R525). Each second, the reference ring runs one window and PACE_DRIFT is updated, with WEAR_DRIFT raised at the limit. -/
  | paceDriftMeasure (k : Nat) (drift : BitVec 16)
  /-- SUSPECT_HOUR_EXPIRE (R525). The hour ends, and SUSPECT_COUNT restarts. -/
  | suspectHourExpire
  /-- AUTO_BRIDGE_CHECK (R524). Firmware retrains a module with lane repair when the FEC corrections exceed the hourly limit. -/
  | autoBridgeCheck (b : Nat)
  /-- COUNTER_GATHER (R535). At least every 10 µs, the central reader gathers local counts into the totals. -/
  | counterGather
  /-- CNT_CFG_WRITE (R536). A slot is configured, and its value is set to zero. -/
  | cntCfgWrite (acc : Access) (k : Nat) (v : BitVec 32)
  /-- WARD_EVT_EN_WRITE (R537). The ward's counted codes change; unattributed codes are refused. -/
  | wardEvtEnWrite (acc : Access) (w : BitVec 4) (bits : BitVec 128)
  /-- TRACE_RECORD_STORE (R539). A trace record arrives over the chain and is stored, or counted as not stored. -/
  | traceRecordStore (n : Nat)
  /-- TRACE_TRIGGER (R542). A trigger writes the TRIGGER record and, in window mode, starts the post-trigger capture. -/
  | traceTrigger (acc : Access)
  /-- TRACE_RESTART (R542). RESTART empties the store and sets STATE to RUNNING. -/
  | traceRestart (acc : Access)
  /-- TRACE_CTRL_WRITE (R542). The trace set-up changes; it is refused while TRIGGERED unless ENABLE is cleared. -/
  | traceCtrlWrite (acc : Access) (v : BitVec 32)
  /-- HALL_REF_WRITE (R545). The hall reference is set at the master, and a hall offset measurement starts. -/
  | hallRefWrite (acc : Access) (v : BitVec 32)
  /-- HALL_TIME_RESP_RECEIVE (R545). A TIME exchange with the reference gate completes; the best one sets HALL_OFFSET and HALL_ERROR, which are copied to every die. -/
  | hallTimeRespReceive (t1 : Int) (t2 : Int) (t3 : Int) (t4 : Int) (refError : BitVec 32)
  /-- HALL_MEASURE_TIMEOUT (R545). No exchange completes within 10 ms, so HALL_ERROR stays unmeasured. -/
  | hallMeasureTimeout
  /-- PROGRESS_WATCH_EXAMINE (R546). Every 10 µs, the watchdog examines the items of every enabled class. -/
  | progressWatchExamine
  /-- WAIT_GRAPH_COMPLETE (R548). Firmware finishes the wait-for graph and sets its VERDICT. -/
  | waitGraphComplete
  /-- FREEZE (R550). FREEZE spreads on the freeze wires, and units withhold their acknowledges. -/
  | freeze (acc : Access)
  /-- FREEZE_COMPLETE (R550). Every unit is frozen, and FREEZE_STATE reads FROZEN. -/
  | freezeComplete
  /-- RELEASE (R551). RELEASE spreads and units resume, unless refused in the safe state or during a capture. -/
  | release (acc : Access)
  /-- RELEASE_COMPLETE (R551). Every unit has resumed after the release. -/
  | releaseComplete
  /-- CAPTURE (R552). CAPTURE starts reading every junction and unit into DUMP while frozen. -/
  | capture (acc : Access)
  /-- CAPTURE_COMPLETE (R552). The dump is complete, and the HANG_DUMP record is written. -/
  | captureComplete
  /-- HANG_STATUS_CLEAR (R562). A write to HANG_STATUS sets it to zero. -/
  | hangStatusClear (acc : Access)
  /-- PACE_MIN_CLEAR (R111). A write to PACE_MIN sets it to 0xFFFF. -/
  | paceMinClear (acc : Access) (k : Nat)
  /-- TLINK_CORR_CLEAR (R111). A write to TLINK_CORR sets every field to zero. -/
  | tlinkCorrClear (acc : Access) (n : Nat)
  /-- B_PORT_STATUS_CLEAR (R76). A write to B_PORT_STATUS sets every field to zero. -/
  | bPortStatusClear (acc : Access) (n : Nat)
  /-- RN_STATUS_CLEAR (R192). A write to RN_STATUS sets every field to zero. -/
  | rnStatusClear (acc : Access) (n : Nat)
  /-- TXN_STAT_CLEAR (R269). A write to TXN_STAT sets every field to zero. -/
  | txnStatClear (acc : Access) (n : Nat)
  /-- PROBE_COUNT_CLEAR (R269). A write to PROBE_COUNT sets PACKETS and BEATS to zero. -/
  | probeCountClear (acc : Access) (n : Nat)
  /-- CN_HANDSHAKE (R45). The core raises CN_READY and takes a queued NAK on CN_, freeing a place in the port's queue of 32 NAKs. -/
  | cnHandshake (n : Nat)
  /-- TR_RESPONSE_BEAT (R49). The core takes a response beat on TR_ when TR_READY is high, ending delivery of the completion and freeing its tag and response buffer. -/
  | trResponseBeat (unit : Nat)
  deriving DecidableEq, Repr

end Sys2Proof
end

