-- ==== Sys2Proof/Config.lean ====
section
/-! DEFINITION. The free values: what the manual leaves open. None has a body, so nothing can be proved of one. -/

namespace Sys2Proof

/-- A value the manual leaves random or unstated, by the number of values drawn before it: the random bits of the
blank provisional identifier (R60), the device key pair (R461), SPDM nonces and signatures (R457), and any result
for which the manual names no value. -/
opaque Config.freeValue : Nat → BitVec 64

/-- A byte string of the given length with a value the manual leaves random or unstated, by the same number. -/
opaque Config.freeBytes : Nat → Nat → List Byte

/-- The signature of the device's private key over a message (R457): no core can read the key. -/
opaque Config.deviceSign : Nat → List Byte → List Byte

/-- The hardened SHA-384 of the boot ROM (R457), which the manual does not print. -/
opaque Config.romDigest : List Byte

/-- FLOW_LABEL of a packet for which the manual gives none (CTL, ACK, RSP), by its source, destination and class. -/
opaque Config.packetLabel : BitVec 22 → BitVec 22 → Nat → BitVec 20

/-- The row of its store that holds a word, numbered over the die (R523): the manual gives the size of a row and not
which words share one. -/
opaque Config.storeRow : StoreWord → Nat

/-- The level of pin SSP0, SSP1, SSP2 or SSP3 as driven from outside (R68, R459), by the values drawn before and the local time: the
manual gives an input pin's level only at an edge and when the straps are latched. -/
opaque Config.pinLevel : Nat → Nat → Nat → Bool

/-- Whether some ward owns a resource on another die of the package (R322), by the values drawn before and the local time: the firmware
of the master asks every die, and nothing of this die says what they answer. -/
opaque Config.ownedElsewhere : Nat → Nat → Bool

/-- How long after the start of a freeze, in ns, a unit withholds its first acknowledge, by that start and the unit (R550): the manual
gives the bound, under which the model takes the remainder. -/
opaque Config.freezeDelay : Nat → Nat → Nat

/-- The SRAM macro that holds a word, numbered over the die (R513, R523). -/
opaque Config.storeMacro : StoreWord → Nat

end Sys2Proof
end

