-- ==== Sys2Proof/Machine/Catalogue.lean ====
section
/-! DEFINITION. The catalogue of the object dictionary: the key of every object, and for each its type, access
levels, reset class, default, writable bits and length, row by row as the object tables of the manual give them
(R12, R15, R433, R434, R564). Defaults that depend on the die's build or fuses stand as 0 here and are computed
where they are read. -/

namespace Sys2Proof.Machine

/-- The reset classes (R15). -/
inductive Cls where
  | f | p | k | d | w | v
  deriving DecidableEq, Repr

/-- The code of a class in DESCRIBE (R447); a reset of a class also resets every class of a higher number (R15). -/
def Cls.code : Cls → Nat
  | .f => 0
  | .p => 1
  | .k => 2
  | .d => 3
  | .w => 4
  | .v => 5

/-- One row of an object table: indices `ilo` to `ihi`, subindices `slo` to `shi`. Levels are 15 where no level may. -/
structure ObjRow where
  ilo : Nat
  ihi : Nat
  slo : Nat
  shi : Nat
  ty : Nat
  rd : Nat
  wr : Nat
  cls : Cls
  dflt : Nat
  /-- Bits a write at the object's write level may set (R11, R435). -/
  wmask : Nat
  /-- Further bits that only L2 and L3 may set. -/
  w2mask : Nat
  /-- Length of a scalar, or the largest DOMAIN (R447). -/
  maxLen : Nat
  deriving DecidableEq, Repr

/-- The key of object `index`:`sub`. -/
def objKey (index sub : Nat) : Nat := index * 256 + sub

/-! Keys of the objects, by name. -/

/-- BUILD_CODE (1000:01). -/
def Obj.buildCode : Nat := 0x100001
/-- RELEASE (1000:02). -/
def Obj.release : Nat := 0x100002
/-- LICENSEE_ID (1000:03). -/
def Obj.licenseeId : Nat := 0x100003
/-- LOG_COLS (1100:01). -/
def Obj.logCols : Nat := 0x110001
/-- LOG_ROWS (1100:02). -/
def Obj.logRows : Nat := 0x110002
/-- PHYS_COLS (1100:03). -/
def Obj.physCols : Nat := 0x110003
/-- PHYS_ROWS (1100:04). -/
def Obj.physRows : Nat := 0x110004
/-- CORE_COUNT (1100:05). -/
def Obj.coreCount : Nat := 0x110005
/-- MEM_ATTACH_COUNT (1100:06). -/
def Obj.memAttachCount : Nat := 0x110006
/-- GATE_COUNT (1100:07). -/
def Obj.gateCount : Nat := 0x110007
/-- HOST_PORT_COUNT (1100:08). -/
def Obj.hostPortCount : Nat := 0x110008
/-- BRIDGE_COUNT (1100:09). -/
def Obj.bridgeCount : Nat := 0x110009
/-- DMA_COUNT (1100:0A). -/
def Obj.dmaCount : Nat := 0x11000A
/-- REGION_COUNT (1100:0B). -/
def Obj.regionCount : Nat := 0x11000B
/-- ATTACH_MAP (1101:01 to 1101:78). -/
def Obj.attachMap (i : Nat) : Nat := 0x110101 + i
/-- STRAP_LATCH (1200:01). -/
def Obj.strapLatch : Nat := 0x120001
/-- PIN_LEVEL (1200:02). -/
def Obj.pinLevel : Nat := 0x120002
/-- SYNC_TIME (1200:03). -/
def Obj.syncTime : Nat := 0x120003
/-- SYNC_COUNT (1200:04). -/
def Obj.syncCount : Nat := 0x120004
/-- TIMEREF_LOSS (1200:05). -/
def Obj.timerefLoss : Nat := 0x120005
/-- A_ADAPTER (1210:01 to 1210:78). -/
def Obj.aAdapter (i : Nat) : Nat := 0x121001 + i
/-- A_CLOCK (1211:01 to 1211:78). -/
def Obj.aClock (i : Nat) : Nat := 0x121101 + i
/-- B_CLOCK (1212:01 to 1212:78). -/
def Obj.bClock (i : Nat) : Nat := 0x121201 + i
/-- PORT_STATUS (1213:01 to 1213:78). -/
def Obj.portStatus (i : Nat) : Nat := 0x121301 + i
/-- B_PORT_STATUS (1214:01 to 1214:78). -/
def Obj.bPortStatus (i : Nat) : Nat := 0x121401 + i
/-- HOST_WARD_MASK (1220:01 to 1220:02). -/
def Obj.hostWardMask (i : Nat) : Nat := 0x122001 + i
/-- PACE_RATE (1300:01 to 1300:08). -/
def Obj.paceRate (i : Nat) : Nat := 0x130001 + i
/-- PACE_MIN (1301:01 to 1301:08). -/
def Obj.paceMin (i : Nat) : Nat := 0x130101 + i
/-- JUNCTION_REGION (1302:01 to 1302:78). -/
def Obj.junctionRegion (i : Nat) : Nat := 0x130201 + i
/-- DIST_TABLE (1310:01). -/
def Obj.distTable : Nat := 0x131001
/-- DIST_GEN (1310:02). -/
def Obj.distGen : Nat := 0x131002
/-- TLINK_CORR (1320:01 to 1320:78). -/
def Obj.tlinkCorr (i : Nat) : Nat := 0x132001 + i
/-- WAKE_HOLD (1400:01). -/
def Obj.wakeHold : Nat := 0x140001
/-- MAX_IMAGE (1400:02). -/
def Obj.maxImage : Nat := 0x140002
/-- SCHED_IMAGE (1401:01 to 1401:10). -/
def Obj.schedImage (i : Nat) : Nat := 0x140101 + i
/-- LOAD_STATUS (1402:01 to 1402:10). -/
def Obj.loadStatus (i : Nat) : Nat := 0x140201 + i
/-- EPOCH_CTRL (1403:01 to 1403:10). -/
def Obj.epochCtrl (i : Nat) : Nat := 0x140301 + i
/-- EPOCH (1404:01 to 1404:10). -/
def Obj.epoch (i : Nat) : Nat := 0x140401 + i
/-- LIVE_DIGEST (1405:01 to 1405:10). -/
def Obj.liveDigest (i : Nat) : Nat := 0x140501 + i
/-- LIVE_IMAGE_ID (1406:01 to 1406:10). -/
def Obj.liveImageId (i : Nat) : Nat := 0x140601 + i
/-- EPOCH_TARGET (1407:01 to 1407:10). -/
def Obj.epochTarget (i : Nat) : Nat := 0x140701 + i
/-- BANK_STATE (1410:01 to 1410:78). -/
def Obj.bankState (i : Nat) : Nat := 0x141001 + i
/-- LIVE_BANK (1411:01 to 1411:78). -/
def Obj.liveBank (i : Nat) : Nat := 0x141101 + i
/-- A_PERIODS (1412:01 to 1412:78). -/
def Obj.aPeriods (i : Nat) : Nat := 0x141201 + i
/-- B_PERIODS (1413:01 to 1413:78). -/
def Obj.bPeriods (i : Nat) : Nat := 0x141301 + i
/-- SETUP_DIGEST (1500:01 to 1500:10). -/
def Obj.setupDigest (i : Nat) : Nat := 0x150001 + i
/-- TALLY_ENTRIES (1501:01). -/
def Obj.tallyEntries : Nat := 0x150101
/-- JOIN_SLOTS (1501:02). -/
def Obj.joinSlots : Nat := 0x150102
/-- RN_STATUS (1510:01 to 1510:78). -/
def Obj.rnStatus (i : Nat) : Nat := 0x151001 + i
/-- TAP_CTRL (1520:01 to 1520:78). -/
def Obj.tapCtrl (i : Nat) : Nat := 0x152001 + i
/-- TAP_RESULT (1521:01 to 1521:78). -/
def Obj.tapResult (i : Nat) : Nat := 0x152101 + i
/-- SOCKET_WORDS (1600:01). -/
def Obj.socketWords : Nat := 0x160001
/-- MAX_WORDS (1600:02). -/
def Obj.maxWords : Nat := 0x160002
/-- CHANNELS (1600:03). -/
def Obj.channels : Nat := 0x160003
/-- NAK_QUEUE (1600:04). -/
def Obj.nakQueue : Nat := 0x160004
/-- CHAN (1620:01 to 162F:40). -/
def Obj.gateChan (u i : Nat) : Nat := 0x162001 + 256 * u + i
/-- RANK (1620:41 to 162F:41). -/
def Obj.gateRank (u : Nat) : Nat := 0x162041 + 256 * u
/-- CHAN (1630:01 to 1633:40). -/
def Obj.dmaChan (u i : Nat) : Nat := 0x163001 + 256 * u + i
/-- RANK (1630:41 to 1633:41). -/
def Obj.dmaRank (u : Nat) : Nat := 0x163041 + 256 * u
/-- RANK (1634:01 to 1635:01). -/
def Obj.hostRank (u : Nat) : Nat := 0x163401 + 256 * u
/-- SOCK_CFG (1680:01 to 16F7:20). -/
def Obj.sockCfg (u i : Nat) : Nat := 0x168001 + 256 * u + i
/-- SOCK_STAT (1680:21 to 16F7:40). -/
def Obj.sockStat (u i : Nat) : Nat := 0x168021 + 256 * u + i
/-- CHAN (1680:41 to 16F7:80). -/
def Obj.portChan (u i : Nat) : Nat := 0x168041 + 256 * u + i
/-- PORT_RANK (1680:81 to 16F7:81). -/
def Obj.portRank (u : Nat) : Nat := 0x168081 + 256 * u
/-- COMB_CFG (1680:82 to 16F7:82). -/
def Obj.combCfg (u : Nat) : Nat := 0x168082 + 256 * u
/-- RELEASE_MAP (1680:83 to 16F7:83). -/
def Obj.releaseMap (u : Nat) : Nat := 0x168083 + 256 * u
/-- COMB_STAT (1680:84 to 16F7:84). -/
def Obj.combStat (u : Nat) : Nat := 0x168084 + 256 * u
/-- MA_SLOTS (1700:01). -/
def Obj.maSlots : Nat := 0x170001
/-- LEASE_MAX (1700:02). -/
def Obj.leaseMax : Nat := 0x170002
/-- BACKOFF_BASE (1700:03). -/
def Obj.backoffBase : Nat := 0x170003
/-- BACKOFF_CAP (1700:04). -/
def Obj.backoffCap : Nat := 0x170004
/-- MA_READ_BUFFER (1700:05). -/
def Obj.maReadBuffer : Nat := 0x170005
/-- SERVICE (1701:01 to 1701:10). -/
def Obj.service (i : Nat) : Nat := 0x170101 + i
/-- TXN_TIMEOUT (1702:01 to 1702:10). -/
def Obj.txnTimeout (i : Nat) : Nat := 0x170201 + i
/-- MEM_MAP (1710:01 to 1710:10). -/
def Obj.memMap (i : Nat) : Nat := 0x171001 + i
/-- POOL_SIZE (1711:01 to 1711:10). -/
def Obj.poolSize (i : Nat) : Nat := 0x171101 + i
/-- ARB_TABLE (1712:01 to 1712:10). -/
def Obj.arbTable (i : Nat) : Nat := 0x171201 + i
/-- ARB_RENUMBER (1713:01 to 1713:10). -/
def Obj.arbRenumber (i : Nat) : Nat := 0x171301 + i
/-- HOST_XLAT (1720:01 to 1721:40). -/
def Obj.hostXlat (u i : Nat) : Nat := 0x172001 + 256 * u + i
/-- COH_WINDOW (1722:01 to 1723:08). -/
def Obj.cohWindow (u i : Nat) : Nat := 0x172201 + 256 * u + i
/-- REG_CFG (1730:01 to 1730:78). -/
def Obj.regCfg (i : Nat) : Nat := 0x173001 + i
/-- REG_CFG (1731:01 to 1731:04, 1732:01 to 1732:02). -/
def Obj.regCfgSide (u i : Nat) : Nat := 0x173101 + 256 * u + i
/-- TXN_STAT (1733:01 to 1733:78). -/
def Obj.txnStat (i : Nat) : Nat := 0x173301 + i
/-- PROBE_CTRL (1740:01 to 1740:78). -/
def Obj.probeCtrl (i : Nat) : Nat := 0x174001 + i
/-- PROBE_MATCH (1741:01 to 1741:78). -/
def Obj.probeMatch (i : Nat) : Nat := 0x174101 + i
/-- PROBE_MASK (1742:01 to 1742:78). -/
def Obj.probeMask (i : Nat) : Nat := 0x174201 + i
/-- PROBE_COUNT (1743:01 to 1743:78). -/
def Obj.probeCount (i : Nat) : Nat := 0x174301 + i
/-- DMA_CHANNELS (1800:01). -/
def Obj.dmaChannels : Nat := 0x180001
/-- CHAN_BUFFER (1800:02). -/
def Obj.chanBuffer : Nat := 0x180002
/-- ENGINE_TAGS (1800:03). -/
def Obj.engineTags : Nat := 0x180003
/-- CH_CFG (1810:01 to 184F:01). -/
def Obj.chCfg (u : Nat) : Nat := 0x181001 + 256 * u
/-- RING_BASE (1810:02 to 184F:02). -/
def Obj.ringBase (u : Nat) : Nat := 0x181002 + 256 * u
/-- RING_SIZE_M1 (1810:03 to 184F:03). -/
def Obj.ringSizeM1 (u : Nat) : Nat := 0x181003 + 256 * u
/-- RING_HEAD (1810:04 to 184F:04). -/
def Obj.ringHead (u : Nat) : Nat := 0x181004 + 256 * u
/-- CH_CTRL (1810:05 to 184F:05). -/
def Obj.chCtrl (u : Nat) : Nat := 0x181005 + 256 * u
/-- CH_STATUS (1810:06 to 184F:06). -/
def Obj.chStatus (u : Nat) : Nat := 0x181006 + 256 * u
/-- IRQ_CFG (1810:07 to 184F:07). -/
def Obj.irqCfg (u : Nat) : Nat := 0x181007 + 256 * u
/-- CH_ERR (1810:08 to 184F:08). -/
def Obj.chErr (u : Nat) : Nat := 0x181008 + 256 * u
/-- CH_STAT (1810:09 to 184F:09). -/
def Obj.chStat (u : Nat) : Nat := 0x181009 + 256 * u
/-- TRIP (1850:01 to 1853:20). -/
def Obj.dmaTrip (u i : Nat) : Nat := 0x185001 + 256 * u + i
/-- TRIP_WARD (1854:01 to 1857:20). -/
def Obj.dmaTripWard (u i : Nat) : Nat := 0x185401 + 256 * u + i
/-- DIE_NUMBER (1900:01). -/
def Obj.dieNumber : Nat := 0x190001
/-- PKG_NUMBER (1900:02). -/
def Obj.pkgNumber : Nat := 0x190002
/-- ENUM_STATE (1900:03). -/
def Obj.enumState : Nat := 0x190003
/-- DIE_MAP (1900:04). -/
def Obj.dieMap : Nat := 0x190004
/-- TB_OFFSET (1900:05). -/
def Obj.tbOffset : Nat := 0x190005
/-- TB_ERROR (1900:06). -/
def Obj.tbError : Nat := 0x190006
/-- TB_PERIOD (1900:07). -/
def Obj.tbPeriod : Nat := 0x190007
/-- TB_GEN (1900:08). -/
def Obj.tbGen : Nat := 0x190008
/-- BRIDGE_CFG (1910:01 to 1913:01). -/
def Obj.bridgeCfg (u : Nat) : Nat := 0x191001 + 256 * u
/-- BRIDGE_STATUS (1910:02 to 1913:02). -/
def Obj.bridgeStatus (u : Nat) : Nat := 0x191002 + 256 * u
/-- GROUP_MAP (1910:03 to 1913:03). -/
def Obj.groupMap (u : Nat) : Nat := 0x191003 + 256 * u
/-- MODULE_REPAIR (1910:04 to 1913:04). -/
def Obj.moduleRepair (u : Nat) : Nat := 0x191004 + 256 * u
/-- BRIDGE_ERR (1910:05 to 1913:05). -/
def Obj.bridgeErr (u : Nat) : Nat := 0x191005 + 256 * u
/-- PKG_IMAGE (1920:01 to 1920:10). -/
def Obj.pkgImage (i : Nat) : Nat := 0x192001 + i
/-- PKG_STATUS (1921:01 to 1921:10). -/
def Obj.pkgStatus (i : Nat) : Nat := 0x192101 + i
/-- PKG_CTRL (1922:01 to 1922:10). -/
def Obj.pkgCtrl (i : Nat) : Nat := 0x192201 + i
/-- PLAT_ENTRIES (1A00:01). -/
def Obj.platEntries : Nat := 0x1A0001
/-- PLAT_USED (1A00:02). -/
def Obj.platUsed : Nat := 0x1A0002
/-- PLAT_SIZES (1A00:03). -/
def Obj.platSizes : Nat := 0x1A0003
/-- PLAT_INSERT (1A00:04). -/
def Obj.platInsert : Nat := 0x1A0004
/-- PLAT_REMOVE (1A00:05). -/
def Obj.platRemove : Nat := 0x1A0005
/-- PLAT_QUERY (1A00:06). -/
def Obj.platQuery : Nat := 0x1A0006
/-- GATE_WARD (1A01:01 to 1A01:10). -/
def Obj.gateWard (i : Nat) : Nat := 0x1A0101 + i
/-- GATE_CFG (1A10:01 to 1A1F:01). -/
def Obj.gateCfg (u : Nat) : Nat := 0x1A1001 + 256 * u
/-- GATE_SHARE (1A10:02 to 1A1F:02). -/
def Obj.gateShare (u : Nat) : Nat := 0x1A1002 + 256 * u
/-- RETX_CFG (1A10:03 to 1A1F:03). -/
def Obj.retxCfg (u : Nat) : Nat := 0x1A1003 + 256 * u
/-- GATE_STATUS (1A10:04 to 1A1F:04). -/
def Obj.gateStatus (u : Nat) : Nat := 0x1A1004 + 256 * u
/-- GATE_ERR (1A10:05 to 1A1F:05). -/
def Obj.gateErr (u : Nat) : Nat := 0x1A1005 + 256 * u
/-- MIRROR_ALL (1A10:06 to 1A1F:06). -/
def Obj.mirrorAll (u : Nat) : Nat := 0x1A1006 + 256 * u
/-- HALL_TOPO (1B00:01). -/
def Obj.hallTopo : Nat := 0x1B0001
/-- COLL_STORE (1B00:02). -/
def Obj.collStore : Nat := 0x1B0002
/-- COLL_CHANNELS (1B00:03). -/
def Obj.collChannels : Nat := 0x1B0003
/-- STORE_CFG (1B10:01 to 1B1F:01). -/
def Obj.storeCfg (u : Nat) : Nat := 0x1B1001 + 256 * u
/-- GROUP (1B20:01 to 1B2F:40). -/
def Obj.group (u i : Nat) : Nat := 0x1B2001 + 256 * u + i
/-- SW_CAP (1B30:01 to 1B3F:40). -/
def Obj.swCap (u i : Nat) : Nat := 0x1B3001 + 256 * u + i
/-- TRIP (1B40:01 to 1B4F:20). -/
def Obj.collTrip (u i : Nat) : Nat := 0x1B4001 + 256 * u + i
/-- TRIP_WARD (1B50:01 to 1B5F:20). -/
def Obj.collTripWard (u i : Nat) : Nat := 0x1B5001 + 256 * u + i
/-- COLL_CFG (1C00:01 to 1DFF:01). -/
def Obj.collCfg (u : Nat) : Nat := 0x1C0001 + 256 * u
/-- OP_RING_BASE (1C00:02 to 1DFF:02). -/
def Obj.opRingBase (u : Nat) : Nat := 0x1C0002 + 256 * u
/-- OP_RING_SIZE_M1 (1C00:03 to 1DFF:03). -/
def Obj.opRingSizeM1 (u : Nat) : Nat := 0x1C0003 + 256 * u
/-- OP_RING_HEAD (1C00:04 to 1DFF:04). -/
def Obj.opRingHead (u : Nat) : Nat := 0x1C0004 + 256 * u
/-- COLL_CTRL (1C00:05 to 1DFF:05). -/
def Obj.collCtrl (u : Nat) : Nat := 0x1C0005 + 256 * u
/-- COLL_STATUS (1C00:06 to 1DFF:06). -/
def Obj.collStatus (u : Nat) : Nat := 0x1C0006 + 256 * u
/-- LAG_TABLE (1C00:07 to 1DFF:07). -/
def Obj.lagTable (u : Nat) : Nat := 0x1C0007 + 256 * u
/-- COLL_STAT (1C00:08 to 1DFF:08). -/
def Obj.collStat (u : Nat) : Nat := 0x1C0008 + 256 * u
/-- WARDS (1E00:01). -/
def Obj.wards : Nat := 0x1E0001
/-- RANGE_ENTRIES (1E00:02). -/
def Obj.rangeEntries : Nat := 0x1E0002
/-- WARD_REFUSALS (1E00:03). -/
def Obj.wardRefusals : Nat := 0x1E0003
/-- WARD_STATE (1E01:01 to 1E01:10). -/
def Obj.wardState (i : Nat) : Nat := 0x1E0101 + i
/-- WARD_CTRL (1E02:01 to 1E02:10). -/
def Obj.wardCtrl (i : Nat) : Nat := 0x1E0201 + i
/-- WARD_JUNCTIONS (1E03:01 to 1E03:10). -/
def Obj.wardJunctions (i : Nat) : Nat := 0x1E0301 + i
/-- WARD_POLICY (1E04:01 to 1E04:10). -/
def Obj.wardPolicy (i : Nat) : Nat := 0x1E0401 + i
/-- WARD_RANGE (1E10:01 to 1E10:40). -/
def Obj.wardRange (i : Nat) : Nat := 0x1E1001 + i
/-- CORE_STATE (2000:01). -/
def Obj.coreState : Nat := 0x200001
/-- CORE_SEL (2000:02). -/
def Obj.coreSel : Nat := 0x200002
/-- FW_RELEASE (2000:03). -/
def Obj.fwRelease : Nat := 0x200003
/-- PATH_CAP (2000:04). -/
def Obj.pathCap : Nat := 0x200004
/-- MGMT_SLOTS (2000:05). -/
def Obj.mgmtSlots : Nat := 0x200005
/-- SEGMENT_MAX (2000:06). -/
def Obj.segmentMax : Nat := 0x200006
/-- TRANSFERS (2000:07). -/
def Obj.transfers : Nat := 0x200007
/-- MCTP_IANA (2000:08). -/
def Obj.mctpIana : Nat := 0x200008
/-- ACCESS_STAT (2000:09). -/
def Obj.accessStat : Nat := 0x200009
/-- LIFECYCLE (2100:01). -/
def Obj.lifecycle : Nat := 0x210001
/-- LIFECYCLE_ADVANCE (2100:02). -/
def Obj.lifecycleAdvance : Nat := 0x210002
/-- FUSE_CAPS (2100:03). -/
def Obj.fuseCaps : Nat := 0x210003
/-- PROVISION (2100:04). -/
def Obj.provision : Nat := 0x210004
/-- DEVICE_PUBKEY (2100:05). -/
def Obj.devicePubkey : Nat := 0x210005
/-- CERT_CHAIN (2100:06). -/
def Obj.certChain : Nat := 0x210006
/-- SCHED_KEY_HASH (2100:07). -/
def Obj.schedKeyHash : Nat := 0x210007
/-- DEBUG_DISABLE (2100:08). -/
def Obj.debugDisable : Nat := 0x210008
/-- FW_IMAGE (2100:09). -/
def Obj.fwImage : Nat := 0x210009
/-- FW_CTRL (2100:0A). -/
def Obj.fwCtrl : Nat := 0x21000A
/-- BOOT_STATUS (2100:0B). -/
def Obj.bootStatus : Nat := 0x21000B
/-- MEAS_FW (2100:0C). -/
def Obj.measFw : Nat := 0x21000C
/-- DIE_RESET (2110:01). -/
def Obj.dieReset : Nat := 0x211001
/-- PKG_RESET (2110:02). -/
def Obj.pkgReset : Nat := 0x211002
/-- RESET_CAUSE (2110:03). -/
def Obj.resetCause : Nat := 0x211003
/-- REGION_CTRL (2120:01 to 2120:08). -/
def Obj.regionCtrl (i : Nat) : Nat := 0x212001 + i
/-- REGION_STATE (2121:01 to 2121:08). -/
def Obj.regionState (i : Nat) : Nat := 0x212101 + i
/-- REGION_CFG (2122:01 to 2122:08). -/
def Obj.regionCfg (i : Nat) : Nat := 0x212201 + i
/-- RAIL_TARGET (2123:01 to 2123:08). -/
def Obj.railTarget (i : Nat) : Nat := 0x212301 + i
/-- RAIL_APPLIED (2124:01 to 2124:08). -/
def Obj.railApplied (i : Nat) : Nat := 0x212401 + i
/-- SUPPLY_NOW (2130:01). -/
def Obj.supplyNow : Nat := 0x213001
/-- SUPPLY_STAT (2130:02). -/
def Obj.supplyStat : Nat := 0x213002
/-- CORE_BUDGET (2130:03). -/
def Obj.coreBudget : Nat := 0x213003
/-- THROTTLE_PSTATE (2130:04). -/
def Obj.throttlePstate : Nat := 0x213004
/-- GRANTED_POWER (2130:05). -/
def Obj.grantedPower : Nat := 0x213005
/-- SERVICE_TIER (2130:06). -/
def Obj.serviceTier : Nat := 0x213006
/-- FAULT_THRESHOLD (2200:01). -/
def Obj.faultThreshold : Nat := 0x220001
/-- FAULT_CLEAR (2200:02). -/
def Obj.faultClear : Nat := 0x220002
/-- FAULT_SUMMARY (2200:03). -/
def Obj.faultSummary : Nat := 0x220003
/-- FAULT_NOTIFY (2200:04). -/
def Obj.faultNotify : Nat := 0x220004
/-- INJECT (2200:05). -/
def Obj.inject : Nat := 0x220005
/-- WDT_PERIOD (2200:06). -/
def Obj.wdtPeriod : Nat := 0x220006
/-- WDT_KICK (2200:07). -/
def Obj.wdtKick : Nat := 0x220007
/-- SCRUB_PERIOD (2200:08). -/
def Obj.scrubPeriod : Nat := 0x220008
/-- STORE_CORR (2200:09). -/
def Obj.storeCorr : Nat := 0x220009
/-- FAULT_SEV (2210:01 to 2213:80): number s at index s div 128, subindex s mod 128 + 1. -/
def Obj.faultSev (s : Nat) : Nat := 0x221001 + 256 * (s / 128) + s % 128
/-- FAULT_STATUS (2220:01 to 2223:80): number s at index s div 128, subindex s mod 128 + 1. -/
def Obj.faultStatus (s : Nat) : Nat := 0x222001 + 256 * (s / 128) + s % 128
/-- REC_POLICY (2230:01). -/
def Obj.recPolicy : Nat := 0x223001
/-- REC_NEXT (2230:02). -/
def Obj.recNext : Nat := 0x223002
/-- REC_LOST (2230:03). -/
def Obj.recLost : Nat := 0x223003
/-- POWER_CYCLES (2230:04). -/
def Obj.powerCycles : Nat := 0x223004
/-- OP_HOURS (2230:05). -/
def Obj.opHours : Nat := 0x223005
/-- EVENT_LOG (2230:06). -/
def Obj.eventLog : Nat := 0x223006
/-- RECORD (2240:01 to 227F:80): number s at index s div 128, subindex s mod 128 + 1. -/
def Obj.record (s : Nat) : Nat := 0x224001 + 256 * (s / 128) + s % 128
/-- COL_MAP (2300:01). -/
def Obj.colMap : Nat := 0x230001
/-- ROW_MAP (2300:02). -/
def Obj.rowMap : Nat := 0x230002
/-- SISTER_CTRL (2300:03). -/
def Obj.sisterCtrl : Nat := 0x230003
/-- SPARE_POLICY (2300:04). -/
def Obj.sparePolicy : Nat := 0x230004
/-- PACE_DRIFT (2301:01 to 2301:08). -/
def Obj.paceDrift (i : Nat) : Nat := 0x230101 + i
/-- ROW_SPARES (2302:01 to 2302:08). -/
def Obj.rowSpares (i : Nat) : Nat := 0x230201 + i
/-- LINK_WEAR (2310:01 to 2310:78). -/
def Obj.linkWear (i : Nat) : Nat := 0x231001 + i
/-- SPARE_USE (2311:01 to 2311:78). -/
def Obj.spareUse (i : Nat) : Nat := 0x231101 + i
/-- TRACE_CTRL (2400:01). -/
def Obj.traceCtrl : Nat := 0x240001
/-- TRACE_STATUS (2400:02). -/
def Obj.traceStatus : Nat := 0x240002
/-- TRACE_LOSS (2400:03). -/
def Obj.traceLoss : Nat := 0x240003
/-- TRACE_CMD (2400:04). -/
def Obj.traceCmd : Nat := 0x240004
/-- TRACE_MATCH (2400:05). -/
def Obj.traceMatch : Nat := 0x240005
/-- TRACE_READ_AT (2400:06). -/
def Obj.traceReadAt : Nat := 0x240006
/-- TRACE_DATA (2400:07). -/
def Obj.traceData : Nat := 0x240007
/-- GATHER_TIME (2400:08). -/
def Obj.gatherTime : Nat := 0x240008
/-- HALL_REF (2400:09). -/
def Obj.hallRef : Nat := 0x240009
/-- HALL_OFFSET (2400:0A). -/
def Obj.hallOffset : Nat := 0x24000A
/-- HALL_ERROR (2400:0B). -/
def Obj.hallError : Nat := 0x24000B
/-- CNT_CFG (2410:01 to 2410:40). -/
def Obj.cntCfg (i : Nat) : Nat := 0x241001 + i
/-- CNT_VALUE (2411:01 to 2411:40). -/
def Obj.cntValue (i : Nat) : Nat := 0x241101 + i
/-- WARD_EVT_EN (2420:01 to 2420:10). -/
def Obj.wardEvtEn (i : Nat) : Nat := 0x242001 + i
/-- WARD_EVENTS (2421:01 to 2421:10). -/
def Obj.wardEvents (i : Nat) : Nat := 0x242101 + i
/-- WATCH_CFG (2430:01). -/
def Obj.watchCfg : Nat := 0x243001
/-- WATCH_WINDOW (2430:02 to 2430:05). -/
def Obj.watchWindow (i : Nat) : Nat := 0x243002 + i
/-- HANG_STATUS (2430:06). -/
def Obj.hangStatus : Nat := 0x243006
/-- WAIT_GRAPH (2430:07). -/
def Obj.waitGraph : Nat := 0x243007
/-- FREEZE_CTRL (2440:01). -/
def Obj.freezeCtrl : Nat := 0x244001
/-- FREEZE_STATE (2440:02). -/
def Obj.freezeState : Nat := 0x244002
/-- DUMP_CTRL (2440:03). -/
def Obj.dumpCtrl : Nat := 0x244003
/-- DUMP (2440:04). -/
def Obj.dump : Nat := 0x244004

def scopeRows : List ObjRow := [
  ⟨0x1000, 0x1000, 0x01, 0x01, 2, 0, 15, .f, 0x0, 0x0, 0x0, 2⟩, -- BUILD_CODE
  ⟨0x1000, 0x1000, 0x02, 0x02, 2, 0, 15, .f, 0x502, 0x0, 0x0, 2⟩, -- RELEASE
  ⟨0x1000, 0x1000, 0x03, 0x03, 3, 0, 15, .f, 0x0, 0x0, 0x0, 4⟩] -- LICENSEE_ID

def archRows : List ObjRow := [
  ⟨0x1100, 0x1100, 0x01, 0x01, 1, 0, 15, .f, 0x0, 0x0, 0x0, 1⟩, -- LOG_COLS
  ⟨0x1100, 0x1100, 0x02, 0x02, 1, 0, 15, .f, 0x0, 0x0, 0x0, 1⟩, -- LOG_ROWS
  ⟨0x1100, 0x1100, 0x03, 0x03, 1, 0, 15, .f, 0x0, 0x0, 0x0, 1⟩, -- PHYS_COLS
  ⟨0x1100, 0x1100, 0x04, 0x04, 1, 0, 15, .f, 0x0, 0x0, 0x0, 1⟩, -- PHYS_ROWS
  ⟨0x1100, 0x1100, 0x05, 0x05, 1, 0, 15, .f, 0x0, 0x0, 0x0, 1⟩, -- CORE_COUNT
  ⟨0x1100, 0x1100, 0x06, 0x06, 1, 0, 15, .f, 0x0, 0x0, 0x0, 1⟩, -- MEM_ATTACH_COUNT
  ⟨0x1100, 0x1100, 0x07, 0x07, 1, 0, 15, .f, 0x0, 0x0, 0x0, 1⟩, -- GATE_COUNT
  ⟨0x1100, 0x1100, 0x08, 0x08, 1, 0, 15, .f, 0x0, 0x0, 0x0, 1⟩, -- HOST_PORT_COUNT
  ⟨0x1100, 0x1100, 0x09, 0x09, 1, 0, 15, .f, 0x0, 0x0, 0x0, 1⟩, -- BRIDGE_COUNT
  ⟨0x1100, 0x1100, 0x0A, 0x0A, 1, 0, 15, .f, 0x4, 0x0, 0x0, 1⟩, -- DMA_COUNT
  ⟨0x1100, 0x1100, 0x0B, 0x0B, 1, 0, 15, .f, 0x0, 0x0, 0x0, 1⟩, -- REGION_COUNT
  ⟨0x1101, 0x1101, 0x01, 0x78, 2, 0, 15, .f, 0x0, 0x0, 0x0, 2⟩] -- ATTACH_MAP

def portsRows : List ObjRow := [
  ⟨0x1200, 0x1200, 0x01, 0x01, 1, 0, 15, .p, 0x0, 0x0, 0x0, 1⟩, -- STRAP_LATCH
  ⟨0x1200, 0x1200, 0x02, 0x02, 1, 2, 15, .v, 0x0, 0x0, 0x0, 1⟩, -- PIN_LEVEL
  ⟨0x1200, 0x1200, 0x03, 0x03, 4, 0, 15, .d, 0x0, 0x0, 0x0, 8⟩, -- SYNC_TIME
  ⟨0x1200, 0x1200, 0x04, 0x04, 3, 0, 15, .d, 0x0, 0x0, 0x0, 4⟩, -- SYNC_COUNT
  ⟨0x1200, 0x1200, 0x05, 0x05, 2, 0, 15, .p, 0x0, 0x0, 0x0, 2⟩, -- TIMEREF_LOSS
  ⟨0x1210, 0x1210, 0x01, 0x78, 3, 0, 15, .f, 0x0, 0x0, 0x0, 4⟩, -- A_ADAPTER
  ⟨0x1211, 0x1211, 0x01, 0x78, 2, 2, 15, .v, 0x0, 0x0, 0x0, 2⟩, -- A_CLOCK
  ⟨0x1212, 0x1212, 0x01, 0x78, 2, 2, 15, .v, 0x0, 0x0, 0x0, 2⟩, -- B_CLOCK
  ⟨0x1213, 0x1213, 0x01, 0x78, 3, 1, 15, .w, 0x0, 0x0, 0x0, 4⟩, -- PORT_STATUS
  ⟨0x1214, 0x1214, 0x01, 0x78, 3, 2, 2, .d, 0x0, 0xFFFFFFFF, 0x0, 4⟩, -- B_PORT_STATUS
  ⟨0x1220, 0x1220, 0x01, 0x02, 2, 2, 2, .d, 0x0, 0xFFFF, 0x0, 2⟩] -- HOST_WARD_MASK

def linksRows : List ObjRow := [
  ⟨0x1300, 0x1300, 0x01, 0x08, 2, 2, 15, .v, 0x0, 0x0, 0x0, 2⟩, -- PACE_RATE
  ⟨0x1301, 0x1301, 0x01, 0x08, 2, 2, 2, .d, 0xFFFF, 0xFFFF, 0x0, 2⟩, -- PACE_MIN
  ⟨0x1302, 0x1302, 0x01, 0x78, 1, 0, 15, .f, 0x0, 0x0, 0x0, 1⟩, -- JUNCTION_REGION
  ⟨0x1310, 0x1310, 0x01, 0x01, 9, 0, 15, .d, 0x0, 0x0, 0x0, 0⟩, -- DIST_TABLE
  ⟨0x1310, 0x1310, 0x02, 0x02, 3, 0, 15, .d, 0x0, 0x0, 0x0, 4⟩, -- DIST_GEN
  ⟨0x1320, 0x1320, 0x01, 0x78, 3, 2, 2, .d, 0x0, 0xFFFFFFFF, 0x0, 4⟩] -- TLINK_CORR

def schedRows : List ObjRow := [
  ⟨0x1400, 0x1400, 0x01, 0x01, 3, 2, 2, .d, 0x186A0, 0xFFFFFFFF, 0x0, 4⟩, -- WAKE_HOLD
  ⟨0x1400, 0x1400, 0x02, 0x02, 3, 0, 15, .f, 0x1800000, 0x0, 0x0, 4⟩, -- MAX_IMAGE
  ⟨0x1401, 0x1401, 0x01, 0x10, 9, 15, 1, .w, 0x0, 0x0, 0x0, 25165824⟩, -- SCHED_IMAGE
  ⟨0x1402, 0x1402, 0x01, 0x10, 3, 1, 15, .w, 0xFFFFFF, 0x0, 0x0, 4⟩, -- LOAD_STATUS
  ⟨0x1403, 0x1403, 0x01, 0x10, 1, 1, 1, .w, 0x0, 0xF, 0x0, 1⟩, -- EPOCH_CTRL
  ⟨0x1404, 0x1404, 0x01, 0x10, 3, 1, 15, .w, 0x0, 0x0, 0x0, 4⟩, -- EPOCH
  ⟨0x1405, 0x1405, 0x01, 0x10, 9, 1, 15, .w, 0x0, 0x0, 0x0, 48⟩, -- LIVE_DIGEST
  ⟨0x1406, 0x1406, 0x01, 0x10, 3, 1, 15, .w, 0x0, 0x0, 0x0, 4⟩, -- LIVE_IMAGE_ID
  ⟨0x1407, 0x1407, 0x01, 0x10, 3, 1, 15, .w, 0x0, 0x0, 0x0, 4⟩, -- EPOCH_TARGET
  ⟨0x1410, 0x1410, 0x01, 0x78, 3, 1, 15, .w, 0x0, 0x0, 0x0, 4⟩, -- BANK_STATE
  ⟨0x1411, 0x1411, 0x01, 0x78, 9, 1, 15, .w, 0x0, 0x0, 0x0, 148000⟩, -- LIVE_BANK
  ⟨0x1412, 0x1412, 0x01, 0x78, 3, 1, 15, .w, 0x0, 0x0, 0x0, 4⟩, -- A_PERIODS
  ⟨0x1413, 0x1413, 0x01, 0x78, 3, 1, 15, .w, 0x0, 0x0, 0x0, 4⟩] -- B_PERIODS

def reduceRows : List ObjRow := [
  ⟨0x1500, 0x1500, 0x01, 0x10, 9, 1, 15, .w, 0x0, 0x0, 0x0, 48⟩, -- SETUP_DIGEST
  ⟨0x1501, 0x1501, 0x01, 0x01, 2, 0, 15, .f, 0x4000, 0x0, 0x0, 2⟩, -- TALLY_ENTRIES
  ⟨0x1501, 0x1501, 0x02, 0x02, 1, 0, 15, .f, 0x10, 0x0, 0x0, 1⟩, -- JOIN_SLOTS
  ⟨0x1510, 0x1510, 0x01, 0x78, 3, 1, 2, .w, 0x0, 0xFFFFFFFF, 0x0, 4⟩, -- RN_STATUS
  ⟨0x1520, 0x1520, 0x01, 0x78, 3, 1, 1, .w, 0x0, 0xFFFFFFFF, 0x0, 4⟩, -- TAP_CTRL
  ⟨0x1521, 0x1521, 0x01, 0x78, 9, 1, 15, .v, 0x0, 0x0, 0x0, 80⟩] -- TAP_RESULT

def controlRows : List ObjRow := [
  ⟨0x1600, 0x1600, 0x01, 0x01, 2, 0, 15, .f, 0x1000, 0x0, 0x0, 2⟩, -- SOCKET_WORDS
  ⟨0x1600, 0x1600, 0x02, 0x02, 1, 0, 15, .f, 0x8, 0x0, 0x0, 1⟩, -- MAX_WORDS
  ⟨0x1600, 0x1600, 0x03, 0x03, 1, 0, 15, .f, 0x40, 0x0, 0x0, 1⟩, -- CHANNELS
  ⟨0x1600, 0x1600, 0x04, 0x04, 1, 0, 15, .f, 0x20, 0x0, 0x0, 1⟩, -- NAK_QUEUE
  ⟨0x1620, 0x162F, 0x01, 0x40, 3, 1, 1, .w, 0x0, 0xC1FFFFFF, 0x0, 4⟩, -- CHAN
  ⟨0x1620, 0x162F, 0x41, 0x41, 1, 0, 2, .d, 0x40, 0xFF, 0x0, 1⟩, -- RANK
  ⟨0x1630, 0x1633, 0x01, 0x40, 3, 1, 1, .w, 0x0, 0xC1FFFFFF, 0x0, 4⟩, -- CHAN
  ⟨0x1630, 0x1633, 0x41, 0x41, 1, 0, 2, .d, 0x40, 0xFF, 0x0, 1⟩, -- RANK
  ⟨0x1634, 0x1635, 0x01, 0x01, 1, 2, 2, .d, 0xF0, 0xFF, 0x0, 1⟩, -- RANK
  ⟨0x1680, 0x16F7, 0x01, 0x20, 4, 1, 1, .w, 0x0, 0xFFFFFFFFFFFFFF00, 0x0, 8⟩, -- SOCK_CFG
  ⟨0x1680, 0x16F7, 0x21, 0x40, 4, 1, 1, .w, 0x0, 0xFFFFFFFFFFFFFFFF, 0x0, 8⟩, -- SOCK_STAT
  ⟨0x1680, 0x16F7, 0x41, 0x80, 3, 1, 1, .w, 0x0, 0xC1FFFFFF, 0x0, 4⟩, -- CHAN
  ⟨0x1680, 0x16F7, 0x81, 0x81, 1, 1, 1, .w, 0x80, 0xFF, 0x0, 1⟩, -- PORT_RANK
  ⟨0x1680, 0x16F7, 0x82, 0x82, 3, 1, 1, .w, 0x0, 0x9F00FFFF, 0x0, 4⟩, -- COMB_CFG
  ⟨0x1680, 0x16F7, 0x83, 0x83, 9, 1, 1, .w, 0x0, 0x0, 0x0, 16⟩, -- RELEASE_MAP
  ⟨0x1680, 0x16F7, 0x84, 0x84, 3, 1, 15, .w, 0x0, 0x0, 0x0, 4⟩] -- COMB_STAT

def txnRows : List ObjRow := [
  ⟨0x1700, 0x1700, 0x01, 0x01, 1, 0, 15, .f, 0x40, 0x0, 0x0, 1⟩, -- MA_SLOTS
  ⟨0x1700, 0x1700, 0x02, 0x02, 1, 0, 15, .f, 0x10, 0x0, 0x0, 1⟩, -- LEASE_MAX
  ⟨0x1700, 0x1700, 0x03, 0x03, 2, 0, 15, .f, 0x40, 0x0, 0x0, 2⟩, -- BACKOFF_BASE
  ⟨0x1700, 0x1700, 0x04, 0x04, 1, 0, 15, .f, 0xA, 0x0, 0x0, 1⟩, -- BACKOFF_CAP
  ⟨0x1700, 0x1700, 0x05, 0x05, 3, 0, 15, .f, 0x100000, 0x0, 0x0, 4⟩, -- MA_READ_BUFFER
  ⟨0x1701, 0x1701, 0x01, 0x10, 2, 1, 2, .w, 0x0, 0xE000, 0x0, 2⟩, -- SERVICE
  ⟨0x1702, 0x1702, 0x01, 0x10, 3, 1, 2, .w, 0x4E20, 0xFFFFFFFF, 0x0, 4⟩, -- TXN_TIMEOUT
  ⟨0x1710, 0x1710, 0x01, 0x10, 3, 0, 15, .f, 0x0, 0x0, 0x0, 4⟩, -- MEM_MAP
  ⟨0x1711, 0x1711, 0x01, 0x10, 3, 2, 2, .d, 0x10101010, 0xFFFFFFFF, 0x0, 4⟩, -- POOL_SIZE
  ⟨0x1712, 0x1712, 0x01, 0x10, 9, 2, 15, .d, 0x0, 0x0, 0x0, 0⟩, -- ARB_TABLE
  ⟨0x1713, 0x1713, 0x01, 0x10, 3, 15, 2, .d, 0x0, 0xFFFFFFFF, 0x0, 4⟩, -- ARB_RENUMBER
  ⟨0x1720, 0x1721, 0x01, 0x40, 4, 2, 2, .d, 0x0, 0x8F000000FFFFFFFF, 0x0, 8⟩, -- HOST_XLAT
  ⟨0x1722, 0x1723, 0x01, 0x08, 4, 2, 2, .d, 0x0, 0xFC0000001FFFFFFF, 0x0, 8⟩, -- COH_WINDOW
  ⟨0x1730, 0x1730, 0x01, 0x78, 3, 2, 2, .w, 0x20, 0xFFFFFFFF, 0x0, 4⟩, -- REG_CFG
  ⟨0x1731, 0x1731, 0x01, 0x04, 3, 2, 2, .w, 0x20, 0xFFFFFFFF, 0x0, 4⟩, -- REG_CFG
  ⟨0x1732, 0x1732, 0x01, 0x02, 3, 2, 2, .w, 0x20, 0xFFFFFFFF, 0x0, 4⟩, -- REG_CFG
  ⟨0x1733, 0x1733, 0x01, 0x78, 3, 1, 1, .w, 0x0, 0xFFFFFFFF, 0x0, 4⟩, -- TXN_STAT
  ⟨0x1740, 0x1740, 0x01, 0x78, 4, 2, 2, .v, 0x0, 0xFFFFFFFFFFF80000, 0x0, 8⟩, -- PROBE_CTRL
  ⟨0x1741, 0x1741, 0x01, 0x78, 4, 2, 2, .v, 0x0, 0xFFFFFFFFFFFFFFFF, 0x0, 8⟩, -- PROBE_MATCH
  ⟨0x1742, 0x1742, 0x01, 0x78, 4, 2, 2, .v, 0x0, 0xFFFFFFFFFFFFFFFF, 0x0, 8⟩, -- PROBE_MASK
  ⟨0x1743, 0x1743, 0x01, 0x78, 4, 2, 2, .v, 0x0, 0xFFFFFFFFFFFFFFFF, 0x0, 8⟩] -- PROBE_COUNT

def dmaRows : List ObjRow := [
  ⟨0x1800, 0x1800, 0x01, 0x01, 1, 0, 15, .f, 0x10, 0x0, 0x0, 1⟩, -- DMA_CHANNELS
  ⟨0x1800, 0x1800, 0x02, 0x02, 3, 0, 15, .f, 0x10000, 0x0, 0x0, 4⟩, -- CHAN_BUFFER
  ⟨0x1800, 0x1800, 0x03, 0x03, 2, 0, 15, .f, 0x100, 0x0, 0x0, 2⟩, -- ENGINE_TAGS
  ⟨0x1810, 0x184F, 0x01, 0x01, 3, 1, 1, .w, 0x60000, 0x79FC000, 0xF8000000, 4⟩, -- CH_CFG
  ⟨0x1810, 0x184F, 0x02, 0x02, 4, 1, 1, .w, 0x0, 0xFFFFFFFFFFFFFFFF, 0x0, 8⟩, -- RING_BASE
  ⟨0x1810, 0x184F, 0x03, 0x03, 2, 1, 1, .w, 0x0, 0xFFFF, 0x0, 2⟩, -- RING_SIZE_M1
  ⟨0x1810, 0x184F, 0x04, 0x04, 2, 1, 1, .w, 0x0, 0xFFFF, 0x0, 2⟩, -- RING_HEAD
  ⟨0x1810, 0x184F, 0x05, 0x05, 1, 1, 1, .w, 0x0, 0xF, 0x0, 1⟩, -- CH_CTRL
  ⟨0x1810, 0x184F, 0x06, 0x06, 3, 1, 15, .w, 0x0, 0x0, 0x0, 4⟩, -- CH_STATUS
  ⟨0x1810, 0x184F, 0x07, 0x07, 3, 1, 1, .w, 0x0, 0xFFFFFFFF, 0x0, 4⟩, -- IRQ_CFG
  ⟨0x1810, 0x184F, 0x08, 0x08, 3, 1, 15, .w, 0x0, 0x0, 0x0, 4⟩, -- CH_ERR
  ⟨0x1810, 0x184F, 0x09, 0x09, 4, 1, 1, .w, 0x0, 0xFFFFFFFFFFFFFFFF, 0x0, 8⟩, -- CH_STAT
  ⟨0x1850, 0x1853, 0x01, 0x20, 3, 1, 1, .w, 0x0, 0xFFFFFFFF, 0x0, 4⟩, -- TRIP
  ⟨0x1854, 0x1857, 0x01, 0x20, 1, 1, 2, .d, 0x0, 0x8F, 0x0, 1⟩] -- TRIP_WARD

def bridgeRows : List ObjRow := [
  ⟨0x1900, 0x1900, 0x01, 0x01, 1, 0, 15, .k, 0xFF, 0x0, 0x0, 1⟩, -- DIE_NUMBER
  ⟨0x1900, 0x1900, 0x02, 0x02, 2, 0, 3, .k, 0x0, 0xFFF, 0x0, 2⟩, -- PKG_NUMBER
  ⟨0x1900, 0x1900, 0x03, 0x03, 3, 0, 15, .k, 0x7, 0x0, 0x0, 4⟩, -- ENUM_STATE
  ⟨0x1900, 0x1900, 0x04, 0x04, 4, 0, 15, .k, 0x0, 0x0, 0x0, 8⟩, -- DIE_MAP
  ⟨0x1900, 0x1900, 0x05, 0x05, 8, 0, 15, .k, 0x0, 0x0, 0x0, 8⟩, -- TB_OFFSET
  ⟨0x1900, 0x1900, 0x06, 0x06, 3, 0, 15, .k, 0xFFFFFFFF, 0x0, 0x0, 4⟩, -- TB_ERROR
  ⟨0x1900, 0x1900, 0x07, 0x07, 3, 2, 2, .k, 0x0, 0xFFFFFFFF, 0x0, 4⟩, -- TB_PERIOD
  ⟨0x1900, 0x1900, 0x08, 0x08, 3, 0, 2, .k, 0x0, 0xFFFFFFFF, 0x0, 4⟩, -- TB_GEN
  ⟨0x1910, 0x1913, 0x01, 0x01, 1, 2, 2, .d, 0x1, 0x3, 0x0, 1⟩, -- BRIDGE_CFG
  ⟨0x1910, 0x1913, 0x02, 0x02, 3, 0, 15, .v, 0x0, 0x0, 0x0, 4⟩, -- BRIDGE_STATUS
  ⟨0x1910, 0x1913, 0x03, 0x03, 3, 0, 15, .v, 0x43221100, 0x0, 0x0, 4⟩, -- GROUP_MAP
  ⟨0x1910, 0x1913, 0x04, 0x04, 4, 0, 15, .v, 0x0, 0x0, 0x0, 8⟩, -- MODULE_REPAIR
  ⟨0x1910, 0x1913, 0x05, 0x05, 4, 2, 2, .d, 0x0, 0xFFFFFFFFFFFFFFFF, 0x0, 8⟩, -- BRIDGE_ERR
  ⟨0x1920, 0x1920, 0x01, 0x10, 9, 15, 1, .w, 0x0, 0x0, 0x0, 1610613520⟩, -- PKG_IMAGE
  ⟨0x1921, 0x1921, 0x01, 0x10, 3, 1, 15, .w, 0xFF0000, 0x0, 0x0, 4⟩, -- PKG_STATUS
  ⟨0x1922, 0x1922, 0x01, 0x10, 1, 1, 1, .w, 0x0, 0xF, 0x0, 1⟩] -- PKG_CTRL

def gateRows : List ObjRow := [
  ⟨0x1A00, 0x1A00, 0x01, 0x01, 3, 0, 15, .f, 0x100000, 0x0, 0x0, 4⟩, -- PLAT_ENTRIES
  ⟨0x1A00, 0x1A00, 0x02, 0x02, 3, 2, 15, .d, 0x0, 0x0, 0x0, 4⟩, -- PLAT_USED
  ⟨0x1A00, 0x1A00, 0x03, 0x03, 2, 2, 15, .d, 0x0, 0x0, 0x0, 2⟩, -- PLAT_SIZES
  ⟨0x1A00, 0x1A00, 0x04, 0x04, 4, 15, 2, .d, 0x0, 0xFFFFFFFFFFFFFFFF, 0x0, 8⟩, -- PLAT_INSERT
  ⟨0x1A00, 0x1A00, 0x05, 0x05, 4, 15, 2, .d, 0x0, 0xFFFFFFFFFFFFFFFF, 0x0, 8⟩, -- PLAT_REMOVE
  ⟨0x1A00, 0x1A00, 0x06, 0x06, 4, 2, 2, .d, 0x0, 0xFFFFFFFFFFFFFFFF, 0x0, 8⟩, -- PLAT_QUERY
  ⟨0x1A01, 0x1A01, 0x01, 0x10, 2, 2, 2, .d, 0x0, 0xFFFF, 0x0, 2⟩, -- GATE_WARD
  ⟨0x1A10, 0x1A1F, 0x01, 0x01, 3, 2, 2, .d, 0x8010000F, 0x80FF0FFF, 0x0, 4⟩, -- GATE_CFG
  ⟨0x1A10, 0x1A1F, 0x02, 0x02, 3, 2, 2, .d, 0x201010, 0xFFFFFF, 0x0, 4⟩, -- GATE_SHARE
  ⟨0x1A10, 0x1A1F, 0x03, 0x03, 3, 2, 2, .d, 0x648014, 0xFFFFF0FF, 0x0, 4⟩, -- RETX_CFG
  ⟨0x1A10, 0x1A1F, 0x04, 0x04, 3, 2, 15, .v, 0x0, 0x0, 0x0, 4⟩, -- GATE_STATUS
  ⟨0x1A10, 0x1A1F, 0x05, 0x05, 4, 2, 2, .d, 0x0, 0xFFFFFFFFFFFFFFFF, 0x0, 8⟩, -- GATE_ERR
  ⟨0x1A10, 0x1A1F, 0x06, 0x06, 1, 3, 3, .d, 0x0, 0x1, 0x0, 1⟩] -- MIRROR_ALL

def collRows : List ObjRow := [
  ⟨0x1B00, 0x1B00, 0x01, 0x01, 4, 0, 3, .k, 0x1000100010001, 0xFFFFFFFFFFFFFFFF, 0x0, 8⟩, -- HALL_TOPO
  ⟨0x1B00, 0x1B00, 0x02, 0x02, 3, 0, 15, .f, 0x2000000, 0x0, 0x0, 4⟩, -- COLL_STORE
  ⟨0x1B00, 0x1B00, 0x03, 0x03, 1, 0, 15, .f, 0x20, 0x0, 0x0, 1⟩, -- COLL_CHANNELS
  ⟨0x1B10, 0x1B1F, 0x01, 0x01, 3, 2, 2, .d, 0x100, 0x7FF, 0x0, 4⟩, -- STORE_CFG
  ⟨0x1B20, 0x1B2F, 0x01, 0x40, 4, 2, 2, .d, 0x0, 0xFFFFFFFFFFFFF800, 0x0, 8⟩, -- GROUP
  ⟨0x1B30, 0x1B3F, 0x01, 0x40, 3, 2, 15, .v, 0x0, 0x0, 0x0, 4⟩, -- SW_CAP
  ⟨0x1B40, 0x1B4F, 0x01, 0x20, 3, 1, 1, .w, 0x0, 0xFFFFFFFF, 0x0, 4⟩, -- TRIP
  ⟨0x1B50, 0x1B5F, 0x01, 0x20, 1, 1, 2, .d, 0x0, 0x8F, 0x0, 1⟩, -- TRIP_WARD
  ⟨0x1C00, 0x1DFF, 0x01, 0x01, 3, 2, 2, .d, 0x201000, 0xF8FFFF00, 0x0, 4⟩, -- COLL_CFG
  ⟨0x1C00, 0x1DFF, 0x02, 0x02, 4, 1, 1, .w, 0x0, 0xFFFFFFFFFFFFFFFF, 0x0, 8⟩, -- OP_RING_BASE
  ⟨0x1C00, 0x1DFF, 0x03, 0x03, 2, 1, 1, .w, 0x0, 0xFFFF, 0x0, 2⟩, -- OP_RING_SIZE_M1
  ⟨0x1C00, 0x1DFF, 0x04, 0x04, 2, 1, 1, .w, 0x0, 0xFFFF, 0x0, 2⟩, -- OP_RING_HEAD
  ⟨0x1C00, 0x1DFF, 0x05, 0x05, 1, 1, 1, .w, 0x0, 0xF, 0x0, 1⟩, -- COLL_CTRL
  ⟨0x1C00, 0x1DFF, 0x06, 0x06, 3, 1, 15, .w, 0x0, 0x0, 0x0, 4⟩, -- COLL_STATUS
  ⟨0x1C00, 0x1DFF, 0x07, 0x07, 9, 1, 15, .w, 0x0, 0x0, 0x0, 32776⟩, -- LAG_TABLE
  ⟨0x1C00, 0x1DFF, 0x08, 0x08, 4, 1, 1, .w, 0x0, 0xFFFFFFFFFFFFFFFF, 0x0, 8⟩] -- COLL_STAT

def wardRows : List ObjRow := [
  ⟨0x1E00, 0x1E00, 0x01, 0x01, 1, 0, 15, .f, 0x10, 0x0, 0x0, 1⟩, -- WARDS
  ⟨0x1E00, 0x1E00, 0x02, 0x02, 1, 0, 15, .f, 0x40, 0x0, 0x0, 1⟩, -- RANGE_ENTRIES
  ⟨0x1E00, 0x1E00, 0x03, 0x03, 3, 2, 2, .d, 0x0, 0xFFFFFFFF, 0x0, 4⟩, -- WARD_REFUSALS
  ⟨0x1E01, 0x1E01, 0x01, 0x10, 3, 1, 15, .d, 0x0, 0x0, 0x0, 4⟩, -- WARD_STATE
  ⟨0x1E02, 0x1E02, 0x01, 0x10, 1, 1, 1, .d, 0x0, 0xF, 0x0, 1⟩, -- WARD_CTRL
  ⟨0x1E03, 0x1E03, 0x01, 0x10, 9, 1, 2, .d, 0x0, 0x0, 0x0, 16⟩, -- WARD_JUNCTIONS
  ⟨0x1E04, 0x1E04, 0x01, 0x10, 1, 1, 2, .d, 0x0, 0x1, 0x0, 1⟩, -- WARD_POLICY
  ⟨0x1E10, 0x1E10, 0x01, 0x40, 4, 2, 2, .d, 0x0, 0x8FE00000FFFFFFFF, 0x0, 8⟩] -- WARD_RANGE

def mgmtRows : List ObjRow := [
  ⟨0x2000, 0x2000, 0x01, 0x01, 3, 0, 15, .p, 0x0, 0x0, 0x0, 4⟩, -- CORE_STATE
  ⟨0x2000, 0x2000, 0x02, 0x02, 1, 2, 2, .p, 0x0, 0x1, 0x0, 1⟩, -- CORE_SEL
  ⟨0x2000, 0x2000, 0x03, 0x03, 3, 0, 15, .p, 0x0, 0x0, 0x0, 4⟩, -- FW_RELEASE
  ⟨0x2000, 0x2000, 0x04, 0x04, 2, 0, 15, .f, 0x0, 0x0, 0x0, 2⟩, -- PATH_CAP
  ⟨0x2000, 0x2000, 0x05, 0x05, 1, 0, 15, .f, 0x10, 0x0, 0x0, 1⟩, -- MGMT_SLOTS
  ⟨0x2000, 0x2000, 0x06, 0x06, 2, 0, 15, .f, 0x400, 0x0, 0x0, 2⟩, -- SEGMENT_MAX
  ⟨0x2000, 0x2000, 0x07, 0x07, 1, 0, 15, .f, 0x8, 0x0, 0x0, 1⟩, -- TRANSFERS
  ⟨0x2000, 0x2000, 0x08, 0x08, 3, 0, 15, .f, 0x0, 0x0, 0x0, 4⟩, -- MCTP_IANA
  ⟨0x2000, 0x2000, 0x09, 0x09, 4, 2, 2, .d, 0x0, 0xFFFFFFFFFFFFFFFF, 0x0, 8⟩] -- ACCESS_STAT

def bootRows1 : List ObjRow := [
  ⟨0x2100, 0x2100, 0x01, 0x01, 1, 0, 15, .f, 0x0, 0x0, 0x0, 1⟩, -- LIFECYCLE
  ⟨0x2100, 0x2100, 0x02, 0x02, 1, 15, 3, .p, 0x0, 0xFF, 0x0, 1⟩, -- LIFECYCLE_ADVANCE
  ⟨0x2100, 0x2100, 0x03, 0x03, 2, 0, 3, .f, 0x0, 0x1FF, 0x0, 2⟩, -- FUSE_CAPS
  ⟨0x2100, 0x2100, 0x04, 0x04, 9, 0, 3, .f, 0x0, 0x0, 0x0, 16⟩, -- PROVISION
  ⟨0x2100, 0x2100, 0x05, 0x05, 9, 0, 15, .f, 0x0, 0x0, 0x0, 97⟩, -- DEVICE_PUBKEY
  ⟨0x2100, 0x2100, 0x06, 0x06, 9, 0, 3, .f, 0x0, 0x0, 0x0, 4096⟩, -- CERT_CHAIN
  ⟨0x2100, 0x2100, 0x07, 0x07, 9, 0, 3, .f, 0x0, 0x0, 0x0, 48⟩, -- SCHED_KEY_HASH
  ⟨0x2100, 0x2100, 0x08, 0x08, 1, 0, 3, .f, 0x0, 0x1, 0x0, 1⟩, -- DEBUG_DISABLE
  ⟨0x2100, 0x2100, 0x09, 0x09, 9, 15, 2, .p, 0x0, 0x0, 0x0, 393216⟩, -- FW_IMAGE
  ⟨0x2100, 0x2100, 0x0A, 0x0A, 1, 2, 2, .p, 0x0, 0xFF, 0x0, 1⟩, -- FW_CTRL
  ⟨0x2100, 0x2100, 0x0B, 0x0B, 3, 0, 15, .p, 0x0, 0x0, 0x0, 4⟩, -- BOOT_STATUS
  ⟨0x2100, 0x2100, 0x0C, 0x0C, 9, 0, 15, .p, 0x0, 0x0, 0x0, 48⟩, -- MEAS_FW
  ⟨0x2110, 0x2110, 0x01, 0x01, 1, 15, 2, .d, 0x0, 0xFF, 0x0, 1⟩, -- DIE_RESET
  ⟨0x2110, 0x2110, 0x02, 0x02, 1, 15, 3, .k, 0x0, 0xFF, 0x0, 1⟩, -- PKG_RESET
  ⟨0x2110, 0x2110, 0x03, 0x03, 3, 0, 15, .p, 0x0, 0x0, 0x0, 4⟩, -- RESET_CAUSE
  ⟨0x2120, 0x2120, 0x01, 0x08, 1, 2, 2, .d, 0x0, 0xFF, 0x0, 1⟩, -- REGION_CTRL
  ⟨0x2121, 0x2121, 0x01, 0x08, 3, 2, 15, .d, 0x40000000, 0x0, 0x0, 4⟩, -- REGION_STATE
  ⟨0x2122, 0x2122, 0x01, 0x08, 3, 2, 2, .d, 0x64, 0x8000FFFF, 0x0, 4⟩, -- REGION_CFG
  ⟨0x2123, 0x2123, 0x01, 0x08, 2, 2, 2, .d, 0x2EE, 0xFFFF, 0x0, 2⟩, -- RAIL_TARGET
  ⟨0x2124, 0x2124, 0x01, 0x08, 2, 2, 2, .d, 0x2EE, 0xFFFF, 0x0, 2⟩] -- RAIL_APPLIED

def bootRows2 : List ObjRow := [
  ⟨0x2130, 0x2130, 0x01, 0x01, 2, 0, 15, .v, 0x0, 0x0, 0x0, 2⟩, -- SUPPLY_NOW
  ⟨0x2130, 0x2130, 0x02, 0x02, 4, 2, 2, .p, 0x0, 0xFFFFFFFFFFFFFFFF, 0x0, 8⟩, -- SUPPLY_STAT
  ⟨0x2130, 0x2130, 0x03, 0x03, 2, 2, 2, .d, 0xFFFF, 0xFFFF, 0x0, 2⟩, -- CORE_BUDGET
  ⟨0x2130, 0x2130, 0x04, 0x04, 1, 2, 2, .d, 0x0, 0xFF, 0x0, 1⟩, -- THROTTLE_PSTATE
  ⟨0x2130, 0x2130, 0x05, 0x05, 2, 2, 15, .v, 0x0, 0x0, 0x0, 2⟩, -- GRANTED_POWER
  ⟨0x2130, 0x2130, 0x06, 0x06, 1, 0, 15, .v, 0x0, 0x0, 0x0, 1⟩] -- SERVICE_TIER

def faultRows : List ObjRow := [
  ⟨0x2200, 0x2200, 0x01, 0x01, 1, 2, 2, .p, 0x3, 0xFF, 0x0, 1⟩, -- FAULT_THRESHOLD
  ⟨0x2200, 0x2200, 0x02, 0x02, 2, 15, 2, .p, 0x0, 0xFFFF, 0x0, 2⟩, -- FAULT_CLEAR
  ⟨0x2200, 0x2200, 0x03, 0x03, 3, 2, 15, .v, 0x0, 0x0, 0x0, 4⟩, -- FAULT_SUMMARY
  ⟨0x2200, 0x2200, 0x04, 0x04, 3, 2, 2, .p, 0xA000000, 0xFE0007FF, 0x0, 4⟩, -- FAULT_NOTIFY
  ⟨0x2200, 0x2200, 0x05, 0x05, 4, 2, 2, .d, 0x0, 0xE0FFFFFF00000000, 0x0, 8⟩, -- INJECT
  ⟨0x2200, 0x2200, 0x06, 0x06, 3, 2, 2, .p, 0x186A0, 0xFFFFFFFF, 0x0, 4⟩, -- WDT_PERIOD
  ⟨0x2200, 0x2200, 0x07, 0x07, 1, 15, 3, .v, 0x0, 0xFF, 0x0, 1⟩, -- WDT_KICK
  ⟨0x2200, 0x2200, 0x08, 0x08, 3, 2, 2, .p, 0x15180, 0xFFFFFFFF, 0x0, 4⟩, -- SCRUB_PERIOD
  ⟨0x2200, 0x2200, 0x09, 0x09, 4, 2, 2, .d, 0x0, 0xFFFFFFFFFFFFFFFF, 0x0, 8⟩, -- STORE_CORR
  ⟨0x2210, 0x2213, 0x01, 0x80, 1, 2, 2, .p, 0x0, 0x3, 0x0, 1⟩, -- FAULT_SEV
  ⟨0x2220, 0x2223, 0x01, 0x80, 4, 2, 15, .p, 0x0, 0x0, 0x0, 8⟩, -- FAULT_STATUS
  ⟨0x2230, 0x2230, 0x01, 0x01, 1, 2, 2, .p, 0x1, 0x3, 0x0, 1⟩, -- REC_POLICY
  ⟨0x2230, 0x2230, 0x02, 0x02, 2, 2, 15, .p, 0x0, 0x0, 0x0, 2⟩, -- REC_NEXT
  ⟨0x2230, 0x2230, 0x03, 0x03, 3, 2, 15, .p, 0x0, 0x0, 0x0, 4⟩, -- REC_LOST
  ⟨0x2230, 0x2230, 0x04, 0x04, 2, 0, 15, .p, 0x0, 0x0, 0x0, 2⟩, -- POWER_CYCLES
  ⟨0x2230, 0x2230, 0x05, 0x05, 3, 0, 15, .p, 0x0, 0x0, 0x0, 4⟩, -- OP_HOURS
  ⟨0x2230, 0x2230, 0x06, 0x06, 9, 2, 15, .f, 0x0, 0x0, 0x0, 262144⟩, -- EVENT_LOG
  ⟨0x2240, 0x227F, 0x01, 0x80, 9, 2, 15, .f, 0x0, 0x0, 0x0, 32⟩] -- RECORD

def spareRows : List ObjRow := [
  ⟨0x2300, 0x2300, 0x01, 0x01, 9, 2, 15, .f, 0x0, 0x0, 0x0, 12⟩, -- COL_MAP
  ⟨0x2300, 0x2300, 0x02, 0x02, 9, 2, 15, .f, 0x0, 0x0, 0x0, 10⟩, -- ROW_MAP
  ⟨0x2300, 0x2300, 0x03, 0x03, 4, 2, 2, .d, 0x0, 0xFFFFFFE0FF0000, 0x0, 8⟩, -- SISTER_CTRL
  ⟨0x2300, 0x2300, 0x04, 0x04, 3, 2, 2, .p, 0xF0100A1E, 0xF8FFFFFF, 0x0, 4⟩, -- SPARE_POLICY
  ⟨0x2301, 0x2301, 0x01, 0x08, 6, 2, 15, .v, 0x0, 0x0, 0x0, 2⟩, -- PACE_DRIFT
  ⟨0x2302, 0x2302, 0x01, 0x08, 3, 2, 15, .f, 0x0, 0x0, 0x0, 4⟩, -- ROW_SPARES
  ⟨0x2310, 0x2310, 0x01, 0x78, 9, 2, 15, .v, 0x0, 0x0, 0x0, 16⟩, -- LINK_WEAR
  ⟨0x2311, 0x2311, 0x01, 0x78, 4, 2, 15, .f, 0x0, 0x0, 0x0, 8⟩] -- SPARE_USE

def obsRows1 : List ObjRow := [
  ⟨0x2400, 0x2400, 0x01, 0x01, 3, 2, 2, .d, 0x0, 0xFFF0000F, 0x0, 4⟩, -- TRACE_CTRL
  ⟨0x2400, 0x2400, 0x02, 0x02, 4, 2, 15, .p, 0x0, 0x0, 0x0, 8⟩, -- TRACE_STATUS
  ⟨0x2400, 0x2400, 0x03, 0x03, 4, 2, 15, .p, 0x0, 0x0, 0x0, 8⟩, -- TRACE_LOSS
  ⟨0x2400, 0x2400, 0x04, 0x04, 1, 15, 2, .d, 0x0, 0xFF, 0x0, 1⟩, -- TRACE_CMD
  ⟨0x2400, 0x2400, 0x05, 0x05, 4, 2, 2, .d, 0xFFFFFFFFFFFFFFFF, 0xFFFFFFFFFFFFFFFF, 0x0, 8⟩, -- TRACE_MATCH
  ⟨0x2400, 0x2400, 0x06, 0x06, 3, 2, 2, .d, 0x0, 0xFFFFFFFF, 0x0, 4⟩, -- TRACE_READ_AT
  ⟨0x2400, 0x2400, 0x07, 0x07, 9, 2, 15, .p, 0x0, 0x0, 0x0, 262144⟩, -- TRACE_DATA
  ⟨0x2400, 0x2400, 0x08, 0x08, 4, 0, 15, .v, 0x0, 0x0, 0x0, 8⟩, -- GATHER_TIME
  ⟨0x2400, 0x2400, 0x09, 0x09, 3, 0, 3, .p, 0x0, 0x8FFFFFFC, 0x0, 4⟩, -- HALL_REF
  ⟨0x2400, 0x2400, 0x0A, 0x0A, 8, 0, 15, .k, 0x0, 0x0, 0x0, 8⟩, -- HALL_OFFSET
  ⟨0x2400, 0x2400, 0x0B, 0x0B, 3, 0, 15, .k, 0xFFFFFFFF, 0x0, 0x0, 4⟩, -- HALL_ERROR
  ⟨0x2410, 0x2410, 0x01, 0x40, 3, 2, 2, .d, 0x0, 0xFFFC00FF, 0x0, 4⟩, -- CNT_CFG
  ⟨0x2411, 0x2411, 0x01, 0x40, 4, 2, 15, .d, 0x0, 0x0, 0x0, 8⟩, -- CNT_VALUE
  ⟨0x2420, 0x2420, 0x01, 0x10, 9, 1, 1, .w, 0x0, 0x0, 0x0, 16⟩, -- WARD_EVT_EN
  ⟨0x2421, 0x2421, 0x01, 0x10, 9, 1, 15, .w, 0x0, 0x0, 0x0, 1024⟩, -- WARD_EVENTS
  ⟨0x2430, 0x2430, 0x01, 0x01, 3, 2, 2, .d, 0x0, 0xFF0007FF, 0x0, 4⟩, -- WATCH_CFG
  ⟨0x2430, 0x2430, 0x02, 0x05, 3, 2, 2, .d, 0x0, 0xFFFFFFFF, 0x0, 4⟩, -- WATCH_WINDOW
  ⟨0x2430, 0x2430, 0x06, 0x06, 4, 2, 2, .d, 0x0, 0xFFFFFFFFFFFFFFFF, 0x0, 8⟩, -- HANG_STATUS
  ⟨0x2430, 0x2430, 0x07, 0x07, 9, 2, 15, .v, 0x0, 0x0, 0x0, 65552⟩, -- WAIT_GRAPH
  ⟨0x2440, 0x2440, 0x01, 0x01, 1, 2, 2, .d, 0x0, 0x1F, 0x0, 1⟩] -- FREEZE_CTRL

def obsRows2 : List ObjRow := [
  ⟨0x2440, 0x2440, 0x02, 0x02, 3, 2, 15, .d, 0x0, 0x0, 0x0, 4⟩, -- FREEZE_STATE
  ⟨0x2440, 0x2440, 0x03, 0x03, 1, 15, 2, .d, 0x0, 0xFF, 0x0, 1⟩, -- DUMP_CTRL
  ⟨0x2440, 0x2440, 0x04, 0x04, 9, 2, 15, .d, 0x0, 0x0, 0x0, 16416⟩] -- DUMP

/-- Every row but the subindices 00, which R433 gives. -/
def catalogue : List ObjRow :=
  scopeRows ++
  archRows ++
  portsRows ++
  linksRows ++
  schedRows ++
  reduceRows ++
  controlRows ++
  txnRows ++
  dmaRows ++
  bridgeRows ++
  gateRows ++
  collRows ++
  wardRows ++
  mgmtRows ++
  bootRows1 ++
  bootRows2 ++
  faultRows ++
  spareRows ++
  obsRows1 ++
  obsRows2
/-- Whether the row holds object `i`:`s`. -/
def ObjRow.has (r : ObjRow) (i s : Nat) : Bool :=
  decide (r.ilo ≤ i) && decide (i ≤ r.ihi) && decide (r.slo ≤ s) && decide (s ≤ r.shi)

/-- The row of the object with key `k`. -/
def rowOf (k : Nat) : Option ObjRow := catalogue.find? (fun r => r.has (k / 256) (k % 256))

/-- Whether some row holds index `i` (R564). -/
def isIndex (i : Nat) : Bool := catalogue.any (fun r => decide (r.ilo ≤ i) && decide (i ≤ r.ihi))

/-- Whether R489 lists fault source `s`. -/
def Fault.listed (s : Nat) : Bool :=
  decide (s ≤ 0x00A) || (decide (0x020 ≤ s) && decide (s ≤ 0x028)) || (decide (0x040 ≤ s) && decide (s ≤ 0x054)) ||
  (decide (0x060 ≤ s) && decide (s ≤ 0x063)) || (decide (0x070 ≤ s) && decide (s ≤ 0x078)) ||
  (decide (0x080 ≤ s) && decide (s ≤ 0x0A0)) || (decide (0x0B0 ≤ s) && decide (s ≤ 0x0BF))

/-- Whether a raise of source `s` carries a ward (R489). -/
def Fault.hasWard (s : Nat) : Bool :=
  (decide (0x040 ≤ s) && decide (s ≤ 0x04C)) || (decide (0x050 ≤ s) && decide (s ≤ 0x054)) ||
  (decide (0x060 ≤ s) && decide (s ≤ 0x063)) || s == 0x0A0 || (decide (0x0B0 ≤ s) && decide (s ≤ 0x0BF))

/-- The default of FAULT_SEV of source `s` (R489). The manual gives an unlisted number none; it reads 0 here
(DESIGN CHOICE, assumption 9). -/
def Fault.sevDefault (s : Nat) : Nat :=
  if s = 0x000 ∨ s = 0x002 ∨ s = 0x004 then 3
  else if s = 0x045 ∨ s = 0x047 then 2
  else if s = 0x008 ∨ s = 0x046 ∨ s = 0x04D ∨ (0x070 ≤ s ∧ s ≤ 0x073) then 0
  else if Fault.listed s then 1
  else 0

/-- The default of the object with key `k`. SOCK_CFG has one per socket (R234), WATCH_WINDOW one per class (R557)
and FAULT_SEV one per source (R489). -/
def Obj.dflt (k : Nat) : Val :=
  let i := k / 256
  let s := k % 256
  if 0x1680 ≤ i ∧ i ≤ 0x16F7 ∧ 1 ≤ s ∧ s ≤ 0x20 then
    BitVec.ofNat 64 (0x4000100201000100 + (s - 1) * 0x0200000000000000)
  else if 0x2210 ≤ i ∧ i ≤ 0x2213 ∧ 1 ≤ s then BitVec.ofNat 64 (Fault.sevDefault ((i - 0x2210) * 128 + (s - 1)))
  else if i = 0x2430 ∧ s = 2 then 0x64
  else if i = 0x2430 ∧ s = 3 then 0x2710
  else if i = 0x2430 ∧ (s = 4 ∨ s = 5) then 0x186A0
  else match rowOf k with
    | some r => BitVec.ofNat 64 r.dflt
    | none => 0

/-- The fields whose class is not their object's (R15), as masks with their class: BANK_STATE (R155), CH_CFG (R301),
REGION_STATE (R479) and FAULT_STATUS (R512). -/
def Obj.fieldClass (k : Nat) : Option (Val × Cls) :=
  let i := k / 256
  if i = 0x1410 then some (0x0F800000, .d)
  else if 0x1810 ≤ i ∧ i ≤ 0x184F ∧ k % 256 = 1 then some (0xF8000000, .d)
  else if i = 0x2121 then some (0xE0000000, .v)
  else if 0x2220 ≤ i ∧ i ≤ 0x2223 then some (0x4000000000000000, .v)
  else none

/-- The bits of object `k` that survive a reset of class `c` (R15): those of a class above it. -/
def Obj.keeps (c : Cls) (k : Nat) : Val :=
  let all : Val := BitVec.allOnes 64
  let cls := match rowOf k with
    | some r => r.cls
    | none => .f
  let base : Val := if cls.code < c.code then all else 0
  match Obj.fieldClass k with
  | none => base
  | some (m, fc) => (base &&& ~~~m) ||| (if fc.code < c.code then m else 0)

/-- The value of object `k`, which holds `v`, after a reset of class `c`. -/
def Obj.afterReset (c : Cls) (k : Nat) (v : Val) : Val :=
  (v &&& Obj.keeps c k) ||| (Obj.dflt k &&& ~~~(Obj.keeps c k))

end Sys2Proof.Machine
end

