-- ==== Sys2Proof/Machine/Codes.lean ====
section
/-! DEFINITION. Byte order, the extended Hamming code and the cyclic codes that every plane carries. -/

namespace Sys2Proof.Machine

/-- The `n` bytes of `x`, least significant first (R10). -/
def leBytes : Nat → Nat → List Byte
  | 0, _ => []
  | n + 1, x => BitVec.ofNat 8 x :: leBytes n (x / 256)

/-- The value of bytes, least significant first (R10). -/
def ofLe : List Byte → Nat
  | [] => 0
  | b :: t => b.toNat + 256 * ofLe t

/-- `k` bytes of `bs` from offset `at_`, as a value. -/
def leAt (bs : List Byte) (at_ k : Nat) : Nat := ofLe ((bs.drop at_).take k)

/-- `bs` filled with zero bytes, or cut, to `n` bytes. -/
def padTo (n : Nat) (bs : List Byte) : List Byte := (bs ++ List.replicate (n - bs.length) 0).take n

/-- The bits of a byte, most significant first. -/
def msbBits (b : Byte) : List Bool := (List.range 8).map (fun i => b.getLsbD (7 - i))

/-- The bits of a byte, least significant first. -/
def lsbBits (b : Byte) : List Bool := (List.range 8).map (fun i => b.getLsbD i)

/-- One bit through a cyclic code's register, most significant end first. -/
def crcBit {w : Nat} (poly : BitVec w) (crc : BitVec w) (bit : Bool) : BitVec w :=
  if crc.getMsbD 0 == bit then crc <<< 1 else (crc <<< 1) ^^^ poly

/-- The register after the given bits. -/
def crcRun {w : Nat} (poly init : BitVec w) (bits : List Bool) : BitVec w := bits.foldl (crcBit poly) init

/-- The OUTER code of control messages (R203). -/
def crc8 (bs : List Byte) : BitVec 8 := crcRun 0x2F 0xFF (bs.flatMap msbBits) ^^^ 0xFF

/-- The outer code of request flits, the header check of packets and the check of event records (R247, R340, R501). -/
def crc16 (bs : List Byte) : BitVec 16 := crcRun 0x1021 0xFFFF (bs.flatMap msbBits)

/-- The register of CRC-32C before its last inversion, after the given bytes (R88). -/
def crc32cReg (init : BitVec 32) (bs : List Byte) : BitVec 32 := crcRun 0x1EDC6F41 init (bs.flatMap lsbBits)

/-- CRC-32C (R88). -/
def crc32c (bs : List Byte) : BitVec 32 := (crc32cReg 0xFFFFFFFF bs ^^^ 0xFFFFFFFF).reverse

/-- CRC-64/ECMA-182 from a register value (R189). -/
def crc64Reg (init : BitVec 64) (bs : List Byte) : BitVec 64 := crcRun 0x42F0E1EBA9EA3693 init (bs.flatMap msbBits)

/-- CRC-64/ECMA-182 (R189). -/
def crc64 (bs : List Byte) : BitVec 64 := crc64Reg 0 bs

/-! The extended Hamming code of R84. A code word of `d` data bits has `c` check bits and one parity bit. The bits of a
word on the wire are numbered: data bits 0 to d − 1, check bit i as d + i, the parity bit as d + c. An error is the list
of bits that arrive inverted. The code is linear, so what the decoder does depends on the error alone. -/

/-- The position of data bit `i`: positions that are powers of two are skipped (R84). -/
def Hamming.dataPos (i : Nat) : Nat :=
  i + 3 + ((List.range 10).filter (fun k => decide (2 ^ (k + 2) - (k + 2) - 1 ≤ i))).length

/-- The position of wire bit `b`, 0 for the parity bit. -/
def Hamming.pos (d c b : Nat) : Nat :=
  if b < d then Hamming.dataPos b else if b < d + c then 2 ^ (b - d) else 0

/-- What a decoder finds in a word. -/
structure Decoded where
  /-- The word is uncorrectable. -/
  bad : Bool
  /-- A bit was corrected, and the wire bit the syndrome names. -/
  corrected : Option Nat
  /-- Data bits that are wrong after the decoder is done: errors beyond what the code detects. -/
  wrong : List Nat
  deriving DecidableEq, Repr

/-- `b` is added to the list, or taken out of it where it stands. -/
def toggle (b : Nat) (l : List Nat) : List Nat := if l.contains b then l.erase b else b :: l

/-- What the decoder of a word of `d` data bits and `c` check bits does with the inverted bits `flips` (R84). -/
def Hamming.decode (d c : Nat) (flips : List Nat) : Decoded :=
  let net := flips.foldl (fun l b => toggle b l) []
  let syn := net.foldl (fun a b => a ^^^ Hamming.pos d c b) 0
  let odd := net.length % 2 = 1
  let data := net.filter (fun b => decide (b < d))
  if syn = 0 then
    if odd then ⟨false, some (d + c), data⟩ else ⟨false, none, data⟩
  else if ¬ odd then ⟨true, none, []⟩
  else
    let lg := Nat.log2 syn
    if 2 ^ lg = syn then
      if lg < c then ⟨false, some (d + lg), data⟩ else ⟨true, none, []⟩
    else
      let i := syn - lg - 2
      if i < d then ⟨false, some i, toggle i data⟩ else ⟨true, none, []⟩

/-- The bits an injection inverts in a word (R498): every check bit, parity included, or check bit 0 alone. -/
def Hamming.injected (d c : Nat) (all : Bool) : List Nat :=
  if all then (List.range (c + 1)).map (fun i => d + i) else [d]

/-- The value of `x` with the bits at `ps` inverted. -/
def flipBits {w : Nat} (x : BitVec w) (ps : List Nat) : BitVec w :=
  ps.foldl (fun a p => a ^^^ (1#w <<< p)) x

/-- The check bits of `d` data bits held in `x`: bits 0 to c − 1, and the parity at bit c (R84). -/
def Hamming.check (d c : Nat) (x : Nat) : Nat :=
  let ones := (List.range d).filter (fun i => x.testBit i)
  let syn := ones.foldl (fun a i => a ^^^ Hamming.dataPos i) 0
  let cbits := (List.range c).filter (fun i => syn.testBit i)
  syn % 2 ^ c + (if (ones.length + cbits.length) % 2 = 1 then 2 ^ c else 0)

end Sys2Proof.Machine
end

