-- ==== Sys2Proof/Machine/Flags.lean ====
section
/-! DEFINITION. The codes the block answers with: abort codes, transaction statuses and NAK reasons. -/

namespace Sys2Proof.Machine

/-- The abort codes (R448). -/
inductive Abort where
  | level | pathBarred | readOnly | writeOnly
  | noObject | noSubindex | notPresent
  | length | outOfRange | rankOrder
  | inUse | liveBank | badState | checkIncomplete
  | badCommand | noTransfer | sequence | tooLarge | transferTimeout | requesterAbort | pathBusy
  | exhausted | restarted | storeError
  deriving DecidableEq, Repr

/-- The 32-bit value of an abort code (R448). -/
def Abort.code : Abort → Nat
  | .level => 0x00010001
  | .pathBarred => 0x00010002
  | .readOnly => 0x00010003
  | .writeOnly => 0x00010004
  | .noObject => 0x00020001
  | .noSubindex => 0x00020002
  | .notPresent => 0x00020003
  | .length => 0x00030001
  | .outOfRange => 0x00030002
  | .rankOrder => 0x00030003
  | .inUse => 0x00040001
  | .liveBank => 0x00040002
  | .badState => 0x00040003
  | .checkIncomplete => 0x00040004
  | .badCommand => 0x00050001
  | .noTransfer => 0x00050002
  | .sequence => 0x00050003
  | .tooLarge => 0x00050004
  | .transferTimeout => 0x00050005
  | .requesterAbort => 0x00050006
  | .pathBusy => 0x00050007
  | .exhausted => 0x00060001
  | .restarted => 0x00060002
  | .storeError => 0x00060003

/-- Transaction statuses (R48). -/
def Status.okay : BitVec 3 := 0
def Status.targetError : BitVec 3 := 1
def Status.noTarget : BitVec 3 := 2
def Status.timeout : BitVec 3 := 3
def Status.wardRefused : BitVec 3 := 4
def Status.uncorrectable : BitVec 3 := 5

/-- NAK reasons (R215). -/
def Nak.queueFull : BitVec 4 := 0x1
def Nak.noSpace : BitVec 4 := 0x2
def Nak.noEndpoint : BitVec 4 := 0x3
def Nak.noSocket : BitVec 4 := 0x4
def Nak.notReady : BitVec 4 := 0x5
def Nak.noChannel : BitVec 4 := 0x6
def Nak.ward : BitVec 4 := 0x7
def Nak.wrongKind : BitVec 4 := 0x8
def Nak.malformed : BitVec 4 := 0x9
def Nak.combineBusy : BitVec 4 := 0xA
def Nak.noCounter : BitVec 4 := 0xB
def Nak.corrupt : BitVec 4 := 0xC

end Sys2Proof.Machine
end

