-- ==== Sys2Proof/Machine/Tbl.lean ====
section
/-! DEFINITION. A sparse table by number, in one canonical form: rising keys, and no entry that holds what an
unlisted key reads as. Every store of the block that is addressed by a number is one of these. -/

namespace Sys2Proof.Machine

/-- Entries by number. What an unlisted number reads as is given by the reader. -/
abbrev Tbl (α : Type) := List (Nat × α)

/-- What `t` holds at `i`, where an unlisted key reads `d`. -/
def Tbl.get {α : Type} (d : α) : Tbl α → Nat → α
  | [], _ => d
  | p :: t, i => if p.1 = i then p.2 else Tbl.get d t i

/-- `t` without any entry at `i`. -/
def Tbl.erase {α : Type} : Tbl α → Nat → Tbl α
  | [], _ => []
  | p :: t, i => if p.1 = i then Tbl.erase t i else p :: Tbl.erase t i

/-- `t` with an entry at `i`, before the first greater key. -/
def Tbl.insert {α : Type} : Tbl α → Nat → α → Tbl α
  | [], i, v => [(i, v)]
  | p :: t, i, v => if i < p.1 then (i, v) :: p :: t else p :: Tbl.insert t i v

/-- `t` with `v` at `i`, where an unlisted `i` reads `d`: writing `d` removes the entry. -/
def Tbl.set {α : Type} [DecidableEq α] (d : α) (t : Tbl α) (i : Nat) (v : α) : Tbl α :=
  if v = d then t.erase i else (t.erase i).insert i v

/-- `t` with the entry at `i` changed by `f`. -/
def Tbl.upd {α : Type} [DecidableEq α] (d : α) (t : Tbl α) (i : Nat) (f : α → α) : Tbl α :=
  Tbl.set d t i (f (Tbl.get d t i))

/-- `t` without the entries whose key `f` names. -/
def Tbl.drop {α : Type} (f : Nat → Bool) : Tbl α → Tbl α
  | [] => []
  | p :: t => if f p.1 then Tbl.drop f t else p :: Tbl.drop f t

/-- Keys rise from entry to entry, all of them above `lo`, and no entry at `i` holds `dfl i`. -/
def Tbl.wfFrom {α : Type} [DecidableEq α] (dfl : Nat → α) : Option Nat → Tbl α → Bool
  | _, [] => true
  | lo, p :: t =>
    (match lo with
      | none => true
      | some l => decide (l < p.1)) && decide (p.2 ≠ dfl p.1) && Tbl.wfFrom dfl (some p.1) t

/-- The canonical form, where the key `i` unlisted reads as `dfl i`. -/
def Tbl.wf {α : Type} [DecidableEq α] (dfl : Nat → α) (t : Tbl α) : Bool := Tbl.wfFrom dfl none t

end Sys2Proof.Machine
end

