-- ==== Sys2Proof/Machine/Types/Base.lean ====
section
/-! DEFINITION. What the parts of the state are made of: the integration's constants, what the block drives at its
ports, and the state of pins, power, start-up, faults, wards, the dictionary, spares and observation. -/

namespace Sys2Proof.Machine

/-- What the integrator fixes (class F): the build, the floorplan and the parameters of its ports (R8, R22 to R24, R77). -/
structure Integration where
  cols : Nat
  rows : Nat
  pcols : Nat
  prows : Nat
  /-- Spare physical columns and rows (R514). -/
  spareCols : List Nat
  spareRows : List Nat
  /-- ATTACH_MAP (R23), by logical junction. -/
  attach : List (BitVec 16)
  /-- A_ADAPTER (R77), by logical junction. -/
  adapter : List (BitVec 32)
  /-- Supply region of each physical junction, row by row. -/
  physRegion : List Nat
  regions : Nat
  /-- MEM_MAP (R271), by attachment. -/
  memMap : List (BitVec 32)
  /-- MA_OUTSTANDING, by attachment. -/
  maTags : List Nat
  /-- HSNP and HOUT, by host port. -/
  hsnp : List Bool
  hout : List Nat
  /-- The die-mesh direction each bridge faces, N, E, S, W as 0 to 3 (R24). -/
  bridgeFacing : List Nat
  deriving DecidableEq, Repr

/-- What the block drives at its boundary, in the order it drives it. -/
inductive Emission where
  /-- A beat on TO_ of the core port at `n` (R38). -/
  | toBeat (n : Nat) (flow : BitVec 12) (lower : BitVec 4096) (upper : Option (BitVec 4096)) (last : Bool) (flags : BitVec 4)
  /-- A flit handed to the memory attachment or host port at the B port of `n`. -/
  | toUnit (n : Nat) (flow : BitVec 12) (payload : BitVec 4096) (last : Bool) (flags : BitVec 4)
  /-- A NAK on CN_ (R45). -/
  | cn (n : Nat) (tag : BitVec 8) (dest : BitVec 16) (reason : BitVec 4)
  /-- A word on SK_ (R46). -/
  | sk (n : Nat) (sock : Nat) (word : BitVec 32) (first last : Bool) (src : BitVec 16)
  /-- A beat on TR_ of the core port at `unit`: tag, status, data and TR_LAST. -/
  | tr (unit : Nat) (tag : BitVec 10) (status : BitVec 3) (data : BitVec 1024) (last : Bool)
  /-- A request on XQ_ and XW_ of the core port at `n`. -/
  | xq (n : Nat) (tag : BitVec 10) (op : BitVec 4) (addr : BitVec 64) (lenM1 : BitVec 5) (ward : BitVec 4) (data : List (BitVec 1024)) (strb : List (BitVec 128))
  /-- A snoop on SQ_ of the core port at `n`. -/
  | sq (n : Nat) (line : BitVec 35) (ty : BitVec 2) (tag : BitVec 8)
  /-- The combined reply on HSP_ of host port `p`. -/
  | hsp (p : Nat) (tag : BitVec 8) (resp : BitVec 2) (data : Option (BitVec 512))
  /-- A snoop on HXQ_ of host port `p`. -/
  | hxq (p : Nat) (line : BitVec 35) (ty : BitVec 2) (tag : BitVec 8)
  /-- A completion on HIP_ of host port `p`. -/
  | hip (p : Nat) (tag : BitVec 10) (status : BitVec 3) (data : List (BitVec 1024))
  /-- A request on HOQ_ and HOW_ of host port `p`. -/
  | hoq (p : Nat) (tag : BitVec 10) (op : BitVec 4) (addr : BitVec 64) (lenM1 : BitVec 5) (ward : BitVec 4) (data : List (BitVec 1024)) (strb : List (BitVec 128))
  /-- An interrupt vector on HI_IRQ of host port `p`. -/
  | hiIrq (p : Nat) (vec : BitVec 11) (ward : BitVec 4)
  /-- A command on MQ_ of attachment `a`, with the write beats that follow it on MW_ (R51). -/
  | mq (a : Nat) (tag : BitVec 10) (write : Bool) (addr : BitVec 35) (len : BitVec 3) (data : List (BitVec 4096)) (strb : List (BitVec 512))
  /-- An I3C in-band interrupt with its mandatory data byte (R59, R468, R510, R547). -/
  | ibi (byte : Byte)
  /-- An MCTP message for the bus controller (R443, R457). -/
  | mctp (ty : Byte) (mtag : BitVec 3) (body : List Byte)
  /-- An MCTP packet is not acknowledged (R61). -/
  | nack
  /-- The data of an answered common command code (R61). -/
  | ccc (data : List Byte)
  /-- A fabric packet on the line of gate `g`, as the bytes of its frame. -/
  | frame (g : Nat) (bytes : List Byte)
  /-- A flit on group `g` of bridge `b`, before its forward error correction is spread. -/
  | bridgeFlit (b : Nat) (g : Nat) (flit : BitVec 2048)
  /-- ENUM on the sideband of bridge `b`: the receiver's position, the master's provisional identifier, the way the sending bridge
  faces (R320, R321). -/
  | sidebandEnum (b : Nat) (col row : Int) (masterId : BitVec 48) (facing : BitVec 2)
  /-- ASSIGN on the sideband of bridge `b`: the origin, the extents minus one, the master's die number, the dies (R320). -/
  | sidebandAssign (b : Nat) (col0 row0 : Int) (cols rows : BitVec 3) (master : BitVec 6) (dieMap : BitVec 64)
  /-- The enumeration has failed, with its cause, on the sideband of bridge `b` (R321). -/
  | sidebandFail (b : Nat) (cause : BitVec 3)
  /-- A report of this die to the package master, on the firmware path (R327, R328). -/
  | dieReport (w : BitVec 4) (report : DieReport)
  /-- What firmware asks, or tells, the destination die of a channel (R220, log 138): the sender, its entry, the destination, the ward
  and the sender's rank; an answer; a channel that is no more. -/
  | rankAsk (src : BitVec 16) (entry : Nat) (dest : BitVec 16) (ward : BitVec 4) (rank : BitVec 8)
  | rankAnswer (src : BitVec 16) (entry : Nat) (a : RankAnswer)
  | rankWithdraw (src : BitVec 16) (entry : Nat) (dest : BitVec 16)
  /-- A package reset on the sideband of bridge `b` (R462). -/
  | sidebandReset (b : Nat)
  /-- The answer to a dictionary request, on the path the request came by. -/
  | answer (path : Path) (pdu : List Byte)
  deriving DecidableEq, Repr

/-- The state of pins, adapters and the management bus. -/
structure PinState where
  /-- The die is held in a power-on reset (R65). -/
  inReset : Bool
  rstN : Bool
  pwrOk : Bool
  /-- Level last seen on SSP1, and when: the strap at the release, or the rising edge of SYNC (R68, R72). -/
  sync : Bool
  syncAt : Option Nat
  timerefOk : Bool
  /-- Time of the last trim of the on-die oscillator (R67). -/
  lastTrim : Nat
  /-- Adapters whose clock is stopped, and adapters held in reset: 2n for side A of junction n, 2n + 1 for side B. -/
  stopped : List Nat
  held : List Nat
  /-- Adapters that, after a reset, take nothing until a flit with FIRST (R36). -/
  waitFirst : List Nat
  /-- Channels whose offered beat has transferred during the present freeze (R50): no new beat is offered there. -/
  spent : List Nat
  dynAddr : Option (BitVec 7)
  /-- In-band interrupts have been disabled by DISEC (R59). -/
  ibiOff : Bool
  /-- Random bits of the blank provisional identifier (R60). -/
  pidRandom : BitVec 32
  deriving DecidableEq, Repr

/-- A granted performance state and power, and where the power manager answers: the socket and ward of the request (R469, R471). -/
structure Grant where
  pstate : Nat
  power : Nat
  sock : BitVec 5
  ward : BitVec 4
  deriving DecidableEq, Repr

def Grant.zero : Grant := ⟨0, 0, 0, 0⟩

/-- The state of rails, regions and performance states. -/
structure PowerState where
  /-- Rails below warning and below reset: region k as k, VDD_AON as 8. -/
  below : List Nat
  down : List Nat
  /-- The dip of each rail below warning: when it began, and SUPPLY_NOW at that moment (R470, R505). -/
  dips : Tbl (Option (Nat × Nat))
  /-- Regions not yet released by the start sequence (R454). -/
  unstarted : List Nat
  /-- Regions in reset, with the time from which they may be released (R464). -/
  resetUntil : Tbl Nat
  /-- Regions that their rail holds in reset, until it has stood above warning for 10 µs (R464, R472). -/
  railHeld : List Nat
  /-- Regions being woken, with the time the wake was requested (R466). -/
  wakeFrom : Tbl Nat
  /-- Regions whose wake was asked for while the die was frozen (R475, R81). -/
  heldWakes : List Nat
  /-- Time of the last handshake in each region (R467). -/
  lastActive : Tbl Nat
  /-- Time until which a wake-ahead request holds each region awake, and 0 when none does (R129). -/
  wakeHold : Tbl Nat
  /-- What each endpoint has been granted (R469). -/
  grants : Tbl Grant
  /-- Since when RAIL_TARGET and RAIL_APPLIED of a region differ, plus 1; 0 when they agree (R468). -/
  railDiff : Tbl Nat
  deriving DecidableEq, Repr

/-- The state of start-up: fuses the next start senses, the image, the cores and the watchdog. -/
structure BootState where
  /-- LIFECYCLE as fused: the value the next start senses (R460, R461). -/
  lifecycle : Nat
  /-- Which once-only fuse objects have been written (R461). -/
  capsFused : Bool
  provFused : Bool
  certFused : Bool
  keyFused : Bool
  /-- MIPI manufacturer identifier and die serial, as fused (R60). -/
  mfr : BitVec 15
  serial : BitVec 12
  /-- The held firmware image, empty when none is held (R455). -/
  image : List Byte
  romOk : Bool
  /-- START has been written under SAFE_START, or the image is held back by HOLD (R455, R476). -/
  startAsked : Bool
  holdAsked : Bool
  /-- End of the watchdog's period, when it is armed (R497). -/
  wdt : Option Nat
  /-- End of the 10 µs for which a core is held in reset (R430). -/
  coreHold : Option Nat
  /-- The watchdog expired since the firmware last reported itself running. -/
  expired : Bool
  /-- The offsets are measured again once firmware runs, after a die reset (R462). -/
  remeasure : Bool
  /-- The refused request for factory test has been recorded since power-on (R459). -/
  refusalNoted : Bool
  /-- SPDM: the algorithms have been negotiated. -/
  negotiated : Bool
  deriving DecidableEq, Repr

/-- A record that waits for the recorder's writer (R501). Power cycles and hours are those of the writing. -/
structure EventRec where
  code : Nat
  source : Nat
  flags : BitVec 8
  time : Nat
  d0 : BitVec 32
  d1 : BitVec 32
  deriving DecidableEq, Repr

/-- The state of the collector and the recorder beside their objects. -/
structure FaultState where
  /-- COUNT of each status at its last clear (R505). -/
  lastCount : Tbl Nat
  /-- Collector registers whose copies differ: the copies whose code checks good (R494). -/
  split : Tbl (Option (BitVec 64) × Option (BitVec 64))
  /-- Records waiting for the writer, oldest first; at most 32 (R502). -/
  queue : List EventRec
  /-- The antifuse slots, unwritten ones empty. -/
  slots : Tbl (List Byte)
  /-- The power-on scan has not ended (R503). -/
  scanning : Bool
  /-- Rows of which the scrubber has corrected a word: the number of that pass, plus 1 (R523). -/
  scrubbed : Tbl Nat
  /-- Spare rows used, by macro and store kind, and the rows remapped, by row and store kind (R523, R525). -/
  rowsUsed : Tbl Nat
  remapped : List Nat
  deriving DecidableEq, Repr

/-- The ward sequence in progress (R418). -/
structure WardSeq where
  revoke : Bool
  start : Nat
  /-- Frozen time when the sequence began: time spent frozen is not counted (R419). -/
  frozen : Nat
  drainFrom : Nat
  /-- The management core stopped during the sequence (R423). -/
  overrun : Bool
  deriving DecidableEq, Repr

/-- An open segmented transfer (R445). -/
structure Transfer where
  handle : BitVec 16
  path : Path
  key : Nat
  upload : Bool
  /-- An upload's snapshot, or the bytes a download has brought. -/
  bytes : List Byte
  size : Nat
  next : Nat
  /-- The answer to the last segment, which a repeat receives again. -/
  last : List Byte
  /-- When the last segment came (R446). -/
  at_ : Nat
  deriving DecidableEq, Repr

/-- A host mailbox (R442). -/
structure Mailbox where
  request : List Byte
  response : List Byte
  busy : Bool
  done : Bool
  overrun : Bool
  answered : BitVec 32
  irq : BitVec 16
  deriving DecidableEq, Repr

/-- A request message waiting at endpoint 0x0C1 (R441). -/
structure ServiceMsg where
  src : BitVec 16
  ward : BitVec 4
  words : List (BitVec 32)
  deriving DecidableEq, Repr

/-- A request that a core restart has caught unexecuted: it is answered RESTARTED once firmware runs again (R431). -/
structure HeldReq where
  acc : Access
  cmd : Nat
  index : Nat
  sub : Nat
  xfer : BitVec 16
  deriving DecidableEq, Repr

/-- The state of the dictionary service. -/
structure DictState where
  transfers : List Transfer
  nextHandle : Nat
  mailboxes : Tbl Mailbox
  /-- The unanswered request on the management bus: its message tag and PDU (R443). -/
  bus : Option (BitVec 3 × List Byte)
  held : List HeldReq
  /-- The SPDM request on the bus: its message tag (R457). -/
  spdm : BitVec 3
  /-- The endpoint identifier that MCTP control has assigned. -/
  eid : Byte
  /-- Expedited in-band requests waiting at endpoint 0x0C1, at most 16. -/
  service : List ServiceMsg
  /-- Objects whose value an uncorrectable SRAM word spoilt (R431). -/
  spoilt : List Nat
  /-- Back-off waits of the bus, the mailboxes and the service queue, by the arbiter's unit number: time by `waitNow` of the
  retry, plus 1 (R449). -/
  tries : Tbl Nat
  /-- The handle of the transfer that ended last without its value, and the abort code recorded as the cause (R445, R446). -/
  ended : Option (BitVec 16 × BitVec 32)
  deriving DecidableEq, Repr

/-- A wire being steered to a spare (R520). -/
structure Steer where
  n : Nat
  point : Nat
  wire : Nat
  spare : Nat
  /-- 0 the sender drives both, 1 the receiver has switched. -/
  stage : Nat
  deriving DecidableEq, Repr

/-- A repair that the running firmware begins by itself under SPARE_POLICY (R526). -/
inductive Repair where
  | wire (n point wire : Nat)
  | lane (n lane : Nat)
  | row (n kind : Nat) (word : StoreWord)
  deriving DecidableEq, Repr

/-- The state of spares and sistering. -/
structure SpareState where
  /-- Physical columns and rows retired, in antifuse (R515). -/
  retiredCols : List Nat
  retiredRows : List Nat
  steering : List Steer
  /-- Lane steering that waits for the next FIRST output flit of a node, as lane + 1 (R522). -/
  laneWaits : Tbl Nat
  /-- The lane of a node replaced by the spare, as lane + 1. -/
  laneUsed : Tbl Nat
  /-- Residue faults per node and lane within the hour (R526). -/
  residues : Tbl Nat
  /-- Spare wires found bad, as 32 × (4n + point) + spare. -/
  badSpares : List Nat
  /-- FEC corrections of each bridge at the start of the hour (R524). -/
  fecBase : Tbl Nat
  /-- The modules of each bridge that have shown corrections within the hour, as bit m (R524). -/
  fecMods : Tbl Nat
  /-- Repairs that fell due while no core ran, oldest first: they await the firmware (R25). -/
  due : List Repair
  deriving DecidableEq, Repr

/-- A trace record (R540) before the store numbers it. -/
structure TraceRec where
  time : Nat
  src : Nat
  evt : Nat
  unit : Nat
  chan : Nat
  ward : Option (BitVec 4)
  layer : BitVec 16
  operator : BitVec 16
  arg0 : BitVec 32
  arg1 : BitVec 32
  deriving DecidableEq, Repr

/-- A record as the trace store holds it: its sequence number, and whether every word of it is readable. -/
structure StoredTrace where
  body : TraceRec
  seq : BitVec 32
  valid : Bool
  deriving DecidableEq, Repr

/-- An item of the progress watchdog, or a node of the wait-for graph, by its kind and place (R546, R549). -/
structure WaitNode where
  kind : Nat
  unit : Nat
  point : Nat
  sub : Nat
  info : Nat
  deriving DecidableEq, Repr

/-- A stalled item: its class, its ward, where it stood, since when by the time that windows count, and whether it has been
detected (R546, R547). -/
structure Stall where
  cls : Nat
  node : WaitNode
  ward : Option (BitVec 4)
  mark : List Nat
  since : Nat
  counted : Bool
  deriving DecidableEq, Repr

/-- The state of counters, trace, the progress watchdog, freeze and dump. -/
structure ObsState where
  /-- Local counts since the last gather, by event, unit and ward (R535). -/
  counts : Tbl Nat
  /-- Slots written since the last gather: their counting restarts with it (R536). -/
  fresh : List Nat
  /-- Totals of WARD_EVENTS, by 256 × ward + code. -/
  totals : Tbl Nat
  /-- Trace records queued at the units, by 3n + (0 junction, 1 engine or gate, 2 management tile). -/
  queues : Tbl (List TraceRec)
  /-- The trace store, by index, and its sequence number. -/
  store : Tbl (Option StoredTrace)
  seq : BitVec 32
  /-- Records that the window still takes after the trigger (R541). -/
  left : Nat
  /-- The items found stalled at the last examination. -/
  stalls : List Stall
  /-- When a wait-for graph was begun (R548), and the items detected by then. -/
  graphFrom : Option Nat
  graphSeeds : List WaitNode
  /-- Start of the freeze (R550). -/
  freezeStart : Nat
  /-- A capture is running (R552). -/
  capturing : Bool
  /-- The hall exchanges of the measurement in progress, and when it began (R545). -/
  hall : List (Int × Nat × Nat)
  hallFrom : Option Nat
  deriving DecidableEq, Repr

end Sys2Proof.Machine
end

