-- ==== Sys2Proof/Machine/Types/Txn.lean ====
section
/-! DEFINITION. The state of the transaction planes: packets, routers, initiators, targets, memory attachments and the
homes of coherent windows. -/

namespace Sys2Proof.Machine

/-- What travels on the four networks (R239). -/
inductive TKind where
  | request | reserve | giveBack
  | completion | grant | backoff
  | snoop | snoopReply
  | data
  deriving DecidableEq, Repr

/-- A packet (R247 to R249). `dest` is TARGET of a request; `addr` is LINE of a snoop; `masks` is empty when every strobe is
set; `outer` is the end-to-end code it carries. -/
structure TPkt where
  kind : TKind
  op : BitVec 4
  level : BitVec 2
  ward : BitVec 4
  keep : Bool
  lenM1 : BitVec 5
  gen : BitVec 4
  tag : BitVec 10
  src : BitVec 16
  dest : BitVec 16
  addr : BitVec 64
  status : BitVec 3
  streak : BitVec 4
  code : BitVec 2
  hasData : Bool
  dkind : BitVec 2
  masks : List (BitVec 1024)
  beats : List (BitVec 1024)
  outer : BitVec 32
  deriving DecidableEq, Repr

/-- The link into a router input: packets on their way, the flits of the first that have come, the packet being put together
with the errors its head brought for later flits, and whether the rest of it is discarded (R249, R250). -/
structure TLink where
  queue : List TPkt
  pos : Nat
  asm : Option TPkt
  entries : List Nat
  lost : Bool
  deriving DecidableEq, Repr

/-- Who waits for a transaction's answer. -/
inductive TxnOwner where
  /-- The function unit behind the port: TR_, or the management tile's firmware. -/
  | port
  /-- The host controller behind the port: HIP_. -/
  | host
  /-- No one, since an adapter reset: the answer is taken and discarded (R36). -/
  | dropped
  /-- No one: a home's write of dirty lines that a read brought out (R264). -/
  | nobody
  /-- The holder of a slot at this unit, for which the unit acts onward; at a bridge endpoint on the receiving side, the
    partner's request (R250). -/
  | onward (src : BitVec 16) (tag : BitVec 10) (gen : BitVec 4)
  /-- A DMA channel or a collective channel, with what the answer is for. -/
  | engine (chan : Nat) (what : Nat) (info : Nat)
  deriving DecidableEq, Repr

/-- A transaction that a port has accepted (R244, R251, R260). -/
structure OpenTxn where
  op : BitVec 4
  addr : BitVec 64
  lenM1 : BitVec 5
  tag : BitVec 10
  gen : BitVec 4
  level : BitVec 2
  ward : BitVec 4
  data : List (BitVec 1024)
  strb : List (BitVec 128)
  target : BitVec 16
  since : Nat
  /-- 0 waits for its turn or the regulator, 1 for a slot, 2 sent. -/
  stage : Nat
  /-- Consecutive requests on its slot, itself included (R252). -/
  carried : Nat
  keep : Bool
  owner : TxnOwner
  deriving DecidableEq, Repr

/-- What an initiator holds towards a target and pool: a reservation on its way or latched, and the back-off to wait out
(R251, R255). -/
structure Claim where
  reserving : Bool
  /-- Time by `waitNow` of the earliest retry, plus 1; 0 when none is waited for. -/
  retryAt : Nat
  deriving DecidableEq, Repr

/-- An answer on its way to the function unit: its tag, status and the beats left. -/
structure TReady where
  tag : BitVec 10
  status : BitVec 3
  beats : List (BitVec 1024)
  deriving DecidableEq, Repr

/-- An initiator (R251 to R260). -/
structure TInit where
  open_ : List OpenTxn
  claims : Tbl Claim
  /-- Uses of each tag, modulo 16. -/
  gens : Tbl (BitVec 4)
  /-- Transactions that timed out: their tags are not used again until the time given (R260). -/
  quarantine : List (OpenTxn × Nat)
  /-- Transactions whose quarantine has ended and whose answer has still not come: it is known by TAG and GEN (R260). -/
  lapsed : List OpenTxn
  /-- Quarter bytes missing from the token bucket when it was last counted, and when that was (R259). -/
  missing : Nat
  counted : Nat
  ready : List TReady
  deriving DecidableEq, Repr

/-- A slot at a target (R251, R252): who holds it, the request in it and its write data. -/
structure Slot where
  src : BitVec 16
  level : BitVec 2
  rq : Option TPkt
  data : Option TPkt
  /-- The request is being served: by `txnNow`, since when. -/
  since : Option Nat
  /-- Tag towards the unit behind the target, plus 1. -/
  behind : Nat
  deriving DecidableEq, Repr

/-- A target's slots and input latches (R251, R253, R255). -/
structure TTarget where
  slots : List Slot
  /-- Latched reservations, oldest first. -/
  latches : List TPkt
  /-- The pending choice of each pool's arbiter. -/
  choices : Tbl (Option (BitVec 16))
  /-- The unit each pool granted last, plus 1. -/
  last : Tbl Nat
  streaks : Tbl (BitVec 4)
  losses : Tbl (BitVec 32)
  /-- Input numbers that differ from those of a die reset, plus 1 (R257). -/
  numbers : Tbl Nat
  /-- Write data whose request has not come, oldest first (R249). -/
  early : List TPkt
  deriving DecidableEq, Repr

/-- A command of a memory attachment (R51, R53, R244). -/
structure MaCmd where
  src : BitVec 16
  tag : BitVec 10
  gen : BitVec 4
  /-- The write half of an atomic. -/
  second : Bool
  write : Bool
  addr : Nat
  size : Nat
  /-- Tag on MQ_, once issued. -/
  issued : Option (BitVec 10)
  beats : List (BitVec 4096)
  strb : List (BitVec 512)
  status : BitVec 2
  /-- The bytes of the request within the block: its first byte and their number. -/
  first : Nat
  count : Nat
  /-- What an atomic has read. -/
  old : BitVec 1024
  deriving DecidableEq, Repr

/-- An answer that the unit behind target `unit` still owes for a tag that the target has given up: after an adapter reset or a
region reset, or at a slot timeout (R36, R49, R56, R261). `left` read beats or completions come; `counted` says that each counts in
DISCARDS. -/
structure Owed where
  unit : Nat
  tag : BitVec 10
  left : Nat
  counted : Bool
  deriving DecidableEq, Repr

/-- A snoop at a core port: the home's unit number, its tag, line, type and ward, and whether SQ_ has carried it to the core,
which then owes the reply (R49, R264). -/
structure CoreSnoop where
  core : Nat
  home : BitVec 16
  stag : BitVec 8
  line : BitVec 35
  ty : BitVec 2
  ward : BitVec 4
  driven : Bool
  deriving DecidableEq, Repr

/-- A transaction that a home serves (R264): the slot's holder, the lines still to snoop, the snoop under way, and the dirty
lines that came. -/
structure HomeTxn where
  src : BitVec 16
  tag : BitVec 10
  /-- Ward of the window. -/
  ward : BitVec 4
  /-- Lines not yet snooped; the first is under way when `waits` is not empty. -/
  lines : List Nat
  stag : BitVec 8
  waits : List Nat
  since : Nat
  dirty : Tbl (Option (BitVec 512))
  failed : Bool
  /-- The line's snoop of the agent waits for its port clock; snoop data came with a failed code (R34, R250). -/
  asks : Bool
  spoilt : Bool
  deriving DecidableEq, Repr

/-- A snoop of the caching agent that the block answers (R264). -/
structure AgentSnoop where
  port : Nat
  tag : BitVec 8
  stag : BitVec 8
  line : Nat
  waits : List Nat
  since : Nat
  resp : BitVec 2
  data : Option (BitVec 512)
  deriving DecidableEq, Repr

/-- A write of COH_WINDOW that waits for its old lines to be invalidated (R263). -/
structure CohWait where
  port : Nat
  index : Nat
  value : BitVec 64
  /-- The request, which is answered when the lines are back; none at a revocation. -/
  acc : Option Access
  /-- The line to invalidate next, or under way while `waits` is not empty, and the first line after the old window. -/
  next : Nat
  stop : Nat
  stag : BitVec 8
  waits : List Nat
  since : Nat
  /-- The line's snoop of the agent waits for its port clock. -/
  asks : Bool
  deriving DecidableEq, Repr

/-- An answer to an engine, or to a gate or bridge that acts onward. -/
structure TDone where
  unit : Nat
  owner : TxnOwner
  op : BitVec 4
  status : BitVec 3
  data : List (BitVec 1024)
  deriving DecidableEq, Repr

/-- The state of the transaction planes. Inputs are numbered by network, junction and input. -/
structure TxnState where
  links : Tbl TLink
  bufs : Tbl (List TPkt)
  /-- The input an output served last, plus 1, and how often a packet at an input has been passed over there (R240). -/
  served : Tbl Nat
  passedOver : Tbl Nat
  /-- Packets at their unit, by network and local number. -/
  arrived : Tbl (List TPkt)
  inits : Tbl TInit
  targets : Tbl TTarget
  /-- Commands of each attachment, oldest first. -/
  mas : Tbl (List MaCmd)
  homes : List (Nat × HomeTxn)
  agents : List AgentSnoop
  cohWaits : List CohWait
  dones : List TDone
  /-- Answers still owed for tags given up, and snoops at core ports. -/
  owed : List Owed
  snoops : List CoreSnoop
  deriving DecidableEq, Repr

def TPkt.blank : TPkt := ⟨.request, 0, 0, 0, false, 0, 0, 0, 0, 0, 0, 0, 0, 0, false, 0, [], [], 0⟩

def TLink.zero : TLink := ⟨[], 0, none, [], false⟩

def Claim.zero : Claim := ⟨false, 0⟩

def TInit.zero : TInit := ⟨[], [], [], [], [], 0, 0, []⟩

def TTarget.zero : TTarget := ⟨[], [], [], [], [], [], [], []⟩

def TxnState.reset : TxnState := ⟨[], [], [], [], [], [], [], [], [], [], [], [], [], []⟩

end Sys2Proof.Machine
end

