-- ==== Sys2Proof/Machine/Types/Bridge.lean ====
section
/-! DEFINITION. The state of the bridges: the link protocol of each group of lanes, enumeration, and time exchanges. -/

namespace Sys2Proof.Machine

/-- One group of a bridge in both directions (R307, R314, R315). -/
structure BGroup where
  /-- Bytes of records that wait for a flit, and the time stamps to be written as their flit leaves: where the record begins, and where
  in it the stamp stands (R324). -/
  stream : List Byte
  stamps : List (Nat × Nat)
  /-- SEQ of the next new DATA flit, and the flits kept for replay, oldest first. -/
  next : BitVec 8
  replay : List (BitVec 8 × List Byte)
  credits : Nat
  /-- Credits owed to the partner; and for each flit of the receive buffer in use, oldest first, how many records begin in it and have
  not been taken. -/
  freed : Nat
  held : List Nat
  /-- SEQ expected next; a replay has been asked for. -/
  expect : BitVec 8
  nak : Bool
  /-- ACK_SEQ and NAK as the partner has last been told. -/
  told : BitVec 8 × Bool
  /-- Bytes of a record that has come in part, and whole records not yet taken. -/
  part : List Byte
  recs : List (List Byte)
  /-- When the partner's NAK was answered, and how often the oldest kept flit has been replayed in succession. -/
  answered : Option Nat
  again : Nat
  /-- Of a tensor group: a run has been sent in part, its rest is discarded, and a run has been received in part (R330). -/
  mid : Bool
  cut : Bool
  rmid : Bool
  deriving DecidableEq, Repr

/-- An exchange of TIME_REQ and TIME_RESP with a child or parent (R324): exchanges made, the least trip so far, and the offset
that came with it. -/
structure TimeTrial where
  made : Nat
  best : Option (Int × Int)
  /-- When the request under way was made: its stamp is no earlier. -/
  sent : Nat
  deriving DecidableEq, Repr

/-- A section of a package image on its way to another die: the bytes not yet sent, the handle of its transfer, the SEGMENTs sent, and
whether an answer is awaited (R327, R445). -/
structure PkgSend where
  die : Nat
  rest : List Byte
  size : Nat
  handle : Option (BitVec 16)
  next : Nat
  busy : Bool
  /-- When the image came: it tells the answers of this transfer from those of an earlier one. -/
  since : Nat
  deriving DecidableEq, Repr

/-- A package load or arm in progress at the master (R327, R328): the dies still to answer, the largest count, and the
container. -/
structure PkgSeq where
  image : List Byte
  dies : List Nat
  waiting : List Nat
  largest : Nat
  /-- The sections still on their way. -/
  sends : List PkgSend
  deriving DecidableEq, Repr

/-- The state of the bridges and of the package. Groups are numbered 8b + 0 to 7: T0, T1, T2, CTL, REQ, RSP, SNP, DAT. -/
structure BridgeState where
  groups : Tbl BGroup
  /-- This die's position relative to the master, once known (R320). -/
  pos : Option (Int × Int)
  /-- When the last new die was found, and whether the quiet time runs; when the firmware's wait for ENUM ends. -/
  quietFrom : Option Nat
  waitUntil : Option Nat
  /-- TIME exchanges by bridge, and when the period of TB_PERIOD ends. -/
  trials : Tbl TimeTrial
  tbDue : Option Nat
  /-- Bridges that came up after the enumeration (R330), and the modules by bridge, as bit m: those out of service, and those that
  retrain (R316, R319). -/
  late : List Nat
  bad : Tbl Nat
  retrain : Tbl Nat
  pkgs : Tbl PkgSeq
  /-- TIME_REQ and TIME_RESP records that have arrived: bridge, record, and the time of arrival (R324). -/
  times : List (Nat × List Byte × Nat)
  /-- Requests that have come over a bridge and wait for their write data, and data that wait for their request (R249). -/
  reqs : List (Nat × TPkt)
  early : List (Nat × TPkt)
  deriving DecidableEq, Repr

def BGroup.zero : BGroup where
  stream := []
  stamps := []
  next := 0
  replay := []
  credits := 128
  freed := 0
  held := []
  expect := 0
  nak := false
  told := (255, false)
  part := []
  recs := []
  answered := none
  again := 0
  mid := false
  cut := false
  rmid := false

def TimeTrial.zero : TimeTrial := ⟨0, none, 0⟩

def PkgSeq.zero : PkgSeq := ⟨[], [], [], 0, []⟩

def BridgeState.reset : BridgeState := ⟨[], none, none, none, [], none, [], [], [], [], [], [], []⟩

end Sys2Proof.Machine
end

