-- ==== Sys2Proof/Machine/Types/Gate.lean ====
section
/-! DEFINITION. The state of the fabric gates: packets, connections, the egress queue, and the plat. -/

namespace Sys2Proof.Machine

/-- A fabric packet (R339): `dst` and `src` hold package, die and gate, as bits 31:10 of W2 and W3. -/
structure FPkt where
  ty : Nat
  cls : Nat
  mirror : Bool
  spray : Bool
  mark : Bool
  hops : BitVec 8
  ward : BitVec 4
  level : BitVec 2
  label : BitVec 20
  path : BitVec 12
  dst : BitVec 22
  src : BitVec 22
  seq : BitVec 32
  chan : Nat
  conn : BitVec 16
  body : List Byte
  deriving DecidableEq, Repr

/-- A new packet that waits at the egress. One of the switch path belongs to no connection (R391). -/
structure GQueued where
  pkt : FPkt
  free : Bool
  deriving DecidableEq, Repr

/-- A packet kept until an acknowledgement covers it (R349, R351). -/
structure GSent where
  pkt : FPkt
  times : Nat
  /-- When RETX_TIMEOUT ends, by the gate's time. -/
  due : Nat
  /-- Successive acknowledgements that showed it missing. -/
  missed : Nat
  /-- It waits to be sent again. -/
  again : Bool
  deriving DecidableEq, Repr

/-- A class of a connection, in both directions (R348 to R352). -/
structure GClass where
  next : BitVec 32
  sent : List GSent
  window : Nat
  /-- Packets acknowledged since the window last grew, and the SEQ that ends the interval in which it has halved. -/
  grown : Nat
  halved : Option (BitVec 32)
  /-- The next SEQ to deliver, and the packets that wait in the reorder share. -/
  want : BitVec 32
  held : List FPkt
  /-- New packets since the last acknowledgement, when ACK_DELAY ends, whether one is due now, and whether one of them came
    with MARK, or with MIRROR. -/
  fresh : Nat
  ackDue : Option Nat
  ackNow : Bool
  echo : Bool
  mirrored : Bool
  deriving DecidableEq, Repr

/-- A connection to a peer: the identifier under which this gate sends, and the peer's present one (R348). -/
structure GConn where
  peer : BitVec 22
  mine : Option (BitVec 16)
  theirs : Option (BitVec 16)
  path : BitVec 12
  /-- When a packet was last sent or received, by the gate's time. -/
  used : Nat
  classes : Tbl GClass
  deriving DecidableEq, Repr

/-- A request performed here for a remote gate (R354): the tag of this gate's own transaction, and what the RSP echoes. -/
structure GJob where
  tag : BitVec 10
  req : FPkt
  deriving DecidableEq, Repr

/-- A gate. -/
structure Gate where
  conns : List GConn
  lastId : BitVec 16
  queue : List GQueued
  /-- Deficit round-robin over the classes, and over the channels of COLL: whose turn it is, and the deficits in bytes. -/
  turn : Nat
  deficit : Tbl Nat
  chanTurn : Nat
  chanDeficit : Tbl Nat
  jobs : List GJob
  /-- Delivered block-internal messages, and delivered chunks and switch records, oldest first. -/
  records : List FPkt
  chunks : List FPkt
  deriving DecidableEq, Repr

/-- The gates of the die and the plat they share: way w of set s is entry 4s + w. -/
structure GateState where
  gates : Tbl Gate
  plat : Tbl (BitVec 64)
  deriving DecidableEq, Repr

def FPkt.zero : FPkt := ⟨0, 0, false, false, false, 0, 0, 0, 0, 0, 0, 0, 0, 0, 0, []⟩

def GClass.zero : GClass := ⟨0, [], 32, 0, none, 0, [], 0, none, false, false, false⟩

def Gate.zero : Gate := ⟨[], 0, [], 1, [], 0, [], [], [], []⟩

def GateState.reset : GateState := ⟨[], []⟩

end Sys2Proof.Machine
end

