-- ==== Sys2Proof/Machine/Types/Coll.lean ====
section
/-! DEFINITION. The state of the collective engines: channels, operations, chunk buffers, and the reduction store. -/

namespace Sys2Proof.Machine

/-- A hall tally entry (R381): greatest and least ETOP, where some block is nonzero, and SPECIAL. -/
structure HEntry where
  top : Option Int
  low : Option Int
  special : Bool
  deriving DecidableEq, Repr

/-- The tally head (R389). `flag` is ADVERT, or SWITCH on its way down. -/
structure THead where
  countMax : Nat
  dropped : Nat
  limit : Nat
  members : Nat
  opcode : Nat
  redOp : Nat
  cap : Nat
  swTries : Nat
  flag : Bool
  slowest : Nat
  maxLag : Nat
  chunkBlocks : Nat
  inFmt : Nat
  outFmt : Nat
  rootRank : Nat
  deriving DecidableEq, Repr

/-- A tally as far as it has come. -/
structure HTally where
  head : THead
  entries : List HEntry
  deriving DecidableEq, Repr

/-- A block of elements in a format. -/
structure CBlock where
  fmt : Nat
  codes : List Nat
  deriving DecidableEq, Repr

/-- A memory request of a channel: its bytes, what has been read, the tries spent, and the number under which it is out. -/
structure CollIo where
  addr : Nat
  len : Nat
  data : List Byte
  got : List Byte
  tries : Nat
  serial : Option Nat
  deriving DecidableEq, Repr

/-- A chunk buffer (R387, R391 to R393). -/
structure CollChunk where
  index : Nat
  /-- It stands in the channel's reserved slot. -/
  reserved : Bool
  /-- The chunk is on its tree, and not on the switch path. -/
  tree : Bool
  /-- Own blocks placed so far. -/
  own : List CBlock
  /-- Fragments from children, or from the source of a BROADCAST, by rank. -/
  kids : Tbl (List CBlock)
  readySent : Bool
  upSent : Bool
  total : List CBlock
  downSent : Bool
  attempt : Nat
  /-- Times the present attempt has been sent, when it is sent again, and the end of a back-off before the next. -/
  sends : Nat
  due : Nat
  wait : Option Nat
  results : Tbl (Option CBlock)
  deriving DecidableEq, Repr

/-- A fired operation. -/
structure CollOp where
  members : List (BitVec 22)
  rank : Nat
  /-- When the ARRIVE last left, by the gate's time. -/
  arriveAt : Nat
  /-- The tally has its cells of the pool, and phase 2 has begun (R386). -/
  tallied : Bool
  /-- What this member contributes to the tally head. -/
  limit : Nat
  advert : Bool
  own : List HEntry
  ownDone : Bool
  /-- Own blocks that an ERROR spoils (R379). -/
  bad : List Nat
  kids : Tbl (Option HTally)
  upSent : Bool
  final : Option HTally
  /-- READY received: tree B, and the chunk, none for the tally. -/
  readies : List (Bool × Option Nat)
  /-- Elements taken of the contribution's flow, whether its tally run and its data have ended, and the block in part. -/
  taken : Nat
  tallyEnded : Bool
  dataEnded : Bool
  part : List Nat
  chunks : List CollChunk
  next : Nat
  io : Option CollIo
  /-- Flits, or bytes, of the result delivered, and the write in progress. -/
  out : Nat
  wr : Option CollIo
  nan : Bool
  inputErr : Bool
  fallbacks : Nat
  deriving DecidableEq, Repr

/-- The rest of an IN_FLOW contribution, to be taken and discarded (R379, R398). -/
structure CollDrain where
  flow : Nat
  tally : Bool
  left : Nat
  per : Nat
  deriving DecidableEq, Repr

inductive CollPhase where
  | none | fetch | wait | run | back | haltBack | abort
  deriving DecidableEq, Repr

/-- A channel. -/
structure CollChan where
  phase : CollPhase
  slot : Nat
  record : List Byte
  op : Option CollOp
  /-- The fetch or the write-back that is out. -/
  io : Option CollIo
  status : Nat
  /-- Slots whose OWN is being cleared: the slot, the tries spent, the number of the request. -/
  owns : List (Nat × Nat × Option Nat)
  lastTag : Option (BitVec 32)
  /-- Contributions of ended operations that are still to be taken, oldest first. -/
  drain : List CollDrain
  /-- The rest of an OUT_FLOW run that an abort has left: the flow and its flits (R398). -/
  ending : Option (Nat × Nat)
  /-- Stamps of the present operation and of the next, by tag: rank and time (R396). -/
  stamps : List (BitVec 32 × List (Nat × Nat))
  /-- LAG_TABLE: the operation, its ranks, their lags, and how often each was slowest. -/
  lagTag : BitVec 32
  lagRanks : Nat
  lags : Tbl (Option Nat)
  slowCounts : Tbl Nat
  serial : Nat
  deriving DecidableEq, Repr

/-- The store of a gate (R386): requests latched, the arbiter's pending choice, each channel's STREAK, and the end of its
back-off, plus 1. -/
structure CollStore where
  latched : List Nat
  choice : Option Nat
  streaks : Tbl Nat
  retryAt : Tbl Nat
  deriving DecidableEq, Repr

/-- The collective engines: channels by 32g + c, stores and the records that wait for the CTL queue by gate, and the end of each
advertisement by 64g + j, plus 1. -/
structure CollState where
  chans : Tbl CollChan
  stores : Tbl CollStore
  outbox : Tbl (List FPkt)
  capEnds : Tbl Nat
  deriving DecidableEq, Repr

def HEntry.zero : HEntry := ⟨none, none, false⟩

def CollChunk.fresh (k : Nat) (reserved tree : Bool) : CollChunk :=
  ⟨k, reserved, tree, [], [], false, false, [], false, 0, 0, 0, none, []⟩

def CollChan.zero : CollChan := ⟨.none, 0, [], none, none, 0, [], none, [], none, [], 0, 0, [], [], 0⟩

def CollStore.zero : CollStore := ⟨[], none, [], []⟩

def CollState.reset : CollState := ⟨[], [], [], []⟩

end Sys2Proof.Machine
end

