-- ==== Sys2Proof/Machine/Types/Control.lean ====
section
/-! DEFINITION. The state of the control plane: router inputs, sockets, combiners, NAK queues and host interrupts. -/

namespace Sys2Proof.Machine

/-- A control message, a NAK or a piece of block-internal traffic, as it rests complete in a buffer (R199 to R202). -/
structure CtlMsg where
  nak : Bool
  ward : BitVec 4
  kind : BitVec 2
  outer : BitVec 8
  rank : BitVec 8
  tag : BitVec 8
  sock : BitVec 5
  src : BitVec 16
  dest : BitVec 16
  /-- Reason code, of a NAK. -/
  reason : BitVec 4
  words : List (BitVec 32)
  deriving DecidableEq, Repr

/-- What stands in a socket's ring (R210, R212): a message with its header word, or a skip record. -/
inductive RingItem where
  /-- At offset `at_`: the sender and the words of a message, of which `popped` have been popped. -/
  | msg (at_ : Nat) (src : BitVec 16) (words : List (BitVec 32)) (popped : Nat)
  | skip (at_ : Nat) (len : Nat)
  deriving DecidableEq, Repr

/-- An accumulator of a combining socket or combiner (R223, R224). -/
structure Acc where
  lanes : List Int
  count : Nat
  nan : Bool
  deriving DecidableEq, Repr

/-- An operand socket (R210). -/
structure Sock where
  ring : List RingItem
  acc : Acc
  /-- A result that could not be stored (R225). -/
  held : Option (List (BitVec 32))
  deriving DecidableEq, Repr

/-- A combiner (R226): its accumulator and the releases still to send, as the junctions and the words. -/
structure Combiner where
  acc : Acc
  releases : List (Nat × List (BitVec 32))
  deriving DecidableEq, Repr

/-- The interrupts of a host port (R230): the queue of 64, and one pending entry for each source of the block's own:
0 mailbox completions, 1 fault notifications, 2 hang notifications. -/
structure IrqState where
  queue : List (BitVec 11 × BitVec 4)
  waiting : Tbl (Option (BitVec 11))
  deriving DecidableEq, Repr

/-- A channel write that waits for the rank of an endpoint on another die (R220). -/
structure ChanCheck where
  table : Nat
  entry : Nat
  value : BitVec 32
  since : Nat
  /-- The request, which is answered when the check ends. -/
  acc : Access
  deriving DecidableEq, Repr

/-- A channel of another die that ends at an endpoint of this one: the sender, the entry of its table, the endpoint here and the
sender's rank (R220). -/
structure InChan where
  src : BitVec 16
  entry : Nat
  dest : BitVec 16
  rank : BitVec 8
  deriving DecidableEq, Repr

/-- The state of the control plane. Router inputs and outputs of junction n are numbered 8n + 0 to 7: N, E, S, W, A, B,
side attachment, and the router's own units (combiner, NAKs that start at the router). -/
structure CtlState where
  /-- Flits that have left for an input and not yet arrived there, oldest first. -/
  wire : Tbl (List (BitVec 80))
  /-- Data of the flits of a message not yet complete at an input (R204). -/
  asm : Tbl (List (BitVec 72))
  /-- Inputs that discard up to the next HEAD or NAK (R204). -/
  skipping : List Nat
  /-- Messages of the junction's own units that wait until their input has room (R206). -/
  waiting : Tbl (List CtlMsg)
  /-- Complete messages at an input, at most two (R206). -/
  buf : Tbl (List CtlMsg)
  /-- The input an output served last, plus 1 (R206). -/
  served : Tbl Nat
  /-- Messages at their destination, by local endpoint number; block-internal traffic for junction n at 0x200 + n. -/
  arrived : Tbl (List CtlMsg)
  /-- NAKs that await CN_READY, by junction (R45). -/
  naks : Tbl (List CtlMsg)
  socks : Tbl Sock
  combs : Tbl Combiner
  irq : Tbl IrqState
  checks : List ChanCheck
  /-- Ranks registered for endpoints of other dies, by endpoint (R220). -/
  ranks : Tbl (Option (BitVec 8))
  /-- Channels of other dies into this one, registered here (R220). -/
  incoming : List InChan
  deriving DecidableEq, Repr

def Acc.zero : Acc := ⟨[], 0, false⟩

def Sock.zero : Sock := ⟨[], Acc.zero, none⟩

def Combiner.zero : Combiner := ⟨Acc.zero, []⟩

def IrqState.zero : IrqState := ⟨[], []⟩

def CtlState.reset : CtlState where
  wire := []
  asm := []
  skipping := []
  waiting := []
  buf := []
  served := []
  arrived := []
  naks := []
  socks := []
  combs := []
  irq := []
  checks := []
  ranks := []
  incoming := []

end Sys2Proof.Machine
end

