-- ==== Sys2Proof/Machine/Types/Dma.lean ====
section
/-! DEFINITION. The state of the DMA engines: descriptors in progress, reads and writes under way, and the movers. -/

namespace Sys2Proof.Machine

/-- A read of source data (R288): the bytes `from_` to `from_ + len − 1` of source row `row`, in `beats` beats from `addr`. -/
structure DmaRead where
  id : Nat
  addr : Nat
  beats : Nat
  row : Nat
  from_ : Nat
  len : Nat
  tries : Nat
  data : Option (List (BitVec 1024))
  deriving DecidableEq, Repr

/-- A write whose completion has not come (R280): its data, and the descriptor it belongs to. -/
structure DmaWrite where
  id : Nat
  addr : Nat
  data : List (BitVec 1024)
  strb : List (BitVec 128)
  tries : Nat
  /-- The descriptor's number in the channel's order, and its slot. -/
  order : Nat
  slot : Nat
  deriving DecidableEq, Repr

/-- What ended a channel's run: KIND, slot, status and tries, and whether the descriptor is written back (R296). -/
structure DmaFail where
  kind : Nat
  slot : Nat
  status : BitVec 3
  tries : Nat
  back : Bool
  deriving DecidableEq, Repr

/-- Where a channel stands in R288. -/
inductive DmaPhase where
  | none | fetch | wait | move | writeBack | halting | haltBack | abort
  deriving DecidableEq, Repr

/-- A channel. -/
structure DmaChan where
  phase : DmaPhase
  slot : Nat
  order : Nat
  desc : List Byte
  ext : List Byte
  /-- The slot whose read is under way or has come, and the retries it has spent. -/
  fetching : Option Nat
  fetchTries : Nat
  /-- The number of that read: an answer of an earlier one is dropped (R288, R298). -/
  fetchId : Nat
  /-- The next row and byte to read, and to move. -/
  readRow : Nat
  readOff : Nat
  moveRow : Nat
  moveOff : Nat
  reads : List DmaRead
  /-- Beats of the write being put together. -/
  asm : List (BitVec 1024 × BitVec 128)
  writes : List DmaWrite
  nextId : Nat
  /-- Most retries of one request of the descriptor, and retries of its write-back. -/
  tries : Nat
  backTries : Nat
  fail : Option DmaFail
  deriving DecidableEq, Repr

/-- A request of a channel that waits for a free tag of its engine. -/
structure DmaHeld where
  chan : Nat
  op : BitVec 4
  addr : Nat
  beats : Nat
  data : List (BitVec 1024)
  strb : List (BitVec 128)
  what : Nat
  info : Nat
  deriving DecidableEq, Repr

/-- The engines: channels by 16e + c, and for each mover and PRIO, by 4e + PRIO, the channel it moved a beat of last, plus 1 (R282). -/
structure DmaState where
  chans : Tbl DmaChan
  movers : Tbl Nat
  held : List DmaHeld
  deriving DecidableEq, Repr

def DmaChan.zero : DmaChan := ⟨.none, 0, 0, [], [], none, 0, 0, 0, 0, 0, 0, [], [], [], 0, 0, 0, none⟩

def DmaState.reset : DmaState := ⟨[], [], []⟩

end Sys2Proof.Machine
end

