-- ==== Sys2Proof/Machine/Types/Tensor.lean ====
section
/-! DEFINITION. The state of the tensor plane: banks, ingresses, inputs, outputs, deliveries, reduction nodes, taps, and
the epoch sequencer's state for each ward. Inputs and outputs N, E, S, W, A, B of junction n are numbered 8n + 0 to 5. -/

namespace Sys2Proof.Machine

/-- A flit as it rests in a latch: payload, frame byte and RUN_FIELD (R83 to R87). Its inner code is right by construction;
what arrives with an error is said where it arrives. -/
structure TFlit where
  payload : BitVec 4096
  frame : BitVec 8
  run : BitVec 32
  deriving DecidableEq, Repr

/-- A physical bank (R116): the six output lists, the six intake lists and the join records. -/
structure Bank where
  outs : List (List (BitVec 32))
  ins : List (List (BitVec 64))
  joins : List (List Byte)
  deriving DecidableEq, Repr

/-- An ingress at an A or B port: where the next run stands in the intake list, and the run being injected (R40). -/
structure Ingress where
  entry : Nat
  run : Nat
  periods : Nat
  /-- The flow of the run being injected, plus 1; 0 between runs. -/
  flow : Nat
  taken : Nat
  /-- RUN_FLITS and kind of that run. -/
  flits : Nat
  tally : Bool
  /-- Register of the outer code over the payloads taken (R88). -/
  crc : BitVec 32
  /-- Beats are discarded up to TI_LAST (R126, R148). -/
  discard : Bool
  /-- Stopped for a swap (R141), or behind its marker (R142). -/
  stopped : Bool
  marked : Bool
  /-- The beat offered out of order has raised its source. -/
  refused : Bool
  /-- The flit that ends a run cut short waits for room on the link. -/
  cut : Bool
  deriving DecidableEq, Repr

/-- An input of a junction: the link into it, the flit latched, and the run that passes (R90 to R96, R123). -/
structure TIn where
  /-- Flits sent and not yet latched: in the sender's latch and the mid-link latch. -/
  wire : List TFlit
  /-- The three REQ and the three ACK wires of the link: each changes level once for a flit sent, and once for a flit latched
  (R82, R95). -/
  req : BitVec 3
  ack : BitVec 3
  held : Option TFlit
  /-- The takers that have passed the held flit, as TAKERS bits (R118). -/
  done : Nat
  entry : Nat
  run : Nat
  periods : Nat
  /-- Flits of the present run passed, counting the held one. -/
  passed : Nat
  crc : BitVec 32
  /-- ERROR is set on the rest of the run (R86). -/
  err : Bool
  /-- 0 not discarding; 1 up to a FIRST, counted (R92); 2 up to a FIRST, not counted (R126). -/
  skip : Nat
  /-- The run arriving at an empty list has been raised (R127). -/
  strayed : Bool
  /-- Halted (R128), or stopped by a marker out of place (R145). -/
  stuck : Bool
  deriving DecidableEq, Repr

/-- A loop being executed: first entry, entry after its body, passes left. -/
structure LoopFrame where
  start : Nat
  stop : Nat
  left : Nat
  deriving DecidableEq, Repr

/-- An output of a junction: its place in its list (R122, R125), and flits treated as passed (R126). -/
structure TOut where
  entry : Nat
  count : Nat
  loops : List LoopFrame
  periods : Nat
  /-- Flits of short runs still to be treated as passed, by 4096 × SRC + FLOW. -/
  credit : Tbl Nat
  stuck : Bool
  deriving DecidableEq, Repr

/-- A run at a delivering port: the check of its outer code and sequence, and its flags so far (R39, R86). -/
structure DRun where
  seq : Nat
  crc : BitVec 32
  flags : BitVec 4
  deriving DecidableEq, Repr

/-- An A or B port on its delivery side: flits waiting for the adapter or unit with their flow, and the runs open. -/
structure TDlv where
  queue : List (BitVec 12 × TFlit)
  open_ : Tbl (Option DRun)
  deriving DecidableEq, Repr

/-- The capture of a tally run for one join (R177, R178). -/
structure TCap where
  flits : Nat
  crc : BitVec 32
  bad : Bool
  /-- The tally of the join's next data run is wholly captured; `err` says its check failed. -/
  full : Bool
  err : Bool
  deriving DecidableEq, Repr

/-- An operand latch of a reduction node: a flit of an input, with the flow and RUN_FLITS of its run (R96, R150). -/
structure OpLatch where
  flow : Nat
  flit : TFlit
  flits : Nat
  deriving DecidableEq, Repr

/-- A reduction node (R159 to R162, R177). -/
structure TNode where
  /-- The join record whose run is in progress, its run, and its flit. -/
  join : Nat
  run : Nat
  flit : Nat
  periods : Nat
  latch : Option TFlit
  /-- Flow, position and RUN_FLITS of the latched flit. -/
  latchFlow : Nat
  latchPos : Nat
  latchRun : Nat
  done : Nat
  err : Bool
  crc : BitVec 32
  /-- Registers of the operands' outer codes. -/
  opCrc : List (BitVec 32)
  /-- Operand inputs whose run is discarded to its LAST (R162). -/
  drain : List Nat
  store : Tbl (BitVec 64)
  /-- Entries of the tally store found uncorrectable (R185). -/
  badStore : List Nat
  caps : Tbl TCap
  /-- The operand latches, by input (R96). -/
  ops : Tbl (Option OpLatch)
  stuck : Bool
  deriving DecidableEq, Repr

/-- A watch tap's run in progress (R187 to R189). -/
structure TapRun where
  ctrl : BitVec 32
  flow : BitVec 12
  flags : BitVec 8
  count : Nat
  sum : BitVec 64
  sumsq : BitVec 64
  min_ : Option (BitVec 64)
  max_ : Option (BitVec 64)
  nan : Nat
  inf : Nat
  zero : Nat
  digest : BitVec 64
  deriving DecidableEq, Repr

/-- A tap: the runs in progress at its output, by flow, and RUNS_SEEN (R195). -/
structure TapState where
  runs : Tbl (Option TapRun)
  seen : BitVec 32
  deriving DecidableEq, Repr

/-- What the block keeps of an image beside the banks: its identifier, digests, tally flows, and the flows with more than
one delivering output (R146, R158, R192). -/
structure ImageFacts where
  id : BitVec 32
  digest : List Byte
  setup : List Byte
  tally : List Nat
  multi : List Nat
  deriving DecidableEq, Repr

/-- The epoch sequencer's state for a ward (R136 to R148). -/
structure SchedState where
  image : List Byte
  /-- The image came in a section the package master distributes (R327). -/
  package : Bool
  staged : ImageFacts
  live : ImageFacts
  armPending : Bool
  /-- Junctions the arm has reached (R141). -/
  armed : List Nat
  /-- Junctions T is on its way to (R142). -/
  target : List Nat
  /-- The forced markers on their way, and whether they carry FORCE_STAGED (R148). -/
  forced : List Nat
  forceStaged : Bool
  forcing : Bool
  deriving DecidableEq, Repr

/-- The state of the tensor plane. -/
structure TensorState where
  /-- Physical banks by 2n + bank. -/
  banks : Tbl Bank
  /-- Staged-bank words found damaged: the banks whose CRC no longer agrees (R140). -/
  damaged : List Nat
  /-- Lists of a junction that read the bank LIVE_SEL does not name, after a swap that did not complete (R145, R149): bit 0
  the joins, bits 1 to 6 the outputs, bits 7 to 12 the inputs; bit 13 says that LIVE_SEL already names the new bank. -/
  kept : Tbl Nat
  ings : Tbl Ingress
  ins : Tbl TIn
  outs : Tbl TOut
  dlvs : Tbl TDlv
  nodes : Tbl TNode
  taps : Tbl TapState
  scheds : Tbl SchedState
  /-- Outputs, as 8n + o, whose run into a region that was lost is discarded to its end (R463). -/
  cut : List Nat
  deriving DecidableEq, Repr

def Bank.null : Bank := ⟨[], [], []⟩

def Ingress.zero : Ingress := ⟨0, 0, 0, 0, 0, 0, false, 0xFFFFFFFF, false, false, false, false, false⟩

def TIn.zero : TIn := ⟨[], 0, 0, none, 0, 0, 0, 0, 0, 0xFFFFFFFF, false, 0, false, false⟩

def TOut.zero : TOut := ⟨0, 0, [], 0, [], false⟩

def TDlv.zero : TDlv := ⟨[], []⟩

def TNode.zero : TNode := ⟨0, 0, 0, 0, none, 0, 0, 0, 0, false, 0xFFFFFFFF, [], [], [], [], [], [], false⟩

def TCap.zero : TCap := ⟨0, 0xFFFFFFFF, false, false, false⟩

def TapState.zero : TapState := ⟨[], 0⟩

def ImageFacts.null : ImageFacts := ⟨0, List.replicate 48 0, List.replicate 48 0, [], []⟩

def SchedState.zero : SchedState := ⟨[], false, ImageFacts.null, ImageFacts.null, false, [], [], [], false, false⟩

def TensorState.reset : TensorState := ⟨[], [], [], [], [], [], [], [], [], [], []⟩

end Sys2Proof.Machine
end

