-- ==== Sys2Proof/Machine/State.lean ====
section
/-! DEFINITION. The state of the block, what stops a step, and the state right after a power-on reset is entered. -/

namespace Sys2Proof.Machine

/-- What stops the machine with a fault. No meaning of this model ends in one: the manual gives every command an
effect, and errors of the block are state (fault sources, statuses, abort codes). -/
inductive Fault where
  /-- Raised by no command. Safe: a machine that never stops hides nothing by stopping. -/
  | none
  deriving DecidableEq, Repr

/-- Why a command has no meaning. -/
inductive Refusal where
  /-- Answered by the arm of a command the model does not yet give a meaning. Safe: nothing is claimed of it. -/
  | notModelled (mnemonic : String)
  deriving DecidableEq, Repr

/-- The state: the integration's constants, the queue of commands, the time base, what has been driven, the object
dictionary's values, and the state of each part of the block that is not an object. -/
structure State where
  cfg : Integration
  /-- Commands that wait, first in, first out. -/
  pending : List Instr
  /-- The local time base, in ns (R9). -/
  now : Nat
  /-- Time counted while timeouts were stopped, and while the die was frozen (R260, R419). -/
  stoppedFor : Nat
  frozenFor : Nat
  /-- The model's own field: how many free values have been drawn. -/
  drawn : Nat
  /-- What has been driven at the ports, oldest first. -/
  out : List Emission
  /-- Scalar objects that differ from their default, by key. -/
  objs : Tbl Val
  /-- DOMAIN objects held as bytes, by key. -/
  doms : Tbl (Option (List Byte))
  pin : PinState
  pwr : PowerState
  boot : BootState
  flt : FaultState
  /-- The sequence of R418 of each ward. -/
  wards : Tbl (Option WardSeq)
  dict : DictState
  sp : SpareState
  obs : ObsState
  ctl : CtlState
  ten : TensorState
  txn : TxnState
  brg : BridgeState
  dma : DmaState
  gat : GateState
  col : CollState
  deriving DecidableEq, Repr

/-- The SV5-48 reference floorplan, with the two regions of the distance example: columns 0 to 3 and 4 to 7. -/
def referenceAttach : List (BitVec 16) := [
  0x0040, 0x0000, 0x0001, 0x2001, 0x4002, 0x0002, 0x2703, 0x0003,
  0x3000, 0x1080, 0x0001, 0x0001, 0x0002, 0x1482, 0x0003, 0x0003,
  0x2204, 0x0004, 0x1105, 0x0005, 0x2506, 0x0006, 0x1507, 0x4107,
  0x4304, 0x1204, 0x0005, 0x2405, 0x0006, 0x1606, 0x0007, 0x2307,
  0x0008, 0x0008, 0x1389, 0x0009, 0x000A, 0x000A, 0x178B, 0x310B,
  0x0008, 0x2608, 0x0009, 0x4209, 0x210A, 0x000A, 0x000B, 0x000B]

/-- The reference integration: SV5-48, its floorplan, 64 GiB behind each attachment (R243), and core ports and host
ports with every option (assumption 2). -/
def Integration.reference : Integration where
  cols := 8
  rows := 6
  pcols := 9
  prows := 6
  spareCols := [4]
  spareRows := []
  attach := referenceAttach
  adapter := List.replicate 48 0x0020FF0F
  physRegion := (List.replicate 6 [0, 0, 0, 0, 1, 1, 1, 1, 1]).flatten
  regions := 2
  memMap := (List.range 8).map (fun a => BitVec.ofNat 32 (a * 64 * 65536 + 64))
  maTags := List.replicate 8 1024
  hsnp := [true, true]
  hout := [1024, 1024]
  bridgeFacing := [0, 1, 2, 3]

/-- The pins and adapters while the die is held in reset. -/
def PinState.reset : PinState where
  inReset := true
  rstN := false
  pwrOk := true
  sync := false
  syncAt := none
  timerefOk := true
  lastTrim := 0
  stopped := []
  held := []
  waitFirst := []
  spent := []
  dynAddr := none
  ibiOff := false
  pidRandom := 0

def PowerState.reset : PowerState where
  below := []
  down := []
  dips := []
  unstarted := []
  resetUntil := []
  railHeld := []
  wakeFrom := []
  heldWakes := []
  lastActive := []
  wakeHold := []
  grants := []
  railDiff := []

def BootState.reset : BootState where
  lifecycle := 0
  capsFused := false
  provFused := false
  certFused := false
  keyFused := false
  mfr := 0
  serial := 0
  image := []
  romOk := false
  startAsked := false
  holdAsked := false
  wdt := none
  coreHold := none
  expired := false
  remeasure := false
  refusalNoted := false
  negotiated := false

def FaultState.reset : FaultState where
  lastCount := []
  split := []
  queue := []
  slots := []
  scanning := false
  scrubbed := []
  rowsUsed := []
  remapped := []

def DictState.reset : DictState where
  transfers := []
  nextHandle := 1
  mailboxes := []
  bus := none
  held := []
  spdm := 0
  eid := 0
  service := []
  spoilt := []
  tries := []
  ended := none

def SpareState.reset : SpareState where
  retiredCols := []
  retiredRows := []
  steering := []
  laneWaits := []
  laneUsed := []
  residues := []
  badSpares := []
  fecBase := []
  fecMods := []
  due := []

def ObsState.reset : ObsState where
  counts := []
  fresh := []
  totals := []
  queues := []
  store := []
  seq := 0
  left := 0
  stalls := []
  graphFrom := none
  graphSeeds := []
  freezeStart := 0
  capturing := false
  hall := []
  hallFrom := none

/-- The reference die in its first power-on reset, RESET_N low: every object at its default, every store empty, no
command waiting. The start sequence runs from RESET_RELEASE (R65, R454). -/
def State.reset : State where
  cfg := Integration.reference
  pending := []
  now := 0
  stoppedFor := 0
  frozenFor := 0
  drawn := 0
  out := []
  objs := []
  doms := []
  pin := PinState.reset
  pwr := PowerState.reset
  boot := BootState.reset
  flt := FaultState.reset
  wards := []
  dict := DictState.reset
  sp := SpareState.reset
  obs := ObsState.reset
  ctl := CtlState.reset
  ten := TensorState.reset
  txn := TxnState.reset
  brg := BridgeState.reset
  dma := DmaState.reset
  gat := GateState.reset
  col := CollState.reset

end Sys2Proof.Machine
end

