-- ==== Sys2Proof/Machine/Ops.lean ====
section
/-! DEFINITION. The operations every part shares: reading and writing objects and their fields, the floorplan, time,
what is driven at ports, traces and counts, raising a fault, regions and wards. -/

namespace Sys2Proof.Machine

/-! ## Objects -/

/-- What a write does to the block: the abort code that refuses it, or the state after it. -/
abbrev Effect := State → Except Abort State

/-- Bits `lo` to `lo + w − 1` of a value. -/
def fget (v : Val) (lo w : Nat) : Nat := ((v >>> lo) &&& BitVec.ofNat 64 (2 ^ w - 1)).toNat

/-- The value with bits `lo` to `lo + w − 1` replaced by the low bits of `x`. -/
def fset (v : Val) (lo w x : Nat) : Val :=
  (v &&& ~~~(BitVec.ofNat 64 (2 ^ w - 1) <<< lo)) |||
    ((BitVec.ofNat 64 x &&& BitVec.ofNat 64 (2 ^ w - 1)) <<< lo)

/-- A field of an object: its key, its lowest bit and its width. -/
structure Fld where
  key : Nat
  lo : Nat
  w : Nat
  deriving DecidableEq, Repr

/-- The value object `k` holds. -/
def State.obj (s : State) (k : Nat) : Val := Tbl.get (Obj.dflt k) s.objs k

def State.setObj (s : State) (k : Nat) (v : Val) : State :=
  { s with objs := Tbl.set (Obj.dflt k) s.objs k v }

/-- The value of a field. -/
def State.rd (s : State) (f : Fld) : Nat := fget (s.obj f.key) f.lo f.w

def State.wr (s : State) (f : Fld) (x : Nat) : State := s.setObj f.key (fset (s.obj f.key) f.lo f.w x)

/-- A field raised by `n`, saturating. -/
def State.bump (s : State) (f : Fld) (n : Nat) : State := s.wr f (min (s.rd f + n) (2 ^ f.w - 1))

/-- A field raised by `n`, wrapping to 0. -/
def State.bumpWrap (s : State) (f : Fld) (n : Nat) : State := s.wr f ((s.rd f + n) % 2 ^ f.w)

/-- The bytes DOMAIN `k` holds, where it has been written. -/
def State.dom? (s : State) (k : Nat) : Option (List Byte) := Tbl.get none s.doms k

def State.setDom (s : State) (k : Nat) (bs : List Byte) : State :=
  { s with doms := Tbl.set none s.doms k (some bs) }

/-- DOMAIN `k` at its default. -/
def State.clearDom (s : State) (k : Nat) : State := { s with doms := Tbl.set none s.doms k none }

/-- The bytes DOMAIN `k` holds, `n` zero bytes by default. -/
def State.dom (s : State) (k n : Nat) : List Byte := (s.dom? k).getD (List.replicate n 0)

/-- Bit `i` of a bit map held as bytes. -/
def bitOf (bs : List Byte) (i : Nat) : Bool := ((bs.getD (i / 8) 0)).getLsbD (i % 8)

/-- A value no rule of the manual fixes, and the state in which it has been drawn. -/
def State.draw (s : State) : State := { s with drawn := s.drawn + 1 }

def State.emit (s : State) (e : Emission) : State := { s with out := s.out ++ [e] }

/-- An in-band interrupt with its mandatory data byte, unless the bus controller has disabled them (R59). -/
def State.ibi (s : State) (b : Byte) : State := if s.pin.ibiOff then s else s.emit (.ibi b)

/-- An MCTP message awaits reading, which an in-band interrupt says (R59). Its data byte 0xAE is that of DSP0233 (PRESUMED). -/
def State.mctpSend (s : State) (ty : Byte) (mtag : BitVec 3) (body : List Byte) : State := (s.emit (.mctp ty mtag body)).ibi 0xAE

/-! ## The floorplan -/

/-- Logical junctions of the build. -/
def Integration.njs (c : Integration) : Nat := c.cols * c.rows

def Integration.attachAt (c : Integration) (n : Nat) : Nat := (c.attach.getD n 0).toNat

/-- The unit at the B port of junction `n` (R23): 0 none, 1 memory attachment, 2 gate, 3 host port, 4 bridge endpoint. -/
def Integration.bKind (c : Integration) (n : Nat) : Nat := c.attachAt n / 4096 % 16

def Integration.bIndex (c : Integration) (n : Nat) : Nat := c.attachAt n / 256 % 16

/-- The junction whose B port holds unit `i` of kind `kind`. -/
def Integration.unitAt (c : Integration) (kind i : Nat) : Option Nat :=
  (List.range c.njs).find? (fun n => c.bKind n == kind && c.bIndex n == i)

/-- The junctions with a DMA engine, ascending: engine e is the e-th (R23). -/
def Integration.dmaSides (c : Integration) : List Nat :=
  (List.range c.njs).filter (fun n => c.attachAt n / 128 % 2 == 1)

def Integration.dmaAt (c : Integration) (e : Nat) : Option Nat := c.dmaSides[e]?

/-- The junction of the management tile (R23). -/
def Integration.mgmtAt (c : Integration) : Nat :=
  ((List.range c.njs).find? (fun n => c.attachAt n / 64 % 2 == 1)).getD 0

/-- How many units of a kind the integration contains. -/
def Integration.count (c : Integration) (kind : Nat) : Nat :=
  ((List.range c.njs).filter (fun n => c.bKind n == kind)).length

/-- A_ADAPTER of junction `n` (R77). -/
def Integration.adapterAt (c : Integration) (n : Nat) : Nat :=
  if n < c.njs then (c.adapter.getD n 0).toNat else 0

/-- A core port is attached at junction `n`. -/
def Integration.corePort (c : Integration) (n : Nat) : Bool := c.adapterAt n % 2 == 1

/-- SOCKETS of the core port at `n`; 0 where there is none. -/
def Integration.sockets (c : Integration) (n : Nat) : Nat :=
  if c.corePort n then c.adapterAt n / 65536 % 256 else 0

/-- The core attached at `n`, 0x3F for none (R23). -/
def Integration.coreAt (c : Integration) (n : Nat) : Nat := c.attachAt n % 64

/-- The junction at which a local endpoint or transaction unit sits, where the integration contains it (R196, R241). -/
def Integration.unitJunction (c : Integration) (u : Nat) : Option Nat :=
  if u < 0x78 then (if u < c.njs ∧ c.corePort u then some u else none)
  else if 0x80 ≤ u ∧ u < 0x90 then c.unitAt 2 (u - 0x80)
  else if u = 0x90 ∨ u = 0x91 then c.unitAt 3 (u - 0x90)
  else if 0x98 ≤ u ∧ u < 0x9C then c.dmaAt (u - 0x98)
  else if 0xA0 ≤ u ∧ u < 0xB0 then c.unitAt 1 (u - 0xA0)
  else if 0xB0 ≤ u ∧ u < 0xB4 then c.unitAt 4 (u - 0xB0)
  else if u = 0xC0 ∨ u = 0xC1 then some c.mgmtAt
  else none

/-- The control endpoints of the integration (R196): attachments and bridge endpoints are none, combiners are. -/
def Integration.endpointJunction (c : Integration) (u : Nat) : Option Nat :=
  if 0x100 ≤ u ∧ u < 0x178 then (if u - 0x100 < c.njs then some (u - 0x100) else none)
  else if 0xA0 ≤ u ∧ u < 0xC0 then none
  else c.unitJunction u

/-- The spare a retirement of physical line `p` takes: the nearest unused one, the lower one on a tie (R515). -/
def nearestSpare (spares : List Nat) (p : Nat) : Option Nat :=
  spares.foldl (fun best q =>
    match best with
    | none => some q
    | some b => if (Int.natAbs ((q : Int) - p)) < Int.natAbs ((b : Int) - p) ∨
        (Int.natAbs ((q : Int) - p) = Int.natAbs ((b : Int) - p) ∧ q < b) then some q else some b) none

/-- The spares left after the given retirements, in the order they were made. -/
def sparesLeft (spares retired : List Nat) : List Nat :=
  retired.foldl (fun sp p =>
    if sp.contains p then sp.erase p
    else match nearestSpare sp p with
      | some q => sp.erase q
      | none => sp) spares

/-- The physical lines in service, ascending: logical line i is the i-th (R514, R515). -/
def linesInService (count : Nat) (spares retired : List Nat) : List Nat :=
  (List.range count).filter (fun p => !((sparesLeft spares retired).contains p) && !(retired.contains p))

/-- COL_MAP and ROW_MAP: the physical column and row serving each logical one (R529). -/
def State.colMap (s : State) : List Nat := linesInService s.cfg.pcols s.cfg.spareCols s.sp.retiredCols

def State.rowMap (s : State) : List Nat := linesInService s.cfg.prows s.cfg.spareRows s.sp.retiredRows

def State.physOf (s : State) (n : Nat) : Nat × Nat :=
  (s.colMap.getD (n % s.cfg.cols) 0, s.rowMap.getD (n / s.cfg.cols) 0)

/-- The physical column and row of junction `n` with no retirement (R514). -/
def Integration.homeOf (c : Integration) (n : Nat) : Nat × Nat :=
  ((linesInService c.pcols c.spareCols []).getD (n % c.cols) 0, (linesInService c.prows c.spareRows []).getD (n / c.cols) 0)

/-- The supply region of logical junction `n`: that of the physical junction that serves it (R516). -/
def State.regionOf (s : State) (n : Nat) : Nat :=
  s.cfg.physRegion.getD ((s.physOf n).2 * s.cfg.pcols + (s.physOf n).1) 0

/-- The junctions of region `k`. -/
def State.regionJunctions (s : State) (k : Nat) : List Nat :=
  (List.range s.cfg.njs).filter (fun n => s.regionOf n == k)

/-- The mesh neighbour of `n` at port N, E, S or W (0 to 3). -/
def Integration.neighbour (c : Integration) (n p : Nat) : Option Nat :=
  let col := n % c.cols
  let row := n / c.cols
  match p with
  | 0 => if 0 < row then some (n - c.cols) else none
  | 1 => if col + 1 < c.cols then some (n + 1) else none
  | 2 => if row + 1 < c.rows then some (n + c.cols) else none
  | 3 => if 0 < col then some (n - 1) else none
  | _ => none

/-- The port of the neighbour that faces port `p`. -/
def facing (p : Nat) : Nat := (p + 2) % 4

/-- The port by which traffic at `n` leaves towards junction `m`: first along the row, then along the column (R205). -/
def Integration.routePort (c : Integration) (n m : Nat) : Option Nat :=
  if n % c.cols < m % c.cols then some 1
  else if m % c.cols < n % c.cols then some 3
  else if n / c.cols < m / c.cols then some 2
  else if m / c.cols < n / c.cols then some 0
  else none

/-! ## Time, freeze and supply -/

/-- STATE of FREEZE_STATE (R557). -/
def Fld.freezeState : Fld := ⟨Obj.freezeState, 29, 3⟩

def Fld.freezeCause : Fld := ⟨Obj.freezeState, 26, 3⟩

/-- Units withhold their acknowledges: from the freeze until its release, and in the safe state (R550, R495). -/
def State.frozen (s : State) : Bool := s.rd .freezeState == 1 || s.rd .freezeState == 2 || s.rd .freezeState == 4

/-- The die is in the safe state (R494). -/
def State.safe (s : State) : Bool := s.rd .freezeState == 4

/-- SAFE_START was latched 1, and the die has not entered factory test mode (R458, R475). -/
def State.safeStart (s : State) : Bool := (s.obj Obj.bootStatus).getLsbD 30 && !(s.obj Obj.bootStatus).getLsbD 29

/-- Some monitored rail is below warning (R471). -/
def State.warn (s : State) : Bool := !s.pwr.below.isEmpty

/-- Transaction timeouts and back-offs do not count (R260, R471, R496). -/
def State.timersStopped (s : State) : Bool := s.frozen || s.warn

/-- The time base runs: from the effective release of reset (R454). -/
def State.running (s : State) : Bool := !s.pin.inReset

/-- `d` ns pass. -/
def State.advance (s : State) (d : Nat) : State :=
  { s with
    now := s.now + d
    stoppedFor := if s.timersStopped then s.stoppedFor + d else s.stoppedFor
    frozenFor := if s.frozen then s.frozenFor + d else s.frozenFor }

/-- Time moves forward to `t`, if it has not come yet. -/
def State.advanceTo (s : State) (t : Nat) : State := s.advance (t - s.now)

/-- The time that transaction timeouts count: it stands still while they are stopped (R260). -/
def State.txnNow (s : State) : Nat := s.now - s.stoppedFor

/-! ## Wards and regions -/

def Fld.owner (n : Nat) : Fld := ⟨Obj.bankState n, 24, 4⟩
def Fld.owned (n : Nat) : Fld := ⟨Obj.bankState n, 23, 1⟩
def Fld.wardSt (w : Nat) : Fld := ⟨Obj.wardState w, 29, 3⟩
def Fld.wardPhase (w : Nat) : Fld := ⟨Obj.wardState w, 26, 3⟩
def Fld.wardReclaims (w : Nat) : Fld := ⟨Obj.wardState w, 16, 8⟩
def Fld.wardLastUs (w : Nat) : Fld := ⟨Obj.wardState w, 0, 16⟩
def Fld.regionSt (k : Nat) : Fld := ⟨Obj.regionState k, 29, 3⟩
def Fld.regionRefuse (k : Nat) : Fld := ⟨Obj.regionState k, 25, 4⟩
def Fld.regionWakes (k : Nat) : Fld := ⟨Obj.regionState k, 0, 16⟩

/-- The ward that owns junction `n` (R155, R408). -/
def State.wardOf (s : State) (n : Nat) : Option (BitVec 4) :=
  if s.rd (.owned n) = 1 then some (BitVec.ofNat 4 (s.rd (.owner n))) else none

/-- The ward is ACTIVE (R416). -/
def State.wardActive (s : State) (w : BitVec 4) : Bool := s.rd (.wardSt w.toNat) == 2

/-- The ward is RESETTING or REVOKING. -/
def State.wardReclaiming (s : State) (w : BitVec 4) : Bool := 3 ≤ s.rd (.wardSt w.toNat)

/-- A ward may be given resources while it is FORMING or ACTIVE (R417). -/
def State.wardTakes (s : State) (w : Nat) : Bool := s.rd (.wardSt w) == 1 || s.rd (.wardSt w) == 2

/-- The junctions a ward owns. -/
def State.wardJunctions (s : State) (w : BitVec 4) : List Nat :=
  (List.range s.cfg.njs).filter (fun n => s.wardOf n == some w)

/-- The core port at `n` is closed (R410). -/
def State.portClosed (s : State) (n : Nat) : Bool :=
  match s.wardOf n with
  | none => true
  | some w => !s.wardActive w

/-- STATE of region `k`: 0 OFF, 1 RESET, 2 ACTIVE, 3 WAKING, 4 GATED (R479). -/
def State.regionStateOf (s : State) (k : Nat) : Nat := s.rd (.regionSt k)

/-- The region of junction `n` is ACTIVE. -/
def State.junctionActive (s : State) (n : Nat) : Bool := s.regionStateOf (s.regionOf n) == 2

/-- The region of junction `n` is in reset or without its rail. -/
def State.junctionLost (s : State) (n : Nat) : Bool := s.regionStateOf (s.regionOf n) ≤ 1

/-- A handshake can pass at junction `n`: its region is ACTIVE and the die is not frozen (R96, R466). -/
def State.moves (s : State) (n : Nat) : Bool := s.running && s.junctionActive n && !s.frozen

/-- A handshake has passed in the region of `n` (R467). -/
def State.touch (s : State) (n : Nat) : State :=
  { s with pwr := { s.pwr with lastActive := Tbl.set 0 s.pwr.lastActive (s.regionOf n) s.now } }

/-- A wake of region `k` is requested (R466). A request during a freeze is held (R81, R475); requests during a wake merge. -/
def State.wake (s : State) (k : Nat) : State :=
  if s.regionStateOf k ≠ 4 then s
  else if s.frozen then
    { s with pwr := { s.pwr with heldWakes := if s.pwr.heldWakes.contains k then s.pwr.heldWakes else s.pwr.heldWakes ++ [k] } }
  else
    let s1 := { s with pwr := { s.pwr with wakeFrom := Tbl.set 0 s.pwr.wakeFrom k (s.now + 1) } }
    (s1.wr (.regionSt k) 3).bumpWrap (.regionWakes k) 1

/-- Traffic towards junction `n` wakes its region (R20). -/
def State.wakeAt (s : State) (n : Nat) : State := s.wake (s.regionOf n)

/-- The junction adapters: side A of `n` is 2n, side B is 2n + 1. -/
def adapterKey (n : Nat) : Side → Nat
  | .a => 2 * n
  | .b => 2 * n + 1

def State.adapterHeld (s : State) (n : Nat) (side : Side) : Bool := s.pin.held.contains (adapterKey n side)

def State.clockStopped (s : State) (n : Nat) (side : Side) : Bool := s.pin.stopped.contains (adapterKey n side)

/-- The adapter of `n` on `side` can transfer a beat: it is out of reset and its clock runs (R34, R36). -/
def State.adapterLive (s : State) (n : Nat) (side : Side) : Bool :=
  !s.adapterHeld n side && !s.clockStopped n side

/-- The adapter of `n` on `side` can drive a new beat and take one: its clock runs, it is out of reset, and its tile is ACTIVE
and not frozen (R34, R37, R80). -/
def State.drives (s : State) (n : Nat) (side : Side) : Bool := s.moves n && s.adapterLive n side

/-- The rail that feeds junction `n`, or VDD_AON, is below reset: its tile is unpowered (R63, R80). -/
def State.unpowered (s : State) (n : Nat) : Bool := s.pwr.down.contains 8 || s.pwr.down.contains (s.regionOf n)

/-- J_STATE of the core port at `n` (R50, R80, R81). An unpowered tile shows OFF, whatever reset it stands in. -/
def State.jState (s : State) (n : Nat) : Nat :=
  if !s.cfg.corePort n || s.unpowered n then 0
  else if s.pin.inReset || s.adapterHeld n .a then 1
  else match s.regionStateOf (s.regionOf n) with
    | 0 => 0
    | 1 => 1
    | 3 => 3
    | 4 => 4
    | _ => if s.safe then 6 else if s.frozen then 5 else if s.portClosed n then 7 else 2

/-- J_WARD of the core port at `n` (R37, R47, R410): the ward of an open port, and zero while the port is closed, in reset or
off. -/
def State.jWard (s : State) (n : Nat) : BitVec 4 :=
  if s.jState n ≤ 1 || s.portClosed n then 0 else (s.wardOf n).getD 0

/-! ## The management core (R25, R452) -/

/-- STATE of CORE_STATE: 0 BOOT_ROM, 1 RUNNING, 2 RESTARTING, 3 STOPPED, 4 STARTING (R452). -/
def Fld.coreState : Fld := ⟨Obj.coreState, 27, 3⟩

/-- The boot ROM runs, past the check of its own digest (R454). -/
def State.bootRuns (s : State) : Bool := s.running && s.rd .coreState == 0 && s.boot.romOk

/-- Firmware runs and has reported itself running. -/
def State.firmwareRuns (s : State) : Bool := s.running && s.rd .coreState == 1

/-! ## Interrupts of host ports (R230) -/

/-- The block raises a vector of its own on HI_IRQ of port `p`: source 0 mailbox, 1 fault, 2 hang. While the queue is
full one entry per source is held, and further vectors of that source merge with it. -/
def State.hostVector (s : State) (p src : Nat) (vec : BitVec 11) : State :=
  if (s.cfg.unitAt 3 p).isNone then s
  else
    let q := Tbl.get IrqState.zero s.ctl.irq p
    let q' := if q.queue.length < 64 then { q with queue := q.queue ++ [(vec, 0)] }
      else { q with waiting := if (Tbl.get none q.waiting src).isSome then q.waiting else Tbl.set none q.waiting src (some vec) }
    { s with ctl := { s.ctl with irq := Tbl.set IrqState.zero s.ctl.irq p q' } }

/-! ## Trace (R538 to R543) -/

def Fld.traceEnable : Fld := ⟨Obj.traceCtrl, 31, 1⟩
def Fld.traceMode : Fld := ⟨Obj.traceCtrl, 30, 1⟩
def Fld.tracePre : Fld := ⟨Obj.traceCtrl, 26, 4⟩
def Fld.trigFault : Fld := ⟨Obj.traceCtrl, 25, 1⟩
def Fld.trigSev : Fld := ⟨Obj.traceCtrl, 23, 2⟩
def Fld.trigStall : Fld := ⟨Obj.traceCtrl, 22, 1⟩
def Fld.trigFreeze : Fld := ⟨Obj.traceCtrl, 21, 1⟩
def Fld.trigMatch : Fld := ⟨Obj.traceCtrl, 20, 1⟩
def Fld.traceSources : Fld := ⟨Obj.traceCtrl, 0, 4⟩
def Fld.traceState : Fld := ⟨Obj.traceStatus, 61, 3⟩
def Fld.traceNext : Fld := ⟨Obj.traceStatus, 43, 18⟩
def Fld.traceTrigger : Fld := ⟨Obj.traceStatus, 25, 18⟩
def Fld.traceWrapped : Fld := ⟨Obj.traceStatus, 24, 1⟩
def Fld.notStored : Fld := ⟨Obj.traceLoss, 32, 32⟩
def Fld.dropped : Fld := ⟨Obj.traceLoss, 0, 32⟩

/-- Records the trace store holds (R538). -/
def traceSize : Nat := 262144

/-- A record of source `src` is stored only when ENABLE and the source's bit are set (R538, R558). -/
def State.traces (s : State) (src : Nat) : Bool :=
  s.rd .traceEnable == 1 && (src == 5 || (1 ≤ src && (s.rd .traceSources).testBit (src - 1)))

/-- A record is put at NEXT of the trace store and numbered (R539). -/
def State.traceStoreAt (s : State) (i : Nat) (r : TraceRec) : State :=
  { s with obs := { s.obs with
    store := Tbl.set none s.obs.store i (some ⟨r, s.obs.seq, true⟩)
    seq := s.obs.seq + 1 } }

/-- NEXT moves on, and WRAPPED shows that the store has been filled once (R559). -/
def State.traceAdvance (s : State) (i : Nat) : State :=
  if 262143 ≤ i then (s.bumpWrap .traceNext 1).wr .traceWrapped 1 else s.bumpWrap .traceNext 1

/-- After the trigger of window mode the store takes the records left to it, then stops (R541). -/
def State.traceCountDown (s : State) : State :=
  let s1 := { s with obs := { s.obs with left := s.obs.left - 1 } }
  if s.obs.left ≤ 1 then s1.wr .traceState 3 else s1

/-- A record of the trace unit's own or of another source is written into the store (R539, R541). -/
def State.traceWrite (s : State) (r : TraceRec) : State :=
  let st := s.rd .traceState
  if s.rd .traceEnable = 0 ∨ st = 0 then s
  else if st = 3 then s.bump .notStored 1
  else
    let i := s.rd .traceNext
    let s1 := if s.rd .traceMode = 0 ∧ s.rd .traceWrapped = 1 then s.bump .notStored 1 else s
    let s2 := (s1.traceStoreAt i r).traceAdvance i
    if st = 2 ∧ s.rd .traceMode = 1 then s2.traceCountDown else s2

/-- An EVENT record of the trace unit (R540). -/
def eventRec (now evt arg0 : Nat) : TraceRec :=
  ⟨now, 5, evt, 0x00C1, 0, none, 0, 0, BitVec.ofNat 32 arg0, 0⟩

/-- A trigger with the given ARG0 (R541, R542). -/
def State.traceFire (s : State) (arg0 : Nat) : State :=
  let st := s.rd .traceState
  if s.rd .traceEnable = 0 ∨ st = 0 ∨ st = 3 then s
  else if s.rd .traceMode = 0 ∨ st = 2 then s.traceWrite (eventRec s.now 1 arg0)
  else
    let t := s.rd .traceNext
    let s1 := (s.wr .traceTrigger t).wr .traceState 2
    let s2 := { s1 with obs := { s1.obs with left := traceSize - s.rd .tracePre * 16384 } }
    s2.traceWrite (eventRec s.now 1 arg0)

/-- All-ones fields of TRACE_MATCH match any value (R557). -/
def State.traceMatches (s : State) (r : TraceRec) : Bool :=
  let m := s.obj Obj.traceMatch
  let one := fun (lo w x : Nat) => fget m lo w == 2 ^ w - 1 || fget m lo w == x
  one 56 8 r.src && one 48 8 r.evt && one 32 16 r.unit && one 16 16 r.layer.toNat && one 0 16 r.operator.toNat

/-- A unit queues a record it has stamped (R539): 16 at a junction, 64 at an engine or gate. `place` is 0 for a junction,
1 for an engine or gate, 2 for the management tile, at junction `n`. -/
def State.traceQueue (s : State) (n place : Nat) (r : TraceRec) : State :=
  if !s.traces r.src then s
  else
    let k := 3 * n + place
    let q := Tbl.get [] s.obs.queues k
    if (if place = 0 then 16 else 64) ≤ q.length then s.bump .dropped 1
    else { s with obs := { s.obs with queues := Tbl.set [] s.obs.queues k (q ++ [r]) } }

/-! ## Counts (R534 to R537) -/

/-- The key of a local count: event, unit, and ward + 1 (0 for an unattributed event). -/
def countKey (ev n : Nat) (w : Option (BitVec 4)) : Nat :=
  (ev * 128 + n) * 17 + (match w with
    | some x => x.toNat + 1
    | none => 0)

/-- Some slot, or the ward's enable, has event `ev` on (R535). -/
def State.counting (s : State) (ev : Nat) (w : Option (BitVec 4)) : Bool :=
  (List.range 64).any (fun k => s.rd ⟨Obj.cntCfg k, 31, 1⟩ == 1 && s.rd ⟨Obj.cntCfg k, 0, 8⟩ == ev) ||
  (match w with
    | some x => bitOf (s.dom (Obj.wardEvtEn x.toNat) 16) ev
    | none => false)

/-- Event `ev` happens `c` times at junction `n`, attributed to `w`. -/
def State.countEv (s : State) (ev n : Nat) (w : Option (BitVec 4)) (c : Nat) : State :=
  if s.counting ev w then
    { s with obs := { s.obs with counts := Tbl.upd 0 s.obs.counts (countKey ev n w) (· + c) } }
  else s

/-! ## The recorder's queue and the fault collector (R487 to R504) -/

/-- A raise: its source and what DETAIL holds (R488). -/
structure Cause where
  src : Nat
  ward : Option (BitVec 4)
  unit : Nat
  point : Nat
  sub : Nat
  info : Nat
  injected : Bool
  deriving DecidableEq, Repr

/-- A raise with no ward and no detail. -/
def Cause.plain (src : Nat) : Cause := ⟨src, none, 0x7F, 7, 0x3F, 0xFFFF, false⟩

/-- A raise by a unit at junction `n`. -/
def Cause.atUnit (src : Nat) (w : Option (BitVec 4)) (n point sub info : Nat) : Cause :=
  ⟨src, w, n, point, sub, info, false⟩

def Cause.detail (c : Cause) : Nat :=
  (c.unit % 128) * 2 ^ 25 + (c.point % 8) * 2 ^ 22 + (c.sub % 64) * 2 ^ 16 + c.info % 65536

def Fld.recNext : Fld := ⟨Obj.recNext, 0, 16⟩
def Fld.recLost : Fld := ⟨Obj.recLost, 0, 32⟩
def Fld.stPending (n : Nat) : Fld := ⟨Obj.faultStatus n, 63, 1⟩
def Fld.stSev (n : Nat) : Fld := ⟨Obj.faultStatus n, 54, 2⟩
def Fld.stCount (n : Nat) : Fld := ⟨Obj.faultStatus n, 32, 16⟩
def Fld.faultSev (n : Nat) : Fld := ⟨Obj.faultSev n, 0, 2⟩

/-- Whether source `src` is listed and its unit is in the integration (R489). -/
def State.sourcePresent (s : State) (src : Nat) : Bool :=
  Fault.listed src &&
  (if 0x020 ≤ src ∧ src ≤ 0x027 then decide (src - 0x020 < s.cfg.regions)
   else if 0x060 ≤ src ∧ src ≤ 0x063 then (s.cfg.dmaAt (src - 0x060)).isSome
   else if 0x070 ≤ src ∧ src ≤ 0x073 then (s.cfg.unitAt 4 (src - 0x070)).isSome
   else if 0x074 ≤ src ∧ src ≤ 0x077 then (s.cfg.unitAt 4 (src - 0x074)).isSome
   else if 0x080 ≤ src ∧ src ≤ 0x08F then (s.cfg.unitAt 2 (src - 0x080)).isSome
   else if 0x090 ≤ src ∧ src ≤ 0x09F then (s.cfg.unitAt 2 (src - 0x090)).isSome
   else if 0x0B0 ≤ src ∧ src ≤ 0x0BF then (s.cfg.unitAt 2 (src - 0x0B0)).isSome
   else true)

/-- The status a first raise leaves (R487, R512). -/
def Cause.status (c : Cause) (sev : Nat) : Val :=
  BitVec.ofNat 64 (2 ^ 63 + (if c.injected then 2 ^ 61 else 0) +
    (match c.ward with
      | some w => 2 ^ 60 + w.toNat * 2 ^ 56
      | none => 0) + sev * 2 ^ 54 + 2 ^ 32 + c.detail)

/-- FLAGS of a FAULT record (R501). -/
def Cause.flags (c : Cause) (sev : Nat) : BitVec 8 :=
  BitVec.ofNat 8 (sev + (if c.injected then 4 else 0) +
    (match c.ward with
      | some w => 8 + w.toNat * 16
      | none => 0))

/-- Whether the record may still be written: the last 256 slots are kept for some (R504). -/
def State.recordFits (s : State) (reserve : Bool) : Bool :=
  let next := s.rd .recNext + s.flt.queue.length
  decide (s.flt.queue.length < 32) && decide (next < (if reserve then 8192 else 7936))

/-- The writer's queue takes a record: while the slots are scanned any that there is room for. -/
def State.recordTaken (s : State) (reserve : Bool) : Bool :=
  s.flt.scanning && decide (s.flt.queue.length < 32) || s.recordFits reserve

def State.queueRecord (s : State) (r : EventRec) : State := { s with flt := { s.flt with queue := s.flt.queue ++ [r] } }

/-- The die is the package master: its MASTER strap was latched 1 (R68). -/
def State.isMaster (s : State) : Bool := (s.obj Obj.strapLatch).getLsbD 1

/-! ## The tensor fabric's parts, and LOAD_STATUS (R153, R155) -/

def Fld.staged (n : Nat) : Fld := ⟨Obj.bankState n, 28, 3⟩
def Fld.ldState (w : Nat) : Fld := ⟨Obj.loadStatus w, 29, 3⟩
def Fld.epochOf (w : Nat) : Fld := ⟨Obj.epoch w, 0, 32⟩

def State.ing (s : State) (n i : Nat) : Ingress := Tbl.get Ingress.zero s.ten.ings (8 * n + i)
def State.tin (s : State) (n i : Nat) : TIn := Tbl.get TIn.zero s.ten.ins (8 * n + i)
def State.tout (s : State) (n o : Nat) : TOut := Tbl.get TOut.zero s.ten.outs (8 * n + o)
def State.dlv (s : State) (n o : Nat) : TDlv := Tbl.get TDlv.zero s.ten.dlvs (8 * n + o)
def State.node (s : State) (n : Nat) : TNode := Tbl.get TNode.zero s.ten.nodes n
def State.sched (s : State) (w : Nat) : SchedState := Tbl.get SchedState.zero s.ten.scheds w

/-- LOAD_STATUS with a state, a code and the position of a failure (R153). A junction number that JUNCTION cannot hold shows as
none. -/
def State.setLoad (s : State) (w st code j list entry : Nat) : State :=
  s.setObj (Obj.loadStatus w) (BitVec.ofNat 64 (st * 2 ^ 29 + code * 2 ^ 24 + min j 127 * 2 ^ 17 + list * 2 ^ 13 + entry))

/-- The die reports its LOAD_STATUS of a section of a package image to the master, another die (R327, R328; log 132). -/
def State.reportLoad (s : State) (w : Nat) : State :=
  if (s.sched w).package && !s.isMaster then
    s.emit (.dieReport (BitVec.ofNat 4 w) (.status ((s.obj (Obj.loadStatus w)).setWidth 32)))
  else s

/-- A trace record of the epoch sequencer (R538, R540). -/
def State.traceEpoch (s : State) (w evt : Nat) : State :=
  s.traceQueue s.cfg.mgmtAt 2 ⟨s.now, 4, evt, 0x00C1, 0, some (BitVec.ofNat 4 w), 0, 0,
    BitVec.ofNat 32 (s.rd (.epochOf w)), (s.sched w).staged.id⟩

/-- A load or a swap fails: LOAD_STATUS enters FAILED (R137, R145, R149). -/
def State.loadFails (s : State) (w code j list entry : Nat) : State := ((s.setLoad w 7 code j list entry).traceEpoch w 4).reportLoad w

/-- STAGED of every junction of the ward (R155). -/
def State.markStaged (s : State) (w : BitVec 4) (v : Nat) : State :=
  (s.wardJunctions w).foldl (fun (a : State) n => a.wr (.staged n) v) s

/-- A transfer of a schedule image ends without its value: the load that it was for fails with code 0x02 (R137, R446). -/
def State.imageLost (s : State) (t : Transfer) : State :=
  let w := t.key % 256 - 1
  if t.upload || t.key / 256 != 0x1401 || s.rd (.ldState w) != 1 then s
  else (s.markStaged (BitVec.ofNat 4 w) 4).loadFails w 0x02 0x7F 0xF 0x1FFF

/-- The sequence of R418 begins for ward `w`: its state changes and its ports, channels and transfers close at once
(steps 1 and 2), so the drain of step 3 is in progress. -/
def State.wardBegin (s : State) (w : BitVec 4) (revoke : Bool) : State :=
  let own := fun (t : Transfer) => match t.path with
    | .inBand _ x _ => x == w
    | .service _ x _ => x == w
    | _ => false
  let s0 := (s.dict.transfers.filter own).foldl State.imageLost s
  let s1 := (s0.wr (.wardSt w.toNat) (if revoke then 4 else 3)).wr (.wardPhase w.toNat) 3
  { s1 with
    wards := Tbl.set none s1.wards w.toNat (some ⟨revoke, s.now, s.frozenFor, s.now, false⟩)
    dict := { s1.dict with transfers := s1.dict.transfers.filter (fun t => !own t) } }

/-- A freeze begins, for the given cause (R550): FREEZE_STATE, the trace's FREEZE record and trigger. -/
def State.freezeBegin (s : State) (state cause : Nat) : State :=
  if s.frozen then (s.wr .freezeState (if state = 4 then 4 else s.rd .freezeState)).wr .freezeCause (if state = 4 then cause else s.rd .freezeCause)
  else
    let s1 := (s.wr .freezeState state).wr .freezeCause cause
    let s2 := { s1 with obs := { s1.obs with freezeStart := s.now } }
    let s3 := if s2.traces 5 then s2.traceWrite (eventRec s.now 2 cause) else s2
    if s3.rd .trigFreeze = 1 then
      (s3.traceFire (Config.freeValue s3.drawn).toNat).draw
    else s3

/-- What the severity of a first raise brings, `put` being how a record is queued (R490 to R495, R504, R510, R542). -/
def State.actOn (put : State → EventRec → Bool → State) (s : State) (c : Cause) (sev : Nat) : State :=
  let note := s.obj Obj.faultNotify
  let s1 := if fget note 27 1 = 1 ∧ fget note 25 2 ≤ sev then s.ibi 0x46 else s
  let s2 := if fget note 31 1 = 1 ∧ fget note 28 2 ≤ sev then
      s1.hostVector (fget note 30 1) 1 (BitVec.ofNat 11 (fget note 0 11)) else s1
  let s3 := if s2.rd ⟨Obj.recPolicy, 0, 2⟩ ≤ sev then
      put s2 ⟨0x0010, c.src, c.flags sev, s2.now, BitVec.ofNat 32 c.detail,
        BitVec.ofNat 32 (Tbl.get 0 s2.flt.lastCount c.src)⟩ (sev == 3) else s2
  let s4 := if s3.rd .trigFault = 1 ∧ s3.rd .trigSev ≤ sev then s3.traceFire c.src else s3
  if sev = 2 then
    match c.ward with
    | some w => if s4.wardActive w ∧ s4.firmwareRuns then s4.wardBegin w false else s4
    | none => s4
  else if sev = 3 then
    if s4.safe then s4
    else put (s4.freezeBegin 4 4) ⟨0x0011, c.src, c.flags sev, s4.now, BitVec.ofNat 32 c.src, BitVec.ofNat 32 c.detail⟩ true
  else s4

/-- The severity of a raise: FAULT_SEV, and the default of R489 while the boot ROM runs (R507). -/
def State.severity (s : State) (src : Nat) : Nat :=
  if s.rd ⟨Obj.coreState, 27, 3⟩ = 0 then Fault.sevDefault src else s.rd (.faultSev src)

/-- A record of RECORDER's own raise, or of what that raise brings: one that finds no place is lost and counted, and the raise it
makes finds PENDING set (R487, R502). -/
def State.recordLast (s : State) (r : EventRec) (reserve : Bool) : State :=
  if s.recordTaken reserve then s.queueRecord r else (s.bump .recLost 1).bump (.stCount 0x009) 1

/-- RECORDER (0x009) is raised: a record is lost or could not be verified, or the recorder is full (R502). -/
def State.raiseRecorder (s : State) : State :=
  if s.rd (.stPending 0x009) = 1 then s.bump (.stCount 0x009) 1
  else
    let c := Cause.plain 0x009
    let sev := s.severity 0x009
    (s.setObj (Obj.faultStatus 0x009) (c.status sev)).actOn State.recordLast c sev

/-- A record joins the writer's queue, or is lost and counted (R502, R504). -/
def State.record (s : State) (r : EventRec) (reserve : Bool) : State :=
  if s.recordTaken reserve then s.queueRecord r else (s.bump .recLost 1).raiseRecorder

/-- A record without source or ward (R505). -/
def State.recordEvent (s : State) (code d0 d1 : Nat) (reserve : Bool) : State :=
  s.record ⟨code, 0, 0, s.now, BitVec.ofNat 32 d0, BitVec.ofNat 32 d1⟩ reserve

/-- What the severity of a first raise brings. -/
def State.applySeverity (s : State) (c : Cause) (sev : Nat) : State := s.actOn State.record c sev

/-- A unit raises a source (R487). A raise that finds PENDING set only counts. -/
def State.raise (s : State) (c : Cause) : State :=
  if !s.sourcePresent c.src then s
  else if s.rd (.stPending c.src) = 1 then s.bump (.stCount c.src) 1
  else
    let sev := s.severity c.src
    (s.setObj (Obj.faultStatus c.src) (c.status sev)).applySeverity c sev

/-! ## Injection (R498 to R500) -/

def Fld.injArm : Fld := ⟨Obj.inject, 63, 1⟩
def Fld.injAll : Fld := ⟨Obj.inject, 62, 1⟩
def Fld.injRepeat : Fld := ⟨Obj.inject, 61, 1⟩

/-- An injection is armed at the checker named (R499). -/
def State.injectedAt (s : State) (kind unit point sub : Nat) : Bool :=
  let v := s.obj Obj.inject
  fget v 63 1 == 1 && fget v 48 8 == kind && fget v 41 7 == unit && fget v 38 3 == point && fget v 32 6 == sub

/-- The injection fires: ARM clears unless REPEAT is set (R498, R500). -/
def State.injectFired (s : State) : State := if s.rd .injRepeat = 1 then s else s.wr .injArm 0

/-! ## Control messages (R196 to R203) -/

/-- The bytes OUTER covers (R203). -/
def CtlMsg.covered (m : CtlMsg) : List Byte :=
  let head := m.dest.toNat + m.src.toNat * 2 ^ 16 + m.sock.toNat * 2 ^ 32 + (m.words.length - 1) * 2 ^ 37 +
    m.tag.toNat * 2 ^ 40 + m.rank.toNat * 2 ^ 48
  leBytes 7 head ++ [BitVec.ofNat 8 (m.ward.toNat * 4 + m.kind.toNat)] ++ m.words.flatMap (fun w => leBytes 4 w.toNat)

/-- The message with its OUTER code. -/
def CtlMsg.sealed (m : CtlMsg) : CtlMsg := { m with outer := crc8 m.covered }

/-- Two words in the DATA of a flit. -/
def pairWords : List (BitVec 32) → List (BitVec 64)
  | [] => []
  | [a] => [BitVec.ofNat 64 a.toNat]
  | a :: b :: t => (b ++ a) :: pairWords t

/-- Bits 71:0 of the flits of a message (R199 to R202). -/
def CtlMsg.flits (m : CtlMsg) : List (BitVec 72) :=
  let mk := fun (ty : BitVec 2) (ward : BitVec 4) (kind : BitVec 2) (d : Nat) =>
    BitVec.ofNat 72 (((ty.toNat * 16 + ward.toNat) * 4 + kind.toNat) * 2 ^ 64 + d)
  if m.nak then
    [mk 3 m.ward 0 (m.src.toNat + m.dest.toNat * 2 ^ 16 + m.tag.toNat * 2 ^ 32 + m.reason.toNat * 2 ^ 40)]
  else
    let head := m.dest.toNat + m.src.toNat * 2 ^ 16 + m.sock.toNat * 2 ^ 32 + (m.words.length - 1) * 2 ^ 37 +
      m.tag.toNat * 2 ^ 40 + m.rank.toNat * 2 ^ 48 + m.outer.toNat * 2 ^ 56
    let data := pairWords m.words
    mk 2 m.ward m.kind head ::
      (data.dropLast.map (fun d => mk 0 0 0 d.toNat) ++ data.getLast?.toList.map (fun d => mk 1 0 0 d.toNat))

/-- A flit with its CHECK (R200). -/
def ctlEncode (x : BitVec 72) : BitVec 80 := BitVec.ofNat 80 (x.toNat + Hamming.check 72 7 x.toNat * 2 ^ 72)

/-- Messages on the wire of an input: heads and NAKs. -/
def wireMessages (fl : List (BitVec 80)) : Nat := (fl.filter (fun f => f.getLsbD 71)).length

/-- Messages that stand in, or are on their way into, input `k` (8n + i) of a router. -/
def State.inputLoad (s : State) (k : Nat) : Nat :=
  (Tbl.get [] s.ctl.buf k).length + wireMessages (Tbl.get [] s.ctl.wire k) +
    (if (Tbl.get [] s.ctl.asm k).isEmpty then 0 else 1)

/-- Each router input buffers two complete messages (R206). Nobody passes a message that waits for the input. -/
def State.inputRoom (s : State) (k : Nat) : Bool := decide (s.inputLoad k < 2) && (Tbl.get [] s.ctl.waiting k).isEmpty

/-- The flits of a message are put on the wire of input `k`. -/
def State.ctlWire (s : State) (k : Nat) (m : CtlMsg) : State :=
  { s with ctl := { s.ctl with wire := Tbl.upd [] s.ctl.wire k (· ++ m.flits.map ctlEncode) } }

/-- A message leaves for input `i` of the control router of `n`, or waits at its unit until the input has room (R206, log 135). -/
def State.ctlSend (s : State) (n i : Nat) (m : CtlMsg) : State :=
  if s.inputRoom (8 * n + i) then s.ctlWire (8 * n + i) m
  else { s with ctl := { s.ctl with waiting := Tbl.upd [] s.ctl.waiting (8 * n + i) (· ++ [m]) } }

/-- The oldest message that waits for input `k` leaves once it has room. -/
def State.ctlRefill (s : State) (k : Nat) : State :=
  match Tbl.get [] s.ctl.waiting k with
  | [] => s
  | m :: rest =>
    if s.inputLoad k < 2 then ({ s with ctl := { s.ctl with waiting := Tbl.set [] s.ctl.waiting k rest } } : State).ctlWire k m
    else s

/-- This die's number as endpoint numbers carry it; 0 while it is unenumerated (R196, R321). -/
def State.dieBits (s : State) : Nat :=
  let d := (s.obj Obj.dieNumber).toNat
  if d < 64 then d else 0

/-- The endpoint number of local unit `u` of this die. -/
def State.ep (s : State) (u : Nat) : BitVec 16 := BitVec.ofNat 16 (s.dieBits * 1024 + u)

/-- The local number an endpoint has on this die, when it names this die (R196). -/
def State.localOf (s : State) (ep : BitVec 16) : Option Nat :=
  if ep.toNat / 1024 = s.dieBits then some (ep.toNat % 1024) else none

/-- The router input by which local unit `u` sends: its A or B port, its side attachment, or the router itself. -/
def unitInput (u : Nat) : Nat :=
  if u < 0x78 then 4
  else if u < 0x92 ∨ (0xA0 ≤ u ∧ u < 0xC0) then 5
  else if u < 0x100 then 6
  else 7

/-- A unit of this die sends a message (R44: the block stamps source, rank and ward). -/
def State.ctlFrom (s : State) (u : Nat) (m : CtlMsg) : State :=
  match s.cfg.endpointJunction u with
  | some n => s.ctlSend n (unitInput u) { m with src := s.ep u }.sealed
  | none => s

/-- A reply of a service endpoint to a socket of the requester (R229). -/
def State.ctlReply (s : State) (u : Nat) (dest : BitVec 16) (ward : BitVec 4) (sock : BitVec 5) (words : List (BitVec 32)) : State :=
  s.ctlFrom u ⟨false, ward, 0, 0, 0, 0, sock, 0, dest, 0, words⟩

/-- A message takes one NAK back to its source, from input `i` of the router at `n` (R202, R215). -/
def State.ctlNak (s : State) (n i : Nat) (m : CtlMsg) (reason : BitVec 4) : State :=
  s.ctlSend n i ⟨true, m.ward, 0, 0, 0, m.tag, 0, m.src, m.dest, reason, []⟩

/-- The commands of block-internal traffic, held in SOCK (R20, R231, log 136): the epoch sequencer's, and wake-ahead. -/
abbrev Cmd.arm : BitVec 5 := 1
abbrev Cmd.target : BitVec 5 := 2
abbrev Cmd.release : BitVec 5 := 3
abbrev Cmd.forceNull : BitVec 5 := 4
abbrev Cmd.forceStaged : BitVec 5 := 5
abbrev Cmd.wake : BitVec 5 := 6

/-- A unit of this die sends a block-internal command with argument `arg` to local number `u` (R231). TAG repeats the command. -/
def State.sendCommand (s : State) (fromUnit u : Nat) (ward : BitVec 4) (cmd : BitVec 5) (arg : Nat) : State :=
  s.ctlFrom fromUnit ⟨false, ward, 3, 0, 0, cmd.setWidth 8, cmd, 0, s.ep u, 0, [BitVec.ofNat 32 arg]⟩

/-- The epoch sequencer, in the management tile, sends a command to junctions of a ward, in order. -/
def State.sequence (s : State) (ward : BitVec 4) (cmd : BitVec 5) (arg : Nat) (ns : List Nat) : State :=
  ns.foldl (fun (a : State) n => a.sendCommand 0xC1 (0x100 + n) ward cmd arg) s

/-! ## Channels whose offered beat may transfer in a freeze (R50) -/

/-- The state in which the block's offered beat on channel `ch` transfers: during a freeze one beat may, then no new one
is offered. -/
def State.offer (s : State) (ch : Nat) : Option State :=
  if !s.frozen then some s
  else if s.pin.spent.contains ch then none
  else some { s with pin := { s.pin with spent := s.pin.spent ++ [ch] } }

end Sys2Proof.Machine
end

