-- ==== Sys2Proof/Machine/BridgeLink.lean ====
section
/-! DEFINITION. The link protocol of a bridge: where its groups attach, its records, its flits with their codes, replay and
credits (R305 to R316). -/

namespace Sys2Proof.Machine

/-! ## Where the groups attach (R308) -/

/-- The tensor group of a bridge at port `p` of junction `n`: T0 at the endpoint's B port, T1 at its outward mesh port, T2 at
that of its neighbour along the edge. -/
def Integration.tensorGroup (c : Integration) (n p : Nat) : Option (Nat × Nat) :=
  (List.range 4).findSome? (fun b =>
    match c.unitAt 4 b with
    | none => none
    | some e =>
      let d := c.bridgeFacing.getD b 4
      let step := if d % 2 = 0 then 1 else c.cols
      let lower := if d % 2 = 0 then decide (0 < e % c.cols) else decide (0 < e / c.cols)
      let t2 := if lower then e - step else e + step
      if n = e ∧ p = 5 then some (b, 0)
      else if n = e ∧ p = d then some (b, 1)
      else if n = t2 ∧ p = d then some (b, 2)
      else none)

/-- The port of the mesh at which tensor group `g` of bridge `b` attaches. -/
def Integration.groupPort (c : Integration) (b g : Nat) : Option (Nat × Nat) :=
  (List.range c.njs).findSome? (fun n =>
    [0, 1, 2, 3, 5].findSome? (fun p => if c.tensorGroup n p = some (b, g) then some (n, p) else none))

/-- The junction that group `g` of bridge `b` is bonded to: that of its port for a tensor group, the endpoint's for the rest. -/
def Integration.bondedAt (c : Integration) (b g : Nat) : Option Nat :=
  if 1 ≤ g ∧ g < 3 then (c.groupPort b g).map (·.1) else c.unitAt 4 b

/-- The physical junction that the group is bonded to serves its logical junction still (R517). -/
def State.bonded (s : State) (b g : Nat) : Bool :=
  match s.cfg.bondedAt b g with
  | none => false
  | some n => s.physOf n == s.cfg.homeOf n

/-- State of a group as BRIDGE_STATUS shows it (R332): 0 down, 1 half rate, 2 full rate. -/
def State.groupState (s : State) (b g : Nat) : Nat :=
  if g < 3 then s.rd ⟨Obj.bridgeStatus b, 19 - 2 * g, 2⟩
  else if g < 7 then 2 * s.rd ⟨Obj.bridgeStatus b, 14, 1⟩
  else 2 * s.rd ⟨Obj.bridgeStatus b, 13, 1⟩

/-- STATE of the bridge: 0 DOWN, 1 TRAINING, 2 UP, 3 RETRAINING, 4 FAILED. -/
def Fld.bridgeState (b : Nat) : Fld := ⟨Obj.bridgeStatus b, 29, 3⟩

/-- The group is there and carries records, or will after a retrain. -/
def State.groupUp (s : State) (b g : Nat) : Bool :=
  (s.cfg.unitAt 4 b).isSome && (s.rd (.bridgeState b) == 2 || s.rd (.bridgeState b) == 3) && s.groupState b g != 0

/-- The group carries records now: both ends hold numbers of one enumeration (R321, R330). -/
def State.groupCarries (s : State) (b g : Nat) : Bool :=
  s.groupUp b g && (s.obj Obj.dieNumber).toNat != 0xFF && !s.brg.late.contains b

/-! ## Roles of modules (R316, R319) -/

/-- Module `m` is in service. -/
def moduleGood (bad : Nat) (m : Nat) : Bool := !bad.testBit m

/-- The role of each module: T0, T1, T2, CTL, DAT as 0 to 4, and 0xF out of service. Module 6 is replaced first, then module
7, by modules 5 and 4; 0xF at CTL or DAT says that none remains. -/
def moduleRoles (bad : Nat) : List Nat :=
  let pool := [5, 4].filter (moduleGood bad)
  let ctl := if moduleGood bad 6 then none else pool.head?
  let rest := if ctl.isSome then pool.drop 1 else pool
  let dat := if moduleGood bad 7 then none else rest.head?
  (List.range 8).map (fun m =>
    if !moduleGood bad m then 0xF else if ctl = some m then 3 else if dat = some m then 4
    else [0, 0, 1, 1, 2, 2, 3, 4].getD m 0xF)

/-- The role that carries group `g`. -/
def groupRole (g : Nat) : Nat := if g < 3 then g else if g < 7 then 3 else 4

/-- The modules of group `g`, as bit m. -/
def groupModules (bad g : Nat) : Nat :=
  (((moduleRoles bad).zipIdx.filter (fun p => p.1 == groupRole g)).map (fun p => 2 ^ p.2)).sum

/-- The modules of bridge `b` that are out of service, and those that retrain. -/
def State.badModules (s : State) (b : Nat) : Nat := Tbl.get 0 s.brg.bad b
def State.retraining (s : State) (b : Nat) : Nat := Tbl.get 0 s.brg.retrain b

/-- The group passes flits: the link is up, and no module of the group retrains (R316). -/
def State.groupRuns (s : State) (b g : Nat) : Bool :=
  s.rd (.bridgeState b) == 2 || (s.rd (.bridgeState b) == 3 && groupModules (s.badModules b) g &&& s.retraining b == 0)

/-! ## Forward error correction (R311) -/

/-- Twice a field element, under the polynomial 0x11D. -/
def gfTwice (a : Byte) : Byte := if a.getLsbD 7 then (a <<< 1) ^^^ 0x1D else a <<< 1

def gfMul (a b : Byte) : Byte :=
  ((List.range 8).foldl (fun (x : Byte × Byte) i => (if b.getLsbD i then x.1 ^^^ x.2 else x.1, gfTwice x.2)) (0, a)).1

def gfPow (a : Byte) : Nat → Byte
  | 0 => 1
  | n + 1 => gfMul a (gfPow a n)

def gfInv (a : Byte) : Byte := gfPow a 254

/-- A power of the field's generator, exponents modulo 255. -/
def gfAlpha (n : Nat) : Byte := (List.range (n % 255)).foldl (fun a _ => gfTwice a) 1

/-- The generator polynomial of the code, without its leading 1, highest degree first: roots α^0 to α^5. -/
def rsGenerator : List Byte :=
  ((List.range 6).foldl (fun (g : List Byte) i =>
    List.zipWith (· ^^^ ·) (g ++ [0]) (0 :: g.map (fun c => gfMul c (gfAlpha i)))) [1]).drop 1

/-- One data byte through the encoder's register. -/
def rsStep (r : List Byte) (b : Byte) : List Byte :=
  let fb := b ^^^ r.headD 0
  List.zipWith (· ^^^ ·) (r.tail ++ [0]) (rsGenerator.map (fun c => gfMul c fb))

/-- The six parity bytes of an interleave's 58 data bytes, the first byte being the coefficient of the highest degree. -/
def rsParity (data : List Byte) : List Byte := data.foldl rsStep (List.replicate 6 0)

/-- The polynomial with the given coefficients, highest degree first, at a point. -/
def gfEval (cs : List Byte) (x : Byte) : Byte := cs.foldl (fun a c => gfMul a x ^^^ c) 0

def rsSyndromes (w : List Byte) : List Byte := (List.range 6).map (fun j => gfEval w (gfAlpha j))

/-- The state of the search for the error locator: the locator and the last one before its length changed, lowest degree
first, the length, the steps since, and the discrepancy then. -/
structure RsSearch where
  loc : List Byte
  prev : List Byte
  len : Nat
  gap : Nat
  disc : Byte
  deriving DecidableEq, Repr

/-- A polynomial added to another, lowest degree first. -/
def gfAdd : List Byte → List Byte → List Byte
  | [], b => b
  | a, [] => a
  | a :: s, b :: t => (a ^^^ b) :: gfAdd s t

/-- One step of the search with syndrome `k` (Berlekamp and Massey). -/
def RsSearch.next (syn : List Byte) (x : RsSearch) (k : Nat) : RsSearch :=
  let d := (List.range (x.len + 1)).foldl (fun a i => a ^^^ gfMul (x.loc.getD i 0) (if i ≤ k then syn.getD (k - i) 0 else 0)) 0
  if d = 0 then { x with gap := x.gap + 1 }
  else
    let t := gfAdd x.loc (List.replicate x.gap 0 ++ x.prev.map (gfMul (gfMul d (gfInv x.disc))))
    if 2 * x.len ≤ k then { loc := t, prev := x.loc, len := k + 1 - x.len, gap := 1, disc := d }
    else { x with loc := t, gap := x.gap + 1 }

/-- The value at `x` of a polynomial whose coefficients stand lowest degree first. -/
def gfEvalLow (cs : List Byte) (x : Byte) : Byte := gfEval cs.reverse x

/-- An interleave after correction of up to three bytes, with the number corrected; none when it cannot be corrected. -/
def rsCorrect (w : List Byte) : Option (List Byte × Nat) :=
  let syn := rsSyndromes w
  if syn.all (· == 0) then some (w, 0)
  else
    let r := (List.range 6).foldl (RsSearch.next syn) ⟨[1], [1], 0, 1, 1⟩
    let inv := fun (p : Nat) => gfAlpha (255 - (63 - p))
    let at_ := (List.range 64).filter (fun p => gfEvalLow r.loc (inv p) == 0)
    if 3 < r.len ∨ at_.length ≠ r.len then none
    else
      let om := (List.range 6).map (fun k => (List.range (k + 1)).foldl (fun a i => a ^^^ gfMul (r.loc.getD i 0) (syn.getD (k - i) 0)) 0)
      let der := ((List.range 4).filter (fun i => i % 2 == 1)).map (fun i => (i - 1, r.loc.getD i 0))
      let fixed := at_.foldl (fun (v : List Byte) p =>
        let xi := inv p
        let dv := der.foldl (fun a q => a ^^^ gfMul q.2 (gfPow xi q.1)) 0
        v.set p (v.getD p 0 ^^^ gfMul (gfAlpha (63 - p)) (gfMul (gfEvalLow om xi) (gfInv dv)))) w
      if (rsSyndromes fixed).all (· == 0) then some (fixed, r.len) else none

/-- The bytes of interleave `j` of a flit. -/
def interleave (bs : List Byte) (j : Nat) : List Byte :=
  ((List.range 58).map (fun k => bs.getD (4 * k + j) 0)) ++ (List.range 6).map (fun k => bs.getD (232 + 4 * k + j) 0)

/-- A flit's 232 bytes with their parity. -/
def fecAppend (bs : List Byte) : List Byte :=
  let ps := (List.range 4).map (fun j => rsParity (interleave bs j |>.take 58))
  bs ++ (List.range 24).map (fun i => (ps.getD (i % 4) []).getD (i / 4) 0)

/-- The 232 bytes of a received flit after correction, with whether any byte was corrected; none when an interleave cannot
be corrected. -/
def fecDecode (bs : List Byte) : Option (List Byte × Bool) :=
  let rs := (List.range 4).map (fun j => rsCorrect (interleave bs j))
  if rs.any Option.isNone then none
  else
    let ws := rs.map (fun r => (r.getD ([], 0)).1)
    some ((List.range 232).map (fun i => (ws.getD (i % 4) []).getD (i / 4) 0), rs.any (fun r => decide (0 < (r.getD ([], 0)).2)))

/-! ## Flits (R310, R314, R315) -/

def State.bgroup (s : State) (b g : Nat) : BGroup := Tbl.get BGroup.zero s.brg.groups (8 * b + g)

def State.setBgroup (s : State) (b g : Nat) (x : BGroup) : State :=
  { s with brg := { s.brg with groups := Tbl.set BGroup.zero s.brg.groups (8 * b + g) x } }

/-- The bytes of a flit: HEAD, PAYLOAD, CRC and FEC. -/
def flitBytes (idle : Bool) (seq ack : BitVec 8) (nak : Bool) (credit : Nat) (payload : List Byte) : List Byte :=
  let head := (if idle then 2 ^ 22 else 0) + seq.toNat * 2 ^ 14 + ack.toNat * 2 ^ 6 + (if nak then 32 else 0) + credit % 32
  let body := leBytes 3 head ++ padTo 225 payload
  fecAppend (body ++ leBytes 4 (crc32c body).toNat)

/-- A flit leaves on the group, with the acknowledgement and the credits owed. -/
def State.bridgeDrive (s : State) (b g : Nat) (idle : Bool) (seq : BitVec 8) (payload : List Byte) : State :=
  let x := s.bgroup b g
  let c := min x.freed 31
  (s.setBgroup b g { x with freed := x.freed - c, told := (x.expect - 1, x.nak) }).emit
    (.bridgeFlit b g (BitVec.ofNat 2048 (ofLe (flitBytes idle seq (x.expect - 1) x.nak c payload))))

/-- The stream once the flit of its first 225 bytes leaves at time `t`: the stamps of records that begin in it are written. -/
def BGroup.stamped (x : BGroup) (t : Nat) : BGroup :=
  { x with
    stream := (x.stamps.filter (fun p => decide (p.1 < 225))).foldl (fun bs p =>
      bs.take (p.1 + p.2) ++ leBytes 8 t ++ bs.drop (p.1 + p.2 + 8)) x.stream
    stamps := (x.stamps.filter (fun p => decide (225 ≤ p.1))).map (fun p => (p.1 - 225, p.2)) }

/-- New DATA flits leave while the group has bytes to send, credits, and room to keep them for replay; in a freeze none does (R80). -/
def State.bridgeSendNew (s : State) (b g : Nat) : Nat → State
  | 0 => s
  | k + 1 =>
    let x := (s.bgroup b g).stamped s.now
    if !s.groupRuns b g ∨ s.frozen ∨ x.stream.isEmpty ∨ x.credits = 0 ∨ 128 ≤ x.replay.length then s
    else
      let pay := padTo 225 (x.stream.take 225)
      let y := { x with stream := x.stream.drop 225, next := x.next + 1, replay := x.replay ++ [(x.next, pay)], credits := x.credits - 1 }
      ((s.setBgroup b g y).bridgeDrive b g false x.next pay).bridgeSendNew b g k

def State.bridgePump (s : State) (b g : Nat) : State :=
  s.bridgeSendNew b g ((s.bgroup b g).stream.length / 225 + 1)

/-- A record joins the stream of a group; of a group that is down it is discarded (R330). -/
def State.bridgeRecord (s : State) (b g : Nat) (rec_ : List Byte) : State :=
  if !s.groupCarries b g then s
  else
    let x := s.bgroup b g
    (s.setBgroup b g { x with stream := x.stream ++ rec_ }).bridgePump b g

/-- A record whose stamp at byte `off` is written as its flit leaves (R324). -/
def State.bridgeStamped (s : State) (b g : Nat) (rec_ : List Byte) (off : Nat) : State :=
  let x := s.bgroup b g
  if s.groupCarries b g then (s.setBgroup b g { x with stamps := x.stamps ++ [(x.stream.length, off)] }).bridgeRecord b g rec_ else s

/-- The kept flits leave again, in order (R314). -/
def State.bridgeReplay (s : State) (b g : Nat) : State :=
  let x := s.bgroup b g
  let s1 := s.setBgroup b g { x with answered := some s.now, again := x.again + 1 }
  x.replay.foldl (fun (a : State) f =>
    (a.bump ⟨Obj.bridgeErr b, 16, 16⟩ 1).bridgeDrive b g false f.1 f.2) s1

/-- Bytes of the record that begins with a lead byte, itself counted; 0 for a lead byte that is none (R312). -/
def recordLen (g lead : Nat) : Nat :=
  if g < 3 then (if lead = 1 then 518 else 0)
  else if g = 3 then (if lead = 1 ∨ lead = 2 then 10 else if lead = 3 then 26 else 0)
  else if g = 4 then (if lead = 1 then 24 else 0)
  else if g < 7 then (if lead = 1 then 12 else 0)
  else (if lead = 1 then 16 else if lead = 2 then 129 else 0)

/-- The records that a payload completes, and the part of one left over; none where a lead byte is wrong. -/
def parseRecords (g : Nat) : Nat → List Byte → List Byte → Option (List (List Byte) × List Byte)
  | 0, part, _ => some ([], part)
  | k + 1, part, pay =>
    match part with
    | [] =>
      match pay with
      | [] => some ([], [])
      | lead :: rest =>
        if lead = 0 then some ([], [])
        else if recordLen g lead.toNat = 0 then none
        else parseRecords g k [lead] rest
    | lead :: _ =>
      let need := recordLen g lead.toNat - part.length
      if pay.length < need then some ([], part ++ pay)
      else (parseRecords g k [] (pay.drop need)).map (fun r => ((part ++ pay.take need) :: r.1, r.2))

/-- The flits kept for replay that an acknowledgement does not cover. -/
def afterAck (ack : BitVec 8) (rep : List (BitVec 8 × List Byte)) : List (BitVec 8 × List Byte) :=
  if rep.any (fun f => f.1 == ack) then (rep.dropWhile (fun f => f.1 != ack)).drop 1 else rep

/-- What HEAD of a good flit says of the other direction at time `now`: acknowledgement, replay request and credits. The second result
says that a replay is due: at the first NAK, and again where it still stands once the 40 ns that a replay takes (R317) have passed
(DEDUCED, log 130). -/
def BGroup.heed (x : BGroup) (head now : Nat) : BGroup × Bool :=
  let rep := afterAck (BitVec.ofNat 8 (head / 64)) x.replay
  let moved := rep.length != x.replay.length
  let nak := head / 32 % 2 == 1
  let y := { x with replay := rep, credits := min 128 (x.credits + head % 32), again := if moved then 0 else x.again
                    answered := if nak && !moved then x.answered else none }
  (y, nak && !rep.isEmpty && (match y.answered with
    | some t => decide (t + 40 ≤ now)
    | none => true))

/-- A flit of the group cannot be taken: it is discarded and a replay asked for (R314). -/
def State.bridgeDiscard (s : State) (b g : Nat) : State := s.setBgroup b g { s.bgroup b g with nak := true }

/-- The body of a received flit, past FEC and CRC; the flag says that a byte was corrected. -/
def flitCheck (flit : BitVec 2048) : Option (List Byte × Bool) :=
  match fecDecode (leBytes 256 flit.toNat) with
  | none => none
  | some (bs, fixed) => if leAt bs 228 4 = (crc32c (bs.take 228)).toNat then some (bs, fixed) else none

/-- Whether a tensor run is in part there after a record: a marker is a run of its own (R86, R312). -/
def midAfter (mid : Bool) (rec_ : List Byte) : Bool :=
  let frame := rec_.getD 513 0
  if frame.toNat / 64 = 2 then mid else !frame.getLsbD 1

/-- The next DATA flit has come good: its records join those that wait to be taken, and it holds a place of the receive buffer until
every record that begins in it has been (R315). A time record is stamped with its arrival (R324). -/
def State.bridgeKeep (s : State) (b g : Nat) (rs : List (List Byte)) (part : List Byte) : State :=
  let x := s.bgroup b g
  let begun := rs.length + (if part.isEmpty then 0 else 1) - (if x.part.isEmpty then 0 else 1)
  let s1 := s.setBgroup b g { x with
    expect := x.expect + 1, nak := false, part := part, recs := x.recs ++ rs, held := x.held ++ [begun]
    rmid := if g < 3 then rs.foldl midAfter x.rmid else false }
  if g = 3 then
    { s1 with brg := { s1.brg with times := s1.brg.times ++ (rs.filter (fun r => r.headD 0 != 1)).map (fun r => (b, r, s.now)) } }
  else s1

/-- FEC has corrected a flit of group `g`: BRIDGE_ERR counts it, and the group's modules show errors (R314, R524). -/
def State.fecNote (s : State) (b g : Nat) : State :=
  let s1 := s.bump ⟨Obj.bridgeErr b, 32, 32⟩ 1
  { s1 with sp := { s1.sp with fecMods := Tbl.upd 0 s1.sp.fecMods b (· ||| groupModules (s.badModules b) g) } }

/-- A flit of group `g` is received (R314). One with a lead byte that R312 does not list is as one that fails CRC; of a DATA flit out of
turn, HEAD is heeded still. -/
def State.bridgeTake (s : State) (b g : Nat) (flit : BitVec 2048) : State :=
  match flitCheck flit with
  | none => s.bridgeDiscard b g
  | some (bs, fixed) =>
    let head := leAt bs 0 3
    let data := head / 2 ^ 22 == 0
    let due := data && BitVec.ofNat 8 (head / 2 ^ 14) == (s.bgroup b g).expect
    match (if due then parseRecords g 256 (s.bgroup b g).part ((bs.drop 3).take 225) else some ([], [])) with
    | none => s.bridgeDiscard b g
    | some (rs, part) =>
      let s0 := if fixed then s.fecNote b g else s
      let h := (s0.bgroup b g).heed head s0.now
      let s1 := s0.setBgroup b g h.1
      let s2 := if h.2 then s1.bridgeReplay b g else s1
      if !data then s2 else if due then s2.bridgeKeep b g rs part else s2.bridgeDiscard b g

/-- The flits of the receive buffer still in use after `k` records more have been taken. -/
def heldAfter : Nat → List Nat → List Nat
  | _, [] => []
  | k, c :: t => if c ≤ k then heldAfter (k - c) t else (c - k) :: t

/-- Records taken, `left` being those that still wait: the flits they began in are free (R315). -/
def State.bridgeFree (s : State) (b g : Nat) (left : List (List Byte)) : State :=
  let x := s.bgroup b g
  let held := heldAfter (x.recs.length - left.length) x.held
  s.setBgroup b g { x with recs := left, held := held, freed := x.freed + (x.held.length - held.length) }

/-- An IDLE flit leaves: it carries the acknowledgement, the replay request and the credits. -/
def State.bridgeIdle (s : State) (b g : Nat) : State :=
  if s.groupRuns b g then s.bridgeDrive b g true 0 [] else s

/-- A group that has nothing to send, or no credit, tells the partner by an IDLE flit what no flit has told it yet (R315). IDLE flits
that would say nothing new are not shown (log 131). -/
def State.bridgeTell (s : State) (b g : Nat) : State :=
  let x := s.bgroup b g
  if decide (0 < x.freed) || x.told != (x.expect - 1, x.nak) then s.bridgeIdle b g else s

/-! ## Tensor records (R312, R315) -/

/-- The record of a tensor flit. -/
def TFlit.record (f : TFlit) : List Byte := [1] ++ leBytes 512 f.payload.toNat ++ [f.frame] ++ leBytes 4 f.run.toNat

/-- The flit of a tensor record. -/
def flitOfRecord (r : List Byte) : TFlit :=
  ⟨BitVec.ofNat 4096 (leAt r 1 512), r.getD 513 0, BitVec.ofNat 32 (leAt r 514 4)⟩

/-- A tensor group has room for a whole record; one that is down takes every flit and discards it (R315, R330). -/
def State.groupRoom (s : State) (b g : Nat) : Bool :=
  !s.groupCarries b g || decide ((s.bgroup b g).stream.length ≤ 518)

/-- A tensor flit goes to its group. What is left of a run that the link's fall has cut is discarded (R330). -/
def State.bridgeTensor (s : State) (b g : Nat) (f : TFlit) : State :=
  let x := s.bgroup b g
  let last := f.frame.getLsbD 1
  if x.cut ∨ !s.groupCarries b g then s.setBgroup b g { x with mid := false, cut := !last }
  else (s.setBgroup b g { x with mid := !last }).bridgeRecord b g f.record

/-- The link of group `g` has gone down: what waits to be sent or kept for replay is discarded, the rest of a run sent in
part will be, and a run received in part ends with a zero-payload flit with LAST and ERROR (R330). -/
def State.groupDown (s : State) (b g : Nat) : State :=
  let x := s.bgroup b g
  let ended := if x.rmid then [TFlit.record ⟨0, 0x06, 0⟩] else []
  s.setBgroup b g { BGroup.zero with recs := x.recs ++ ended, cut := x.cut || x.mid }

end Sys2Proof.Machine
end

