-- ==== Sys2Proof/Machine/Operands.lean ====
section
/-! DEFINITION. Binary floating point by exact integers: rounding to nearest even into a format, and reading a format's
values (R164, R224). -/

namespace Sys2Proof.Machine

/-- `a / 2^k` rounded to nearest, ties to even. -/
def rne (a k : Nat) : Nat :=
  let q := a / 2 ^ k
  let r := a % 2 ^ k
  if 2 * r > 2 ^ k ∨ (2 * r = 2 ^ k ∧ q % 2 = 1) then q + 1 else q

/-- The magnitude code of `a · 2^q` in a format with `m` significand bits whose least unit is `2^u`, without regard to
the format's largest value: exponent field above significand. -/
def roundMag (m : Nat) (u q : Int) (a : Nat) : Nat :=
  if a = 0 then 0
  else
    let top : Int := (Nat.log2 a : Int) + q
    let t : Int := if top - m < u then u else top - m
    let sig := if t ≤ q then a * 2 ^ (q - t).toNat else rne a (t - q).toNat
    (t - u).toNat * 2 ^ m + sig

/-- An FP32 word is a NaN or an infinity. -/
def f32Special (x : BitVec 32) : Bool := x.toNat / 2 ^ 23 % 256 == 255

/-- The value of a finite FP32 word, in units of 2^-149. -/
def f32Value (x : BitVec 32) : Int :=
  let e := x.toNat / 2 ^ 23 % 256
  let m : Nat := x.toNat % 2 ^ 23
  let mag : Nat := if e = 0 then m else (m + 2 ^ 23) * 2 ^ (e - 1)
  if x.getLsbD 31 then -(mag : Int) else mag

/-- A value in units of 2^-149 rounded to FP32; the sign of a zero is given. Overflow gives the infinity of its sign. -/
def f32Round (v : Int) (negZero : Bool) : BitVec 32 :=
  let code := min (roundMag 23 (-149) (-149) v.natAbs) 0x7F800000
  BitVec.ofNat 32 (code + (if v < 0 ∨ (v = 0 ∧ negZero) then 2 ^ 31 else 0))

/-- The sum of two finite FP32 words, rounded to nearest even (R224). -/
def f32Add (x y : BitVec 32) : BitVec 32 :=
  f32Round (f32Value x + f32Value y) (x.getLsbD 31 && y.getLsbD 31)

/-! ## Element formats (R164 to R167) -/

/-- The codes of the formats (R164). -/
def Fmt.fp32 : Nat := 0x01
def Fmt.bf16 : Nat := 0x02
def Fmt.fp16 : Nat := 0x03
def Fmt.e4m3 : Nat := 0x04
def Fmt.e5m2 : Nat := 0x05
def Fmt.mxE4m3 : Nat := 0x06
def Fmt.mxE5m2 : Nat := 0x07
def Fmt.mxFp4 : Nat := 0x08
def Fmt.int32 : Nat := 0x09
def Fmt.grid64 : Nat := 0x0A
def Fmt.grid32 : Nat := 0x0B
def Fmt.tally : Nat := 0x0C

/-- FP32, BF16, FP16, E4M3 or E5M2. -/
def Fmt.isFloat (f : Nat) : Bool := decide (1 ≤ f) && decide (f ≤ 5)

def Fmt.isMx (f : Nat) : Bool := decide (6 ≤ f) && decide (f ≤ 8)

def Fmt.isGrid (f : Nat) : Bool := f == 0x0A || f == 0x0B

/-- Exponent bits, mantissa bits, and whether the encodings of the largest exponent are infinities and NaN (R167). An MX
format stands for its element format. -/
def Fmt.shape (f : Nat) : Nat × Nat × Bool :=
  match f with
  | 1 => (8, 23, true)
  | 2 => (8, 7, true)
  | 3 => (5, 10, true)
  | 4 => (4, 3, false)
  | 6 => (4, 3, false)
  | 8 => (2, 1, false)
  | _ => (5, 2, true)

/-- Bits of an element. -/
def Fmt.bits (f : Nat) : Nat :=
  match f with
  | 1 => 32
  | 2 => 16
  | 3 => 16
  | 8 => 4
  | 9 => 32
  | 10 => 64
  | 11 => 32
  | 12 => 64
  | _ => 8

/-- A floating-point value: (−1)^neg · m · 2^e, an infinity or a NaN. -/
inductive FVal where
  | fin (neg : Bool) (m : Nat) (e : Int)
  | inf (neg : Bool)
  | nan
  deriving DecidableEq, Repr

/-- The bias of a format with `eb` exponent bits. -/
def fBias (eb : Nat) : Int := 2 ^ (eb - 1) - 1

/-- The exponent of a format's least unit. -/
def fUnit (eb mb : Nat) : Int := 1 - fBias eb - mb

/-- The value of the code `x` in format `f` (R167). -/
def fDecode (f x : Nat) : FVal :=
  let eb := (Fmt.shape f).1
  let mb := (Fmt.shape f).2.1
  let neg := x / 2 ^ (eb + mb) % 2 == 1
  let e := x / 2 ^ mb % 2 ^ eb
  let m := x % 2 ^ mb
  if (Fmt.shape f).2.2 ∧ e = 2 ^ eb - 1 then (if m = 0 then .inf neg else .nan)
  else if mb = 3 ∧ e = 15 ∧ m = 7 then .nan
  else if e = 0 then .fin neg m (fUnit eb mb)
  else .fin neg (m + 2 ^ mb) (fUnit eb mb + (e - 1 : Nat))

/-- The largest finite magnitude code of a format, and the code an overflow becomes (R173). -/
def Fmt.maxCode (f : Nat) : Nat :=
  let eb := (Fmt.shape f).1
  let mb := (Fmt.shape f).2.1
  if (Fmt.shape f).2.2 then (2 ^ eb - 1) * 2 ^ mb - 1 else if mb = 3 then 0x7E else 2 ^ (eb + mb) - 1

def Fmt.overCode (f : Nat) : Nat := if (Fmt.shape f).2.2 then Fmt.maxCode f + 1 else Fmt.maxCode f

/-- The canonical NaN of a float format (R167). -/
def Fmt.nanCode (f : Nat) : Nat :=
  match f with
  | 1 => 0x7FC00000
  | 2 => 0x7FC0
  | 3 => 0x7E00
  | 4 => 0x7F
  | _ => 0x7E

def signCode (f : Nat) (neg : Bool) : Nat :=
  if neg then 2 ^ ((Fmt.shape f).1 + (Fmt.shape f).2.1) else 0

/-- A value converted to format `f`, rounding once (R173). `sat` saturates at the largest finite value (R172). -/
def fEncode (f : Nat) (sat : Bool) : FVal → Nat
  | .nan => Fmt.nanCode f
  | .inf neg => signCode f neg + (if sat then Fmt.maxCode f else Fmt.overCode f)
  | .fin neg m e =>
    let code := roundMag (Fmt.shape f).2.1 (fUnit (Fmt.shape f).1 (Fmt.shape f).2.1) e m
    signCode f neg + (if code ≤ Fmt.maxCode f then code else if sat then Fmt.maxCode f else Fmt.overCode f)

/-- The FP32 word of a value (R169 step 1). -/
def fToF32 (v : FVal) : BitVec 32 := BitVec.ofNat 32 (fEncode 1 false v)

/-- floor(log2 |x|) of a finite nonzero value (R167). -/
def FVal.exponent : FVal → Option Int
  | .fin _ m e => if m = 0 then none else some ((Nat.log2 m : Int) + e)
  | _ => none

def FVal.special : FVal → Bool
  | .fin .. => false
  | _ => true

/-- One binary32 addition of finite addends, of which the first may have become an infinity (R169). -/
def f32Acc (a b : BitVec 32) : BitVec 32 := if f32Special a then a else f32Add a b

/-- ADD in ORDERED mode of decoded addends: the FP32 result, or `none` for the canonical NaN (R169). -/
def f32Sum (xs : List (BitVec 32)) : Option (BitVec 32) :=
  if xs.any f32Special then none
  else match xs with
    | [] => some 0
    | x :: t => some (t.foldl f32Acc x)

/-- The order of float codes under MAX and MIN: −0 below +0, infinities by sign (R170). -/
def fOrder (f x : Nat) : Int :=
  let top := 2 ^ ((Fmt.shape f).1 + (Fmt.shape f).2.1)
  if top ≤ x then -((x - top : Nat) : Int) - 1 else x

/-- The one of `xs` that is greatest, or least, under `key`. -/
def pickBy (key : Nat → Int) (most : Bool) : List Nat → Nat
  | [] => 0
  | x :: t => t.foldl (fun a b => if (if most then decide (key a < key b) else decide (key b < key a)) then b else a) x

/-! ## The grid (R174 to R182) -/

/-- The fields of a tally entry (R174). -/
structure TallyEntry where
  emax : Int
  none_ : Bool
  members : Nat
  elems : Nat
  special : Bool
  deriving DecidableEq, Repr

def TallyEntry.ofWord (w : BitVec 64) : TallyEntry where
  emax := (w.extractLsb' 0 16).toInt
  none_ := w.extractLsb' 0 16 == 0x8000
  members := (w.extractLsb' 16 16).toNat
  elems := (w.extractLsb' 32 11).toNat
  special := w.getLsbD 43

def TallyEntry.word (t : TallyEntry) : BitVec 64 :=
  BitVec.ofNat 64 ((if t.none_ then 0x8000 else (BitVec.ofInt 16 t.emax).toNat) + t.members * 2 ^ 16 +
    t.elems * 2 ^ 32 + (if t.special then 2 ^ 43 else 0))

/-- Two entries joined (R176), without the saturation of MEMBERS. -/
def TallyEntry.join (a b : TallyEntry) : TallyEntry where
  emax := if a.none_ then b.emax else if b.none_ then a.emax else max a.emax b.emax
  none_ := a.none_ && b.none_
  members := a.members + b.members
  elems := max a.elems b.elems
  special := a.special || b.special

/-- Entries joined with MEMBERS saturated, and whether it did. -/
def tallyJoin (xs : List TallyEntry) : TallyEntry × Bool :=
  match xs with
  | [] => (⟨0, true, 0, 0, false⟩, false)
  | x :: t =>
    let r := t.foldl TallyEntry.join x
    ({ r with members := min r.members 0xFFFF }, decide (0xFFFF < r.members))

/-- ceil(log2 k), and 0 for k of 0 or 1. -/
def ceilLog2 (k : Nat) : Nat := if k ≤ 1 then 0 else Nat.log2 (k - 1) + 1

/-- The width of a grid: 64 or 32. -/
def Fmt.gridWidth (f : Nat) : Nat := if f = 0x0B then 32 else 64

/-- The exponent of the quantum of a tally block (R179). -/
def TallyEntry.quantum (t : TallyEntry) (w : Nat) : Int := t.emax + ceilLog2 t.members - ((w : Int) - 2)

/-- `m · 2^e` in units of `2^q`, rounded to nearest, ties to even. -/
def toUnits (m : Nat) (e q : Int) : Nat := if q ≤ e then m * 2 ^ (e - q).toNat else rne m (q - e).toNat

/-- A floating-point addend on the grid of its block (R179, R182); `none` is the marker. -/
def gridPlace (t : TallyEntry) (w : Nat) : FVal → Option Int
  | .fin neg m e =>
    if t.none_ then some 0
    else
      let a := min (toUnits m e (t.quantum w)) (2 ^ (w - 1 - ceilLog2 t.members) - 1)
      some (if neg then -(a : Int) else a)
  | _ => none

/-- The addend violates the final tally (R182). -/
def gridViolates (t : TallyEntry) (v : FVal) : Bool :=
  match v.exponent with
  | some x => t.none_ || decide (t.emax < x)
  | none => v.special && !t.special

/-- A grid integer, `none` for the marker (R167). -/
def gridOfCode (w x : Nat) : Option Int := if x = 2 ^ (w - 1) then none else some (BitVec.ofNat w x).toInt

def gridCode (w : Nat) : Option Int → Nat
  | none => 2 ^ (w - 1)
  | some v => (BitVec.ofInt w v).toNat

/-- The sum of grid integers: the marker when any is (R180). -/
def gridSum (xs : List (Option Int)) : Option Int :=
  if xs.any Option.isNone then none else some (xs.filterMap id).sum

/-- A grid total as a floating-point value (R181). -/
def gridValue (t : TallyEntry) (w : Nat) : Option Int → FVal
  | none => .nan
  | some v => if v = 0 then .fin false 0 0 else .fin (decide (v < 0)) v.natAbs (t.quantum w)

/-! ## MX blocks (R166, R172) -/

/-- Blocks of 32 elements in a flit of an MX format. -/
def Fmt.mxBlocks (f : Nat) : Nat := if f = 8 then 30 else 15

/-- An MX element under its block's scale (R167). -/
def mxValue (f scale code : Nat) : FVal :=
  if scale = 0xFF then .nan
  else match fDecode f code with
    | .fin neg m e => .fin neg m (e + (scale : Int) - 127)
    | v => v

/-- The element code `e` of block `b` of a packed flit (R166). -/
def mxCode (f : Nat) (p : BitVec 4096) (b e : Nat) : Nat :=
  if f = 8 then (p.extractLsb' (8 * (16 * b) + 4 * e) 4).toNat else (p.extractLsb' (8 * (32 * b + e)) 8).toNat

def mxScale (p : BitVec 4096) (b : Nat) : Nat := (p.extractLsb' (8 * (480 + b)) 8).toNat

/-- The 32 values of a block. -/
def mxBlock (f : Nat) (p : BitVec 4096) (b : Nat) : List FVal :=
  (List.range 32).map (fun e => mxValue f (mxScale p b) (mxCode f p b e))

/-- emax of R172. -/
def Fmt.mxEmax (f : Nat) : Int := if f = 6 then 8 else if f = 7 then 15 else 2

/-- The scale of a block of finite values (R172). -/
def mxPickScale (f : Nat) (vs : List FVal) : Nat :=
  match (vs.filterMap FVal.exponent).max? with
  | none => 0x7F
  | some top => (max 0 (min 254 (top - Fmt.mxEmax f + 127))).toNat

/-- A block re-encoded: its scale and element codes (R172). -/
def mxEncode (f : Nat) (vs : List FVal) : Nat × List Nat :=
  if vs.any FVal.special then (0xFF, List.replicate 32 0)
  else if vs.all (fun v => v.exponent.isNone) then (0x7F, List.replicate 32 0)
  else
    let x := mxPickScale f vs
    (x, vs.map (fun v => match v with
      | .fin neg m e => fEncode f true (.fin neg m (e - (x : Int) + 127))
      | _ => 0))

/-- The bits of a packed flit from its blocks (R166). -/
def mxPack (f : Nat) (bs : List (Nat × List Nat)) : BitVec 4096 :=
  let w := if f = 8 then 4 else 8
  let put := fun (acc : Nat × Nat) (b : Nat × List Nat) =>
    ((b.2.foldl (fun (a : Nat × Nat) c => (a.1 + c * 2 ^ a.2, a.2 + w)) acc))
  let els := (bs.foldl put (0, 0)).1
  let scs := (bs.foldl (fun (a : Nat × Nat) b => (a.1 + b.1 * 2 ^ a.2, a.2 + 8)) (0, 8 * 480)).1
  BitVec.ofNat 4096 (els + scs)

/-! ## Slots (R165) -/

/-- The elements of a flit in slots of `w` bits. -/
def slots (w : Nat) (p : BitVec 4096) : List Nat :=
  (List.range (4096 / w)).map (fun i => (p.extractLsb' (i * w) w).toNat)

/-- A flit from its slots. -/
def packSlots (w : Nat) (xs : List Nat) : BitVec 4096 :=
  BitVec.ofNat 4096 (xs.foldr (fun x a => a * 2 ^ w + x % 2 ^ w) 0)

/-! ## binary64, for the watch taps (R188) -/

/-- The binary64 word nearest to a finite value, ties to even. -/
def f64Round (neg : Bool) (m : Nat) (e : Int) : BitVec 64 :=
  BitVec.ofNat 64 (min (roundMag 52 (-1074) e m) 0x7FF0000000000000 + (if neg then 2 ^ 63 else 0))

def f64Special (x : BitVec 64) : Bool := x.toNat / 2 ^ 52 % 2048 == 2047

/-- The value of a finite binary64 word, in units of 2^-1074. -/
def f64Value (x : BitVec 64) : Int :=
  let e := x.toNat / 2 ^ 52 % 2048
  let m : Nat := x.toNat % 2 ^ 52
  let mag : Nat := if e = 0 then m else (m + 2 ^ 52) * 2 ^ (e - 1)
  if x.getLsbD 63 then -(mag : Int) else mag

/-- A binary64 addition; a sum that has overflowed stays. -/
def f64Add (x y : BitVec 64) : BitVec 64 :=
  if f64Special x then x
  else if f64Special y then y
  else
    let v := f64Value x + f64Value y
    f64Round (if v = 0 then x.getLsbD 63 && y.getLsbD 63 else decide (v < 0)) v.natAbs (-1074)

/-- The square of a binary64 word. -/
def f64Square (x : BitVec 64) : BitVec 64 :=
  if f64Special x then 0x7FF0000000000000
  else f64Round false ((f64Value x).natAbs ^ 2) (-2148)

/-- A value as binary64: every element format's finite values are exact in it but the widest grid integers. -/
def FVal.toF64 : FVal → BitVec 64
  | .fin neg m e => f64Round neg m e
  | .inf neg => if neg then 0xFFF0000000000000 else 0x7FF0000000000000
  | .nan => 0x7FF8000000000000

end Sys2Proof.Machine
end

