-- ==== Sys2Proof/Machine/Wear.lean ====
section
/-! DEFINITION. Wear that traffic shows, and the spare wires and lanes it brings in (R520 to R527, R532). -/

namespace Sys2Proof.Machine

/-! ## LINK_WEAR and SPARE_USE (R529, R532) -/

/-- Entry `i` of LINK_WEAR of junction `n`. -/
def State.wear (s : State) (n i : Nat) : Nat := leAt (s.dom (Obj.linkWear n) 16) (4 * i) 4

def State.setWear (s : State) (n i v : Nat) : State :=
  let bs := padTo 16 (s.dom (Obj.linkWear n) 16)
  s.setDom (Obj.linkWear n) (bs.take (4 * i) ++ leBytes 4 v ++ bs.drop (4 * i + 4))

def wearSuspect (v : Nat) : Nat := v / 2 ^ 19
def wearCount (v : Nat) : Nat := v / 2 ^ 9 % 2 ^ 10
def wearCandidate (v : Nat) : Nat := v / 2 ^ 8 % 2
def wearMargin (v : Nat) : Nat := v % 2 ^ 8

def wearOf (suspect count candidate margin : Nat) : Nat :=
  suspect * 2 ^ 19 + min count 1023 * 2 ^ 9 + candidate * 2 ^ 8 + margin % 256

/-- The junction's column or row becomes a retirement candidate (R525). -/
def State.candidate (s : State) (n : Nat) : State :=
  (List.range 4).foldl (fun (a : State) i =>
    let v := a.wear n i
    a.setWear n i (wearOf (wearSuspect v) (wearCount v) 1 (wearMargin v))) s

def Fld.wiresUsed (n i : Nat) : Fld := ⟨Obj.spareUse n, 8 * i, 6⟩
def Fld.laneSpare (n : Nat) : Fld := ⟨Obj.spareUse n, 32, 1⟩
def Fld.laneSecond (n : Nat) : Fld := ⟨Obj.spareUse n, 33, 1⟩

def Fld.autoWire : Fld := ⟨Obj.sparePolicy, 31, 1⟩
def Fld.autoLane : Fld := ⟨Obj.sparePolicy, 30, 1⟩
def Fld.autoRow : Fld := ⟨Obj.sparePolicy, 29, 1⟩
def Fld.autoBridge : Fld := ⟨Obj.sparePolicy, 28, 1⟩
def Fld.autoRetire : Fld := ⟨Obj.sparePolicy, 27, 1⟩
def Fld.wireLimit : Fld := ⟨Obj.sparePolicy, 16, 8⟩
def Fld.marginMin : Fld := ⟨Obj.sparePolicy, 8, 8⟩
def Fld.driftLimit : Fld := ⟨Obj.sparePolicy, 0, 8⟩

/-- A SPARE record (R527). -/
def State.spareRecord (s : State) (kind unit point sub index d1 : Nat) : State :=
  s.recordEvent 0x0040 (kind * 2 ^ 28 + unit * 2 ^ 21 + point * 2 ^ 18 + sub * 2 ^ 13 + index) d1 false

/-! ## Retirements (R515, R530) -/

def Fld.sisterState : Fld := ⟨Obj.sisterCtrl, 61, 3⟩
def Fld.sisterReason : Fld := ⟨Obj.sisterCtrl, 56, 5⟩
def Fld.sisterCmd : Fld := ⟨Obj.sisterCtrl, 52, 4⟩
def Fld.sisterUnit : Fld := ⟨Obj.sisterCtrl, 45, 7⟩
def Fld.sisterPoint : Fld := ⟨Obj.sisterCtrl, 42, 3⟩
def Fld.sisterWire : Fld := ⟨Obj.sisterCtrl, 29, 13⟩
def Fld.sisterPhys : Fld := ⟨Obj.sisterCtrl, 16, 8⟩

/-- The outcome of a command of SISTER_CTRL. -/
def State.sisterEnd (s : State) (st reason : Nat) : State := (s.wr .sisterState st).wr .sisterReason reason

/-- The antifuse map with the physical line that SISTER_CTRL names retired. -/
def State.withRetired (s : State) : State :=
  let p := s.rd .sisterPhys
  if s.rd .sisterCmd = 1 then { s with sp := { s.sp with retiredCols := s.sp.retiredCols ++ [p] } }
  else { s with sp := { s.sp with retiredRows := s.sp.retiredRows ++ [p] } }

/-- The span: the logical junctions that the retirement moves (R518). -/
def State.span (s : State) : List Nat := (List.range s.cfg.njs).filter (fun n => s.physOf n != s.withRetired.physOf n)

/-- A retirement that has begun holds the regions of its span awake (R528). -/
def State.spanHolds (s : State) (k : Nat) : Bool :=
  s.rd .sisterState == 1 && s.rd .sisterCmd ≤ 2 && s.span.any (fun n => s.regionOf n == k || s.withRetired.regionOf n == k)

/-- A command of SISTER_CTRL to steer at junction `n` has been carried out. -/
def State.sisterDone (s : State) (cmd n : Nat) (rest : Bool) : State :=
  if s.rd .sisterState = 1 ∧ s.rd .sisterCmd = cmd ∧ s.rd .sisterUnit = n ∧ rest then s.sisterEnd 2 0 else s

/-! ## Wires (R520, R525) -/

/-- Steering of a wire begins, on the next spare of the link direction; with none left the column is a candidate. -/
def State.steerBegin (s : State) (n i wire : Nat) : State :=
  if s.sp.steering.any (fun x => x.n == n && x.point == i && x.wire == wire) then s
  else if 32 ≤ s.rd (.wiresUsed n i) then s.candidate n
  else
    let k := s.rd (.wiresUsed n i)
    let s1 : State := { s with sp := { s.sp with steering := s.sp.steering ++ [⟨n, i, wire, k, 0⟩] } }
    s1.wr (.wiresUsed n i) (k + 1)

/-- A repair the firmware begins by itself: at once, or when a core runs again (R25, R526). -/
def State.repairDue (s : State) (r : Repair) (now : State → State) : State :=
  if s.firmwareRuns then now s else { s with sp := { s.sp with due := s.sp.due ++ [r] } }

/-- A corrected word names wire `wire` of mesh input `i`: SUSPECT and SUSPECT_COUNT follow, and at WIRE_LIMIT the wire is
steered where AUTO_WIRE allows (R525, R526). -/
def State.noteWire (s : State) (n i wire : Nat) : State :=
  let v := s.wear n i
  let c := if wearSuspect v = wire ∧ wearCount v ≠ 0 then wearCount v + 1 else 1
  let s1 := s.setWear n i (wearOf wire c (wearCandidate v) (wearMargin v))
  if s.rd .autoWire = 1 ∧ c = s.rd .wireLimit then s1.repairDue (.wire n i wire) (·.steerBegin n i wire) else s1

/-! ## Lanes (R522, R526) -/

/-- Steering of a lane to the spare lane begins; a second failed lane makes the column a candidate. -/
def State.laneBegin (s : State) (n lane : Nat) : State :=
  if s.rd (.laneSpare n) = 1 then (s.wr (.laneSecond n) 1).candidate n
  else
    let s1 : State := { s with sp := { s.sp with laneWaits := Tbl.set 0 s.sp.laneWaits n (lane + 1) } }
    s1.wr (.laneSpare n) 1

/-- A residue fault on a lane: the second within the hour steers it where AUTO_LANE allows. -/
def State.noteResidue (s : State) (n lane : Nat) : State :=
  let k := 8 * n + lane
  let c := Tbl.get 0 s.sp.residues k + 1
  let s1 : State := { s with sp := { s.sp with residues := Tbl.set 0 s.sp.residues k c } }
  if s.rd .autoLane = 1 ∧ c = 2 then s1.repairDue (.lane n lane) (·.laneBegin n lane) else s1

/-- The lane a steering waits for is replaced at an output flit with FIRST (R522). -/
def State.laneTurn (s : State) (n : Nat) : State :=
  let w := Tbl.get 0 s.sp.laneWaits n
  if w = 0 then s
  else
    let s1 : State := { s with sp := { s.sp with laneWaits := Tbl.set 0 s.sp.laneWaits n 0
                                                 laneUsed := Tbl.set 0 s.sp.laneUsed n w } }
    (s1.spareRecord 4 n 6 0x1F (w - 1) 0).sisterDone 4 n true

/-! ## Store rows (R523, R525) -/

def Fld.rowsRemapped (k : Nat) : Fld := ⟨Obj.rowSpares k, 16, 16⟩
def Fld.macrosSpent (k : Nat) : Fld := ⟨Obj.rowSpares k, 0, 16⟩

/-- The key of a word's row, and of its macro, in store kind `k`. -/
def rowKey (k : Nat) (w : StoreWord) : Nat := 8 * Config.storeRow w + k

def macroKey (k : Nat) (w : StoreWord) : Nat := 8 * Config.storeMacro w + k

/-- The row of a word of store kind `k` at junction `n` is copied into a spare row of its macro, where AUTO_ROW allows and one
of its four is left. -/
def State.remapRow (s : State) (n k : Nat) (w : StoreWord) : State :=
  let used := Tbl.get 0 s.flt.rowsUsed (macroKey k w)
  if s.rd .autoRow = 0 ∨ 4 ≤ used then s
  else
    let s1 : State := { s with flt := { s.flt with
      rowsUsed := Tbl.set 0 s.flt.rowsUsed (macroKey k w) (used + 1)
      remapped := s.flt.remapped ++ [rowKey k w] } }
    let s2 := s1.bump (.rowsRemapped k) 1
    (if used = 3 then s2.bump (.macrosSpent k) 1 else s2).spareRecord 5 n 6 k 0 (Config.storeRow w)

/-- A word of the row has proved uncorrectable: the row is remapped; where that had been done before in a bank or among the join
records, the junction's column is a candidate. -/
def State.rowBad (s : State) (n k : Nat) (w : StoreWord) : State :=
  let s1 := if k ≤ 1 ∧ s.flt.remapped.contains (rowKey k w) then s.candidate n else s
  if s.rd .autoRow = 1 then s1.repairDue (.row n k w) (·.remapRow n k w) else s1

/-- The repairs that fell due while no core ran begin. -/
def State.repairsBegin (s : State) : State :=
  s.sp.due.foldl (fun s r => match r with
    | .wire n i w => s.steerBegin n i w
    | .lane n l => s.laneBegin n l
    | .row n k w => s.remapRow n k w) { s with sp := { s.sp with due := [] } }

end Sys2Proof.Machine
end

