-- ==== Sys2Proof/Machine/Stores.lean ====
section
/-! DEFINITION. The codes of the SRAM stores: what a read of a word finds, and what it counts and raises (R483 to R485). -/

namespace Sys2Proof.Machine

/-- The count of corrections in store kind `k` (R508). -/
def Fld.storeCorr (k : Nat) : Fld := ⟨Obj.storeCorr, 8 * k, 8⟩

/-- An injection is armed at the words of store kind `k` at junction `n` (R499). -/
def State.storeInjected (s : State) (n k : Nat) : Bool := s.injectedAt 0x08 n 6 k

/-- What a read of a word of `d` data bits and `c` check bits finds, with the bits `flips` inverted and an injection that
is armed there (R483, R498). -/
def State.storeDecode (s : State) (n k d c : Nat) (flips : List Nat) : Decoded :=
  Hamming.decode d c (flips ++ (if s.storeInjected n k then Hamming.injected d c (s.rd .injAll == 1) else []))

/-- A corrected word is counted and raised (R484). -/
def State.storeCorrected (s : State) (n k : Nat) (injected : Bool) : State :=
  (s.bump (.storeCorr k) 1).raise ⟨0x008, none, n, 6, k, 0xFFFF, injected⟩

/-- The state after that read: the injection fired, the correction counted. What an uncorrectable word does is the
reader's (R485). -/
def State.storeRead (s : State) (n k d c : Nat) (flips : List Nat) : State :=
  let r := s.storeDecode n k d c flips
  let inj := s.storeInjected n k
  let s1 := if inj then s.injectFired else s
  if !r.bad && r.corrected.isSome then s1.storeCorrected n k inj else s1

/-- An uncorrectable word raises its source, with the store kind as SUB (R485). -/
def State.storeRaise (s : State) (src n point k : Nat) (w : Option (BitVec 4)) (injected : Bool) : State :=
  s.raise ⟨src, w, n, point, k, 0xFFFF, injected⟩

end Sys2Proof.Machine
end

