-- ==== Sys2Proof/Machine/Control.lean ====
section
/-! DEFINITION. The control plane: sending, router inputs and outputs, sockets, combining, releases and interrupts
(R43 to R46, R196 to R238). Messages move hop by hop: an output hands a message to the wire of the next input, whose
flits arrive one by one. -/

namespace Sys2Proof.Machine

/-! ## Endpoints and channels -/

/-- The local number is not in the table of R196. -/
def reservedNumber (u : Nat) : Bool :=
  !(decide (u < 0x78) || (decide (0x80 ≤ u) && decide (u < 0x92)) || (decide (0x98 ≤ u) && decide (u < 0x9C)) ||
    u == 0xC0 || u == 0xC1 || (decide (0x100 ≤ u) && decide (u < 0x178)))

/-- The die is enumerated: this one, or a bit of DIE_MAP (R321, R331). -/
def State.dieKnown (s : State) (d : Nat) : Bool := d == s.dieBits || (s.obj Obj.dieMap).getLsbD d

/-- A destination the sender can place nowhere (R216). -/
def State.unplaceable (s : State) (ep : BitVec 16) : Bool :=
  let u := ep.toNat % 1024
  let d := ep.toNat / 1024
  reservedNumber u || !s.dieKnown d || (d == s.dieBits && (s.cfg.endpointJunction u).isNone)

/-- Whether a channel entry covers the destination and socket (R219, R236). -/
def chanCovers (v : Val) (dest : BitVec 16) (sock : Nat) : Bool :=
  fget v 31 1 == 1 && fget v 0 16 == dest.toNat && (fget v 30 1 == 1 || fget v 16 5 == sock)

/-- The core port at `n` holds a channel to the destination (R219). -/
def State.portHasChannel (s : State) (n : Nat) (dest : BitVec 16) (sock : Nat) : Bool :=
  (List.range 64).any (fun i => chanCovers (s.obj (Obj.portChan n i)) dest sock)

/-- A request to a service endpoint, which needs no channel (R219, R229). -/
def serviceRequest (dest : BitVec 16) (kind : BitVec 2) : Bool :=
  kind == 0 && (dest.toNat % 1024 == 0xC0 || dest.toNat % 1024 == 0xC1)

/-- A channel of ward `w` in the table whose entry 0 is object `k` (R236). -/
def State.unitHasChannel (s : State) (k : Nat) (w : BitVec 4) (dest : BitVec 16) (sock : Nat) : Bool :=
  (List.range 64).any (fun i => chanCovers (s.obj (k + i)) dest sock && fget (s.obj (k + i)) 21 4 == w.toNat)

/-! ## NAK queues and router inputs -/

def Fld.nakLost (n : Nat) : Fld := ⟨Obj.portStatus n, 16, 16⟩

/-- A NAK joins the queue of the core port at `n`, or is discarded and counted (R45). -/
def State.queueNak (s : State) (n : Nat) (m : CtlMsg) : State :=
  let q := Tbl.get [] s.ctl.naks n
  if q.length < 32 then { s with ctl := { s.ctl with naks := Tbl.set [] s.ctl.naks n (q ++ [m]) } }
  else s.bump (.nakLost n) 1

/-- A unit at junction `n` refuses a message: one NAK starts at input `i` of its router, and is counted (R215, R534). -/
def State.refuse (s : State) (n i : Nat) (m : CtlMsg) (reason : BitVec 4) : State :=
  (s.ctlNak n i m reason).countEv 0x31 n (some m.ward) 1

/-! ## CONTROL_SEND (R43, R44, R216, R410) -/

/-- The reason for which the core port at `n` refuses to inject a message itself (R216, R410). -/
def State.sendRefusal (s : State) (n : Nat) (dest : BitVec 16) (sock : BitVec 5) (kind : BitVec 2) : Option (BitVec 4) :=
  if s.portClosed n then some Nak.ward
  else if kind = 3 then some Nak.malformed
  else if s.unplaceable dest then some Nak.noEndpoint
  else if (kind = 0 ∨ kind = 1) ∧ !serviceRequest dest kind ∧ !s.portHasChannel n dest sock.toNat then some Nak.noChannel
  else none

/-- CONTROL_SEND: a complete message is taken from CS_, stamped and injected, or answered with a local NAK. At a gated
junction the offered VALID wakes the region instead (R50). -/
def Control.send (n : Nat) (dest : BitVec 16) (sock : BitVec 5) (kind : BitVec 2) (tag : BitVec 8)
    (words : List (BitVec 32)) (s : State) : State :=
  if s.cfg.sockets n = 0 ∨ !s.running ∨ !s.adapterLive n .a then s
  else if s.regionStateOf (s.regionOf n) = 4 then s.wakeAt n
  else if !s.moves n ∨ !s.inputRoom (8 * n + 4) then s
  else
    let ward := (s.wardOf n).getD 0
    let rank := BitVec.ofNat 8 (s.obj (Obj.portRank n)).toNat
    let m : CtlMsg := ⟨false, ward, kind, 0, rank, tag, sock, s.ep n, dest, 0, words⟩
    match s.sendRefusal n dest sock kind with
    | some r => ((s.queueNak n { m with nak := true, reason := r }).countEv 0x31 n (s.wardOf n) 1).touch n
    | none => (s.ctlSend n 4 m.sealed).touch n

def execControlSend (n : Nat) (dest : BitVec 16) (sock : BitVec 5) (kind : BitVec 2) (tag : BitVec 8)
    (words : List (BitVec 32)) (s : State) : Host.Outcome State Fault Refusal :=
  .next (Control.send n dest sock kind tag words s)

/-! ## CONTROL_FLIT_ARRIVE (R200, R204) -/

/-- The words in the data flits of a message, and zeros for the flits it lost. -/
def asmWords (n : Nat) (data : List (BitVec 72)) : List (BitVec 32) :=
  ((data.flatMap (fun (f : BitVec 72) => [f.extractLsb' 0 32, f.extractLsb' 32 32])) ++ List.replicate n 0).take n

/-- The message whose head is `h` and whose data flits are `data` (R201, R202). -/
def asmMessage (h : BitVec 72) (data : List (BitVec 72)) : CtlMsg :=
  ⟨false, h.extractLsb' 66 4, h.extractLsb' 64 2, h.extractLsb' 56 8, h.extractLsb' 48 8, h.extractLsb' 40 8,
    h.extractLsb' 32 5, h.extractLsb' 16 16, h.extractLsb' 0 16, 0,
    asmWords ((h.extractLsb' 37 3).toNat + 1) data⟩

/-- The NAK a flit holds (R202). -/
def nakMessage (f : BitVec 72) : CtlMsg :=
  ⟨true, f.extractLsb' 66 4, 0, 0, 0, f.extractLsb' 32 8, 0, f.extractLsb' 0 16, f.extractLsb' 16 16,
    f.extractLsb' 40 4, []⟩

/-- A complete message stands in the buffer of input `k`. -/
def State.bufferMsg (s : State) (k : Nat) (m : CtlMsg) : State :=
  { s with ctl := { s.ctl with buf := Tbl.upd [] s.ctl.buf k (· ++ [m]), asm := Tbl.set [] s.ctl.asm k [] } }

def State.setSkip (s : State) (k : Nat) (on : Bool) : State :=
  { s with ctl := { s.ctl with skipping :=
      if on then (if s.ctl.skipping.contains k then s.ctl.skipping else s.ctl.skipping ++ [k]) else s.ctl.skipping.erase k } }

/-- An input takes a correct flit: it starts, continues or completes a message, or is discarded while skipping. -/
def State.takeCtlFlit (s : State) (k : Nat) (f : BitVec 72) : State :=
  let ty := f.extractLsb' 70 2
  let open_ := Tbl.get [] s.ctl.asm k
  if ty = 3 then ((s.setSkip k false).bufferMsg k (nakMessage f))
  else if ty = 2 then
    let s1 := s.setSkip k false
    { s1 with ctl := { s1.ctl with asm := Tbl.set [] s1.ctl.asm k [f] } }
  else if s.ctl.skipping.contains k then s
  else match open_ with
    | [] => s
    | h :: data =>
      if ty = 1 then s.bufferMsg k (asmMessage h (data ++ [f]))
      else { s with ctl := { s.ctl with asm := Tbl.set [] s.ctl.asm k (open_ ++ [f]) } }

/-- An input discards an uncorrectable flit (R204): the message in progress is completed with zero data, or a lost head
is counted. -/
def State.loseCtlFlit (s : State) (n i : Nat) (injected : Bool) : State :=
  let k := 8 * n + i
  let s1 := s.raise { Cause.atUnit 0x04E none n (min i 6) 0x3F 0xFFFF with injected := injected }
  let s2 := s1.setSkip k true
  match Tbl.get [] s.ctl.asm k with
  | h :: data => s2.bufferMsg k (asmMessage h data)
  | [] => if s.ctl.skipping.contains k then s2 else s2.countEv 0x35 n none 1

/-- CONTROL_FLIT_ARRIVE: the oldest flit on the wire of input `i` arrives, with the wire bits `flips` inverted. -/
def Control.flitArrive (n i : Nat) (flips : List Nat) (s : State) : State :=
  let k := 8 * n + i
  match Tbl.get [] s.ctl.wire k with
  | [] => s
  | w :: rest =>
    if s.regionStateOf (s.regionOf n) = 4 then s.wakeAt n
    else if !s.moves n then s
    else
      let inj := s.injectedAt 0x04 n (min i 6) 0x3F
      let d := Hamming.decode 72 7 (flips ++ (if inj then Hamming.injected 72 7 (s.rd .injAll == 1) else []))
      let s1 := { s with ctl := { s.ctl with wire := Tbl.set [] s.ctl.wire k rest } }
      let s2 := (if inj then s1.injectFired else s1).touch n
      (if d.bad then s2.loseCtlFlit n i inj
       else s2.takeCtlFlit k (flipBits (w.extractLsb' 0 72) d.wrong)).ctlRefill k

def execControlFlitArrive (n : Nat) (i : Nat) (flips : List Nat) (s : State) : Host.Outcome State Fault Refusal :=
  .next (Control.flitArrive n i flips s)

/-! ## CONTROL_MESSAGE_FORWARD (R205, R206, R232) -/

/-- The bridge of this die that faces direction `d`. -/
def Integration.bridgeTo (c : Integration) (d : Nat) : Option Nat :=
  (List.range 4).find? (fun b => (c.unitAt 4 b).isSome && c.bridgeFacing.getD b 4 == d)

/-- The bridge towards another die: first along this die's column of the die mesh, to the destination's row, then along that row
(R205; DEDUCED, log 137). Die numbers are row × 8 + column (R26). -/
def State.bridgeTowards (s : State) (die : Nat) : Option Nat :=
  let me := s.dieBits
  if me / 8 < die / 8 then s.cfg.bridgeTo 2
  else if die / 8 < me / 8 then s.cfg.bridgeTo 0
  else if me % 8 < die % 8 then s.cfg.bridgeTo 1
  else s.cfg.bridgeTo 3

/-- Where a message or NAK goes: its destination endpoint, or for a NAK the refused message's source (R202). -/
def CtlMsg.target (m : CtlMsg) : BitVec 16 := if m.nak then m.src else m.dest

/-- The output of router `n` a message is bound for: a mesh port, or a port with its local arrival queue. -/
inductive CtlRoute where
  | mesh (port : Nat)
  /-- Output 4 to 7, and the number under which the message arrives. -/
  | here (out : Nat) (num : Nat)
  /-- Nothing is there: a NAK to a unit that does not exist is discarded (R217). -/
  | nowhere
  deriving DecidableEq, Repr

/-- The route at `n` to the junction `j` and, there, to local number `num` by output `out`. -/
def Integration.ctlRoute (c : Integration) (n j out num : Nat) : CtlRoute :=
  match c.routePort n j with
  | some p => .mesh p
  | none => .here out num

def State.ctlRouteOf (s : State) (n : Nat) (m : CtlMsg) : CtlRoute :=
  let ep := m.target
  let u := ep.toNat % 1024
  let d := ep.toNat / 1024
  if d ≠ s.dieBits then
    match s.bridgeTowards d with
    | some b => match s.cfg.unitAt 4 b with
      | some j => s.cfg.ctlRoute n j 5 (0xB0 + b)
      | none => .nowhere
    | none => .nowhere
  else match s.cfg.endpointJunction u with
    | none => .nowhere
    | some j => if 0x100 ≤ u then s.cfg.ctlRoute n j 7 (if m.kind = 3 then u + 0x100 else u)
        else s.cfg.ctlRoute n j (unitInput u) u

/-- Whether the message leaves router `n` by output `o`. One bound nowhere is taken out at output 7. -/
def State.leavesBy (s : State) (n o : Nat) (m : CtlMsg) : Bool :=
  match s.ctlRouteOf n m with
  | .mesh p => p == o
  | .here out _ => out == o
  | .nowhere => o == 7

/-- The next input an output serves, round-robin from the one after `last`, and its first message bound there. -/
def State.ctlPick (s : State) (n o : Nat) : Option (Nat × CtlMsg) :=
  let last := Tbl.get 0 s.ctl.served (8 * n + o)
  (List.range 8).findSome? (fun j =>
    let i := (last + j) % 8
    ((Tbl.get [] s.ctl.buf (8 * n + i)).find? (s.leavesBy n o)).map (fun m => (i, m)))

/-- The message leaves the buffer of input `i`, and the output's turn moves on. -/
def State.ctlTake (s : State) (n o i : Nat) (m : CtlMsg) : State :=
  ({ s with ctl := { s.ctl with
    buf := Tbl.upd [] s.ctl.buf (8 * n + i) (·.erase m)
    served := Tbl.set 0 s.ctl.served (8 * n + o) (i + 1) } } : State).ctlRefill (8 * n + i)

/-- The units that take NAKs: core ports, DMA engines and the epoch sequencer, which sends as the tile (R217, R295, log 136). -/
def takesNaks (num : Nat) : Bool := decide (num < 0x78) || (decide (0x98 ≤ num) && decide (num < 0x9C)) || num == 0xC1

/-- A message reaches local number `num`. A NAK bound for any unit that does not take one is discarded there (R217). -/
def State.ctlArrive (s : State) (num : Nat) (m : CtlMsg) : State :=
  if m.nak && !takesNaks num then s
  else { s with ctl := { s.ctl with arrived := Tbl.upd [] s.ctl.arrived num (· ++ [m]) } }

/-- A message that came from a combiner: a release (R226, R227). -/
def CtlMsg.isRelease (m : CtlMsg) : Bool :=
  !m.nak && m.kind == 0 && decide (0x100 ≤ m.src.toNat % 1024) && decide (m.src.toNat % 1024 < 0x178)

/-- A reply of a service endpoint (R229). -/
def CtlMsg.isReply (m : CtlMsg) : Bool :=
  !m.nak && m.kind == 0 && (m.src.toNat % 1024 == 0xC0 || m.src.toNat % 1024 == 0xC1)

/-- What cannot go on is dropped without a NAK where it is a NAK, a release or a reply, and refused otherwise (R217, R227, R229,
R232). -/
def State.ctlTurnBack (s : State) (n i : Nat) (m : CtlMsg) (reason : BitVec 4) : State :=
  if m.nak || m.isRelease || m.isReply then s else s.refuse n i m reason

/-- What output `o` of router `n` does with the message it serves (R206, R232, R323). -/
def State.ctlPass (s : State) (n o i : Nat) (m : CtlMsg) : State :=
  match s.ctlRouteOf n m with
  | .nowhere => (s.ctlTake n o i m).ctlTurnBack n 7 m Nak.noEndpoint
  | .here _ num =>
    let s1 := (s.ctlTake n o i m).touch n
    if 0xB0 ≤ num ∧ num < 0xB4 then
      if !s.groupCarries (num - 0xB0) 3 then s1.ctlTurnBack n 5 m Nak.noEndpoint
      else if s.groupRoom (num - 0xB0) 3 then
        m.flits.foldl (fun (a : State) f => a.bridgeRecord (num - 0xB0) 3 ([1] ++ leBytes 9 f.toNat)) s1
      else s
    else s1.ctlArrive num m
  | .mesh p => match s.cfg.neighbour n p with
    | none => s
    | some n' =>
      if s.junctionLost n' then (s.ctlTake n o i m).ctlTurnBack n 7 m Nak.notReady
      else if !s.junctionActive n' then s.wakeAt n'
      else if s.inputRoom (8 * n' + facing p) then
        ((s.ctlTake n o i m).ctlSend n' (facing p) m).touch n
      else s

/-- The records that the control group of bridge `b` has brought go on: flits to the router's input while it has room for a
whole message, time records to the dies' time exchange (R206, R312, R324). -/
def State.landCtlFrom (s : State) (b n : Nat) : Nat → State
  | 0 => s
  | k + 1 =>
    match (s.bgroup b 3).recs with
    | [] => s
    | r :: rest =>
      if r.headD 0 = 1 then
        let f := BitVec.ofNat 72 (leAt r 1 9)
        if f.getLsbD 71 ∧ !s.inputRoom (8 * n + 5) then s
        else
          (({ s with ctl := { s.ctl with wire := Tbl.upd [] s.ctl.wire (8 * n + 5) (· ++ [ctlEncode f]) } } : State).bridgeFree b 3 rest).landCtlFrom b n k
      else (s.bridgeFree b 3 rest).landCtlFrom b n k

def State.landCtl (s : State) (b : Nat) : State :=
  match s.cfg.unitAt 4 b with
  | some n => if s.frozen then s else (s.landCtlFrom b n ((s.bgroup b 3).recs.length)).bridgeTell b 3
  | none => s

/-- Output `o` of the control router of `n` grants its next whole message. -/
def Control.forward (n o : Nat) (s : State) : State :=
  if !s.moves n then s
  else match s.ctlPick n o with
    | some (i, m) =>
      let s1 := s.ctlPass n o i m
      if i = 5 ∧ s.cfg.bKind n = 4 then s1.landCtl (s.cfg.bIndex n) else s1
    | none => s

/-! ## Sockets (R210 to R214) -/

def Fld.drops (n k : Nat) : Fld := ⟨Obj.sockStat n k, 48, 16⟩
def Fld.highMsgs (n k : Nat) : Fld := ⟨Obj.sockStat n k, 40, 8⟩

/-- SOCK_CFG of socket `k` of junction `n`: zero beyond SOCKETS (R234). -/
def State.sockCfg (s : State) (n k : Nat) : Val := if k < s.cfg.sockets n then s.obj (Obj.sockCfg n k) else 0

def sockKind (v : Val) : Nat := fget v 62 2
def sockBase (v : Val) : Nat := fget v 50 12
def sockSize (v : Val) : Nat := fget v 37 13
def sockDepth (v : Val) : Nat := fget v 29 8
def sockFmt (v : Val) : Nat := fget v 27 2
def sockLanes (v : Val) : Nat := fget v 24 3
def sockExpect (v : Val) : Nat := fget v 8 16

/-- The key of socket `k` of junction `n`. -/
def sockKey (n k : Nat) : Nat := 32 * n + k

def State.sock (s : State) (n k : Nat) : Sock := Tbl.get Sock.zero s.ctl.socks (sockKey n k)

def State.setSock (s : State) (n k : Nat) (x : Sock) : State :=
  { s with ctl := { s.ctl with socks := Tbl.set Sock.zero s.ctl.socks (sockKey n k) x } }

def RingItem.start : RingItem → Nat
  | .msg a _ _ _ => a
  | .skip a _ => a

/-- The offset after an item: a message has one header word (R210). -/
def RingItem.stop : RingItem → Nat
  | .msg a _ ws _ => a + ws.length + 1
  | .skip a l => a + l

def RingItem.isMsg : RingItem → Bool
  | .msg .. => true
  | .skip .. => false

/-- MSGS and WORDS of SOCK_STAT (R235). -/
def Sock.msgs (x : Sock) : Nat := (x.ring.filter RingItem.isMsg).length

def Sock.words (x : Sock) : Nat := (x.ring.map (fun r => r.stop - r.start)).sum

/-- The ring with a message of `m` words (header included) placed under the no-wrap rule, or `none` for NO_SPACE (R212). -/
def ringPlace (size : Nat) (ring : List RingItem) (src : BitVec 16) (ws : List (BitVec 32)) : Option (List RingItem) :=
  let m := ws.length + 1
  match ring.head?, ring.getLast? with
  | some first, some last =>
    let wp := last.stop
    if first.start < wp ∧ first.start ≤ last.start then
      let t := size - wp
      if m ≤ t then some (ring ++ [.msg wp src ws 0])
      else if m ≤ first.start then
        some (ring ++ (if t = 0 then [] else [.skip wp t]) ++ [.msg 0 src ws 0])
      else none
    else if m ≤ first.start - wp then some (ring ++ [.msg wp src ws 0])
    else none
  | _, _ => if m ≤ size then some [.msg 0 src ws 0] else none

/-- Why a NORMAL or COMBINE socket cannot store a message, or the ring with it stored (R211, R212). -/
def Sock.store (cfg : Val) (x : Sock) (src : BitVec 16) (ws : List (BitVec 32)) : Except (BitVec 4) Sock :=
  if sockDepth cfg ≤ x.msgs then .error Nak.queueFull
  else match ringPlace (sockSize cfg) x.ring src ws with
    | some r => .ok { x with ring := r }
    | none => .error Nak.noSpace

/-- The ring once the reader has passed its skip records: their words are freed (R212). -/
def ringSkip : List RingItem → List RingItem
  | .skip _ _ :: t => t
  | r => r

/-- The socket holds more messages than ever since HIGH_MSGS was cleared (R235). -/
def State.noteHigh (s : State) (n k : Nat) : State :=
  let m := (s.sock n k).msgs
  if s.rd (.highMsgs n k) < m then s.wr (.highMsgs n k) m else s

/-- A drop at a socket is counted in its DROPS (R217). -/
def State.dropAt (s : State) (n k : Nat) : State := s.bump (.drops n k) 1

/-- A held result is stored as soon as it fits (R225). -/
def State.retryHeld (s : State) (n k : Nat) : State :=
  let x := s.sock n k
  match x.held with
  | none => s
  | some ws => match x.store (s.sockCfg n k) (s.ep n) ws with
    | .ok x' => ((s.setSock n k { x' with held := none }).countEv 0x30 n (s.wardOf n) 1).noteHigh n k
    | .error _ => s

/-- The message that holds an uncorrectable word leaves the socket without being presented (R485). -/
def State.socketDamaged (s : State) (n k : Nat) (rest : List RingItem) (injected : Bool) : State :=
  ((((s.setSock n k { s.sock n k with ring := ringSkip rest }).dropAt n k).storeRaise 0x053 n 6 2 (s.wardOf n) injected).retryHeld n k).touch n

/-- SOCKET_POP: the function unit takes the next word of socket `k` (R46, R213, R225). The socket store's code is checked as the
word is read (R483). -/
def Control.pop (n k : Nat) (s : State) : State :=
  if !s.running ∨ !s.adapterLive n .a ∨ s.cfg.sockets n ≤ k ∨ !s.junctionActive n then s
  else
    let x := s.sock n k
    match x.ring with
    | .msg a src ws popped :: rest =>
      match s.offer (1000 + sockKey n k) with
      | none => s
      | some s0 =>
        let s1 := s0.storeRead n 2 32 6 []
        if (s.storeDecode n 2 32 6 []).bad then
          (s1.socketDamaged n k rest (s.storeInjected n 2)).rowBad n 2 (.socket n (sockBase (s.sockCfg n k) + a + 1 + popped))
        else
        let last := popped + 1 = ws.length
        let x' := if last then { x with ring := ringSkip rest } else { x with ring := .msg a src ws (popped + 1) :: rest }
        (((s1.setSock n k x').emit (.sk n k (ws.getD popped 0) (popped == 0) last src)).retryHeld n k).touch n
    | _ => s

def execSocketPop (n : Nat) (sock : Nat) (s : State) : Host.Outcome State Fault Refusal := .next (Control.pop n sock s)

/-! ## Destinations (R216, R222) -/

/-- The oldest arrival at a local number. -/
def State.arrivedAt (s : State) (num : Nat) : Option CtlMsg := (Tbl.get [] s.ctl.arrived num).head?

def State.arrivedDone (s : State) (num : Nat) : State :=
  { s with ctl := { s.ctl with arrived := Tbl.upd [] s.ctl.arrived num List.tail } }

/-- OUTER fails at the destination: it does not match, or an injection makes the check fail (R203, R498). -/
def State.outerFails (s : State) (n point : Nat) (m : CtlMsg) : Bool :=
  s.injectedAt 0x05 n point 0x3F || m.outer != crc8 m.covered

/-- The state after the OUTER check: an injection at it has fired. -/
def State.afterOuter (s : State) (n point : Nat) : State :=
  if s.injectedAt 0x05 n point 0x3F then s.injectFired else s

/-- A refusal for the ward, counted in WARD_REFUSALS of the target's die (R415). -/
def State.wardRefusal (s : State) : State := s.bump ⟨Obj.wardRefusals, 0, 32⟩ 1

/-- The endpoint belongs to the ward: a core port or combiner by its junction, a host port by its mask (R222). -/
def State.endpointWard (s : State) (u : Nat) (n : Nat) (w : BitVec 4) : Bool :=
  if u = 0x90 ∨ u = 0x91 then (s.obj (Obj.hostWardMask (u - 0x90))).getLsbD w.toNat
  else s.wardOf n == some w

/-- The endpoint is not ready: its adapter or region is in reset, or its ward is being reclaimed (R215). -/
def State.endpointUnready (s : State) (u n : Nat) (w : BitVec 4) : Bool :=
  s.junctionLost n || s.wardReclaiming w ||
  (if u < 0x78 then s.adapterHeld n .a else if u = 0x90 ∨ u = 0x91 then s.adapterHeld n .b else false)

/-- The first cause for which the core port at `n` refuses a message of KIND 0b00 or an increment, ahead of the checks
of its socket (R216). -/
def State.portRefusal (s : State) (n : Nat) (m : CtlMsg) : Option (BitVec 4) :=
  let v := s.sockCfg n m.sock.toNat
  if s.outerFails n 4 m then some Nak.corrupt
  else if sockKind v = 0 then some Nak.noSocket
  else if !s.endpointWard n n m.ward then some Nak.ward
  else if s.endpointUnready n n m.ward then some Nak.notReady
  else if m.kind = 0 ∧ sockKind v ≠ 1 then some Nak.wrongKind
  else if m.kind = 2 ∨ m.kind = 3 then some Nak.wrongKind
  else if m.kind = 1 ∧ sockKind v ≠ 2 then some Nak.wrongKind
  else none

/-- A refusal at the core port of `n`: counted as a drop of the socket it names, where the port has it, and answered with a NAK
unless the message is a reply (R217, R229). -/
def State.portRefuse (s : State) (n : Nat) (m : CtlMsg) (r : BitVec 4) : State :=
  let s1 := if r = Nak.ward then s.wardRefusal else s
  let s2 := if m.sock.toNat < s.cfg.sockets n then s1.dropAt n m.sock.toNat else s1
  if m.isReply then s2 else s2.refuse n 4 m r

/-- A message of KIND 0b00 is stored in its NORMAL socket, or refused (R211, R212). -/
def State.portStore (s : State) (n : Nat) (m : CtlMsg) : State :=
  let k := m.sock.toNat
  match (s.sock n k).store (s.sockCfg n k) m.src m.words with
  | .ok x => ((s.setSock n k x).countEv 0x30 n (some m.ward) 1).noteHigh n k
  | .error r => s.portRefuse n m r

/-- A core port takes a message that is no contribution: stores it or refuses it. -/
def State.portDeliver (s : State) (n : Nat) (m : CtlMsg) : State :=
  let s1 := (s.arrivedDone n).afterOuter n 4
  match s.portRefusal n m with
  | some r => s1.portRefuse n m r
  | none => s1.portStore n m

/-- The reason for which a unit other than a core port refuses a message whose KIND does not suit it (R216). Gates and
engines hold counters, combiners their enable; hosts take messages. -/
def State.unitRefusal (s : State) (u n : Nat) (m : CtlMsg) : BitVec 4 :=
  if s.outerFails n 6 m then Nak.corrupt
  else if m.kind = 2 then Nak.noCounter
  else if 0x100 ≤ u ∧ s.rd ⟨Obj.combCfg (u - 0x100), 31, 1⟩ = 0 then Nak.noSocket
  else if (0x100 ≤ u ∨ u = 0x90 ∨ u = 0x91) ∧ !s.endpointWard u n m.ward then Nak.ward
  else if s.endpointUnready u n m.ward then Nak.notReady
  else Nak.wrongKind

/-- The KIND that suits a local endpoint other than a core port. -/
def kindSuits (u : Nat) (kind : BitVec 2) : Bool :=
  if 0x100 ≤ u then kind == 1
  else if u = 0x90 ∨ u = 0x91 ∨ u = 0xC0 ∨ u = 0xC1 then kind == 0
  else kind == 2

/-- CONTROL_MESSAGE_DELIVER: the oldest message at endpoint `u` of this die is stored, or refused with the first cause
found. Contributions, increments, interrupts, requests and releases that suit their endpoint have steps of their own. -/
def Control.deliver (u : Nat) (s : State) : State :=
  match s.arrivedAt u, s.cfg.endpointJunction u with
  | some m, some n =>
    if !s.moves n ∨ m.nak ∨ 0x200 ≤ u then s
    else if u < 0x78 then
      if m.kind = 1 ∨ m.isRelease then s else (s.portDeliver n m).touch n
    else if kindSuits u m.kind then s
    else
      let r := s.unitRefusal u n m
      let s1 := ((s.arrivedDone u).afterOuter n 6).touch n
      (if r = Nak.ward then s1.wardRefusal else s1).refuse n (unitInput u) m r
  | _, _ => s

def execControlMessageDeliver (ep : Nat) (s : State) : Host.Outcome State Fault Refusal := .next (Control.deliver ep s)

/-- NAK_DELIVER: a NAK reaches the core port at `n` and is queued for CN_, or discarded and counted (R45, R217). -/
def Control.nakDeliver (n : Nat) (s : State) : State :=
  match s.arrivedAt n with
  | some m =>
    if !m.nak ∨ !s.moves n then s
    else if s.adapterHeld n .a then s.arrivedDone n
    else ((s.arrivedDone n).queueNak n m).touch n
  | none => s

def execNakDeliver (n : Nat) (s : State) : Host.Outcome State Fault Refusal := .next (Control.nakDeliver n s)

/-- CN_HANDSHAKE: the core takes the oldest queued NAK (R45, R217). -/
def Control.cnHandshake (n : Nat) (s : State) : State :=
  match Tbl.get [] s.ctl.naks n with
  | m :: rest =>
    if !s.running ∨ !s.adapterLive n .a ∨ !s.junctionActive n then s
    else match s.offer (200 + n) with
      | none => s
      | some s1 =>
        let s2 := { s1 with ctl := { s1.ctl with naks := Tbl.set [] s1.ctl.naks n rest } }
        (s2.emit (.cn n m.tag m.dest m.reason)).touch n
  | [] => s

def execCnHandshake (n : Nat) (s : State) : Host.Outcome State Fault Refusal := .next (Control.cnHandshake n s)

/-! ## Combining (R223 to R227) -/

/-- The start value of a lane: 0, or the word of −0 for FP32 (R224). A lane is held as an exact sum, or as an FP32 word. -/
def laneStart (fmt : Nat) : Int := if fmt = 1 then 0x80000000 else 0

/-- One lane's add, and whether a NaN or infinity came (R224). An FP32 lane that holds a special value keeps it, but for
a NaN or infinity in a contribution, which makes it the canonical NaN. -/
def laneAdd (fmt : Nat) (a : Int) (x : BitVec 32) : Int × Bool :=
  if fmt = 0 then (a + x.toInt, false)
  else if fmt = 1 then
    let w := BitVec.ofInt 32 a
    if f32Special x then (0x7FC00000, true)
    else if f32Special w then (a, false)
    else ((f32Add w x).toNat, false)
  else (a + x.toNat, false)

/-- What a lane delivers: the sum saturated to its format's bounds, or the FP32 word (R224). -/
def laneResult (fmt : Nat) (a : Int) : BitVec 32 :=
  if fmt = 0 then BitVec.ofInt 32 (max (-2147483648) (min 2147483647 a))
  else if fmt = 1 then BitVec.ofInt 32 a
  else BitVec.ofInt 32 (min 4294967295 a)

/-- An INT32 lane lies outside its bounds: the round is SATURATED (R224). -/
def laneOver (fmt : Nat) (a : Int) : Bool := fmt == 0 && (decide (a < -2147483648) || decide (2147483647 < a))

/-- The accumulator with one contribution added, lane by lane (R223). -/
def Acc.add (fmt lanes : Nat) (x : Acc) (ws : List (BitVec 32)) : Acc :=
  let cur := if x.count = 0 then List.replicate lanes (laneStart fmt) else x.lanes
  let r := List.zipWith (laneAdd fmt) cur ws
  ⟨r.map (·.1), x.count + 1, x.nan || r.any (·.2)⟩

/-- The words of a round's result: the lanes and the status word (R225). -/
def Acc.result (fmt : Nat) (x : Acc) : List (BitVec 32) :=
  x.lanes.map (laneResult fmt) ++
    [BitVec.ofNat 32 (x.count % 65536 + (if x.lanes.any (laneOver fmt) then 65536 else 0) + (if x.nan then 131072 else 0))]

/-- A COMBINE socket takes a contribution; EXPECT of them complete a round, whose result is stored or held (R225). -/
def State.sockCombine (s : State) (n k : Nat) (ws : List (BitVec 32)) : State :=
  let v := s.sockCfg n k
  let x := s.sock n k
  let acc := x.acc.add (sockFmt v) (sockLanes v) ws
  if acc.count < sockExpect v then s.setSock n k { x with acc := acc }
  else
    let s1 := s.setSock n k { x with acc := Acc.zero, held := some (acc.result (sockFmt v)) }
    (s1.countEv 0x33 n (s.wardOf n) 1).retryHeld n k

def State.comb (s : State) (n : Nat) : Combiner := Tbl.get Combiner.zero s.ctl.combs n

def State.setComb (s : State) (n : Nat) (x : Combiner) : State :=
  { s with ctl := { s.ctl with combs := Tbl.set Combiner.zero s.ctl.combs n x } }

def Fld.combCombined (n : Nat) : Fld := ⟨Obj.combStat n, 0, 16⟩
def Fld.combRounds (n : Nat) : Fld := ⟨Obj.combStat n, 16, 8⟩
def Fld.combDiscarded (n : Nat) : Fld := ⟨Obj.combStat n, 24, 8⟩

/-- The junctions RELEASE_MAP of combiner `n` names, ascending (R226). -/
def State.releaseMap (s : State) (n : Nat) : List Nat :=
  (List.range s.cfg.njs).filter (fun j => bitOf (s.dom (Obj.releaseMap n) 16) j)

/-- A combiner takes a contribution; EXPECT of them complete a round, whose result it sends as releases (R226). -/
def State.combCombine (s : State) (n : Nat) (ws : List (BitVec 32)) : State :=
  let v := s.obj (Obj.combCfg n)
  let x := s.comb n
  let acc := x.acc.add (fget v 27 2) (fget v 24 3) ws
  if acc.count < fget v 0 16 then (s.setComb n { x with acc := acc }).wr (.combCombined n) acc.count
  else
    let rel := (s.releaseMap n).map (fun j => (j, acc.result (fget v 27 2)))
    (((s.setComb n ⟨Acc.zero, x.releases ++ rel⟩).wr (.combCombined n) 0).bumpWrap (.combRounds n) 1).countEv 0x33 n (s.wardOf n) 1

/-- The first cause for which a combining socket or combiner refuses a contribution (R216, R223, R225). -/
def State.contribRefusal (s : State) (u n : Nat) (m : CtlMsg) : Option (BitVec 4) :=
  if u < 0x78 then
    match s.portRefusal n m with
    | some r => some r
    | none =>
      if m.words.length ≠ sockLanes (s.sockCfg n m.sock.toNat) then some Nak.malformed
      else if (s.sock n m.sock.toNat).held.isSome then some Nak.combineBusy
      else none
  else
    let v := s.obj (Obj.combCfg n)
    if s.outerFails n 6 m then some Nak.corrupt
    else if fget v 31 1 = 0 then some Nak.noSocket
    else if !s.endpointWard u n m.ward then some Nak.ward
    else if s.endpointUnready u n m.ward then some Nak.notReady
    else if m.words.length ≠ fget v 24 3 then some Nak.malformed
    else none

/-- COMBINE_CONTRIBUTION: the oldest contribution at endpoint `u` is added or refused. -/
def Control.combine (u : Nat) (s : State) : State :=
  match s.arrivedAt u, s.cfg.endpointJunction u with
  | some m, some n =>
    if !s.moves n ∨ m.nak ∨ m.kind ≠ 1 ∨ (0x78 ≤ u ∧ u < 0x100) then s
    else
      let s1 := ((s.arrivedDone u).afterOuter n (if u < 0x78 then 4 else 6)).touch n
      match s.contribRefusal u n m with
      | some r => if u < 0x78 then s1.portRefuse n m r
          else (if r = Nak.ward then s1.wardRefusal else s1).refuse n 7 m r
      | none =>
        let s2 := s1.countEv 0x32 n (some m.ward) 1
        if u < 0x78 then s2.sockCombine n m.sock.toNat m.words else s2.combCombine n m.words
  | _, _ => s

def execCombineContribution (ep : Nat) (s : State) : Host.Outcome State Fault Refusal := .next (Control.combine ep s)

/-- Whether a release to junction `j` is discarded (R226). -/
def State.releaseBarred (s : State) (n j : Nat) : Bool :=
  !s.cfg.corePort j || sockKind (s.sockCfg j 31) != 3 || s.adapterHeld j .a || s.junctionLost j || s.portClosed j ||
    s.wardOf j != s.wardOf n

/-- COMBINER_RELEASE_SEND: the combiner of `n` sends its next release, or discards and counts it (R226). -/
def Control.releaseSend (n : Nat) (s : State) : State :=
  let x := s.comb n
  match x.releases with
  | [] => s
  | (j, ws) :: rest =>
    if !s.moves n then s
    else
      let s1 := (s.setComb n { x with releases := rest }).touch n
      if s.releaseBarred n j then s1.bump (.combDiscarded n) 1
      else s1.ctlFrom (0x100 + n) ⟨false, (s.wardOf n).getD 0, 0, 0, 255, 0, 31, 0, s.ep j, 0, ws⟩

def execCombinerReleaseSend (n : Nat) (s : State) : Host.Outcome State Fault Refusal := .next (Control.releaseSend n s)

/-- RELEASE_DELIVER: a release reaches socket 31 of the core port at `n` and replaces any unpopped release (R227). A
release is never refused; where its OUTER fails or the port no longer takes it, it is discarded and counted. -/
def Control.releaseDeliver (n : Nat) (s : State) : State :=
  match s.arrivedAt n with
  | some m =>
    if !m.isRelease ∨ !s.moves n then s
    else
      let s1 := ((s.arrivedDone n).afterOuter n 4).touch n
      if s.outerFails n 4 m ∨ sockKind (s.sockCfg n 31) ≠ 3 ∨ !s.endpointWard n n m.ward ∨ s.endpointUnready n n m.ward then
        s1.dropAt n 31
      else
        let x := s.sock n 31
        let s2 := if x.ring.isEmpty then s1 else s1.dropAt n 31
        (((s2.setSock n 31 { x with ring := [.msg 0 m.src m.words 0] }).countEv 0x30 n (some m.ward) 1).noteHigh n 31)
  | none => s

def execReleaseDeliver (n : Nat) (s : State) : Host.Outcome State Fault Refusal := .next (Control.releaseDeliver n s)

/-! ## Interrupts (R230) -/

/-- A waiting vector of the block's own enters the queue as soon as it has room. -/
def IrqState.refill (q : IrqState) : IrqState :=
  if 64 ≤ q.queue.length then q
  else match q.waiting with
    | (_, some v) :: rest => ⟨q.queue ++ [(v, 0)], rest⟩
    | _ => q

/-- HOST_IRQ_MESSAGE: a message to host port `p` queues its vector, or is refused with the first cause found. -/
def Control.hostIrq (p : Nat) (s : State) : State :=
  let u := 0x90 + p
  match s.arrivedAt u, s.cfg.endpointJunction u with
  | some m, some n =>
    if !s.moves n ∨ m.nak ∨ m.kind ≠ 0 ∨ 2 ≤ p then s
    else
      let s1 := ((s.arrivedDone u).afterOuter n 6).touch n
      let q := Tbl.get IrqState.zero s.ctl.irq p
      if s.outerFails n 6 m then s1.refuse n 5 m Nak.corrupt
      else if !s.endpointWard u n m.ward then s1.wardRefusal.refuse n 5 m Nak.ward
      else if s.endpointUnready u n m.ward then s1.refuse n 5 m Nak.notReady
      else if 64 ≤ q.queue.length then s1.refuse n 5 m Nak.queueFull
      else
        let vec := (m.words.getD 0 0).extractLsb' 0 11
        { s1 with ctl := { s1.ctl with irq := Tbl.set IrqState.zero s1.ctl.irq p { q with queue := q.queue ++ [(vec, m.ward)] } } }
  | _, _ => s

def execHostIrqMessage (p : Nat) (s : State) : Host.Outcome State Fault Refusal := .next (Control.hostIrq p s)

/-- HOST_IRQ_DELIVER: the oldest queued vector leaves on HI_IRQ. -/
def Control.irqDeliver (p : Nat) (s : State) : State :=
  let q := Tbl.get IrqState.zero s.ctl.irq p
  match q.queue, s.cfg.unitAt 3 p with
  | (v, w) :: rest, some n =>
    if !s.running ∨ !s.adapterLive n .b ∨ !s.junctionActive n then s
    else match s.offer (400 + p) with
      | none => s
      | some s1 =>
        let s2 := { s1 with ctl := { s1.ctl with irq := Tbl.set IrqState.zero s1.ctl.irq p ({ q with queue := rest }.refill) } }
        (s2.emit (.hiIrq p v w)).touch n
  | _, _ => s

def execHostIrqDeliver (p : Nat) (s : State) : Host.Outcome State Fault Refusal := .next (Control.irqDeliver p s)

/-! ## Set-up objects (R214, R220, R233 to R237) -/

/-- Whether two rings overlap in the socket store. -/
def ringsMeet (a b : Val) : Bool :=
  decide (sockBase a < sockBase b + sockSize b) && decide (sockBase b < sockBase a + sockSize a)

/-- A socket is in use: it holds a message, a partial combination or a result (R214). -/
def Sock.busy (x : Sock) : Bool := !x.ring.isEmpty || x.acc.count != 0 || x.held.isSome

/-- The ring of socket `k` would overlap that of another socket that is not OFF (R214). -/
def State.ringClash (s : State) (n k : Nat) (v : Val) : Bool :=
  (List.range (s.cfg.sockets n)).any (fun j =>
    j != k && sockKind (s.sockCfg n j) != 0 && ringsMeet v (s.sockCfg n j))

/-- Whether a SOCK_CFG value is out of range (R214, R234). -/
def State.sockCfgBad (s : State) (n k : Nat) (v : Val) : Bool :=
  sockKind v != 0 &&
  (s.ringClash n k v || decide (4096 < sockBase v + sockSize v) || decide (sockSize v < 9) || sockDepth v == 0 ||
    (sockKind v == 3 && k != 31) ||
    (sockKind v == 2 && (sockFmt v == 3 || sockLanes v == 0 || sockExpect v == 0)))

/-- A write of SOCK_CFG (R214). -/
def Control.writeSockCfg (n k : Nat) (v : BitVec 64) : Effect := fun s =>
  if s.cfg.sockets n ≤ k then .error .notPresent
  else if (s.sock n k).busy then .error .inUse
  else
    let v' := v &&& 0xFFFFFFFFFFFFFF00
    if s.sockCfgBad n k v' then .error .outOfRange
    else .ok (s.setObj (Obj.sockCfg n k) v')

/-- A write of SOCK_STAT sets DROPS and HIGH_MSGS to zero (R233). -/
def Control.clearSockStat (n k : Nat) : Effect := fun s =>
  if s.cfg.sockets n ≤ k then .error .notPresent
  else .ok ((s.wr (.drops n k) 0).wr (.highMsgs n k) 0)

/-- A write of COMB_CFG is refused while a round is in progress; ENABLE 1 needs LANES and EXPECT of 1 or more (R237). -/
def Control.writeCombCfg (n : Nat) (v : BitVec 64) : Effect := fun s =>
  if s.rd (.combCombined n) ≠ 0 then .error .inUse
  else if fget v 31 1 = 1 ∧ (fget v 24 3 = 0 ∨ fget v 0 16 = 0 ∨ fget v 27 2 = 3) then .error .outOfRange
  else .ok (s.setObj (Obj.combCfg n) (v &&& 0x9F00FFFF))

/-- RELEASE_MAP is refused while a round is in progress; bits beyond the build are ignored (R233). -/
def Control.writeReleaseMap (n : Nat) (bs : List Byte) : Effect := fun s =>
  if s.rd (.combCombined n) ≠ 0 then .error .inUse
  else .ok (s.setDom (Obj.releaseMap n) (padTo 16 bs))

/-- The rank of an endpoint of this die, `none` for one without a rank (R218). -/
def State.localRank (s : State) (u : Nat) : Option Nat :=
  if u < 0x78 then some (s.obj (Obj.portRank u)).toNat
  else if 0x80 ≤ u ∧ u < 0x90 then some (s.obj (Obj.gateRank (u - 0x80))).toNat
  else if u = 0x90 ∨ u = 0x91 then some (s.obj (Obj.hostRank (u - 0x90))).toNat
  else if 0x98 ≤ u ∧ u < 0x9C then some (s.obj (Obj.dmaRank (u - 0x98))).toNat
  else if 0x100 ≤ u ∧ u < 0x178 then some 255
  else none

/-- The local endpoint whose channel table index `t` holds, and the key of the table's entry 0 (R233). -/
def chanTable (t : Nat) : Option (Nat × Nat) :=
  if 0x1620 ≤ t ∧ t < 0x1630 then some (0x80 + (t - 0x1620), Obj.gateChan (t - 0x1620) 0)
  else if 0x1630 ≤ t ∧ t < 0x1634 then some (0x98 + (t - 0x1630), Obj.dmaChan (t - 0x1630) 0)
  else if 0x1680 ≤ t ∧ t < 0x16F8 then some (t - 0x1680, Obj.portChan (t - 0x1680) 0)
  else none

/-- The ward of a sender's entry: its junction's at a core port, else the entry's own WARD field (R236). -/
def State.entryWard (s : State) (u : Nat) (v : Val) : Option (BitVec 4) :=
  if u < 0x78 then s.wardOf u else some (BitVec.ofNat 4 (fget v 21 4))

/-- The destination of an entry belongs to the ward, where it is on this die (R220, R222). -/
def State.chanWardOk (s : State) (w : Option (BitVec 4)) (d : Nat) : Bool :=
  match w, s.cfg.endpointJunction d with
  | some x, some n => s.endpointWard d n x
  | _, _ => false

/-- The checks on a VALID entry, short of the rank (R220). -/
def State.chanBad (s : State) (u : Nat) (v : Val) : Option Abort :=
  let dest := BitVec.ofNat 16 (fget v 0 16)
  let d := dest.toNat % 1024
  if s.unplaceable dest then some .outOfRange
  else if d = 0xC0 ∨ d = 0xC1 ∨ (0x80 ≤ d ∧ d < 0x90) ∨ (0x98 ≤ d ∧ d < 0x9C) then some .rankOrder
  else if dest.toNat / 1024 = s.dieBits ∧ !s.chanWardOk (s.entryWard u v) d then some .rankOrder
  else none

/-- The entry's value as it is stored: WARD reads zero in a core port's table (R236). -/
def chanMask (u : Nat) (v : Val) : Val := if u < 0x78 then v &&& 0xC01FFFFF else v &&& 0xC1FFFFFF

/-- Whether a write at L1 by ward `asker` names another ward, or a write changes WARD of a valid entry (R236). -/
def State.chanWardClash (s : State) (u key : Nat) (v : Val) (asker : Option (BitVec 4)) : Option Abort :=
  if u < 0x78 then none
  else if asker.isSome ∧ asker ≠ some (BitVec.ofNat 4 (fget v 21 4)) then some .level
  else if fget (s.obj key) 31 1 = 1 ∧ fget (s.obj key) 21 4 ≠ fget v 21 4 then some .inUse
  else none

/-- Firmware asks the destination die of entry `i`, value `v`, of local endpoint `u` for the rank at its end (R220). -/
def State.askRank (s : State) (u i : Nat) (v : Val) : State :=
  s.emit (.rankAsk (s.ep u) i (BitVec.ofNat 16 (fget v 0 16)) ((s.entryWard u v).getD 0) (BitVec.ofNat 8 ((s.localRank u).getD 0)))

/-- The valid entry names an endpoint of another die. -/
def State.crossDie (s : State) (v : Val) : Bool := fget v 31 1 == 1 && fget v 0 16 / 1024 != s.dieBits

/-- A channel entry takes a value; a channel into another die that it held is withdrawn there (R220). -/
def State.setEntry (s : State) (u i key : Nat) (v : Val) : State :=
  let old := s.obj key
  let s1 := s.setObj key v
  if s.crossDie old ∧ (!s.crossDie v ∨ fget v 0 16 / 1024 ≠ fget old 0 16 / 1024) then
    s1.emit (.rankWithdraw (s.ep u) i (BitVec.ofNat 16 (fget old 0 16)))
  else s1

/-- A channel entry is written (R220, R236). An entry to another die waits for that die's answer. -/
def Control.writeChan (t i : Nat) (v : BitVec 32) (acc : Access) (asker : Option (BitVec 4)) : Effect := fun s =>
  match chanTable t with
  | none => .error .noObject
  | some (u, k0) =>
    if (s.cfg.endpointJunction u).isNone then .error .notPresent
    else
      let key := k0 + i
      let v' := chanMask u (BitVec.ofNat 64 v.toNat)
      match s.chanWardClash u key v' asker with
      | some a => .error a
      | none =>
        if fget v' 31 1 = 0 then .ok (s.setEntry u i key v')
        else match s.chanBad u v' with
          | some a => .error a
          | none =>
            let dest := BitVec.ofNat 16 (fget v' 0 16)
            if dest.toNat / 1024 ≠ s.dieBits then
              .ok (({ s with ctl := { s.ctl with
                checks := s.ctl.checks ++ [⟨t, i, BitVec.ofNat 32 v'.toNat, s.now, acc⟩] } } : State).askRank u i v')
            else match s.localRank u, s.localRank (dest.toNat % 1024) with
              | some a, some b => if a < b then .ok (s.setEntry u i key v') else .error .rankOrder
              | _, _ => .error .rankOrder

/-- The pending channel write of an entry, and the state without it. -/
def State.takeCheck (s : State) (t i : Nat) : Option (ChanCheck × State) :=
  (s.ctl.checks.find? (fun c => c.table == t && c.entry == i)).map (fun c =>
    (c, { s with ctl := { s.ctl with checks := s.ctl.checks.erase c } }))

/-- Every valid channel out of local endpoint `u` rises from rank `r` (R220). -/
def State.risesFrom (s : State) (u k0 r : Nat) : Bool :=
  (List.range 64).all (fun i =>
    let v := s.obj (k0 + i)
    let dest := fget v 0 16
    fget v 31 1 == 0 ||
      (match (if dest / 1024 = s.dieBits then s.localRank (dest % 1024)
              else ((Tbl.get none s.ctl.ranks dest).map BitVec.toNat)) with
        | some b => decide (r < (if dest / 1024 = s.dieBits ∧ dest % 1024 = u then r else b))
        | none => true))

/-- Every valid channel into local endpoint `u` rises to rank `r`, those registered from other dies too (R220). -/
def State.risesTo (s : State) (u r : Nat) : Bool :=
  let tables := (List.range s.cfg.njs).map (fun n => (n, Obj.portChan n 0)) ++
    (List.range 16).map (fun g => (0x80 + g, Obj.gateChan g 0)) ++ (List.range 4).map (fun e => (0x98 + e, Obj.dmaChan e 0))
  tables.all (fun p => (List.range 64).all (fun i =>
    let v := s.obj (p.2 + i)
    fget v 31 1 == 0 || fget v 0 16 != (s.ep u).toNat ||
      (match s.localRank p.1 with
        | some a => decide (a < r)
        | none => true))) && (s.ctl.incoming.all (fun c => c.dest != s.ep u || decide (c.rank.toNat < r)))

/-- The local endpoint whose rank index `t` holds, and the rank's key (R233). -/
def rankTable (t : Nat) : Option (Nat × Nat) :=
  if 0x1620 ≤ t ∧ t < 0x1630 then some (0x80 + (t - 0x1620), Obj.gateRank (t - 0x1620))
  else if 0x1630 ≤ t ∧ t < 0x1634 then some (0x98 + (t - 0x1630), Obj.dmaRank (t - 0x1630))
  else if 0x1634 ≤ t ∧ t < 0x1636 then some (0x90 + (t - 0x1634), Obj.hostRank (t - 0x1634))
  else if 0x1680 ≤ t ∧ t < 0x16F8 then some (t - 0x1680, Obj.portRank (t - 0x1680))
  else none

/-- Firmware tells every other die that a channel of local endpoint `u` enters of its new rank (R220). -/
def State.tellRanks (s : State) (u k0 : Nat) : State :=
  (List.range 64).foldl (fun (a : State) i => if a.crossDie (a.obj (k0 + i)) then a.askRank u i (a.obj (k0 + i)) else a) s

/-- A rank is written (R220): every valid channel into and out of the endpoint must still rise. -/
def Control.writeRank (t : Nat) (v : BitVec 8) : Effect := fun s =>
  match rankTable t with
  | none => .error .noObject
  | some (u, key) =>
    if (s.cfg.endpointJunction u).isNone then .error .notPresent
    else
      let out := match chanTable t with
        | some (_, k0) => s.risesFrom u k0 v.toNat
        | none => true
      if out && s.risesTo u v.toNat then
        let s1 := s.setObj key (BitVec.ofNat 64 v.toNat)
        .ok (match chanTable t with
          | some (_, k0) => s1.tellRanks u k0
          | none => s1)
      else .error .rankOrder

end Sys2Proof.Machine
end

