-- ==== Sys2Proof/Machine/TxnNet.lean ====
section
/-! DEFINITION. The four transaction networks: the packets' bits and codes, router inputs and outputs, probes
(R239, R240, R247 to R250, R267). -/

namespace Sys2Proof.Machine

/-! ## Packets (R247 to R249) -/

def netNum : Net → Nat
  | .request => 0
  | .response => 1
  | .snoop => 2
  | .data => 3

def TKind.net : TKind → Net
  | .request => .request
  | .reserve => .request
  | .giveBack => .request
  | .completion => .response
  | .grant => .response
  | .backoff => .response
  | .snoop => .snoop
  | .snoopReply => .snoop
  | .data => .data

/-- TYPE of a response flit (R248). -/
def TKind.respType : TKind → Nat
  | .grant => 1
  | .backoff => 2
  | _ => 0

/-- Bits 166:0 of a request flit. -/
def TPkt.reqBits (p : TPkt) : Nat :=
  let k := if p.kind = .request then 0 else 1
  p.addr.toNat + (if p.kind = .giveBack then 2 ^ 100 else 0) + p.dest.toNat * 2 ^ 104 + p.src.toNat * 2 ^ 120 +
    p.tag.toNat * 2 ^ 136 + p.gen.toNat * 2 ^ 146 + p.lenM1.toNat * 2 ^ 150 + (if p.keep then 2 ^ 155 else 0) +
    p.ward.toNat * 2 ^ 156 + p.level.toNat * 2 ^ 160 + p.op.toNat * 2 ^ 162 + k * 2 ^ 166

/-- Bits 79:0 of a response flit. -/
def TPkt.respBits (p : TPkt) : Nat :=
  p.streak.toNat * 2 ^ 19 + p.level.toNat * 2 ^ 23 + p.src.toNat * 2 ^ 25 + p.dest.toNat * 2 ^ 41 + p.gen.toNat * 2 ^ 57 +
    p.tag.toNat * 2 ^ 61 + p.ward.toNat * 2 ^ 71 + p.status.toNat * 2 ^ 75 + p.kind.respType * 2 ^ 78

/-- Bits 79:0 of a snoop flit. -/
def TPkt.snoopBits (p : TPkt) : Nat :=
  p.addr.toNat % 2 ^ 35 * 2 ^ 8 + p.src.toNat % 1024 * 2 ^ 43 + p.dest.toNat % 1024 * 2 ^ 53 + p.tag.toNat % 256 * 2 ^ 63 +
    p.ward.toNat * 2 ^ 71 + (if p.hasData then 2 ^ 75 else 0) + p.code.toNat * 2 ^ 76 +
    (if p.kind = .snoopReply then 2 ^ 78 else 0)

/-- Bits 87:0 of a data head. -/
def TPkt.headBits (p : TPkt) : Nat :=
  p.level.toNat * 2 ^ 23 + p.masks.length * 2 ^ 25 + p.status.toNat * 2 ^ 28 + (p.beats.length - 1) * 2 ^ 31 +
    p.src.toNat * 2 ^ 36 + p.dest.toNat * 2 ^ 52 + p.tag.toNat * 2 ^ 68 + p.gen.toNat * 2 ^ 78 + p.ward.toNat * 2 ^ 82 +
    p.dkind.toNat * 2 ^ 86

/-- OUTER of a packet (R247 to R249). -/
def TPkt.code_ (p : TPkt) : BitVec 32 :=
  match p.kind.net with
  | .request => BitVec.ofNat 32 (crc16 (leBytes 21 p.reqBits)).toNat
  | .response => BitVec.ofNat 32 (crc8 (leBytes 10 p.respBits)).toNat
  | .snoop => BitVec.ofNat 32 (crc8 (leBytes 10 p.snoopBits)).toNat
  | .data => crc32c ((p.masks ++ p.beats).flatMap (fun b => leBytes 128 b.toNat) ++ leBytes 11 p.headBits)

/-- The packet with its end-to-end code. -/
def TPkt.sealed (p : TPkt) : TPkt := { p with outer := p.code_ }

/-- The bits of the packet's first flit under its inner code: its fields, with OUTER above them. -/
def TPkt.bits (p : TPkt) : Nat :=
  match p.kind.net with
  | .request => p.reqBits + p.outer.toNat * 2 ^ 167
  | .response => p.respBits + p.outer.toNat * 2 ^ 80
  | .snoop => p.snoopBits + p.outer.toNat * 2 ^ 80
  | .data => p.headBits + p.outer.toNat * 2 ^ 88

/-- Bits `lo` to `lo + w − 1`. -/
def nbits (x lo w : Nat) : Nat := x / 2 ^ lo % 2 ^ w

/-- The kind that a flit's bits show. -/
def kindOf (net : Net) (x : Nat) : TKind :=
  match net with
  | .request => if nbits x 166 1 = 0 then .request else if nbits x 100 1 = 1 then .giveBack else .reserve
  | .response => if nbits x 78 2 = 1 then .grant else if nbits x 78 2 = 2 then .backoff else .completion
  | .snoop => if nbits x 78 2 = 0 then .snoop else .snoopReply
  | .data => .data

/-- The packet with the fields that the bits `x` of its first flit show. The number of flits stays: a head whose counts are
wrong no longer agrees with its end-to-end code. -/
def TPkt.withBits (p : TPkt) (x : Nat) : TPkt :=
  let k := kindOf p.kind.net x
  let b := fun (w lo : Nat) => BitVec.ofNat w (nbits x lo w)
  match p.kind.net with
  | .request => { p with kind := k, outer := BitVec.ofNat 32 (nbits x 167 16), op := b 4 162, level := b 2 160, ward := b 4 156
                         keep := nbits x 155 1 == 1, lenM1 := b 5 150, gen := b 4 146, tag := b 10 136, src := b 16 120
                         dest := b 16 104, addr := b 64 0 }
  | .response => { p with kind := k, outer := BitVec.ofNat 32 (nbits x 80 8), status := b 3 75, ward := b 4 71, tag := b 10 61
                          gen := b 4 57, dest := b 16 41, src := b 16 25, level := b 2 23, streak := b 4 19 }
  | .snoop => { p with kind := k, outer := BitVec.ofNat 32 (nbits x 80 8), code := b 2 76, hasData := nbits x 75 1 == 1
                       ward := b 4 71, tag := BitVec.ofNat 10 (nbits x 63 8), dest := BitVec.ofNat 16 (nbits x 53 10)
                       src := BitVec.ofNat 16 (nbits x 43 10), addr := BitVec.ofNat 64 (nbits x 8 35) }
  | .data =>
    let torn := nbits x 25 3 != p.masks.length || nbits x 31 5 != p.beats.length - 1
    { p with outer := BitVec.ofNat 32 (nbits x 88 32) ^^^ (if torn then 1 else 0), dkind := b 2 86, ward := b 4 82, gen := b 4 78
             tag := b 10 68, dest := b 16 52, src := b 16 36, status := b 3 28, level := b 2 23 }

/-- Data bits and check bits of the code over a first flit (R247 to R249). -/
def netWidth : Net → Nat × Nat
  | .request => (183, 8)
  | .response => (88, 7)
  | .snoop => (88, 7)
  | .data => (120, 7)

/-- Flits of a packet. -/
def TPkt.flits (p : TPkt) : Nat := 1 + p.masks.length + p.beats.length

/-! ## Router inputs (R249, R250) -/

/-- The number of an input (or output) of a router: network, junction, port. -/
def tKey (net : Net) (n i : Nat) : Nat := (netNum net * 128 + n) * 8 + i

def State.tlink (s : State) (k : Nat) : TLink := Tbl.get TLink.zero s.txn.links k

def State.setTlink (s : State) (k : Nat) (l : TLink) : State :=
  { s with txn := { s.txn with links := Tbl.set TLink.zero s.txn.links k l } }

/-- A packet leaves for input `i` of the router of its network at `n`. -/
def State.txnSend (s : State) (n i : Nat) (p : TPkt) : State :=
  let k := tKey p.kind.net n i
  let l := s.tlink k
  s.setTlink k { l with queue := l.queue ++ [p] }

/-- A local unit sends a packet, stamped with its end-to-end code. -/
def State.txnFrom (s : State) (u : Nat) (p : TPkt) : State :=
  match s.cfg.unitJunction u with
  | some n => s.txnSend n (unitInput u) p.sealed
  | none => s

def Fld.probeEnable (n : Nat) : Fld := ⟨Obj.probeCtrl n, 63, 1⟩
def Fld.probePackets (n : Nat) : Fld := ⟨Obj.probeCount n, 32, 32⟩
def Fld.probeBeats (n : Nat) : Fld := ⟨Obj.probeCount n, 0, 32⟩

/-- The bit of OP_MASK for a packet: OP, TYPE or DKIND (R267). -/
def TPkt.probeBit (p : TPkt) : Nat :=
  match p.kind.net with
  | .request => p.op.toNat
  | .response => p.kind.respType
  | .snoop => if p.kind = .snoopReply then 1 else 0
  | .data => p.dkind.toNat

/-- The address a probe sees (R267). -/
def TPkt.probeAddr (p : TPkt) : BitVec 64 :=
  match p.kind.net with
  | .request => p.addr
  | .snoop => BitVec.ofNat 64 (p.addr.toNat * 64)
  | _ => 0

/-- The probe of `n` matches a packet at input `i` (R267). -/
def State.probeMatches (s : State) (n i : Nat) (p : TPkt) : Bool :=
  let v := s.obj (Obj.probeCtrl n)
  let m := s.obj (Obj.probeMask n)
  fget v 63 1 == 1 && fget v 60 2 == netNum p.kind.net && fget v 57 3 == i && decide (i < 7) &&
    (fget v 56 1 == 1 || fget v 52 4 == p.ward.toNat) && (fget v 51 1 == 1 || fget v 35 16 == p.src.toNat) &&
    (fget v 19 16).testBit p.probeBit && p.probeAddr &&& m == s.obj (Obj.probeMatch n) &&& m

/-- Beats that a packet adds to BEATS: its data flits (R267). -/
def TPkt.probeCountBeats (p : TPkt) : Nat := p.beats.length

/-- The probe of `n` counts a packet that matches, and may trace it (R267, R540). -/
def State.probe (s : State) (n i : Nat) (p : TPkt) : State :=
  if !s.probeMatches n i p then s
  else
    let s1 := (s.bump (.probePackets n) 1).bump (.probeBeats n) p.probeCountBeats
    if s.rd ⟨Obj.probeCtrl n, 62, 1⟩ = 1 then
      s1.traceQueue n 0 ⟨s.now, 3, netNum p.kind.net, n, i, some p.ward, 0, 0,
        BitVec.ofNat 32 (p.src.toNat + p.tag.toNat * 65536), p.probeAddr.extractLsb' 0 32⟩
    else s1

/-- A whole packet stands in a router input. -/
def State.txnBuffer (s : State) (net : Net) (n i : Nat) (p : TPkt) : State :=
  let k := tKey net n i
  ({ s with txn := { s.txn with bufs := Tbl.upd [] s.txn.bufs k (· ++ [p]) } } : State).probe n i p

/-- The bits an injection inverts in what input `i` of network `net` at `n` checks next (R498, R499). -/
def State.txnInjected (s : State) (net : Net) (n i : Nat) : Bool := s.injectedAt 0x06 n (min i 6) (netNum net)

/-- The transaction-link source for an uncorrectable flit (R250, R489). -/
def State.txnUncorr (s : State) (net : Net) (n i : Nat) (injected : Bool) : State :=
  s.raise ⟨0x04F, none, n, min i 6, netNum net, 0xFFFF, injected⟩

/-- The first flit of a packet arrives with the bits `flips` inverted. -/
def State.txnFirst (s : State) (net : Net) (n i : Nat) (flips : List Nat) (p : TPkt) (rest : List TPkt) : State :=
  let k := tKey net n i
  let l := s.tlink k
  let inj := s.txnInjected net n i
  let w := netWidth net
  let own := flips.filter (fun b => decide (b < w.1 + w.2 + 1))
  let d := Hamming.decode w.1 w.2 (own ++ (if inj then Hamming.injected w.1 w.2 (s.rd .injAll == 1) else []))
  let s1 := if inj then s.injectFired else s
  let seen := p.withBits (d.wrong.foldl (fun x b => x ^^^ 2 ^ b) p.bits)
  let got := if d.wrong.isEmpty then p else seen
  if net = .data then
    let later := flips.filter (fun b => decide (128 ≤ b))
    if d.bad then (s1.setTlink k { l with pos := 1, asm := none, entries := [], lost := true }).txnUncorr net n i inj
    else s1.setTlink k { l with pos := 1, asm := some got, entries := later, lost := false }
  else
    let s2 := s1.setTlink k { l with queue := rest }
    if d.bad then s2.txnUncorr net n i inj else s2.txnBuffer net n i got

/-- The inverted bits of word `w` (0 or 1) of following flit `k`: its own, and those its entry came with (R249). -/
def dataFlips (flips entries : List Nat) (k w : Nat) : List Nat :=
  (flips.filter (fun b => b / 512 == w)).map (fun b => b % 512) ++
  (entries.filter (fun b => decide (128 + 24 * k + 11 * w ≤ b) && decide (b < 128 + 24 * k + 11 * w + 11))).map
    (fun b => 512 + (b - (128 + 24 * k + 11 * w)))

/-- Flit `k` behind its head, as the packet being put together holds it. -/
def TPkt.bodyFlit (p : TPkt) (k : Nat) : BitVec 1024 := (p.masks ++ p.beats).getD k 0

def TPkt.setBody (p : TPkt) (k : Nat) (v : BitVec 1024) : TPkt :=
  if k < p.masks.length then { p with masks := p.masks.set k v } else { p with beats := p.beats.set (k - p.masks.length) v }

/-- A later flit of a data packet arrives; a word it cannot correct zeroes the flit (R249, R250). -/
def State.txnLater (s : State) (n i : Nat) (flips : List Nat) (p : TPkt) (rest : List TPkt) : State :=
  let k := tKey .data n i
  let l := s.tlink k
  let j := l.pos - 1
  let done := decide (p.flits ≤ l.pos + 1)
  let next := if done then { l with queue := rest, pos := 0, asm := none, entries := [], lost := false } else { l with pos := l.pos + 1 }
  match l.asm with
  | none => s.setTlink k next
  | some q =>
    let d0 := Hamming.decode 512 10 (dataFlips flips l.entries j 0)
    let d1 := Hamming.decode 512 10 (dataFlips flips l.entries j 1)
    let v := q.bodyFlit j
    let v' := if d0.bad || d1.bad then 0 else flipBits v (d0.wrong ++ d1.wrong.map (· + 512))
    let q' := q.setBody j v'
    let s1 := if d0.bad || d1.bad then s.txnUncorr .data n i false else s
    if done then (s1.setTlink k next).txnBuffer .data n i q' else s1.setTlink k { next with asm := some q' }

/-- TXN_FLIT_ARRIVE: the next flit on the link into input `i` arrives, with the bits `flips` inverted. -/
def Txn.flitArrive (n : Nat) (net : Net) (i : Nat) (flips : List Nat) (s : State) : State :=
  let k := tKey net n i
  let l := s.tlink k
  match l.queue with
  | [] => s
  | p :: rest =>
    if s.regionStateOf (s.regionOf n) = 4 then s.wakeAt n
    else if !s.moves n ∨ 1 ≤ (Tbl.get [] s.txn.bufs k).length then s
    else if net = .data ∧ l.pos ≠ 0 then (s.txnLater n i flips p rest).touch n
    else (s.txnFirst net n i flips p rest).touch n

def execTxnFlitArrive (n : Nat) (net : Net) (inp : Nat) (flips : List Nat) (s : State) : Host.Outcome State Fault Refusal :=
  .next (Txn.flitArrive n net inp flips s)

/-! ## Router outputs (R205, R240) -/

/-- The output of the router at `n` by which a packet leaves: a mesh port, or the port of its unit; 7 takes out a packet
whose unit does not exist. -/
def State.txnOutput (s : State) (n : Nat) (p : TPkt) : Nat :=
  let u := p.dest.toNat % 1024
  match s.cfg.unitJunction u with
  | none => 7
  | some j => match s.cfg.routePort n j with
    | some q => q
    | none => unitInput u

/-- The inputs whose packet is bound for output `o`, with the packets. -/
def State.txnWaiting (s : State) (net : Net) (n o : Nat) : List (Nat × TPkt) :=
  (List.range 8).filterMap (fun i =>
    match Tbl.get [] s.txn.bufs (tKey net n i) with
    | p :: _ => if s.txnOutput n p = o then some (i, p) else none
    | [] => none)

/-- How often the packet at input `i` has been passed over at output `o`. -/
def State.overCount (s : State) (net : Net) (n o i : Nat) : Nat := Tbl.get 0 s.txn.passedOver (8 * tKey net n o + i)

/-- The standing of a packet at an output: 4 when it has been passed over 16 times, else its LEVEL; on the snoop network
all are equal (R240). -/
def State.standing (s : State) (net : Net) (n o : Nat) (x : Nat × TPkt) : Nat :=
  if net ≠ .snoop ∧ 16 ≤ s.overCount net n o x.1 then 4 else if net = .snoop then 0 else x.2.level.toNat

/-- The next packet an output serves: the highest standing, round-robin among its inputs. -/
def State.txnPick (s : State) (net : Net) (n o : Nat) : Option (Nat × TPkt) :=
  let ws := s.txnWaiting net n o
  let top := (ws.map (s.standing net n o)).foldl max 0
  let best := ws.filter (fun x => s.standing net n o x == top)
  let last := Tbl.get 0 s.txn.served (tKey net n o)
  (List.range 8).findSome? (fun j => best.find? (fun x => x.1 == (last + j) % 8))

/-- The packet leaves its input: the turn moves on, and those it passed are counted (R240). -/
def State.txnTake (s : State) (net : Net) (n o i : Nat) : State :=
  let counts := (s.txnWaiting net n o).foldl (fun t x =>
    Tbl.upd 0 t (8 * tKey net n o + x.1) (fun c => if x.1 = i then 0 else min (c + 1) 16)) s.txn.passedOver
  { s with txn := { s.txn with
    bufs := Tbl.upd [] s.txn.bufs (tKey net n i) List.tail
    served := Tbl.set 0 s.txn.served (tKey net n o) (i + 1)
    passedOver := counts } }

/-- The number of a local unit's arrivals on a network. -/
def arriveKey (net : Net) (u : Nat) : Nat := netNum net * 1024 + u

def State.txnArrive (s : State) (p : TPkt) : State :=
  { s with txn := { s.txn with arrived := Tbl.upd [] s.txn.arrived (arriveKey p.kind.net (p.dest.toNat % 1024)) (· ++ [p]) } }

/-- OUTER fails at a destination: it does not match, or an injection makes it fail (R250, R499). -/
def State.txnOuterFails (s : State) (n u : Nat) (p : TPkt) : Bool :=
  s.injectedAt 0x07 n (unitInput u) (netNum p.kind.net) || p.outer != p.code_

/-- The outer-code source (R250). -/
def State.txnOuterRaise (s : State) (n u : Nat) (p : TPkt) : State :=
  let inj := s.injectedAt 0x07 n (unitInput u) (netNum p.kind.net)
  (if inj then s.injectFired else s).raise ⟨0x050, some p.ward, n, unitInput u, netNum p.kind.net, 0xFFFF, inj⟩

/-- The snoops that have come to the core port of `n` are driven on SQ_, while its adapter can drive (R34, R37, R264). -/
def State.snoopsGo (s : State) (n : Nat) : State :=
  if !s.drives n .a then s
  else
    let mine := s.txn.snoops.filter (fun x => x.core == n && !x.driven)
    mine.foldl (fun (a : State) x => a.emit (.sq n x.line x.ty x.stag))
      { s with txn := { s.txn with snoops := s.txn.snoops.map (fun x => if x.core = n then { x with driven := true } else x) } }

/-- A snoop reaches the core port of `n`: it is driven on SQ_ as soon as the adapter can; one whose code fails is discarded and
raised (R250, R264). -/
def State.snoopCore (s : State) (n u : Nat) (p : TPkt) : State :=
  if s.txnOuterFails n u p then s.txnOuterRaise n u p
  else ({ s with txn := { s.txn with snoops := s.txn.snoops ++
      [⟨n, p.src, p.tag.extractLsb' 0 8, p.addr.extractLsb' 0 35, p.code, p.ward, false⟩] } } : State).snoopsGo n

/-- TXN_PACKET_FORWARD: output `o` of a router passes its next packet, whole. Towards a region that is lost it is lost with
it; towards a gated one it wakes the region and waits (R105, R262, R268). -/
def Txn.forward (n : Nat) (net : Net) (o : Nat) (s : State) : State :=
  if !s.moves n then s
  else match s.txnPick net n o with
    | none => s
    | some (i, p) =>
      if o = 7 then (s.txnTake net n o i).touch n
      else if o < 4 then
        match s.cfg.neighbour n o with
        | none => s
        | some m =>
          if s.junctionLost m then (s.txnTake net n o i).touch n
          else
            let s1 := if s.regionStateOf (s.regionOf m) = 4 then s.wakeAt m else s
            if (s.tlink (tKey net m (facing o))).queue.length < 2 then
              ((s1.txnTake net n o i).txnSend m (facing o) p).touch n
            else s1
      else
        let s1 := (s.txnTake net n o i).touch n
        let u := p.dest.toNat % 1024
        if p.kind = .snoop ∧ u < 0x78 then s1.snoopCore n u p else s1.txnArrive p

def execTxnPacketForward (n : Nat) (net : Net) (out : Nat) (s : State) : Host.Outcome State Fault Refusal :=
  .next (Txn.forward n net out s)

end Sys2Proof.Machine
end

