-- ==== Sys2Proof/Machine/GateLink.lean ====
section
/-! DEFINITION. The fabric packet as bytes, the egress queue of a gate, and the answers it sends (R336, R339 to R341, R354). -/

namespace Sys2Proof.Machine

/-! ## The packet (R339, R340) -/

/-- W0 to W6; `line` says that MARK and HOPS stand as they are, and not as zero. -/
def FPkt.head (p : FPkt) (line : Bool) : List Byte :=
  let b := fun (x : Bool) (i : Nat) => if x then 2 ^ i else 0
  let w0 := 2 ^ 28 + p.ty * 2 ^ 24 + p.cls * 2 ^ 22 + b p.mirror 21 + b p.spray 20 + b (line && p.mark) 19 +
    (if line then p.hops.toNat * 256 else 0) + p.ward.toNat * 16 + p.level.toNat * 4
  leBytes 4 w0 ++ leBytes 4 (p.label.toNat * 4096 + p.path.toNat) ++ leBytes 4 (p.dst.toNat * 1024) ++
    leBytes 4 (p.src.toNat * 1024) ++ leBytes 4 p.seq.toNat ++ leBytes 4 (p.body.length * 65536 + p.chan * 256) ++
    leBytes 4 (p.conn.toNat * 65536)

/-- W7: the header check, over bytes 27:0 with MARK and HOPS as zero. -/
def hcrcWord (head : List Byte) : List Byte := leBytes 4 ((crc16 head).toNat * 65536)

/-- The packet on the line: header, body and trailer. -/
def FPkt.bytes (p : FPkt) : List Byte :=
  let plain := p.head false
  p.head true ++ hcrcWord plain ++ p.body ++ leBytes 4 (crc32c (plain ++ hcrcWord plain ++ p.body)).toNat

/-- Bytes a packet occupies in a buffer and on the line. -/
def FPkt.size (p : FPkt) : Nat := 36 + p.body.length

/-- The header with MARK and HOPS as zero. -/
def plainHead (bs : List Byte) : List Byte :=
  let w0 := leAt bs 0 4
  leBytes 4 (w0 - w0 / 2 ^ 19 % 2 * 2 ^ 19 - w0 / 256 % 256 * 256) ++ (bs.drop 4).take 28

/-- The fields of a packet that has arrived. -/
def FPkt.ofBytes (bs : List Byte) : FPkt :=
  let w := fun (i lo n : Nat) => leAt bs (4 * i) 4 / 2 ^ lo % 2 ^ n
  { ty := w 0 24 4, cls := w 0 22 2, mirror := w 0 21 1 == 1, spray := w 0 20 1 == 1, mark := w 0 19 1 == 1
    hops := BitVec.ofNat 8 (w 0 8 8), ward := BitVec.ofNat 4 (w 0 4 4), level := BitVec.ofNat 2 (w 0 2 2)
    label := BitVec.ofNat 20 (w 1 12 20), path := BitVec.ofNat 12 (w 1 0 12), dst := BitVec.ofNat 22 (w 2 10 22)
    src := BitVec.ofNat 22 (w 3 10 22), seq := BitVec.ofNat 32 (w 4 0 32), chan := w 5 8 8, conn := BitVec.ofNat 16 (w 6 16 16)
    body := (bs.drop 32).take (bs.length - 36) }

/-- HCRC and the trailer are right (R340). -/
def fabricCodes (bs : List Byte) : Bool :=
  let plain := plainHead bs
  decide (36 ≤ bs.length) && leAt bs 30 2 == (crc16 (plain.take 28)).toNat &&
    leAt bs (bs.length - 4) 4 == (crc32c (plain ++ (bs.drop 32).take (bs.length - 36))).toNat

/-- VERSION, TYPE and BODY_LEN are right (R342). -/
def fabricForm (bs : List Byte) : Bool :=
  leAt bs 0 4 / 2 ^ 28 == 1 && decide (leAt bs 0 4 / 2 ^ 24 % 16 ≤ 6) && leAt bs 22 2 == bs.length - 36 && decide (leAt bs 22 2 ≤ 4640)

/-! ## The gate -/

def State.gate (s : State) (g : Nat) : Gate := Tbl.get Gate.zero s.gat.gates g

def State.setGate (s : State) (g : Nat) (x : Gate) : State :=
  { s with gat := { s.gat with gates := Tbl.set Gate.zero s.gat.gates g x } }

/-- This gate as packets name it: package, die and gate. -/
def State.gateName (s : State) (g : Nat) : BitVec 22 :=
  BitVec.ofNat 22 ((s.obj Obj.pkgNumber).toNat % 4096 * 1024 + s.dieBits * 16 + g)

/-- The time that a gate's own timers count: it stands still in a freeze (R360). -/
def State.gateNow (s : State) : Nat := s.now - s.frozenFor

/-- A new packet joins the egress queue. -/
def State.gateQueue (s : State) (g : Nat) (p : FPkt) (free : Bool) : State :=
  let x := s.gate g
  s.setGate g { x with queue := x.queue ++ [⟨p, free⟩] }

/-- The packet with a label, where the manual gives none. -/
def FPkt.labelled (p : FPkt) : FPkt := { p with label := Config.packetLabel p.src p.dst p.cls }

/-- The RSP to a REQ (R341, R354): in the request's class and spraying, mirrored as the request was (R343, R357, log 140), tagged as its
flit is, with the read data behind the response flit. -/
def State.rspFor (s : State) (g : Nat) (req : FPkt) (status : BitVec 3) (data : List (BitVec 1024)) : FPkt :=
  let x := leAt req.body 0 23
  let q : TPkt := { TPkt.blank with kind := .completion, status := status, ward := BitVec.ofNat 4 (x / 2 ^ 156), tag := BitVec.ofNat 10 (x / 2 ^ 136)
                                    gen := BitVec.ofNat 4 (x / 2 ^ 146), dest := BitVec.ofNat 16 (x / 2 ^ 120), src := s.ep (0x80 + g)
                                    level := req.level }
  FPkt.labelled { FPkt.zero with
    ty := 1, cls := req.cls, spray := req.spray, mirror := req.mirror, ward := q.ward, dst := req.src, src := s.gateName g
    body := leBytes 10 q.respBits ++ leBytes 6 0 ++ (if status = 0 then data.flatMap (fun b => leBytes 128 b.toNat) else []) }

/-- The gate's own transaction for a remote request ends: its one RSP leaves. -/
def State.gateAnswer (s : State) (g : Nat) (tag : BitVec 10) (status : BitVec 3) (data : List (BitVec 1024)) : State :=
  let x := s.gate g
  match x.jobs.find? (fun j => j.tag == tag) with
  | none => s
  | some j => (s.setGate g { x with jobs := x.jobs.filter (fun k => k != j) }).gateQueue g (s.rspFor g j.req status data) false

end Sys2Proof.Machine
end

