-- ==== Sys2Proof/Machine/TensorBase.lean ====
section
/-! DEFINITION. The parts of the tensor plane: flits, banks and their words, inputs, outputs, nodes, markers, and the
swap of lists at a junction (R83 to R88, R116 to R125, R142 to R145). -/

namespace Sys2Proof.Machine

/-! ## Flits (R85 to R88) -/

def TFlit.kind (f : TFlit) : Nat := f.frame.toNat / 64
def TFlit.err (f : TFlit) : Bool := f.frame.getLsbD 2
def TFlit.last (f : TFlit) : Bool := f.frame.getLsbD 1
def TFlit.first (f : TFlit) : Bool := f.frame.getLsbD 0

/-- FLOW of a flit that is not its run's last (R87). -/
def TFlit.flow (f : TFlit) : Nat := f.run.toNat / 2 ^ 20

/-- FLIT_SEQ of such a flit (R87). -/
def TFlit.seq (f : TFlit) : Nat := f.run.toNat % 2 ^ 20

def TFlit.setErr (f : TFlit) : TFlit := { f with frame := f.frame ||| 0x04 }
def TFlit.setLast (f : TFlit) : TFlit := { f with frame := f.frame ||| 0x02 }

/-- Majority of three wires (R82). -/
def majority3 (x : BitVec 3) : Bool := (x.getLsbD 0 && x.getLsbD 1) || (x.getLsbD 0 && x.getLsbD 2) || (x.getLsbD 1 && x.getLsbD 2)

/-- The levels of REQ and ACK that the two ends of a link take: the majority of each triplet (R82). -/
def TIn.reqLevel (x : TIn) : Bool := majority3 x.req
def TIn.ackLevel (x : TIn) : Bool := majority3 x.ack

/-- The sender has changed REQ for a flit, the receiver ACK (R94). -/
def TIn.request (x : TIn) : TIn := { x with req := ~~~x.req }
def TIn.acknowledge (x : TIn) : TIn := { x with ack := ~~~x.ack }

/-- Both ends set REQ and ACK to one level, low: what follows a reset or wake of either end, when no flit is on the link (R95). -/
def TIn.align (x : TIn) : TIn := { x with req := 0, ack := 0 }

/-- A frame byte (R85). -/
def frameOf (kind : Nat) (flags : Nat) (err last first : Bool) : BitVec 8 :=
  BitVec.ofNat 8 (kind * 64 + flags * 8 + (if err then 4 else 0) + (if last then 2 else 0) + (if first then 1 else 0))

/-- The outer code's register after a payload (R88). -/
def crcFlit (crc : BitVec 32) (p : BitVec 4096) : BitVec 32 := crc32cReg crc (leBytes 512 p.toNat)

/-- OUTER of a run whose payloads left the register `crc`, with the trailer of its flow and flit count (R88). -/
def outerOf (crc : BitVec 32) (flow count : Nat) : BitVec 32 :=
  (crc32cReg crc (leBytes 4 (flow * 2 ^ 20 + count % 2 ^ 20)) ^^^ 0xFFFFFFFF).reverse

/-- RUN_FIELD of flit `seq` of a run of `flow` (R87); `crc` covers its payload as well. -/
def runField (last : Bool) (flow seq : Nat) (crc : BitVec 32) : BitVec 32 :=
  if last then outerOf crc flow (seq + 1) else BitVec.ofNat 32 (flow * 2 ^ 20 + seq)

/-- An epoch marker (R143). -/
def markerFlit (epoch image : BitVec 32) (w : BitVec 4) : TFlit :=
  let p : BitVec 4096 := BitVec.ofNat 4096 (epoch.toNat + image.toNat * 2 ^ 32 + w.toNat * 2 ^ 64)
  ⟨p, 0x83, outerOf (crcFlit 0xFFFFFFFF p) 0xFFF 1⟩

def TFlit.isMarker (f : TFlit) : Bool := f.kind == 2

/-! ## Bank words (R118 to R121, R163) -/

def inFlow (e : BitVec 64) : Nat := (e.extractLsb' 52 12).toNat
def inTakers (e : BitVec 64) : Nat := (e.extractLsb' 45 7).toNat
def inRuns (e : BitVec 64) : Nat := (e.extractLsb' 32 13).toNat + 1
def inFlits (e : BitVec 64) : Nat := (e.extractLsb' 0 20).toNat + 1

def outOp (e : BitVec 32) : Nat := (e.extractLsb' 30 2).toNat
def outSrc (e : BitVec 32) : Nat := (e.extractLsb' 27 3).toNat
def outFlow (e : BitVec 32) : Nat := (e.extractLsb' 15 12).toNat
def outCount (e : BitVec 32) : Nat := (e.extractLsb' 0 15).toNat + 1
def loopBody (e : BitVec 32) : Nat := (e.extractLsb' 16 12).toNat + 1
def loopIter (e : BitVec 32) : Nat := (e.extractLsb' 0 16).toNat + 1
def wakeMask (e : BitVec 32) : Nat := (e.extractLsb' 0 8).toNat
def isPass (e : BitVec 32) : Bool := outOp e == 0

def joinSlot (r : List Byte) : Nat := leAt r 0 1
def joinArity (r : List Byte) : Nat := leAt r 1 1
def joinOperand (r : List Byte) (i : Nat) : Nat := leAt r (2 + 2 * i) 2
def joinSrc (r : List Byte) (i : Nat) : Nat := joinOperand r i / 8192
def joinFlow (r : List Byte) (i : Nat) : Nat := joinOperand r i % 4096
def joinOut (r : List Byte) : Nat := leAt r 8 2 % 4096
def joinOp (r : List Byte) : Nat := leAt r 10 1
def joinMode (r : List Byte) : Nat := leAt r 11 1
def joinFmt (r : List Byte) (i : Nat) : Nat := leAt r (12 + i) 1
def joinOutFmt (r : List Byte) : Nat := leAt r 15 1
def joinBits (r : List Byte) : Nat := leAt r 16 1
def joinTally (r : List Byte) : Nat := leAt r 18 2
def joinTallied (r : List Byte) : Bool := joinTally r / 4096 % 2 == 1
def joinTallySrc (r : List Byte) : Nat := joinTally r / 8192
def joinTallyFlow (r : List Byte) : Nat := joinTally r % 4096
def joinBase (r : List Byte) : Nat := leAt r 20 2
def joinBlocks (r : List Byte) : Nat := leAt r 22 2

/-- Operand numbers of a join. -/
def joinOps (r : List Byte) : List Nat := List.range (min 3 (joinArity r))

/-! ## Banks (R116, R155) -/

def Fld.liveSel (n : Nat) : Fld := ⟨Obj.bankState n, 31, 1⟩
def Fld.inSwapped (n i : Nat) : Fld := ⟨Obj.bankState n, 12 + i, 1⟩
def Fld.outSwapped (n o : Nat) : Fld := ⟨Obj.bankState n, 6 + o, 1⟩
def Fld.rnSwapped (n : Nat) : Fld := ⟨Obj.bankState n, 5, 1⟩
def Fld.halted (n : Nat) : Fld := ⟨Obj.bankState n, 4, 1⟩
/-- The thirteen bits of a swap in progress. -/
def Fld.swapBits (n : Nat) : Fld := ⟨Obj.bankState n, 5, 13⟩

def Fld.ldCode (w : Nat) : Fld := ⟨Obj.loadStatus w, 24, 5⟩
def Fld.epochTarget (w : Nat) : Fld := ⟨Obj.epochTarget w, 0, 32⟩

def State.bank (s : State) (n sel : Nat) : Bank := Tbl.get Bank.null s.ten.banks (2 * n + sel)

def State.setBank (s : State) (n sel : Nat) (b : Bank) : State :=
  { s with ten := { s.ten with banks := Tbl.set Bank.null s.ten.banks (2 * n + sel) b } }

/-- Whether list `k` of junction `n` reads another bank than LIVE_SEL names (bit `k` of `TensorState.kept`). -/
def State.keptBit (s : State) (n k : Nat) : Nat := if (Tbl.get 0 s.ten.kept n).testBit k then 1 else 0

/-- The physical bank from which a list of junction `n` is read: the live one until the list has swapped. -/
def State.inSel (s : State) (n i : Nat) : Nat := (s.rd (.liveSel n) + s.rd (.inSwapped n i) + s.keptBit n (7 + i)) % 2
def State.outSel (s : State) (n o : Nat) : Nat := (s.rd (.liveSel n) + s.rd (.outSwapped n o) + s.keptBit n (1 + o)) % 2
def State.rnSel (s : State) (n : Nat) : Nat := (s.rd (.liveSel n) + s.rd (.rnSwapped n) + s.keptBit n 0) % 2
def State.stagedSel (s : State) (n : Nat) : Nat := (s.rd (.liveSel n) + 1) % 2

def State.inList (s : State) (n i : Nat) : List (BitVec 64) := (s.bank n (s.inSel n i)).ins.getD i []
def State.outList (s : State) (n o : Nat) : List (BitVec 32) := (s.bank n (s.outSel n o)).outs.getD o []
def State.joinList (s : State) (n : Nat) : List (List Byte) := (s.bank n (s.rnSel n)).joins

/-- The list names the source. -/
def namesSrc (l : List (BitVec 32)) (src : Nat) : Bool := l.any (fun e => isPass e && outSrc e == src)

/-- The list names the flow from the source. -/
def namesFlow (l : List (BitVec 32)) (src flow : Nat) : Bool :=
  l.any (fun e => isPass e && outSrc e == src && outFlow e == flow)

/-- Some live join takes from input `i`: as an operand, or as its tally. -/
def joinsTake (js : List (List Byte)) (i : Nat) : Bool :=
  js.any (fun r => (joinOps r).any (fun k => joinSrc r k == i) || (joinTallied r && joinTallySrc r == i))

/-! ## The parts of a junction -/

def State.setIng (s : State) (n i : Nat) (x : Ingress) : State :=
  { s with ten := { s.ten with ings := Tbl.set Ingress.zero s.ten.ings (8 * n + i) x } }
def State.setTin (s : State) (n i : Nat) (x : TIn) : State :=
  { s with ten := { s.ten with ins := Tbl.set TIn.zero s.ten.ins (8 * n + i) x } }
def State.setTout (s : State) (n o : Nat) (x : TOut) : State :=
  { s with ten := { s.ten with outs := Tbl.set TOut.zero s.ten.outs (8 * n + o) x } }
def State.setDlv (s : State) (n o : Nat) (x : TDlv) : State :=
  { s with ten := { s.ten with dlvs := Tbl.set TDlv.zero s.ten.dlvs (8 * n + o) x } }
def State.setNode (s : State) (n : Nat) (x : TNode) : State :=
  { s with ten := { s.ten with nodes := Tbl.set TNode.zero s.ten.nodes n x } }
def State.setSched (s : State) (w : Nat) (x : SchedState) : State :=
  { s with ten := { s.ten with scheds := Tbl.set SchedState.zero s.ten.scheds w x } }

/-- The forced markers of the ward of `n` are on their way: its junctions pass nothing until each has swapped (R148). -/
def State.forcing (s : State) (n : Nat) : Bool :=
  match s.wardOf n with
  | some w => (s.sched w.toNat).forcing
  | none => false

/-- Flits may pass at junction `n`. -/
def State.tMoves (s : State) (n : Nat) : Bool := s.moves n && !s.forcing n

/-- The ward of `n` is SWAPPING, and T has reached `n` (R144). -/
def State.swapGo (s : State) (n : Nat) : Bool :=
  match s.wardOf n with
  | some w => s.rd (.ldState w.toNat) == 5 && !(s.sched w.toNat).target.contains n && !(s.sched w.toNat).forcing
  | none => false

/-- T of the swap in progress at `n`. -/
def State.swapT (s : State) (n : Nat) : Nat :=
  match s.wardOf n with
  | some w => s.rd (.epochTarget w.toNat)
  | none => 0

/-! ## The fork (R123) -/

/-- The takers of the flit an input holds, as TAKERS bits. -/
def State.takersOf (s : State) (n i : Nat) : Nat :=
  match (s.inList n i)[(s.tin n i).entry]? with
  | some e => inTakers e
  | none => 0

/-- The intake position after a run of entry `e`, and whether the period is done (R114, R120). -/
def nextIntake (l : List (BitVec 64)) (entry run : Nat) : Nat × Nat × Bool :=
  match l[entry]? with
  | some e =>
    if run + 1 < inRuns e then (entry, run + 1, false)
    else if entry + 1 < l.length then (entry + 1, 0, false)
    else (0, 0, true)
  | none => (0, 0, false)

/-- The input after its run has ended. -/
def TIn.runDone (l : List (BitVec 64)) (x : TIn) : TIn :=
  let p := nextIntake l x.entry x.run
  { x with entry := p.1, run := p.2.1, periods := if p.2.2 then x.periods + 1 else x.periods
           passed := 0, crc := 0xFFFFFFFF, err := false }

/-- A_PERIODS and B_PERIODS: the periods an ingress has injected, and at a Scarf bridge's B port, which no ingress feeds, those the
intake list has taken (R152, R308). -/
def State.periodsOf (s : State) (n p : Nat) : Nat := if p = 5 ∧ s.cfg.bKind n = 4 then (s.tin n 5).periods else (s.ing n p).periods

/-- The input acknowledges its flit once every taker has passed it. -/
def State.settleIn (s : State) (n i : Nat) : State :=
  let x := s.tin n i
  match x.held with
  | none => s
  | some f =>
    if f.isMarker then s
    else if s.takersOf n i &&& x.done = s.takersOf n i then
      let y := { x with held := none, done := 0 }
      s.setTin n i (if f.last then y.runDone (s.inList n i) else y)
    else s

/-- The operand latch of input `i`. -/
def State.opLatch (s : State) (n i : Nat) : Option OpLatch := Tbl.get none (s.node n).ops i

/-- Taker `t` (0 to 5 an output, 6 the node) passes the flit that input `i` holds. -/
def State.takeIn (s : State) (n i t : Nat) : State :=
  let x := s.tin n i
  (s.setTin n i { x with done := x.done ||| 2 ^ t }).settleIn n i

/-- Input `i` presents a flit of `flow` to taker `t`. -/
def State.presents (s : State) (n i t flow : Nat) : Option TFlit :=
  let x := s.tin n i
  match x.held, (s.inList n i)[x.entry]? with
  | some f, some e =>
    if !f.isMarker && inFlow e == flow && (inTakers e).testBit t && !x.done.testBit t then some f else none
  | _, _ => none

/-- RUN_FLITS of the run at input `i`. -/
def State.runFlitsAt (s : State) (n i : Nat) : Nat :=
  match (s.inList n i)[(s.tin n i).entry]? with
  | some e => inFlits e
  | none => 0

/-! ## The node's latch (R123, R159) -/

/-- The outputs of the node's bank that take `flow` from the node, as bits, and bit 7 where a join captures it (R177). -/
def State.nodeTakers (s : State) (n flow : Nat) : Nat :=
  ((List.range 6).filter (fun o => s.outSel n o == s.rnSel n && namesFlow (s.outList n o) 6 flow)).foldl (fun a o => a + 2 ^ o) 0 +
  (if (s.joinList n).any (fun r => joinTallied r && joinTallySrc r == 6 && joinTallyFlow r == flow) then 128 else 0)

/-- The node's latch is freed once every taker has passed its flit. -/
def State.settleNode (s : State) (n : Nat) : State :=
  let x := s.node n
  let t := s.nodeTakers n x.latchFlow
  if x.latch.isSome && t &&& x.done == t then s.setNode n { x with latch := none, done := 0 } else s

def State.takeNode (s : State) (n t : Nat) : State :=
  let x := s.node n
  (s.setNode n { x with done := x.done ||| 2 ^ t }).settleNode n

/-- The flit the node presents to taker `t`. -/
def State.nodePresents (s : State) (n t flow : Nat) : Option TFlit :=
  let x := s.node n
  if x.latchFlow = flow ∧ !x.done.testBit t then x.latch else none

/-- The node takes the flit that input `i` holds for it into the operand latch of that input, once that is empty (R96, R123,
R150). Of a run that the node discards to its end it keeps nothing (R162). -/
def State.feedNode (s : State) (n i : Nat) : State :=
  let x := s.tin n i
  let d := s.node n
  match x.held, (s.inList n i)[x.entry]? with
  | some f, some e =>
    if f.isMarker || !(inTakers e).testBit 6 || x.done.testBit 6 || d.stuck || s.inSel n i != s.rnSel n then s
    else if d.drain.contains i then (if f.last then s.setNode n { d with drain := d.drain.erase i } else s).takeIn n i 6
    else if (s.opLatch n i).isSome then s
    else (s.setNode n { d with ops := Tbl.set none d.ops i (some ⟨inFlow e, f, inFlits e⟩) }).takeIn n i 6
  | _, _ => s

/-- Every input feeds the node. -/
def State.feedNodes (s : State) (n : Nat) : State := (List.range 6).foldl (fun (a : State) i => a.feedNode n i) s

/-- The flit of `flow` in the operand latch of input `i`. -/
def State.opFlit (s : State) (n i flow : Nat) : Option TFlit :=
  match s.opLatch n i with
  | some x => if x.flow = flow then some x.flit else none
  | none => none

/-- The operand latch of input `i` is emptied, and takes the next flit. -/
def State.emptyOp (s : State) (n i : Nat) : State :=
  let d := s.node n
  (s.setNode n { d with ops := Tbl.set none d.ops i none }).feedNode n i

/-! ## Output lists (R119, R122, R125, R129) -/

/-- One move of a list that takes no handshake: the end of a loop's pass, of the period, a LOOP or CTRL entry, or a PASS
entry treated as passed (R125, R126, R129). The flag says that the list may move on again; the number is the regions that
WAKE entries have named. -/
def listMove (l : List (BitVec 32)) (x : TOut) (w : Nat) : Bool × TOut × Nat :=
  match x.loops with
  | f :: rest =>
    if x.entry = f.stop then
      if 0 < f.left then (true, { x with entry := f.start, loops := { f with left := f.left - 1 } :: rest }, w)
      else (true, { x with loops := rest }, w)
    else listEntry x w
  | [] =>
    if l.length ≤ x.entry then (false, { x with entry := 0, count := 0, periods := x.periods + 1 }, w)
    else listEntry x w
where
  /-- The move at the list's present entry. -/
  listEntry (x : TOut) (w : Nat) : Bool × TOut × Nat :=
    match l[x.entry]? with
    | none => (false, x, w)
    | some e =>
      if outOp e = 1 then
        (true, { x with entry := x.entry + 1
                        loops := ⟨x.entry + 1, x.entry + 1 + loopBody e, loopIter e - 1⟩ :: x.loops }, w)
      else if outOp e = 2 then (true, { x with entry := x.entry + 1 }, w ||| wakeMask e)
      else
        let key := 4096 * outSrc e + outFlow e
        let c := Tbl.get 0 x.credit key
        let need := outCount e - x.count
        if c = 0 then (false, x, w)
        else if c < need then (false, { x with count := x.count + c, credit := Tbl.set 0 x.credit key 0 }, w)
        else (true, { x with entry := x.entry + 1, count := 0, credit := Tbl.set 0 x.credit key (c - need) }, w)

/-- The position of a list once it can make no further move without a handshake, and the regions it has named. It stops at
the end of a period. -/
def listSettle (l : List (BitVec 32)) : Nat → TOut → Nat → TOut × Nat
  | 0, x, w => (x, w)
  | k + 1, x, w =>
    let r := listMove l x w
    if r.1 then listSettle l k r.2.1 r.2.2 else r.2

/-- Steps that `listSettle` can need. -/
def settleFuel (l : List (BitVec 32)) (x : TOut) : Nat :=
  (l.length + 4) * ((x.credit.map (·.2)).sum + 2)

/-- A wake-ahead request for region `k` reaches the power manager: it wakes, and is not gated for WAKE_HOLD (R129). -/
def State.wakeAhead (s : State) (k : Nat) : State :=
  let s1 : State := { s with pwr := { s.pwr with wakeHold := Tbl.set 0 s.pwr.wakeHold k (s.now + (s.obj Obj.wakeHold).toNat) } }
  s1.wake k

/-- The junction `n` asks the power manager, over the control plane, for each region of a mask (R129, R231). -/
def State.askWakes (s : State) (n mask : Nat) : State :=
  (List.range 8).foldl (fun (a : State) k =>
    if mask.testBit k then a.sendCommand (0x100 + n) 0xC0 ((s.wardOf n).getD 0) Cmd.wake k else a) s

/-- An output moves to its next flit to pass; at the end of a period that a swap waits for it stays there. -/
def State.settleOut (s : State) (n o : Nat) : State :=
  let l := s.outList n o
  let x := s.tout n o
  if l.isEmpty || (s.swapGo n && s.rd (.outSwapped n o) == 0 && decide (s.swapT n ≤ x.periods)) then s
  else
    let r := listSettle l (settleFuel l x) x 0
    (s.setTout n o r.1).askWakes n r.2

/-! ## Swapping lists (R144) -/

/-- The junction across mesh port `p` of `n`, when the ward of `n` owns it. -/
def State.wardNeighbour (s : State) (n p : Nat) : Option Nat :=
  match s.cfg.neighbour n p with
  | some m => if s.wardOf m == s.wardOf n && (s.wardOf n).isSome then some m else none
  | none => none

/-- Input `i` presents a marker. -/
def State.marks (s : State) (n i : Nat) : Bool :=
  match (s.tin n i).held with
  | some f => f.isMarker
  | none => false

/-- The marker of the swap in progress in ward `w` (R143). -/
def State.swapMarker (s : State) (w : BitVec 4) : TFlit :=
  markerFlit (BitVec.ofNat 32 (s.rd (.epochOf w.toNat) + 1)) (s.sched w.toNat).staged.id w

/-- A link takes another flit: its sender's latch and its middle latch hold at most two (R96). -/
def State.linkRoom (s : State) (n i : Nat) : Bool := decide ((s.tin n i).wire.length < 2)

/-- A flit goes onto the link into input `i` of `n`. -/
def State.sendFlit (s : State) (n i : Nat) (f : TFlit) : State :=
  let x := s.tin n i
  s.setTin n i { x.request with wire := x.wire ++ [f] }

/-! ## Records from bridges (R308, R315) -/

/-- Tensor records go on to the link into their port while it has room. -/
def State.bridgeFeedFrom (s : State) (b g n i : Nat) : Nat → State
  | 0 => s
  | k + 1 =>
    match (s.bgroup b g).recs with
    | [] => s
    | r :: rest =>
      if s.linkRoom n i then ((s.sendFlit n i (flitOfRecord r)).bridgeFree b g rest).bridgeFeedFrom b g n i k else s

/-- The records of tensor group `g` that its port has room for go on to it. -/
def State.bridgeFeed (s : State) (b g : Nat) : State :=
  if s.frozen then s
  else match s.cfg.groupPort b g with
    | some (n, i) => (s.bridgeFeedFrom b g n i 2).bridgeTell b g
    | none => s

/-- The link into input `i` of `n` has given up a flit: a group that feeds it may follow with the next. -/
def State.refillFromBridge (s : State) (n i : Nat) : State :=
  match s.cfg.tensorGroup n i with
  | some (b, g) => if (s.bgroup b g).recs.isEmpty then s else s.bridgeFeed b g
  | none => s

/-- The node's join records swap when every operand input of every live join presents a marker. -/
def State.swapNode (s : State) (n : Nat) : State :=
  let x := s.node n
  if s.rd (.rnSwapped n) = 1 ∨ x.stuck ∨ x.latch.isSome then s
  else
    let js := s.joinList n
    let ready := js.all (fun r => (joinOps r).all (fun k => s.marks n (joinSrc r k)))
    if ready ∧ x.ops.isEmpty ∧ (js = [] ∨ s.swapT n ≤ x.periods) then
      ((s.setNode n { TNode.zero with store := x.store }).wr (.rnSwapped n) 1).feedNodes n
    else s

/-- The list stands at the boundary of a period: it has passed nothing of the next, though it may have gone past LOOP and CTRL
entries at its head (R125, R144). -/
def TOut.atBoundary (l : List (BitVec 32)) (x : TOut) : Bool := x.count == 0 && (l.take x.entry).all (fun e => !isPass e)

/-- An output swaps: at once when its live list is empty, else after its T-th period, with a marker at every input its
list names. A mesh output sends a marker on; one that a bridge carries sends it as a record, unless neither bank uses it
(R328). -/
def State.swapOut (s : State) (n o : Nat) : State :=
  let x := s.tout n o
  let l := s.outList n o
  let due := l.isEmpty || (decide (s.swapT n ≤ x.periods) && x.atBoundary l &&
    (List.range 6).all (fun i => !namesSrc l i || s.marks n i) && (!namesSrc l 6 || s.rd (.rnSwapped n) == 1))
  if s.rd (.outSwapped n o) = 1 ∨ x.stuck ∨ !due then s
  else
    let done := fun (a : State) => (a.setTout n o TOut.zero).wr (.outSwapped n o) 1
    match s.cfg.tensorGroup n o, s.wardOf n with
    | some (b, g), some w =>
      if l.isEmpty && ((s.bank n (s.stagedSel n)).outs.getD o []).isEmpty then done s
      else if s.groupRoom b g then (done s).bridgeRecord b g (s.swapMarker w).record else s
    | _, _ =>
      if 4 ≤ o then done s
      else match s.wardNeighbour n o, s.wardOf n with
        | some m, some w =>
          if s.linkRoom m (facing o) then (done s).sendFlit m (facing o) (s.swapMarker w) else s
        | _, _ => done s

/-- The input's live list takes a marker only from a neighbour of the ward, or from its own ingress (R144). -/
def State.expectsMarker (s : State) (n i : Nat) : Bool :=
  if (s.cfg.tensorGroup n i).isSome then
    !(s.inList n i).isEmpty || !((s.bank n (s.stagedSel n)).ins.getD i []).isEmpty
  else if i < 4 then (s.wardNeighbour n i).isSome
  else !(s.inList n i).isEmpty

/-- An intake list swaps, its marker being consumed, once every taker of the input has swapped; an empty list to which no
marker is sent swaps at once. -/
def State.swapIn (s : State) (n i : Nat) : State :=
  let x := s.tin n i
  if s.rd (.inSwapped n i) = 1 ∨ x.stuck then s
  else
    let live := s.rd (.liveSel n)
    let b := s.bank n live
    let free := (List.range 6).all (fun o => !namesSrc (b.outs.getD o []) i || s.rd (.outSwapped n o) == 1) &&
      (!joinsTake b.joins i || s.rd (.rnSwapped n) == 1)
    let go := if s.expectsMarker n i then s.marks n i && free else (s.inList n i).isEmpty
    if go then
      let s1 := (s.setTin n i { TIn.zero with wire := x.wire, req := x.req, ack := x.ack }).wr (.inSwapped n i) 1
      if 4 ≤ i then s1.setIng n i { Ingress.zero with discard := (s.ing n i).discard } else s1
    else s

/-- Every list of `n` that can swap does (R144). -/
def State.swapTry (s : State) (n : Nat) : State :=
  if !s.swapGo n then s
  else
    let s1 := s.swapNode n
    let s2 := (List.range 6).foldl (fun a o => a.swapOut n o) s1
    (List.range 6).foldl (fun a i => a.swapIn n i) s2

/-- Room has come on the link into mesh input `i` of `n`: the neighbour's marker, held back by a full link, may follow. -/
def State.swapBehind (s : State) (n i : Nat) : State :=
  if i < 4 then
    match s.cfg.neighbour n i with
    | some m => if s.tMoves m then s.swapTry m else s
    | none => s
  else s

/-- Every list and the node of `n` have swapped. -/
def State.swapped (s : State) (n : Nat) : Bool := s.rd (.swapBits n) == 8191

/-! ## LOAD_STATUS (R153, R155) -/

/-- LOAD_STATUS of ward `w` leaves SWAPPING short of its end: what has swapped keeps its bank, and the bits of the swap
clear (R145, R149, R155). -/
def State.leaveSwap (s : State) (w : BitVec 4) : State :=
  if s.rd (.ldState w.toNat) ≠ 5 then s
  else (s.wardJunctions w).foldl (fun (a : State) n =>
    let bits := a.rd (.swapBits n)
    let b := if bits = 8191 then a.wr (.liveSel n) ((a.rd (.liveSel n) + 1) % 2) else a
    let c : State := { b with ten := { b.ten with kept := Tbl.set 0 b.ten.kept n (if bits = 8191 then 8192 else bits) } }
    c.wr (.swapBits n) 0) s

end Sys2Proof.Machine
end

