-- ==== Sys2Proof/Machine/Taps.lean ====
section
/-! DEFINITION. The tensor watch taps: what a tap makes of the flits that pass its output (R187 to R195). -/

namespace Sys2Proof.Machine

def tapEnable (c : BitVec 32) : Bool := c.getLsbD 31
def tapOnce (c : BitVec 32) : Bool := c.getLsbD 30
def tapAny (c : BitVec 32) : Bool := c.getLsbD 29
def tapOutput (c : BitVec 32) : Nat := (c.extractLsb' 26 3).toNat
def tapFlow (c : BitVec 32) : Nat := (c.extractLsb' 14 12).toNat
def tapFmt (c : BitVec 32) : Nat := (c.extractLsb' 8 6).toNat
def tapSlot (c : BitVec 32) : Nat := (c.extractLsb' 0 8).toNat

def State.tapCtrl (s : State) (n : Nat) : BitVec 32 := BitVec.ofNat 32 (s.obj (Obj.tapCtrl n)).toNat

/-- The values a tap decodes from a payload; none for FMT 0 and TALLY (R188). DESIGN CHOICE (log entry 125): codes that the spec reserves
are decoded as written here. -/
def tapValues (fmt slot : Nat) (p : BitVec 4096) : List FVal :=
  if fmt = 0 ∨ fmt = 0x0C then []
  else if Fmt.isMx fmt then (List.range (Fmt.mxBlocks fmt)).flatMap (mxBlock fmt p)
  else if slot = 0 then []
  else (slots slot p).map (fun x =>
    let v := x % 2 ^ Fmt.bits fmt
    if Fmt.isFloat fmt then fDecode fmt v
    else match (if Fmt.isGrid fmt then gridOfCode (Fmt.gridWidth fmt) v else some (BitVec.ofNat 32 v).toInt) with
      | some i => .fin (decide (i < 0)) i.natAbs 0
      | none => .nan)

/-- The smaller, or the larger, of a finite value and the one held, as binary64. DESIGN CHOICE (log entry 124): of equal values, −0 and
+0 among them, the one met first stays. -/
def tapPick (most : Bool) (h : Option (BitVec 64)) (x : BitVec 64) : Option (BitVec 64) :=
  match h with
  | none => some x
  | some y => some (if (if most then decide (f64Value y < f64Value x) else decide (f64Value x < f64Value y)) then x else y)

/-- One element enters the statistics (R188). -/
def TapRun.element (r : TapRun) (v : FVal) : TapRun :=
  match v with
  | .nan => { r with count := r.count + 1, nan := r.nan + 1 }
  | .inf _ => { r with count := r.count + 1, inf := r.inf + 1 }
  | .fin _ m _ =>
    let x := v.toF64
    { r with count := r.count + 1, zero := if m = 0 then r.zero + 1 else r.zero
             sum := f64Add r.sum x, sumsq := f64Add r.sumsq (f64Square x)
             min_ := tapPick false r.min_ x, max_ := tapPick true r.max_ x }

/-- Elements of a flit that take part in no statistic: entries of a tally run, bytes for FMT 0 (R188, R194). -/
def TapRun.plainCount (r : TapRun) (tally : Bool) : Nat :=
  if tally then 64
  else if tapFmt r.ctrl = 0 then 512
  else if tapFmt r.ctrl = 0x0C ∧ tapSlot r.ctrl ≠ 0 then 4096 / tapSlot r.ctrl
  else 0

/-- A flit of the run passes the tapped output. -/
def TapRun.see (r : TapRun) (f : TFlit) : TapRun :=
  let tally := f.kind == 1
  let vs := if tally then [] else tapValues (tapFmt r.ctrl) (tapSlot r.ctrl) f.payload
  let r1 := vs.foldl TapRun.element { r with count := r.count + r.plainCount tally }
  { r1 with flags := r1.flags ||| BitVec.ofNat 8 (f.frame.toNat / 4 % 16 + (if tally then 16 else 0))
            digest := crc64Reg r1.digest (leBytes 512 f.payload.toNat) }

/-- binary64 of MIN or MAX when the run held no finite value (R188), and zero for a tally run. DESIGN CHOICE
(log entry 124): also zero for FMT 0, which decodes no element. -/
def tapBound (r : TapRun) (h : Option (BitVec 64)) : Nat :=
  if r.flags.getLsbD 4 ∨ tapFmt r.ctrl = 0 then 0
  else match h with
    | some x => x.toNat
    | none => 0x7FF8000000000000

/-- TAP_RESULT (R195). -/
def TapRun.record (r : TapRun) (seen : BitVec 32) (now : Nat) : List Byte :=
  leBytes 4 seen.toNat ++ leBytes 2 r.flow.toNat ++ [r.flags ||| 0x80, 0] ++ leBytes 8 r.count ++
  leBytes 8 r.sum.toNat ++ leBytes 8 r.sumsq.toNat ++ leBytes 8 (tapBound r r.min_) ++ leBytes 8 (tapBound r r.max_) ++
  leBytes 4 r.nan ++ leBytes 4 r.inf ++ leBytes 4 r.zero ++ leBytes 4 0 ++ leBytes 8 r.digest.toNat ++ leBytes 8 now

def State.tap (s : State) (n : Nat) : TapState := Tbl.get TapState.zero s.ten.taps n

def State.setTap (s : State) (n : Nat) (x : TapState) : State :=
  { s with ten := { s.ten with taps := Tbl.set TapState.zero s.ten.taps n x } }

/-- The run a flit of `flow` belongs to at point `o` of `n`, when the tap follows it: it begins with the set-up that
stands at the run's FIRST flit (R187). -/
def State.tapRunFor (s : State) (n o flow : Nat) (f : TFlit) : Option TapRun :=
  let c := s.tapCtrl n
  if f.first then
    if tapEnable c && tapOutput c == o && (tapAny c || tapFlow c == flow) then
      some ⟨c, BitVec.ofNat 12 flow, 0, 0, 0, 0, none, none, 0, 0, 0, 0⟩
    else none
  else Tbl.get none (s.tap n).runs (4096 * o + flow)

/-- A flit of `flow` passes point `o` of `n`: output 0 to 5, or 6 the node's output (R187 to R190). A FIRST that the tap does not
follow ends what it held of an earlier run of that flow. DESIGN CHOICE (log entry 123): the end of a run begun under ONCE clears ENABLE
whatever TAP_CTRL says by then, and with ANY_FLOW runs already under way are still summarised. -/
def State.tapSee (s : State) (n o flow : Nat) (f : TFlit) : State :=
  match s.tapRunFor n o flow f with
  | none => if f.first then s.setTap n { s.tap n with runs := Tbl.set none (s.tap n).runs (4096 * o + flow) none } else s
  | some r =>
    let r1 := r.see f
    let t := s.tap n
    if f.last then
      let seen := t.seen + 1
      let s1 := (s.setTap n ⟨Tbl.set none t.runs (4096 * o + flow) none, seen⟩).setDom (Obj.tapResult n) (r1.record seen s.now)
      if tapOnce r.ctrl then s1.wr ⟨Obj.tapCtrl n, 31, 1⟩ 0 else s1
    else s.setTap n { t with runs := Tbl.set none t.runs (4096 * o + flow) (some r1) }

end Sys2Proof.Machine
end

