-- ==== Sys2Proof/Machine/Reduction.lean ====
section
/-! DEFINITION. The reduction node: what a join makes of its operands, and the capture of tallies (R159 to R186). -/

namespace Sys2Proof.Machine

/-! ## One element (R169 to R171, R176, R179 to R182) -/

/-- An output element: its code, whether an INT32 sum saturated, how many addends violate the tally, and whether the flit
is in error for it. -/
structure JElem where
  code : Nat
  sat : Bool
  viol : Nat
  err : Bool
  deriving DecidableEq, Repr

def JElem.plain (code : Nat) : JElem := ⟨code, false, 0, false⟩

/-- An INT32 sum, saturated (R171). -/
def int32Sum (xs : List Nat) : JElem :=
  let v := (xs.map (fun x => (BitVec.ofNat 32 x).toInt)).sum
  let c := max (-2147483648) (min 2147483647 v)
  ⟨(BitVec.ofInt 32 c).toNat, decide (c ≠ v), 0, false⟩

/-- An addend of a grid join: a grid integer, or a floating-point element placed on the block's grid (R179, R180). -/
def gridAddend (t : TallyEntry) (w fmt code : Nat) : Option Int :=
  if Fmt.isGrid fmt then gridOfCode w code
  else if t.special then none
  else gridPlace t w (fDecode fmt code)

/-- A grid join's element (R180 to R182). -/
def gridElem (t : TallyEntry) (w outFmt : Nat) (xs : List (Nat × Nat)) : JElem :=
  let total := gridSum (xs.map (fun p => gridAddend t w p.1 p.2))
  let code := if Fmt.isGrid outFmt then gridCode w total else fEncode outFmt false (gridValue t w total)
  let viol := (xs.filter (fun p => !Fmt.isGrid p.1 && gridViolates t (fDecode p.1 p.2))).length
  ⟨code, false, viol, decide (0 < viol)⟩

/-- An ADD of floating-point elements in ORDERED mode (R169). -/
def floatElem (outFmt : Nat) (xs : List (Nat × Nat)) : JElem :=
  .plain (match f32Sum (xs.map (fun p => fToF32 (fDecode p.1 p.2))) with
    | some w => fEncode outFmt false (fDecode 1 w.toNat)
    | none => Fmt.nanCode outFmt)

/-- MAX or MIN of elements of one format (R170). -/
def extremeElem (most : Bool) (fmt : Nat) (xs : List Nat) : JElem :=
  if fmt = 9 then .plain (pickBy (fun x => (BitVec.ofNat 32 x).toInt) most xs)
  else if xs.any (fun x => fDecode fmt x == .nan) then .plain (Fmt.nanCode fmt)
  else .plain (pickBy (fOrder fmt) most xs)

/-- A tally entry of a TALLY join (R176). -/
def tallyElem (xs : List Nat) : JElem :=
  let r := tallyJoin (xs.map (fun x => TallyEntry.ofWord (BitVec.ofNat 64 x)))
  ⟨r.1.word.toNat, false, 0, r.2⟩

/-- The element of join `r` from its operands' slots, under the tally entry `t` of its block. -/
def joinElem (r : List Byte) (t : TallyEntry) (xs : List Nat) : JElem :=
  let fx := xs.zipIdx.map (fun p => (joinFmt r p.2, p.1 % 2 ^ Fmt.bits (joinFmt r p.2)))
  if joinOp r = 3 then tallyElem xs
  else if joinOp r = 1 ∨ joinOp r = 2 then extremeElem (joinOp r == 1) (joinFmt r 0) (fx.map (·.2))
  else if joinMode r = 1 then gridElem t 64 (joinOutFmt r) fx
  else if joinMode r = 2 then gridElem t 32 (joinOutFmt r) fx
  else if joinOutFmt r = 9 then int32Sum (fx.map (·.2))
  else floatElem (joinOutFmt r) fx

/-- An element's code is its format's canonical NaN or marker (R161). -/
def isNanCode (fmt code : Nat) : Bool :=
  if Fmt.isFloat fmt then code == Fmt.nanCode fmt
  else if Fmt.isGrid fmt then code == 2 ^ (Fmt.gridWidth fmt - 1)
  else false

/-- A join's output payload, and whether a NaN, a saturation or an error came with it, and the violations. -/
structure JFlit where
  payload : BitVec 4096
  nan : Bool
  sat : Bool
  viol : Nat
  err : Bool
  deriving DecidableEq, Repr

/-- Flit `k` of a join in slots (R160, R165). -/
def joinSlots (r : List Byte) (entry : Nat → TallyEntry) (k : Nat) (ps : List (BitVec 4096)) : JFlit :=
  let w := joinBits r
  let cols := ps.map (slots w)
  let per := 4096 / w
  let es := (List.range per).map (fun i =>
    joinElem r (entry ((k * per + i) / 1024)) (cols.map (fun c => c.getD i 0)))
  ⟨packSlots w (es.map JElem.code), es.any (fun e => isNanCode (joinOutFmt r) e.code), es.any JElem.sat,
    (es.map JElem.viol).sum, es.any JElem.err⟩

/-- One value of an MX join: a NaN where R169 or R170 gives the canonical NaN. -/
def mxElem (op : Nat) (vs : List FVal) : FVal :=
  let ws := vs.map fToF32
  if op = 0 then
    match f32Sum ws with
    | some w => fDecode 1 w.toNat
    | none => .nan
  else if vs.any (fun v => v == .nan) then .nan
  else fDecode 1 (pickBy (fOrder 1) (op == 1) (ws.map BitVec.toNat))

/-- A flit of a join of packed MX blocks (R172). -/
def joinMx (r : List Byte) (ps : List (BitVec 4096)) : JFlit :=
  let f := joinOutFmt r
  let blocks := (List.range (Fmt.mxBlocks f)).map (fun b =>
    let vals := ps.map (fun p => mxBlock f p b)
    mxEncode f ((List.range 32).map (fun e => mxElem (joinOp r) (vals.map (fun v => v.getD e .nan)))))
  ⟨mxPack f blocks, blocks.any (fun b => b.1 == 0xFF), false, 0, false⟩

def joinFlit (r : List Byte) (entry : Nat → TallyEntry) (k : Nat) (ps : List (BitVec 4096)) : JFlit :=
  if joinBits r = 0 then joinMx r ps else joinSlots r entry k ps

/-! ## The node (R159 to R162, R184, R185) -/

def Fld.rnResidue (n : Nat) : Fld := ⟨Obj.rnStatus n, 24, 8⟩
def Fld.rnViol (n : Nat) : Fld := ⟨Obj.rnStatus n, 16, 8⟩
def Fld.rnShort (n : Nat) : Fld := ⟨Obj.rnStatus n, 8, 8⟩

/-- RUNS of a join per period: the runs its first operand's intake list takes of that flow (R115, R159). -/
def State.joinRuns (s : State) (n : Nat) (r : List Byte) : Nat :=
  (((s.inList n (joinSrc r 0)).filter (fun e => inFlow e == joinFlow r 0)).map inRuns).sum

/-- The operand flits of a join, when every one stands in its operand latch (R96, R160). -/
def State.operandFlits (s : State) (n : Nat) (r : List Byte) : Option (List TFlit) :=
  (joinOps r).mapM (fun k => s.opFlit n (joinSrc r k) (joinFlow r k))

/-- RUN_FLITS of the run of a join's first operand. -/
def State.joinFlits (s : State) (n : Nat) (r : List Byte) : Nat := ((s.opLatch n (joinSrc r 0)).map (·.flits)).getD 0

def State.cap (s : State) (n slot : Nat) : TCap := Tbl.get TCap.zero (s.node n).caps slot

def State.setCap (s : State) (n slot : Nat) (c : TCap) : State :=
  let x := s.node n
  s.setNode n { x with caps := Tbl.set TCap.zero x.caps slot c }

/-- The tally entry of block `b` of join `r`. -/
def State.tallyEntry (s : State) (n : Nat) (r : List Byte) (b : Nat) : TallyEntry :=
  TallyEntry.ofWord (Tbl.get 0 (s.node n).store (joinBase r + b))

/-- Some tally-store word that flit `k` of the join reads is uncorrectable (R185). -/
def State.tallyBad (s : State) (n : Nat) (r : List Byte) (k : Nat) : Bool :=
  joinTallied r && joinBits r != 0 && (List.range (4096 / joinBits r)).any (fun i =>
    (s.node n).badStore.contains (joinBase r + (k * (4096 / joinBits r) + i) / 1024))

/-- The check of operand `k` fails at flit `pos`: its sequence, or at its last flit its outer code (R184). -/
def State.operandFails (s : State) (n : Nat) (r : List Byte) (pos k : Nat) (f : TFlit) : Bool :=
  let crc := crcFlit ((s.node n).opCrc.getD k 0xFFFFFFFF) f.payload
  if f.last then s.injectedAt 0x02 n 6 k || f.run != outerOf crc (joinFlow r k) (pos + 1)
  else f.seq != pos

/-- The operand latches give up their flits, and take the next. -/
def State.takeOperands (s : State) (n : Nat) (r : List Byte) : State :=
  (joinOps r).foldl (fun a k => a.emptyOp n (joinSrc r k)) s

/-- The operand inputs whose runs are still to be discarded after a short run (R162). -/
def drainList (r : List Byte) (fs : List TFlit) : List Nat :=
  (fs.zipIdx.filter (fun p => !p.1.last)).map (fun p => joinSrc r p.2)

/-- The node's place after flit `k` of a run of `flits`: the next flit, the next run, the next record, or the next
period. -/
def TNode.forward (x : TNode) (last : Bool) (runs joins : Nat) : TNode :=
  if !last then { x with flit := x.flit + 1 }
  else
    let y := { x with flit := 0, err := false, crc := 0xFFFFFFFF, opCrc := [] }
    if x.run + 1 < runs then { y with run := x.run + 1 }
    else if x.join + 1 < joins then { y with run := 0, join := x.join + 1 }
    else { y with run := 0, join := 0, periods := x.periods + 1 }

/-- The node halts at a join record it cannot read (R128, R185). -/
def State.haltNode (s : State) (n : Nat) (injected : Bool) : State :=
  (((s.setNode n { s.node n with stuck := true }).wr (.halted n) 1).storeRaise 0x047 n 6 1 (s.wardOf n) injected).rowBad n 1
    (.join n (s.rnSel n == 1) (((s.joinList n)[(s.node n).join]?.map joinSlot).getD 0))

/-- The read of the join record at the head of a run, and of the tally words behind a flit: an armed store injection
meets them (R498). -/
def State.joinReads (s : State) (n : Nat) : State := s.storeRead n 1 64 7 []

/-- What an operand's check, a tally violation or a residue does beside the flit (R182, R185). -/
def State.joinFaults (s : State) (n flow : Nat) (short : Bool) (viol : Nat) (residue : Option (BitVec 3)) (injected : Bool) : State :=
  let w := s.wardOf n
  let s1 := if short then (s.bump (.rnShort n) 1).raise (Cause.atUnit 0x049 w n 6 0x3F flow) else s
  let s2 := (List.range viol).foldl (fun (a : State) _ =>
    (a.bump (.rnViol n) 1).raise (Cause.atUnit 0x04A w n 6 0x3F flow)) s1
  let s3 := if residue.isSome || injected then (s2.bump (.rnResidue n) 1).raise ⟨0x04B, w, n, 6, 0x3F, flow, injected⟩ else s2
  match residue with
  | some lane => s3.noteResidue n lane.toNat
  | none => s3

/-- The node's latch takes an output flit of join `r`, which is the run's `k`-th (R160, R161). -/
def State.latchJoin (s : State) (n : Nat) (r : List Byte) (j : JFlit) (fs : List TFlit) (err last : Bool) : State :=
  let x := s.node n
  let k := x.flit
  let crc := crcFlit x.crc j.payload
  let flags := (if j.nan then 1 else 0) + (if j.sat || fs.any (fun f => f.frame.getLsbD 4) then 2 else 0) +
    (if fs.any (fun f => f.frame.getLsbD 5) then 4 else 0)
  let f : TFlit := ⟨j.payload, frameOf (if joinOp r = 3 then 1 else 0) flags err last (k == 0),
    runField last (joinOut r) k crc⟩
  let y := { x with latch := some f, latchFlow := joinOut r, latchPos := k, latchRun := s.joinFlits n r
                    done := 0, err := err, crc := crc
                    opCrc := fs.zipIdx.map (fun p => crcFlit (x.opCrc.getD p.2 0xFFFFFFFF) p.1.payload) }
  ((s.setNode n y).tapSee n 6 (joinOut r) f).countEv (0x10 + joinOutFmt r) n (s.wardOf n) 1

/-- The place moves on, and with a run's end its tally is spent (R178). -/
def State.joinForward (s : State) (n : Nat) (r : List Byte) (last : Bool) : State :=
  let runs := s.joinRuns n r
  let s1 := s.setNode n ((s.node n).forward last runs (s.joinList n).length)
  if last && joinTallied r then s1.setCap n (joinSlot r) { s.cap n (joinSlot r) with full := false, err := false } else s1

/-- The join of flits `fs` at the node's present place (R160 to R162). -/
def State.joinAt (s : State) (n : Nat) (r : List Byte) (fs : List TFlit) (residue : Option (BitVec 3)) : State :=
  let x := s.node n
  let k := x.flit
  let flits := s.joinFlits n r
  let short := decide (k + 1 < flits) && fs.any TFlit.last
  let last := short || decide (flits ≤ k + 1)
  let inj := s.injectedAt 0x03 n 6 0x3F
  let opInj := (List.range 3).any (fun i => s.injectedAt 0x02 n 6 i && last)
  let badWord := joinTallied r && ((s.storeInjected n 1 && (s.storeDecode n 1 64 7 []).bad) || s.tallyBad n r k)
  let j := joinFlit r (s.tallyEntry n r) k (fs.map TFlit.payload)
  let err := x.err || short || fs.any TFlit.err || j.err || residue.isSome || inj || badWord ||
    (k == 0 && joinTallied r && (s.cap n (joinSlot r)).err) || fs.zipIdx.any (fun p => s.operandFails n r k p.2 p.1)
  let s1 := if joinTallied r then s.joinReads n else s
  let s2 := if inj || opInj then s1.injectFired else s1
  let s3 := if badWord then s2.storeRaise 0x04C n 6 1 (s.wardOf n) (s.storeInjected n 1) else s2
  let s4 := (s3.joinFaults n (joinOut r) short j.viol residue inj).latchJoin n r j fs err last
  let s5 := if short then s4.setNode n { s4.node n with drain := (s4.node n).drain ++ drainList r fs } else s4
  let s6 := if k = 0 then s5.laneTurn n else s5
  (((s6.joinForward n r last).takeOperands n r).settleNode n).swapTry n

/-- The node stands at the period's end and waits for its markers (R144). -/
def State.nodeWaits (s : State) (n : Nat) : Bool :=
  let x := s.node n
  s.swapGo n && s.rd (.rnSwapped n) == 0 && decide (s.swapT n ≤ x.periods) && x.join == 0 && x.run == 0 && x.flit == 0

/-- REDUCTION_JOIN_FLIT: with flit k of every operand present and the latch free, the node combines them. `residueBad` names
the lane in which a residue check or a duplicate compare fails, if one does (R185). -/
def Reduction.step (n : Nat) (residueBad : Option (BitVec 3)) (s : State) : State :=
  let x := s.node n
  if !s.tMoves n ∨ x.stuck ∨ x.latch.isSome ∨ s.nodeWaits n then s
  else match (s.joinList n)[x.join]? with
    | none => s
    | some r =>
      if joinTallied r && !(s.cap n (joinSlot r)).full then s
      else match s.operandFlits n r with
        | none => s
        | some fs =>
          if x.flit = 0 ∧ !joinTallied r ∧ s.storeInjected n 1 then
            if (s.storeDecode n 1 64 7 []).bad then (s.joinReads n).haltNode n true
            else ((s.joinReads n).joinAt n r fs residueBad).touch n
          else (s.joinAt n r fs residueBad).touch n

def execReductionJoinFlit (n : Nat) (residueBad : Option (BitVec 3)) (s : State) : Host.Outcome State Fault Refusal :=
  .next (Reduction.step n residueBad s)

/-! ## Capture of tallies (R177, R178) -/

/-- The live joins whose TALLY_IN is the flow from the source. -/
def State.tallyJoins (s : State) (n src flow : Nat) : List (List Byte) :=
  (s.joinList n).filter (fun r => joinTallied r && joinTallySrc r == src && joinTallyFlow r == flow)

/-- The first tally flit that stands in an operand latch, or that the node presents, and whose joins can all capture it: its source, flow and flit. -/
def State.tallyFlit (s : State) (n : Nat) : Option (Nat × Nat × TFlit) :=
  (s.joinList n).findSome? (fun r =>
    if !joinTallied r then none
    else
      let src := joinTallySrc r
      let flow := joinTallyFlow r
      let f := if src = 6 then s.nodePresents n 7 flow
        else s.opFlit n src flow
      match f with
      | some g => if (s.tallyJoins n src flow).all (fun q => !(s.cap n (joinSlot q)).full) then some (src, flow, g) else none
      | none => none)

/-- Join `r` captures a flit: its entries enter the tally store, and its check goes on (R177, R184). DESIGN CHOICE (log entry 122): a
flit that merely carries ERROR also counts as a failed check. -/
def State.captureInto (s : State) (n flow : Nat) (r : List Byte) (f : TFlit) : State :=
  let x := s.node n
  let c := s.cap n (joinSlot r)
  let crc := crcFlit c.crc f.payload
  let store := (List.range 64).foldl (fun st m =>
    if 64 * c.flits + m < joinBlocks r then
      Tbl.set 0 st (joinBase r + 64 * c.flits + m) (f.payload.extractLsb' (64 * m) 64) else st) x.store
  let bad := c.bad || f.err || (if f.last then f.run != outerOf crc flow (c.flits + 1) else f.seq != c.flits)
  let c' : TCap := if f.last then { TCap.zero with full := true, err := bad } else { c with flits := c.flits + 1, crc := crc, bad := bad }
  s.setNode n { x with store := store, caps := Tbl.set TCap.zero x.caps (joinSlot r) c'
                       badStore := x.badStore.filter (fun e => !(decide (joinBase r + 64 * c.flits ≤ e) && decide (e < joinBase r + 64 * c.flits + 64))) }

/-- TALLY_CAPTURE_FLIT: a flit of a TALLY_IN run is captured, whenever it is presented (R177). -/
def Reduction.capture (n : Nat) (s : State) : State :=
  if !s.tMoves n ∨ (s.node n).stuck then s
  else match s.tallyFlit n with
    | none => s
    | some (src, flow, f) =>
      let s1 := (s.tallyJoins n src flow).foldl (fun a r => a.captureInto n flow r f) s
      ((if src = 6 then s1.takeNode n 7 else s1.emptyOp n src).swapTry n).touch n

def execTallyCaptureFlit (n : Nat) (s : State) : Host.Outcome State Fault Refusal := .next (Reduction.capture n s)

end Sys2Proof.Machine
end

