-- ==== Sys2Proof/Machine/CollMath.lean ====
section
/-! DEFINITION. Collectives as arithmetic: groups, trees, tally heads and entries, narrowing, combination and conversion
(R367, R368, R375, R380 to R384, R388, R389). -/

namespace Sys2Proof.Machine

/-! ## Groups (R367, R368, R403) -/

/-- The extents of HALL_TOPO, axis 0 first. -/
def hallExtents (v : Val) : List Nat := (List.range 4).map (fun i => fget v (16 * i) 16)

/-- The coordinates of a package. -/
def hallCoords : List Nat → Nat → List Nat
  | [], _ => []
  | e :: t, p => p % e :: hallCoords t (p / e)

/-- The package at given coordinates. -/
def hallPackage : List Nat → List Nat → Nat
  | e :: t, x :: r => x + e * hallPackage t r
  | _, _ => 0

/-- All choices of one coordinate from each list, the first axis varying fastest. -/
def hallBox : List (List Nat) → List (List Nat)
  | [] => [[]]
  | l :: t => (hallBox t).flatMap (fun r => l.map (fun x => x :: r))

def grpValid (v : Val) : Bool := fget v 63 1 == 1
def grpAxis (v : Val) : Bool := fget v 62 1 == 1
def grpWard (v : Val) : Nat := fget v 58 4
def grpDie (v : Val) : Nat := fget v 52 6
def grpGate (v : Val) : Nat := fget v 48 4
def grpCorner0 (v : Val) : Nat := fget v 36 12
def grpCorner1 (v : Val) : Nat := fget v 24 12
def grpSwEn (v : Val) : Bool := fget v 23 1 == 1
def grpSwTag (v : Val) : Nat := fget v 11 12

/-- The coordinates that a group's members take on each axis. -/
def grpAxes (es : List Nat) (v : Val) (own : Nat) : List (List Nat) :=
  let c0 := hallCoords es (grpCorner0 v)
  let c1 := hallCoords es (grpCorner1 v)
  (es.zip (hallCoords es own)).zipIdx.map (fun p =>
    if grpAxis v then (if grpCorner0 v / 2 ^ p.2 % 2 = 1 then List.range p.1.1 else [p.1.2])
    else
      let a := c0.getD p.2 0
      let b := c1.getD p.2 0
      (List.range (max a b + 1 - min a b)).map (· + min a b))

/-- The packages of a group in the order of their ranks, as seen from package `own`. -/
def grpPackages (es : List Nat) (v : Val) (own : Nat) : List Nat := (hallBox (grpAxes es v own)).map (hallPackage es)

/-- The members of a group: gate GATE of die DIE in each package. -/
def grpMembers (es : List Nat) (v : Val) (own : Nat) : List (BitVec 22) :=
  (grpPackages es v own).map (fun p => BitVec.ofNat 22 (p * 1024 + grpDie v * 16 + grpGate v))

/-- A package lies in the hall. -/
def inHall (es : List Nat) (p : Nat) : Bool := decide (p < es.foldl (· * ·) 1)

/-! ## The two trees (R375) -/

/-- The position of a rank in tree A, or in tree B. -/
def treePos (b : Bool) (n r : Nat) : Nat := if b then (r + 1) % n + 1 else r + 1

/-- The rank at a position. -/
def treeRank (b : Bool) (n p : Nat) : Nat := if b then (p + n - 2) % n else p - 1

def treeTop (n : Nat) : Nat := 2 ^ Nat.log2 n

/-- Trailing zero bits of a position. -/
def trailZeros : Nat → Nat → Nat
  | 0, _ => 0
  | f + 1, u => if u % 2 = 1 then 0 else trailZeros f (u / 2) + 1

/-- The parent of a position that is not the root. -/
def treeUp (n : Nat) : Nat → Nat → Nat
  | 0, _ => treeTop n
  | f + 1, u =>
    let l := trailZeros 13 u
    let cand := if u / 2 ^ l % 4 = 1 then u + 2 ^ l else u - 2 ^ l
    if cand ≤ n then cand else treeUp n f cand

def treeRoot (b : Bool) (n : Nat) : Nat := treeRank b n (treeTop n)

def treeParent (b : Bool) (n r : Nat) : Option Nat :=
  if treePos b n r = treeTop n then none else some (treeRank b n (treeUp n 13 (treePos b n r)))

/-- The children of a rank, in ascending order. -/
def treeChildren (b : Bool) (n r : Nat) : List Nat := (List.range n).filter (fun x => treeParent b n x == some r)

/-! ## Tally entries and heads (R381, R389) -/

/-- A member's own entry for a block. -/
def HEntry.ofTop (t : Option Int) (special : Bool) : HEntry := ⟨t, t, special⟩

def optMax : Option Int → Option Int → Option Int
  | some a, some b => some (max a b)
  | some a, none => some a
  | none, b => b

def optMin : Option Int → Option Int → Option Int
  | some a, some b => some (min a b)
  | some a, none => some a
  | none, b => b

def HEntry.join (a b : HEntry) : HEntry := ⟨optMax a.top b.top, optMin a.low b.low, a.special || b.special⟩

def word16 (v : Int) : Nat := (BitVec.ofInt 16 v).toNat

def HEntry.word (e : HEntry) : Nat :=
  (match e.low with
    | some v => word16 v
    | none => 0x7FFF) * 2 ^ 48 +
  (match e.top with
    | some v => word16 v
    | none => 0x8000) * 2 ^ 32 + (if e.special then 2 ^ 31 else 0)

def HEntry.ofWord (x : Nat) : HEntry :=
  let low := x / 2 ^ 48 % 2 ^ 16
  let top := x / 2 ^ 32 % 2 ^ 16
  ⟨if top = 0x8000 then none else some (BitVec.ofNat 16 top).toInt, if low = 0x7FFF then none else some (BitVec.ofNat 16 low).toInt,
    x / 2 ^ 31 % 2 == 1⟩

/-- The entry of an entry of R174: ETOP is EMAX + ceil(log2 MEMBERS) (R379). -/
def HEntry.ofTally (t : TallyEntry) : HEntry :=
  .ofTop (if t.none_ then none else some (t.emax + ceilLog2 t.members)) t.special

/-- The entry of a block of floating-point values (R379). -/
def HEntry.ofValues (vs : List FVal) : HEntry := .ofTop (vs.filterMap FVal.exponent).max? (vs.any FVal.special)

/-- Entries joined by block; a missing entry is an empty one. -/
def joinEntries : List HEntry → List HEntry → List HEntry
  | a :: s, b :: t => a.join b :: joinEntries s t
  | [], t => t
  | s, [] => s

/-- The 40 bytes of a head. -/
def THead.bytes (h : THead) : List Byte :=
  leBytes 4 h.countMax ++ leBytes 4 h.dropped ++ leBytes 4 h.limit ++ leBytes 2 h.members ++ leBytes 1 h.opcode ++ leBytes 1 h.redOp ++
    leBytes 4 h.cap ++ leBytes 1 h.swTries ++ leBytes 1 (if h.flag then 1 else 0) ++ leBytes 2 h.slowest ++ leBytes 4 h.maxLag ++
    leBytes 4 h.chunkBlocks ++ leBytes 1 h.inFmt ++ leBytes 1 h.outFmt ++ leBytes 2 h.rootRank ++ leBytes 4 0

def THead.ofBytes (b : List Byte) : THead where
  countMax := leAt b 0 4
  dropped := leAt b 4 4
  limit := leAt b 8 4
  members := leAt b 12 2
  opcode := leAt b 14 1
  redOp := leAt b 15 1
  cap := leAt b 16 4
  swTries := leAt b 20 1
  flag := leAt b 21 1 % 2 == 1
  slowest := leAt b 22 2
  maxLag := leAt b 24 4
  chunkBlocks := leAt b 28 4
  inFmt := leAt b 32 1
  outFmt := leAt b 33 1
  rootRank := leAt b 34 2

/-- The fields of which every member must give the same (R380). -/
def THead.agrees (a b : THead) : Bool :=
  a.opcode == b.opcode && a.redOp == b.redOp && a.cap == b.cap && a.swTries == b.swTries && a.inFmt == b.inFmt && a.outFmt == b.outFmt &&
    a.rootRank == b.rootRank

/-- A child's head combined into a node's. -/
def THead.join (a b : THead) : THead :=
  { a with countMax := max a.countMax b.countMax, dropped := (a.dropped + b.dropped) % 2 ^ 32, limit := min a.limit b.limit
           members := a.members + b.members, flag := a.flag && b.flag }

/-- C: the agreed capacity (R380). -/
def THead.capacity (h : THead) : Nat := min h.countMax h.cap

/-- Blocks of 1,024 elements that `c` elements take. -/
def blocksOf (c : Nat) : Nat := (c + 1023) / 1024

/-- The operation's tally carries entries: an ADD of ALL_REDUCE. -/
def THead.isAdd (h : THead) : Bool := h.opcode == 1 && h.redOp == 0

/-- Entries that come with a head. -/
def THead.entries (h : THead) : Nat := if h.isAdd then blocksOf h.capacity else 0

/-! ## Blocks (R382 to R384) -/

/-- E_hall of a block of `n` members. -/
def hallTop (n : Nat) (e : HEntry) : Int := e.top.getD 0 + ceilLog2 n

/-- The block is GRID32, and not BF16. -/
def blockIsGrid (n : Nat) (e : HEntry) : Bool :=
  match e.top, e.low with
  | some _, some l => decide (hallTop n e - 23 ≤ l)
  | _, _ => true

/-- The format in which a block of the operation travels. -/
def blockFmt (h : THead) (n : Nat) (e : HEntry) : Nat := if h.isAdd then (if blockIsGrid n e then Fmt.grid32 else Fmt.bf16) else h.inFmt

/-- The marker of a block's format: for a floating-point one the canonical NaN. -/
def blockMarker (fmt : Nat) : Nat := if fmt = Fmt.grid32 then 2 ^ 31 else Fmt.nanCode fmt

/-- A finite value on the hall's grid, its magnitude clamped (R382). -/
def hallPlace (n : Nat) (e : HEntry) (v : FVal) : Nat :=
  match v with
  | .fin neg m x =>
    let a := min (toUnits m x (hallTop n e - 30)) (2 ^ (31 - ceilLog2 n) - 1)
    gridCode 32 (some (if neg then -(a : Int) else a))
  | _ => 2 ^ 31

/-- One element of a contribution, narrowed once. -/
def narrow (n : Nat) (e : HEntry) (fmt : Nat) (v : FVal) : Nat := if fmt = Fmt.grid32 then hallPlace n e v else fEncode fmt false v

/-- The value of an element of the contribution: of GRID64, under the member's own ETOP. -/
def ownValue (inFmt : Nat) (own : HEntry) (code : Nat) : FVal :=
  if inFmt = Fmt.grid64 then
    match gridOfCode 64 code with
    | none => .nan
    | some v => .fin (decide (v < 0)) v.natAbs (own.top.getD 0 - 62)
  else fDecode inFmt code

/-- A member's block of an ADD: narrowed, padded with zeros to `len` elements; all marker where it is special or spoilt. -/
def addBlock (inFmt n len : Nat) (final own : HEntry) (spoilt : Bool) (codes : List Nat) : CBlock :=
  let fmt := if blockIsGrid n final then Fmt.grid32 else Fmt.bf16
  ⟨fmt, if final.special || spoilt then List.replicate len (blockMarker fmt)
    else (codes.take len).map (fun c => narrow n final fmt (ownValue inFmt own c)) ++ List.replicate (len - codes.length) 0⟩

/-- A member's block of MAX or MIN, which ends with its contribution. -/
def plainBlock (fmt len : Nat) (spoilt : Bool) (codes : List Nat) : CBlock :=
  ⟨fmt, (codes.take len).map (fun c => if spoilt then blockMarker fmt else c)⟩

/-- A block of the source of a BROADCAST, padded with zeros. -/
def castBlock (fmt len : Nat) (spoilt : Bool) (codes : List Nat) : CBlock :=
  let b := plainBlock fmt len spoilt codes
  ⟨fmt, b.codes ++ List.replicate (len - codes.length) 0⟩

/-- Lists combined by place; beyond the end of one the other stands alone. -/
def zipLong (f : Nat → Nat → Nat) : List Nat → List Nat → List Nat
  | a :: s, b :: t => f a b :: zipLong f s t
  | [], t => t
  | s, [] => s

/-- A binary32 addition of any two words. -/
def f32Plus (a b : BitVec 32) : BitVec 32 :=
  match fDecode 1 a.toNat, fDecode 1 b.toNat with
  | .nan, _ => 0x7FC00000
  | _, .nan => 0x7FC00000
  | .inf x, .inf y => if x = y then a else 0x7FC00000
  | .inf _, _ => a
  | _, .inf _ => b
  | _, _ => f32Add a b

/-- Two GRID32 codes added (R180). -/
def gridPlus (a b : Nat) : Nat := gridCode 32 (gridSum [gridOfCode 32 a, gridOfCode 32 b])

/-- A block of the node combined with its children's, in ascending rank; an element that stands alone is combined alone (R170,
R383). -/
def combineBlocks (redOp : Nat) (own : CBlock) (kids : List CBlock) : CBlock :=
  let ks := kids.map (·.codes)
  if own.fmt = Fmt.grid32 then ⟨own.fmt, ks.foldl (zipLong gridPlus) own.codes⟩
  else if redOp = 0 then
    let wide := fun (l : List Nat) => l.map (fun c => (fToF32 (fDecode 2 c)).toNat)
    let t := ks.foldl (fun a k => zipLong (fun x y => (f32Plus (BitVec.ofNat 32 x) (BitVec.ofNat 32 y)).toNat) a (wide k)) (wide own.codes)
    ⟨own.fmt, t.map (fun c => fEncode 2 false (fDecode 1 c))⟩
  else
    let pick := fun (xs : List Nat) => (extremeElem (redOp == 1) own.fmt xs).code
    ⟨own.fmt, ks.foldl (fun a k => zipLong (fun x y => pick [x, y]) a (k.map (fun x => pick [x]))) (own.codes.map (fun x => pick [x]))⟩

/-- An element of the total in OUT_FMT (R384). -/
def totalElem (h : THead) (n : Nat) (e : HEntry) (fmt code : Nat) : Nat :=
  if fmt = Fmt.grid32 then
    match gridOfCode 32 code with
    | none => Fmt.nanCode h.outFmt
    | some t => fEncode h.outFmt false (if t = 0 then .fin false 0 0 else .fin (decide (t < 0)) t.natAbs (hallTop n e - 30))
  else if h.isAdd then fEncode h.outFmt false (fDecode fmt code)
  else code

/-! ## Fragments (R388) -/

/-- The header and bytes of a fragment. `block` and `chunk` are 0xFFFFFFFF where they name none. -/
structure Frag where
  tag : BitVec 32
  ckind : Nat
  tree : Bool
  attempt : Nat
  fmt : Nat
  block : Nat
  chunk : Nat
  rank : Nat
  size : Nat
  swTag : Nat
  count : Nat
  data : List Byte
  deriving DecidableEq, Repr

def Frag.bytes (f : Frag) : List Byte :=
  leBytes 4 f.tag.toNat ++ leBytes 1 f.ckind ++ leBytes 1 (if f.tree then 1 else 0) ++ leBytes 1 f.attempt ++ leBytes 1 f.fmt ++
    leBytes 4 f.block ++ leBytes 4 f.chunk ++ leBytes 2 f.rank ++ leBytes 2 f.size ++ leBytes 2 f.swTag ++ leBytes 2 f.count ++ leBytes 8 0 ++
    f.data

def Frag.ofBytes (b : List Byte) : Frag where
  tag := BitVec.ofNat 32 (leAt b 0 4)
  ckind := leAt b 4 1
  tree := leAt b 5 1 % 2 == 1
  attempt := leAt b 6 1
  fmt := leAt b 7 1
  block := leAt b 8 4
  chunk := leAt b 12 4
  rank := leAt b 16 2
  size := leAt b 18 2
  swTag := leAt b 20 2
  count := leAt b 22 2
  data := b.drop 32

def noIndex : Nat := 0xFFFFFFFF

/-- Elements as bytes, element 0 first. -/
def CBlock.bytes (b : CBlock) : List Byte := b.codes.flatMap (fun c => leBytes (Fmt.bits b.fmt / 8) c)

/-- `k` elements of a format from bytes. -/
def codesOf (fmt k : Nat) (b : List Byte) : List Nat :=
  let w := Fmt.bits fmt / 8
  (List.range k).map (fun i => leAt b (w * i) w)

end Sys2Proof.Machine
end

