-- ==== Sys2Proof/Machine/Txn.lean ====
section
/-! DEFINITION. Slots and their arbiters, the initiators, and where a request goes (R242 to R246, R251 to R260, R345). -/

namespace Sys2Proof.Machine

/-! ## Slots (R251 to R253, R255 to R257, R449) -/

def State.target (s : State) (u : Nat) : TTarget := Tbl.get TTarget.zero s.txn.targets u

def State.setTarget (s : State) (u : Nat) (x : TTarget) : State :=
  { s with txn := { s.txn with targets := Tbl.set TTarget.zero s.txn.targets u x } }

/-- The pool that a LEVEL names at unit `u`: the management tile has one. -/
def poolOf (u : Nat) (level : BitVec 2) : Nat := if u = 0xC1 then 0 else level.toNat

/-- Slots of a pool (R253, R272, R449). -/
def State.poolSize (s : State) (u pl : Nat) : Nat :=
  if u < 0x78 then 4
  else if u = 0x90 ∨ u = 0x91 ∨ u = 0xC1 then 16
  else if 0xA0 ≤ u ∧ u < 0xB0 then fget (s.obj (Obj.poolSize (u - 0xA0))) (8 * pl) 8
  else 64

/-- Unit `u` grants under the standard arbiter. -/
def arbited (u : Nat) : Bool := decide (0xA0 ≤ u ∧ u < 0xB0) || u == 0xC1

def TTarget.used (t : TTarget) (u pl : Nat) : Nat := (t.slots.filter (fun x => poolOf u x.level == pl)).length

/-- The initiators that can reach an attachment, by unit number: core ports, gates, host ports, DMA engines, bridge endpoints
and the management tile. -/
def Integration.initiators (c : Integration) : List Nat :=
  (List.range 0xC2).filter (fun u => (c.unitJunction u).isSome && !(decide (0xA0 ≤ u ∧ u < 0xB0) || u == 0xC0))

/-- Logical distance between two junctions (R205). -/
def Integration.distance (c : Integration) (n m : Nat) : Nat :=
  Int.natAbs ((n % c.cols : Nat) - (m % c.cols : Nat) : Int) + Int.natAbs ((n / c.cols : Nat) - (m / c.cols : Nat) : Int)

/-- The input number an initiator has at an attachment after a die reset: 255 downward, nearest first, then by unit number
(R256). -/
def Integration.proximity (c : Integration) (a v : Nat) : Nat :=
  let at_ := (c.unitJunction (0xA0 + a)).getD 0
  let d := fun (u : Nat) => c.distance at_ ((c.unitJunction u).getD 0)
  255 - (c.initiators.filter (fun u => decide (d u < d v) || (d u == d v && decide (u < v)))).length

/-- The numbers under which the bus, the two mailboxes and the service queue stand at the dictionary's access arbiter: no unit
has them (log 141). -/
def pathUnitBase : Nat := 0x3F0

/-- The fixed input numbers of the dictionary's access arbiter (R449). -/
def accessNumber (v : Nat) : Nat :=
  if v < 0x78 then 240 - v
  else if pathUnitBase ≤ v ∧ v < pathUnitBase + 4 then 255 - (v - pathUnitBase)
  else if v = 0x90 then 247
  else if v = 0x91 then 246
  else if 0xB0 ≤ v ∧ v < 0xB4 then 251 - (v - 0xB0)
  else 0

/-- The input number of initiator `v` at the arbiter of unit `u`. -/
def State.arbNumber (s : State) (u v : Nat) : Nat :=
  if u = 0xC1 then accessNumber v
  else match Tbl.get 0 (s.target u).numbers v with
    | 0 => s.cfg.proximity (u - 0xA0) v
    | x => x - 1

/-- The latched reservation with the highest input number. -/
def State.arbHighest (s : State) (u : Nat) (rs : List TPkt) : Option TPkt :=
  rs.foldl (fun best r =>
    match best with
    | none => some r
    | some b => if s.arbNumber u (b.src.toNat % 1024) < s.arbNumber u (r.src.toNat % 1024) then some r else some b) none

/-- The reservations latched for a pool. -/
def TTarget.latched (t : TTarget) (u pl : Nat) : List TPkt := t.latches.filter (fun r => poolOf u r.level == pl)

/-- The time now, without what a freeze has held: back-off waits count by it (R255, R268). -/
def State.waitNow (s : State) : Nat := s.now - s.frozenFor

/-- The wait that a BACKOFF with STREAK `k` asks for, in ns (R255). -/
def State.backoffWait (s : State) (k : Nat) : Nat := (s.obj Obj.backoffBase).toNat * 2 ^ min (k - 1) (s.obj Obj.backoffCap).toNat

/-- A reservation leaves its latch and is granted a slot. A path of the tile's own needs no packet to be told (R449). -/
def State.grantSlot (s : State) (u : Nat) (r : TPkt) : State :=
  let t := s.target u
  let s1 := s.setTarget u { t with
    slots := t.slots ++ [⟨r.src, r.level, none, none, none, 0⟩]
    latches := t.latches.erase r
    last := Tbl.set 0 t.last (poolOf u r.level) (r.src.toNat % 1024 + 1)
    streaks := Tbl.set 0 t.streaks (r.src.toNat % 1024) 0 }
  if pathUnitBase ≤ r.src.toNat % 1024 then s1
  else s1.txnFrom u { TPkt.blank with kind := .grant, level := r.level, ward := r.ward, src := s.ep u, dest := r.src }

/-- A reservation leaves its latch with a BACKOFF; those of the tile are counted (R453). -/
def State.backOff (s0 : State) (u : Nat) (r : TPkt) : State :=
  let s := if u = 0xC1 then s0.bump ⟨Obj.accessStat, 8, 16⟩ 1 else s0
  let t := s.target u
  let v := r.src.toNat % 1024
  let k := Tbl.get 0 t.streaks v
  let k' := if k = 15 then 15 else k + 1
  let s1 := s.setTarget u { t with
    latches := t.latches.erase r
    streaks := Tbl.set 0 t.streaks v k'
    losses := Tbl.upd 0 t.losses v (fun x => if x = 0xFFFFFFFF then x else x + 1) }
  if pathUnitBase ≤ v then
    { s1 with dict := { s1.dict with tries := Tbl.set 0 s1.dict.tries v (s.waitNow + s.backoffWait k'.toNat + 1) } }
  else s1.txnFrom u { TPkt.blank with kind := .backoff, level := r.level, ward := r.ward, src := s.ep u, dest := r.src, streak := k' }

def State.setChoice (s : State) (u pl : Nat) (c : Option (BitVec 16)) : State :=
  let t := s.target u
  s.setTarget u { t with choices := Tbl.set none t.choices pl c }

/-- The next reservation in round-robin order of the input latches: the first unit above the one granted last. -/
def TTarget.nextInTurn (t : TTarget) (u pl : Nat) : Option TPkt :=
  let rs := t.latched u pl
  let last := Tbl.get 0 t.last pl
  let least := fun (l : List TPkt) => l.foldl (fun best r =>
    match best with
    | none => some r
    | some b => if r.src.toNat % 1024 < b.src.toNat % 1024 then some r else some b) (none : Option TPkt)
  match least (rs.filter (fun r => decide (last ≤ r.src.toNat % 1024))) with
  | some r => some r
  | none => least rs

/-- One grant of the standard arbiter: the pending choice is granted, the next is chosen among the requests latched, and the
others are sent away (R255). -/
def State.arbGrant (s : State) (u pl : Nat) : State :=
  let t := s.target u
  let rs := t.latched u pl
  match Tbl.get none t.choices pl with
  | none => s
  | some c =>
    match rs.find? (fun r => r.src == c) with
    | none => s.setChoice u pl ((s.arbHighest u rs).map (·.src))
    | some r =>
      let others := rs.filter (fun x => x.src != c)
      let next := s.arbHighest u others
      let losers := others.filter (fun x => some x.src != next.map (·.src))
      losers.foldl (fun (a : State) x => a.backOff u x) ((s.grantSlot u r).setChoice u pl (next.map (·.src)))

/-- One slot of a pool is granted, if one is free and a reservation waits. -/
def State.arbStep (s : State) (u pl : Nat) : State :=
  if s.poolSize u pl ≤ (s.target u).used u pl then s
  else if arbited u then s.arbGrant u pl
  else match (s.target u).nextInTurn u pl with
    | some r => s.grantSlot u r
    | none => s

/-- Slots of a pool are granted as long as one is free and a reservation waits. -/
def State.arbitrate (s : State) (u pl : Nat) : State :=
  (List.range ((s.target u).latches.length + 1)).foldl (fun (a : State) _ => a.arbStep u pl) s

/-- A reservation reaches its target's input latch; where no choice is pending it is the choice at once. -/
def State.latchReservation (s : State) (u : Nat) (r : TPkt) : State :=
  let pl := poolOf u r.level
  let t := s.target u
  let s1 := s.setTarget u { t with latches := t.latches.filter (fun x => x.src != r.src || poolOf u x.level != pl) ++ [r] }
  let s2 := if arbited u ∧ Tbl.get none t.choices pl = none then s1.setChoice u pl (some r.src) else s1
  s2.arbitrate u pl

/-- A leased slot that its holder returns goes back to the pool (R252). -/
def State.takeReturn (s : State) (u : Nat) (r : TPkt) : State :=
  let t := s.target u
  match t.slots.find? (fun x => x.src == r.src && poolOf u x.level == poolOf u r.level && x.rq.isNone) with
  | some x => (s.setTarget u { t with slots := t.slots.erase x }).arbitrate u (poolOf u r.level)
  | none => s

/-- A pool whose pending choice is no longer latched: the highest number that is latched is the choice, or none is (R255). -/
def State.rechoose (s : State) (u pl : Nat) : State :=
  match Tbl.get none (s.target u).choices pl with
  | none => s
  | some c =>
    let rs := (s.target u).latched u pl
    if rs.any (fun r => r.src == c) then s else s.setChoice u pl ((s.arbHighest u rs).map (·.src))

/-- Latched reservations that `pick` names are withdrawn (R268). -/
def State.withdraw (s : State) (u : Nat) (pick : TPkt → Bool) : State :=
  let t := s.target u
  let s1 := s.setTarget u { t with latches := t.latches.filter (fun r => !pick r) }
  (List.range 4).foldl (fun (a : State) pl => (a.rechoose u pl).arbitrate u pl) s1

/-- OPs whose answer is read data. -/
def isReadOp (op : BitVec 4) : Bool := op == 0 || op == 2 || op == 3 || op == 7 || decide (8 ≤ op.toNat ∧ op.toNat < 15)

/-- OPs that bring write data. -/
def hasWriteData (op : BitVec 4) : Bool := op == 1 || op == 4 || op == 7 || decide (8 ≤ op.toNat ∧ op.toNat < 15)

def isAtomic (op : BitVec 4) : Bool := decide (8 ≤ op.toNat ∧ op.toNat < 15)

/-- OPs of the coherent windows. -/
def isCoherentOp (op : BitVec 4) : Bool := decide (2 ≤ op.toNat ∧ op.toNat ≤ 5)

/-- OPs a FENCE waits for (R246). -/
def isWriteOp (op : BitVec 4) : Bool := op == 1 || op == 4 || isAtomic op

/-- Beats of a request's write data. -/
def writeBeats (op : BitVec 4) (lenM1 : BitVec 5) : Nat :=
  if op = 1 ∨ op = 7 then lenM1.toNat + 1 else if hasWriteData op then 1 else 0

/-- The slot whose request is `src`, `tag` and `gen`. -/
def TTarget.slotOf (t : TTarget) (src : BitVec 16) (tag : BitVec 10) (gen : BitVec 4) : Option Slot :=
  t.slots.find? (fun x => x.src == src && (match x.rq with
    | some p => p.tag == tag && p.gen == gen
    | none => false))

/-- A target's answer leaves a slot, which is freed, or stays leased where the request carried KEEP (R249, R252). -/
def State.slotAnswer (s : State) (u : Nat) (src : BitVec 16) (tag : BitVec 10) (gen : BitVec 4) (status : BitVec 3)
    (data : List (BitVec 1024)) : State :=
  let t := s.target u
  match t.slotOf src tag gen with
  | none => s
  | some x =>
    match x.rq with
    | none => s
    | some p =>
      let base := { TPkt.blank with ward := p.ward, level := p.level, gen := gen, tag := tag, src := s.ep u, dest := src, status := status }
      let s1 := s.txnFrom u (if status = 0 ∧ isReadOp p.op then { base with kind := .data, dkind := 1, beats := data } else { base with kind := .completion })
      let left := { x with rq := none, data := none, since := none, behind := 0 }
      let t1 := s1.target u
      (s1.setTarget u { t1 with slots := if p.keep then t1.slots.erase x ++ [left] else t1.slots.erase x }).arbitrate u (poolOf u p.level)

/-! ## What a port sends and receives -/

def State.tinit (s : State) (u : Nat) : TInit := Tbl.get TInit.zero s.txn.inits u

def State.setTinit (s : State) (u : Nat) (x : TInit) : State :=
  { s with txn := { s.txn with inits := Tbl.set TInit.zero s.txn.inits u x } }

def Fld.txnTimeouts (n : Nat) : Fld := ⟨Obj.txnStat n, 16, 16⟩
def Fld.txnLate (n : Nat) : Fld := ⟨Obj.txnStat n, 8, 8⟩
def Fld.txnRefused (n : Nat) : Fld := ⟨Obj.txnStat n, 0, 8⟩
def Fld.respDiscard (n : Nat) : Fld := ⟨Obj.portStatus n, 8, 8⟩
def Fld.bDiscards (n : Nat) : Fld := ⟨Obj.bPortStatus n, 16, 16⟩

/-- The key of what an initiator holds towards a target and pool. -/
def claimKey (tgt : BitVec 16) (level : BitVec 2) : Nat := 4 * (tgt.toNat % 1024) + poolOf (tgt.toNat % 1024) level

def State.setClaim (s : State) (u k : Nat) (c : Claim) : State :=
  let x := s.tinit u
  s.setTinit u { x with claims := Tbl.set Claim.zero x.claims k c }

/-- The packet is the reservation that `u` has made for a target and pool, or its answer. -/
def TPkt.claims (p : TPkt) (ep : BitVec 16) (k : Nat) : Bool :=
  match p.kind with
  | .reserve => p.src == ep && claimKey p.dest p.level == k
  | .grant => p.dest == ep && claimKey p.src p.level == k
  | .backoff => p.dest == ep && claimKey p.src p.level == k
  | _ => false

/-- The reservation of `u` for a target and pool, or its answer, is on its way or latched (R251). -/
def State.reservationLives (s : State) (u k : Nat) : Bool :=
  let p := fun (x : TPkt) => x.claims (s.ep u) k
  s.txn.links.any (fun l => l.2.queue.any p) || s.txn.bufs.any (fun l => l.2.any p) || s.txn.arrived.any (fun l => l.2.any p) ||
    s.txn.targets.any (fun t => t.2.latches.any p)

/-- Requests of `u` that wait for a slot of the given target and pool, in acceptance order. -/
def TInit.waiting (x : TInit) (k : Nat) : List OpenTxn := x.open_.filter (fun o => o.stage == 1 && claimKey o.target o.level == k)

/-- A request accepted earlier, bound for the same gate and the same GiB of the hall in another pool, has not been sent: `o` is not sent
before it (R356). -/
def TInit.heldBehind (x : TInit) (o : OpenTxn) : Bool :=
  (x.open_.takeWhile (fun y => y.tag != o.tag)).any (fun y => decide (y.stage ≤ 1) && y.target == o.target &&
    decide (0x80 ≤ y.target.toNat % 1024 ∧ y.target.toNat % 1024 < 0x90) && claimKey y.target y.level != claimKey o.target o.level &&
    y.addr.toNat / 2 ^ 30 == o.addr.toNat / 2 ^ 30)

/-- Those of them that may be sent once a slot is held. -/
def TInit.sendable (x : TInit) (k : Nat) : List OpenTxn := (x.waiting k).filter (fun o => !x.heldBehind o)

/-- Slots of that pool which will stay leased to `u` when their answers leave. -/
def TInit.kept (x : TInit) (k : Nat) : Nat :=
  (x.open_.filter (fun o => o.stage == 2 && o.keep && claimKey o.target o.level == k)).length

/-- A reservation leaves, where a request that no slot covers waits and none is on its way or to be waited for (R251). -/
def State.reserveFor (s : State) (u k : Nat) : State :=
  let x := s.tinit u
  let c := Tbl.get Claim.zero x.claims k
  match x.sendable k with
  | [] => s
  | o :: _ =>
    if c.reserving ∨ c.retryAt ≠ 0 ∨ (x.waiting k).length ≤ x.kept k then s
    else (s.setClaim u k { c with reserving := true }).txnFrom u
      { TPkt.blank with kind := .reserve, level := o.level, ward := o.ward, src := s.ep u, dest := o.target }

/-- The pools of target `tgt` from which a request of `u` may now want a slot: the one named, and at a gate every one (R356). -/
def State.reservePools (s : State) (u : Nat) (tgt : BitVec 16) (level : BitVec 2) : State :=
  let t := tgt.toNat % 1024
  if 0x80 ≤ t ∧ t < 0x90 then
    ([0, 1, 2, 3] : List (BitVec 2)).foldl (fun (a : State) l => a.reserveFor u (claimKey tgt l)) s
  else s.reserveFor u (claimKey tgt level)

/-- The strobes of a packet's beats, as its mask flits; none when every strobe is set (R249). -/
def maskFlits (strb : List (BitVec 128)) : List (BitVec 1024) :=
  if strb.all (· == BitVec.allOnes 128) then []
  else (List.range ((strb.length + 7) / 8)).map (fun j =>
    (List.range 8).foldl (fun (a : BitVec 1024) i => a ||| ((strb.getD (8 * j + i) 0).setWidth 1024 <<< (128 * i))) 0)

/-- The strobes that mask flits give to beat `i`. -/
def strobesOf (masks : List (BitVec 1024)) (i : Nat) : BitVec 128 :=
  if masks.isEmpty then BitVec.allOnes 128 else (masks.getD (i / 8) 0).extractLsb' (128 * (i % 8)) 128

def TInit.replace (x : TInit) (o : OpenTxn) : TInit :=
  { x with open_ := x.open_.map (fun y => if y.tag = o.tag then o else y) }

/-- A request leaves for the slot it holds, with its write data; KEEP leases the slot on where a further request waits that no
slot covers, up to LEASE_MAX requests (R252). -/
def State.sendTxn (s : State) (u : Nat) (o : OpenTxn) (carried : Nat) : State :=
  let x := s.tinit u
  let k := claimKey o.target o.level
  let more := (x.waiting k).filter (fun y => y.tag != o.tag)
  let keep := decide (x.kept k < more.length) && decide (carried < (s.obj Obj.leaseMax).toNat)
  let p := { TPkt.blank with kind := .request, op := o.op, level := o.level, ward := o.ward, keep := keep, lenM1 := o.lenM1
                             gen := o.gen, tag := o.tag, src := s.ep u, dest := o.target, addr := o.addr }
  let s1 := (s.setTinit u (x.replace { o with stage := 2, carried := carried, keep := keep })).txnFrom u p
  let n := (s.cfg.unitJunction u).getD 0
  if hasWriteData o.op then
    (s1.txnFrom u { p with kind := .data, op := 0, lenM1 := 0, keep := false, addr := 0, masks := maskFlits o.strb, beats := o.data }).countEv 0x61 n
      (some o.ward) o.data.length
  else s1

/-- A slot is held: the oldest request that waits for it is sent; with none waiting the slot goes back (R252). -/
def State.useSlot (s : State) (u : Nat) (tgt : BitVec 16) (level : BitVec 2) (ward : BitVec 4) (carried : Nat) : State :=
  let k := claimKey tgt level
  match (s.tinit u).sendable k with
  | o :: _ => (s.sendTxn u o carried).reservePools u tgt level
  | [] => s.txnFrom u { TPkt.blank with kind := .giveBack, level := level, ward := ward, src := s.ep u, dest := tgt }

/-- The beats a port presents for an answer: the data read, or one of zero. -/
def answerBeats (op : BitVec 4) (status : BitVec 3) (data : List (BitVec 1024)) : List (BitVec 1024) :=
  if status = 0 ∧ isReadOp op ∧ !data.isEmpty then data else [0]

/-- The records of a packet on a bridge: its flits without their inner codes (R312, R313). -/
def TPkt.records (p : TPkt) : List (List Byte) :=
  match p.kind.net with
  | .request => [[1] ++ leBytes 23 p.bits]
  | .response => [[1] ++ leBytes 11 p.bits]
  | .snoop => [[1] ++ leBytes 11 p.bits]
  | .data => ([1] ++ leBytes 15 p.bits) :: (p.masks ++ p.beats).map (fun b => [2] ++ leBytes 128 b.toNat)

/-- The group that carries a network (R307). -/
def netGroup (net : Net) : Nat :=
  match net with
  | .request => 4
  | .response => 5
  | .snoop => 6
  | .data => 7

/-- A packet crosses bridge `b`. -/
def State.sendAcross (s : State) (b : Nat) (p : TPkt) : State :=
  p.sealed.records.foldl (fun (a : State) r => a.bridgeRecord b (netGroup p.kind.net) r) s

/-- The answer to a request that came over bridge `b` goes back over it. -/
def State.answerAcross (s : State) (b : Nat) (dest : BitVec 16) (ward : BitVec 4) (level : BitVec 2) (tag : BitVec 10)
    (gen : BitVec 4) (status : BitVec 3) (data : List (BitVec 1024)) : State :=
  let base := { TPkt.blank with ward := ward, level := level, gen := gen, tag := tag, src := s.ep (0xB0 + b), dest := dest, status := status }
  s.sendAcross b (if status = 0 ∧ !data.isEmpty then { base with kind := .data, dkind := 1, beats := data } else { base with kind := .completion })

/-- The unit whose slots an onward initiator serves: numbers 0x100 above a unit's stand for its line side. -/
def slotUnit (u : Nat) : Nat := u % 0x100

/-- An answer reaches whoever waits for it (R36, R48, R250). A home answers a line from the beat that holds it. -/
def State.answerOwner (s : State) (u : Nat) (o : OpenTxn) (status : BitVec 3) (data : List (BitVec 1024)) : State :=
  let n := (s.cfg.unitJunction u).getD 0
  let s1 := if status = Status.wardRefused ∧ u < 0x78 then s.bump (.txnRefused n) 1 else s
  let s2 := if status = 0 ∧ isReadOp o.op ∧ u < 0x100 then s1.countEv 0x60 n (some o.ward) data.length else s1
  match o.owner with
  | .port =>
    if u < 0x78 ∧ s.adapterHeld n .a then s2.bump (.respDiscard n) 1
    else
      let x := s2.tinit u
      s2.setTinit u { x with ready := x.ready ++ [⟨o.tag, status, answerBeats o.op status data⟩] }
  | .host =>
    if s.adapterHeld n .b then s2.bump (.bDiscards n) 1
    else if s.drives n .b then s2.emit (.hip (u - 0x90) o.tag status (answerBeats o.op status data))
    else
      let x := s2.tinit u
      s2.setTinit u { x with ready := x.ready ++ [⟨o.tag, status, answerBeats o.op status data⟩] }
  | .dropped => if u < 0x78 then s2.bump (.respDiscard n) 1 else s2.bump (.bDiscards n) 1
  | .nobody => s2
  | .onward src tag gen =>
    if 0xB0 ≤ u ∧ u < 0xB4 then s2.answerAcross (u - 0xB0) src o.ward o.level tag gen status data
    else if 0x80 ≤ u ∧ u < 0x90 then s2.gateAnswer (u - 0x80) o.tag status data
    else
      let line := ((s2.target (slotUnit u)).slotOf src tag gen).bind (·.rq)
      let half := match line with
        | some p => o.op == 0 && (p.op == 2 || p.op == 3)
        | none => false
      let up := match line with
        | some p => p.addr.getLsbD 6
        | none => false
      s2.slotAnswer (slotUnit u) src tag gen status
        (if half then data.map (fun (b : BitVec 1024) => if up then b >>> 512 else (b.setWidth 512).setWidth 1024) else data)
  | .engine _ _ _ => { s2 with txn := { s2.txn with dones := s2.txn.dones ++ [⟨u, o.owner, o.op, status, data⟩] } }

/-- An open transaction ends: its tag and buffer are free, and a slot it has leased on serves the next (R252). -/
def State.endTxn (s : State) (u : Nat) (o : OpenTxn) (status : BitVec 3) (data : List (BitVec 1024)) : State :=
  let x := s.tinit u
  let s1 := (s.setTinit u { x with open_ := x.open_.filter (fun y => y.tag != o.tag) }).answerOwner u o status data
  if o.stage = 2 ∧ o.keep then s1.useSlot u o.target o.level o.ward (o.carried + 1) else s1

/-! ## The regulator, FENCE and acceptance (R244 to R246, R258, R259) -/

def Fld.serviceMode (w : Nat) : Fld := ⟨Obj.service w, 15, 1⟩
def Fld.regLevel (w : Nat) : Fld := ⟨Obj.service w, 13, 2⟩

/-- REG_CFG of a core port, DMA engine or host port. -/
def regKey (u : Nat) : Option Nat :=
  if u < 0x78 then some (Obj.regCfg u)
  else if u = 0x90 ∨ u = 0x91 then some (Obj.regCfgSide 1 (u - 0x90))
  else if 0x98 ≤ u ∧ u < 0x9C then some (Obj.regCfgSide 0 (u - 0x98))
  else none

/-- The cost of a request in quarter bytes (R259). -/
def txnCost (o : OpenTxn) : Nat := if o.op = 0 ∨ o.op = 1 then (o.lenM1.toNat + 1) * 512 else 512

/-- The request is one that a unit makes for another's. -/
def TxnOwner.proxy : TxnOwner → Bool
  | .onward _ _ _ => true
  | .nobody => true
  | _ => false

/-- Quarter bytes missing from the bucket of `u` now, under a REG_CFG of `v`: RATE accrue each ns, up to BURST (R259). -/
def State.bucketMissing (s : State) (u : Nat) (v : Val) : Nat :=
  let x := s.tinit u
  min (fget v 0 16 * 512) (x.missing - fget v 16 16 * (s.now - x.counted))

/-- REG_CFG of `u` goes from `old` to `new`: what has accrued under the old RATE stays in the bucket, capped at the new BURST. -/
def State.settleTokens (s : State) (u : Nat) (old new : Val) : State :=
  let held := fget old 0 16 * 512 - s.bucketMissing u old
  let x := s.tinit u
  s.setTinit u { x with missing := fget new 0 16 * 512 - held, counted := s.now }

/-- How long the tokens of `u` need to cover the request, in ns, and the bucket after it. Quarter bytes accrue RATE each ns. -/
def State.tokenWait (s : State) (u : Nat) (o : OpenTxn) : Nat × TInit :=
  let x := s.tinit u
  match regKey u with
  | none => (0, x)
  | some key =>
    let rate := fget (s.obj key) 16 16
    let cap := fget (s.obj key) 0 16 * 512
    if s.rd (.serviceMode o.ward.toNat) = 0 ∨ rate = 0 ∨ o.owner.proxy then (0, x)
    else
      let missing := s.bucketMissing u (s.obj key)
      let short := missing + txnCost o - cap
      ((short + rate - 1) / rate, { x with missing := missing + txnCost o, counted := s.now })

/-- The tokens of `u` do not yet cover the request. -/
def State.tokensShort (s : State) (u : Nat) (o : OpenTxn) : Bool := (s.tokenWait u o).1 != 0

/-- The next request of `u` that may leave the port's order: those of a regulated ward go in turn, as tokens allow; those of
a ward in level mode pass by the bucket; none passes a FENCE (R246, R259, R281). -/
def State.txnNext (s : State) (u : Nat) : Option OpenTxn :=
  let cands := ((s.tinit u).open_.takeWhile (fun o => o.stage != 0 || o.op != 6)).filter (fun o => o.stage == 0)
  match cands.find? (s.tokensShort u) with
  | none => cands.head?
  | some blocked => cands.find? (fun o => !s.tokensShort u o &&
      (s.rd (.serviceMode o.ward.toNat) == 0 || (cands.takeWhile (fun x => x.tag != o.tag)).all (fun x => x.tag != blocked.tag)))

/-- A FENCE at the head of what waits, once every write accepted before it has its completion and the tokens cover its cost
(R246, R259). -/
def State.fenceReady (s : State) (u : Nat) : Option OpenTxn :=
  let x := s.tinit u
  match x.open_.find? (fun o => o.stage == 0) with
  | some o => if o.op = 6 ∧ !s.tokensShort u o ∧ !(x.open_.takeWhile (fun y => y.tag != o.tag)).any (fun y => isWriteOp y.op) then some o
    else none
  | none => none

/-- The requests that wait at the port go on, as far as a FENCE and the regulator let them. -/
def State.txnPump (s : State) (u : Nat) : Nat → State
  | 0 => s
  | k + 1 =>
    match s.fenceReady u with
    | some o => ((s.setTinit u (s.tokenWait u o).2).endTxn u o Status.okay []).txnPump u k
    | none => match s.txnNext u with
      | none => s
      | some o =>
        ((s.setTinit u ((s.tokenWait u o).2.replace { o with stage := 1 })).reserveFor u (claimKey o.target o.level)).txnPump u k

/-- Requests of `u` go on as far as they can. -/
def State.txnGo (s : State) (u : Nat) : State := s.txnPump u ((s.tinit u).open_.length + 1)

/-- An open transaction ends, and what waited behind it goes on. -/
def State.finishTxn (s : State) (u : Nat) (o : OpenTxn) (status : BitVec 3) (data : List (BitVec 1024)) : State :=
  (s.endTxn u o status data).txnGo u

/-- What an initiator asks for. -/
structure TAsk where
  op : BitVec 4
  addr : BitVec 64
  lenM1 : BitVec 5
  level : BitVec 2
  ward : BitVec 4
  data : List (BitVec 1024)
  strb : List (BitVec 128)
  deriving DecidableEq, Repr

/-- The write data an OP takes: as many beats as it names, with their strobes. -/
def TAsk.shaped (a : TAsk) : TAsk :=
  let k := writeBeats a.op a.lenM1
  { a with data := (List.range k).map (fun i => a.data.getD i 0)
           strb := (List.range k).map (fun i => if a.op = 1 then a.strb.getD i (BitVec.allOnes 128) else BitVec.allOnes 128) }

def TAsk.toOpen (a : TAsk) (tag : BitVec 10) (gen : BitVec 4) (target : BitVec 16) (since : Nat) (owner : TxnOwner) : OpenTxn :=
  ⟨a.op, a.addr, a.lenM1, tag, gen, a.level, a.ward, a.data, a.strb, target, since, 0, 0, false, owner⟩

/-- The rules of R244 and R440 that a request breaks. -/
def State.breaksRules (s : State) (u : Nat) (a : TAsk) : Bool :=
  let addr := a.addr.toNat
  if a.op = 0 ∨ a.op = 1 then addr % 128 != 0 || decide (4096 < addr % 4096 + (a.lenM1.toNat + 1) * 128)
  else if isCoherentOp a.op then a.lenM1 != 0 || addr % 64 != 0
  else if a.op = 6 then a.lenM1 != 0
  else if a.op = 7 then
    decide (8 < a.lenM1.toNat) || addr / 2 ^ 47 != (s.obj Obj.pkgNumber).toNat || addr % 2 ^ 41 != 0 ||
      (u != 0xC1 && !(decide (0xB0 ≤ u) && decide (u < 0xB4)) && addr / 2 ^ 41 % 64 != s.dieBits)
  else if a.op = 15 then true
  else decide (1 < a.lenM1.toNat) || addr % (4 * 2 ^ a.lenM1.toNat) != 0

/-! ## Where a request goes (R28, R242, R250, R264, R345) -/

/-- Where a request goes: to a unit of the die, or nowhere, with the status that answers it. -/
inductive TRoute where
  | unit (u : Nat)
  | none (status : BitVec 3)
  deriving DecidableEq, Repr

/-- The valid coherent window that holds a LOCAL offset: its host port, number and value (R263, R276). -/
def State.cohWindowOf (s : State) (off : Nat) : Option (Nat × Nat × Val) :=
  ((List.range 16).map (fun k => (k / 8, k % 8, s.obj (Obj.cohWindow (k / 8) (k % 8))))).find? (fun x =>
    fget x.2.2 63 1 == 1 && decide (fget x.2.2 4 25 ≤ off / 65536) && decide (off / 65536 ≤ fget x.2.2 4 25 + fget x.2.2 0 4))

/-- The attachment whose range holds a LOCAL offset (R242, R271). -/
def Integration.memoryAt (c : Integration) (off : Nat) : Option Nat :=
  (List.range 16).find? (fun a =>
    let m := (c.memMap.getD a 0).toNat
    (c.unitAt 1 a).isSome && decide (m / 65536 ≤ off / 2 ^ 30) && decide (off / 2 ^ 30 < m / 65536 + m % 65536))

/-- The unit that the local map names for a LOCAL offset. -/
def Integration.localUnit (c : Integration) (off : Nat) : Option Nat :=
  if off < 0x10000000000 then (c.memoryAt off).map (0xA0 + ·)
  else if off < 0x18000000000 then
    let p := (off - 0x10000000000) / 0x4000000000
    if (c.unitAt 3 p).isSome then some (0x90 + p) else none
  else if off < 0x1C000000000 then
    let n := (off - 0x18000000000) / 0x80000000
    if n < c.njs ∧ c.corePort n ∧ c.adapterAt n / 4 % 2 = 1 then some n else none
  else none

/-- The unit of this die that serves a request at a LOCAL offset. -/
def State.localRoute (s : State) (op : BitVec 4) (off : Nat) : TRoute :=
  match s.cohWindowOf off with
  | some (p, _, v) =>
    if isAtomic op then .none Status.targetError
    else if fget v 62 1 = 0 then .unit (0x90 + p)
    else match s.cfg.localUnit off with
      | some u => .unit u
      | none => .none Status.noTarget
  | none =>
    if isCoherentOp op then .none Status.targetError
    else match s.cfg.localUnit off with
      | some u => .unit u
      | none => .none Status.noTarget

/-- The line of gate `g` is up (R365). -/
def State.gateLineUp (s : State) (g : Nat) : Bool := (s.cfg.unitAt 2 g).isSome && s.rd ⟨Obj.gateStatus g, 31, 1⟩ == 1

/-- FLOW_LABEL of a request (R345). -/
def flowLabel (unit : BitVec 16) (ward : Nat) (addr : BitVec 64) : Nat :=
  (crc32c (leBytes 2 unit.toNat ++ leBytes 1 ward ++ leBytes 5 (addr.toNat / 2 ^ 30 * 2 ^ 30 % 2 ^ 59 / 2 ^ 24))).toNat % 2 ^ 20

/-- Entry `k` modulo their number, of the bits set in a mask. -/
def maskPick (bits : List Nat) (k : Nat) : Option Nat := if bits.isEmpty then none else bits[k % bits.length]?

/-- The gate a request of `u` leaves by. -/
def State.sourceGate (s : State) (u : Nat) (a : TAsk) : Option Nat :=
  let up := (List.range 16).filter s.gateLineUp
  let m := if u = 0xC1 then up else up.filter (fun g => (s.obj (Obj.gateWard a.ward.toNat)).getLsbD g)
  maskPick m (flowLabel (s.ep u) (if u = 0xC1 then 0xFF else a.ward.toNat) a.addr)

/-- Where a request of `u` goes. -/
def State.routeOf (s : State) (u : Nat) (a : TAsk) : TRoute :=
  let addr := a.addr.toNat
  let pkg := addr / 2 ^ 47 % 4096
  let die := addr / 2 ^ 41 % 64
  if addr / 2 ^ 59 ≠ 0 then .none Status.noTarget
  else if pkg ≠ (s.obj Obj.pkgNumber).toNat then
    match s.sourceGate u a with
    | some g => .unit (0x80 + g)
    | none => .none Status.noTarget
  else if die ≠ s.dieBits then
    if (s.obj Obj.dieNumber).toNat = 0xFF ∨ !(s.obj Obj.dieMap).getLsbD die then .none Status.noTarget
    else match s.bridgeTowards die with
      | some b => .unit (0xB0 + b)
      | none => .none Status.noTarget
  else if a.op = 7 then .unit 0xC1
  else s.localRoute a.op (addr % 2 ^ 41)

/-- A request joins the port's order, with its target. -/
def State.openTxn (s : State) (u : Nat) (a : TAsk) (tgt : BitVec 16) (tag : BitVec 10) (gen : BitVec 4) (owner : TxnOwner) : State :=
  let y := s.tinit u
  (s.setTinit u { y with open_ := y.open_ ++ [a.toOpen tag gen tgt s.txnNow owner] }).txnGo u

/-- A port accepts a request: one that breaks a rule, or that no unit serves, is answered at once and not sent. -/
def State.acceptTxn (s : State) (u : Nat) (a0 : TAsk) (tag : BitVec 10) (owner : TxnOwner) : State :=
  let a := a0.shaped
  let x := s.tinit u
  let gen := Tbl.get 0 x.gens tag.toNat
  let s1 := s.setTinit u { x with gens := Tbl.set 0 x.gens tag.toNat (gen + 1) }
  if s.breaksRules u a then s1.answerOwner u (a.toOpen tag gen 0 s.txnNow owner) Status.targetError []
  else
    if a.op = 6 then s1.openTxn u a 0 tag gen owner
    else match s.routeOf u a with
      | .unit t => s1.openTxn u a (s.ep t) tag gen owner
      | .none st => s1.answerOwner u (a.toOpen tag gen 0 s.txnNow owner) st []

/-- A tag is free at its port: no transaction, answer or quarantine holds it (R260). -/
def TInit.tagFree (x : TInit) (tag : BitVec 10) : Bool :=
  !x.open_.any (fun o => o.tag == tag) && !x.ready.any (fun r => r.tag == tag) && !x.quarantine.any (fun q => q.1.tag == tag)

/-- The lowest free tag below `k`. -/
def TInit.freeTag (x : TInit) (k : Nat) : Option (BitVec 10) :=
  ((List.range k).map (BitVec.ofNat 10)).find? x.tagFree

/-- LEVEL of a request of ward `w` that names `prio` (R258). -/
def State.levelOf (s : State) (w : BitVec 4) (prio : BitVec 2) : BitVec 2 :=
  if s.rd (.serviceMode w.toNat) = 1 then BitVec.ofNat 2 (s.rd (.regLevel w.toNat)) else prio

/-- Tags the core port at `n` may have open (R77). -/
def Integration.outstanding (c : Integration) (n : Nat) : Nat := c.adapterAt n / 256 % 256 + 1

/-- TXN_REQUEST_ACCEPT at the core port of junction `n`. A closed port answers WARD_REFUSED and sends nothing (R410); an
offered request at a gated junction wakes its region (R50). -/
def Txn.acceptCore (n : Nat) (rq : TxnArgs) (s : State) : State :=
  let x := s.tinit n
  if !s.cfg.corePort n ∨ !s.running ∨ !s.adapterLive n .a then s
  else if s.regionStateOf (s.regionOf n) = 4 then s.wakeAt n
  else if !s.moves n ∨ 256 ≤ rq.tag.toNat ∨ !x.tagFree rq.tag ∨ s.cfg.outstanding n ≤ x.open_.length + x.ready.length then s
  else
    let w := (s.wardOf n).getD 0
    let a : TAsk := ⟨rq.op, rq.addr, rq.lenM1, s.levelOf w rq.prio, w, rq.data, rq.strb⟩
    if s.portClosed n then (s.answerOwner n (a.toOpen rq.tag 0 0 s.txnNow .port) Status.wardRefused []).touch n
    else (s.acceptTxn n a rq.tag .port).touch n

/-- TXN_REQUEST_ACCEPT: a core port, or the firmware of the management tile, whose requests carry LEVEL 3. -/
def Txn.accept (u : Nat) (rq : TxnArgs) (s : State) : State :=
  if u < 0x78 then Txn.acceptCore u rq s
  else if u = 0xC1 ∧ s.running ∧ !s.frozen ∧ (s.tinit u).tagFree rq.tag then
    s.acceptTxn u ⟨rq.op, rq.addr, rq.lenM1, 3, 0, rq.data, rq.strb⟩ rq.tag .port
  else s

def execTxnRequestAccept (unit : Nat) (rq : TxnArgs) (s : State) : Host.Outcome State Fault Refusal :=
  .next (Txn.accept unit rq s)

/-- Time passes, unless timeouts are stopped, until they have counted to `t`; none when they never do as things stand. -/
def State.txnDue (s : State) (t : Nat) : Option State :=
  if s.txnNow < t ∧ s.timersStopped then none else some (s.advance (t - s.txnNow))

/-- TOKEN_BUCKET_RELEASE: the tokens of `u` come to cover the request that waits for them. -/
def Txn.tokens (u : Nat) (s : State) : State :=
  match (s.tinit u).open_.find? (fun o => o.stage == 0) with
  | none => s
  | some o => if s.frozen then s else (s.advance (s.tokenWait u o).1).txnGo u

def execTokenBucketRelease (unit : Nat) (s : State) : Host.Outcome State Fault Refusal := .next (Txn.tokens unit s)

/-! ## What arrives at a unit (R249 to R252, R255, R260) -/

/-- The oldest packet that `net` has brought to unit `u` and that `pick` chooses, and the state without it. -/
def State.takeArrived (s : State) (net : Net) (u : Nat) (pick : TPkt → Bool) : Option (TPkt × State) :=
  match (Tbl.get [] s.txn.arrived (arriveKey net u)).find? pick with
  | none => none
  | some p => some (p, { s with txn := { s.txn with arrived := Tbl.upd [] s.txn.arrived (arriveKey net u) (fun l => l.erase p) } })

/-- The same, for a packet of one kind whose end-to-end code is right; one whose code fails is discarded and raised. -/
def State.takeKind (s : State) (k : TKind) (u : Nat) : Except State (TPkt × State) :=
  match s.cfg.unitJunction u with
  | none => .error s
  | some n =>
    if !s.moves n then .error s
    else match s.takeArrived k.net u (fun p => p.kind == k) with
      | none => .error s
      | some (p, s1) => if s.txnOuterFails n u p then .error (s1.txnOuterRaise n u p) else .ok (p, s1)

/-- SLOT_RESERVATION_ARRIVE (R251). -/
def Txn.reservationArrive (u : Nat) (s : State) : State :=
  match s.takeKind .reserve u with
  | .error s1 => s1
  | .ok (p, s1) => s1.latchReservation u p

def execSlotReservationArrive (unit : Nat) (s : State) : Host.Outcome State Fault Refusal := .next (Txn.reservationArrive unit s)

/-- LEASE_RETURN_ARRIVE (R252). -/
def Txn.leaseArrive (u : Nat) (s : State) : State :=
  match s.takeKind .giveBack u with
  | .error s1 => s1
  | .ok (p, s1) => s1.takeReturn u p

def execLeaseReturnArrive (unit : Nat) (s : State) : Host.Outcome State Fault Refusal := .next (Txn.leaseArrive unit s)

/-- SLOT_GRANT_ARRIVE: the request that waits takes the slot (R251). -/
def Txn.grantArrive (u : Nat) (s : State) : State :=
  match s.takeKind .grant u with
  | .error s1 => s1
  | .ok (p, s1) => (s1.setClaim u (claimKey p.src p.level) Claim.zero).useSlot u p.src p.level p.ward 1

def execSlotGrantArrive (unit : Nat) (s : State) : Host.Outcome State Fault Refusal := .next (Txn.grantArrive unit s)

/-- SLOT_BACKOFF_ARRIVE (R255). -/
def Txn.backoffArrive (u : Nat) (s : State) : State :=
  match s.takeKind .backoff u with
  | .error s1 => s1
  | .ok (p, s1) => s1.setClaim u (claimKey p.src p.level) ⟨false, s1.waitNow + s1.backoffWait p.streak.toNat + 1⟩

def execSlotBackoffArrive (unit : Nat) (s : State) : Host.Outcome State Fault Refusal := .next (Txn.backoffArrive unit s)

/-- Time passes until back-off waits have counted to `t`; none while a freeze stops them (R255, R268). -/
def State.waitDue (s : State) (t : Nat) : Option State :=
  if s.waitNow < t ∧ s.frozen then none else some (s.advance (t - s.waitNow))

/-- A request posted on the bus, in a mailbox or in the service queue asks the access arbiter for a slot of the tile, unless it has
one or is already asking (R449). -/
def State.pathAsk (s : State) (v : Nat) : State :=
  let t := s.target 0xC1
  let mine := fun (x : BitVec 16) => x.toNat == v
  if t.slots.any (fun x => mine x.src) || t.latches.any (fun r => mine r.src) || Tbl.get 0 s.dict.tries v != 0 then s
  else s.latchReservation 0xC1 { TPkt.blank with kind := .reserve, src := BitVec.ofNat 16 v }

/-- The request is answered: its slot goes to the next, and what it asked for is withdrawn. -/
def State.pathDone (s : State) (v : Nat) : State :=
  let t := s.target 0xC1
  let s1 := s.setTarget 0xC1 { t with slots := t.slots.filter (fun x => x.src.toNat != v) }
  let s2 : State := { s1 with dict := { s1.dict with tries := Tbl.set 0 s1.dict.tries v 0 } }
  s2.withdraw 0xC1 (fun r => r.src.toNat == v)

/-- The request of path unit `v` has lost at the arbiter, or has not been granted yet; a freeze lets the paths through that it
serves (R449, R450). -/
def State.pathWaits (s : State) (v : Nat) : Bool :=
  !s.frozen && ((s.target 0xC1).latches.any (fun r => r.src.toNat == v) || Tbl.get 0 s.dict.tries v != 0)

/-- A back-off wait on a path ends, and its request asks again. -/
def State.pathRetry (s : State) (v : Nat) : State :=
  match Tbl.get 0 s.dict.tries v with
  | 0 => s
  | t + 1 => match s.waitDue t with
    | none => s
    | some s1 => ({ s1 with dict := { s1.dict with tries := Tbl.set 0 s1.dict.tries v 0 } }).pathAsk v

/-- BACKOFF_EXPIRE: the wait of `u` for unit `target` ends, and it may reserve again. -/
def Txn.backoffExpire (u target : Nat) (level : BitVec 2) (s : State) : State :=
  let k := 4 * (target % 1024) + poolOf (target % 1024) level
  match (Tbl.get Claim.zero (s.tinit u).claims k).retryAt with
  | 0 => s
  | t + 1 => match s.waitDue t with
    | none => s
    | some s1 => (s1.setClaim u k Claim.zero).reserveFor u k

/-- The timed-out transaction that a late answer belongs to, by TAG and GEN: in quarantine, or past it (R260). -/
def TInit.lateTxn (x : TInit) (tag : BitVec 10) (gen : BitVec 4) : Option OpenTxn :=
  (x.quarantine.map (·.1) ++ x.lapsed).find? (fun q => q.tag == tag && q.gen == gen && q.stage == 2)

/-- The initiator without what it remembers of a timed-out transaction whose answer has come. -/
def TInit.forget (x : TInit) (q : OpenTxn) : TInit :=
  { x with quarantine := x.quarantine.map (fun y => if y.1 = q then ({ q with stage := 3 }, y.2) else y), lapsed := x.lapsed.erase q }

/-- An answer that comes after its transaction has timed out is discarded and counted; a slot it leaves leased is used or goes
back (R252, R260). -/
def State.lateAnswer (s : State) (u : Nat) (tag : BitVec 10) (gen : BitVec 4) : State :=
  match (s.tinit u).lateTxn tag gen with
  | none => s
  | some q =>
    let s1 := s.setTinit u ((s.tinit u).forget q)
    let s2 := if u < 0x78 then s1.bump (.txnLate u) 1 else s1
    if q.keep then s2.useSlot u q.target q.level q.ward (q.carried + 1) else s2

/-- An answer reaches initiator `u`, matched by TAG and GEN. -/
def State.answerArrives (s : State) (u : Nat) (p : TPkt) (status : BitVec 3) (data : List (BitVec 1024)) : State :=
  match (s.tinit u).open_.find? (fun o => o.stage == 2 && o.tag == p.tag && o.gen == p.gen) with
  | some o => s.finishTxn u o status data
  | none => s.lateAnswer u p.tag p.gen

/-- TXN_RESPONSE_ARRIVE: a completion reaches its initiator. -/
def Txn.responseArrive (u : Nat) (s : State) : State :=
  match s.takeKind .completion u with
  | .error s1 => s1
  | .ok (p, s1) => s1.answerArrives u p p.status []

/-- Read data reach their initiator; where their code fails they deliver UNCORRECTABLE (R250). -/
def State.readDataArrives (s : State) (n u : Nat) (p : TPkt) : State :=
  if s.txnOuterFails n u p then (s.txnOuterRaise n u p).answerArrives u p Status.uncorrectable []
  else s.answerArrives u p p.status p.beats

/-- A transaction ends with TIMEOUT: its tag is quarantined (R260). A reservation that waits at its target stays the only one;
one that an uncorrectable flit has ended is given up (R250, R251). -/
def State.timeoutTxn (s : State) (u : Nat) (o : OpenTxn) : State :=
  let limit := (s.obj (Obj.txnTimeout o.ward.toNat)).toNat
  let x := s.tinit u
  let s1 := s.setTinit u { x with quarantine := x.quarantine ++ [(o, s.txnNow + 2 * limit)] }
  let s2 := if u < 0x78 then s1.bump (.txnTimeouts u) 1 else s1
  let s3 := s2.finishTxn u { o with keep := false } Status.timeout []
  let k := claimKey o.target o.level
  let s4 := if o.stage = 1 ∧ ((s3.tinit u).waiting k).isEmpty ∧ !s3.reservationLives u k then
      s3.setClaim u k { Tbl.get Claim.zero (s3.tinit u).claims k with reserving := false }
    else s3
  if o.stage ≤ 1 then s4.reservePools u o.target o.level else s4

/-- TXN_TIMEOUT_EXPIRE: TXN_TIMEOUT of the request's ward has passed since its acceptance (R260). -/
def Txn.timeout (u : Nat) (tag : BitVec 10) (s : State) : State :=
  match (s.tinit u).open_.find? (fun o => o.tag == tag) with
  | none => s
  | some o =>
    match s.txnDue (o.since + (s.obj (Obj.txnTimeout o.ward.toNat)).toNat) with
    | none => s
    | some s1 => s1.timeoutTxn u o

def execTxnTimeoutExpire (unit : Nat) (tag : BitVec 10) (s : State) : Host.Outcome State Fault Refusal :=
  .next (Txn.timeout unit tag s)

/-- TAG_QUARANTINE_EXPIRE: the tag may be used again. A transaction whose answer has still not come is remembered, the latest of
each TAG and GEN (R260). -/
def Txn.quarantineExpire (u : Nat) (tag : BitVec 10) (s : State) : State :=
  match (s.tinit u).quarantine.find? (fun q => q.1.tag == tag) with
  | none => s
  | some q => match s.txnDue q.2 with
    | none => s
    | some s1 =>
      let x := s1.tinit u
      s1.setTinit u { x with
        quarantine := x.quarantine.filter (fun y => y.1.tag != tag)
        lapsed := if q.1.stage = 2 then x.lapsed.filter (fun y => y.tag != q.1.tag || y.gen != q.1.gen) ++ [q.1] else x.lapsed }

def execTagQuarantineExpire (unit : Nat) (tag : BitVec 10) (s : State) : Host.Outcome State Fault Refusal :=
  .next (Txn.quarantineExpire unit tag s)

/-! ## Answers to function units -/

/-- TR_RESPONSE_BEAT: the function unit behind port `u` takes the next beat of an answer. -/
def Txn.responseBeat (u : Nat) (s : State) : State :=
  let n := (s.cfg.unitJunction u).getD 0
  let x := s.tinit u
  match x.ready with
  | [] => s
  | r :: rest =>
    if !s.running ∨ (u < 0x78 ∧ (!s.adapterLive n .a ∨ !s.junctionActive n)) then s
    else match s.offer (200 + u) with
      | none => s
      | some s1 =>
        let last := decide (r.beats.length ≤ 1)
        (s1.setTinit u { x with ready := if last then rest else { r with beats := r.beats.tail } :: rest }).emit
          (.tr u r.tag r.status (r.beats.headD 0) last)

def execTrResponseBeat (unit : Nat) (s : State) : Host.Outcome State Fault Refusal := .next (Txn.responseBeat unit s)

/-- An adapter reset at initiator `u` (R36): requests not yet sent are withdrawn, and answers to those sent are discarded. -/
def State.txnAdapterReset (s : State) (u : Nat) : State :=
  let x := s.tinit u
  let s1 := s.setTinit u { x with
    open_ := (x.open_.filter (fun o => o.stage == 2)).map (fun o =>
      { o with owner := if o.owner = .port ∨ o.owner = .host then .dropped else o.owner })
    claims := [], ready := [] }
  let s2 := if u < 0x78 then s1.bump (.respDiscard u) x.ready.length
    else s1.bump (.bDiscards ((s.cfg.unitJunction u).getD 0)) x.ready.length
  let s3 := s2.txn.targets.foldl (fun (a : State) t => a.withdraw t.1 (fun r => r.src == s.ep u)) s2
  x.claims.foldl (fun (a : State) c => if c.2.reserving && a.reservationLives u c.1 then a.setClaim u c.1 ⟨true, 0⟩ else a) s3

end Sys2Proof.Machine
end

