-- ==== Sys2Proof/Machine/Dict.lean ====
section
/-! DEFINITION. The object dictionary's service: which objects exist, who may reach them, the checks of a request in
their order, and the answer on its path (R433 to R453). -/

namespace Sys2Proof.Machine

/-! ## Which objects exist (R433, R564, R565) -/

/-- How an index and subindex stand in this integration. -/
inductive Presence where
  /-- The unit is in the integration. -/
  | here
  /-- The unit is absent; its entry reads zero and is not written. -/
  | zero
  /-- The unit is absent. -/
  | absent
  deriving DecidableEq, Repr

def presentIf (b : Bool) : Presence := if b then .here else .absent

def zeroUnless (b : Bool) : Presence := if b then .here else .zero

/-- Whether the unit an index and subindex describe is in the integration (R565). -/
def State.presence (s : State) (i sub : Nat) : Presence :=
  let c := s.cfg
  let n := sub - 1
  if 0x1620 ≤ i ∧ i < 0x1630 then presentIf (c.unitAt 2 (i - 0x1620)).isSome
  else if 0x1630 ≤ i ∧ i < 0x1634 then presentIf (c.dmaAt (i - 0x1630)).isSome
  else if i = 0x1634 ∨ i = 0x1635 then presentIf (c.unitAt 3 (i - 0x1634)).isSome
  else if 0x1720 ≤ i ∧ i < 0x1724 then presentIf (c.unitAt 3 (i % 2)).isSome
  else if 0x1810 ≤ i ∧ i < 0x1850 then presentIf (c.dmaAt ((i - 0x1810) / 16)).isSome
  else if 0x1850 ≤ i ∧ i < 0x1858 then presentIf (c.dmaAt (i % 4)).isSome
  else if 0x1910 ≤ i ∧ i < 0x1914 then presentIf (c.unitAt 4 (i - 0x1910)).isSome
  else if 0x1920 ≤ i ∧ i < 0x1923 then presentIf s.isMaster
  else if 0x1A10 ≤ i ∧ i < 0x1A20 then presentIf (c.unitAt 2 (i - 0x1A10)).isSome
  else if 0x1B10 ≤ i ∧ i < 0x1B60 then presentIf (c.unitAt 2 (i % 16)).isSome
  else if 0x1C00 ≤ i ∧ i < 0x1E00 then presentIf (c.unitAt 2 ((i - 0x1C00) / 32)).isSome
  else if sub = 0 then .here
  else if i = 0x1210 then zeroUnless (c.corePort n)
  else if i = 0x1213 ∨ i = 0x1730 ∨ i = 0x1733 then presentIf (c.corePort n)
  else if i = 0x1214 then zeroUnless (decide (1 ≤ c.bKind n) && decide (c.bKind n ≤ 3))
  else if i = 0x1220 ∨ i = 0x1732 then presentIf (c.unitAt 3 n).isSome
  else if i = 0x1300 ∨ (0x2120 ≤ i ∧ i < 0x2125) then zeroUnless (decide (n < c.regions))
  else if i = 0x1301 ∨ i = 0x2301 then presentIf (decide (n < c.regions))
  else if 0x1680 ≤ i ∧ i < 0x16F8 then zeroUnless (decide (0x81 < sub) || c.corePort (i - 0x1680))
  else if 0x1710 ≤ i ∧ i < 0x1714 then zeroUnless (c.unitAt 1 n).isSome
  else if i = 0x1731 then presentIf (c.dmaAt n).isSome
  else if i = 0x2110 ∧ sub = 2 then presentIf s.isMaster
  else .here

/-- The highest subindex of index `i` in this build (R433). -/
def State.highest (s : State) (i : Nat) : Nat :=
  catalogue.foldl (fun m r =>
    if r.ilo ≤ i ∧ i ≤ r.ihi then max m (if r.slo = 1 ∧ r.shi = 0x78 then s.cfg.njs else r.shi) else m) 0

/-- What subindex 00 reads: the highest subindex, but for a DMA channel, whose chapter lists 0x08 (R300, R433). -/
def listedHighest (i top : Nat) : Nat := if 0x1810 ≤ i ∧ i < 0x1850 then 8 else top

/-- The row of an object, where it exists (step 1 of R437). Subindex 00 is UNSIGNED8, r0, class F (R433). -/
def State.find (s : State) (i sub : Nat) : Except Abort ObjRow :=
  if !isIndex i || (decide (0x1680 + s.cfg.njs ≤ i) && decide (i < 0x16F8)) then .error .noObject
  else
    let top := s.highest i
    if sub = 0 then .ok ⟨i, i, 0, 0, 1, 0, 15, .f, listedHighest i top, 0, 0, 1⟩
    else if top < sub then .error .noSubindex
    else match rowOf (objKey i sub) with
      | some r => .ok r
      | none => .error .noSubindex

/-- TYPE of a response: 0 when the object does not exist (R444). -/
def State.typeOf (s : State) (i sub : Nat) : Nat :=
  match s.find i sub with
  | .ok r => r.ty
  | .error _ => 0

/-- The ward that a counter's enable names (R292). -/
def tripWardOf (v : Val) : Option (BitVec 4) := if fget v 7 1 = 1 then some (BitVec.ofNat 4 (fget v 0 4)) else none

/-- The ward that a channel's set-up names (R301, R404). -/
def chanWardOf (v : Val) : Option (BitVec 4) := if fget v 27 1 = 1 then some (BitVec.ofNat 4 (fget v 28 4)) else none

/-- The ward whose tag holds the L1 rights of an object: the owner of its junction, channel, entry or counter, or the
ward it describes. -/
def State.ownerWard (s : State) (i sub : Nat) : Option (BitVec 4) :=
  let n := sub - 1
  if i = 0x1213 ∨ (0x1410 ≤ i ∧ i ≤ 0x1413) ∨ i = 0x1510 ∨ i = 0x1520 ∨ i = 0x1521 ∨ i = 0x1733 then s.wardOf n
  else if 0x1680 ≤ i ∧ i < 0x16F8 then s.wardOf (i - 0x1680)
  else if 0x1620 ≤ i ∧ i < 0x1634 then some (BitVec.ofNat 4 (fget (s.obj (objKey i sub)) 21 4))
  else if 0x1810 ≤ i ∧ i < 0x1850 then chanWardOf (s.obj (objKey i 1))
  else if 0x1850 ≤ i ∧ i < 0x1854 then tripWardOf (s.obj (objKey (i + 4) sub))
  else if 0x1854 ≤ i ∧ i < 0x1858 then tripWardOf (s.obj (objKey i sub))
  else if 0x1B40 ≤ i ∧ i < 0x1B50 then tripWardOf (s.obj (objKey (i + 16) sub))
  else if 0x1B50 ≤ i ∧ i < 0x1B60 then tripWardOf (s.obj (objKey i sub))
  else if 0x1C00 ≤ i ∧ i < 0x1E00 then chanWardOf (s.obj (objKey i 1))
  else some (BitVec.ofNat 4 n)

/-! ## Paths (R438, R439, R449) -/

/-- The ward tag of a path. -/
def pathWard : Path → Option (BitVec 4)
  | .inBand _ w _ => some w
  | .service _ w _ => some w
  | _ => none

/-- The highest level a path may reach, 7 for a barred path (R438, R439). -/
def State.pathLimit (s : State) : Path → Nat
  | .bus => fget (s.obj Obj.pathCap) 0 3
  | .mailbox _ => fget (s.obj Obj.pathCap) 3 3
  | .inBand .. => fget (s.obj Obj.pathCap) 6 3
  | .service .. => fget (s.obj Obj.pathCap) 6 3
  | .firmware => 3
  | .peer .. => 3

/-- A request that arrived on the path is executed now: a core runs (R25), and in a freeze only the bus and firmware paths
are served, in the safe state also the mailboxes (R450). -/
def State.servesPath (s : State) (p : Path) : Bool :=
  (s.bootRuns || s.firmwareRuns) &&
  (match p with
    | .mailbox k => (s.cfg.unitAt 3 k).isSome && (!s.frozen || s.safe)
    | .inBand .. => !s.frozen
    | .service .. => !s.frozen
    | _ => true)

/-- Two heads name one request: the same initiator's tag, or the same sender's REQ_ID, or the one request of the path. -/
def sameRequest (a b : Access) : Bool :=
  match a.path, b.path with
  | .inBand u _ t, .inBand v _ x => u == v && t == x
  | .peer _ u t, .peer _ v x => u == v && t == x
  | .service u _ _, .service v _ _ => u == v && a.reqId == b.reqId
  | p, q => p == q

/-- The number of a path at the access arbiter, for those that take a slot of the tile like an initiator (R449). -/
def pathUnit : Path → Option Nat
  | .bus => some pathUnitBase
  | .mailbox p => some (pathUnitBase + 1 + p)
  | .service .. => some (pathUnitBase + 3)
  | _ => none

/-- The path has its turn: nothing is posted on it that still waits for a slot. -/
def State.pathTurn (s : State) (p : Path) : Bool :=
  match pathUnit p with
  | some v => !s.pathWaits v
  | none => true

/-- The request can be answered: its path is served, and no core restart has caught it (R431). -/
def State.servesNow (s : State) (acc : Access) : Bool :=
  s.servesPath acc.path && !s.dict.held.any (fun h => sameRequest h.acc acc)

/-- The request is executed now: it can be answered, and its path has its turn (R449). -/
def State.serves (s : State) (acc : Access) : Bool := s.servesNow acc && s.pathTurn acc.path

/-- The request waits at an in-band endpoint. -/
def inBandPath : Path → Bool
  | .inBand .. => true
  | .service .. => true
  | _ => false

/-- The objects the boot ROM serves: those of Scope, Ports, Start-up, object 2000 and the event recorder (R455). -/
def bootServes (i : Nat) : Bool :=
  decide (i < 0x1100) || (decide (0x1200 ≤ i) && decide (i < 0x1300)) || i == 0x2000 ||
  (decide (0x2100 ≤ i) && decide (i < 0x2200)) || (decide (0x2230 ≤ i) && decide (i < 0x2280))

/-- The path BOOT_SRC names, on which FW_IMAGE is served while the boot ROM runs (R455). -/
def State.bootPath (s : State) (p : Path) : Bool :=
  if (s.obj Obj.strapLatch).getLsbD 2 then p == .mailbox 0 else p == .bus

/-- The objects that accept writes in the safe state (R496, R554). -/
def safeWritable (k : Nat) : Bool :=
  let i := k / 256
  (decide (0x2200 ≤ i) && decide (i < 0x2280) && k != Obj.inject) || k == Obj.dieReset || k == Obj.pkgReset ||
  k == Obj.dumpCtrl || k == Obj.traceCmd || k == Obj.traceReadAt || k == Obj.hangStatus

/-! ## The checks of a request (R437) -/

/-- What a request does to an object. -/
inductive Doing where
  | read | write | upload | download
  deriving DecidableEq, Repr

def Doing.writes : Doing → Bool
  | .write => true
  | .download => true
  | _ => false

/-- The objects that firmware copies to other dies itself, by writes on the firmware path of the peer (R322, R324, R328, R545;
assumption 21). -/
def peerCopies (k : Nat) : Bool :=
  k == Obj.pkgNumber || k == Obj.tbOffset || k == Obj.tbError || k == Obj.hallOffset || k == Obj.hallError ||
    (decide (Obj.epochTarget 0 ≤ k) && decide (k < Obj.epochTarget 16)) || (decide (Obj.pkgStatus 0 ≤ k) && decide (k < Obj.pkgStatus 16))

def isPeer : Path → Bool
  | .peer .. => true
  | _ => false

/-- Steps 1 and 2, after a barred path: the object exists, its unit is present, and the path reaches the level. -/
def State.checkPath (s : State) (acc : Access) (i sub : Nat) (writes : Bool) : Except Abort ObjRow :=
  if s.pathLimit acc.path = 7 then .error .pathBarred
  else match s.find i sub with
    | .error a => .error a
    | .ok r =>
      let p := s.presence i sub
      if (p = .absent ∧ !(isPeer acc.path && writes && peerCopies (objKey i sub))) ∨ (p = .zero ∧ writes) then .error .notPresent
      else if s.pathLimit acc.path < acc.level.toNat ∨
          (s.bootRuns ∧ objKey i sub = Obj.fwImage ∧ !s.bootPath acc.path) then .error .pathBarred
      else .ok r

/-- The level holds a right whose lowest level is `need` (R12, R13, R413): an L1 right by the ward's tag, or from L2 up.
An entry of a gate's or engine's table that is not valid may be written for the writer's own ward (R236); WARD_EVT_EN and
WARD_EVENTS need OBS_OWN (R537). -/
def State.holds (s : State) (acc : Access) (i sub need : Nat) (writes : Bool) : Bool :=
  decide (need ≤ acc.level.toNat) &&
  (need != 1 || acc.level != 1 ||
    (match pathWard acc.path with
      | none => false
      | some w =>
        (s.ownerWard i sub == some w ||
          (writes && decide (0x1620 ≤ i) && decide (i < 0x1634) && fget (s.obj (objKey i sub)) 31 1 == 0)) &&
        ((i != 0x2420 && i != 0x2421) || fget (s.obj (Obj.wardPolicy w.toNat)) 0 1 == 1)))

/-- Length of a scalar of the type, 0 for a DOMAIN (R434). -/
def typeLen (ty : Nat) : Nat :=
  match ty with
  | 1 => 1
  | 2 => 2
  | 3 => 4
  | 4 => 8
  | 5 => 1
  | 6 => 2
  | 7 => 4
  | 8 => 8
  | _ => 0

/-- Steps 3 to 5, and those of step 6 that hold for every object: a ward that is being reclaimed (R423), the boot ROM
(R455), the safe state (R450) and a value an uncorrectable word has spoilt (R431). -/
def State.checkRest (s : State) (acc : Access) (i sub : Nat) (d : Doing) (len : Nat) (r : ObjRow) : Except Abort Unit :=
  let k := objKey i sub
  let copy := isPeer acc.path && peerCopies k
  let need := if d.writes then (if copy then 3 else r.wr) else r.rd
  if need = 15 then .error (if d.writes then (if i = 0x1411 then .liveBank else .readOnly) else .writeOnly)
  else if !s.holds acc i sub need d.writes then .error .level
  else if (r.ty == 9) != (d == .upload || d == .download) then .error .length
  else if d = .write ∧ len ≠ typeLen r.ty then .error .length
  else if s.bootRuns ∧ !bootServes i then .error .badState
  else if d.writes && s.safe && !safeWritable k then .error .badState
  else if (match pathWard acc.path with
      | some w => s.wardReclaiming w
      | none => false) then .error .inUse
  else if s.dict.spoilt.contains k && !(acc.path == .firmware && d.writes) then .error .storeError
  else .ok ()

/-- Every check of R437 but those of the owning chapter. -/
def State.check (s : State) (acc : Access) (i sub : Nat) (d : Doing) (len : Nat) : Except Abort ObjRow :=
  if inBandPath acc.path ∧ s.bootRuns ∧ s.pathLimit acc.path ≠ 7 then .error .badState
  else match s.checkPath acc i sub d.writes with
    | .error a => .error a
    | .ok r => match s.checkRest acc i sub d len r with
      | .error a => .error a
      | .ok _ => .ok r

/-- The value a write leaves: the bits its level may write, over the others as they are (R11, R435). The privileged
channels' WARD and OWNED need L3 (R404). -/
def ObjRow.merge (r : ObjRow) (k : Nat) (level : BitVec 2) (old v : Val) : Val :=
  let m0 := BitVec.ofNat 64 (if 2 ≤ level.toNat then r.wmask ||| r.w2mask else r.wmask)
  let i := k / 256
  let m := if 0x1C00 ≤ i ∧ i < 0x1E00 ∧ k % 256 = 1 ∧ 28 ≤ (i - 0x1C00) % 32 ∧ level ≠ 3 then m0 &&& ~~~(0xF8000000 : Val) else m0
  (old &&& ~~~m) ||| (v &&& m)

/-! ## Requests and responses (R444) -/

/-- A request PDU. -/
structure ReqPdu where
  cmd : Nat
  level : BitVec 2
  index : Nat
  sub : Nat
  xfer : BitVec 16
  arg : BitVec 32
  reqId : BitVec 32
  data : List Byte
  deriving DecidableEq, Repr

def ReqPdu.ofBytes (bs : List Byte) : ReqPdu :=
  ⟨leAt bs 0 1, BitVec.ofNat 2 (leAt bs 1 1), leAt bs 2 2, leAt bs 4 1, BitVec.ofNat 16 (leAt bs 6 2),
    BitVec.ofNat 32 (leAt bs 8 4), BitVec.ofNat 32 (leAt bs 12 4), (bs.drop 16).take 1024⟩

def ReqPdu.bytes (q : ReqPdu) : List Byte :=
  leBytes 1 q.cmd ++ leBytes 1 q.level.toNat ++ leBytes 2 q.index ++ leBytes 1 q.sub ++ [0] ++ leBytes 2 q.xfer.toNat ++
    leBytes 4 q.arg.toNat ++ leBytes 4 q.reqId.toNat ++ q.data

/-- A CMD that R444 lists. -/
def listedCmd (c : Nat) : Bool := decide (1 ≤ c) && decide (c ≤ 7)

/-- What an answer says beside its echoes: STATUS, TYPE, XFER, ARG and DATA. -/
structure Reply where
  status : Nat
  ty : Nat
  xfer : BitVec 16
  arg : BitVec 32
  data : List Byte
  deriving DecidableEq, Repr

def Reply.done (ty : Nat) (xfer : BitVec 16) (arg : Nat) (data : List Byte) : Reply := ⟨0, ty, xfer, BitVec.ofNat 32 arg, data⟩

def Reply.aborted (ty : Nat) (xfer : BitVec 16) (a : Abort) : Reply := ⟨1, ty, xfer, BitVec.ofNat 32 a.code, []⟩

/-- The response PDU. -/
def Reply.bytes (r : Reply) (cmd i sub : Nat) (reqId : BitVec 32) : List Byte :=
  leBytes 1 cmd ++ leBytes 1 r.status ++ leBytes 2 i ++ leBytes 1 sub ++ leBytes 1 r.ty ++ leBytes 2 r.xfer.toNat ++
    leBytes 4 r.arg.toNat ++ leBytes 4 reqId.toNat ++ r.data

/-- Bytes as beats of 128, zero-padded to `n` beats. -/
def beatsOf (n : Nat) (bs : List Byte) : List (BitVec 1024) :=
  (List.range n).map (fun j => BitVec.ofNat 1024 (ofLe ((bs.drop (128 * j)).take 128)))

/-! ## The answer on its path -/

/-- The slot of the management tile that holds a request of `unit` with `tag`, and its GEN (R440, R449). -/
def State.tileSlot (s : State) (unit : BitVec 16) (tag : BitVec 10) : Option (BitVec 4) :=
  ((s.target 0xC1).slots.findSome? (fun x =>
    match x.rq with
    | some p => if x.src == unit && p.tag == tag then some p.gen else none
    | none => none))

/-- The answer of an OBJECT transaction: 9 beats, or an emission where no slot holds the request. -/
def State.answerSlot (s : State) (p : Path) (unit : BitVec 16) (tag : BitVec 10) (bs : List Byte) : State :=
  match s.tileSlot unit tag with
  | some gen => s.slotAnswer 0xC1 unit tag gen Status.okay (beatsOf 9 bs)
  | none => s.emit (.answer p bs)

/-- The five words of the reply to a service message (R441). -/
def serviceWords (r : Reply) (cmd i sub : Nat) (reqId : BitVec 32) : List (BitVec 32) :=
  let v := if r.status = 1 then r.arg.toNat else leAt r.data 0 8
  [BitVec.ofNat 32 (cmd + r.status * 256 + r.ty * 65536), BitVec.ofNat 32 (i + sub * 65536), reqId,
    BitVec.ofNat 32 v, BitVec.ofNat 32 (v / 2 ^ 32)]

/-- A service message leaves the queue, answered. -/
def DictState.served (d : DictState) (src : BitVec 16) (ward : BitVec 4) (reqId : BitVec 32) : DictState :=
  match d.service.find? (fun m => m.src == src && m.ward == ward && m.words.getD 2 0 == reqId) with
  | some m => { d with service := d.service.erase m }
  | none => d

def Mailbox.zero : Mailbox := ⟨[], [], false, false, false, 0, 0⟩

def State.mailbox (s : State) (p : Nat) : Mailbox := Tbl.get Mailbox.zero s.dict.mailboxes p

def State.setMailbox (s : State) (p : Nat) (m : Mailbox) : State :=
  { s with dict := { s.dict with mailboxes := Tbl.set Mailbox.zero s.dict.mailboxes p m } }

/-- A response reaches RESPONSE of a mailbox (R442). -/
def State.answerMailbox (s : State) (p : Nat) (bs : List Byte) : State :=
  let m := s.mailbox p
  let s1 := s.setMailbox p { m with response := bs, busy := false, done := true, answered := m.answered + 1 }
  if m.irq.getLsbD 15 then s1.hostVector p 0 (BitVec.ofNat 11 m.irq.toNat) else s1

/-- The enterprise number as DSP0236 orders it: most significant byte first (R443). -/
def ianaBytes (v : Nat) : List Byte := (leBytes 4 v).reverse

/-- The service queue gives back the slot of the message answered, and asks for the next one's (R449). -/
def State.serviceNext (s : State) : State :=
  let s1 := s.pathDone (pathUnitBase + 3)
  if s1.dict.service.isEmpty then s1 else s1.pathAsk (pathUnitBase + 3)

/-- The answer of a request goes back on the path it came by. -/
def State.answer (s : State) (acc : Access) (cmd i sub : Nat) (r : Reply) : State :=
  let bs := r.bytes cmd i sub acc.reqId
  match acc.path with
  | .bus =>
    match s.dict.bus with
    | some (t, _) => (({ s with dict := { s.dict with bus := none } }).pathDone pathUnitBase).mctpSend
        0x7F t (ianaBytes (s.obj Obj.mctpIana).toNat ++ bs)
    | none => s.emit (.answer .bus bs)
  | .mailbox p => (s.answerMailbox p bs).pathDone (pathUnitBase + 1 + p)
  | .inBand u w t => s.answerSlot (.inBand u w t) u t bs
  | .peer d u t => s.answerSlot (.peer d u t) u t bs
  | .service src w k =>
    (({ s with dict := s.dict.served src w acc.reqId }).serviceNext).ctlReply 0xC1 src w k (serviceWords r cmd i sub acc.reqId)
  | .firmware => s.emit (.answer .firmware bs)

def Fld.accesses : Fld := ⟨Obj.accessStat, 40, 24⟩
def Fld.aborts : Fld := ⟨Obj.accessStat, 24, 16⟩
def Fld.abandoned : Fld := ⟨Obj.accessStat, 0, 8⟩

/-- A request has been executed and is answered (R453). -/
def State.respond (s : State) (acc : Access) (cmd i sub : Nat) (r : Reply) : State :=
  let s1 := s.bump .accesses 1
  (if r.status = 1 then s1.bump .aborts 1 else s1).answer acc cmd i sub r

/-- A request is aborted. -/
def State.abortRequest (s : State) (acc : Access) (cmd i sub : Nat) (xfer : BitVec 16) (a : Abort) : State :=
  s.respond acc cmd i sub (Reply.aborted (s.typeOf i sub) xfer a)

/-- A request that cannot be taken is answered as soon as it is there. The boot ROM executes no in-band request (R455). -/
def State.refuseNow (s : State) (acc : Access) (cmd i sub : Nat) (xfer : BitVec 16) (a : Abort) : State :=
  s.abortRequest acc cmd i sub xfer (if s.pathLimit acc.path = 7 then .pathBarred else if s.bootRuns ∧ inBandPath acc.path then .badState else a)

/-- The path of an OBJECT request in a slot of the tile: a bridge endpoint brings the requests of peer firmware (R438, R440). -/
def slotPath (src : BitVec 16) (ward : BitVec 4) (tag : BitVec 10) : Path :=
  if 0xB0 ≤ src.toNat % 1024 ∧ src.toNat % 1024 < 0xB4 then .peer 0 src tag else .inBand src ward tag

/-- The request PDU that a slot of the tile holds, once it is whole. -/
def Slot.pdu (x : Slot) : Option (TPkt × ReqPdu) :=
  match x.rq, x.data with
  | some p, some d => if d.status = 0 then some (p, ReqPdu.ofBytes (d.beats.flatMap (fun b => leBytes 128 b.toNat))) else none
  | _, _ => none

/-- A request of the tile whose data were damaged ends with UNCORRECTABLE; one with a reserved CMD, with BAD_COMMAND (R444, R448). -/
def State.tileRefuse (s : State) (x : Slot) : State :=
  match x.rq, x.data with
  | some p, some d =>
    if d.status ≠ 0 then s.slotAnswer 0xC1 p.src p.tag p.gen Status.uncorrectable []
    else match x.pdu with
      | some (_, q) =>
        let acc : Access := ⟨slotPath p.src p.ward p.tag, q.level, q.reqId⟩
        if listedCmd q.cmd ∨ !s.servesNow acc then s else s.refuseNow acc q.cmd q.index q.sub q.xfer .badCommand
      | none => s
  | _, _ => s

/-- The tile's slots are looked through for requests it cannot take. -/
def State.serveTile (s : State) : State := (s.target 0xC1).slots.foldl State.tileRefuse s

/-! ## Executing a write -/

/-- An object that an uncorrectable word had spoilt holds a value again (R431). -/
def State.unspoilt (s : State) (k : Nat) : State :=
  { s with dict := { s.dict with spoilt := s.dict.spoilt.filter (fun x => x != k) } }

/-- The write of the object with key `k`, of type `ty`, has had its effect and is answered. -/
def State.written (s : State) (acc : Access) (k ty : Nat) : State :=
  (s.unspoilt k).respond acc 2 (k / 256) (k % 256) (Reply.done ty 0 0 [])

/-- A write of an object at its turn, with its full length: the checks of R437, then the owning chapter's, which the effect of
the merged value holds. -/
def State.serveKey (s : State) (acc : Access) (k : Nat) (v : Val) (eff : Val → Effect) : State :=
  if !s.serves acc then s
  else match s.check acc (k / 256) (k % 256) .write (typeLen (s.typeOf (k / 256) (k % 256))) with
    | .error a => s.abortRequest acc 2 (k / 256) (k % 256) 0 a
    | .ok r => match eff (r.merge k acc.level (s.obj k) v) s with
      | .error a => s.abortRequest acc 2 (k / 256) (k % 256) 0 a
      | .ok s1 => s1.written acc k r.ty

/-- A write whose further effect begins once it has been answered. -/
def State.serveThen (s : State) (acc : Access) (k : Nat) (v : Val) (eff : Val → Effect) (after : State → State) : State :=
  let i := k / 256
  let sub := k % 256
  if !s.serves acc then s
  else match s.check acc i sub .write (typeLen (s.typeOf i sub)) with
    | .error a => s.abortRequest acc 2 i sub 0 a
    | .ok r => match eff (r.merge k acc.level (s.obj k) v) s with
      | .error a => s.abortRequest acc 2 i sub 0 a
      | .ok s1 => after (s1.written acc k r.ty)

/-- The value is stored as it stands. -/
def storeVal (k : Nat) (v : Val) : Effect := fun s => .ok (s.setObj k v)

/-- An OBJECT request of the tile's firmware to another die, on the firmware path, at L3 (R438, R440); the flag says that a tag was free
for it. -/
def State.peerAsk (s : State) (die : Nat) (q : ReqPdu) (beats : Nat) (owner : TxnOwner) : State × Bool :=
  match (s.tinit 0xC1).freeTag 1024 with
  | none => (s, false)
  | some tag => (s.acceptTxn 0xC1 ⟨7, BitVec.ofNat 64 ((s.obj Obj.pkgNumber).toNat * 2 ^ 47 + die * 2 ^ 41), BitVec.ofNat 5 (beats - 1), 3, 0,
      beatsOf beats q.bytes, List.replicate beats (BitVec.allOnes 128)⟩ tag owner, true)

/-- A WRITE of an object of another die. -/
def State.peerWrite (s : State) (die i sub : Nat) (bs : List Byte) : State :=
  (s.peerAsk die ⟨2, 3, i, sub, 0, BitVec.ofNat 32 bs.length, 0, bs⟩ 1 .nobody).1

end Sys2Proof.Machine
end

