-- ==== Sys2Proof/Machine/Tensor.lean ====
section
/-! DEFINITION. The tensor plane: injection, arrival at inputs, outputs, delivery, wake-ahead and the pace gauges
(R38 to R42, R82 to R112, R122 to R129, R156). -/

namespace Sys2Proof.Machine

/-- The port of a side: A as 4, B as 5 (R118). -/
def sidePort : Side → Nat
  | .a => 4
  | .b => 5

/-- A unit that injects and takes tensor beats is at the port: a core port at A, a memory attachment or a host port at B.
Gates and bridges inject and take by steps of their own. -/
def State.beatPort (s : State) (n : Nat) : Side → Bool
  | .a => s.cfg.corePort n
  | .b => s.cfg.bKind n == 1 || s.cfg.bKind n == 3

/-- What is known of the image whose physical bank `sel` of `n` holds (R146). -/
def State.factsAt (s : State) (n sel : Nat) : ImageFacts :=
  match s.wardOf n with
  | some w => if sel = s.rd (.liveSel n) then (s.sched w.toNat).live else (s.sched w.toNat).staged
  | none => ImageFacts.null

/-! ## Injection (R39, R40, R89, R126, R141, R142) -/

/-- An ingress at a period boundary stops in ARMED once the arm has reached its junction, and inserts its marker once it has been
released, its count has reached T and the link has room. -/
def State.ingBoundary (s : State) (n i : Nat) : State :=
  let x := s.ing n i
  match s.wardOf n with
  | none => s
  | some w =>
    if (s.inList n i).isEmpty ∨ x.flow ≠ 0 ∨ x.entry ≠ 0 ∨ x.run ≠ 0 ∨ x.marked ∨ s.rd (.inSwapped n i) = 1 then s
    else if s.rd (.ldState w.toNat) = 4 ∧ (s.sched w.toNat).armed.contains n then s.setIng n i { x with stopped := true }
    else if s.rd (.ldState w.toNat) = 5 ∧ !x.stopped ∧ x.periods = s.rd (.epochTarget w.toNat) ∧ s.linkRoom n i then
      (s.setIng n i { x with marked := true, stopped := false }).sendFlit n i (s.swapMarker w)
    else s

/-- The ingress begins a run: the position moves on with the run's first beat (R40). -/
def State.ingBegin (s : State) (n i : Nat) : State :=
  let x := s.ing n i
  let l := s.inList n i
  match l[x.entry]? with
  | none => s
  | some e =>
    let p := nextIntake l x.entry x.run
    s.setIng n i { x with entry := p.1, run := p.2.1, flow := inFlow e + 1, taken := 0, flits := inFlits e
                          tally := (s.factsAt n (s.inSel n i)).tally.contains (inFlow e), crc := 0xFFFFFFFF }

/-- A run has been injected whole: at the end of the period the count rises (R114, R141). -/
def State.ingEnd (s : State) (n i : Nat) : State :=
  let x := s.ing n i
  let y := { x with flow := 0, taken := 0, periods := if x.entry = 0 ∧ x.run = 0 then x.periods + 1 else x.periods }
  (s.setIng n i y).ingBoundary n i

/-- A flit of the run in progress enters the input, with the error and the end given (R39, R87). -/
def State.ingFlit (s : State) (n i : Nat) (p : BitVec 4096) (flags : Nat) (err last : Bool) : State :=
  let x := s.ing n i
  let crc := crcFlit x.crc p
  let f : TFlit := ⟨p, frameOf (if x.tally then 1 else 0) flags err last (x.taken == 0), runField last (x.flow - 1) x.taken crc⟩
  let s1 := (s.setIng n i { x with taken := x.taken + 1, crc := crc }).sendFlit n i f
  if last then s1.ingEnd n i else s1

/-- A run-length fault at the ingress, or an over-long run (R89, R126). -/
def State.ingLength (s : State) (n i : Nat) (src : Nat) : State :=
  s.raise (Cause.atUnit src (s.wardOf n) n i 0x3F ((s.ing n i).flow - 1))

/-- The ingress takes one flit of a run, `last` at its end, with the flags and the error of the unit that makes it. -/
def State.ingTakeAs (s : State) (n i : Nat) (p : BitVec 4096) (flags : Nat) (err last : Bool) : State :=
  if (s.ing n i).discard then (if last then s.setIng n i { s.ing n i with discard := false } else s)
  else
    let s1 := if (s.ing n i).flow = 0 then s.ingBegin n i else s
    let x := s1.ing n i
    let full := decide (x.flits ≤ x.taken + 1)
    if full && !last then
      if i = 4 ∧ x.flits = 1048576 then (s1.ingLength n i 0x043).ingFlit n i p flags true true
      else
        let s2 := (s1.ingLength n i 0x044).ingFlit n i p flags true true
        s2.setIng n i { s2.ing n i with discard := true }
    else if last && !full then (s1.ingLength n i 0x044).ingFlit n i p flags true true
    else s1.ingFlit n i p flags err last

/-- The ingress takes one flit offered, `last` with TI_LAST. -/
def State.ingTake (s : State) (n i : Nat) (p : BitVec 4096) (last : Bool) : State := s.ingTakeAs n i p 0 false last

/-- The ingress may take a beat now: its live list is not empty, it is not stopped, and the link has room; or it discards the beats
of a run that has been ended (R126, R148, R463). -/
def State.ingOpen (s : State) (n i : Nat) : Bool :=
  let x := s.ing n i
  x.discard || (!(s.inList n i).isEmpty && !x.stopped && !x.marked && !x.cut && s.linkRoom n i && !(s.tin n i).stuck)

/-- The flow that the live bank expects next from the ingress (R40). -/
def State.ingNext (s : State) (n i : Nat) : Option Nat := ((s.inList n i)[(s.ing n i).entry]?).map inFlow

/-- TENSOR_INJECT_BEAT: an ingress takes a beat, or leaves it unaccepted; one out of order is raised once. At a gated
junction the offered VALID wakes the region instead (R50). Read data that a memory attachment in adapter reset discards count in
DISCARDS (R36). DESIGN CHOICE (log entry 121): where the lower flit of a beat of two is its run's 1,048,576th, the upper begins a run
without the check of R40, which the spec makes of the next beat. -/
def Tensor.inject (n : Nat) (side : Side) (flow : BitVec 12) (lower : BitVec 4096) (upper : Option (BitVec 4096))
    (last : Bool) (s : State) : State :=
  let i := sidePort side
  if side = .b ∧ s.cfg.bKind n = 1 ∧ s.adapterHeld n .b then s.bump ⟨Obj.bPortStatus n, 16, 16⟩ 1
  else if !s.beatPort n side ∨ !s.running ∨ !s.adapterLive n side then s
  else if s.regionStateOf (s.regionOf n) = 4 then s.wakeAt n
  else if !s.tMoves n ∨ (side = .a ∧ s.portClosed n) ∨ !s.ingOpen n i then s
  else
    let x := s.ing n i
    if !x.discard && x.flow == 0 && s.ingNext n i != some flow.toNat then
      if x.refused then s
      else (s.setIng n i { x with refused := true }).raise (Cause.atUnit 0x045 (s.wardOf n) n i 0x3F flow.toNat)
    else
      let up := if side = .a ∧ s.cfg.adapterAt n / 2 % 2 = 1 then upper else none
      let s0 := s.setIng n i { x with refused := false }
      match up with
      | none => (s0.ingTake n i lower last).touch n
      | some u => ((s0.ingTake n i lower false).ingTake n i u last).touch n

def execTensorInjectBeat (n : Nat) (side : Side) (flow : BitVec 12) (lower : BitVec 4096)
    (upper : Option (BitVec 4096)) (last : Bool) (s : State) : Host.Outcome State Fault Refusal :=
  .next (Tensor.inject n side flow lower upper last s)

/-- The flit that ends a run cut short enters the link, or waits for room there. -/
def State.ingCut (s : State) (n i : Nat) : State :=
  if s.linkRoom n i then (s.setIng n i { s.ing n i with cut := false }).ingFlit n i 0 0 true true
  else s.setIng n i { s.ing n i with cut := true }

/-- A run that a port has injected in part is ended with an error completion at every destination; with `rest` its beats up to
TI_LAST are discarded (R36, R52). -/
def State.ingAbort (s : State) (n i : Nat) (rest : Bool) : State :=
  let x := s.ing n i
  let s1 := s.setIng n i { x with discard := rest && (x.discard || decide (x.flow ≠ 0)), refused := false }
  if x.flow = 0 ∨ x.cut then s1 else s1.ingCut n i

/-- Room has come on the link of an ingress: the end of a run cut short goes on, or the marker (R142). -/
def State.ingGoes (s : State) (n i : Nat) : State :=
  if i < 4 then s else if (s.ing n i).cut then s.ingCut n i else s.ingBoundary n i

/-! ## Arrival at an input (R90 to R93, R126 to R128) -/

/-- The lane and the bit of its code word that bit `p` of a flit on the link belongs to (R83, R84): data bits 0 to 516,
check bit i as 517 + i, the parity as 527. -/
def laneBit (p : Nat) : Nat × Nat :=
  if p < 4096 then (p / 512, p % 512)
  else if p < 4192 then
    let b := (p - 4096) % 12
    ((p - 4096) / 12, if b = 11 then 516 else if b = 10 then 527 else 517 + b)
  else ((p - 4192) / 4, 512 + (p - 4192) % 4)

/-- The wire of a code word's bit: the inverse of `laneBit` (R525). -/
def laneWire (j b : Nat) : Nat :=
  if b < 512 then 512 * j + b
  else if b < 516 then 4192 + 4 * j + (b - 512)
  else if b = 516 then 4096 + 12 * j + 11
  else if b = 527 then 4096 + 12 * j + 10
  else 4096 + 12 * j + (b - 517)

/-- The bits of lane `j` among the inverted bits of a flit. -/
def laneFlips (flips : List Nat) (j : Nat) : List Nat :=
  (flips.filter (fun p => (laneBit p).1 == j)).map (fun p => (laneBit p).2)

/-- A flit with data bits of lane `j` inverted. -/
def TFlit.invert (f : TFlit) (j : Nat) (bits : List Nat) : TFlit :=
  { payload := flipBits f.payload ((bits.filter (fun b => decide (b < 512))).map (fun b => 512 * j + b))
    run := flipBits f.run ((bits.filter (fun b => decide (512 ≤ b) && decide (b < 516))).map (fun b => 4 * j + (b - 512)))
    frame := flipBits f.frame ((bits.filter (fun b => b == 516)).map (fun _ => j)) }

/-- What an input finds in lane `j`. -/
def State.laneDecode (s : State) (n i : Nat) (flips : List Nat) (j : Nat) : Decoded :=
  Hamming.decode 517 10 (laneFlips flips j ++
    (if s.injectedAt 0x01 n i j then Hamming.injected 517 10 (s.rd .injAll == 1) else []))

/-- The data bits of lane `j` that stay wrong: those past the decoder, or all that came, in a word it cannot correct. -/
def laneWrong (d : Decoded) (flips : List Nat) (j : Nat) : List Nat :=
  if d.bad then ((laneFlips flips j).foldl (fun l b => toggle b l) []).filter (fun b => decide (b < 517)) else d.wrong

/-- The flit after correction, its payload zeroed and ERROR set where a word is uncorrectable (R91). -/
def State.flitSeen (s : State) (n i : Nat) (flips : List Nat) (f : TFlit) : TFlit :=
  let g := (List.range 8).foldl (fun (a : TFlit) j => a.invert j (laneWrong (s.laneDecode n i flips j) flips j)) f
  if (List.range 8).any (fun j => (s.laneDecode n i flips j).bad) then { g with payload := 0 }.setErr else g

/-- The first lane of `ls` whose word is uncorrectable. -/
def State.badLane (s : State) (n i : Nat) (flips : List Nat) (ls : List Nat) : Option Nat :=
  ls.find? (fun j => (s.laneDecode n i flips j).bad)

/-- The field of TLINK_CORR of mesh input `i` (R112). -/
def Fld.tlinkCorr (n i : Nat) : Fld := ⟨Obj.tlinkCorr n, 8 * i, 8⟩

/-- A correction at a mesh input is counted, raised and noted against its wire (R112, R525). -/
def State.noteCorrection (s : State) (n i j : Nat) (bit : Nat) (injected : Bool) : State :=
  if 4 ≤ i then s
  else ((s.bump (.tlinkCorr n i) 1).raise ⟨0x04D, none, n, i, j, 0xFFFF, injected⟩).noteWire n i (laneWire j bit)

/-- The corrections in a flit, and the injections that met it. -/
def State.noteLanes (s : State) (n i : Nat) (flips : List Nat) : State :=
  (List.range 8).foldl (fun (a : State) j =>
    let d := s.laneDecode n i flips j
    let inj := s.injectedAt 0x01 n i j
    let b := if inj then a.injectFired else a
    match d.corrected with
    | some bit => if d.bad then b else b.noteCorrection n i j bit inj
    | none => b) s

/-- The flit that stands for one whose frame cannot be trusted (R92). -/
def TIn.lostFrame (x : TIn) (flow : Nat) : TFlit :=
  ⟨0, frameOf 0 0 true true (x.passed == 0), outerOf (crcFlit x.crc 0) flow (x.passed + 1)⟩

/-- The input holds a flit, and feeds the node where the node takes it. -/
def State.holdFlit (s : State) (n i : Nat) (f : TFlit) (err : Bool) : State :=
  let x := s.tin n i
  ((s.setTin n i { x with held := some f, done := 0, passed := x.passed + 1, crc := crcFlit x.crc f.payload, err := err }).settleIn n i).feedNode n i

/-- A run-length fault at input `i`: raised here for mesh inputs, for runs from a bridge, and where the input itself cuts the run
short (`own`); an ingress has raised its own (R126). -/
def State.raiseLength (s : State) (n i flow : Nat) (own : Bool) : State :=
  if 4 ≤ i ∧ !own ∧ (s.cfg.tensorGroup n i).isNone then s else s.raise (Cause.atUnit 0x044 (s.wardOf n) n i 0x3F flow)

/-- A flit made its run's last: its RUN_FIELD holds OUTER over what the junction has passed (R87, R126). -/
def TFlit.endHere (f : TFlit) (x : TIn) (flow : Nat) : TFlit :=
  { f.setErr.setLast with run := outerOf (crcFlit x.crc f.payload) flow (x.passed + 1) }

/-- A flit that belongs to a run of the live list is held (R86, R93, R126). `lost` marks one whose frame was lost. -/
def State.passIn (s : State) (n i : Nat) (e : BitVec 64) (f : TFlit) (lost : Bool) : State :=
  let x := s.tin n i
  let w := s.wardOf n
  let stray := f.first && !(f.last && f.err) && f.flow != inFlow e
  let s1 := if stray then s.raise (Cause.atUnit 0x042 w n i 0x3F f.flow) else s
  let err := x.err || stray || f.err
  let g := if err then f.setErr else f
  let pos := x.passed + 1
  if f.last ∧ pos < inFlits e then (s1.raiseLength n i (inFlow e) lost).holdFlit n i g err
  else if !f.last ∧ inFlits e ≤ pos then
    let s2 := s1.raiseLength n i (inFlow e) false
    (s2.setTin n i { s2.tin n i with skip := 2 }).holdFlit n i (g.endHere x (inFlow e)) true
  else s1.holdFlit n i g err

/-- A discarded flit is counted in TLINK_CORR where a lost frame is the cause (R92, R112). -/
def State.discardFlit (s : State) (n i : Nat) : State :=
  if (s.tin n i).skip = 1 ∧ i < 4 then s.bump (.tlinkCorr n i) 1 else s

/-- A flit at an input whose live list is empty: discarded, and raised once per run (R127); what follows a lost frame counts as
discarded up to a FIRST (R92). -/
def State.strayFlit (s : State) (n i : Nat) (f : TFlit) : State :=
  let x := s.tin n i
  if x.skip ≠ 0 ∧ !f.first then s.discardFlit n i
  else if !x.strayed ∨ f.first then
    (s.setTin n i { x with strayed := !f.last, skip := 0 }).raise (Cause.atUnit 0x042 (s.wardOf n) n i 0x3F f.flow)
  else if f.last then s.setTin n i { x with strayed := false }
  else s

/-- A flit whose frame bits cannot be trusted (R86, R92). At an empty list it is discarded and raised as a run there (R127). -/
def State.frameLost (s : State) (n i : Nat) (injected : Bool) : State :=
  let x := s.tin n i
  if x.skip ≠ 0 then s.discardFlit n i
  else match (s.inList n i)[x.entry]? with
    | none =>
      let s1 := (s.setTin n i { x with skip := 1, strayed := true }).raise ⟨0x041, s.wardOf n, n, i, 0x3F, 0xFFFF, injected⟩
      if x.strayed then s1 else s1.raise (Cause.atUnit 0x042 (s.wardOf n) n i 0x3F 0xFFFF)
    | some e =>
      let s1 := s.raise ⟨0x041, s.wardOf n, n, i, 0x3F, inFlow e, injected⟩
      let s2 := s1.setTin n i { s1.tin n i with skip := 1 }
      s2.passIn n i e (x.lostFrame (inFlow e)) true

/-- The live-bank word an input reads at the head of a run: an armed store injection may halt the input (R128). -/
def State.inRead (s : State) (n i : Nat) : State :=
  let r := s.storeDecode n 0 64 7 []
  let s1 := s.storeRead n 0 64 7 []
  if r.bad then
    (((s1.setTin n i { s1.tin n i with stuck := true }).wr (.halted n) 1).storeRaise 0x047 n i 0 (s.wardOf n)
      (s.storeInjected n 0)).rowBad n 0 (.bank n (s.inSel n i == 1) (6 + i) (s.tin n i).entry)
  else s1

/-- The input reads an intake entry: its run begins. -/
def State.inReads (s : State) (n i : Nat) : Bool :=
  s.storeInjected n 0 && (s.tin n i).passed == 0 && (s.tin n i).skip == 0 && !(s.inList n i).isEmpty

/-- A marker is required at the input: its T-th period is done (R145). What the input discards up to a FIRST is no flit there
(R92, R126). -/
def State.markerDue (s : State) (n i : Nat) : Bool :=
  s.swapGo n && s.rd (.inSwapped n i) == 0 && s.expectsMarker n i &&
    ((s.inList n i).isEmpty || decide (s.swapT n ≤ (s.tin n i).periods))

/-- A marker out of place at input `i`: the marker is discarded, the lists it touches stop, and the load fails (R145). -/
def State.markerFault (s : State) (n i : Nat) : State :=
  let s1 := s.setTin n i { s.tin n i with stuck := true, held := none, done := 0 }
  let s2 := (List.range 6).foldl (fun (a : State) o =>
    if namesSrc (s.outList n o) i then a.setTout n o { a.tout n o with stuck := true } else a) s1
  let s3 := if joinsTake (s.joinList n) i then s2.setNode n { s2.node n with stuck := true } else s2
  let s4 := match s.wardOf n with
    | some w => ((s3.leaveSwap w).markStaged w 4).loadFails w.toNat 0x0F n (6 + i) 0x1FFF
    | none => s3
  s4.raise (Cause.atUnit 0x048 (s.wardOf n) n i 0x3F 0xFFF)

/-- The marker at input `i` is the one expected, at a period's boundary (R145). -/
def State.markerFits (s : State) (n i : Nat) (f : TFlit) : Bool :=
  let x := s.tin n i
  match s.wardOf n with
  | some w =>
    s.rd (.ldState w.toNat) == 5 && f.payload.extractLsb' 64 4 == w &&
      f.payload.extractLsb' 0 32 == BitVec.ofNat 32 (s.rd (.epochOf w.toNat) + 1) &&
      s.rd (.inSwapped n i) == 0 && x.passed == 0 && x.entry == 0 && x.run == 0
  | none => false

/-- A marker reaches input `i` (R144, R145). -/
def State.takeMarker (s : State) (n i : Nat) (f : TFlit) : State :=
  if s.markerFits n i f then (s.setTin n i { s.tin n i with held := some f, done := 0, skip := 0 }).swapTry n
  else s.markerFault n i

/-- The receiving endpoint of a bridge checks the sequence and the outer code of a run, and sets ERROR where one fails
(R90, R313). -/
def State.bridgeChecked (s : State) (n i flow : Nat) (f : TFlit) : TFlit :=
  let x := s.tin n i
  if (s.cfg.tensorGroup n i).isNone then f
  else if f.last then (if f.run = outerOf (crcFlit x.crc f.payload) flow (x.passed + 1) then f else f.setErr)
  else if f.seq = x.passed then f
  else f.setErr

/-- A flit that has come through its codes (R86, R92, R93, R127). -/
def State.takeFlit (s : State) (n i : Nat) (f : TFlit) : State :=
  let x := s.tin n i
  if f.isMarker then s.takeMarker n i f
  else match (s.inList n i)[x.entry]? with
    | none => s.strayFlit n i f
    | some e =>
      if x.skip ≠ 0 ∧ !f.first then s.discardFlit n i
      else (s.setTin n i { x with skip := 0 }).passIn n i e (s.bridgeChecked n i (inFlow e) f) false

/-- The tensor-link source for an uncorrectable word of lane `j` (R91). -/
def State.laneRaise (s : State) (n i j flow : Nat) : State :=
  s.raise ⟨0x040, s.wardOf n, n, i, j, flow, s.injectedAt 0x01 n i j⟩

/-- The flow that a fault at input `i` names: that of its intake entry, or that of the flit. -/
def State.faultFlow (s : State) (n i : Nat) (g : TFlit) : Nat :=
  match (s.inList n i)[(s.tin n i).entry]? with
  | some e => inFlow e
  | none => g.flow

/-- A flit leaves the link for the input: its codes are checked and it is taken, ended or discarded. A KIND of 0b11 counts as an
uncorrectable word of lane 6, which carries it (R86). -/
def State.latchFlit (s : State) (n i : Nat) (flips : List Nat) (f : TFlit) (rest : List TFlit) : State :=
  let s1 := (s.setTin n i { (s.tin n i).acknowledge with wire := rest }).noteLanes n i flips
  let g := s.flitSeen n i flips f
  let frameBad := s.badLane n i flips [0, 1, 6, 7]
  let s2 := match s.badLane n i flips (List.range 8) with
    | some j => s1.laneRaise n i j (s.faultFlow n i g)
    | none => if g.kind = 3 then s1.laneRaise n i 6 (s.faultFlow n i g) else s1
  if frameBad.isSome || (g.kind == 3) then
    s2.frameLost n i (match frameBad with
      | some j => s.injectedAt 0x01 n i j
      | none => false)
  else s2.takeFlit n i g

/-- A flit can leave the link for input `i` of `n` now. -/
def State.latchFree (s : State) (n i : Nat) : Bool :=
  s.tMoves n && (s.tin n i).held.isNone && !(s.tin n i).stuck

/-- TENSOR_FLIT_ARRIVE: the oldest flit on the link into input `i` is latched, with the bits `flips` inverted. -/
def Tensor.arrive (n i : Nat) (flips : List Nat) (s : State) : State :=
  match (s.tin n i).wire with
  | [] => s
  | f :: rest =>
    if 6 ≤ i then s
    else if s.regionStateOf (s.regionOf n) = 4 then s.wakeAt n
    else if !s.latchFree n i then s
    else if s.inReads n i && (s.storeDecode n 0 64 7 []).bad then s.inRead n i
    else
      let s1 := if s.inReads n i then s.inRead n i else s
      if !f.isMarker && s.markerDue n i && ((s.tin n i).skip == 0 || f.first) then s1.markerFault n i
      else (((((s1.latchFlit n i flips f rest).refillFromBridge n i).ingGoes n i).swapTry n).swapBehind n i).touch n

/-- EPOCH_MARKER_ARRIVE: the marker at the head of the link into input `i` is latched, and the lists of the junction that
can swap do (R144, R145). -/
def Tensor.markerArrive (n i : Nat) (s : State) : State :=
  match (s.tin n i).wire with
  | f :: _ => if f.isMarker then Tensor.arrive n i [] s else s
  | [] => s

def execEpochMarkerArrive (n : Nat) (inp : Nat) (s : State) : Host.Outcome State Fault Refusal :=
  .next (Tensor.markerArrive n inp s)

/-! ## Outputs (R122, R123, R126, R128) -/

/-- Flits a delivering port keeps for its adapter or unit. -/
def dlvDepth : Nat := 3

/-- The bridge at the B port of `n`. -/
def State.bridgeAt (s : State) (n : Nat) : Option Nat := if s.cfg.bKind n = 4 then some (s.cfg.bIndex n) else none

/-- Output `o` can take a flit: the link, or the port, has room. A port in adapter reset takes and discards (R36). -/
def State.outRoom (s : State) (n o : Nat) : Bool :=
  match s.cfg.tensorGroup n o with
  | some (b, g) => s.groupRoom b g
  | none =>
    if o < 4 then
      match s.cfg.neighbour n o with
      | some m => s.ten.cut.contains (8 * n + o) || (!s.junctionLost m && s.linkRoom m (facing o))
      | none => false
    else s.adapterHeld n (if o = 4 then .a else .b) || decide ((s.dlv n o).queue.length < dlvDepth)

/-- Flags of the frame byte as TO_FLAGS shows them: ERROR, NAN, SATURATED, NARROWED (R42, R85). -/
def TFlit.flags (f : TFlit) : BitVec 4 := f.frame.extractLsb' 2 4

/-- A run passes its last flit at an A or B output (R158, R534). -/
def State.countRun (s : State) (n o flow : Nat) (f : TFlit) : State :=
  if o < 4 ∨ !f.last then s
  else if (s.factsAt n (s.outSel n o)).multi.contains flow then s.countEv 0x20 n (s.wardOf n) 1 else s

/-- A flit reaches an A or B port: it waits there, or is discarded while the adapter is in reset; after a reset nothing is
delivered up to a FIRST (R36). -/
def State.deliverFlit (s : State) (n o flow : Nat) (f : TFlit) : State :=
  let side : Side := if o = 4 then .a else .b
  let key := adapterKey n side
  let d := s.dlv n o
  if s.adapterHeld n side then s.setDlv n o { d with open_ := Tbl.set none d.open_ flow none }
  else if s.pin.waitFirst.contains key ∧ !f.first then s
  else
    let s1 : State := { s with pin := { s.pin with waitFirst := s.pin.waitFirst.erase key } }
    s1.setDlv n o { d with queue := d.queue ++ [(BitVec.ofNat 12 flow, f)] }

/-- A run is open at a delivering port, or has ended, by its flow. -/
def State.noteOpen (s : State) (n o flow : Nat) (last : Bool) : State :=
  let d := s.dlv n o
  if o < 4 then s
  else s.setDlv n o { d with open_ := Tbl.set none d.open_ flow (if last then none else some ⟨0, 0xFFFFFFFF, 0⟩) }

/-- A flit leaves output `o`: over a bridge, onto the link of the neighbour, whose gated region wakes, or to the port. -/
def State.driveOut (s : State) (n o flow : Nat) (f : TFlit) : State :=
  match s.cfg.tensorGroup n o with
  | some (b, g) => ((s.countRun n o flow f).bridgeTensor b g f).noteOpen n o flow f.last
  | none =>
    if s.ten.cut.contains (8 * n + o) then
      if f.last then { s with ten := { s.ten with cut := s.ten.cut.filter (· != 8 * n + o) } } else s
    else if o < 4 then
      match s.cfg.neighbour n o with
      | some m => (if s.regionStateOf (s.regionOf m) = 4 then s.wakeAt m else s).sendFlit m (facing o) f
      | none => s
    else (s.countRun n o flow f).deliverFlit n o flow f

/-- The flit an output's entry waits for, with the number of flits of its run still scheduled when it ends the run
early. -/
def State.entryFlit (s : State) (n o : Nat) (e : BitVec 32) : Option (TFlit × Nat) :=
  if outSrc e = 6 then
    if s.rnSel n = s.outSel n o then
      (s.nodePresents n o (outFlow e)).map (fun f =>
        (f, if f.last then (s.node n).latchRun - ((s.node n).latchPos + 1) else 0))
    else none
  else if s.inSel n (outSrc e) = s.outSel n o then
    (s.presents n (outSrc e) o (outFlow e)).map (fun f =>
      (f, if f.last then s.runFlitsAt n (outSrc e) - (s.tin n (outSrc e)).passed else 0))
  else none

/-- The output's place after it has passed a flit, and `skip` more that count as passed (R122, R126). -/
def TOut.forward (x : TOut) (e : BitVec 32) (skip : Nat) : TOut :=
  let key := 4096 * outSrc e + outFlow e
  let y := { x with credit := Tbl.upd 0 x.credit key (· + skip) }
  if outCount e ≤ x.count + 1 then { y with entry := x.entry + 1, count := 0 } else { y with count := x.count + 1 }

/-- Output `o` passes the flit `f` of its entry `e`. -/
def State.passOut (s : State) (n o : Nat) (e : BitVec 32) (f : TFlit) (skip : Nat) : State :=
  let flow := outFlow e
  let s1 := (s.setTout n o ((s.tout n o).forward e skip)).tapSee n o flow f
  let s2 := s1.driveOut n o flow f
  let s3 := if outSrc e = 6 then s2.takeNode n o else s2.takeIn n (outSrc e) o
  ((s3.settleOut n o).swapTry n).touch n

/-- The list word an output reads is uncorrectable: the output halts (R128). -/
def State.haltOut (s : State) (n o : Nat) : State :=
  (((s.setTout n o { s.tout n o with stuck := true }).wr (.halted n) 1).storeRaise 0x047 n o 0 (s.wardOf n)
    (s.storeInjected n 0)).rowBad n 0 (.bank n (s.outSel n o == 1) o (s.tout n o).entry)

/-- The list word an output reads arrives wrong past its code: it is the word the output follows. -/
def State.outWord (s : State) (n o k : Nat) (wrong : List Nat) : State :=
  if wrong.isEmpty then s
  else
    let sel := s.outSel n o
    let b := s.bank n sel
    let l := b.outs.getD o []
    s.setBank n sel { b with outs := b.outs.set o (l.set k (flipBits (l.getD k 0) wrong)) }

/-- OUTPUT_PASS_FLIT: output `o` passes the flit its entry names once it is there, with the bits `flips` inverted in the
list word it reads (R122, R128). -/
def Tensor.pass (n o : Nat) (flips : List Nat) (s : State) : State :=
  let s0 := s.settleOut n o
  let x := s0.tout n o
  let l := s0.outList n o
  if !s.tMoves n ∨ 6 ≤ o ∨ x.stuck ∨ !s0.outRoom n o then s
  else if s0.swapGo n && s0.rd (.outSwapped n o) == 0 && decide (s0.swapT n ≤ x.periods) then s
  else match l[x.entry]? with
    | none => s
    | some e0 =>
      if (s0.entryFlit n o e0).isNone then s0
      else
        let d := s0.storeDecode n 0 32 6 flips
        let s1 := s0.storeRead n 0 32 6 flips
        if d.bad then s1.haltOut n o
        else
          let s2 := s1.outWord n o x.entry d.wrong
          match (s2.outList n o)[x.entry]? with
          | none => s2
          | some e =>
            if !isPass e then s2
            else match s2.entryFlit n o e with
              | some (f, skip) => s2.passOut n o e f skip
              | none => s2

def execOutputPassFlit (n : Nat) (out : Nat) (flips : List Nat) (s : State) : Host.Outcome State Fault Refusal :=
  .next (Tensor.pass n out flips s)

/-! ## Delivery (R38, R39, R42, R90) -/

/-- The outer check of a delivered flit fails: its sequence, or at the last flit its code. An injection at the port makes
the code fail (R88, R90, R499). -/
def State.outerBad (s : State) (n o flow : Nat) (r : DRun) (f : TFlit) : Bool :=
  if f.last then s.injectedAt 0x02 n o 0 || s.injectedAt 0x02 n o 0x3F ||
    f.run != outerOf (crcFlit r.crc f.payload) flow (r.seq + 1)
  else f.seq != r.seq || f.flow != flow

/-- The unit at port `o` takes the next flit delivered there: its flow, the flit with the flags of its run so far, and the
state after. -/
def State.dlvTake (s : State) (n o : Nat) : Option (BitVec 12 × TFlit × BitVec 4 × State) :=
  let d := s.dlv n o
  match d.queue with
  | [] => none
  | (flow, f) :: rest =>
    let r := if f.first then ⟨0, 0xFFFFFFFF, 0⟩ else (Tbl.get none d.open_ flow.toNat).getD ⟨0, 0xFFFFFFFF, 0⟩
    let bad := s.outerBad n o flow.toNat r f
    let inj := f.last && (s.injectedAt 0x02 n o 0 || s.injectedAt 0x02 n o 0x3F)
    let flags := r.flags ||| f.flags ||| (if bad then 1 else 0)
    let r' : Option DRun := if f.last then none else some ⟨r.seq + 1, crcFlit r.crc f.payload, flags⟩
    let s1 := s.setDlv n o ⟨rest, Tbl.set none d.open_ flow.toNat r'⟩
    let s2 := if inj then s1.injectFired else s1
    let s3 := if f.last ∧ flags.getLsbD 0 then s2.countEv 0x21 n (s.wardOf n) 1 else s2
    some (flow, (if bad then f.setErr else f), flags, s3)

/-- A beat is driven on TO_, or handed to the unit at the B port. -/
def State.drive (s : State) (n : Nat) (side : Side) (flow : BitVec 12) (lower : BitVec 4096)
    (upper : Option (BitVec 4096)) (last : Bool) (flags : BitVec 4) : State :=
  s.emit (match side with
    | .a => .toBeat n flow lower upper last (if last then flags else 0)
    | .b => .toUnit n flow lower last (if last then flags else 0))

/-- TENSOR_DELIVER_BEAT: the adapter delivers one flit, or with BEAT 2 two where both of a run are there (R38). -/
def Tensor.deliver (n : Nat) (side : Side) (s : State) : State :=
  let o := sidePort side
  if !s.beatPort n side ∨ !s.running ∨ !s.adapterLive n side ∨ !s.junctionActive n then s
  else match s.offer (600 + 2 * n + (if side = .a then 0 else 1)) with
    | none => s
    | some s0 => match s0.dlvTake n o with
      | none => s
      | some (flow, f, flags, s1) =>
        let two := side = .a ∧ s.cfg.adapterAt n / 2 % 2 = 1 ∧ !f.last ∧ ((s1.dlv n o).queue.head?.map (·.1)) = some flow
        if two then
          match s1.dlvTake n o with
          | some (_, g, flags2, s2) => (s2.drive n side flow f.payload (some g.payload) g.last flags2).touch n
          | none => (s1.drive n side flow f.payload none f.last flags).touch n
        else (s1.drive n side flow f.payload none f.last flags).touch n

def execTensorDeliverBeat (n : Nat) (side : Side) (s : State) : Host.Outcome State Fault Refusal :=
  .next (Tensor.deliver n side s)

/-! ## Wake requests and gauges (R50, R101, R129) -/

/-- CORE_WAKE_REQUEST: J_WAKE or an offered VALID at a gated junction wakes its region (R50). -/
def Tensor.coreWake (n : Nat) (s : State) : State :=
  if s.running && s.cfg.corePort n && !s.adapterHeld n .a then s.wakeAt n else s

def execCoreWakeRequest (n : Nat) (s : State) : Host.Outcome State Fault Refusal := .next (Tensor.coreWake n s)

/-- WAKE_HOLD_EXPIRE: WAKE_HOLD has passed since the last wake-ahead request for the region (R129). -/
def Tensor.holdExpire (k : Nat) (s : State) : State :=
  let t := Tbl.get 0 s.pwr.wakeHold k
  if !s.running ∨ t = 0 then s
  else
    let s1 := s.advanceTo t
    { s1 with pwr := { s1.pwr with wakeHold := Tbl.set 0 s1.pwr.wakeHold k 0 } }

def execWakeHoldExpire (k : Nat) (s : State) : Host.Outcome State Fault Refusal := .next (Tensor.holdExpire k s)

/-- PACE_GAUGE_WINDOW: a 1 µs window of the gauge of region `k` ends with the rate counted (R101). -/
def Tensor.gauge (k : Nat) (rate : BitVec 16) (s : State) : State :=
  if !s.running ∨ s.cfg.regions ≤ k then s
  else if s.regionStateOf k = 0 ∨ s.regionStateOf k = 4 ∨ s.pwr.down.contains k then s.setObj (Obj.paceRate k) 0
  else
    let s1 := s.setObj (Obj.paceRate k) (BitVec.ofNat 64 rate.toNat)
    if rate.toNat < (s.obj (Obj.paceMin k)).toNat then s1.setObj (Obj.paceMin k) (BitVec.ofNat 64 rate.toNat) else s1

def execPaceGaugeWindow (k : Nat) (rate : BitVec 16) (s : State) : Host.Outcome State Fault Refusal :=
  .next (Tensor.gauge k rate s)

end Sys2Proof.Machine
end

