-- ==== Sys2Proof/Machine/TxnTarget.lean ====
section
/-! DEFINITION. Targets: memory attachments, core target halves, host ports, homes of coherent windows, and bridge endpoints
as proxies (R49 to R56, R244, R249, R250, R257, R261, R263 to R266, R272, R412). -/

namespace Sys2Proof.Machine

/-! ## Requests in their slots -/

/-- A target refuses a request: counted in WARD_REFUSALS of the die (R415). -/
def State.refuseSlot (s : State) (u : Nat) (p : TPkt) : State :=
  s.wardRefusal.slotAnswer u p.src p.tag p.gen Status.wardRefused []

/-- A slot with the request that came for it: it moves behind the others, so that requests stand in the order of arrival. -/
def State.fillSlot (s : State) (u : Nat) (p : TPkt) : State :=
  let t := s.target u
  match t.slots.find? (fun x => x.src == p.src && poolOf u x.level == poolOf u p.level && x.rq.isNone) with
  | none => s
  | some x =>
    let same := fun (d : TPkt) => d.src == p.src && d.tag == p.tag && d.gen == p.gen
    s.setTarget u { t with
      slots := t.slots.erase x ++ [{ x with rq := some p, data := t.early.find? same }]
      early := t.early.filter (fun d => !same d) }

/-- Write data join their request; data that come first wait for it (R249). Data whose code fails are marked by a status. -/
def State.fillData (s : State) (u : Nat) (d : TPkt) : State :=
  let t := s.target u
  match t.slotOf d.src d.tag d.gen with
  | some x => s.setTarget u { t with slots := t.slots.map (fun y => if y = x then { x with data := some d } else y) }
  | none => s.setTarget u { t with early := t.early ++ [d] }

/-- The slot a target serves next: the first whose request is whole and not yet served, none of its source before it (R245). -/
def nextSlot : List Slot → List (BitVec 16) → Option Slot
  | [], _ => none
  | x :: t, seen =>
    match x.rq with
    | none => nextSlot t seen
    | some p =>
      if x.since.isSome then nextSlot t seen
      else if seen.contains x.src || (hasWriteData p.op && x.data.isNone) then nextSlot t (x.src :: seen)
      else some x

def State.setSlot (s : State) (u : Nat) (x y : Slot) : State :=
  let t := s.target u
  s.setTarget u { t with slots := t.slots.map (fun z => if z = x then y else z) }

/-- The bytes a request reads or writes. -/
def TPkt.bytes (p : TPkt) : Nat :=
  if isAtomic p.op then 4 * 2 ^ p.lenM1.toNat else if p.op = 0 ∨ p.op = 1 then (p.lenM1.toNat + 1) * 128 else 64

def TPkt.off (p : TPkt) : Nat := p.addr.toNat % 2 ^ 41

/-- A home or bridge endpoint makes the request for one of the die's own management tile. -/
def State.forTile (s : State) (p : TPkt) : Bool :=
  (p.src == s.ep 0x90 || p.src == s.ep 0x91) && (s.tinit (p.src.toNat % 1024)).open_.any (fun o =>
    o.tag == p.tag && o.gen == p.gen && (match o.owner with
      | .onward src _ _ => src == s.ep 0xC1
      | _ => false))

/-- The request comes from the die's own management tile at LEVEL 3, or from a home that serves such a request (R412). -/
def State.fromTile (s : State) (p : TPkt) : Bool := (p.src == s.ep 0xC1 || s.forTile p) && p.level == 3

/-! ## Memory attachments (R51 to R53, R244, R412) -/

/-- Some valid WARD_RANGE entry of the ward covers every byte and grants the right of the OP. -/
def State.rangeGrants (s : State) (p : TPkt) : Bool :=
  let right := if isAtomic p.op then 53 else if p.op = 1 then 54 else 55
  (List.range 64).any (fun i =>
    let v := s.obj (Obj.wardRange i)
    fget v 63 1 == 1 && fget v 56 4 == p.ward.toNat && fget v right 1 == 1 &&
      decide (fget v 16 16 * 2 ^ 30 ≤ p.off) && decide (p.off + p.bytes ≤ (fget v 16 16 + fget v 0 16) * 2 ^ 30))

/-- The size of the smallest naturally aligned block that holds `k` bytes from `a`, and its MQ_LEN (R51). -/
def blockFor (a k : Nat) : Nat × Nat :=
  if a / 64 = (a + k - 1) / 64 then (64, 0)
  else match (List.range 7).find? (fun m => a / (512 * 2 ^ m) == (a + k - 1) / (512 * 2 ^ m)) with
    | some m => (512 * 2 ^ m, m + 1)
    | none => (32768, 7)

def blockCode (size : Nat) : Nat := if size = 64 then 0 else Nat.log2 (size / 512) + 1

/-- Values of `w` bits each, the first lowest, as one number. -/
def joinBits_ (w : Nat) (xs : List Nat) : Nat := xs.foldr (fun x a => x + a * 2 ^ w) 0

/-- Beats of 512 bytes that hold a block's number of bytes. -/
def blockBeats (size : Nat) : Nat := if size = 64 then 1 else size / 512

def splitBeats (size x : Nat) : List (BitVec 4096) := (List.range (blockBeats size)).map (fun i => BitVec.ofNat 4096 (x / 2 ^ (4096 * i)))
def splitStrobes (size x : Nat) : List (BitVec 512) := (List.range (blockBeats size)).map (fun i => BitVec.ofNat 512 (x / 2 ^ (512 * i)))

/-- The command of a read of `k` bytes. -/
def readCmd (p : TPkt) : MaCmd :=
  let b := (blockFor p.off p.bytes).1
  ⟨p.src, p.tag, p.gen, false, false, p.off / b * b, b, none, [], [], 0, p.off % b, p.bytes, 0⟩

/-- The command that writes the given bytes and strobes at a request's place. -/
def writeCmd (p : TPkt) (second : Bool) (data strb : Nat) (old : BitVec 1024) : MaCmd :=
  let b := (blockFor p.off p.bytes).1
  let f := p.off % b
  ⟨p.src, p.tag, p.gen, second, true, p.off / b * b, b, none, splitBeats b (data * 2 ^ (8 * f)), splitStrobes b (strb * 2 ^ f), 0, f, p.bytes, old⟩

def State.setMas (s : State) (a : Nat) (l : List MaCmd) : State :=
  { s with txn := { s.txn with mas := Tbl.set [] s.txn.mas a l } }

def State.masOf (s : State) (a : Nat) : List MaCmd := Tbl.get [] s.txn.mas a

/-- An attachment takes up a request: refused, or turned into a command. An atomic reads first. -/
def State.serveMemory (s : State) (a : Nat) (p : TPkt) (d : Option TPkt) : State :=
  if !s.fromTile p && !s.rangeGrants p then s.refuseSlot (0xA0 + a) p
  else
    let c := if p.op = 1 then
        match d with
        | some q =>
          let k := q.beats.length
          writeCmd p false (joinBits_ 1024 (q.beats.map (·.toNat))) (joinBits_ 128 ((List.range k).map (fun i => (strobesOf q.masks i).toNat))) 0
        | none => readCmd p
      else readCmd p
    s.setMas a (s.masOf a ++ [c])

/-- Bytes that two commands share. -/
def MaCmd.meets (x y : MaCmd) : Bool :=
  decide (x.addr + x.first < y.addr + y.first + y.count) && decide (y.addr + y.first < x.addr + x.first + x.count)

/-- The first command that waits for none before it: commands whose bytes overlap go in the order of arrival. -/
def nextCmd : List MaCmd → List MaCmd → Option MaCmd
  | _, [] => none
  | before, c :: t => if c.issued.isNone && !before.any (fun b => b.meets c) then some c else nextCmd (before ++ [c]) t

/-- Read-buffer bytes reserved by open commands (R53). -/
def readReserved (l : List MaCmd) : Nat := ((l.filter (fun c => c.issued.isSome && !c.write)).map (·.size)).sum

/-- The answers that the unit behind target `u` owes for tags given up. -/
def State.owes (s : State) (u : Nat) (tag : BitVec 10) : Bool := s.txn.owed.any (fun x => x.unit == u && x.tag == tag)

/-- The unit behind `u` owes answers for the given tags, with the number of beats or completions each brings. -/
def State.addOwed (s : State) (u : Nat) (counted : Bool) (tags : List (BitVec 10 × Nat)) : State :=
  { s with txn := { s.txn with owed := s.txn.owed ++ (tags.filter (fun t => t.2 != 0)).map (fun t => ⟨u, t.1, t.2, counted⟩) } }

/-- One of the answers owed for a tag has come and is discarded. -/
def State.dropOwed (s : State) (u : Nat) (tag : BitVec 10) : State :=
  match s.txn.owed.find? (fun x => x.unit == u && x.tag == tag) with
  | none => s
  | some x => { s with txn := { s.txn with owed :=
      (if x.left ≤ 1 then s.txn.owed.erase x else s.txn.owed.map (fun y => if y = x then { x with left := x.left - 1 } else y)) } }

/-- One of the answers owed for a tag has come, and is discarded; those that an adapter reset has caused count (R36, R79). -/
def State.takeOwed (s : State) (u n : Nat) (tag : BitVec 10) : State :=
  match s.txn.owed.find? (fun x => x.unit == u && x.tag == tag) with
  | none => s
  | some x => if x.counted then (s.dropOwed u tag).bump (.bDiscards n) 1 else s.dropOwed u tag

/-- What an attachment's command still has to bring: read beats, or one completion; nothing before it is issued. -/
def MaCmd.owing (c : MaCmd) : Option (BitVec 10 × Nat) := c.issued.map (fun t => (t, if c.write then 1 else blockBeats c.size - c.beats.length))

/-- MA_COMMAND_ISSUE: the next command goes out on MQ_, a read once its data have room in the read buffer (R53). -/
def Txn.maIssue (a : Nat) (s : State) : State :=
  match s.cfg.unitAt 1 a with
  | none => s
  | some n =>
    let l := s.masOf a
    match nextCmd [] l with
    | none => s
    | some c =>
      let tag := ((List.range (s.cfg.maTags.getD a 0)).map (BitVec.ofNat 10)).find? (fun t =>
        !l.any (fun x => x.issued == some t) && !s.owes (0xA0 + a) t)
      if !s.moves n ∨ !s.adapterLive n .b ∨ (!c.write ∧ (s.obj Obj.maReadBuffer).toNat < readReserved l + c.size) then s
      else match tag with
        | none => s
        | some t =>
          ((s.setMas a (l.map (fun x => if x = c then { c with issued := some t } else x))).emit
            (.mq a t c.write (BitVec.ofNat 35 (c.addr / 64)) (BitVec.ofNat 3 (blockCode c.size))
              (if c.write then c.beats else []) (if c.write then c.strb else []))).touch n

def execMaCommandIssue (a : Nat) (s : State) : Host.Outcome State Fault Refusal := .next (Txn.maIssue a s)

/-- The transaction status of a controller's status (R52). -/
def maStatus (st : BitVec 2) : BitVec 3 := if st = 0 then Status.okay else if st = 2 then Status.noTarget else Status.uncorrectable

/-- The slot of a command of attachment `a`, and its request. -/
def State.cmdSlot (s : State) (a : Nat) (c : MaCmd) : Option TPkt :=
  ((s.target (0xA0 + a)).slots.find? (fun x => x.src == c.src && (match x.rq with
    | some p => p.tag == c.tag && p.gen == c.gen
    | none => false) && x.since.isSome)).bind (·.rq)

/-- A bad status of the controller raises the attachment's source (R52). -/
def State.maRaise (s : State) (n : Nat) (w : Option (BitVec 4)) (st : BitVec 2) : State :=
  if st = 0 then s else s.raise (Cause.atUnit 0x054 w n 5 0x3F st.toNat)

/-- A command leaves the attachment and its request is answered. -/
def State.maFinish (s : State) (a : Nat) (c : MaCmd) (status : BitVec 3) (data : List (BitVec 1024)) : State :=
  let s1 := s.setMas a ((s.masOf a).filter (fun x => x != c))
  match s.cmdSlot a c with
  | some p => s1.slotAnswer (0xA0 + a) p.src p.tag p.gen status data
  | none => s1

/-- A two's complement number of `w` bits. -/
def signedOf (w x : Nat) : Int := if x < 2 ^ (w - 1) then x else (x : Int) - 2 ^ w

/-- What an atomic leaves in memory, of `w` bits: the old value, the operand, and the new value of a compare (R244). -/
def atomicNew (op : BitVec 4) (w old x y : Nat) : Nat :=
  match op.toNat with
  | 0x8 => (old + x) % 2 ^ w
  | 0x9 => x
  | 0xA => if old = x then y else old
  | 0xB => if signedOf w old < signedOf w x then x else old
  | 0xC => if signedOf w x < signedOf w old then x else old
  | 0xD => Nat.lor old x
  | _ => Nat.land old x

/-- The operands of an atomic: the operand or compare value at bytes 7:0, the new value of CAS at bytes 15:8. -/
def atomicOperands (w : Nat) (d : Option TPkt) : Nat × Nat :=
  let b := ((d.map (·.beats)).getD []).headD 0
  (b.toNat % 2 ^ w, b.toNat / 2 ^ 64 % 2 ^ w)

/-- The data a read command brought for its request: whole beats, or an atomic's old value. -/
def MaCmd.value (c : MaCmd) : Nat := joinBits_ 4096 (c.beats.map (·.toNat)) / 2 ^ (8 * c.first)

/-- The last beat of a read has come: the request is answered, or an atomic goes on to write. -/
def State.readDone (s : State) (a : Nat) (c : MaCmd) : State :=
  match s.cmdSlot a c with
  | none => s.maFinish a c Status.okay []
  | some p =>
    if c.status ≠ 0 then s.maFinish a c (maStatus c.status) []
    else if isAtomic p.op then
      let w := 8 * c.count
      let old := c.value % 2 ^ w
      let d := ((s.target (0xA0 + a)).slotOf p.src p.tag p.gen).bind (·.data)
      let x := atomicOperands w d
      let wr := writeCmd p true (atomicNew p.op w old x.1 x.2) (2 ^ c.count - 1) (BitVec.ofNat 1024 old)
      s.setMas a ((s.masOf a).map (fun y => if y = c then wr else y))
    else s.maFinish a c Status.okay ((List.range (c.count / 128)).map (fun i => BitVec.ofNat 1024 (c.value / 2 ^ (1024 * i))))

/-- What comes while the adapter, the tile or the die is in reset is discarded; an adapter in reset counts it (R36, R53). -/
def State.maDiscard (s : State) (a n : Nat) (tag : BitVec 10) : State :=
  let s1 := s.dropOwed (0xA0 + a) tag
  if s.adapterHeld n .b then s1.bump (.bDiscards n) 1 else s1

/-- A beat of read data that belongs to no command: one that is owed for a tag given up is discarded. Every other belongs to a
tensor stream, whose run ends with an error completion where the status is bad; its later beats up to TI_LAST are discarded (R52). -/
def State.streamBeat (s : State) (a n : Nat) (tag : BitVec 10) (status : BitVec 2) : State :=
  if s.owes (0xA0 + a) tag then s.takeOwed (0xA0 + a) n tag
  else if status = 0 ∨ (s.ing n 5).flow = 0 ∨ !s.moves n then s
  else (s.ingAbort n 5 true).raise (Cause.atUnit 0x054 (s.wardOf n) n 5 0x3F status.toNat)

/-- The attachment's adapter takes what comes, into whatever state of the tile: it is discarded, or held by a stopped clock. -/
def State.maShut (s : State) (n : Nat) : Bool := s.pin.inReset || s.junctionLost n || s.adapterHeld n .b

/-- Beat `i` of a command holds a byte of its request. -/
def MaCmd.holds (c : MaCmd) (i : Nat) : Bool :=
  c.size == 64 || (decide (512 * i < c.first + c.count) && decide (c.first < 512 * (i + 1)))

/-- MA_READ_DATA: a beat of read data; a stopped port clock takes none. Its status counts where the beat holds a byte of the request (R52, R244). -/
def Txn.maRead (a : Nat) (tag : BitVec 10) (data : BitVec 4096) (status : BitVec 2) (s : State) : State :=
  match s.cfg.unitAt 1 a with
  | none => s
  | some n =>
    if s.maShut n then s.maDiscard a n tag
    else if s.clockStopped n .b then s
    else match (s.masOf a).find? (fun c => c.issued == some tag && !c.write) with
    | none => s.streamBeat a n tag status
    | some c =>
      let own := c.holds c.beats.length
      let c' := { c with beats := c.beats ++ [data], status := if own ∧ c.status = 0 then status else c.status }
      let s1 := (s.setMas a ((s.masOf a).map (fun x => if x = c then c' else x))).maRaise n ((s.cmdSlot a c).map (·.ward)) (if own then status else 0)
      if blockBeats c.size ≤ c'.beats.length then s1.readDone a c' else s1

def execMaReadData (a : Nat) (tag : BitVec 10) (data : BitVec 4096) (status : BitVec 2) (s : State) :
    Host.Outcome State Fault Refusal := .next (Txn.maRead a tag data status s)

/-- MA_WRITE_COMPLETION: a write has reached memory; its request is answered, an atomic with the value it read. -/
def Txn.maWritten (a : Nat) (tag : BitVec 10) (status : BitVec 2) (s : State) : State :=
  match s.cfg.unitAt 1 a with
  | none => s
  | some n =>
    if s.maShut n then s.maDiscard a n tag
    else if s.clockStopped n .b then s
    else match (s.masOf a).find? (fun c => c.issued == some tag && c.write) with
    | none => s.takeOwed (0xA0 + a) n tag
    | some c =>
        (s.maRaise n ((s.cmdSlot a c).map (·.ward)) status).maFinish a c (maStatus status) (if c.second then [c.old] else [])

def execMaWriteCompletion (a : Nat) (tag : BitVec 10) (status : BitVec 2) (s : State) : Host.Outcome State Fault Refusal :=
  .next (Txn.maWritten a tag status s)

/-! ## Core target halves and host windows (R49, R56, R266, R412) -/

/-- The lowest tag below `k` that target `u` may use towards the unit behind it: no slot uses it and no answer is owed for it. -/
def State.freeBehind (s : State) (u k : Nat) : Option Nat :=
  (List.range k).find? (fun i => !(s.target u).slots.any (fun x => x.behind == i + 1) && !s.owes u (BitVec.ofNat 10 i))

def State.slotBehind (s : State) (u tag : Nat) : Option TPkt := ((s.target u).slots.find? (fun x => x.behind == tag + 1)).bind (·.rq)

/-- The beats and strobes of a slot's write data. -/
def Slot.beats (x : Slot) : List (BitVec 1024) := (x.data.map (·.beats)).getD []
def Slot.strobes (x : Slot) : List (BitVec 128) :=
  match x.data with
  | some d => (List.range d.beats.length).map (strobesOf d.masks)
  | none => []

/-- A core target half takes up a request: only one of the ward that owns the junction, whose port is open. -/
def State.serveCore (s : State) (n : Nat) (x : Slot) (p : TPkt) : State :=
  if !s.fromTile p && (s.wardOf n != some p.ward || s.portClosed n) then s.refuseSlot n p
  else if !s.drives n .a then s
  else match s.freeBehind n 256 with
    | none => s
    | some t => (s.setSlot n x { x with since := some s.txnNow, behind := t + 1 }).emit
        (.xq n (BitVec.ofNat 10 t) p.op p.addr p.lenM1 p.ward x.beats x.strobes)

/-- The adapter of host port `pt` can drive a beat. -/
def State.hostDrives (s : State) (pt : Nat) : Bool :=
  match s.cfg.unitAt 3 pt with
  | some n => s.drives n .b
  | none => false

/-- The adapter of host port `pt` is in reset. -/
def State.hostHeld (s : State) (pt : Nat) : Bool := s.adapterHeld ((s.cfg.unitAt 3 pt).getD 0) .b

/-- The host window of port `p` takes up a request (R266); a line of a coherent window only for its ward (R412). -/
def State.serveWindow (s : State) (pt : Nat) (x : Slot) (p : TPkt) : State :=
  let u := 0x90 + pt
  let o := p.off - (0x10000000000 + pt * 0x4000000000)
  let e := s.obj (Obj.hostXlat pt (o / 2 ^ 32))
  let foreign := match s.cohWindowOf p.off with
    | some w => fget w.2.2 58 4 != p.ward.toNat && !s.fromTile p
    | none => false
  if foreign then s.refuseSlot u p
  else if fget e 63 1 = 0 then s.slotAnswer u p.src p.tag p.gen Status.noTarget []
  else if fget e 56 4 ≠ p.ward.toNat then s.refuseSlot u p
  else if s.hostHeld pt then s.slotAnswer u p.src p.tag p.gen Status.targetError []
  else if !s.hostDrives pt then s
  else match s.freeBehind u (s.cfg.hout.getD pt 0) with
    | none => s
    | some t => (s.setSlot u x { x with since := some s.txnNow, behind := t + 1 }).emit
        (.hoq pt (BitVec.ofNat 10 t) p.op (BitVec.ofNat 64 (fget e 0 32 * 2 ^ 32 + o % 2 ^ 32)) p.lenM1 p.ward x.beats x.strobes)

/-! ## Homes of die windows (R264, R265) -/

/-- The core ports with a coherent cache in ward `w`, but for the unit given. -/
def State.snoopers (s : State) (w : BitVec 4) (but : Nat) : List Nat :=
  (List.range s.cfg.njs).filter (fun n => s.cfg.corePort n && s.cfg.adapterAt n / 8 % 2 == 1 && s.wardOf n == some w && n != but)

/-- The lines of 64 bytes that a request touches. -/
def TPkt.lines (p : TPkt) : List Nat := (List.range ((p.bytes + 63) / 64)).map (fun i => p.off / 64 + i)

/-- The snoop a request calls for: none, SNP_SHARED or SNP_INVALIDATE. -/
def homeSnoop (op : BitVec 4) : Option (BitVec 2) := if op = 0 ∨ op = 2 then some 0 else if op = 1 ∨ op = 3 then some 1 else none

/-- A snoop tag of the home that nothing under way uses. -/
def State.freeStag (s : State) (pt : Nat) : BitVec 8 :=
  (((List.range 256).map (BitVec.ofNat 8)).find? (fun t =>
    !s.txn.homes.any (fun h => h.1 == pt && h.2.stag == t) && !s.txn.agents.any (fun g => g.port == pt && g.stag == t) &&
    !s.txn.cohWaits.any (fun c => c.port == pt && c.stag == t))).getD 0

/-- A snoop leaves for a core port, over the snoop network. -/
def State.sendSnoop (s : State) (pt : Nat) (w : BitVec 4) (ty : BitVec 2) (stag : BitVec 8) (line core : Nat) : State :=
  s.txnFrom (0x90 + pt) { TPkt.blank with kind := .snoop, code := ty, ward := w, tag := stag.setWidth 10, src := BitVec.ofNat 16 (0x90 + pt)
                                          dest := BitVec.ofNat 16 core, addr := BitVec.ofNat 64 line }

def State.setHome (s : State) (pt : Nat) (h h' : HomeTxn) : State :=
  { s with txn := { s.txn with homes := s.txn.homes.map (fun x => if x = (pt, h) then (pt, h') else x) } }

def State.dropHome (s : State) (pt : Nat) (h : HomeTxn) : State :=
  { s with txn := { s.txn with homes := s.txn.homes.filter (fun x => x != (pt, h)) } }

/-- The home acts onward towards memory, in the requester's ward and LEVEL. -/
def State.homeAsk (s : State) (pt : Nat) (p : TPkt) (op : BitVec 4) (addr : Nat) (data : List (BitVec 1024)) (strb : List (BitVec 128))
    (owner : TxnOwner) : State :=
  let u := 0x90 + pt
  match (s.tinit u).freeTag 1024, s.cfg.memoryAt p.off with
  | some tag, some a =>
    let x := s.tinit u
    let gen := Tbl.get 0 x.gens tag.toNat
    let len := if data.isEmpty then p.bytes else 128 * data.length
    (s.setTinit u { x with gens := Tbl.set 0 x.gens tag.toNat (gen + 1) }).openTxn u
      ⟨op, BitVec.ofNat 64 addr, BitVec.ofNat 5 ((len + 127) / 128 - 1), p.level, p.ward, data, strb⟩ (s.ep (0xA0 + a)) tag gen owner
  | _, _ => s.slotAnswer u p.src p.tag p.gen Status.noTarget []

/-- The halves of a beat that hold lines: their data and strobes, from what each line brought. -/
def lineBeat (lo hi : Option (BitVec 512)) : BitVec 1024 × BitVec 128 :=
  ((hi.getD 0) ++ (lo.getD 0),
    BitVec.ofNat 128 ((if lo.isSome then 2 ^ 64 - 1 else 0) + (if hi.isSome then (2 ^ 64 - 1) * 2 ^ 64 else 0)))

/-- The dirty lines of a home's transaction are written to memory, in the window's ward; nobody waits for it. -/
def State.homeWriteDirty (s : State) (pt : Nat) (p : TPkt) (h : HomeTxn) : State :=
  if h.dirty.isEmpty then s
  else
    let base := p.off / 128
    let k := (p.off % 128 + p.bytes + 127) / 128
    let bs := (List.range k).map (fun i => lineBeat (Tbl.get none h.dirty (2 * (base + i))) (Tbl.get none h.dirty (2 * (base + i) + 1)))
    s.homeAsk pt { p with ward := h.ward } 1 (p.addr.toNat / 2 ^ 41 * 2 ^ 41 + base * 128) (bs.map (·.1)) (bs.map (·.2)) .nobody

/-- Bytes of a beat of write data under its strobes, over the dirty lines that came. -/
def mergeBeat (d : BitVec 1024) (m : BitVec 128) (under : BitVec 1024 × BitVec 128) : BitVec 1024 × BitVec 128 :=
  let wide := (List.range 128).foldl (fun (a : BitVec 1024) i => if m.getLsbD i then a ||| ((0xFF : BitVec 1024) <<< (8 * i)) else a) 0
  ((d &&& wide) ||| (under.1 &&& ~~~wide), m ||| under.2)

/-- Every snoop of a home's transaction has been answered: memory is read or written, and the request answered (R264). Snoop data
whose code failed deliver UNCORRECTABLE (R250). -/
def State.homeMemory (s : State) (pt : Nat) (h : HomeTxn) (p : TPkt) (x : Slot) : State :=
  let u := 0x90 + pt
  let s1 := s.dropHome pt h
  let die := p.addr.toNat / 2 ^ 41 * 2 ^ 41
  let own := TxnOwner.onward p.src p.tag p.gen
  if h.failed then (s1.homeWriteDirty pt p h).slotAnswer u p.src p.tag p.gen Status.targetError []
  else if h.spoilt then (s1.homeWriteDirty pt p h).slotAnswer u p.src p.tag p.gen Status.uncorrectable []
  else if p.op = 5 then s1.slotAnswer u p.src p.tag p.gen Status.okay []
  else if p.op = 1 then
    let bs := (List.range x.beats.length).map (fun i =>
      mergeBeat (x.beats.getD i 0) (x.strobes.getD i 0) (lineBeat (Tbl.get none h.dirty (p.off / 64 + 2 * i)) (Tbl.get none h.dirty (p.off / 64 + 2 * i + 1))))
    s1.homeAsk pt p 1 p.addr.toNat (bs.map (·.1)) (bs.map (·.2)) own
  else if p.op = 4 then
    let l := some ((x.beats.getD 0 0).setWidth 512)
    let b := if p.off / 64 % 2 = 0 then lineBeat l none else lineBeat none l
    s1.homeAsk pt p 1 (die + p.off / 128 * 128) [b.1] [b.2] own
  else (s1.homeWriteDirty pt p h).homeAsk pt p 0 (die + p.off / 128 * 128) [] [] own

/-- The home snoops line `l` of a die window: the cores on the snoop network, the agent on HXQ_ where its adapter can drive. -/
def State.snoopLine (s : State) (pt : Nat) (w : BitVec 4) (ty : BitVec 2) (stag : BitVec 8) (l : Nat) (cores : List Nat) (ask : Bool) : State :=
  let s1 := cores.foldl (fun (a : State) c => a.sendSnoop pt w ty stag l c) s
  if ask then s1.emit (.hxq pt (BitVec.ofNat 35 l) ty stag) else s1

/-- The home's transaction goes on: the next line is snooped in the ward of the window, or memory is reached. Where the agent must
be snooped and its adapter is in reset, the transaction fails as R36 has it. -/
def State.homeNext (s : State) (pt : Nat) (p : TPkt) (x : Slot) : Nat → HomeTxn → State
  | 0, _ => s
  | k + 1, h =>
    match h.lines, homeSnoop p.op with
    | l :: rest, some ty =>
      let cores := s.snoopers h.ward (p.src.toNat % 1024)
      let agent := if p.src = s.ep (0x90 + pt) then [] else [0x90 + pt]
      let failed := h.failed || (!agent.isEmpty && s.hostHeld pt)
      if (cores ++ agent).isEmpty ∨ failed then
        let h' := { h with lines := rest, waits := [], failed := failed }
        (s.setHome pt h h').homeNext pt p x k h'
      else
        let ask := !agent.isEmpty
        (s.setHome pt h { h with waits := cores ++ agent, since := s.txnNow, asks := ask && !s.hostDrives pt }).snoopLine
          pt h.ward ty h.stag l cores (ask && s.hostDrives pt)
    | _, _ => s.homeMemory pt h p x

/-- A line waits for the write of a coherent window of the port to invalidate it (R263). -/
def State.windowBars (s : State) (pt : Nat) (l : Nat) : Bool :=
  s.txn.cohWaits.any (fun c => c.port == pt && (match s.cohWindowOf (64 * l) with
    | some w => w.1 == pt && w.2.1 == c.index
    | none => false))

/-- The slot and request of a home's transaction. -/
def State.homeSlot (s : State) (pt : Nat) (h : HomeTxn) : Option (Slot × TPkt) :=
  ((s.target (0x90 + pt)).slots.find? (fun x => x.src == h.src && (x.rq.map (·.tag)) == some h.tag)).bind (fun x => x.rq.map (fun p => (x, p)))

/-- A transaction that the home serves holds one of the lines. -/
def State.lineBusy (s : State) (pt : Nat) (lines : List Nat) : Bool :=
  s.txn.homes.any (fun h => h.1 == pt && (match s.homeSlot pt h.2 with
    | some (_, q) => q.lines.any (fun l => lines.contains l)
    | none => false))

/-- The home takes up a request, where no transaction under way holds one of its lines and no write of the window is invalidating
them; else the request waits. -/
def State.serveHome (s : State) (pt : Nat) (x : Slot) (p : TPkt) (w : Val) : State :=
  let u := 0x90 + pt
  if fget w 58 4 ≠ p.ward.toNat ∧ !s.fromTile p then s.refuseSlot u p
  else if s.lineBusy pt p.lines || p.lines.any (s.windowBars pt) then s
  else
    let y := { x with since := some s.txnNow }
    let h : HomeTxn := ⟨p.src, p.tag, BitVec.ofNat 4 (fget w 58 4), p.lines, s.freeStag pt, [], s.txnNow, [], false, false, false⟩
    let s1 := s.setSlot u x y
    let s2 := { s1 with txn := { s1.txn with homes := s1.txn.homes ++ [(pt, h)] } }
    s2.homeNext pt p y (p.lines.length + 2) h

/-- A host port takes up a request: as home of a die window, or for its host window. -/
def State.serveHost (s : State) (pt : Nat) (x : Slot) (p : TPkt) : State :=
  match s.cohWindowOf p.off with
  | some (_, _, w) => if fget w 62 1 = 0 then s.serveHome pt x p w else s.serveWindow pt x p
  | none => s.serveWindow pt x p

/-! ## Bridge endpoints (R250, R323) -/

/-- A bridge endpoint acts onward: the request crosses with a number and tag of the endpoint's own. Over a bridge that is down
it completes with NO_TARGET. -/
def State.serveBridge (s : State) (b : Nat) (x : Slot) (p : TPkt) : State :=
  let u := 0xB0 + b
  let line := 0x1B0 + b
  let i := s.tinit line
  if !s.groupCarries b 4 ∨ !s.groupCarries b 7 then
    s.slotAnswer u p.src p.tag p.gen Status.noTarget []
  else match i.freeTag 1024 with
    | none => s
    | some tag =>
      let gen := Tbl.get 0 i.gens tag.toNat
      let o : OpenTxn := ⟨p.op, p.addr, p.lenM1, tag, gen, p.level, p.ward, x.beats, x.strobes, p.dest, s.txnNow, 2, 1, false,
        .onward p.src p.tag p.gen⟩
      let s1 := s.setSlot u x { x with since := some s.txnNow }
      let s2 := s1.setTinit line { i with gens := Tbl.set 0 i.gens tag.toNat (gen + 1), open_ := i.open_ ++ [o] }
      let q := { p with src := s.ep u, tag := tag, gen := gen, keep := false }
      let s3 := s2.sendAcross b q
      match x.data with
      | some d => s3.sendAcross b { d with src := s.ep u, tag := tag, gen := gen }
      | none => s3

/-! ## Serving (R245, R250) -/

/-- A target takes up the request of a slot. Gates and the management tile take theirs by commands of their own. -/
def State.serveSlot (s : State) (u : Nat) (x : Slot) : State :=
  match x.rq with
  | none => s
  | some p =>
    match x.data with
    | some d =>
      if d.status = 0 then go p else s.slotAnswer u p.src p.tag p.gen Status.uncorrectable []
    | none => go p
where
  /-- The request goes to the unit's own part. -/
  go (p : TPkt) : State :=
    if u < 0x78 then s.serveCore u x p
    else if u = 0x90 ∨ u = 0x91 then s.serveHost (u - 0x90) x p
    else if 0xA0 ≤ u ∧ u < 0xB0 then
      (s.setSlot u x { x with since := some s.txnNow }).serveMemory (u - 0xA0) p x.data
    else if 0xB0 ≤ u ∧ u < 0xB4 then s.serveBridge (u - 0xB0) x p
    else s

/-- A target serves what it can, in the order of arrival. One that cannot be taken up now waits with those behind it. -/
def State.serveFrom (s : State) (u : Nat) : Nat → State
  | 0 => s
  | k + 1 =>
    match nextSlot (s.target u).slots [] with
    | none => s
    | some x =>
      let s1 := s.serveSlot u x
      if (s1.target u).slots = (s.target u).slots then s else s1.serveFrom u k

/-- The unit's slots are served as far as they can be. -/
def State.serve (s : State) (u : Nat) : State :=
  if u = 0xC1 then s.serveTile
  else if decide (0x80 ≤ u ∧ u < 0x90) || decide (0x98 ≤ u ∧ u < 0x9C) then s
  else s.serveFrom u ((s.target u).slots.length + 1)

/-- TXN_REQUEST_ARRIVE: a request reaches the slot reserved for it, and is served when it is whole and its turn has come. -/
def Txn.requestArrive (u : Nat) (s : State) : State :=
  match s.takeKind .request u with
  | .error s1 => s1
  | .ok (p, s1) => (s1.fillSlot u p).serve u

def execTxnRequestArrive (unit : Nat) (s : State) : Host.Outcome State Fault Refusal := .next (Txn.requestArrive unit s)

/-- TXN_DATA_ARRIVE: write data join their request, read data their transaction. Write data whose code fails end the write
with UNCORRECTABLE (R249, R250). Snoop data wait for their reply. -/
def Txn.dataArrive (u : Nat) (s : State) : State :=
  match s.cfg.unitJunction u with
  | none => s
  | some n =>
    if !s.moves n then s
    else match s.takeArrived .data u (fun p => p.dkind != 2) with
      | none => s
      | some (p, s1) =>
        if p.dkind = 1 then s1.readDataArrives n u p
        else if p.dkind ≠ 0 then s1
        else if s1.txnOuterFails n u p then
          ((s1.txnOuterRaise n u p).fillData u { p with status := Status.uncorrectable }).serve u
        else (s1.fillData u { p with status := 0 }).serve u

/-- CORE_TARGET_ANSWER: the core answers on XP_; an answer to a request that the target has given up is discarded (R49). -/
def Txn.coreAnswer (n : Nat) (tag : BitVec 10) (status : BitVec 3) (data : List (BitVec 1024)) (s : State) : State :=
  if !s.moves n ∨ !s.cfg.corePort n ∨ 0x78 ≤ n ∨ !s.adapterLive n .a then s
  else match s.slotBehind n tag.toNat with
    | none => s.dropOwed n tag
    | some p => ((s.slotAnswer n p.src p.tag p.gen status data).serve n).touch n

def execCoreTargetAnswer (n : Nat) (tag : BitVec 10) (status : BitVec 3) (data : List (BitVec 1024)) (s : State) :
    Host.Outcome State Fault Refusal := .next (Txn.coreAnswer n tag status data s)

/-- HOST_COMPLETION_ARRIVE: the host controller's completion answers its request; a late one is discarded, and counted where an
adapter reset is the cause (R36, R56, R79). -/
def Txn.hostCompletion (pt : Nat) (tag : BitVec 10) (status : BitVec 3) (data : List (BitVec 1024)) (s : State) : State :=
  match s.cfg.unitAt 3 pt with
  | none => s
  | some n =>
    if s.adapterHeld n .b then (s.dropOwed (0x90 + pt) tag).bump (.bDiscards n) 1
    else if !s.drives n .b then s
    else match s.slotBehind (0x90 + pt) tag.toNat with
      | none => s.takeOwed (0x90 + pt) n tag
      | some p => ((s.slotAnswer (0x90 + pt) p.src p.tag p.gen status data).serve (0x90 + pt)).touch n

def execHostCompletionArrive (p : Nat) (tag : BitVec 10) (status : BitVec 3) (data : List (BitVec 1024)) (s : State) :
    Host.Outcome State Fault Refusal := .next (Txn.hostCompletion p tag status data s)

/-- The slot waits on a controller, a host controller or a core (R261). -/
def Slot.waitsBehind (x : Slot) (u : Nat) : Bool :=
  if 0xA0 ≤ u ∧ u < 0xB0 then x.since.isSome else (decide (u < 0x78) || u == 0x90 || u == 0x91) && x.behind != 0

/-- What the unit behind target `u` owes once slot `x` is given up: a command's beats or completion, or a core's or host
controller's answer. The attachment's command goes with the slot. -/
def State.giveUp (s : State) (u : Nat) (x : Slot) (counted : Bool) : State :=
  if 0xA0 ≤ u then
    let mine := fun (c : MaCmd) => c.src == x.src && (match x.rq with
      | some p => c.tag == p.tag && c.gen == p.gen
      | none => false)
    (s.addOwed u counted (((s.masOf (u - 0xA0)).filter mine).filterMap MaCmd.owing)).setMas (u - 0xA0) ((s.masOf (u - 0xA0)).filter (fun c => !mine c))
  else if x.behind = 0 then s
  else s.addOwed u counted [(BitVec.ofNat 10 (x.behind - 1), 1)]

/-- The answers that units behind the targets `un` names owe, when all that waits there is lost. -/
def State.owing (s : State) (un : Nat → Bool) : List Owed :=
  ((s.txn.targets.filter (fun t => un t.1)).foldl (fun (a : State) t => t.2.slots.foldl (fun (b : State) x =>
    if x.waitsBehind t.1 then b.giveUp t.1 x false else b) a) s).txn.owed

/-- TARGET_SLOT_TIMEOUT: the unit behind the target has kept a slot waiting for twice TXN_TIMEOUT: the slot is freed and a later
answer discarded (R261). -/
def Txn.slotTimeout (u : Nat) (src : BitVec 16) (tag : BitVec 10) (s : State) : State :=
  let t := s.target u
  match t.slots.find? (fun x => x.src == src && (x.rq.map (·.tag)) == some tag && x.waitsBehind u) with
  | none => s
  | some x =>
    match x.rq, x.since with
    | some p, some t0 =>
      match s.txnDue (t0 + 2 * (s.obj (Obj.txnTimeout p.ward.toNat)).toNat) with
      | none => s
      | some s1 =>
        let n := (s.cfg.unitJunction u).getD 0
        let t1 := s1.target u
        let s2 := ((s1.giveUp u x false).setTarget u { t1 with slots := t1.slots.erase x }).raise (Cause.atUnit 0x051 (some p.ward) n (unitInput u) 0x3F 0xFFFF)
        (s2.arbitrate u (poolOf u p.level)).serve u
    | _, _ => s

def execTargetSlotTimeout (unit : Nat) (src : BitVec 16) (tag : BitVec 10) (s : State) : Host.Outcome State Fault Refusal :=
  .next (Txn.slotTimeout unit src tag s)

/-! ## Snoops (R264, R265) -/

/-- The combined reply of an agent's snoop goes back on HSP_, once every core has answered and the port's adapter can drive. -/
def State.agentNext (s : State) (g : AgentSnoop) : State :=
  if g.waits.isEmpty && s.hostDrives g.port then
    ({ s with txn := { s.txn with agents := s.txn.agents.filter (fun x => x.stag != g.stag || x.port != g.port) } } : State).emit
      (.hsp g.port g.tag g.resp (if g.resp = 2 then g.data else none))
  else { s with txn := { s.txn with agents := s.txn.agents.map (fun x => if x.stag = g.stag ∧ x.port = g.port then g else x) } }

/-- A home's transaction with one fewer reply to wait for, or with all of them in. -/
def State.homeWent (s : State) (pt : Nat) (h h' : HomeTxn) : State :=
  let s1 := s.setHome pt h h'
  if !h'.waits.isEmpty then s1
  else match s.homeSlot pt h with
    | none => s1.dropHome pt h'
    | some (x, p) =>
      let h2 := { h' with lines := h'.lines.tail }
      ((s1.setHome pt h' h2).homeNext pt p x (h2.lines.length + 2) h2).serve (0x90 + pt)

def State.setWindow (s : State) (c c' : CohWait) : State :=
  { s with txn := { s.txn with cohWaits := s.txn.cohWaits.map (fun x => if x = c then c' else x) } }

/-- The next line of an old die window is invalidated in every cache that may hold it; with none left, or none to ask, the lines
are done (R263). -/
def State.windowNext (s : State) (c c0 : CohWait) : State :=
  let w := BitVec.ofNat 4 (fget (s.obj (Obj.cohWindow c.port c.index)) 58 4)
  let cores := s.snoopers w 0x3FF
  let ask := !s.hostHeld c.port
  if c.stop ≤ c.next ∨ (cores.isEmpty ∧ !ask) then s.setWindow c0 { c with next := c.stop, waits := [], asks := false }
  else (s.setWindow c0 { c with waits := cores ++ (if ask then [0x90 + c.port] else []), since := s.txnNow, asks := ask && !s.hostDrives c.port }).snoopLine
    c.port w 1 c.stag c.next cores (ask && s.hostDrives c.port)

/-- The hall address at which the die's LOCAL space begins (R27). -/
def State.localBase (s : State) : Nat := (s.obj Obj.pkgNumber).toNat * 2 ^ 47 + s.dieBits * 2 ^ 41

/-- An old window's line with one fewer reply to wait for; a dirty one is written to memory, and the next line follows. -/
def State.windowWent (s : State) (c c' : CohWait) (dirty : Option (BitVec 512)) : State :=
  let w := BitVec.ofNat 4 (fget (s.obj (Obj.cohWindow c.port c.index)) 58 4)
  let b := if c.next % 2 = 0 then lineBeat dirty none else lineBeat none dirty
  let p := { TPkt.blank with kind := .request, op := 1, ward := w, src := s.ep (0x90 + c.port), addr := BitVec.ofNat 64 (64 * c.next) }
  let s1 := if dirty.isSome then s.homeAsk c.port p 1 (s.localBase + c.next / 2 * 128) [b.1] [b.2] .nobody else s
  if c'.waits.isEmpty then s1.windowNext { c' with next := c'.next + 1 } c else s1.setWindow c c'

/-- A reply is combined at home `pt`: into a transaction there, an agent's snoop, or the write of a window. `spoilt` says that its
data have a failed code. -/
def State.combineReply (s : State) (pt src : Nat) (stag : BitVec 8) (resp : BitVec 2) (line : Option (BitVec 512)) (spoilt : Bool) : State :=
  let dirty := resp = 2 ∧ line.isSome ∧ !spoilt
  match s.txn.homes.find? (fun h => h.1 == pt && h.2.stag == stag && h.2.waits.contains src) with
  | some (_, h) =>
    s.homeWent pt h { h with
      waits := h.waits.erase src, spoilt := h.spoilt || spoilt
      dirty := if dirty then Tbl.set none h.dirty (h.lines.headD 0) line else h.dirty }
  | none =>
    match s.txn.agents.find? (fun g => g.port == pt && g.stag == stag && g.waits.contains src) with
    | some g =>
      s.agentNext { g with
        waits := g.waits.erase src
        resp := if dirty then 2 else if resp = 1 ∧ g.resp = 0 then 1 else g.resp
        data := if dirty then line else g.data }
    | none =>
      match s.txn.cohWaits.find? (fun c => c.port == pt && c.stag == stag && c.waits.contains src) with
      | some c => s.windowWent c { c with waits := c.waits.erase src } (if dirty then line else none)
      | none => s

/-- A core answers a snoop on SP_: its reply leaves over the snoop network, and a line over the data network, at bytes 63:0 of one
beat (R248, R249). -/
def State.coreReplies (s : State) (u home : Nat) (stag : BitVec 8) (resp : BitVec 2) (line : Option (BitVec 512)) : State :=
  match s.txn.snoops.find? (fun x => x.core == u && x.home.toNat == home && x.stag == stag && x.driven) with
  | none => s
  | some x =>
    let base := { TPkt.blank with ward := x.ward, tag := stag.setWidth 10 }
    let s1 : State := { s with txn := { s.txn with snoops := s.txn.snoops.erase x } }
    let s2 := s1.txnFrom u { base with kind := .snoopReply, code := resp, hasData := line.isSome, src := BitVec.ofNat 16 u
                                       dest := x.home, addr := x.line.setWidth 64 }
    let s3 := match line with
      | some l => s2.txnFrom u { base with kind := .data, dkind := 2, src := s.ep u, dest := s.ep home, beats := [l.setWidth 1024] }
      | none => s2
    s3.touch u

/-- The oldest reply of core `src` for a snoop tag reaches home `pt`, once its data have come where it has some; one whose code
fails is discarded and raised (R249, R250). -/
def State.replyArrives (s : State) (pt n src : Nat) (stag : BitVec 8) : State :=
  let u := 0x90 + pt
  match s.takeArrived .snoop u (fun p => p.kind == .snoopReply && p.src.toNat == src && p.tag == stag.setWidth 10) with
  | none => s
  | some (p, s1) =>
    if s.txnOuterFails n u p then s1.txnOuterRaise n u p
    else if !p.hasData then (s1.combineReply pt src stag p.code none false).touch n
    else match s1.takeArrived .data u (fun d => d.dkind == 2 && d.src.toNat % 1024 == src && d.tag == stag.setWidth 10) with
      | none => s
      | some (d, s2) =>
        let bad := s2.txnOuterFails n u d
        ((if bad then s2.txnOuterRaise n u d else s2).combineReply pt src stag p.code (some ((d.beats.headD 0).setWidth 512)) bad).touch n

/-- SNOOP_REPLY_ARRIVE: at a core port, the core's reply on SP_ to home `src`; at a home, the reply of core `src` that the networks
have brought, or with `src` the home itself the agent's reply on HXP_. -/
def Txn.snoopReply (u src : Nat) (stag : BitVec 8) (resp : BitVec 2) (line : Option (BitVec 512)) (s : State) : State :=
  if u < 0x78 then (if s.drives u .a then s.coreReplies u src stag resp line else s)
  else match s.cfg.unitAt 3 (u - 0x90) with
    | none => s
    | some n =>
      if u < 0x90 ∨ !s.moves n then s
      else if src = u then (if s.drives n .b then (s.combineReply (u - 0x90) src stag resp line false).touch n else s)
      else s.replyArrives (u - 0x90) n src stag

def execSnoopReplyArrive (unit src : Nat) (stag : BitVec 8) (resp : BitVec 2) (line : Option (BitVec 512)) (s : State) :
    Host.Outcome State Fault Refusal := .next (Txn.snoopReply unit src stag resp line s)

/-- The snoop-timeout source (R265). -/
def State.snoopRaise (s : State) (n : Nat) (w : Option (BitVec 4)) : State := s.raise (Cause.atUnit 0x052 w n 5 0x3F 0xFFFF)

/-- The ward of the coherent window that holds a line. -/
def State.lineWard (s : State) (line : Nat) : Option (BitVec 4) := (s.cohWindowOf (64 * line)).map (fun w => BitVec.ofNat 4 (fget w.2.2 58 4))

/-- Time passes to TXN_TIMEOUT of ward `w` after `t`; none while timeouts stand still. -/
def State.snoopDue (s : State) (t : Nat) (w : Option (BitVec 4)) : Option State :=
  s.txnDue (t + (s.obj (Obj.txnTimeout (w.getD 0).toNat)).toNat)

/-- SNOOP_TIMEOUT: the replies that have not come are taken as INVALID, and the transaction completes with TARGET_ERROR. -/
def Txn.snoopTimeout (u : Nat) (stag : BitVec 8) (s : State) : State :=
  let pt := u - 0x90
  match s.cfg.unitAt 3 pt with
  | none => s
  | some n =>
    match s.txn.homes.find? (fun h => h.1 == pt && h.2.stag == stag && !h.2.waits.isEmpty) with
    | some (_, h) =>
      (match s.snoopDue h.since (some h.ward) with
      | none => s
      | some s1 => (s1.snoopRaise n (some h.ward)).homeWent pt h { h with waits := [], failed := true })
    | none =>
      match s.txn.agents.find? (fun g => g.port == pt && g.stag == stag && !g.waits.isEmpty) with
      | some g =>
        (match s.snoopDue g.since (s.lineWard g.line) with
        | none => s
        | some s1 => (s1.snoopRaise n (s.lineWard g.line)).agentNext { g with waits := [] })
      | none =>
        match s.txn.cohWaits.find? (fun c => c.port == pt && c.stag == stag && !c.waits.isEmpty) with
        | none => s
        | some c => match s.snoopDue c.since (s.lineWard c.next) with
          | none => s
          | some s1 => (s1.snoopRaise n (s.lineWard c.next)).windowWent c { c with waits := [] } none

def execSnoopTimeout (unit : Nat) (stag : BitVec 8) (s : State) : Host.Outcome State Fault Refusal :=
  .next (Txn.snoopTimeout unit stag s)

/-- HOST_SNOOP_ARRIVE: a snoop of the caching agent goes to the core ports of the window's ward (R264). -/
def Txn.hostSnoop (pt : Nat) (line : BitVec 35) (ty : BitVec 2) (tag : BitVec 8) (s : State) : State :=
  match s.cfg.unitAt 3 pt with
  | none => s
  | some n =>
    if !s.cfg.hsnp.getD pt false ∨ !s.running ∨ !s.adapterLive n .b then s
    else if s.regionStateOf (s.regionOf n) = 4 then s.wakeAt n
    else if !s.moves n then s
    else
      let w := s.lineWard line.toNat
      let cores := match w with
        | some x => s.snoopers x 0x3FF
        | none => []
      let g : AgentSnoop := ⟨pt, tag, s.freeStag pt, line.toNat, cores, s.txnNow, 0, none⟩
      let s1 := s.snoopLine pt (w.getD 0) ty g.stag line.toNat cores false
      (({ s1 with txn := { s1.txn with agents := s1.txn.agents ++ [g] } } : State).agentNext g).touch n

def execHostSnoopArrive (p : Nat) (line : BitVec 35) (ty : BitVec 2) (tag : BitVec 8) (s : State) :
    Host.Outcome State Fault Refusal := .next (Txn.hostSnoop p line ty tag s)

/-- What a host port's adapter could not carry goes on: answers on HIP_, snoops on HXQ_ and replies on HSP_ (R34). -/
def State.hostGoes (s : State) (pt : Nat) : State :=
  if !s.hostDrives pt then s
  else
    let u := 0x90 + pt
    let s1 := (s.tinit u).ready.foldl (fun (a : State) r => a.emit (.hip pt r.tag r.status r.beats)) s
    let s2 := s1.setTinit u { s1.tinit u with ready := [] }
    let s3 := (s2.txn.homes.filter (fun h => h.1 == pt && h.2.asks)).foldl (fun (a : State) h =>
      match s2.homeSlot pt h.2 with
      | some (_, p) => (a.setHome pt h.2 { h.2 with asks := false }).snoopLine pt h.2.ward ((homeSnoop p.op).getD 0) h.2.stag (h.2.lines.headD 0) [] true
      | none => a) s2
    let s4 := (s3.txn.cohWaits.filter (fun c => c.port == pt && c.asks)).foldl (fun (a : State) c =>
      (a.setWindow c { c with asks := false }).snoopLine pt 0 1 c.stag c.next [] true) s3
    (s4.txn.agents.filter (fun g => g.port == pt && g.waits.isEmpty)).foldl State.agentNext s4

/-- What waits at unit `u` for its adapter, its tile or a slot goes on. -/
def State.unitGoes (s : State) (u : Nat) : State :=
  let s1 := if u < 0x78 then s.snoopsGo u else if u = 0x90 ∨ u = 0x91 then s.hostGoes (u - 0x90) else s
  s1.serve u

/-! ## Adapter resets (R36) -/

/-- At an adapter reset of an attachment or host port the tile completes, with TARGET_ERROR, every transaction whose answer
must come through the adapter: those behind it, and those of the home that wait for the agent. The answers owed count in DISCARDS
when they come. The agent's own snoops are lost, and it is no longer waited for. -/
def State.targetAdapterReset (s : State) (u : Nat) : State :=
  let open_ := (s.target u).slots.filter (fun x => x.waitsBehind u)
  let s1 := open_.foldl (fun (a : State) x => a.giveUp u x true) s
  let s2 := open_.foldl (fun (a : State) x =>
    match x.rq with
    | some p => a.slotAnswer u p.src p.tag p.gen Status.targetError []
    | none => a) s1
  if u = 0x90 ∨ u = 0x91 then
    let pt := u - 0x90
    let s3 : State := { s2 with txn := { s2.txn with agents := s2.txn.agents.filter (fun g => g.port != pt) } }
    let s4 := (s3.txn.homes.filter (fun h => h.1 == pt && h.2.waits.contains u)).foldl (fun (a : State) h =>
      a.homeWent pt h.2 { h.2 with waits := [], asks := false, failed := true }) s3
    (s4.txn.cohWaits.filter (fun c => c.port == pt && c.waits.contains u)).foldl (fun (a : State) c =>
      a.windowWent c { c with waits := c.waits.erase u, asks := false } none) s4
  else s2

/-- At an adapter reset of a core port the snoops that its core has been asked are lost, those still to be driven wait. -/
def State.snoopAdapterReset (s : State) (n : Nat) : State :=
  { s with txn := { s.txn with snoops := s.txn.snoops.filter (fun x => x.core != n || !x.driven) } }

/-! ## Objects of the plane (R255, R257, R263, R267, R272, R278) -/

/-- POOL_SIZE of an attachment: each pool 1 to 61, 64 in all (R272). -/
def Txn.writePoolSize (a : Nat) (v : BitVec 64) : Effect := fun s =>
  let f := (List.range 4).map (fun i => fget v (8 * i) 8)
  if f.any (fun x => x == 0 || decide (61 < x)) || decide (64 < f.sum) then .error .outOfRange
  else .ok ((List.range 4).foldl (fun (b : State) pl => b.arbitrate (0xA0 + a) pl) (s.setObj (Obj.poolSize a) v))

/-- ARB_RENUMBER: a unit, by its 16-bit number, takes a new input number, and the holder of that number takes the unit's (R257). -/
def Txn.renumber (a : Nat) (v : BitVec 64) : Effect := fun s =>
  let u := fget v 16 16 % 1024
  let k := fget v 0 8
  let at_ := 0xA0 + a
  if !s.cfg.initiators.contains u ∨ s.ep u ≠ BitVec.ofNat 16 (fget v 16 16) then .error .outOfRange
  else
    let old := s.arbNumber at_ u
    let t := s.target at_
    let set := fun (tb : Tbl Nat) (x y : Nat) => Tbl.set 0 tb x (if y = s.cfg.proximity a x then 0 else y + 1)
    let swapped := match s.cfg.initiators.find? (fun x => x != u && s.arbNumber at_ x == k) with
      | some x => set t.numbers x old
      | none => t.numbers
    .ok (s.setTarget at_ { t with numbers := set swapped u k })

/-- A valid coherent window that a new value may not be (R263). -/
def State.cohBad (s : State) (p i : Nat) (v : Val) : Bool :=
  let base := fget v 4 25 * 65536
  let stop := base + (fget v 0 4 + 1) * 65536
  let inRange := if fget v 62 1 = 0 then
      (match s.cfg.memoryAt base, s.cfg.memoryAt (stop - 1) with
      | some a, some b => a == b && decide (stop ≤ 0x10000000000)
      | _, _ => false)
    else decide (0x10000000000 + p * 0x4000000000 ≤ base) && decide (stop ≤ 0x10000000000 + (p + 1) * 0x4000000000)
  let clash := (List.range 16).any (fun k =>
    let w := s.obj (Obj.cohWindow (k / 8) (k % 8))
    k != 8 * p + i && fget w 63 1 == 1 && decide (fget w 4 25 * 65536 < stop) &&
      decide (base < (fget w 4 25 + fget w 0 4 + 1) * 65536))
  fget v 63 1 == 1 && (!inRange || clash)

/-- A valid window takes another value once its lines are invalidated: those of a die window one after the other. -/
def State.windowChange (s : State) (p i : Nat) (v : Val) (acc : Option Access) : State :=
  let old := s.obj (Obj.cohWindow p i)
  let first := fget old 4 25 * 1024
  let stop := if fget old 62 1 = 0 then first + (fget old 0 4 + 1) * 1024 else first
  let c : CohWait := ⟨p, i, v, acc, first, stop, s.freeStag p, [], s.txnNow, false⟩
  if s.txn.cohWaits.any (fun c => c.port == p && c.index == i) then
    { s with txn := { s.txn with cohWaits := s.txn.cohWaits ++ [{ c with next := stop }] } }
  else ({ s with txn := { s.txn with cohWaits := s.txn.cohWaits ++ [c] } } : State).windowNext c c

/-- COH_WINDOW. A write that changes a valid window waits for its lines: those of a die window are invalidated one after the other,
those of a host window by the agent; the flag says so. A later write of the window waits behind it: by then no line of it is cached. -/
def Txn.writeWindow (p i : Nat) (v : Val) (acc : Access) : State → Except Abort (State × Bool) := fun s =>
  let old := s.obj (Obj.cohWindow p i)
  if !s.cfg.hsnp.getD p false then .error .notPresent
  else if s.cohBad p i v then .error .outOfRange
  else if fget v 63 1 = 1 ∧ !s.wardTakes (fget v 58 4) then .error .inUse
  else if fget old 63 1 = 1 ∧ old ≠ v then .ok (s.windowChange p i v (some acc), true)
  else .ok (s.setObj (Obj.cohWindow p i) v, false)

/-- Every line of the old window has been invalidated, and the home's writes of dirty lines have reached memory. -/
def State.windowReady (s : State) (c : CohWait) : Bool :=
  c.waits.isEmpty && decide (c.stop ≤ c.next) && !(s.tinit (0x90 + c.port)).open_.any (fun o => o.owner == .nobody)

/-- The lines of the old window have been invalidated and the dirty ones written back: the write takes effect. -/
def Txn.windowDone (p i : Nat) (s : State) : State :=
  match s.txn.cohWaits.find? (fun c => c.port == p && c.index == i) with
  | none => s
  | some c =>
    if !s.windowReady c then s
    else (({ s with txn := { s.txn with cohWaits := s.txn.cohWaits.filter (fun x => x != c) } } : State).setObj (Obj.cohWindow p i) c.value).serve (0x90 + p)

/-- The initiator that REG_CFG `side` (0 core ports, 1 DMA engines, 2 host ports) describes at subindex `n` + 1. -/
def regUnit (side n : Nat) : Nat := if side = 0 then n else if side = 1 then 0x98 + n else 0x90 + n

/-- REG_CFG: BURST from 32 blocks up; the bucket is settled first (R259, R277). -/
def Txn.writeReg (side n k : Nat) (v : Val) : Effect := fun s =>
  if fget v 0 16 < 32 then .error .outOfRange
  else .ok ((s.settleTokens (regUnit side n) (s.obj k) v).setObj k v)

/-- TXN_STAT cleared (R278). -/
def Txn.clearStat (n : Nat) : Effect := fun s => .ok (s.setObj (Obj.txnStat n) 0)

/-- PROBE_COUNT cleared (R269). -/
def Txn.clearProbe (n : Nat) : Effect := fun s => .ok (s.setObj (Obj.probeCount n) 0)

/-- Claims whose reservation has been withdrawn are given up. -/
def State.settleClaims (s : State) : State :=
  s.txn.inits.foldl (fun (a : State) p => p.2.claims.foldl (fun (b : State) c =>
    if c.2.reserving && !b.reservationLives p.1 c.1 then b.setClaim p.1 c.1 { c.2 with reserving := false } else b) a) s

/-- At a revocation the ward's latched reservations are withdrawn (R268). -/
def State.wardWithdraw (s : State) (w : BitVec 4) : State :=
  (s.txn.targets.foldl (fun (a : State) t => a.withdraw t.1 (fun r => r.ward == w)) s).settleClaims

/-- STREAK, LOSSES and leases of the initiators that `un` names return to zero (R268). -/
def State.wardForget (s : State) (un : Nat → Bool) : State :=
  s.txn.targets.foldl (fun (a : State) p =>
    let t := a.target p.1
    let b := a.setTarget p.1 { t with
      streaks := Tbl.drop un t.streaks
      losses := Tbl.drop un t.losses
      slots := t.slots.filter (fun x => x.rq.isSome || !un (x.src.toNat % 1024)) }
    (List.range 4).foldl (fun (c : State) pl => c.arbitrate p.1 pl) b) s

/-- ARB_TABLE of an attachment (R273). -/
def State.arbTable (s : State) (a : Nat) : List Byte :=
  let us := if (s.cfg.unitAt 1 a).isSome then s.cfg.initiators else []
  let t := s.target (0xA0 + a)
  leBytes 2 1 ++ leBytes 2 us.length ++ leBytes 4 0 ++ us.flatMap (fun u =>
    leBytes 2 (s.ep u).toNat ++ leBytes 1 (s.arbNumber (0xA0 + a) u) ++ leBytes 1 (Tbl.get 0 t.streaks u).toNat ++ leBytes 4 (Tbl.get 0 t.losses u).toNat)

end Sys2Proof.Machine
end

