-- ==== Sys2Proof/Machine/Dma.lean ====
section
/-! DEFINITION. The DMA engines: rings of descriptors, the mover, trip counters, notifications, retries and halts
(R280 to R304). -/

namespace Sys2Proof.Machine

/-! ## Channels -/

def State.chan (s : State) (k : Nat) : DmaChan := Tbl.get DmaChan.zero s.dma.chans k

def State.setChan (s : State) (k : Nat) (x : DmaChan) : State :=
  { s with dma := { s.dma with chans := Tbl.set DmaChan.zero s.dma.chans k x } }

def Fld.chWard (k : Nat) : Fld := ⟨Obj.chCfg k, 28, 4⟩
def Fld.chOwned (k : Nat) : Fld := ⟨Obj.chCfg k, 27, 1⟩
def Fld.chPrio (k : Nat) : Fld := ⟨Obj.chCfg k, 25, 2⟩
def Fld.chLevel (k : Nat) : Fld := ⟨Obj.chCfg k, 23, 2⟩
def Fld.chRetry (k : Nat) : Fld := ⟨Obj.chCfg k, 17, 4⟩
def Fld.chHalf (k : Nat) : Fld := ⟨Obj.chCfg k, 16, 1⟩
def Fld.chFull (k : Nat) : Fld := ⟨Obj.chCfg k, 15, 1⟩
def Fld.chTrace (k : Nat) : Fld := ⟨Obj.chCfg k, 14, 1⟩
def Fld.chState (k : Nat) : Fld := ⟨Obj.chStatus k, 29, 3⟩
def Fld.chPending (k : Nat) : Fld := ⟨Obj.chStatus k, 28, 1⟩
def Fld.chNaked (k : Nat) : Fld := ⟨Obj.chStatus k, 27, 1⟩
def Fld.chWaitCtr (k : Nat) : Fld := ⟨Obj.chStatus k, 22, 5⟩
def Fld.chSlot (k : Nat) : Fld := ⟨Obj.chStatus k, 0, 16⟩
def Fld.chDone (k : Nat) : Fld := ⟨Obj.chStat k, 32, 32⟩
def Fld.chRetries (k : Nat) : Fld := ⟨Obj.chStat k, 16, 16⟩
def Fld.chNotifyNak (k : Nat) : Fld := ⟨Obj.chStat k, 0, 16⟩
def Fld.ringHeadF (k : Nat) : Fld := ⟨Obj.ringHead k, 0, 16⟩

/-- The ward of a channel. -/
def State.chanWard (s : State) (k : Nat) : BitVec 4 := BitVec.ofNat 4 (s.rd (.chWard k))

def engineUnit (k : Nat) : Nat := 0x98 + k / 16

/-- The junction of a channel's engine. -/
def State.engineAt (s : State) (k : Nat) : Nat := (s.cfg.dmaAt (k / 16)).getD 0

/-- The engine exists and can act now. -/
def State.engineMoves (s : State) (e : Nat) : Bool :=
  match s.cfg.dmaAt e with
  | some n => s.moves n
  | none => false

def State.ringSize (s : State) (k : Nat) : Nat := (s.obj (Obj.ringSizeM1 k)).toNat + 1

/-- Hall address of a slot. -/
def State.slotAddr (s : State) (k slot : Nat) : Nat := ((s.obj (Obj.ringBase k)).toNat + 64 * slot) % 2 ^ 64

/-! ## Requests of a channel (R281) -/

/-- A request of a channel leaves under the given tag. -/
def State.heldSend (s : State) (h : DmaHeld) (tag : BitVec 10) : State :=
  let w := s.chanWard h.chan
  s.acceptTxn (engineUnit h.chan) ⟨h.op, BitVec.ofNat 64 h.addr, BitVec.ofNat 5 (h.beats - 1),
    s.levelOf w (BitVec.ofNat 2 (s.rd (.chLevel h.chan))), w, h.data, h.strb⟩ tag (.engine h.chan h.what h.info)

/-- The lowest free tag of a channel's engine. -/
def State.engineTag (s : State) (k : Nat) : Option (BitVec 10) := (s.tinit (engineUnit k)).freeTag (s.obj Obj.engineTags).toNat

/-- A channel issues a request; its answer is known by `what` and `info`. Without a free tag it waits for one. -/
def State.chanAsk (s : State) (k : Nat) (op : BitVec 4) (addr beats : Nat) (data : List (BitVec 1024)) (strb : List (BitVec 128))
    (what info : Nat) : State :=
  let h : DmaHeld := ⟨k, op, addr, beats, data, strb, what, info⟩
  match s.engineTag k with
  | none => { s with dma := { s.dma with held := s.dma.held ++ [h] } }
  | some tag => s.heldSend h tag

/-- The requests of engine `e` that wait for a tag leave, oldest first, while tags are free. -/
def State.heldGo (s : State) (e : Nat) : Nat → State
  | 0 => s
  | j + 1 =>
    match s.dma.held.find? (fun h => h.chan / 16 == e) with
    | none => s
    | some h => match s.engineTag h.chan with
      | none => s
      | some tag => (({ s with dma := { s.dma with held := s.dma.held.erase h } } : State).heldSend h tag).heldGo e j

/-- A tag is free at the engine. -/
def State.tagLeft (s : State) (k : Nat) : Bool := (s.engineTag k).isSome

/-- An answer for a channel that `pick` chooses, taken from the response buffer. -/
def State.takeDone (s : State) (u : Nat) (pick : Nat → Nat → Nat → Bool) : Option (TDone × Nat × Nat × Nat × State) :=
  let own := fun (d : TDone) => match d.owner with
    | .engine k what info => d.unit == u && pick k what info
    | _ => false
  match s.txn.dones.find? own with
  | none => none
  | some d =>
    match d.owner with
    | .engine k what info => some (d, k, what, info, { s with txn := { s.txn with dones := s.txn.dones.erase d } })
    | _ => none

/-- What the answers of a channel are for. -/
def askFetch : Nat := 0
def askExt : Nat := 1
def askRead : Nat := 2
def askWrite : Nat := 3
def askBack : Nat := 4
def askOwn : Nat := 5

/-- Statuses after which a request is tried again (R296). -/
def retryable (st : BitVec 3) : Bool := st == Status.targetError || st == Status.timeout || st == Status.uncorrectable

/-- The request may be tried once more. -/
def State.mayRetry (s : State) (k : Nat) (st : BitVec 3) (tries : Nat) : Bool := retryable st && decide (tries < s.rd (.chRetry k))

/-- KIND of CH_ERR for a failing answer. -/
def failKind (st : BitVec 3) : Nat := if retryable st then 1 else 2

/-! ## Ending (R296, R297) -/

/-- The channel goes to IDLE. Writes of completed descriptors may still be on their way. -/
def State.chanIdle (s : State) (k : Nat) : State :=
  let s1 : State := { s with dma := { s.dma with held := s.dma.held.filter (fun h => h.chan != k || (h.what != askFetch && h.what != askExt)) } }
  (s1.setChan k { DmaChan.zero with nextId := (s.chan k).nextId, order := (s.chan k).order + 1, writes := (s.chan k).writes }).wr (.chState k) 0

/-- Requests of a channel that have not left are withdrawn. -/
def State.chanWithdraw (s : State) (k : Nat) : State :=
  { s with dma := { s.dma with held := s.dma.held.filter (fun h => h.chan != k) } }

/-- The channel stops issuing, for the reason given. -/
def State.chanFail (s : State) (k : Nat) (f : DmaFail) : State :=
  let x := s.chan k
  (s.chanWithdraw k).setChan k { x with phase := .halting, fail := some f, reads := [], writes := [], asm := [], fetching := none }

/-- The channel is HALTED: CH_ERR and the fault source say why. -/
def State.chanHalted (s : State) (k : Nat) (f : DmaFail) : State :=
  let s1 := s.setObj (Obj.chErr k) (BitVec.ofNat 64 (f.slot * 65536 + f.kind * 4096 + f.status.toNat * 512 + min f.tries 15 * 32))
  let s2 := (s1.setChan k { DmaChan.zero with nextId := (s.chan k).nextId, order := (s.chan k).order + 1 }).wr (.chState k) 4
  s2.raise (Cause.atUnit (0x060 + k / 16) (some (s.chanWard k)) (s.engineAt k) 6 (k % 16) f.slot)

/-- Some request of the channel is still outstanding. -/
def State.chanOpen (s : State) (k : Nat) : Bool :=
  (s.tinit (engineUnit k)).open_.any (fun o => match o.owner with
    | .engine j _ _ => j == k
    | _ => false)

/-- Answers that no one waits for any more are dropped. -/
def State.dropDones (s : State) (u k : Nat) : State :=
  { s with txn := { s.txn with dones := s.txn.dones.filter (fun d => match d.owner with
      | .engine j _ _ => !(d.unit == u && j == k)
      | _ => true) } }

/-! ## Descriptors (R284 to R287, R289) -/

def descType (d : List Byte) : Nat := leAt d 34 1
def descFlags (d : List Byte) : Nat := leAt d 35 1
def descBarrier (d : List Byte) : Bool := descFlags d % 2 == 1
def descWait (d : List Byte) : Bool := descFlags d / 2 % 2 == 1
def descNotify (d : List Byte) : Bool := descFlags d / 4 % 2 == 1
def descSwap (d : List Byte) : Nat := descFlags d / 8 % 4
def descOwn (d : List Byte) : Bool := leAt d 63 1 / 128 == 1
def descRowBytes (d : List Byte) : Nat := leAt d 16 4
def descRows (d : List Byte) : Nat := leAt d 28 2 + 1
def descCtr (d : List Byte) : Nat := leAt d 36 1 % 32
def descThresh (d : List Byte) : Nat := leAt d 40 4
def descLayer (d : List Byte) : BitVec 16 := BitVec.ofNat 16 (leAt d 30 2)
def descOperator (d : List Byte) : BitVec 16 := BitVec.ofNat 16 (leAt d 32 2)

/-- Rows of a transfer, over all planes. -/
def descTotal (d ext : List Byte) : Nat := descRows d * (if descType d = 1 then leAt ext 0 2 + 1 else 1)

/-- The slots a descriptor takes. -/
def descSlots (d : List Byte) : Nat := if descType d = 1 then 2 else 1

/-- Hall address at which row `r` begins, at the source or the destination. -/
def descRow (d ext : List Byte) (src : Bool) (r : Nat) : Nat :=
  let base := leAt d (if src then 0 else 8) 8
  let stride := signedOf 32 (leAt d (if src then 20 else 24) 4)
  let plane := if descType d = 1 then signedOf 64 (leAt ext (if src then 8 else 16) 8) else 0
  (((base : Int) + stride * (r % descRows d : Nat) + plane * (r / descRows d : Nat)) % 2 ^ 64).toNat

/-- The swap unit in bytes. -/
def swapUnit (sw : Nat) : Nat := if sw = 0 then 1 else if sw = 1 then 2 else 4

/-- The source byte that destination byte `b` of a row takes (R289). -/
def swapFrom (sw b : Nat) : Nat :=
  match sw with
  | 1 => b / 2 * 2 + (1 - b % 2)
  | 2 => b / 4 * 4 + (3 - b % 4)
  | 3 => b / 4 * 4 + (b + 2) % 4
  | _ => b

/-- Counter `c` of the channel's engine is disabled or another ward's (R292). -/
def State.ctrForeign (s : State) (k c : Nat) : Bool :=
  let v := s.obj (Obj.dmaTripWard (k / 16) c)
  fget v 7 1 == 0 || fget v 0 4 != s.rd (.chWard k)

/-- A descriptor is invalid (R287). -/
def State.descBad (s : State) (k : Nat) (d ext : List Byte) : Bool :=
  let zero := fun (i : Nat) => leAt d i 1 == 0
  let u := swapUnit (descSwap d)
  let off := fun (x : Nat) => x % u != 0
  decide (3 < descType d) || decide (1 < leAt d 37 1) || decide (32 ≤ descFlags d) || decide (32 ≤ leAt d 36 1) ||
    decide (32 ≤ leAt d 46 1) || !(zero 38 && zero 39 && zero 47 && zero 62) || leAt d 52 4 != 0 || leAt d 63 1 % 128 != 0 ||
    descRowBytes d == 0 || (descWait d && s.ctrForeign k (descCtr d)) ||
    (descType d == 1 && (leAt ext 2 6 != 0 || leAt ext 24 39 != 0 || leAt ext 63 1 % 128 != 0)) ||
    (descSwap d != 0 && (off (leAt d 0 8) || off (leAt d 8 8) || off (descRowBytes d) || off (leAt d 20 4) || off (leAt d 24 4) ||
      (descType d == 1 && (off (leAt ext 8 8) || off (leAt ext 16 8)))))

/-! ## Write-back and signals (R288, R293 to R295) -/

/-- Bytes `lo` to `lo + len − 1` of a slot, as a beat and its strobes. -/
def slotBeat (slot lo len value : Nat) : BitVec 1024 × BitVec 128 :=
  let at_ := slot % 2 * 64 + lo
  (BitVec.ofNat 1024 (value * 2 ^ (8 * at_)), BitVec.ofNat 128 ((2 ^ len - 1) * 2 ^ at_))

/-- Bytes of a slot are written. -/
def State.slotWrite (s : State) (k slot lo len value what info : Nat) : State :=
  let b := slotBeat slot lo len value
  s.chanAsk k 1 (s.slotAddr k slot / 128 * 128) 1 [b.1] [b.2] what info

/-- Byte 63 of a slot is written with OWN clear, `tries` retries having been spent. -/
def State.clearOwn (s : State) (k slot tries : Nat) : State := s.slotWrite k slot 63 1 0 askOwn (slot + 65536 * tries)

/-- Bytes 62:56 of the descriptor's slot are written: STATUS, TRIES and DONE_TIME. -/
def State.writeBack (s : State) (k : Nat) (status tries : Nat) : State :=
  s.slotWrite k (s.chan k).slot 56 7 (status % 256 + min tries 255 * 256 + s.now % 2 ^ 32 * 2 ^ 16) askBack 0

/-- STATUS as written back: the code, DESC_ERROR, RETRIED. -/
def backStatus (st : BitVec 3) (desc : Bool) (tries : Nat) : Nat := st.toNat + (if desc then 8 else 0) + (if 0 < tries then 16 else 0)

/-- The trace record of a descriptor (R299, R540). -/
def State.chanTrace (s : State) (k evt status tries : Nat) : State :=
  let x := s.chan k
  if s.rd (.chTrace k) = 0 then s
  else s.traceQueue (s.engineAt k) 1 ⟨s.now, 1, evt, engineUnit k, k % 16, some (s.chanWard k), descLayer x.desc, descOperator x.desc,
    BitVec.ofNat 32 x.slot, BitVec.ofNat 32 (if evt = 2 then status % 256 + tries % 256 * 256 else 0)⟩

/-- A notification or ring event has been refused (R295). -/
def State.chanNaked (s : State) (k : Nat) : State := (s.bump (.chNotifyNak k) 1).wr (.chNaked k) 1

/-- A message or increment of the channel leaves, where the engine's own checks allow it (R216, R293). -/
def State.chanTell (s : State) (k : Nat) (kind : BitVec 2) (dest : BitVec 16) (sock : Nat) (words : List (BitVec 32)) : State :=
  let w := s.chanWard k
  let n := s.engineAt k
  let barred := kind = 0 ∧ !s.unitHasChannel (Obj.dmaChan (k / 16) 0) w dest sock
  if s.unplaceable dest ∨ barred then (s.countEv 0x31 n (some w) 1).chanNaked k
  else s.ctlFrom (engineUnit k) ⟨false, w, kind, 0, BitVec.ofNat 8 (s.obj (Obj.dmaRank (k / 16))).toNat, BitVec.ofNat 8 (k % 16),
    BitVec.ofNat 5 sock, 0, dest, 0, words⟩

/-- The notification of a completed descriptor. -/
def State.chanNotify (s : State) (k : Nat) (d : List Byte) : State :=
  if !descNotify d then s
  else s.chanTell k (if leAt d 37 1 = 0 then 2 else 0) (BitVec.ofNat 16 (leAt d 44 2)) (leAt d 46 1 % 32) [BitVec.ofNat 32 (leAt d 48 4)]

/-- A ring event (R294). -/
def State.ringEvent (s : State) (k slot : Nat) (half full : Bool) : State :=
  let v := s.obj (Obj.irqCfg k)
  if !((half && s.rd (.chHalf k) == 1) || (full && s.rd (.chFull k) == 1)) then s
  else s.chanTell k 0 (BitVec.ofNat 16 (fget v 16 16)) (fget v 11 5)
    [BitVec.ofNat 32 (fget v 0 11 + (if half then 65536 else 0) + (if full then 131072 else 0)), BitVec.ofNat 32 slot]

/-! ## Fetching (R283, R286, R288) -/

/-- The channel reads a slot, or the extension slot behind it, under a number of its own. -/
def State.chanFetchAs (s : State) (k slot what : Nat) : State :=
  let x := s.chan k
  (s.setChan k { x with fetching := some slot, fetchTries := 0, fetchId := x.nextId, nextId := x.nextId + 1 }).chanAsk k 0
    (s.slotAddr k (if what = askFetch then slot else slot + 1) / 128 * 128) 1 [] [] what x.nextId

def State.chanFetch (s : State) (k slot : Nat) : State := s.chanFetchAs k slot askFetch

/-- The slot after a descriptor that takes `m`, the ring continuing at slot 0 past its end. -/
def State.slotAfter (s : State) (k slot m : Nat) : Nat := if s.ringSize k ≤ slot + m then 0 else slot + m

/-- The last request of the descriptor has been issued: the next slot is read, unless the channel stops (R288). -/
def State.chanPrefetch (s : State) (k : Nat) : State :=
  let x := s.chan k
  if s.rd (.chState k) = 3 ∨ x.fetching.isSome then s else s.chanFetch k (s.slotAfter k x.slot (descSlots x.desc))

/-- Step 6 begins: the descriptor is written back. -/
def State.chanBack (s : State) (k : Nat) : State :=
  let x := s.chan k
  let st := backStatus 0 false x.tries
  ((s.setChan k { x with phase := .writeBack, backTries := 0 }).chanTrace k 2 st x.tries).writeBack k st x.tries

/-- Step 3 is past: the move begins, or SYNC goes on to its end. -/
def State.chanGo (s : State) (k : Nat) : State :=
  let s0 := ((s.wr (.chState k) (if s.rd (.chState k) = 3 then 3 else 1)).wr (.chWaitCtr k) 0).chanTrace k 1 0 0
  if descType (s0.chan k).desc = 3 then (s0.chanPrefetch k).chanBack k
  else s0.setChan k { s0.chan k with phase := .move }

/-- A counter of an engine gives up the threshold of a channel that waits on it, if it holds as much (R291). -/
def State.chanRelease (s : State) (k : Nat) : State :=
  let x := s.chan k
  let key := Obj.dmaTrip (k / 16) (descCtr x.desc)
  let v := (s.obj key).toNat
  if x.phase ≠ .wait ∨ v < descThresh x.desc then s
  else (s.setObj key (BitVec.ofNat 64 (v - descThresh x.desc))).chanGo k

/-- After a change of a counter of engine `e`, waiting channels are examined in ascending order. -/
def State.tripExamine (s : State) (e c : Nat) : State :=
  (List.range 16).foldl (fun (a : State) i =>
    if descCtr (a.chan (16 * e + i)).desc = c then a.chanRelease (16 * e + i) else a) s

/-- An increment of counter `c` of engine `e`: it saturates (R291). -/
def State.tripAdd (s : State) (e c : Nat) (v : BitVec 32) : State :=
  (s.bump ⟨Obj.dmaTrip e c, 0, 32⟩ v.toNat).tripExamine e c

/-- Steps 2 and 3 for a descriptor that has been read whole. A channel that is stopping does not wait: it goes on at once or to IDLE,
as in WAITING (R297). -/
def State.chanCheck (s : State) (k : Nat) (d ext : List Byte) : State :=
  let x := s.chan k
  let y := { x with desc := d, ext := ext, order := x.order + 1, tries := 0, readRow := 0, readOff := 0, moveRow := 0, moveOff := 0, asm := [] }
  let s1 := s.setChan k y
  if s.descBad k d ext then s1.chanFail k ⟨3, x.slot, Status.targetError, 0, true⟩
  else if descType d = 2 then
    let s2 := ((s1.clearOwn k x.slot 0).wr (.ringHeadF k) 0).ringEvent k x.slot false true
    (s2.setChan k { s2.chan k with slot := 0 }).chanFetch k 0
  else if descWait d ∧ s.rd (.chState k) = 3 then
    let s2 := (s1.setChan k { y with phase := .wait }).chanRelease k
    if (s2.chan k).phase = .wait then s2.chanIdle k else s2
  else if descWait d then
    ((s1.setChan k { y with phase := .wait }).wr (.chState k) 2 |>.wr (.chWaitCtr k) (descCtr d)).chanRelease k
  else s1.chanGo k

/-- The half of a beat that holds a slot. -/
def slotOfBeat (b : BitVec 1024) (slot : Nat) : List Byte := leBytes 64 (b.toNat / 2 ^ (512 * (slot % 2)))

/-- A slot has been read (step 1). -/
def State.chanExamine (s : State) (k slot : Nat) (b : BitVec 1024) : State :=
  let d := slotOfBeat b slot
  let x := { s.chan k with slot := slot, fetching := none }
  let s1 := (s.setChan k x).wr (.chSlot k) slot
  if s.rd (.chState k) = 3 then s.chanIdle k
  else if !descOwn d then
    if s.rd (.chPending k) = 1 then (s.wr (.chPending k) 0).chanFetch k slot else s.chanIdle k
  else if descType d = 1 ∧ s.ringSize k ≤ slot + 1 then
    (s1.setChan k { x with desc := d }).chanFail k ⟨3, slot, Status.targetError, 0, true⟩
  else if descType d = 1 ∧ slot % 2 = 1 then
    (s1.setChan k { x with desc := d }).chanFetchAs k slot askExt
  else s1.chanCheck k d (if descType d = 1 then slotOfBeat b (slot + 1) else [])

/-- The answer of a fetch, examined where the channel has come to it. -/
def State.chanFetched (s : State) (k what id : Nat) (d : TDone) : State :=
  let x := s.chan k
  let slot := x.fetching.getD 0
  if x.phase ≠ .fetch ∨ x.fetching.isNone ∨ x.fetchId ≠ id then s
  else if d.status = 0 then
    if what = askFetch then s.chanExamine k slot (d.data.headD 0)
    else (s.setChan k { x with fetching := none }).chanCheck k x.desc (slotOfBeat (d.data.headD 0) (slot + 1))
  else if s.mayRetry k d.status x.fetchTries then
    ((s.setChan k { x with fetchTries := x.fetchTries + 1 }).bump (.chRetries k) 1).chanAsk k 0
      (s.slotAddr k (if what = askFetch then slot else slot + 1) / 128 * 128) 1 [] [] what id
  else s.chanFail k ⟨4, slot, d.status, x.fetchTries, false⟩

/-! ## Moving (R280, R282, R288, R289) -/

/-- The next piece of a row from byte `off`: its bytes up to the row's end or the next 4 KiB boundary (R244). -/
def pageLen (start off rowBytes : Nat) : Nat := min (rowBytes - off) (4096 - (start + off) % 4096)

/-- Bytes of the channel's buffer in use (R280). -/
def DmaChan.used (x : DmaChan) : Nat :=
  128 * ((x.reads.map (·.beats)).sum + (x.writes.map (fun w => w.data.length)).sum + x.asm.length)

/-- The read the channel issues next. -/
def DmaChan.nextRead (x : DmaChan) : Option DmaRead :=
  if descTotal x.desc x.ext ≤ x.readRow then none
  else
    let start := descRow x.desc x.ext true x.readRow
    let len := pageLen start x.readOff (descRowBytes x.desc)
    let a := (start + x.readOff) % 2 ^ 64
    some ⟨x.nextId, a / 128 * 128, (a % 128 + len + 127) / 128, x.readRow, x.readOff, len, 0, none⟩

/-- The place after `len` bytes of a row. -/
def stepRow (rowBytes row off len : Nat) : Nat × Nat := if rowBytes ≤ off + len then (row + 1, 0) else (row, off + len)

/-- Source byte `b` of row `r`, where its read has come. -/
def DmaChan.byte (x : DmaChan) (r b : Nat) : Option Byte :=
  match x.reads.find? (fun q => q.row == r && decide (q.from_ ≤ b) && decide (b < q.from_ + q.len)) with
  | none => none
  | some q => match q.data with
    | none => none
    | some ds =>
      let p := (descRow x.desc x.ext true r + q.from_) % 128 + (b - q.from_)
      some ((ds.getD (p / 128) 0).extractLsb' (8 * (p % 128)) 8)

/-- The bytes of the next destination beat, where all are there. -/
def DmaChan.nextBeat (x : DmaChan) : Option (List Byte) :=
  if descTotal x.desc x.ext ≤ x.moveRow then none
  else
    let a := descRow x.desc x.ext false x.moveRow + x.moveOff
    let len := min (128 - a % 128) (descRowBytes x.desc - x.moveOff)
    (List.range len).foldr (fun i acc =>
      match acc, x.byte x.moveRow (swapFrom (descSwap x.desc) (x.moveOff + i)) with
      | some l, some b => some (b :: l)
      | _, _ => none) (some [])

/-- The channel can issue a read now. -/
def State.canRead (s : State) (k : Nat) : Bool :=
  let x := s.chan k
  match x.nextRead with
  | some r => decide (x.used + 128 * r.beats ≤ (s.obj Obj.chanBuffer).toNat)
  | none => false

/-- The channel has a step for the mover. -/
def State.chanReady (s : State) (k : Nat) : Bool :=
  let x := s.chan k
  x.phase == .move && (s.canRead k || x.nextBeat.isSome)

/-- A read is issued. -/
def State.chanRead (s : State) (k : Nat) (r : DmaRead) : State :=
  let x := s.chan k
  let p := stepRow (descRowBytes x.desc) x.readRow x.readOff r.len
  (s.setChan k { x with reads := x.reads ++ [r], nextId := x.nextId + 1, readRow := p.1, readOff := p.2 }).chanAsk k 0 r.addr r.beats [] [] askRead r.id

/-- A beat of the given bytes at place `p`, with its strobes. -/
def beatOf (bs : List Byte) (p : Nat) : BitVec 1024 × BitVec 128 :=
  (BitVec.ofNat 1024 (ofLe bs * 2 ^ (8 * p)), BitVec.ofNat 128 ((2 ^ bs.length - 1) * 2 ^ p))

/-- Reads whose every byte has been moved leave the buffer. -/
def DmaChan.freeReads (x : DmaChan) : DmaChan :=
  { x with reads := x.reads.filter (fun q => decide (x.moveRow < q.row) || (q.row == x.moveRow && decide (x.moveOff < q.from_ + q.len))) }

/-- A beat is moved; the last of a request sends its write. -/
def State.chanMove (s : State) (k : Nat) (bs : List Byte) : State :=
  let x := s.chan k
  let start := descRow x.desc x.ext false x.moveRow
  let a := (start + x.moveOff) % 2 ^ 64
  let p := stepRow (descRowBytes x.desc) x.moveRow x.moveOff bs.length
  let asm := x.asm ++ [beatOf bs (a % 128)]
  let y := ({ x with moveRow := p.1, moveOff := p.2, asm := asm }).freeReads
  let s1 := (s.setChan k y).countEv 0x40 (s.engineAt k) (some (s.chanWard k)) 1
  let done := p.2 == 0 || (a + bs.length) % 4096 == 0
  if done then
    let addr := (a / 128 * 128 + 2 ^ 64 - 128 * (asm.length - 1)) % 2 ^ 64
    let w : DmaWrite := ⟨x.nextId, addr, asm.map (·.1), asm.map (·.2), 0, x.order, x.slot⟩
    (s1.setChan k { y with asm := [], writes := y.writes ++ [w], nextId := x.nextId + 1 }).chanAsk k 1 addr asm.length w.data w.strb askWrite w.id
  else s1

/-- Everything of the descriptor has been moved and issued. -/
def DmaChan.moved (x : DmaChan) : Bool := x.phase == .move && decide (descTotal x.desc x.ext ≤ x.moveRow)

/-- Writes of the descriptor in progress that have no completion yet. -/
def DmaChan.owed (x : DmaChan) : Bool := x.writes.any (fun w => w.order == x.order)

/-! ## Answers (R296) -/

/-- A read's answer. -/
def State.readAnswer (s : State) (k id : Nat) (d : TDone) : State :=
  let x := s.chan k
  match x.reads.find? (fun r => r.id == id) with
  | none => s
  | some r =>
    let put := fun (r' : DmaRead) => x.reads.map (fun q => if q.id = id then r' else q)
    if d.status = 0 then s.setChan k { x with reads := put { r with data := some d.data } }
    else if s.mayRetry k d.status r.tries then
      ((s.setChan k { x with reads := put { r with tries := r.tries + 1 }, tries := max x.tries (r.tries + 1) }).bump (.chRetries k) 1).chanAsk k 0
        r.addr r.beats [] [] askRead r.id
    else s.chanFail k ⟨failKind d.status, x.slot, d.status, r.tries, true⟩

/-- A write's answer. An error found after its descriptor has completed names that descriptor; where its write-back is still on its
way, that ends with the status it reports, OWN is cleared, and then the channel halts (R296, log 139). -/
def State.writeAnswer (s : State) (k id : Nat) (d : TDone) : State :=
  let x := s.chan k
  match x.writes.find? (fun w => w.id == id) with
  | none => s
  | some w =>
    if d.status = 0 then s.setChan k { x with writes := x.writes.filter (fun q => q.id != id) }
    else if s.mayRetry k d.status w.tries then
      ((s.setChan k { x with
        writes := x.writes.map (fun q => if q.id = id then { w with tries := w.tries + 1 } else q)
        tries := if w.order = x.order then max x.tries (w.tries + 1) else x.tries }).bump (.chRetries k) 1).chanAsk k 1
        w.addr w.data.length w.data w.strb askWrite w.id
    else
      let f : DmaFail := ⟨failKind d.status, w.slot, d.status, w.tries, w.order == x.order && x.phase == .move⟩
      if x.phase = .writeBack then
        (s.chanWithdraw k).setChan k { x with phase := .haltBack, fail := some f, reads := [], writes := [], asm := [], fetching := none }
      else if x.phase = .none then s.chanHalted k f
      else s.chanFail k f

/-- The answer of the write that clears OWN; its failure is a failure of the write-back, which halts even a channel that has gone
to IDLE. A channel that aborts or halts discards it (R296, R297). -/
def State.ownAnswer (s : State) (k info : Nat) (d : TDone) : State :=
  let x := s.chan k
  let slot := info % 65536
  let tries := info / 65536
  if d.status = 0 ∨ x.phase = .abort ∨ x.phase = .halting ∨ x.phase = .haltBack then s
  else if s.mayRetry k d.status tries then (s.bump (.chRetries k) 1).clearOwn k slot (tries + 1)
  else if s.rd (.chState k) = 4 then s
  else if x.phase = .none then s.chanHalted k ⟨4, slot, d.status, tries, false⟩
  else s.chanFail k ⟨4, slot, d.status, tries, false⟩

/-- The answer is that of a read of a slot which its channel no longer waits for. -/
def State.staleFetch (s : State) (k what id : Nat) : Bool :=
  (what == askFetch || what == askExt) && ((s.chan k).fetching.isNone || (s.chan k).fetchId != id)

/-- Answers for reads, writes and cleared OWN bits reach the channels of engine `e`; those of reads given up are dropped. -/
def State.engineAnswers (s : State) (e : Nat) : Nat → State
  | 0 => s
  | j + 1 =>
    match s.takeDone (0x98 + e) (fun k what info => what == askRead || what == askWrite || what == askOwn || s.staleFetch k what info) with
    | none => s
    | some (d, k, what, info, s1) =>
      (if what = askRead then s1.readAnswer k info d else if what = askWrite then s1.writeAnswer k info d
       else if what = askOwn then s1.ownAnswer k info d else s1).engineAnswers e j

/-- A channel goes on where what it waited for has come: past step 5, or to the end of a halt or abort. -/
def State.chanSettle (s : State) (k : Nat) : State :=
  let x := s.chan k
  if x.moved then
    if descBarrier x.desc ∧ x.owed then s.chanPrefetch k else (s.chanPrefetch k).chanBack k
  else if x.phase = .halting ∧ !s.chanOpen k then
    match x.fail with
    | none => s
    | some f =>
      let s1 := s.dropDones (engineUnit k) k
      if f.back then
        let st := backStatus f.status (f.kind == 3) f.tries
        ((s1.setChan k { x with phase := .haltBack, backTries := 0 }).chanTrace k 2 st f.tries).writeBack k st f.tries
      else s1.chanHalted k f
  else if x.phase = .abort ∧ !s.chanOpen k then (s.dropDones (engineUnit k) k).chanIdle k
  else s

/-- A channel of a ward being reclaimed is aborted without write-back (R298). -/
def State.chanAbort (s : State) (k : Nat) : State :=
  if s.rd (.chState k) = 0 ∨ s.rd (.chState k) = 4 then s.wr (.chPending k) 0
  else
    let x := s.chan k
    (((s.chanWithdraw k).setChan k { x with phase := .abort, reads := [], writes := [], asm := [], fetching := none }).wr (.chState k) 5).wr (.chPending k) 0

/-- The channels of engine `e` whose ward is being reclaimed abort. A fault that begins a ward's reset finds them here (R491). -/
def State.chansClose (s : State) (e : Nat) : State :=
  (List.range 16).foldl (fun (a : State) c => match chanWardOf (s.obj (Obj.chCfg (16 * e + c))) with
    | some w => if s.wardReclaiming w then a.chanAbort (16 * e + c) else a
    | none => a) s

/-- The engine takes in what has come. -/
def State.engineSettle (s : State) (e : Nat) : State :=
  let s0 := s.chansClose e
  let s1 := (s0.heldGo e s0.dma.held.length).engineAnswers e (2 * s0.txn.dones.length + 16)
  (List.range 16).foldl (fun (a : State) c => a.chanSettle (16 * e + c)) s1

/-! ## Commands -/

/-- DMA_DESCRIPTOR_FETCH: a fetched slot is examined (R288). -/
def Dma.fetchDone (e c : Nat) (s : State) : State :=
  let k := 16 * e + c
  let s0 := s.engineSettle e
  if !s.engineMoves e ∨ 16 ≤ c then s
  else if (s0.chan k).phase ≠ .fetch then s0
  else match s0.takeDone (0x98 + e) (fun j what info => j == k && (what == askFetch || what == askExt) && !s0.staleFetch k what info) with
    | none => s0
    | some (d, _, what, info, s1) => ((s1.chanFetched k what info d).chanSettle k).touch (s.engineAt k)

def execDmaDescriptorFetch (e c : Nat) (s : State) : Host.Outcome State Fault Refusal := .next (Dma.fetchDone e c s)

/-- The channel the mover serves: the highest PRIO, in turn among equals, staying with one in the middle of a request (R282). -/
def State.moverPick (s : State) (e : Nat) : Option Nat :=
  let rs := (List.range 16).filter (fun c => s.chanReady (16 * e + c))
  let top := (rs.map (fun c => s.rd (.chPrio (16 * e + c)))).foldl max 0
  let best := rs.filter (fun c => s.rd (.chPrio (16 * e + c)) == top)
  let turn := Tbl.get 0 s.dma.movers (4 * e + top)
  if best.contains (turn - 1) ∧ 0 < turn ∧ !(s.chan (16 * e + (turn - 1))).asm.isEmpty then some (turn - 1)
  else match best.find? (fun c => decide (turn ≤ c)) with
    | some c => some c
    | none => best.head?

/-- Channel `c` of engine `e` has moved a beat: the turn among its equals stands there. -/
def State.moverTurn (s : State) (e c : Nat) : State :=
  { s with dma := { s.dma with movers := Tbl.set 0 s.dma.movers (4 * e + s.rd (.chPrio (16 * e + c))) (c + 1) } }

/-- DMA_MOVER_STEP: the mover issues a read for, or moves a beat of, the channel whose turn it is (R282). -/
def Dma.moverStep (e : Nat) (s : State) : State :=
  if !s.engineMoves e then s
  else
    let s0 := s.engineSettle e
    match s0.moverPick e with
    | none => s0
    | some c =>
      let k := 16 * e + c
      let s1 := match s0.canRead k, (s0.chan k).nextRead, (s0.chan k).nextBeat with
        | true, some r, _ => s0.chanRead k r
        | _, _, some bs => (s0.chanMove k bs).moverTurn e c
        | _, _, none => s0
      (s1.chanSettle k).touch (s.engineAt k)

def execDmaMoverStep (e : Nat) (s : State) : Host.Outcome State Fault Refusal := .next (Dma.moverStep e s)

/-- A descriptor is done: OWN is cleared, the notification and ring events are sent, and the ring moves on (R288, R294). -/
def State.chanAdvance (s : State) (k : Nat) : State :=
  let x := s.chan k
  let size := s.ringSize k
  let next := s.slotAfter k x.slot (descSlots x.desc)
  let old := s.rd (.ringHeadF k)
  let half := decide (old < size / 2) && decide (size / 2 ≤ next)
  let s1 := (((s.clearOwn k x.slot 0).bumpWrap (.chDone k) 1).wr (.ringHeadF k) next).countEv 0x41 (s.engineAt k) (some (s.chanWard k)) 1
  let s2 := (s1.chanNotify k x.desc).ringEvent k x.slot half (next == 0)
  if s2.rd (.chState k) = 3 then s2.chanIdle k
  else
    let y := s2.chan k
    let s3 := s2.setChan k { y with phase := .fetch }
    if y.fetching = some next then s3 else s3.chanFetch k next

/-- DMA_WRITEBACK_COMPLETE: the write of bytes 62:56 has its completion. -/
def Dma.backDone (e c : Nat) (s : State) : State :=
  let k := 16 * e + c
  let s0 := s.engineSettle e
  if !s.engineMoves e ∨ 16 ≤ c then s
  else match s0.takeDone (0x98 + e) (fun j what _ => j == k && what == askBack) with
    | none => s0
    | some (d, _, _, _, s1) =>
      let x := s1.chan k
      let tries := match x.fail with
        | some f => if f.back then f.tries else x.tries
        | none => x.tries
      let st := match x.fail with
        | some f => if f.back then backStatus f.status (f.kind == 3) f.tries else backStatus 0 false x.tries
        | none => backStatus 0 false x.tries
      if x.phase ≠ .writeBack ∧ x.phase ≠ .haltBack then s1
      else if d.status = 0 then
        if x.phase = .writeBack then (s1.chanAdvance k).touch (s.engineAt k)
        else match x.fail with
          | some f =>
            let s2 := (s1.clearOwn k x.slot 0).countEv 0x41 (s.engineAt k) (some (s.chanWard k)) 1
            if f.back then s2.chanHalted k f else ((s2.setChan k { s2.chan k with phase := .halting }).chanSettle k).touch (s.engineAt k)
          | none => s1
      else if s1.mayRetry k d.status x.backTries then
        ((s1.setChan k { x with backTries := x.backTries + 1 }).bump (.chRetries k) 1).writeBack k st tries
      else match x.fail with
        | some f => s1.chanHalted k f
        | none => (s1.chanFail k ⟨4, x.slot, d.status, x.backTries, false⟩).chanSettle k

def execDmaWritebackComplete (e c : Nat) (s : State) : Host.Outcome State Fault Refusal := .next (Dma.backDone e c s)

/-- A channel in IDLE starts from RING_HEAD (R297). -/
def State.chanStart (s : State) (k : Nat) : State :=
  let s1 := ((((s.wr (.chPending k) 0).wr (.chState k) 1).wr (.chNaked k) 0).setObj (Obj.chErr k) 0)
  let head := s.rd (.ringHeadF k)
  (s1.setChan k { s1.chan k with phase := .fetch, slot := head }).chanFetch k head

/-- The command last accepted stands in CH_CTRL. -/
def State.chanCmd (s : State) (k cmd : Nat) : State := s.setObj (Obj.chCtrl k) (BitVec.ofNat 64 cmd)

/-- START, STOP, ABORT or CLEAR, by the channel's state (R297, R298). -/
def Dma.control (k cmd : Nat) : Effect := fun s =>
  let st := s.rd (.chState k)
  let s0 := s.chanCmd k cmd
  match cmd with
  | 1 =>
    if s.rd (.chOwned k) = 0 ∨ 3 ≤ st then .error .badState
    else if st ≠ 0 ∨ s.warn then .ok (s0.wr (.chPending k) 1)
    else .ok (s0.chanStart k)
  | 2 =>
    if st = 0 ∨ st = 3 then .ok s0
    else if st = 1 then .ok (s0.wr (.chState k) 3)
    else if st = 2 then .ok (s0.chanIdle k)
    else .error .badState
  | 3 =>
    if st = 0 ∨ st = 5 then .ok s0
    else if st = 2 then .ok (s0.chanIdle k)
    else if st = 4 then .error .badState
    else
      let x := s0.chan k
      .ok ((((s0.chanWithdraw k).setChan k { x with phase := .abort, reads := [], writes := [], asm := [], fetching := none }).wr (.chState k) 5).chanSettle k)
  | 4 => if st = 4 then .ok (s0.wr (.chState k) 0) else .error .badState
  | _ => .error .badState

/-- A channel object that accepts writes only in IDLE (R297): CH_CFG, RING_BASE, RING_SIZE_M1, RING_HEAD. -/
def Dma.writeIdle (k key : Nat) (v : Val) : Effect := fun s =>
  if s.rd (.chState k) ≠ 0 then .error .inUse
  else if key = Obj.ringBase k ∧ v.toNat % 128 ≠ 0 then .error .outOfRange
  else if key = Obj.ringHead k ∧ (s.obj (Obj.ringSizeM1 k)).toNat < v.toNat then .error .outOfRange
  else .ok (s.setObj key v)

/-- TRIP: a write sets the value, and channels that wait on it are examined (R291, R300). -/
def Dma.writeTrip (e c : Nat) (v : Val) : Effect := fun s => .ok ((s.setObj (Obj.dmaTrip e c) v).tripExamine e c)

/-- TRIP_WARD: refused while a channel waits on the counter (R300). -/
def Dma.writeTripWard (e c : Nat) (v : Val) : Effect := fun s =>
  if (List.range 16).any (fun i => (s.chan (16 * e + i)).phase == .wait && descCtr (s.chan (16 * e + i)).desc == c) then .error .inUse
  else .ok (s.setObj (Obj.dmaTripWard e c) v)

/-- CH_STAT cleared (R300). -/
def Dma.clearStat (k : Nat) : Effect := fun s => .ok (s.setObj (Obj.chStat k) 0)

/-- DMA_NAK_ARRIVE: a NAK for a notification or ring event; its TAG names the channel (R295). -/
def Dma.nakArrive (e : Nat) (s : State) : State :=
  let u := 0x98 + e
  match s.cfg.dmaAt e, (Tbl.get [] s.ctl.arrived u).find? (fun m => m.nak) with
  | some n, some m =>
    if !s.moves n then s
    else
      let s1 : State := { s with ctl := { s.ctl with arrived := Tbl.upd [] s.ctl.arrived u (fun l => l.erase m) } }
      (s1.chanNaked (16 * e + m.tag.toNat % 16)).touch n
  | _, _ => s

def execDmaNakArrive (e : Nat) (s : State) : Host.Outcome State Fault Refusal := .next (Dma.nakArrive e s)

/-- An increment that reaches engine `e`, or the reason for which it is refused (R216, R291, R292). -/
def Dma.increment (e n : Nat) (m : CtlMsg) (s : State) : State × Option (BitVec 4) :=
  let v := s.obj (Obj.dmaTripWard e m.sock.toNat)
  if s.outerFails n 6 m then (s, some Nak.corrupt)
  else if fget v 7 1 = 0 then (s, some Nak.noCounter)
  else if fget v 0 4 ≠ m.ward.toNat then (s, some Nak.ward)
  else if s.junctionLost n ∨ s.wardReclaiming m.ward then (s, some Nak.notReady)
  else if m.words.length ≠ 1 then (s, some Nak.malformed)
  else ((s.countEv 0x34 n (some m.ward) 1).tripAdd e m.sock.toNat (m.words.headD 0), none)

/-- The supply stands again: starts that WARN held take effect (R298). -/
def State.heldStarts (s : State) : State :=
  (List.range 64).foldl (fun (a : State) k =>
    if a.rd (.chPending k) = 1 ∧ a.rd (.chState k) = 0 ∧ (a.chan k).phase = .none then a.chanStart k else a) s

/-- The region of an engine is reset or loses its rail: every channel not IDLE or HALTED halts with KIND REGION, nothing being
written back, and no channel keeps data or a request (R298). -/
def State.engineRegionReset (s : State) (e : Nat) : State :=
  (List.range 16).foldl (fun (a : State) c =>
    let k := 16 * e + c
    let b := (a.chanWithdraw k).dropDones (0x98 + e) k
    if a.rd (.chState k) = 0 ∨ a.rd (.chState k) = 4 then b.setChan k { DmaChan.zero with nextId := (a.chan k).nextId, order := (a.chan k).order + 1 }
    else b.chanHalted k ⟨5, a.rd (.chSlot k), 0, 0, false⟩) s

end Sys2Proof.Machine
end

