-- ==== Sys2Proof/Machine/Gate.lean ====
section
/-! DEFINITION. The fabric gates: the plat, requests leaving and arriving, connections, and the line (R335 to R366). -/

namespace Sys2Proof.Machine

/-! ## The plat (R343, R344, R353) -/

/-- KEY of address `a` for segments of SIZE `z`, at bits 58:30. -/
def platKey (a z : Nat) : Nat := a % 2 ^ 59 / 2 ^ (30 + z) * 2 ^ (30 + z)

/-- The set that a segment's entry stands in. -/
def platSet (key z : Nat) : Nat := (crc32c (leBytes 5 (key / 2 ^ 24) ++ leBytes 1 z)).toNat % 2 ^ 18

def platSize (v : BitVec 64) : Nat := fget v 59 4
def platFirst (v : BitVec 64) : Nat := fget v 30 29 * 2 ^ 30

def State.platAt (s : State) (i : Nat) : BitVec 64 := Tbl.get 0 s.gat.plat i

def State.setPlat (s : State) (i : Nat) (v : BitVec 64) : State :=
  { s with gat := { s.gat with plat := Tbl.set 0 s.gat.plat i v } }

/-- The way of a set that holds the segment of KEY and SIZE. -/
def State.platWay (s : State) (key z : Nat) : Option Nat :=
  ((List.range 4).map (fun w => 4 * platSet key z + w)).find? (fun i =>
    let v := s.platAt i
    fget v 63 1 == 1 && platSize v == z && platFirst v == key)

/-- The entry for a hall address: the sizes of PLAT_SIZES are probed in ascending order. -/
def State.platLookup (s : State) (a : Nat) : Option Nat :=
  ((List.range 16).filter (fun z => (s.obj Obj.platSizes).getLsbD z)).findSome? (fun z => s.platWay (platKey a z) z)

/-- PLAT_USED and PLAT_SIZES follow the entries. -/
def State.platCount (s : State) : State :=
  let vs := (s.gat.plat.map (·.2)).filter (fun v => fget v 63 1 == 1)
  (s.setObj Obj.platUsed (BitVec.ofNat 64 vs.length)).setObj Obj.platSizes
    (BitVec.ofNat 64 (((List.range 16).filter (fun z => vs.any (fun v => platSize v == z))).map (2 ^ ·)).sum)

/-- A segment shares addresses with a valid entry. -/
def State.platOverlaps (s : State) (key z : Nat) : Bool :=
  s.gat.plat.any (fun e => fget e.2 63 1 == 1 && decide (platFirst e.2 < key + 2 ^ (30 + z)) &&
    decide (key < platFirst e.2 + 2 ^ (30 + platSize e.2)))

/-- PLAT_INSERT: the entry stands in the lowest free way of its set. An entry with MIRROR needs L3 (R353). -/
def Gate.insert (level : BitVec 2) (v : Val) : Effect := fun s =>
  let z := platSize v
  let key := platFirst v
  if fget v 17 1 = 1 ∧ level ≠ 3 then .error .level
  else if 8 < z ∨ key % 2 ^ (30 + z) ≠ 0 ∨ fget v 0 16 = 0 ∨ key / 2 ^ 47 = (s.obj Obj.pkgNumber).toNat ∨ s.platOverlaps key z then
    .error .outOfRange
  else if !s.wardTakes (fget v 26 4) then .error .inUse
  else match ((List.range 4).map (fun w => 4 * platSet key z + w)).find? (fun i => fget (s.platAt i) 63 1 == 0) with
    | none => .error .exhausted
    | some i => .ok (s.setPlat i (fset (fset v 63 1 1) 16 1 0)).platCount

/-- PLAT_REMOVE: the entry with the KEY and SIZE named goes. -/
def Gate.remove (v : Val) : Effect := fun s =>
  match s.platWay (platFirst v) (platSize v) with
  | none => .error .outOfRange
  | some i => .ok (s.setPlat i 0).platCount

/-- What a read of PLAT_QUERY returns: the entry for the address last written, zero on a miss. -/
def State.platAnswer (s : State) : Val :=
  match s.platLookup (s.obj Obj.platQuery).toNat with
  | some i => s.platAt i
  | none => 0

def execPlatInsert (acc : Access) (v : BitVec 64) (s : State) : Host.Outcome State Fault Refusal :=
  .next (s.serveKey acc Obj.platInsert v (fun _ => Gate.insert acc.level v))

def execPlatRemove (acc : Access) (v : BitVec 64) (s : State) : Host.Outcome State Fault Refusal :=
  .next (s.serveKey acc Obj.platRemove v (fun _ => Gate.remove v))

def execPlatQuery (acc : Access) (v : BitVec 64) (s : State) : Host.Outcome State Fault Refusal :=
  .next (s.serveKey acc Obj.platQuery v (fun _ => storeVal Obj.platQuery v))

/-! ## Objects of a gate (R362 to R366) -/

def Fld.gateEnable (g : Nat) : Fld := ⟨Obj.gateCfg g, 31, 1⟩
def Fld.hopLimit (g : Nat) : Fld := ⟨Obj.gateCfg g, 16, 8⟩
def Fld.sprayPaths (g : Nat) : Fld := ⟨Obj.gateCfg g, 0, 12⟩
def Fld.retxTimeout (g : Nat) : Fld := ⟨Obj.retxCfg g, 16, 16⟩
def Fld.retxLimit (g : Nat) : Fld := ⟨Obj.retxCfg g, 12, 4⟩
def Fld.ackDelay (g : Nat) : Fld := ⟨Obj.retxCfg g, 0, 8⟩
def Fld.gateLinkUp (g : Nat) : Fld := ⟨Obj.gateStatus g, 31, 1⟩
def Fld.gateRetx (g : Nat) : Fld := ⟨Obj.gateErr g, 48, 16⟩
def Fld.gateCheck (g : Nat) : Fld := ⟨Obj.gateErr g, 32, 16⟩
def Fld.gateOverflow (g : Nat) : Fld := ⟨Obj.gateErr g, 16, 16⟩
def Fld.gateUnreachable (g : Nat) : Fld := ⟨Obj.gateErr g, 8, 8⟩
def Fld.gateStale (g : Nat) : Fld := ⟨Obj.gateErr g, 0, 8⟩

/-- Bytes of a class in the retransmit buffer, and in the reorder buffer (R336). -/
def classShare (c : Nat) : Nat :=
  match c with
  | 0 => 524288
  | 1 => 2097152
  | 2 => 2621440
  | _ => 3145728

def GConn.cls (x : GConn) (c : Nat) : GClass := Tbl.get GClass.zero x.classes c

def GConn.setCls (x : GConn) (c : Nat) (k : GClass) : GConn := { x with classes := Tbl.set GClass.zero x.classes c k }

def Gate.conn (x : Gate) (peer : BitVec 22) : Option GConn := x.conns.find? (fun c => c.peer == peer)

/-- The connection takes the place of the one with its peer, or joins the table. -/
def Gate.setConn (x : Gate) (c : GConn) : Gate :=
  if x.conns.any (fun d => d.peer == c.peer) then { x with conns := x.conns.map (fun d => if d.peer = c.peer then c else d) }
  else { x with conns := x.conns ++ [c] }

def Gate.dropConn (x : Gate) (peer : BitVec 22) : Gate := { x with conns := x.conns.filter (fun c => c.peer != peer) }

/-- Bytes in use in a share. -/
def Gate.sentBytes (x : Gate) (c : Nat) : Nat := (x.conns.map (fun k => ((k.cls c).sent.map (fun e => e.pkt.size)).sum)).sum
def Gate.heldBytes (x : Gate) (c : Nat) : Nat := (x.conns.map (fun k => ((k.cls c).held.map FPkt.size).sum)).sum

/-- GATE_STATUS as it reads (R365): connections in use, and the buffers' fills in 1/256 parts. -/
def State.gateStatusOf (s : State) (g : Nat) : Val :=
  let x := s.gate g
  let part := fun (f : Nat → Nat) => min 255 (((List.range 4).map f).sum * 256 / 8388608)
  fset (fset (fset (s.obj (Obj.gateStatus g)) 16 13 x.conns.length) 8 8 (part x.sentBytes)) 0 8 (part x.heldBytes)

def execGateErrClear (acc : Access) (g : Nat) (s : State) : Host.Outcome State Fault Refusal :=
  .next (s.serveKey acc (Obj.gateErr g) 0 (fun _ => storeVal (Obj.gateErr g) 0))

/-! ## Requests that leave (R341, R345, R346) -/

/-- The right that an OP needs in a plat entry. -/
def platRight (op : BitVec 4) : Nat := if isAtomic op then 19 else if op = 1 then 20 else 21

/-- The packet of a request (R341, R343, R345): the request flit with SRC, TAG and GEN of this gate, the strobes, the data. -/
def State.reqPacket (s : State) (g : Nat) (v : BitVec 64) (x : Slot) (p : TPkt) (tag : BitVec 10) (gen : BitVec 4) : FPkt :=
  let a := p.addr.toNat
  let ward := if s.fromTile p then 0xFF else p.ward.toNat
  let label := flowLabel p.src ward p.addr
  let gates := (List.range 16).filter (fun i => v.getLsbD i)
  let q := { p with src := s.ep (0x80 + g), tag := tag, gen := gen, keep := false }.sealed
  let masked := match x.data with
    | some d => !d.masks.isEmpty
    | none => false
  { FPkt.zero with
    ty := 0, cls := if fget v 18 1 = 1 then 2 else 1, spray := fget v 18 1 == 1, mirror := fget v 17 1 == 1
    ward := BitVec.ofNat 4 (fget v 22 4), level := p.level, label := BitVec.ofNat 20 label
    dst := BitVec.ofNat 22 (a / 2 ^ 47 % 4096 * 1024 + a / 2 ^ 41 % 64 * 16 + (maskPick gates label).getD 0)
    src := s.gateName g
    body := leBytes 23 q.bits ++ [if masked then 1 else 0] ++
      (if masked then x.strobes.flatMap (fun b => leBytes 16 b.toNat) else []) ++ x.beats.flatMap (fun b => leBytes 128 b.toNat) }

/-- A request whose entry allows it becomes a packet; the slot is held until the RSP returns. -/
def State.sendRequest (s : State) (g : Nat) (v : BitVec 64) (x : Slot) (p : TPkt) : State :=
  let line := 0x180 + g
  let i := s.tinit line
  match i.freeTag 1024 with
  | none => s
  | some tag =>
    let gen := Tbl.get 0 i.gens tag.toNat
    let o : OpenTxn := ⟨p.op, p.addr, p.lenM1, tag, gen, p.level, p.ward, [], [], p.dest, s.txnNow, 2, 1, false, .onward p.src p.tag p.gen⟩
    let s1 := (s.setSlot (0x80 + g) x { x with since := some s.txnNow }).setTinit line
      { i with gens := Tbl.set 0 i.gens tag.toNat (gen + 1), open_ := i.open_ ++ [o] }
    s1.gateQueue g (s.reqPacket g v x p tag gen) false

/-- What the entry found says of a request (R346). -/
def State.judgeRequest (s : State) (g : Nat) (v : BitVec 64) (x : Slot) (p : TPkt) : State :=
  let u := 0x80 + g
  if !s.fromTile p && (fget v 26 4 != p.ward.toNat || s.wardReclaiming p.ward) then s.refuseSlot u p
  else if isCoherentOp p.op then s.slotAnswer u p.src p.tag p.gen Status.targetError []
  else if fget v (platRight p.op) 1 = 0 then s.refuseSlot u p
  else s.sendRequest g v x p

/-- A gate looks a request's address up. `flips` are the bits of the plat word found that are inverted (R346, R485). -/
def State.lookupRequest (s : State) (g n : Nat) (flips : List Nat) (x : Slot) (p : TPkt) : State :=
  let u := 0x80 + g
  match s.platLookup p.addr.toNat with
  | none => s.slotAnswer u p.src p.tag p.gen Status.noTarget []
  | some i =>
    let d := s.storeDecode n 6 64 7 flips
    let s1 := s.storeRead n 6 64 7 flips
    if d.bad then
      ((s1.storeRaise 0x0A0 n 5 6 (some p.ward) (s.storeInjected n 6)).rowBad n 6 (.plat i)).slotAnswer u p.src p.tag p.gen
        Status.uncorrectable []
    else s1.judgeRequest g (flipBits (s.platAt i) d.wrong) x p

/-- GATE_REQUEST_ACCEPT: the gate takes up the next request of its slots, in the order of arrival (R245). -/
def Gate.requestAccept (g : Nat) (flips : List Nat) (s : State) : State :=
  match s.cfg.unitAt 2 g with
  | none => s
  | some n =>
    if !s.moves n then s
    else match nextSlot (s.target (0x80 + g)).slots [] with
      | none => s
      | some x =>
        match x.rq with
        | none => s
        | some p =>
          let spoilt := match x.data with
            | some d => d.status != 0
            | none => false
          if spoilt then s.slotAnswer (0x80 + g) p.src p.tag p.gen Status.uncorrectable []
          else (s.lookupRequest g n flips x p).touch n

def execGateRequestAccept (g : Nat) (flips : List Nat) (s : State) : Host.Outcome State Fault Refusal :=
  .next (Gate.requestAccept g flips s)

/-! ## Block-internal messages (R338) -/

/-- The packet of a block-internal message: its flits in 9 bytes each (R341). -/
def State.ctlPacket (s : State) (g : Nat) (peer : BitVec 22) (ward : BitVec 4) (flits : List (BitVec 72)) : FPkt :=
  FPkt.labelled { FPkt.zero with
    ty := 2, ward := ward, dst := peer, src := s.gateName g, body := flits.flatMap (fun f => leBytes 9 f.toNat) }

/-- CTL packets that wait at the egress. -/
def Gate.ctlWaiting (x : Gate) : Nat := (x.queue.filter (fun q => q.pkt.cls == 0)).length

/-- GATE_CTL_ACCEPT: a block-internal message joins the CTL queue while it has room, and is refused otherwise. -/
def Gate.ctlAccept (g : Nat) (peer : BitVec 22) (flits : List (BitVec 72)) (s : State) : State :=
  match s.cfg.unitAt 2 g, flits with
  | some n, h :: t =>
    if !s.moves n ∨ h.extractLsb' 70 2 ≠ 2 ∨ h.extractLsb' 64 2 ≠ 3 ∨ 5 < flits.length then s
    else if 64 ≤ (s.gate g).ctlWaiting then s.refuse n 5 (asmMessage h t) Nak.queueFull
    else (s.gateQueue g (s.ctlPacket g peer (h.extractLsb' 66 4) flits) false).touch n
  | _, _ => s

def execGateCtlAccept (g : Nat) (peer : BitVec 22) (flits : List (BitVec 72)) (s : State) : Host.Outcome State Fault Refusal :=
  .next (Gate.ctlAccept g peer flits s)

/-! ## The egress scheduler (R337, R347 to R349, R370) -/

/-- What may leave next within a class. -/
inductive GPick where
  | again (peer : BitVec 22) (seq : BitVec 32)
  | ack (peer : BitVec 22)
  | fresh (q : GQueued)
  deriving DecidableEq, Repr

/-- A new packet can go: its connection is there or can be opened, and, but for CTL, its window and share have room. -/
def Gate.sendable (x : Gate) (q : GQueued) : Bool :=
  q.free ||
  ((match x.conn q.pkt.dst with
    | some c => q.pkt.cls == 0 || decide ((c.cls q.pkt.cls).sent.length < (c.cls q.pkt.cls).window)
    | none => decide (x.conns.length < 4096)) && decide (x.sentBytes q.pkt.cls + q.pkt.size ≤ classShare q.pkt.cls))

/-- Packets to be sent again, by connection. -/
def Gate.againOf (x : Gate) (c : Nat) : Option (BitVec 22 × FPkt) :=
  x.conns.findSome? (fun k => ((k.cls c).sent.find? (·.again)).map (fun e => (k.peer, e.pkt)))

/-- New packets of a class that can go, the first of each destination alone: a connection's packets go in order. -/
def Gate.ready (x : Gate) (c : Nat) : List GQueued :=
  (x.queue.filter (fun q => q.pkt.cls == c)).foldl (fun (r : List GQueued × List (BitVec 22)) q =>
    if !q.free && r.2.contains q.pkt.dst then r
    else if x.sendable q then (r.1 ++ [q], r.2)
    else (r.1, if q.free then r.2 else q.pkt.dst :: r.2)) ([], []) |>.1

/-- Deficit round-robin (R337): from the turn `i` of `k`, the first whose head packet its deficit covers, with the deficits
then. `head` gives the size of a queue's head packet, `quantum` its quantum, both in bytes. -/
def drr (k : Nat) (head quantum : Nat → Nat) : Nat → Nat → Tbl Nat → Option (Nat × Tbl Nat)
  | 0, _, _ => none
  | f + 1, i, d =>
    if head i ≠ 0 ∧ head i ≤ Tbl.get 0 d i then some (i, Tbl.upd 0 d i (· - head i))
    else
      -- the turn passes on, with a quantum; a queue with nothing to send keeps no deficit
      let j := (i + 1) % k
      drr k head quantum f j (Tbl.upd 0 (if head i = 0 then Tbl.set 0 d i 0 else d) j (· + quantum j))

/-- Where a channel's next packet of COLL stands, chosen among the channels. -/
def State.collChoice (s : State) (g : Nat) (x : Gate) : Option (GQueued × Nat × Tbl Nat) :=
  let qs := x.ready 3
  let head := fun (i : Nat) => ((qs.find? (fun q => q.pkt.chan == i)).map (fun q => q.pkt.size)).getD 0
  let quantum := fun (i : Nat) => fget (s.obj (Obj.collCfg (32 * g + i))) 8 8 * 256
  if qs.isEmpty then none
  else match drr 32 head quantum 1024 x.chanTurn x.chanDeficit with
    | some (i, d) => (qs.find? (fun q => q.pkt.chan == i)).map (fun q => (q, i, d))
    | none => none

/-- The next packet of a class, with its size: one to be sent again, then an acknowledgement, then a new one. -/
def State.gatePick (s : State) (g c : Nat) : Option (GPick × Nat) :=
  let x := s.gate g
  match x.againOf c with
  | some (peer, p) => some (.again peer p.seq, p.size)
  | none => match x.conns.find? (fun k => (k.cls c).ackNow) with
    | some k => some (.ack k.peer, 52)
    | none => if c = 3 then (s.collChoice g x).map (fun q => (.fresh q.1, q.1.pkt.size))
      else (x.ready c).head?.map (fun q => (.fresh q, q.pkt.size))

/-- The class whose packet leaves next: CTL first, the others by deficit round-robin with the quanta of GATE_SHARE. -/
def State.gateClass (s : State) (g : Nat) : Option (Nat × Tbl Nat) :=
  let x := s.gate g
  if (s.gatePick g 0).isSome then some (0, x.deficit)
  else
    let head := fun (i : Nat) => ((s.gatePick g (i + 1)).map (·.2)).getD 0
    let quantum := fun (i : Nat) => fget (s.obj (Obj.gateShare g)) (8 * i) 8 * 256
    if head 0 = 0 ∧ head 1 = 0 ∧ head 2 = 0 then none
    else (drr 3 head quantum 128 ((x.turn + 2) % 3) x.deficit).map (fun r => (r.1 + 1, r.2))

/-- The PATH that a sprayed packet takes now: one beyond SPRAY_PATHS_M1, lowered meanwhile, has wrapped (R347, R362). -/
def State.pathNow (s : State) (g : Nat) (path : BitVec 12) : BitVec 12 := if s.rd (.sprayPaths g) < path.toNat then 0 else path

/-- A packet as it leaves: HOPS, MIRROR and, of a sprayed one, the connection's PATH (R339, R347, R357). The copy kept for
retransmission has MIRROR only from its segment. -/
def State.stamped (s : State) (g : Nat) (path : BitVec 12) (p : FPkt) : FPkt :=
  { p with hops := BitVec.ofNat 8 (s.rd (.hopLimit g)), mirror := p.mirror || (s.obj (Obj.mirrorAll g)).getLsbD 0
           path := if p.spray then s.pathNow g path else 0 }

/-- PATH after it, which wraps after SPRAY_PATHS_M1. -/
def State.pathAfter (s : State) (g : Nat) (p : BitVec 12) : BitVec 12 :=
  if s.rd (.sprayPaths g) ≤ p.toNat then 0 else p + 1

/-- RETX_TIMEOUT from now. -/
def State.retxDue (s : State) (g : Nat) : Nat := s.gateNow + 100 * s.rd (.retxTimeout g)

/-- The connection towards `peer`, opened with the next CONN_ID where this gate has sent nothing on it yet (R348). -/
def State.gateOpen (s : State) (g : Nat) (peer : BitVec 22) : Gate × GConn :=
  let x := s.gate g
  let c := (x.conn peer).getD ⟨peer, none, none, 0, s.gateNow, []⟩
  match c.mine with
  | some _ => (x, c)
  | none => ({ x with lastId := x.lastId + 1 }, { c with mine := some (x.lastId + 1) })

/-- A new packet leaves: it takes the next SEQ and is kept. -/
def State.sendFresh (s : State) (g : Nat) (q : GQueued) : State :=
  let x0 := s.gate g
  let s0 := s.setGate g { x0 with queue := x0.queue.erase q }
  if q.free then s0.emit (.frame g (s.stamped g 0 q.pkt).bytes)
  else
    let r := s0.gateOpen g q.pkt.dst
    let c := r.2
    let k := c.cls q.pkt.cls
    let p := s.stamped g c.path { q.pkt with seq := k.next, conn := c.mine.getD 0 }
    let k' := { k with next := k.next + 1, sent := k.sent ++ [⟨{ p with mirror := q.pkt.mirror }, 1, s.retxDue g, 0, false⟩] }
    let c' := { (c.setCls q.pkt.cls k') with used := s.gateNow, path := if p.spray then s.pathAfter g p.path else c.path }
    (s0.setGate g (r.1.setConn c')).emit (.frame g p.bytes)

/-- The body of an acknowledgement (R350). -/
def GClass.ackBody (k : GClass) : List Byte :=
  let got := fun (q : BitVec 32) => k.held.any (fun p => p.seq == q)
  let run := ((List.range 4096).takeWhile (fun i => got (k.want + BitVec.ofNat 32 i))).length
  let cum := k.want + BitVec.ofNat 32 run - 1
  let sack := ((List.range 64).filter (fun i => got (cum + 2 + BitVec.ofNat 32 i))).map (2 ^ ·)
  leBytes 4 cum.toNat ++ leBytes 8 sack.sum ++ [if k.echo then 1 else 0] ++ leBytes 3 0

/-- An acknowledgement leaves, under the peer's identifier, mirrored where a packet it answers was (R357, log 140). -/
def State.sendAck (s : State) (g c : Nat) (peer : BitVec 22) : State :=
  let x := s.gate g
  match x.conn peer with
  | none => s
  | some k =>
    let a := k.cls c
    let ack : FPkt :=
      { FPkt.zero with ty := 3, cls := c, dst := peer, src := s.gateName g, mirror := a.mirrored, conn := k.theirs.getD 0, body := a.ackBody }
    let p := s.stamped g 0 ack.labelled
    let k' := { (k.setCls c { a with fresh := 0, ackDue := none, ackNow := false, echo := false, mirrored := false }) with used := s.gateNow }
    (s.setGate g (x.setConn k')).emit (.frame g p.bytes)

/-- The class of a connection with an entry of its retransmit share changed. -/
def GConn.mapSent (x : GConn) (c : Nat) (f : GSent → GSent) : GConn :=
  let k := x.cls c
  x.setCls c { k with sent := k.sent.map f }

/-- A packet leaves again, read from the retransmit buffer; an uncorrectable word there loses it (R360, R485). -/
def State.sendAgain (s : State) (g n c : Nat) (peer : BitVec 22) (seq : BitVec 32) : State :=
  match (s.gate g).conn peer with
  | none => s
  | some k =>
    match (k.cls c).sent.find? (fun e => e.pkt.seq == seq) with
    | none => s
    | some e =>
      let bad := (s.storeDecode n 5 64 7 []).bad
      let s1 := s.storeRead n 5 64 7 []
      let a := k.cls c
      if bad then
        ((s1.setGate g ((s1.gate g).setConn (k.setCls c { a with sent := a.sent.filter (fun y => y != e) }))).bump (.gateCheck g) 1).storeRaise
          0x053 n 5 5 none (s.storeInjected n 5) |>.rowBad n 5 (.gateBuf g peer (BitVec.ofNat 2 c) seq false)
      else
        let p := s.stamped g k.path e.pkt
        let k' := k.mapSent c (fun y => if y = e then ⟨{ p with mirror := e.pkt.mirror }, e.times + 1, s.retxDue g, 0, false⟩ else y)
        ((s1.setGate g ((s1.gate g).setConn { k' with used := s.gateNow })).bump (.gateRetx g) 1).emit (.frame g p.bytes)

/-- The line of the gate can take a packet now. -/
def State.gateSends (s : State) (g n : Nat) : Bool := s.moves n && !s.safeStart && s.adapterLive n .b && s.rd (.gateLinkUp g) == 1 && s.rd (.gateEnable g) == 1

/-- GATE_EGRESS_SEND: the scheduler's next packet leaves whole. -/
def Gate.egressSend (g : Nat) (s : State) : State :=
  match s.cfg.unitAt 2 g with
  | none => s
  | some n =>
    if !s.gateSends g n then s
    else match s.gateClass g with
      | none => s
      | some (c, d) =>
        match s.gatePick g c with
        | none => s
        | some (pick, _) =>
          let x := s.gate g
          let chan := if c = 3 then (match pick with
            | .fresh _ => (s.collChoice g x).map (·.2)
            | _ => none) else none
          let x1 := if c = 0 then x else { x with turn := c, deficit := d }
          let x2 := match chan with
            | some (i, cd) => { x1 with chanTurn := i, chanDeficit := cd }
            | none => x1
          let s1 := s.setGate g x2
          (match pick with
            | .again peer seq => s1.sendAgain g n c peer seq
            | .ack peer => s1.sendAck g c peer
            | .fresh q => s1.sendFresh g q).touch n

/-! ## Delivery (R349, R354, R369) -/

/-- The strobes and data of a REQ. -/
def reqData (body : List Byte) (op : BitVec 4) (lenM1 : BitVec 5) : List (BitVec 1024) × List (BitVec 128) :=
  let k := writeBeats op lenM1
  let masked := leAt body 23 1 % 2 == 1
  let from_ := 24 + (if masked then 16 * k else 0)
  ((List.range k).map (fun i => BitVec.ofNat 1024 (leAt body (from_ + 128 * i) 128)),
   (List.range k).map (fun i => if masked then BitVec.ofNat 128 (leAt body (24 + 16 * i) 16) else BitVec.allOnes 128))

/-- A REQ is delivered: performed by the gate as initiator, in the header's ward and LEVEL. None while no tag is free. -/
def State.deliverReq (s : State) (g : Nat) (p : FPkt) : Option State :=
  let u := 0x80 + g
  if !(s.obj (Obj.gateWard p.ward.toNat)).getLsbD g || s.wardReclaiming p.ward then
    some (s.gateQueue g (s.rspFor g p Status.wardRefused []) false)
  else match (s.tinit u).freeTag 1024 with
    | none => none
    | some tag =>
      let q := { TPkt.blank with kind := .request }.withBits (leAt p.body 0 23)
      let d := reqData p.body q.op q.lenM1
      let x := s.gate g
      some ((s.setGate g { x with jobs := x.jobs ++ [⟨tag, p⟩] }).acceptTxn u ⟨q.op, q.addr, q.lenM1, p.level, p.ward, d.1, d.2⟩ tag
        (.onward q.src q.tag q.gen))

/-- An RSP is delivered: the slot that waits for it is answered. -/
def State.deliverRsp (s : State) (g : Nat) (p : FPkt) : State :=
  let q := { TPkt.blank with kind := .completion }.withBits (leAt p.body 0 10)
  s.answerArrives (0x180 + g) q q.status ((List.range ((p.body.length - 16) / 128)).map (fun i => BitVec.ofNat 1024 (leAt p.body (16 + 128 * i) 128)))

/-- The ward that owns collective channel `c` of gate `g`. -/
def State.collWard (s : State) (g c : Nat) : Option (BitVec 4) := chanWardOf (s.obj (Obj.collCfg (32 * g + c)))

/-- A packet of a collective joins those that wait for the engine, where its ward owns the channel (R369). -/
def State.takeChunk (s : State) (g : Nat) (p : FPkt) : State :=
  let x := s.gate g
  if s.collWard g p.chan = some p.ward ∧ p.chan < 32 then s.setGate g { x with chunks := x.chunks ++ [p] } else s.bump (.gateStale g) 1

/-- A packet in its turn goes where its TYPE says; none while it cannot be taken. -/
def State.deliverPkt (s : State) (g : Nat) (p : FPkt) : Option State :=
  if p.ty = 0 then s.deliverReq g p
  else if p.ty = 1 then some (s.deliverRsp g p)
  else if p.ty = 2 then
    let x := s.gate g
    some (s.setGate g { x with records := x.records ++ [p] })
  else some (s.takeChunk g p)

/-- The packets of a connection's class are delivered in SEQ order, as far as they have come. -/
def State.deliverClass (s : State) (g c : Nat) (peer : BitVec 22) : Nat → State
  | 0 => s
  | f + 1 =>
    match (s.gate g).conn peer with
    | none => s
    | some k =>
      let a := k.cls c
      match a.held.find? (fun p => p.seq == a.want) with
      | none => s
      | some p =>
        match (s.setGate g ((s.gate g).setConn (k.setCls c { a with want := a.want + 1, held := a.held.filter (fun q => q != p) }))).deliverPkt g p with
        | none => s
        | some s1 => s1.deliverClass g c peer f

/-- Everything that can be delivered at a gate is, while its region is ACTIVE and the die is not frozen. -/
def State.gateDeliver (s : State) (g : Nat) : State :=
  match s.cfg.unitAt 2 g with
  | none => s
  | some n =>
    if !s.moves n then s
    else (s.gate g).conns.foldl (fun (a : State) k =>
      (List.range 4).foldl (fun (b : State) c => b.deliverClass g c k.peer ((k.cls c).held.length + 1)) a) s

/-! ## The receiver (R342, R348 to R350) -/

/-- A packet takes its place in the reorder share, or is discarded; a duplicate is covered by the next acknowledgement. -/
def State.reorder (s : State) (g : Nat) (k : GConn) (p : FPkt) : State :=
  let a := k.cls p.cls
  let x := s.gate g
  let ahead := (p.seq - a.want).toNat
  let due := match a.ackDue with
    | some t => some t
    | none => some (s.gateNow + 100 * s.rd (.ackDelay g))
  if 2 ^ 31 ≤ ahead ∨ a.held.any (fun q => q.seq == p.seq) then
    s.setGate g (x.setConn { (k.setCls p.cls { a with ackDue := due }) with used := s.gateNow })
  else if 4096 ≤ ahead ∨ classShare p.cls < x.heldBytes p.cls + p.size then s.bump (.gateOverflow g) 1
  else
    let a' := { a with held := a.held ++ [p], fresh := a.fresh + 1, ackDue := due, ackNow := a.ackNow || decide (8 ≤ a.fresh + 1)
                       echo := a.echo || p.mark, mirrored := a.mirrored || p.mirror }
    s.setGate g (x.setConn { (k.setCls p.cls a') with used := s.gateNow })

/-- A class with its receiving side as of a new connection. -/
def GClass.reopened (k : GClass) : GClass :=
  { k with want := 0, held := [], fresh := 0, ackDue := none, ackNow := false, echo := false, mirrored := false }

/-- The connection as the peer opens it: the old reorder state goes. -/
def GConn.reopened (k : GConn) (conn : BitVec 16) : GConn :=
  (List.range 4).foldl (fun (x : GConn) c => x.setCls c (x.cls c).reopened) { k with theirs := some conn }

/-- `c` is newer than `p` (R348). -/
def newerConn (c p : BitVec 16) : Bool := decide (1 ≤ (c - p).toNat) && decide ((c - p).toNat ≤ 32767)

/-- A connection opened, or opened afresh, by its first packet: the old reorder state is gone before the packet is placed. -/
def State.openedBy (s : State) (g : Nat) (k : GConn) (p : FPkt) : State := (s.setGate g ((s.gate g).setConn k)).reorder g k p

/-- A packet of a connection: matched by CONN_ID, which an unfamiliar one may open, or discarded as STALE (R348). -/
def State.takeSeq (s : State) (g : Nat) (p : FPkt) : State :=
  let x := s.gate g
  match x.conn p.src with
  | none =>
    if p.seq ≠ 0 then s.bump (.gateStale g) 1
    else if 4096 ≤ x.conns.length then s.bump (.gateOverflow g) 1
    else s.openedBy g ⟨p.src, none, some p.conn, 0, s.gateNow, []⟩ p
  | some k =>
    match k.theirs with
    | some t =>
      if t = p.conn then s.reorder g k p
      else if newerConn p.conn t ∧ p.seq = 0 then s.openedBy g (k.reopened p.conn) p
      else s.bump (.gateStale g) 1
    | none => if p.seq = 0 then s.openedBy g (k.reopened p.conn) p else s.bump (.gateStale g) 1

/-! ## Acknowledgements (R350 to R352) -/

/-- An acknowledgement covers a SEQ. -/
def ackCovers (cum : BitVec 32) (sack : BitVec 64) (seq : BitVec 32) : Bool :=
  decide ((cum - seq).toNat < 2 ^ 31) ||
    (decide ((seq - (cum + 2)).toNat < 64) && sack.getLsbD (seq - (cum + 2)).toNat)

/-- The window grown by one for each full window of packets acknowledged. -/
def growWindow : Nat → Nat → Nat → Nat × Nat
  | 0, w, a => (w, a)
  | f + 1, w, a => if a < w then (w, a) else growWindow f (min 512 (w + 1)) (a - w)

/-- A class after an acknowledgement: what it covers is freed; packets it shows missing before one marked received count it, and
at the second in succession wait to be sent again (R351, R352). -/
def GClass.acked (k : GClass) (cum : BitVec 32) (sack : BitVec 64) (echo : Bool) (limit : Nat) : GClass :=
  let left := k.sent.filter (fun e => !ackCovers cum sack e.pkt.seq)
  let later := fun (e : GSent) => (List.range 64).any (fun i => sack.getLsbD i && decide (1 ≤ (cum + 2 + BitVec.ofNat 32 i - e.pkt.seq).toNat) &&
    decide ((cum + 2 + BitVec.ofNat 32 i - e.pkt.seq).toNat < 2 ^ 31))
  let w := growWindow 32 k.window (k.grown + (k.sent.length - left.length))
  let may := match k.halved with
    | some m => decide ((cum + 1 - m).toNat < 2 ^ 31)
    | none => true
  { k with
    sent := left.map (fun e =>
      if later e then
        let m := e.missed + 1
        if 2 ≤ m ∧ e.times ≤ limit then { e with missed := 0, again := true } else { e with missed := m }
      else { e with missed := 0 })
    window := if echo && may then max 4 (w.1 / 2) else w.1
    grown := w.2
    halved := if echo && may then some k.next else k.halved }

/-- A packet that two successive acknowledgements show missing has been sent as often as it may be. -/
def GClass.spent (k : GClass) (limit : Nat) : Bool := k.sent.any (fun e => decide (2 ≤ e.missed) && decide (limit < e.times))

/-- The peer is unreachable: the connection goes, with every packet of it in both buffers (R351). -/
def State.peerLost (s : State) (g : Nat) (peer : BitVec 22) : State :=
  let n := (s.cfg.unitAt 2 g).getD 0
  ((s.setGate g ((s.gate g).dropConn peer)).bump (.gateUnreachable g) 1).raise
    (Cause.atUnit (0x090 + g) none n 5 0x3F (peer.toNat / 1024))

/-- An ACK: the flag says that the peer proves unreachable. -/
def State.takeAck (s : State) (g : Nat) (p : FPkt) : State × Bool :=
  let x := s.gate g
  match x.conn p.src with
  | none => (s.bump (.gateStale g) 1, false)
  | some k =>
    if k.mine ≠ some p.conn then (s.bump (.gateStale g) 1, false)
    else
      let limit := s.rd (.retxLimit g)
      let a := (k.cls p.cls).acked (BitVec.ofNat 32 (leAt p.body 0 4)) (BitVec.ofNat 64 (leAt p.body 4 8)) ((p.body.getD 12 0).getLsbD 0) limit
      if a.spent limit then (s.peerLost g p.src, true)
      else (s.setGate g (x.setConn { (k.setCls p.cls a) with used := s.gateNow }), false)

/-! ## Arrival on the line -/

/-- A record of a switch: a capacity applies to every channel; what belongs to a channel must be of its ward (R369, R395). -/
def State.takeSwitch (s : State) (g : Nat) (p : FPkt) : State :=
  let x := s.gate g
  if p.ty = 5 ∧ p.body.headD 0 = 1 then s.setGate g { x with chunks := x.chunks ++ [p] } else s.takeChunk g p

/-- A packet on the switch path that has reached a gate: CHUNK of CKIND SW_CONTRIB or SW_RELEASE (R391). -/
def FPkt.switched (p : FPkt) : Bool := p.ty == 4 && decide (5 ≤ leAt p.body 4 1)

/-- A packet that passed the checks of R342. The flag says that its sender proved unreachable. -/
def State.takePacket (s : State) (g : Nat) (p : FPkt) : State × Bool :=
  if p.ty = 3 then s.takeAck g p
  else if p.ty = 5 ∨ p.ty = 6 ∨ p.switched then (s.takeSwitch g p, false)
  else (s.takeSeq g p, false)

/-- A packet has arrived: checked, taken, and delivered in order. The second result names the sender, where it has proved
unreachable. -/
def Gate.packetReceive (g : Nat) (bs : List Byte) (s : State) : State × Option (BitVec 22) :=
  match s.cfg.unitAt 2 g with
  | none => (s, none)
  | some n =>
    if !s.running ∨ s.junctionLost n ∨ s.rd (.gateLinkUp g) = 0 ∨ s.rd (.gateEnable g) = 0 then (s, none)
    else if s.adapterHeld n .b then (s.bump (.bDiscards n) 1, none)
    else
      let inj := s.injectedAt 0x0A n 5 0x3F
      let s0 := if inj then s.injectFired else s
      let s1 := if s0.regionStateOf (s0.regionOf n) = 4 then s0.wakeAt n else s0
      let p := FPkt.ofBytes bs
      if inj || !fabricCodes bs || !fabricForm bs then (s1.bump (.gateCheck g) 1, none)
      else if p.dst ≠ s.gateName g then
        ((s1.bump (.gateCheck g) 1).raise (Cause.atUnit (0x080 + g) none n 5 0x3F 0xFFFF), none)
      else
        let r := s1.takePacket g p
        ((r.1.gateDeliver g).touch n, if r.2 then some p.src else none)

/-! ## Timers and the line (R348, R350, R351, R360) -/

/-- Time passes until the gate's own timers have counted to `t`; none while they stand still. -/
def State.gateDue (s : State) (t : Nat) : Option State :=
  if s.gateNow < t ∧ s.frozen then none else some (s.advance (t - s.gateNow))

/-- ACK_DELAY_EXPIRE: an acknowledgement is due. -/
def Gate.ackDelay (g : Nat) (peer : BitVec 22) (c : Nat) (s : State) : State :=
  match (s.gate g).conn peer with
  | none => s
  | some k =>
    match (k.cls c).ackDue with
    | none => s
    | some t => match s.gateDue t with
      | none => s
      | some s1 => s1.setGate g ((s1.gate g).setConn (k.setCls c { k.cls c with ackDue := none, ackNow := true }))

def execAckDelayExpire (g : Nat) (peer : BitVec 22) (cls : BitVec 2) (s : State) : Host.Outcome State Fault Refusal :=
  .next (Gate.ackDelay g peer cls.toNat s)

/-- RETX_TIMEOUT passes for a packet: it waits to be sent again, or its peer is unreachable, which the second result says. While
the line is down packets wait for it. -/
def Gate.retxTimeout (g : Nat) (peer : BitVec 22) (c : Nat) (seq : BitVec 32) (s : State) : State × Bool :=
  match (s.gate g).conn peer with
  | none => (s, false)
  | some k =>
    match (k.cls c).sent.find? (fun e => e.pkt.seq == seq) with
    | none => (s, false)
    | some e =>
      if s.rd (.gateLinkUp g) = 0 ∨ e.again then (s, false)
      else match s.gateDue e.due with
        | none => (s, false)
        | some s1 =>
          if s.rd (.retxLimit g) < e.times then (s1.peerLost g peer, true)
          else
            let k' := k.mapSent c (fun y => if y = e then { e with again := true } else y)
            (s1.setGate g ((s1.gate g).setConn (k'.setCls c { k'.cls c with window := 4 })), false)

/-- CONNECTION_IDLE_EXPIRE: 1 ms with nothing sent or received and nothing unacknowledged frees the connection. -/
def Gate.idleExpire (g : Nat) (peer : BitVec 22) (s : State) : State :=
  match (s.gate g).conn peer with
  | none => s
  | some k =>
    if (List.range 4).any (fun c => !(k.cls c).sent.isEmpty || (k.cls c).ackDue.isSome || (k.cls c).ackNow) then s
    else match s.gateDue (k.used + 1000000) with
      | none => s
      | some s1 => s1.setGate g ((s1.gate g).dropConn peer)

def execConnectionIdleExpire (g : Nat) (peer : BitVec 22) (s : State) : Host.Outcome State Fault Refusal :=
  .next (Gate.idleExpire g peer s)

/-- GATE_LINE_DOWN. -/
def Gate.lineDown (g : Nat) (s : State) : State :=
  if (s.cfg.unitAt 2 g).isNone ∨ !s.running then s else s.wr (.gateLinkUp g) 0

def execGateLineDown (g : Nat) (s : State) : Host.Outcome State Fault Refusal := .next (Gate.lineDown g s)

/-- GATE_LINE_UP: what waits unacknowledged is sent again, as often as R351 lets it. -/
def Gate.lineUp (g : Nat) (s : State) : State :=
  if (s.cfg.unitAt 2 g).isNone ∨ !s.running ∨ s.rd (.gateLinkUp g) = 1 then s
  else
    let x := s.gate g
    let again := fun (e : GSent) => if e.times ≤ s.rd (.retxLimit g) then { e with again := true } else { e with due := s.retxDue g }
    (s.setGate g { x with conns := x.conns.map (fun k => (List.range 4).foldl (fun (a : GConn) c => a.mapSent c again) k) }).wr (.gateLinkUp g) 1

def execGateLineUp (g : Nat) (s : State) : Host.Outcome State Fault Refusal := .next (Gate.lineUp g s)

/-- GATE_CFG: HOP_LIMIT is at least 1; ENABLE 0 drops every connection (R360, R362). -/
def Gate.writeCfg (g : Nat) (v : Val) : Effect := fun s =>
  if fget v 16 8 = 0 then .error .outOfRange
  else
    let s1 := s.setObj (Obj.gateCfg g) v
    .ok (if fget v 31 1 = 0 then s1.setGate g { s1.gate g with conns := [] } else s1)

end Sys2Proof.Machine
end

