-- ==== Sys2Proof/Machine/Collective.lean ====
section
/-! DEFINITION. The engine of a gate's collective channels: records, tallies, chunks, the store, output and aborts
(R370 to R399). Channel c of gate g has the number 32g + c. -/

namespace Sys2Proof.Machine

/-! ## Channels -/

def State.coll (s : State) (k : Nat) : CollChan := Tbl.get CollChan.zero s.col.chans k

def State.setColl (s : State) (k : Nat) (x : CollChan) : State :=
  { s with col := { s.col with chans := Tbl.set CollChan.zero s.col.chans k x } }

/-- The operation of a channel takes the place of the one it runs. -/
def State.setOp (s : State) (k : Nat) (o : CollOp) : State := s.setColl k { s.coll k with op := some o }

def State.collStore (s : State) (g : Nat) : CollStore := Tbl.get CollStore.zero s.col.stores g

def State.setCollStore (s : State) (g : Nat) (x : CollStore) : State :=
  { s with col := { s.col with stores := Tbl.set CollStore.zero s.col.stores g x } }

def Fld.coOwned (k : Nat) : Fld := ⟨Obj.collCfg k, 27, 1⟩
def Fld.coWard (k : Nat) : Fld := ⟨Obj.collCfg k, 28, 4⟩
def Fld.coShare (k : Nat) : Fld := ⟨Obj.collCfg k, 16, 8⟩
def Fld.coState (k : Nat) : Fld := ⟨Obj.collStatus k, 29, 3⟩
def Fld.coPending (k : Nat) : Fld := ⟨Obj.collStatus k, 28, 1⟩
def Fld.coPhase (k : Nat) : Fld := ⟨Obj.collStatus k, 25, 3⟩
def Fld.coSlot (k : Nat) : Fld := ⟨Obj.collStatus k, 0, 16⟩
def Fld.coOps (k : Nat) : Fld := ⟨Obj.collStat k, 32, 32⟩
def Fld.coFallbacks (k : Nat) : Fld := ⟨Obj.collStat k, 16, 16⟩
def Fld.coRefusals (k : Nat) : Fld := ⟨Obj.collStat k, 8, 8⟩
def Fld.coAborts (k : Nat) : Fld := ⟨Obj.collStat k, 0, 8⟩
def Fld.opHead (k : Nat) : Fld := ⟨Obj.opRingHead k, 0, 16⟩
def Fld.reserved (g : Nat) : Fld := ⟨Obj.storeCfg g, 0, 11⟩

/-- The ward of a channel. -/
def State.collOwner (s : State) (k : Nat) : BitVec 4 := BitVec.ofNat 4 (s.rd (.coWard k))

/-- The junction of a gate, and whether the gate can act now. -/
def State.gateAt (s : State) (g : Nat) : Nat := (s.cfg.unitAt 2 g).getD 0

def State.gateMoves (s : State) (g : Nat) : Bool :=
  match s.cfg.unitAt 2 g with
  | some n => s.moves n
  | none => false

/-! ## Records (R372, R373) -/

def recTag (b : List Byte) : BitVec 32 := BitVec.ofNat 32 (leAt b 0 4)
def recOpcode (b : List Byte) : Nat := leAt b 4 1
def recRedOp (b : List Byte) : Nat := leAt b 5 1
def recGroup (b : List Byte) : Nat := leAt b 6 1
def recSrcMem (b : List Byte) : Bool := leAt b 7 1 % 2 == 1
def recDstMem (b : List Byte) : Bool := leAt b 7 1 / 2 % 2 == 1
def recNotify (b : List Byte) : Bool := leAt b 7 1 / 4 % 2 == 1
def recSwOk (b : List Byte) : Bool := leAt b 7 1 / 8 % 2 == 1
def recTrace (b : List Byte) : Bool := leAt b 7 1 / 16 % 2 == 1
def recIn (b : List Byte) : Nat := leAt b 8 1
def recOut (b : List Byte) : Nat := leAt b 9 1
def recCtr (b : List Byte) : Nat := leAt b 10 1 % 32
def recTries (b : List Byte) : Nat := leAt b 11 1 % 16
def recThresh (b : List Byte) : Nat := leAt b 12 4
def recCount (b : List Byte) : Nat := leAt b 16 4
def recCap (b : List Byte) : Nat := leAt b 20 4
def recInFlow (b : List Byte) : Nat := leAt b 24 2 % 4096
def recOutFlow (b : List Byte) : Nat := leAt b 26 2 % 4096
def recOutFlits (b : List Byte) : Nat := leAt b 28 4
def recSrc (b : List Byte) : Nat := leAt b 32 8
def recTally (b : List Byte) : Nat := leAt b 40 8
def recDst (b : List Byte) : Nat := leAt b 48 8
def recRoot (b : List Byte) : Nat := leAt b 68 2
def recOwn (b : List Byte) : Bool := leAt b 127 1 / 128 == 1

/-- Elements that the member keeps of its contribution (R380). -/
def recKept (b : List Byte) : Nat := min (recCount b) (recCap b)

/-- The operation is an ADD, whose tally has entries. -/
def recIsAdd (b : List Byte) : Bool := recOpcode b == 1 && recRedOp b == 0

/-- Elements of the contribution in a flit of its flow. -/
def recPer (b : List Byte) : Nat := 4096 / Fmt.bits (recIn b)

/-- The combination of OPCODE, RED_OP, formats and source is in the table of R373. -/
def recCombo (b : List Byte) : Bool :=
  let i := recIn b
  let o := recOut b
  match recOpcode b with
  | 1 =>
    if recRedOp b = 0 then (i == Fmt.grid64 || (Fmt.isFloat i && recSrcMem b)) && Fmt.isFloat o
    else (recRedOp b == 1 || recRedOp b == 2) && Fmt.isFloat i && o == i
  | 2 => recRedOp b == 0 && Fmt.isFloat i && o == i
  | 3 => recRedOp b == 0 && i == 0 && o == 0 && !recSrcMem b
  | _ => false

/-- A reserved value or a nonzero reserved field stands in the record. -/
def recReserved (b : List Byte) : Bool :=
  decide (64 ≤ recGroup b) || decide (32 ≤ leAt b 7 1) || decide (32 ≤ leAt b 10 1) || decide (16 ≤ leAt b 11 1) ||
    decide (4096 ≤ leAt b 24 2) || decide (4096 ≤ leAt b 26 2) || decide (32 ≤ leAt b 58 1) || decide (1 < leAt b 59 1) ||
    (recOpcode b != 2 && recRoot b != 0) || (recOpcode b != 3 && recCap b == 0) || leAt b 70 10 != 0 ||
    leAt b 82 2 != 0 || leAt b 120 7 != 0 || leAt b 127 1 % 128 != 0

/-- The group of a record. -/
def State.collGroup (s : State) (k : Nat) (b : List Byte) : Val := s.obj (Obj.group (k / 32) (recGroup b))

/-- The members of the record's group, by rank. -/
def State.collMembers (s : State) (k : Nat) (b : List Byte) : List (BitVec 22) :=
  grpMembers (hallExtents (s.obj Obj.hallTopo)) (s.collGroup k b) (s.obj Obj.pkgNumber).toNat

/-- A hall address of this die. -/
def State.onDie (s : State) (a : Nat) : Bool := a / 2 ^ 41 == (s.obj Obj.pkgNumber).toNat * 64 + s.dieBits

/-- The record breaks a rule of R373. -/
def State.recBad (s : State) (k : Nat) (b : List Byte) : Bool :=
  let v := s.collGroup k b
  let ctr := s.obj (Obj.collTripWard (k / 32) (recCtr b))
  let ms := s.collMembers k b
  !recCombo b || recReserved b || !grpValid v || grpWard v != s.rd (.coWard k) || (!grpAxis v && decide (k % 32 < 28)) ||
    !inHall (hallExtents (s.obj Obj.hallTopo)) (s.obj Obj.pkgNumber).toNat || !ms.contains (s.gateName (k / 32)) ||
    (recOpcode b != 3 && !recDstMem b && decide (recOutFlits b * 4096 < recCap b * Fmt.bits (recOut b))) ||
    fget ctr 7 1 == 0 || fget ctr 0 4 != s.rd (.coWard k) ||
    (recSrcMem b && !s.onDie (recSrc b)) || (recSrcMem b && recIn b == Fmt.grid64 && !s.onDie (recTally b)) ||
    (recDstMem b && !s.onDie (recDst b)) || decide (ms.length ≤ recRoot b)

/-! ## Requests of a channel -/

/-- Tries after the first of a request (R374, R398). -/
def collRetry : Nat := 3

def collFetchAsk : Nat := 0
def collReadAsk : Nat := 1
def collWriteAsk : Nat := 2
def collBackAsk : Nat := 3
def collOwnAsk : Nat := 4

/-- Bytes of a request from byte `off` of its first beat, as beats and strobes. -/
def ioBeats (off : Nat) (bs : List Byte) : List (BitVec 1024) × List (BitVec 128) :=
  let k := (off + bs.length + 127) / 128
  let v := ofLe bs * 2 ^ (8 * off)
  let m := (2 ^ bs.length - 1) * 2 ^ off
  ((List.range k).map (fun i => BitVec.ofNat 1024 (v / 2 ^ (1024 * i))), (List.range k).map (fun i => BitVec.ofNat 128 (m / 2 ^ (128 * i))))

/-- The bytes of a read's beats from byte `off`. -/
def ioBytes (off len : Nat) (bs : List (BitVec 1024)) : List Byte :=
  ((bs.flatMap (fun b => leBytes 128 b.toNat)).drop off).take len

/-- A read of `len` bytes, or a write of bytes. -/
def CollIo.read (a len : Nat) : CollIo := ⟨a % 2 ^ 64, len, [], [], 0, none⟩
def CollIo.write (a : Nat) (bs : List Byte) : CollIo := ⟨a % 2 ^ 64, bs.length, bs, [], 0, none⟩

/-- Bytes of the next request: up to the next 4 KiB boundary (R244). -/
def CollIo.piece (i : CollIo) : Nat := min i.len (4096 - i.addr % 4096)

/-- The request of a channel leaves, where a tag is free. -/
def State.collAsk (s : State) (k what : Nat) (i : CollIo) : State × CollIo :=
  let u := 0x80 + k / 32
  match i.serial, (s.tinit u).freeTag 1024 with
  | none, some tag =>
    let x := s.coll k
    let w := s.collOwner k
    let off := i.addr % 128
    let d := ioBeats off (i.data.take i.piece)
    let beats := (off + i.piece + 127) / 128
    (((s.setColl k { x with serial := x.serial + 1 }).acceptTxn u ⟨if i.data.isEmpty then 0 else 1, BitVec.ofNat 64 (i.addr - off),
      BitVec.ofNat 5 (beats - 1), s.levelOf w 0, w, d.1, d.2⟩ tag (.engine k what x.serial)), { i with serial := some x.serial })
  | _, _ => (s, i)

/-- What an answer makes of a request: it goes on, it is tried again, or it has failed. -/
def CollIo.answered (i : CollIo) (d : TDone) : Option CollIo :=
  if d.status = 0 then
    some ⟨(i.addr + i.piece) % 2 ^ 64, i.len - i.piece, i.data.drop i.piece, i.got ++ ioBytes (i.addr % 128) i.piece d.data, i.tries, none⟩
  else if retryable d.status ∧ i.tries < collRetry then some { i with tries := i.tries + 1, serial := none }
  else none

/-- Everything of the request has been answered. -/
def CollIo.whole (i : CollIo) : Bool := i.len == 0

/-! ## What a member sends (R376, R378, R388) -/

/-- A packet of the channel to a member. -/
def State.collPacket (s : State) (k : Nat) (swTag : Nat) (peer : BitVec 22) (spray : Bool) (body : List Byte) : FPkt :=
  { FPkt.zero with ty := 4, cls := 3, spray := spray, chan := k % 32, ward := s.collOwner k, label := BitVec.ofNat 20 (swTag + k % 32 * 4096)
                   dst := peer, src := s.gateName (k / 32), body := body }

/-- A fragment leaves for a member, or on the switch path. -/
def State.collSend (s : State) (k : Nat) (peer : BitVec 22) (f : Frag) : State :=
  let sw := decide (5 ≤ f.ckind)
  s.gateQueue (k / 32) (s.collPacket k f.swTag peer (!sw) f.bytes) sw

/-- Control records of the gate join the CTL queue while it has room (R338). -/
def State.outboxGo (s : State) (g : Nat) : Nat → State
  | 0 => s
  | j + 1 =>
    match Tbl.get [] s.col.outbox g with
    | [] => s
    | p :: t => if 64 ≤ (s.gate g).ctlWaiting then s
      else (({ s with col := { s.col with outbox := Tbl.set [] s.col.outbox g t } } : State).gateQueue g p false).outboxGo g j

def arriveType : Nat := 1
def readyType : Nat := 2
def abortType : Nat := 3

/-- The words of a control record. -/
def recordWords (rtype c rank : Nat) (tree : Bool) (tag : BitVec 32) (arg : Nat) : List (BitVec 32) :=
  [BitVec.ofNat 32 (rtype * 2 ^ 28 + c * 2 ^ 23 + (if tree then 2 ^ 22 else 0) + rank), tag, BitVec.ofNat 32 arg, 0]

/-- A control record leaves for a member. -/
def State.collTell (s : State) (k : Nat) (peer : BitVec 22) (words : List (BitVec 32)) : State :=
  let g := k / 32
  let w := s.collOwner k
  let m : CtlMsg := ⟨false, w, 3, 0, 0, 0, 0, s.ep (0x80 + g), BitVec.ofNat 16 (peer.toNat / 16 % 64 * 1024 + 0x80 + peer.toNat % 16), 0, words⟩
  let p := s.ctlPacket g peer w m.sealed.flits
  ({ s with col := { s.col with outbox := Tbl.upd [] s.col.outbox g (· ++ [p]) } } : State).outboxGo g 64

/-- Size, rank and root of tree A of an operation. -/
def CollOp.size (o : CollOp) : Nat := o.members.length
def CollOp.peer (o : CollOp) (r : Nat) : BitVec 22 := o.members.getD r 0
def CollOp.rootA (o : CollOp) : Nat := treeRoot false o.size
def CollOp.children (o : CollOp) (tree : Bool) : List Nat := treeChildren tree o.size o.rank
def CollOp.parent (o : CollOp) (tree : Bool) : Option Nat := treeParent tree o.size o.rank
def CollOp.isRoot (o : CollOp) (tree : Bool) : Bool := (o.parent tree).isNone

/-- Neighbours in both trees and the root of tree A, which are told of an abort (R398). -/
def CollOp.correspondents (o : CollOp) : List Nat :=
  (([false, true].flatMap (fun t => (o.parent t).toList ++ o.children t)) ++ [o.rootA]).eraseDups.filter (fun r => r != o.rank)

/-- The ranks whose loss ends the operation: those, and in a BROADCAST the source at the root of either tree, and both roots at the
source (R376, R398). -/
def CollOp.depends (o : CollOp) (b : List Byte) : List Nat :=
  let roots := [treeRoot false o.size, treeRoot true o.size]
  let cast := if recOpcode b != 2 then [] else if o.rank == recRoot b then roots else if roots.contains o.rank then [recRoot b] else []
  o.correspondents ++ cast.filter (fun r => r != o.rank)

/-- A record of the operation goes to a rank. -/
def State.collRecord (s : State) (k rtype : Nat) (o : CollOp) (tree : Bool) (arg r : Nat) : State :=
  s.collTell k (o.peer r) (recordWords rtype (k % 32) o.rank tree (recTag (s.coll k).record) arg)

def State.collReady (s : State) (k : Nat) (o : CollOp) (tree : Bool) (arg : Nat) : State :=
  (o.children tree).foldl (fun (a : State) r => a.collRecord k readyType o tree arg r) s

/-- SW_TAG of the operation's group. -/
def State.collSwTag (s : State) (k : Nat) : Nat := grpSwTag (s.collGroup k (s.coll k).record)

/-- A fragment of the operation. -/
def State.collFrag (s : State) (k : Nat) (o : CollOp) (ckind : Nat) (tree : Bool) (attempt fmt block chunk count : Nat) (data : List Byte) : Frag :=
  ⟨recTag (s.coll k).record, ckind, tree, attempt, fmt, block, chunk, o.rank, o.size, s.collSwTag k, count, data⟩

/-- A tally leaves for a rank: its head, and its entries in fragments of 512. -/
def State.sendTally (s : State) (k : Nat) (o : CollOp) (ckind r : Nat) (t : HTally) : State :=
  let s1 := s.collSend k (o.peer r) (s.collFrag k o ckind false 0 0 noIndex noIndex 0 t.head.bytes)
  (List.range ((t.entries.length + 511) / 512)).foldl (fun (a : State) i =>
    let es := (t.entries.drop (512 * i)).take 512
    a.collSend k (o.peer r) (a.collFrag k o ckind false 0 0 (512 * i) noIndex es.length (es.flatMap (fun e => leBytes 8 e.word)))) s1

/-- The blocks of a chunk leave for a rank, in block order. -/
def State.sendBlocks (s : State) (k : Nat) (o : CollOp) (ckind : Nat) (c : CollChunk) (first r : Nat) (bs : List CBlock) : State :=
  bs.zipIdx.foldl (fun (a : State) p =>
    a.collSend k (o.peer r) (a.collFrag k o ckind (decide (ckind < 5) && c.index % 2 == 1) (if ckind = 5 then c.attempt else 0) p.1.fmt
      (first + p.2) c.index p.1.codes.length p.1.bytes)) s

/-! ## The store (R385, R386) -/

/-- Cells of a channel's tally. -/
def tallyCells (b : List Byte) : Nat := if recIsAdd b then (8 * blocksOf (recCap b) + 4095) / 4096 else 0

def State.shareCells (s : State) (k : Nat) : Nat := s.rd (.coShare k) * 16

/-- The capacity advertised to the group of a record, in cells, where the switch path may be used; none without one (R385). -/
def State.advertised (s : State) (k : Nat) (b : List Byte) : Option Nat :=
  let cap := (s.obj (Obj.swCap (k / 32) (recGroup b))).toNat
  if recIsAdd b && recSwOk b && grpSwEn (s.collGroup k b) && decide (4096 ≤ cap) then some (cap / 4096) else none

/-- What the member contributes as CHUNK_LIMIT. -/
def State.chunkLimit (s : State) (k : Nat) (b : List Byte) : Nat :=
  let l := s.shareCells k - tallyCells b
  let l := if 28 ≤ k % 32 then min l (s.rd (.reserved (k / 32))) else l
  match s.advertised k b with
  | some c => min l c
  | none => l

/-- The agreed chunk size, and C, of an operation whose final tally has come. -/
def CollOp.chunkBlocks (o : CollOp) : Nat := match o.final with
  | some t => max 1 t.head.chunkBlocks
  | none => 1

def CollOp.capacity (o : CollOp) : Nat := match o.final with
  | some t => t.head.capacity
  | none => 0

/-- The final tally is there whole. -/
def CollOp.agreed (o : CollOp) : Bool := match o.final with
  | some t => decide (t.head.entries ≤ t.entries.length)
  | none => false

/-- Chunks of the operation; a BARRIER has none. -/
def CollOp.chunkCount (o : CollOp) : Nat := match o.final with
  | some t => if t.head.opcode = 3 then 0 else (blocksOf o.capacity + o.chunkBlocks - 1) / o.chunkBlocks
  | none => 0

/-- Blocks of chunk `i`, and elements of block `b`. -/
def CollOp.blocks (o : CollOp) (i : Nat) : Nat := min o.chunkBlocks (blocksOf o.capacity - i * o.chunkBlocks)
def CollOp.blockLen (o : CollOp) (b : Nat) : Nat := min 1024 (o.capacity - 1024 * b)

/-- The final entry of a block. -/
def CollOp.entry (o : CollOp) (b : Nat) : HEntry := match o.final with
  | some t => t.entries.getD b HEntry.zero
  | none => HEntry.zero

def CollOp.fmtOf (o : CollOp) (b : Nat) : Nat := match o.final with
  | some t => blockFmt t.head o.size (o.entry b)
  | none => 0

/-- Cells of the pool that a channel holds: its tally, and its chunks but the one in the reserved slot. -/
def State.cellsHeld (s : State) (k : Nat) : Nat :=
  match (s.coll k).op with
  | some o => (if o.tallied then tallyCells (s.coll k).record else 0) + o.chunkBlocks * (o.chunks.filter (fun c => !c.reserved)).length
  | none => 0

def State.poolUsed (s : State) (g : Nat) : Nat := ((List.range 32).map (fun c => s.cellsHeld (32 * g + c))).sum

/-- Cells of the pool (R386). -/
def State.poolCells (s : State) (g : Nat) : Nat := 8192 - 4 * s.rd (.reserved g)

/-- The operation can start its next chunk now, but for the store. -/
def State.wantsChunk (s : State) (k : Nat) (o : CollOp) : Bool :=
  o.agreed && decide (o.next < o.chunkCount) && decide (o.chunks.length < max 1 (s.shareCells k / o.chunkBlocks))

/-- A chunk fits the channel's reserved slot. -/
def State.slotFits (s : State) (k : Nat) (o : CollOp) : Bool :=
  decide (28 ≤ k % 32) && !o.chunks.any (·.reserved) && decide (o.chunkBlocks ≤ s.rd (.reserved (k / 32)))

/-- The share has room for a chunk; a channel that holds none may always hold one. -/
def State.shareFits (s : State) (k : Nat) (o : CollOp) : Bool :=
  o.chunks.isEmpty || decide (s.cellsHeld k + o.chunkBlocks ≤ s.shareCells k)

/-- The next chunk takes a buffer: on the switch path where the final tally shows SWITCH and every block is GRID32. -/
def State.startChunk (s : State) (k : Nat) (o : CollOp) (reserved : Bool) : State :=
  let sw := match o.final with
    | some t => t.head.flag
    | none => false
  let grid := (List.range (o.blocks o.next)).all (fun i => o.fmtOf (o.next * o.chunkBlocks + i) == Fmt.grid32)
  s.setOp k { o with chunks := o.chunks ++ [CollChunk.fresh o.next reserved (!(sw && grid))], next := o.next + 1 }

/-- The highest channel of a list. -/
def topChannel (l : List Nat) : Option Nat := l.foldl (fun b c => match b with
  | none => some c
  | some x => some (max x c)) none

/-- The channel waits for cells of the pool now: for its tally first, then for its next chunk, which its share has room for. -/
def State.wantsCells (s : State) (k : Nat) (o : CollOp) : Bool := !o.tallied || (s.wantsChunk k o && s.shareFits k o)

/-- The cells it waits for. -/
def State.cellsWanted (s : State) (k : Nat) (o : CollOp) : Nat := if o.tallied then o.chunkBlocks else tallyCells (s.coll k).record

/-- A channel's request for cells: a chunk into its reserved slot at once, or a request latched for the arbiter. -/
def State.storeAsk (s : State) (k : Nat) : State :=
  let g := k / 32
  let c := k % 32
  let st := s.collStore g
  match (s.coll k).op with
  | some o =>
    if o.tallied && s.wantsChunk k o && s.slotFits k o then s.startChunk k o true
    else if !s.wantsCells k o || st.latched.contains c || Tbl.get 0 st.retryAt c != 0 then s
    else s.setCollStore g { st with latched := st.latched ++ [c] }
  | none => s

/-- With no choice pending, the highest channel of those latched together is the choice (R255, R399). -/
def State.storeChoose (s : State) (g : Nat) : State :=
  let st := s.collStore g
  if st.choice.isSome || st.latched.isEmpty then s else s.setCollStore g { st with choice := topChannel st.latched }

/-- A channel whose operation has ended leaves the arbiter. -/
def State.storeLeave (s : State) (k : Nat) : State :=
  let g := k / 32
  let c := k % 32
  let st := s.collStore g
  let l := st.latched.filter (fun x => x != c)
  s.setCollStore g { st with latched := l, choice := if st.choice = some c then topChannel l else st.choice, retryAt := Tbl.set 0 st.retryAt c 0 }

/-- A channel that lost a decision backs off (R255). -/
def State.storeBackOff (s : State) (g c : Nat) : State :=
  let st := s.collStore g
  let k := min 15 (Tbl.get 0 st.streaks c + 1)
  s.setCollStore g { st with latched := st.latched.filter (fun x => x != c), streaks := Tbl.set 0 st.streaks c k
                             retryAt := Tbl.set 0 st.retryAt c (s.gateNow + s.backoffWait k + 1) }

/-- The operation has its tally's cells: phase 2 begins, and READY for the tally goes to the children (R377, R386, R387). -/
def State.tallyBegin (s : State) (k : Nat) (o : CollOp) : State :=
  let o' := { o with tallied := true }
  ((s.setOp k o').wr (.coPhase k) 2).collReady k o' false noIndex

/-- STORE_ALLOC_GRANT: the arbiter's pending choice takes its cells, if it still wants them and the pool has them; the next choice is
the top channel that waits, and the others back off. -/
def State.storeGrant (s : State) (g : Nat) : State :=
  let st := s.collStore g
  match st.choice with
  | none => s
  | some c =>
    let k := 32 * g + c
    match (s.coll k).op with
    | none => s
    | some o =>
      if !s.wantsCells k o then s.storeLeave k
      else if s.poolCells g < s.poolUsed g + s.cellsWanted k o then s
      else
        let l := st.latched.filter (fun x => x != c)
        let next := topChannel l
        let s0 := s.setCollStore g { st with latched := l, choice := next, streaks := Tbl.set 0 st.streaks c 0 }
        let s1 := if o.tallied then s0.startChunk k o false else s0.tallyBegin k o
        (l.filter (fun x => some x != next)).foldl (fun (a : State) x => a.storeBackOff g x) s1

/-! ## The end of an operation (R374, R396, R398) -/

/-- The operation is over: its stamps, fragments and place at the arbiter go. -/
def State.collForget (s : State) (k : Nat) : State :=
  let x := s.coll k
  let g := k / 32
  let tag := recTag x.record
  let y := s.gate g
  let s1 := (s.setGate g { y with chunks := y.chunks.filter (fun p => !(p.ty == 4 && p.chan == k % 32 && (Frag.ofBytes p.body).tag == tag)) }).storeLeave k
  s1.setColl k { x with op := none, lastTag := some tag, stamps := x.stamps.filter (fun e => e.1 != tag) }

/-- The channel goes to IDLE. -/
def State.collIdle (s : State) (k : Nat) : State :=
  (((s.setColl k { s.coll k with phase := .none, io := none, op := none }).wr (.coState k) 0).wr (.coPhase k) 0)

/-- A channel that aborts outside an operation goes to IDLE once nothing of it is out (R297, R374). -/
def State.abortEnds (s : State) (k : Nat) : State :=
  let x := s.coll k
  if x.phase = .abort ∧ x.io.isNone ∧ x.owns.isEmpty then s.collIdle k else s

/-- ABORT while a slot is read or written back: ABORTING, until the answers that are out have come and been discarded. Nothing more
is written back, and OWN and OP_RING_HEAD stay at the slot (R297, R374). -/
def State.collCancel (s : State) (k : Nat) : State :=
  let x := s.coll k
  ((s.setColl k { x with phase := .abort, io := x.io.filter (fun i => i.serial.isSome) }).wr (.coState k) 5).abortEnds k

/-- The channel is HALTED: the fault source says why. -/
def State.collHalted (s : State) (k status : Nat) : State :=
  ((s.collIdle k).wr (.coState k) 4).raise (Cause.atUnit (0x0B0 + k / 32) (some (s.collOwner k)) (s.gateAt (k / 32)) 5 (k % 32) status)

/-- The trace record of an operation (R374, R540). -/
def State.collTrace (s : State) (k evt status : Nat) : State :=
  let b := (s.coll k).record
  if !recTrace b then s
  else s.traceQueue (s.gateAt (k / 32)) 1 ⟨s.now, 2, evt, 0x80 + k / 32, k % 32, some (s.collOwner k), BitVec.ofNat 16 (leAt b 64 2),
    BitVec.ofNat 16 (leAt b 66 2), recTag b, BitVec.ofNat 32 status⟩

/-- Hall address of a slot of the ring. -/
def State.opSlot (s : State) (k slot : Nat) : Nat := ((s.obj (Obj.opRingBase k)).toNat + 128 * slot) % 2 ^ 64

/-- Bytes 80 to 126 of a record as written back (R372). -/
def State.collResult (s : State) (k status : Nat) : List Byte :=
  let b := (s.coll k).record
  let tail := fun (flags cap total narrowed fallbacks blocks slowest size lag : Nat) =>
    leBytes 1 status ++ leBytes 1 flags ++ leBytes 2 0 ++ leBytes 4 cap ++ leBytes 4 (recCount b - recKept b) ++ leBytes 4 total ++
      leBytes 4 narrowed ++ leBytes 4 fallbacks ++ leBytes 4 blocks ++ leBytes 2 slowest ++ leBytes 2 size ++ leBytes 4 lag ++
      leBytes 4 (s.now % 2 ^ 32) ++ leBytes 7 0
  match (s.coll k).op with
  | none => tail 0 0 0 0 0 0 0 0 0
  | some o =>
    match o.final with
    | none => tail (if o.inputErr then 8 else 0) 0 0 0 0 0 0 o.size 0
    | some t =>
      let narrowed := if o.agreed && t.head.isAdd then ((List.range (blocksOf o.capacity)).filter (fun i => o.fmtOf i == Fmt.bf16)).length else 0
      tail ((if o.nan then 1 else 0) + (if 0 < narrowed then 2 else 0) + (if 0 < o.fallbacks then 4 else 0) + (if o.inputErr then 8 else 0))
        o.capacity t.head.dropped narrowed o.fallbacks t.head.chunkBlocks t.head.slowest o.size t.head.maxLag

/-- The write-back of the record begins. -/
def State.collWriteBack (s : State) (k status : Nat) (phase : CollPhase) : State :=
  let x := s.coll k
  let s1 := ((s.setColl k { x with phase := phase, status := status }).collTrace k 2 status).wr (.coPhase k) 5
  let r := s1.collAsk k collBackAsk (.write (s.opSlot k x.slot + 80) (s.collResult k status))
  r.1.setColl k { r.1.coll k with io := some r.2 }

/-- The rest of the contribution's flow that has not been taken. -/
def drainOf (b : List Byte) (o : CollOp) : Option CollDrain :=
  let input := !recSrcMem b && (recOpcode b == 1 || (recOpcode b == 2 && o.rank == recRoot b))
  if !input || o.dataEnded then none
  else some ⟨recInFlow b, recIn b == Fmt.grid64 && !o.tallyEnded, recCount b - o.taken, recPer b⟩

/-- Flits, or bytes, of the result in all. -/
def outTotal (b : List Byte) (o : CollOp) : Nat :=
  if recOpcode b = 3 then 0 else if recDstMem b then o.capacity * (Fmt.bits (recOut b) / 8) else recOutFlits b

/-- The operation aborts here with a STATUS, and its neighbours are told. -/
def State.collAbort (s : State) (k status : Nat) : State :=
  let x := s.coll k
  match x.phase, x.op with
  | .run, some o =>
    let b := x.record
    let s1 := o.correspondents.foldl (fun (a : State) r => a.collRecord k abortType o false status r) s
    let s2 := (((s1.wr (.coState k) 5).bump (.coAborts k) 1).collWriteBack k status .haltBack)
    let y := s2.coll k
    let end_ := if !recDstMem b ∧ 0 < o.out ∧ o.out < outTotal b o then some (recOutFlow b, outTotal b o - o.out) else y.ending
    (s2.setColl k { y with drain := y.drain ++ (drainOf b o).toList, ending := end_ }).collForget k
  | _, _ => s

/-- Channels of a gate whose operations correspond with a peer that is unreachable (R351, R398). -/
def State.collPeerLost (s : State) (g : Nat) (peer : BitVec 22) : State :=
  (List.range 32).foldl (fun (a : State) c =>
    match (a.coll (32 * g + c)).op with
    | some o => if (o.depends (a.coll (32 * g + c)).record).any (fun r => o.peer r == peer) then a.collAbort (32 * g + c) 1 else a
    | none => a) s

/-! ## Stamps (R396, R407) -/

/-- LAG_TABLE follows the stamps of the present operation. -/
def State.lagUpdate (s : State) (k : Nat) : State :=
  let x := s.coll k
  match x.op with
  | none => s
  | some o =>
    let tag := recTag x.record
    match x.stamps.find? (fun e => e.1 == tag) with
    | none => s
    | some e =>
      let first := (e.2.map (·.2)).min?.getD 0
      s.setColl k { x with lagTag := tag, lagRanks := o.size
                           lags := e.2.foldl (fun t p => Tbl.set none t p.1 (some (min (p.2 - first) 0xFFFFFFFE))) [] }

/-- A stamp for an operation: of the present one or the next, once for each rank. -/
def State.collStamp (s : State) (k : Nat) (tag : BitVec 32) (rank : Nat) : State :=
  let x := s.coll k
  let put := fun (l : List (BitVec 32 × List (Nat × Nat))) => (s.setColl k { x with stamps := l }).lagUpdate k
  match x.stamps.find? (fun e => e.1 == tag) with
  | some e => if e.2.any (fun p => p.1 == rank) then s
    else put (x.stamps.map (fun y => if y.1 = tag then (tag, y.2 ++ [(rank, s.now)]) else y))
  | none => if x.stamps.length < 2 then put (x.stamps ++ [(tag, [(rank, s.now)])]) else s

/-- The slowest member and its lag: the lowest rank of those with the greatest. -/
def slowestOf (l : List (Nat × Nat)) : Nat × Nat :=
  let first := (l.map (·.2)).min?.getD 0
  l.foldl (fun (b : Nat × Nat) p => if b.2 < p.2 - first ∨ (b.2 = p.2 - first ∧ p.1 < b.1) then (p.1, p.2 - first) else b) (4096, 0)

/-! ## Phases 1 and 2 (R377, R379 to R381) -/

/-- Blocks of the member's own contribution. -/
def ownBlocks (b : List Byte) : Nat := if recIsAdd b then blocksOf (recKept b) else 0

/-- The member's own tally head. -/
def CollOp.ownHead (o : CollOp) (b : List Byte) : THead where
  countMax := recCount b
  dropped := recCount b - recKept b
  limit := o.limit
  members := 1
  opcode := recOpcode b
  redOp := recRedOp b
  cap := recCap b
  swTries := recTries b
  flag := o.advert
  slowest := 0
  maxLag := 0
  chunkBlocks := 0
  inFmt := recIn b
  outFmt := recOut b
  rootRank := recRoot b

/-- The tallies of all children have come whole. -/
def CollOp.kidsDone (o : CollOp) : Bool :=
  (o.children false).all (fun r => match Tbl.get none o.kids r with
    | some t => decide (t.head.entries ≤ t.entries.length)
    | none => false)

/-- The tally of the member's subtree. -/
def CollOp.subtree (o : CollOp) (b : List Byte) : HTally :=
  let ts := (o.children false).filterMap (fun r => Tbl.get none o.kids r)
  let h := ts.foldl (fun a t => a.join t.head) (o.ownHead b)
  let es := ts.foldl (fun a t => joinEntries a t.entries) (o.own.take (ownBlocks b))
  ⟨h, (List.range h.entries).map (fun i => es.getD i HEntry.zero)⟩

/-- The operation at its firing, of a record: its members, its own rank, and what it contributes to the tally head. -/
def State.collNew (s : State) (k : Nat) : CollOp :=
  let b := (s.coll k).record
  let ms := s.collMembers k b
  { members := ms, rank := ms.idxOf (s.gateName (k / 32)), arriveAt := s.gateNow, tallied := false, limit := s.chunkLimit k b
    advert := (s.advertised k b).isSome, own := [], ownDone := ownBlocks b == 0 && !(recIn b == Fmt.grid64 && !recSrcMem b)
    bad := [], kids := [], upSent := false, final := none, readies := [], taken := 0, tallyEnded := false, dataEnded := false
    part := [], chunks := [], next := 0, io := none, out := 0, wr := none, nan := false, inputErr := false, fallbacks := 0 }

/-- The root stamps its own arrival, and keeps the stamps of this operation; at another member LAG_TABLE is its header alone (R396,
R407). -/
def State.arrivalHere (s : State) (k : Nat) (o : CollOp) : State :=
  let y := s.coll k
  let tag := recTag y.record
  if o.isRoot false then
    let keep := if y.stamps.any (fun e => e.1 == tag) then y.stamps else y.stamps.take 1
    ((s.setColl k { y with stamps := keep }).collStamp k tag o.rank).lagUpdate k
  else (s.setColl k { y with lagRanks := 0, lags := [] }).collRecord k arriveType o false 0 o.rootA

/-- The operation is fired: phase 1, and phase 2 at once where its tally needs no cells (R374, R377). -/
def State.collFire (s : State) (k : Nat) : State :=
  let o := s.collNew k
  let s1 := (((s.setColl k { s.coll k with phase := .run, op := some o }).wr (.coState k) (if s.rd (.coState k) = 3 then 3 else 1)).wr
    (.coPhase k) 1).collTrace k 1 0
  let s2 := s1.arrivalHere k o
  if tallyCells (s.coll k).record = 0 then s2.tallyBegin k o else s2

/-- A counter of a gate gives up the threshold of a channel that waits on it (R291, R374). -/
def State.collRelease (s : State) (k : Nat) : State :=
  let x := s.coll k
  let key := Obj.collTrip (k / 32) (recCtr x.record)
  let v := (s.obj key).toNat
  if x.phase ≠ .wait ∨ v < recThresh x.record then s
  else (s.setObj key (BitVec.ofNat 64 (v - recThresh x.record))).collFire k

/-- After a change of counter `c` of gate `g`, waiting channels are examined in ascending order. -/
def State.collExamine (s : State) (g c : Nat) : State :=
  (List.range 32).foldl (fun (a : State) i => if recCtr (a.coll (32 * g + i)).record = c then a.collRelease (32 * g + i) else a) s

/-- The final tally at a member: it is passed on, and the data begins. -/
def State.collAgree (s : State) (k : Nat) (o : CollOp) : State :=
  match o.final with
  | some t => (((o.children false).foldl (fun (a : State) r => a.sendTally k o 2 r t) s)).wr (.coPhase k) 3
  | none => s

/-- The root fixes the agreed values (R385, R396). -/
def State.collFix (s : State) (k : Nat) (o : CollOp) : State :=
  let x := s.coll k
  let b := x.record
  match x.stamps.find? (fun e => e.1 == recTag b) with
  | none => s
  | some e =>
    if e.2.length < o.size then s
    else
      let t := o.subtree b
      let sl := slowestOf e.2
      let h := { t.head with slowest := sl.1, maxLag := min sl.2 0xFFFFFFFE, chunkBlocks := max 1 t.head.limit
                             flag := t.head.flag && decide (1 < o.size) }
      let o' := { o with final := some ⟨h, t.entries⟩, upSent := true }
      ((s.setColl k { x with op := some o', slowCounts := Tbl.upd 0 x.slowCounts sl.1 (fun c => min (c + 1) 0xFFFFFFFF) }).collAgree k o')

/-- The tally goes up, or at the root is fixed, once everything it needs is there. -/
def State.tallyGo (s : State) (k : Nat) (o : CollOp) : State :=
  if o.upSent || !o.tallied || !o.ownDone || !o.kidsDone then s
  else match o.parent false with
    | none => s.collFix k o
    | some r =>
      if !o.readies.contains (false, none) then s
      else ((s.setOp k { o with upSent := true }).sendTally k o 1 r (o.subtree (s.coll k).record))

/-- The read that the member's own tally needs next (R379). -/
def tallyRead (b : List Byte) (o : CollOp) : CollIo :=
  let i := o.own.length
  if recIn b = Fmt.grid64 then .read (recTally b + 8 * i) (8 * min 512 (ownBlocks b - i))
  else
    let w := Fmt.bits (recIn b) / 8
    .read (recSrc b + 1024 * w * i) (w * min 1024 (recKept b - 1024 * i))

/-- Entries of own blocks from bytes read. -/
def tallyFrom (b : List Byte) (got : List Byte) : List HEntry :=
  if recIn b = Fmt.grid64 then (codesOf Fmt.grid64 (got.length / 8) got).map (fun x => HEntry.ofTally (TallyEntry.ofWord (BitVec.ofNat 64 x)))
  else [HEntry.ofValues ((codesOf (recIn b) (got.length / (Fmt.bits (recIn b) / 8)) got).map (fDecode (recIn b)))]

/-! ## Phase 3: the member's contribution (R379, R380, R382) -/

/-- The chunk whose own contribution is being placed, and its next block. -/
def CollOp.filling (o : CollOp) : Option (CollChunk × Nat) :=
  (o.chunks.find? (fun c => decide (c.own.length < o.blocks c.index))).map (fun c => (c, c.index * o.chunkBlocks + c.own.length))

/-- This member contributes data: every member but those that are not the source of a BROADCAST. -/
def CollOp.gives (o : CollOp) (b : List Byte) : Bool := recOpcode b != 2 || o.rank == recRoot b

/-- Own elements that block `i` takes. -/
def ownLen (b : List Byte) (i : Nat) : Nat := min 1024 (recKept b - 1024 * i)

def CollOp.setChunk (o : CollOp) (c : CollChunk) : CollOp := { o with chunks := o.chunks.map (fun d => if d.index = c.index then c else d) }

/-- An own block is placed in its buffer. -/
def State.collPlace (s : State) (k : Nat) (o : CollOp) (c : CollChunk) (i : Nat) (codes : List Nat) : State :=
  let b := (s.coll k).record
  let len := o.blockLen i
  let spoilt := o.bad.contains i
  let blk := if recIsAdd b then addBlock (recIn b) o.size len (o.entry i) (o.own.getD i HEntry.zero) spoilt codes
    else if recOpcode b = 2 then castBlock (recIn b) len spoilt codes
    else plainBlock (recIn b) len spoilt codes
  s.setOp k ((o.setChunk { c with own := c.own ++ [blk] }))

/-- The contribution goes on: a block beyond it is empty, and one in memory is read. -/
def State.fillGo (s : State) (k : Nat) (o : CollOp) : State :=
  let b := (s.coll k).record
  if !o.gives b then s
  else match o.filling with
    | none => s
    | some (c, i) =>
      if ownLen b i = 0 then s.collPlace k o c i []
      else if !recSrcMem b ∨ o.io.isSome then s
      else
        let w := Fmt.bits (recIn b) / 8
        let r := s.collAsk k collReadAsk (.read (recSrc b + 1024 * w * i) (w * ownLen b i))
        r.1.setOp k { o with io := some r.2 }

/-- What a whole read was for: the member's tally, or its next block. -/
def State.readWhole (s : State) (k : Nat) (o : CollOp) (got : List Byte) : State :=
  let b := (s.coll k).record
  let o1 := { o with io := none }
  if !o.ownDone then
    let own := o.own ++ tallyFrom b got
    s.setOp k { o1 with own := own, ownDone := decide (ownBlocks b ≤ own.length) }
  else match o.filling with
    | none => s.setOp k o1
    | some (c, i) => s.collPlace k o1 c i (codesOf (recIn b) (ownLen b i) got)

/-! ## Phase 3: a chunk (R387, R391 to R393) -/

/-- The member's own contribution stands in the buffer. -/
def CollOp.placed (o : CollOp) (b : List Byte) (c : CollChunk) : Bool := !o.gives b || decide (o.blocks c.index ≤ c.own.length)

/-- The fragments of a rank have all come. -/
def CollOp.kidWhole (o : CollOp) (c : CollChunk) (r : Nat) : Bool := decide (o.blocks c.index ≤ (Tbl.get [] c.kids r).length)

/-- The result of a node's combination. -/
def CollOp.combined (o : CollOp) (b : List Byte) (c : CollChunk) (tree : Bool) : List CBlock :=
  c.own.zipIdx.map (fun p => combineBlocks (recRedOp b) p.1 ((o.children tree).map (fun r => (Tbl.get [] c.kids r).getD p.2 ⟨0, []⟩)))

/-- The total comes from above, or stands at the root: sent up under READY (R387), or straight to the root in a BROADCAST,
under READY where that root is the source's parent. -/
def State.chunkUp (s : State) (k : Nat) (o : CollOp) (c : CollChunk) : State :=
  let b := (s.coll k).record
  let tree := c.index % 2 == 1
  let first := c.index * o.chunkBlocks
  if c.upSent || !c.tree || !o.placed b c then s
  else if recOpcode b = 2 then
    if o.rank = recRoot b then
      if o.isRoot tree then s.setOp k (o.setChunk { c with upSent := true, total := c.own })
      else if o.parent tree == some (treeRoot tree o.size) && !o.readies.contains (tree, some c.index) then s
      else (s.setOp k (o.setChunk { c with upSent := true })).sendBlocks k o 3 c first (treeRoot tree o.size) c.own
    else if o.isRoot tree then
      if o.kidWhole c (recRoot b) then s.setOp k (o.setChunk { c with upSent := true, total := Tbl.get [] c.kids (recRoot b) }) else s
    else s.setOp k (o.setChunk { c with upSent := true })
  else if !(o.children tree).all (o.kidWhole c) then s
  else match o.parent tree with
    | none => s.setOp k (o.setChunk { c with upSent := true, total := o.combined b c tree })
    | some r =>
      if !o.readies.contains (tree, some c.index) then s
      else (s.setOp k (o.setChunk { c with upSent := true })).sendBlocks k o 3 c first r (o.combined b c tree)

/-- READY for a chunk goes to the children once its buffer holds the member's own contribution. -/
def State.chunkReady (s : State) (k : Nat) (o : CollOp) (c : CollChunk) : State :=
  if c.readySent || !c.tree || !o.placed (s.coll k).record c then s
  else (s.setOp k (o.setChunk { c with readySent := true })).collReady k o (c.index % 2 == 1) c.index

/-- The contribution goes to the switch: the fragments of the present attempt (R391). -/
def State.swSend (s : State) (k : Nat) (o : CollOp) (c : CollChunk) : State :=
  (s.setOp k (o.setChunk { c with sends := c.sends + 1, due := s.retxDue (k / 32), wait := none })).sendBlocks k o 5 c (c.index * o.chunkBlocks) o.rootA c.own

/-- The total is there whole: it goes to the children, or the switch is told (R387, R391). -/
def State.chunkDown (s : State) (k : Nat) (o : CollOp) (c : CollChunk) : State :=
  let tree := c.index % 2 == 1
  let nb := o.blocks c.index
  if c.downSent then s
  else if c.tree then
    if c.total.length < nb then s
    else (o.children tree).foldl (fun (a : State) r => a.sendBlocks k o 4 c (c.index * o.chunkBlocks) r c.total) (s.setOp k (o.setChunk { c with downSent := true }))
  else
    let rs := (List.range nb).filterMap (fun i => Tbl.get none c.results i)
    if rs.length < nb then s
    else (s.setOp k (o.setChunk { c with downSent := true, total := rs })).collSend k (o.peer o.rootA)
      (s.collFrag k o 6 false c.attempt Fmt.grid32 (c.index * o.chunkBlocks) c.index 0 [])

/-- Elements of the result delivered. -/
def CollOp.outElems (o : CollOp) (b : List Byte) : Nat :=
  if recDstMem b then o.out / (Fmt.bits (recOut b) / 8) else o.out * (4096 / Fmt.bits (recOut b))

/-- A fragment of the chunk to a child waits for its acknowledgement (R387). -/
def Gate.owes (x : Gate) (c : Nat) (tag : BitVec 32) (i : Nat) : Bool :=
  let mine := fun (p : FPkt) => p.ty == 4 && p.chan == c &&
    (let f := Frag.ofBytes p.body
     f.tag == tag && f.ckind == 4 && f.chunk == i)
  x.queue.any (fun q => mine q.pkt) || x.conns.any (fun y => (y.cls 3).sent.any (fun e => mine e.pkt))

/-- A chunk is complete: delivered, and its fragments to the children acknowledged. -/
def State.chunkFree (s : State) (k : Nat) (o : CollOp) (c : CollChunk) : State :=
  let b := (s.coll k).record
  let stop := min o.capacity (1024 * (c.index + 1) * o.chunkBlocks)
  if !c.downSent || decide (o.outElems b < stop) || (s.gate (k / 32)).owes (k % 32) (recTag b) c.index then s
  else
    let fell := c.tree && decide (0 < c.sends)
    let s1 := (s.setOp k { o with chunks := o.chunks.filter (fun d => d.index != c.index), fallbacks := o.fallbacks + (if fell then 1 else 0)
                                  readies := o.readies.filter (fun r => r.2 != some c.index) }).countEv 0x50 (s.gateAt (k / 32)) (some (s.collOwner k)) 1
    if fell then s1.bump (.coFallbacks k) 1 else s1

/-- One step of chunk `i`, in the order of R387. -/
def State.chunkGo (s : State) (k i : Nat) : State :=
  let f := fun (a : State) (act : State → CollOp → CollChunk → State) =>
    match (a.coll k).op with
    | none => a
    | some o => match o.chunks.find? (fun c => c.index == i) with
      | none => a
      | some c => act a o c
  let sw := fun (a : State) (o : CollOp) (c : CollChunk) =>
    if c.tree || !o.placed (a.coll k).record c || decide (0 < c.sends) || c.wait.isSome then a else a.swSend k o c
  [fun a o c => a.chunkReady k o c, sw, fun a o c => a.chunkUp k o c, fun a o c => a.chunkDown k o c, fun a o c => a.chunkFree k o c].foldl f s

/-! ## Phase 4: output (R384) -/

/-- The block of the result that holds element `e`, where it has come. -/
def CollOp.resultBlock (o : CollOp) (e : Nat) : Option CBlock :=
  let b := e / 1024
  match o.chunks.find? (fun c => c.index == b / o.chunkBlocks) with
  | some c => c.total[b % o.chunkBlocks]?
  | none => none

/-- Elements `e` to `e + k − 1` of a block of the result, in OUT_FMT. -/
def CollOp.resultCodes (o : CollOp) (blk : CBlock) (e k : Nat) : List Nat :=
  match o.final with
  | some t => ((blk.codes.drop (e % 1024)).take k).map (totalElem t.head o.size (o.entry (e / 1024)) blk.fmt)
  | none => []

/-- The next bytes of a result in memory are written. -/
def State.outWrite (s : State) (k : Nat) (o : CollOp) : State :=
  let b := (s.coll k).record
  let w := Fmt.bits (recOut b) / 8
  if !recDstMem b || o.wr.isSome || !o.agreed || decide (outTotal b o ≤ o.out) then s
  else
    let e := o.out / w
    match o.resultBlock e with
    | none => s
    | some blk =>
      let codes := o.resultCodes blk e 1024
      let r := s.collAsk k collWriteAsk (.write (recDst b + o.out) (codes.flatMap (fun c => leBytes w c)))
      r.1.setOp k { o with wr := some r.2, nan := o.nan || codes.any (fun c => c == Fmt.nanCode (recOut b)) }

/-- The next flit of a result for a flow: its payload, its flags, whether it holds a NaN. -/
def CollOp.outFlit (o : CollOp) (b : List Byte) : Option (BitVec 4096 × Nat × Bool) :=
  let w := Fmt.bits (recOut b)
  let per := 4096 / w
  let e := o.out * per
  if !o.agreed then none
  else if o.capacity ≤ e then some (0, 0, false)
  else match o.resultBlock e with
    | none => none
    | some blk =>
      let codes := o.resultCodes blk e per
      let nan := codes.any (fun c => c == Fmt.nanCode (recOut b))
      some (packSlots w codes, (if nan then 1 else 0) + (if blk.fmt = Fmt.bf16 && recIsAdd b then 4 else 0), nan)

/-- The run at the gate's ingress is, or is to be, of the flow. -/
def State.outTurn (s : State) (g flow : Nat) (started : Bool) : Bool :=
  let n := s.gateAt g
  let x := s.ing n 5
  s.tMoves n && s.ingOpen n 5 && (if started then x.discard || x.flow == flow + 1 else !x.discard && x.flow == 0 && s.ingNext n 5 == some flow)

/-- A channel injects the next flit of its result, or of the end that an abort gives a run in part. -/
def State.outInject (s : State) (k : Nat) : State :=
  let g := k / 32
  let n := s.gateAt g
  let x := s.coll k
  match x.ending with
  | some (flow, left) =>
    if !s.outTurn g flow true then s
    else (s.ingTakeAs n 5 0 0 true (left == 1)).setColl k { x with ending := if left ≤ 1 then none else some (flow, left - 1) }
  | none => match x.op with
    | none => s
    | some o =>
      let b := x.record
      if x.phase ≠ .run || recDstMem b || decide (outTotal b o ≤ o.out) || !s.outTurn g (recOutFlow b) (decide (0 < o.out)) then s
      else match o.outFlit b with
        | none => s
        | some (p, flags, nan) =>
          (s.ingTakeAs n 5 p flags false (o.out + 1 == outTotal b o)).setOp k { o with out := o.out + 1, nan := o.nan || nan }

/-! ## The engine -/

/-- The operation has ended: every chunk is complete and the result delivered. -/
def CollOp.done (o : CollOp) (b : List Byte) : Bool :=
  o.agreed && decide (o.chunkCount ≤ o.next) && o.chunks.isEmpty && decide (outTotal b o ≤ o.out) && o.wr.isNone

/-- Requests that waited for a tag are sent. -/
def State.collReissue (s : State) (k : Nat) : State :=
  let s1 := match (s.coll k).io with
    | some i =>
      let r := s.collAsk k (if (s.coll k).phase = CollPhase.fetch then collFetchAsk else collBackAsk) i
      r.1.setColl k { r.1.coll k with io := some r.2 }
    | none => s
  let s2 := (s1.coll k).owns.foldl (fun (a : State) e =>
    match e.2.2 with
    | some _ => a
    | none =>
      let r := a.collAsk k collOwnAsk (.write (a.opSlot k e.1 + 127) [0])
      let x := r.1.coll k
      r.1.setColl k { x with owns := x.owns.map (fun y => if y = e then (e.1, e.2.1, r.2.serial) else y) }) s1
  match (s2.coll k).op with
  | none => s2
  | some o =>
    let s3 := match o.io with
      | some i =>
        let r := s2.collAsk k collReadAsk i
        r.1.setOp k { o with io := some r.2 }
      | none => s2
    match (s3.coll k).op with
    | none => s3
    | some p => match p.wr with
      | some i =>
        let r := s3.collAsk k collWriteAsk i
        r.1.setOp k { p with wr := some r.2 }
      | none => s3

/-- A channel with an operation goes on as far as it can. -/
def State.collGo (s : State) (k : Nat) : State :=
  let f := fun (a : State) (act : State → CollOp → State) =>
    match (a.coll k).phase, (a.coll k).op with
    | .run, some o => act a o
    | _, _ => a
  let tally := fun (a : State) (o : CollOp) =>
    let b := (a.coll k).record
    if !o.tallied || o.ownDone || !recSrcMem b || o.io.isSome then a
    else
      let r := a.collAsk k collReadAsk (tallyRead b o)
      r.1.setOp k { o with io := some r.2 }
  let finish := fun (a : State) (o : CollOp) =>
    if o.done (a.coll k).record then
      let b := (a.coll k).record
      let a1 := a.setColl k { a.coll k with drain := (a.coll k).drain ++ (drainOf b o).toList }
      (a1.collWriteBack k 0 .back).collForget k
    else if o.agreed && decide (o.chunkCount ≤ o.next) && o.chunks.all (fun c => c.downSent) then a.wr (.coPhase k) 4 else a
  let s1 := s.collReissue k
  let s2 := [tally, fun a o => a.tallyGo k o, fun a _ => a.storeAsk k, fun a o => a.fillGo k o].foldl f s1
  let open_ : List Nat := match (s2.coll k).op with
    | some o => o.chunks.map CollChunk.index
    | none => []
  let s3 := open_.foldl (fun (a : State) i => a.chunkGo k i) s2
  [fun a o => a.outWrite k o, finish].foldl f s3

/-- The answer of a read or a write of the operation. -/
def State.collAnswer (s : State) (k : Nat) (wr : Bool) (info : Nat) (d : TDone) : State :=
  match (s.coll k).phase, (s.coll k).op with
  | .run, some o =>
    let io := if wr then o.wr else o.io
    match io with
    | none => s
    | some i =>
      if i.serial ≠ some info then s
      else match i.answered d with
        | none => s.collAbort k 8
        | some j =>
          if wr then s.setOp k { o with wr := if j.whole then none else some j, out := o.out + (i.len - j.len) }
          else if j.whole then s.readWhole k o j.got
          else s.setOp k { o with io := some j }
  | _, _ => s

/-- The answer of a write that clears OWN: tried again (R296), and at last a failure, which halts a channel that is between
operations and aborts the operation of one that runs. A channel that aborts or writes back discards it. -/
def State.collOwned (s : State) (k info : Nat) (d : TDone) : State :=
  let x := s.coll k
  match x.owns.find? (fun e => e.2.2 == some info) with
  | none => s
  | some e =>
    let rest := x.owns.filter (fun y => y != e)
    let s1 := s.setColl k { x with owns := rest }
    if d.status = 0 ∨ x.phase = .abort then s1.abortEnds k
    else if retryable d.status ∧ e.2.1 < collRetry then s.setColl k { x with owns := rest ++ [(e.1, e.2.1 + 1, none)] }
    else if x.phase = .run then s1.collAbort k 8
    else if x.phase = .back ∨ x.phase = .haltBack ∨ s.rd (.coState k) = 4 then s1
    else s1.collHalted k 8

/-- The answer of a fetch or write-back that an ABORT has given up: it is discarded. -/
def State.collDropped (s : State) (k info : Nat) : State :=
  let x := s.coll k
  if x.io.bind (·.serial) = some info then (s.setColl k { x with io := none }).abortEnds k else s

/-- Answers reach the channels of gate `g`, but for those of a fetch or write-back in progress, which have commands of their own. -/
def State.collAnswers (s : State) (g : Nat) : Nat → State
  | 0 => s
  | j + 1 =>
    match s.takeDone (0x80 + g) (fun k what info => what == collReadAsk || what == collWriteAsk || what == collOwnAsk ||
      (s.coll k).phase == .abort || ((s.coll k).io.bind (·.serial)) != some info) with
    | none => s
    | some (d, k, what, info, s1) =>
      (if what = collOwnAsk then s1.collOwned k info d else if (s1.coll k).phase = .abort then s1.collDropped k info
       else s1.collAnswer k (what == collWriteAsk) info d).collAnswers g j

/-- The channels of a gate that are not as at reset. -/
def State.collLive (s : State) (g : Nat) : List Nat := (s.col.chans.map (·.1)).filter (fun k => k / 32 == g)

/-- The result flits of the gate's channels enter its ingress while the link has room. -/
def State.gateFeed (s : State) (g : Nat) : State :=
  (List.range 3).foldl (fun (a : State) _ => (s.collLive g).foldl (fun (b : State) k => b.outInject k) a) s

/-- A collective channel of a ward that closes: its operation aborts with REVOKED; between operations it goes to IDLE once what is
out has been answered (R398, R418). -/
def State.collClose (s : State) (k : Nat) : State :=
  match (s.coll k).phase with
  | .run => s.collAbort k 5
  | .wait => s.collIdle k
  | .fetch => s.collCancel k
  | .back => s.collCancel k
  | _ => s

/-- The channels of gate `g` whose ward is being reclaimed close. A fault that begins a ward's reset finds them here (R491). -/
def State.collsClose (s : State) (g : Nat) : State :=
  (s.collLive g).foldl (fun (a : State) k => match chanWardOf (s.obj (Obj.collCfg k)) with
    | some w => if s.wardReclaiming w then a.collClose k else a
    | none => a) s

/-- The engine of a gate does what it can now. -/
def State.collSettle (s : State) (g : Nat) : State :=
  if !s.gateMoves g then s
  else
    let s1 := (List.range 8).foldl (fun (a : State) _ =>
      ((a.collLive g).foldl (fun (b : State) k => b.collGo k) ((a.outboxGo g 64).collAnswers g (a.txn.dones.length + 1))).gateFeed g) (s.collsClose g)
    s1.storeChoose g

end Sys2Proof.Machine
end

