-- ==== Sys2Proof/Machine/CollSteps.lean ====
section
/-! DEFINITION. The commands of the collective channels, and the writes of their objects (R374, R379, R387 to R407). -/

namespace Sys2Proof.Machine

/-! ## Control of a channel (R297, R374) -/

/-- The channel fetches a slot. -/
def State.collFetch (s : State) (k slot : Nat) : State :=
  let r := (s.setColl k { s.coll k with phase := .fetch, slot := slot }).collAsk k collFetchAsk (.read (s.opSlot k slot) 128)
  r.1.setColl k { r.1.coll k with io := some r.2 }

/-- A channel in IDLE starts from OP_RING_HEAD. -/
def State.collStart (s : State) (k : Nat) : State :=
  (((s.wr (.coPending k) 0).wr (.coState k) 1).collFetch k (s.rd (.opHead k))).collSettle (k / 32)

/-- START, STOP, ABORT or CLEAR, by the channel's state. -/
def Coll.control (k cmd : Nat) : Effect := fun s =>
  let st := s.rd (.coState k)
  let s0 := s.setObj (Obj.collCtrl k) (BitVec.ofNat 64 cmd)
  let x := s.coll k
  match cmd with
  | 1 =>
    if s.rd (.coOwned k) = 0 ∨ 3 ≤ st then .error .badState
    else if st ≠ 0 ∨ s.warn then .ok (s0.wr (.coPending k) 1)
    else .ok (s0.collStart k)
  | 2 =>
    if st = 0 ∨ st = 3 then .ok s0
    else if st = 1 then .ok (s0.wr (.coState k) 3)
    else if st = 2 then .ok (s0.collIdle k)
    else .error .badState
  | 3 =>
    if st = 0 ∨ st = 5 then .ok s0
    else if st = 4 then .error .badState
    else if st = 2 then .ok (s0.collIdle k)
    else if x.phase = .run then .ok ((s0.collAbort k 6).collSettle (k / 32))
    else .ok (s0.collCancel k)
  | 4 => if st = 4 then .ok (s0.wr (.coState k) 0) else .error .badState
  | _ => .error .badState

def execCollStart (acc : Access) (g c : Nat) (s : State) : Host.Outcome State Fault Refusal :=
  .next (s.serveKey acc (Obj.collCtrl (32 * g + c)) 1 (fun _ => Coll.control (32 * g + c) 1))

def execCollStop (acc : Access) (g c : Nat) (s : State) : Host.Outcome State Fault Refusal :=
  .next (s.serveKey acc (Obj.collCtrl (32 * g + c)) 2 (fun _ => Coll.control (32 * g + c) 2))

def execCollAbort (acc : Access) (g c : Nat) (s : State) : Host.Outcome State Fault Refusal :=
  .next (s.serveKey acc (Obj.collCtrl (32 * g + c)) 3 (fun _ => Coll.control (32 * g + c) 3))

def execCollClear (acc : Access) (g c : Nat) (s : State) : Host.Outcome State Fault Refusal :=
  .next (s.serveKey acc (Obj.collCtrl (32 * g + c)) 4 (fun _ => Coll.control (32 * g + c) 4))

/-- The supply stands again: starts that WARN held take effect (R298). -/
def State.collHeldStarts (s : State) : State :=
  (List.range 512).foldl (fun (a : State) k =>
    if a.rd (.coPending k) = 1 ∧ a.rd (.coState k) = 0 ∧ (a.coll k).phase = .none then a.collStart k else a) s

/-! ## Fetch and write-back (R373, R374) -/

/-- A record has been read: a channel that stops ends its run, as OWN 0 does; a record of the gate's names its slot in COLL_STATUS, an invalid record is written back with DESC, a valid one waits on its counter. -/
def State.collRead (s : State) (k : Nat) (b : List Byte) : State :=
  let x := s.coll k
  let s1 := (s.setColl k { x with record := b, io := none }).wr (.coSlot k) x.slot
  if s.rd (.coState k) = 3 then s.collIdle k
  else if !recOwn b then
    if s.rd (.coPending k) = 1 then (s.wr (.coPending k) 0).collFetch k x.slot else s.collIdle k
  else if s.recBad k b then s1.collWriteBack k 7 .haltBack
  else ((s1.setColl k { x with record := b, io := none, phase := .wait }).wr (.coState k) 2).collRelease k

/-- COLL_RECORD_FETCH: a fetched record is examined. -/
def Coll.recordFetch (g c : Nat) (s : State) : State :=
  let k := 32 * g + c
  if !s.gateMoves g ∨ 32 ≤ c then s
  else
    let s0 := s.collSettle g
    match s0.takeDone (0x80 + g) (fun j what info => j == k && what == collFetchAsk && ((s0.coll k).io.bind (·.serial)) == some info) with
    | none => s0
    | some (d, _, _, _, s1) =>
      match (s1.coll k).phase, (s1.coll k).io with
      | .fetch, some i =>
        (match i.answered d with
          | none => s1.collHalted k 8
          | some j => if j.whole then s1.collRead k j.got else s1.setColl k { s1.coll k with io := some j }).collSettle g |>.touch (s.gateAt g)
      | _, _ => s1

def execCollRecordFetch (g c : Nat) (s : State) : Host.Outcome State Fault Refusal := .next (Coll.recordFetch g c s)

/-- The slot after one. -/
def State.opSlotAfter (s : State) (k slot : Nat) : Nat := if (s.obj (Obj.opRingSizeM1 k)).toNat ≤ slot then 0 else slot + 1

/-- The notification of a completed operation (R293, R374). -/
def State.collNotify (s : State) (k : Nat) : State :=
  let b := (s.coll k).record
  let g := k / 32
  let w := s.collOwner k
  let dest := BitVec.ofNat 16 (leAt b 56 2)
  let sock := leAt b 58 1 % 32
  let kind : BitVec 2 := if leAt b 59 1 = 0 then 2 else 0
  if !recNotify b then s
  else if s.unplaceable dest ∨ (kind = 0 ∧ !s.unitHasChannel (Obj.gateChan g 0) w dest sock) then s.countEv 0x31 (s.gateAt g) (some w) 1
  else s.ctlFrom (0x80 + g) ⟨false, w, kind, 0, BitVec.ofNat 8 (s.obj (Obj.gateRank g)).toNat, BitVec.ofNat 8 (k % 32), BitVec.ofNat 5 sock, 0,
    dest, 0, [BitVec.ofNat 32 (leAt b 60 4)]⟩

/-- The write of byte 127, with OWN cleared. -/
def State.collClearOwn (s : State) (k : Nat) : State :=
  let x := s.coll k
  let r := s.collAsk k collOwnAsk (.write (s.opSlot k x.slot + 127) [0])
  let y := r.1.coll k
  r.1.setColl k { y with owns := y.owns ++ [(x.slot, 0, r.2.serial)], io := none }

/-- A completed record: OWN is cleared, the notification leaves, the ring moves on. -/
def State.collAdvance (s : State) (k : Nat) : State :=
  let x := s.coll k
  let next := s.opSlotAfter k x.slot
  let s1 := (((s.collClearOwn k).bumpWrap (.coOps k) 1).collNotify k).wr (.opHead k) next
  if s.rd (.coState k) = 3 then s1.collIdle k else (s1.wr (.coPhase k) 0).collFetch k next

/-- COLL_WRITEBACK_COMPLETE: the write of bytes 80 to 126 has its completion. -/
def Coll.backDone (g c : Nat) (s : State) : State :=
  let k := 32 * g + c
  if !s.gateMoves g ∨ 32 ≤ c then s
  else
    let s0 := s.collSettle g
    match s0.takeDone (0x80 + g) (fun j what info => j == k && what == collBackAsk && ((s0.coll k).io.bind (·.serial)) == some info) with
    | none => s0
    | some (d, _, _, _, s1) =>
      let x := s1.coll k
      match x.io with
      | none => s1
      | some i =>
        if x.phase ≠ .back ∧ x.phase ≠ .haltBack then s1
        else
          let s2 := match i.answered d with
            | none => s1.collHalted k (if x.phase = CollPhase.haltBack then x.status else 8)
            | some j =>
              if !j.whole then s1.setColl k { x with io := some j }
              else
                let s3 := s1.countEv 0x51 (s.gateAt g) (some (s.collOwner k)) 1
                if x.phase = CollPhase.back then s3.collAdvance k else (s3.collClearOwn k).collHalted k x.status
          (s2.collSettle g).touch (s.gateAt g)

def execCollWritebackComplete (g c : Nat) (s : State) : Host.Outcome State Fault Refusal := .next (Coll.backDone g c s)

/-! ## Input (R379) -/

/-- A flit of a contribution that is only discarded. -/
def CollDrain.take (d : CollDrain) (last : Bool) : Option CollDrain :=
  if d.tally then some { d with tally := !last }
  else if last ∧ d.left ≤ d.per then none
  else some { d with left := d.left - d.per }

/-- A tally flit of the contribution: its entries, and with its last the member's tally. -/
def State.inputTally (s : State) (k : Nat) (o : CollOp) (f : TFlit) (err : Bool) : State :=
  let b := (s.coll k).record
  let i := o.own.length
  let es := (slots 64 f.payload).map (fun x => HEntry.ofTally (TallyEntry.ofWord (BitVec.ofNat 64 x)))
  let own := (o.own ++ es).take (ownBlocks b)
  let pad := if f.last then own ++ List.replicate (ownBlocks b - own.length) HEntry.zero else own
  s.setOp k { o with own := pad, tallyEnded := f.last, ownDone := f.last, inputErr := o.inputErr || err
                     bad := if err then o.bad ++ (List.range 64).map (· + i) else o.bad }

/-- A data flit of the contribution: with its last element a block is placed. -/
def State.inputData (s : State) (k : Nat) (o : CollOp) (c : CollChunk) (i : Nat) (f : TFlit) (err : Bool) : State :=
  let b := (s.coll k).record
  let part := o.part ++ slots (Fmt.bits (recIn b)) f.payload
  let taken := o.taken + recPer b
  let o1 := { o with taken := taken, dataEnded := f.last && decide (recCount b ≤ taken), inputErr := o.inputErr || err
                     bad := if err then o.bad ++ [i] else o.bad }
  if part.length < ownLen b i then s.setOp k { o1 with part := part }
  else s.collPlace k { o1 with part := [] } c i (part.take (ownLen b i))

/-- The flow whose next flit the channel would take: what is left of an old contribution first. -/
def CollChan.wants (x : CollChan) : Option Nat :=
  match x.drain with
  | d :: _ => some d.flow
  | [] =>
    match x.phase, x.op with
    | .run, some o =>
      let b := x.record
      if recSrcMem b ∨ recOpcode b = 3 ∨ !o.gives b ∨ !o.tallied then none
      else if recIn b = Fmt.grid64 ∧ !o.tallyEnded then some (recInFlow b)
      else match o.filling with
        | some (_, i) => if 0 < ownLen b i then some (recInFlow b) else none
        | none => none
    | _, _ => none

/-- COLL_INPUT_FLIT: the channel takes the next flit delivered at the gate's B port, when it wants it. -/
def Coll.inputFlit (g c : Nat) (s : State) : State :=
  let k := 32 * g + c
  let n := s.gateAt g
  if !s.gateMoves g ∨ 32 ≤ c then s
  else
    let s0 := s.collSettle g
    let x := s0.coll k
    if x.wants.isNone ∨ x.wants ≠ (s0.dlv n 5).queue.head?.map (fun p => p.1.toNat) then s0
    else match s0.dlvTake n 5 with
      | none => s0
      | some (_, f, _, s1) =>
        let s2 := match x.drain with
          | d :: ds => s1.setColl k { x with drain := (d.take f.last).toList ++ ds }
          | [] => match x.op with
            | none => s1
            | some o =>
              if recIn x.record = Fmt.grid64 ∧ !o.tallyEnded then s1.inputTally k o f f.err
              else match o.filling with
                | some (ch, i) => s1.inputData k o ch i f f.err
                | none => s1
        (s2.collSettle g).touch n

def execCollInputFlit (g c : Nat) (s : State) : Host.Outcome State Fault Refusal := .next (Coll.inputFlit g c s)

/-! ## Control records (R378, R387, R396, R398) -/

/-- The message in a CTL packet. -/
def ctlMessage (p : FPkt) : CtlMsg :=
  let fs := (List.range (p.body.length / 9)).map (fun i => BitVec.ofNat 72 (leAt p.body (9 * i) 9))
  asmMessage (fs.headD 0) fs.tail

/-- A control record: RTYPE, channel, TREE, RANK, OP_TAG and ARG. -/
structure CRecord where
  rtype : Nat
  chan : Nat
  tree : Bool
  rank : Nat
  tag : BitVec 32
  arg : Nat
  deriving DecidableEq, Repr

def CRecord.ofWords (ws : List (BitVec 32)) : CRecord :=
  let w := (ws.getD 0 0).toNat
  ⟨w / 2 ^ 28, w / 2 ^ 23 % 32, w / 2 ^ 22 % 2 == 1, w % 4096, ws.getD 1 0, (ws.getD 2 0).toNat⟩

/-- The channel runs the operation of a tag. -/
def CollChan.runs (x : CollChan) (tag : BitVec 32) : Bool := x.phase == .run && x.op.isSome && recTag x.record == tag

/-- The packet names an operation that the channel has completed last, and is late. -/
def CollChan.late (x : CollChan) (tag : BitVec 32) : Bool := !x.runs tag && x.lastTag == some tag

/-- The first record of a type that can be taken, which leaves the gate's list. A record of a ward that does not own its channel
is discarded and counted (R369); one of an operation not fired yet stays, unless it is an ARRIVE. -/
def State.takeRecord (s : State) (g rtype : Nat) : Option (Nat × CRecord × State) :=
  match (s.gate g).records.find? (fun p =>
    let r := CRecord.ofWords (ctlMessage p).words
    r.rtype == rtype && (s.collWard g r.chan != some p.ward || rtype == arriveType ||
      (s.coll (32 * g + r.chan)).runs r.tag || (s.coll (32 * g + r.chan)).late r.tag)) with
  | none => none
  | some p =>
    let x := s.gate g
    let s1 := s.setGate g { x with records := x.records.erase p }
    let r := CRecord.ofWords (ctlMessage p).words
    if s.collWard g r.chan ≠ some p.ward then some (512, r, s1.bump (.gateStale g) 1) else some (32 * g + r.chan, r, s1)

/-- Block-internal messages that are no control record are discarded (R378). -/
def State.dropReserved (s : State) (g : Nat) : State :=
  let x := s.gate g
  s.setGate g { x with records := x.records.filter (fun p =>
    let t := (CRecord.ofWords (ctlMessage p).words).rtype
    decide (1 ≤ t) && decide (t ≤ 3)) }

/-- A control record is taken and `f` says what it does to its channel. -/
def State.onRecord (s : State) (g rtype : Nat) (f : State → Nat → CRecord → State) : State :=
  if !s.gateMoves g then s
  else
    let s0 := (s.collSettle g).dropReserved g
    match s0.takeRecord g rtype with
    | none => s0
    | some (k, r, s1) =>
      ((if 512 ≤ k ∨ (s1.coll k).late r.tag then s1 else f s1 k r).collSettle g).touch (s.gateAt g)

/-- COLL_ARRIVE_RECEIVE: the root stamps it. -/
def Coll.arriveReceive (g : Nat) (s : State) : State := s.onRecord g arriveType (fun a k r => a.collStamp k r.tag r.rank)

def execCollArriveReceive (g : Nat) (s : State) : Host.Outcome State Fault Refusal := .next (Coll.arriveReceive g s)

/-- COLL_READY_RECEIVE: the tally, or a chunk, may go up. -/
def Coll.readyReceive (g : Nat) (s : State) : State :=
  s.onRecord g readyType (fun a k r => match (a.coll k).op with
    | some o => a.setOp k { o with readies := o.readies ++ [(r.tree, if r.arg = noIndex then none else some r.arg)] }
    | none => a)

def execCollReadyReceive (g : Nat) (s : State) : Host.Outcome State Fault Refusal := .next (Coll.readyReceive g s)

/-- COLL_ABORT_RECEIVE: the operation aborts with REMOTE, which forwards the ABORT once. -/
def Coll.abortReceive (g : Nat) (s : State) : State := s.onRecord g abortType (fun a k _ => a.collAbort k 4)

def execCollAbortReceive (g : Nat) (s : State) : Host.Outcome State Fault Refusal := .next (Coll.abortReceive g s)

/-- ARRIVE_RESEND_EXPIRE: 1 µs after its ARRIVE a member whose tally has not been fixed sends it again. -/
def Coll.arriveResend (g c : Nat) (s : State) : State :=
  let k := 32 * g + c
  match (s.coll k).phase, (s.coll k).op with
  | .run, some o =>
    if !s.gateMoves g ∨ o.isRoot false ∨ o.final.isSome then s
    else match s.gateDue (o.arriveAt + 1000) with
      | none => s
      | some s1 => ((s1.setOp k { o with arriveAt := s1.gateNow }).collRecord k arriveType o false 0 o.rootA).collSettle g
  | _, _ => s

def execArriveResendExpire (g c : Nat) (s : State) : Host.Outcome State Fault Refusal := .next (Coll.arriveResend g c s)

/-! ## Fragments (R377, R383, R387) -/

/-- The channel can take a fragment: of a tally once it is fired, of a chunk once its buffer is on the tree. -/
def CollChan.canTake (x : CollChan) (f : Frag) : Bool :=
  x.runs f.tag && match x.op with
    | some o => f.ckind == 1 || f.ckind == 2 || o.chunks.any (fun c => c.index == f.chunk && c.tree)
    | none => false

/-- The first fragment of a kind that can be taken, or is late, leaves the gate's list. -/
def State.takeFrag (s : State) (g ckind : Nat) : Option (Nat × Frag × State) :=
  match (s.gate g).chunks.find? (fun p =>
    let f := Frag.ofBytes p.body
    let x := s.coll (32 * g + p.chan)
    p.ty == 4 && f.ckind == ckind && (x.canTake f || x.late f.tag)) with
  | none => none
  | some p =>
    let x := s.gate g
    some (32 * g + p.chan, Frag.ofBytes p.body, s.setGate g { x with chunks := x.chunks.erase p })

/-- A fragment is taken and `act` says what it does to its operation. -/
def State.onFrag (s : State) (g ckind : Nat) (act : State → Nat → CollOp → Frag → State) : State :=
  if !s.gateMoves g then s
  else
    let s0 := s.collSettle g
    match s0.takeFrag g ckind with
    | none => s0
    | some (k, f, s1) =>
      ((match (s1.coll k).op with
        | some o => if (s1.coll k).runs f.tag ∧ f.size = o.size then act s1 k o f else s1
        | none => s1).collSettle g).touch (s.gateAt g)

/-- Entries of a tally fragment. -/
def Frag.entries (f : Frag) : List HEntry := (codesOf Fmt.grid64 f.count f.data).map HEntry.ofWord

/-- A tally with one more fragment: its head, or entries. -/
def HTally.take (t : Option HTally) (f : Frag) : Option HTally :=
  if f.block = noIndex then some ⟨THead.ofBytes f.data, []⟩ else t.map (fun x => { x with entries := x.entries ++ f.entries })

/-- TALLY_UP_RECEIVE: a child's tally; one whose record disagrees aborts the operation (R380). -/
def Coll.tallyUp (g : Nat) (s : State) : State :=
  s.onFrag g 1 (fun a k o f =>
    if !(o.children false).contains f.rank then a
    else match HTally.take (Tbl.get none o.kids f.rank) f with
      | none => a
      | some t =>
        if !(o.ownHead (a.coll k).record).agrees t.head then a.collAbort k 3
        else a.setOp k { o with kids := Tbl.set none o.kids f.rank (some t) })

def execTallyUpReceive (g : Nat) (s : State) : Host.Outcome State Fault Refusal := .next (Coll.tallyUp g s)

/-- TALLY_DOWN_RECEIVE: the final tally; whole, it is passed on. -/
def Coll.tallyDown (g : Nat) (s : State) : State :=
  s.onFrag g 2 (fun a k o f =>
    if o.parent false ≠ some f.rank ∨ o.agreed then a
    else
      let o1 := { o with final := HTally.take o.final f }
      let a1 := a.setOp k o1
      if o1.agreed then a1.collAgree k o1 else a1)

def execTallyDownReceive (g : Nat) (s : State) : Host.Outcome State Fault Refusal := .next (Coll.tallyDown g s)

/-- The block of a data fragment. -/
def Frag.blockOf (f : Frag) : CBlock := ⟨f.fmt, codesOf f.fmt f.count f.data⟩

/-- DATA_UP_RECEIVE: a block of a child's chunk, or of the source's at the root. -/
def Coll.dataUp (g : Nat) (s : State) : State :=
  s.onFrag g 3 (fun a k o f => match o.chunks.find? (fun c => c.index == f.chunk) with
    | some c => a.setOp k (o.setChunk { c with kids := Tbl.upd [] c.kids f.rank (· ++ [f.blockOf]) })
    | none => a)

def execDataUpReceive (g : Nat) (s : State) : Host.Outcome State Fault Refusal := .next (Coll.dataUp g s)

/-- DATA_DOWN_RECEIVE: a block of the total. -/
def Coll.dataDown (g : Nat) (s : State) : State :=
  s.onFrag g 4 (fun a k o f => match o.chunks.find? (fun c => c.index == f.chunk) with
    | some c => if o.parent (f.chunk % 2 == 1) = some f.rank then a.setOp k (o.setChunk { c with total := c.total ++ [f.blockOf] }) else a
    | none => a)

def execDataDownReceive (g : Nat) (s : State) : Host.Outcome State Fault Refusal := .next (Coll.dataDown g s)

/-! ## The switch path (R390 to R395) -/

/-- The first packet that `pick` chooses leaves the gate's list. -/
def State.takeSwitched (s : State) (g : Nat) (pick : FPkt → Bool) : Option (FPkt × State) :=
  match (s.gate g).chunks.find? pick with
  | none => none
  | some p =>
    let x := s.gate g
    some (p, s.setGate g { x with chunks := x.chunks.erase p })

/-- SW_CONTRIB_RECEIVE: a contribution or release that reaches a gate is discarded. -/
def Coll.contribReceive (g : Nat) (s : State) : State :=
  if !s.gateMoves g then s
  else match s.takeSwitched g FPkt.switched with
    | some (_, s1) => s1
    | none => s

def execSwContribReceive (g : Nat) (s : State) : Host.Outcome State Fault Refusal := .next (Coll.contribReceive g s)

/-- How long an advertisement holds, in ns. -/
def advertLife : Nat := 100000000

/-- SW_CAPACITY_RECEIVE: the capacity is stored for every valid group with the SW_TAG (R390). -/
def Coll.capacityReceive (g : Nat) (s : State) : State :=
  if !s.gateMoves g then s
  else match s.takeSwitched g (fun p => p.ty == 5 && p.body.headD 0 == 1) with
    | none => s
    | some (p, s1) =>
      (List.range 64).foldl (fun (a : State) j =>
        let v := a.obj (Obj.group g j)
        if grpValid v && grpSwTag v == leAt p.body 2 2 % 4096 then
          let b := a.setObj (Obj.swCap g j) (BitVec.ofNat 64 (leAt p.body 4 4))
          { b with col := { b.col with capEnds := Tbl.set 0 b.col.capEnds (64 * g + j) (b.now + advertLife + 1) } }
        else a) s1

def execSwCapacityReceive (g : Nat) (s : State) : Host.Outcome State Fault Refusal := .next (Coll.capacityReceive g s)

/-- SW_CAP_EXPIRE: 100 ms have passed without an advertisement. -/
def Coll.capExpire (g j : Nat) (s : State) : State :=
  match Tbl.get 0 s.col.capEnds (64 * g + j) with
  | 0 => s
  | t + 1 =>
    if !s.running ∨ 64 ≤ j then s
    else
      let s1 := (s.advanceTo t).setObj (Obj.swCap g j) 0
      { s1 with col := { s1.col with capEnds := Tbl.set 0 s1.col.capEnds (64 * g + j) 0 } }

def execSwCapExpire (g j : Nat) (s : State) : Host.Outcome State Fault Refusal := .next (Coll.capExpire g j s)

/-- The operation and chunk on the switch path that a packet of the switch names, by SW_TAG, OP_TAG, CHUNK and ATTEMPT. -/
def State.switchChunk (s : State) (k swTag tag chunk attempt : Nat) : Option (CollOp × CollChunk) :=
  let x := s.coll k
  match x.op with
  | some o =>
    if !x.runs (BitVec.ofNat 32 tag) ∨ s.collSwTag k ≠ swTag % 4096 then none
    else (o.chunks.find? (fun c => c.index == chunk && !c.tree && c.attempt == attempt && c.wait.isNone && decide (0 < c.sends))).map (fun c => (o, c))
  | none => none

/-- SW_RESULT_RECEIVE: a block of the switch's sum (R391). -/
def Coll.resultReceive (g : Nat) (s : State) : State :=
  if !s.gateMoves g then s
  else match s.takeSwitched g (fun p => p.ty == 5 && p.body.headD 0 == 2) with
    | none => s
    | some (p, s1) =>
      let k := 32 * g + p.chan
      let b := p.body
      match s1.switchChunk k (leAt b 2 2) (leAt b 4 4) (leAt b 8 4) (leAt b 18 1) with
      | none => s1
      | some (o, c) =>
        let i := leAt b 12 4 - c.index * o.chunkBlocks
        let blk : CBlock := ⟨Fmt.grid32, codesOf Fmt.grid32 (leAt b 16 2) (b.drop 32)⟩
        ((s1.setOp k (o.setChunk { c with results := Tbl.set none c.results i (some blk) })).collSettle g).touch (s.gateAt g)

def execSwResultReceive (g : Nat) (s : State) : Host.Outcome State Fault Refusal := .next (Coll.resultReceive g s)

/-- SW_REFUSE_RECEIVE: the attempt is over; the member waits before the next, or the chunk falls back to its tree (R392). -/
def Coll.refuseReceive (g : Nat) (s : State) : State :=
  if !s.gateMoves g then s
  else match s.takeSwitched g (fun p => p.ty == 6) with
    | none => s
    | some (p, s1) =>
      let k := 32 * g + p.chan
      let b := p.body
      let s2 := s1.bump (.coRefusals k) 1
      match s2.switchChunk k (leAt b 2 2) (leAt b 4 4) (leAt b 8 4) (leAt b 1 1) with
      | none => s2
      | some (o, c) =>
        if c.attempt < recTries (s2.coll k).record then
          s2.setOp k (o.setChunk { c with wait := some (s2.gateNow + 64 * 2 ^ min c.attempt 10), results := [] })
        else ((s2.setOp k (o.setChunk { c with tree := true, results := [] })).collSettle g).touch (s.gateAt g)

def execSwRefuseReceive (g : Nat) (s : State) : Host.Outcome State Fault Refusal := .next (Coll.refuseReceive g s)

/-- A chunk of a running operation. -/
def State.runChunk (s : State) (k chunk : Nat) : Option (CollOp × CollChunk) :=
  match (s.coll k).phase, (s.coll k).op with
  | .run, some o => (o.chunks.find? (fun c => c.index == chunk)).map (fun c => (o, c))
  | _, _ => none

/-- SW_RETRY_BACKOFF_EXPIRE: the next attempt is sent. -/
def Coll.retryExpire (g c chunk : Nat) (s : State) : State :=
  let k := 32 * g + c
  match s.runChunk k chunk with
  | none => s
  | some (o, ch) =>
    match ch.wait with
    | none => s
    | some t =>
      if !s.gateMoves g then s
      else match s.gateDue t with
        | none => s
        | some s1 => (s1.swSend k o { ch with attempt := ch.attempt + 1, sends := 0, wait := none }).collSettle g

def execSwRetryBackoffExpire (g c : Nat) (chunk : BitVec 32) (s : State) : Host.Outcome State Fault Refusal :=
  .next (Coll.retryExpire g c chunk.toNat s)

/-- SW_ATTEMPT_TIMEOUT: the attempt is sent again, or the operation aborts with SWITCH_LOST (R393). -/
def Coll.attemptTimeout (g c chunk : Nat) (s : State) : State :=
  let k := 32 * g + c
  match s.runChunk k chunk with
  | none => s
  | some (o, ch) =>
    if ch.tree ∨ ch.sends = 0 ∨ ch.wait.isSome ∨ ch.downSent ∨ !s.gateMoves g then s
    else match s.gateDue ch.due with
      | none => s
      | some s1 =>
        (if s.rd (.retxLimit g) < ch.sends then s1.collAbort k 2 else s1.swSend k o ch).collSettle g

def execSwAttemptTimeout (g c : Nat) (chunk : BitVec 32) (s : State) : Host.Outcome State Fault Refusal :=
  .next (Coll.attemptTimeout g c chunk.toNat s)

/-! ## The store -/

/-- STORE_ALLOC_GRANT (R386). -/
def Coll.allocGrant (g : Nat) (s : State) : State :=
  if !s.gateMoves g then s else (((s.collSettle g).storeGrant g).collSettle g).touch (s.gateAt g)

def execStoreAllocGrant (g : Nat) (s : State) : Host.Outcome State Fault Refusal := .next (Coll.allocGrant g s)

/-- The back-off of channel `c` at the store of gate `g` ends: it asks again (R255, R386). -/
def State.storeRetry (s : State) (g c : Nat) : State :=
  let st := s.collStore g
  match Tbl.get 0 st.retryAt c with
  | 0 => s
  | t + 1 => match s.gateDue t with
    | none => s
    | some s1 => (s1.setCollStore g { st with retryAt := Tbl.set 0 st.retryAt c 0 }).collSettle g

/-! ## Objects (R400 to R407) -/

/-- The channel is active: not IDLE and not HALTED. -/
def State.collActive (s : State) (k : Nat) : Bool := s.rd (.coState k) != 0 && s.rd (.coState k) != 4

/-- A channel of the gate holds store, or is active (R81, R402). -/
def State.gateCollBusy (s : State) (g : Nat) : Bool := (List.range 32).any (fun c => s.collActive (32 * g + c))

/-- HALL_TOPO. -/
def Coll.writeTopo (gates : Nat) (v : Val) : Effect := fun s =>
  let es := hallExtents v
  if (List.range gates).any (fun g => (List.range 64).any (fun j => grpValid (s.obj (Obj.group g j)))) then .error .inUse
  else if es.contains 0 ∨ 4096 < es.foldl (· * ·) 1 then .error .outOfRange
  else .ok (s.setObj Obj.hallTopo v)

/-- STORE_CFG. -/
def Coll.writeStore (g : Nat) (v : Val) : Effect := fun s =>
  if s.gateCollBusy g then .error .inUse
  else if fget v 0 11 = 0 ∨ 1024 < fget v 0 11 then .error .outOfRange
  else .ok (s.setObj (Obj.storeCfg g) v)

/-- A channel uses the group: its operation's record names it. -/
def State.groupUsed (s : State) (g j : Nat) : Bool :=
  (List.range 32).any (fun c =>
    let x := s.coll (32 * g + c)
    (x.phase == .wait || x.phase == .run) && recGroup x.record == j)

/-- GROUP. Its range checks hold whether or not VALID is set. -/
def Coll.writeGroup (g j : Nat) (v : Val) : Effect := fun s =>
  let es := hallExtents (s.obj Obj.hallTopo)
  let own := (s.obj Obj.pkgNumber).toNat
  let block := !inHall es (grpCorner0 v) || !inHall es (grpCorner1 v) || !(grpPackages es v own).contains own
  if s.groupUsed g j then .error .inUse
  else if grpDie v ≠ s.dieBits ∨ grpGate v ≠ g then .error .outOfRange
  else if grpAxis v then (if grpCorner0 v % 16 = 0 then .error .outOfRange else .ok (s.setObj (Obj.group g j) v))
  else if block then .error .outOfRange
  else .ok (s.setObj (Obj.group g j) v)

/-- TRIP: a write sets the value, and channels that wait on it are examined. -/
def Coll.writeTrip (g c : Nat) (v : Val) : Effect := fun s => .ok (((s.setObj (Obj.collTrip g c) v).collExamine g c).collSettle g)

/-- TRIP_WARD: refused while a channel waits on the counter. -/
def Coll.writeTripWard (g c : Nat) (v : Val) : Effect := fun s =>
  if (List.range 32).any (fun i => (s.coll (32 * g + i)).phase == .wait && recCtr (s.coll (32 * g + i)).record == c) then .error .inUse
  else .ok (s.setObj (Obj.collTripWard g c) v)

/-- COLL_CFG: SHARE and QUANTUM are at least 1; refused while the channel uses its share. -/
def Coll.writeCfg (k : Nat) (v : Val) : Effect := fun s =>
  if s.collActive k then .error .inUse
  else if fget v 16 8 = 0 ∨ fget v 8 8 = 0 then .error .outOfRange
  else .ok (s.setObj (Obj.collCfg k) v)

/-- The ring lies within a host window of the die and does not cross its end (R371). `spans` are the host windows. -/
def ringFits (spans : List (Nat × Nat)) (base slots : Nat) : Bool :=
  base % 128 == 0 && spans.any (fun w => decide (w.1 ≤ base) && decide (base + 128 * slots ≤ w.2))

/-- OP_RING_BASE, OP_RING_SIZE_M1 and OP_RING_HEAD accept writes only in IDLE. -/
def Coll.writeRing (spans : List (Nat × Nat)) (k key : Nat) (v : Val) : Effect := fun s =>
  let size := (s.obj (Obj.opRingSizeM1 k)).toNat
  let base := (s.obj (Obj.opRingBase k)).toNat
  if s.rd (.coState k) ≠ 0 then .error .inUse
  else if key = Obj.opRingBase k ∧ !ringFits spans v.toNat (size + 1) then .error .outOfRange
  else if key = Obj.opRingSizeM1 k ∧ base ≠ 0 ∧ !ringFits spans base (v.toNat + 1) then .error .outOfRange
  else if key = Obj.opRingHead k ∧ size < v.toNat then .error .outOfRange
  else .ok (s.setObj key v)

/-- COLL_STAT cleared. -/
def Coll.clearStat (k : Nat) : Effect := fun s => .ok (s.setObj (Obj.collStat k) 0)

def execCollStatClear (acc : Access) (g c : Nat) (s : State) : Host.Outcome State Fault Refusal :=
  .next (s.serveKey acc (Obj.collStat (32 * g + c)) 0 (fun _ => Coll.clearStat (32 * g + c)))

/-- LAG_TABLE as it reads (R407). -/
def State.lagBytes (s : State) (k : Nat) : List Byte :=
  let x := s.coll k
  leBytes 2 1 ++ leBytes 2 x.lagRanks ++ leBytes 4 x.lagTag.toNat ++ (List.range x.lagRanks).flatMap (fun r =>
    leBytes 4 ((Tbl.get none x.lags r).getD 0xFFFFFFFF) ++ leBytes 4 (Tbl.get 0 x.slowCounts r))

/-- An increment that reaches gate `g`, or the reason for which it is refused (R216, R291, R292). -/
def Coll.increment (g n : Nat) (m : CtlMsg) (s : State) : State × Option (BitVec 4) :=
  let c := m.sock.toNat
  let v := s.obj (Obj.collTripWard g c)
  if s.outerFails n 5 m then (s, some Nak.corrupt)
  else if fget v 7 1 = 0 then (s, some Nak.noCounter)
  else if fget v 0 4 ≠ m.ward.toNat then (s, some Nak.ward)
  else if s.junctionLost n ∨ s.wardReclaiming m.ward then (s, some Nak.notReady)
  else if m.words.length ≠ 1 then (s, some Nak.malformed)
  else ((((s.countEv 0x34 n (some m.ward) 1).bump ⟨Obj.collTrip g c, 0, 32⟩ (m.words.headD 0).toNat).collExamine g c).collSettle g, none)

end Sys2Proof.Machine
end

