-- ==== Sys2Proof/Machine/GateHooks.lean ====
section
/-! DEFINITION. Commands of the gates, links and planes after which the collective engine of a gate goes on: packets received
and sent, answers to the gate's own requests, room in its ingress, back-off waits. -/

namespace Sys2Proof.Machine

/-- The engine of the gate that is unit `u` goes on. -/
def State.settleUnit (s : State) (u : Nat) : State := if 0x80 ≤ u ∧ u < 0x90 then s.collSettle (u - 0x80) else s

/-- FABRIC_PACKET_RECEIVE (R342, R349). -/
def Gate.fabricReceive (g : Nat) (bs : List Byte) (s : State) : State :=
  let r := Gate.packetReceive g bs s
  match r.2 with
  | some peer => (r.1.collPeerLost g peer).collSettle g
  | none => r.1.collSettle g

def execFabricPacketReceive (g : Nat) (bytes : List (BitVec 8)) (s : State) : Host.Outcome State Fault Refusal :=
  .next (Gate.fabricReceive g bytes s)

/-- RETX_TIMEOUT_EXPIRE (R351). -/
def Gate.retxExpire (g : Nat) (peer : BitVec 22) (c : Nat) (seq : BitVec 32) (s : State) : State :=
  let r := Gate.retxTimeout g peer c seq s
  if r.2 then (r.1.collPeerLost g peer).collSettle g else r.1

def execRetxTimeoutExpire (g : Nat) (peer : BitVec 22) (cls : BitVec 2) (seq : BitVec 32) (s : State) : Host.Outcome State Fault Refusal :=
  .next (Gate.retxExpire g peer cls.toNat seq s)

/-- GATE_CFG is written, and the gate's engine goes on. With ENABLE 0 every connection goes, and with it the chunks on it (R351,
R360). -/
def Gate.setCfg (g : Nat) (v : Val) : Effect := fun s =>
  match Gate.writeCfg g v s with
  | .error a => .error a
  | .ok s1 =>
    let peers := if fget v 31 1 = 0 then (s.gate g).conns.map (·.peer) else []
    .ok ((peers.foldl (fun (a : State) p => a.collPeerLost g p) s1).collSettle g)

def execGateCfgWrite (acc : Access) (g : Nat) (v : BitVec 32) (s : State) : Host.Outcome State Fault Refusal :=
  .next (s.serveKey acc (Obj.gateCfg g) (v.setWidth 64) (Gate.setCfg g))

def execGateEgressSend (g : Nat) (s : State) : Host.Outcome State Fault Refusal := .next ((Gate.egressSend g s).collSettle g)

def execTxnResponseArrive (unit : Nat) (s : State) : Host.Outcome State Fault Refusal := .next ((Txn.responseArrive unit s).settleUnit unit)

def execTxnDataArrive (unit : Nat) (s : State) : Host.Outcome State Fault Refusal := .next ((Txn.dataArrive unit s).settleUnit unit)

/-- BACKOFF_EXPIRE: at a target's slots, on a path of the tile's own (`unit` 0x3F0 up), or, with `target` 0x300 + c at a gate, at its reduction store for channel c (R255, R386). -/
def Txn.backoffEnd (u target : Nat) (level : BitVec 2) (s : State) : State :=
  if 0x80 ≤ u ∧ u < 0x90 ∧ 0x300 ≤ target ∧ target < 0x320 then s.storeRetry (u - 0x80) (target - 0x300)
  else if pathUnitBase ≤ u then s.pathRetry u
  else Txn.backoffExpire u target level s

def execBackoffExpire (unit : Nat) (target : Nat) (level : BitVec 2) (s : State) : Host.Outcome State Fault Refusal :=
  .next (Txn.backoffEnd unit target level s)

/-- TENSOR_FLIT_ARRIVE: a flit that leaves the link into a gate's input makes room for the next of its results. -/
def Tensor.flitArrive (n inp : Nat) (flips : List Nat) (s : State) : State :=
  let s1 := Tensor.arrive n inp flips s
  if inp = 5 ∧ s.cfg.bKind n = 2 then s1.collSettle (s.cfg.bIndex n) else s1

def execTensorFlitArrive (n : Nat) (inp : Nat) (flips : List Nat) (s : State) : Host.Outcome State Fault Refusal :=
  .next (Tensor.flitArrive n inp flips s)

end Sys2Proof.Machine
end

