-- ==== Sys2Proof/Machine/Sha.lean ====
section
/-! DEFINITION. SHA-384 and the verification of ECDSA signatures over P-384, by the standards the manual names
(FIPS 180-4, FIPS 186-5, SEC 1): their constants are the standards', PRESUMED (R134, R135, R456, R461; assumption 20). -/

namespace Sys2Proof.Machine

/-! ## SHA-384 -/

/-- Round constants 0 to 19. -/
def shaK0 : List (BitVec 64) := [
  0x428A2F98D728AE22, 0x7137449123EF65CD, 0xB5C0FBCFEC4D3B2F, 0xE9B5DBA58189DBBC,
  0x3956C25BF348B538, 0x59F111F1B605D019, 0x923F82A4AF194F9B, 0xAB1C5ED5DA6D8118,
  0xD807AA98A3030242, 0x12835B0145706FBE, 0x243185BE4EE4B28C, 0x550C7DC3D5FFB4E2,
  0x72BE5D74F27B896F, 0x80DEB1FE3B1696B1, 0x9BDC06A725C71235, 0xC19BF174CF692694,
  0xE49B69C19EF14AD2, 0xEFBE4786384F25E3, 0x0FC19DC68B8CD5B5, 0x240CA1CC77AC9C65]

/-- Round constants 20 to 39. -/
def shaK1 : List (BitVec 64) := [
  0x2DE92C6F592B0275, 0x4A7484AA6EA6E483, 0x5CB0A9DCBD41FBD4, 0x76F988DA831153B5,
  0x983E5152EE66DFAB, 0xA831C66D2DB43210, 0xB00327C898FB213F, 0xBF597FC7BEEF0EE4,
  0xC6E00BF33DA88FC2, 0xD5A79147930AA725, 0x06CA6351E003826F, 0x142929670A0E6E70,
  0x27B70A8546D22FFC, 0x2E1B21385C26C926, 0x4D2C6DFC5AC42AED, 0x53380D139D95B3DF,
  0x650A73548BAF63DE, 0x766A0ABB3C77B2A8, 0x81C2C92E47EDAEE6, 0x92722C851482353B]

/-- Round constants 40 to 59. -/
def shaK2 : List (BitVec 64) := [
  0xA2BFE8A14CF10364, 0xA81A664BBC423001, 0xC24B8B70D0F89791, 0xC76C51A30654BE30,
  0xD192E819D6EF5218, 0xD69906245565A910, 0xF40E35855771202A, 0x106AA07032BBD1B8,
  0x19A4C116B8D2D0C8, 0x1E376C085141AB53, 0x2748774CDF8EEB99, 0x34B0BCB5E19B48A8,
  0x391C0CB3C5C95A63, 0x4ED8AA4AE3418ACB, 0x5B9CCA4F7763E373, 0x682E6FF3D6B2B8A3,
  0x748F82EE5DEFB2FC, 0x78A5636F43172F60, 0x84C87814A1F0AB72, 0x8CC702081A6439EC]

/-- Round constants 60 to 79. -/
def shaK3 : List (BitVec 64) := [
  0x90BEFFFA23631E28, 0xA4506CEBDE82BDE9, 0xBEF9A3F7B2C67915, 0xC67178F2E372532B,
  0xCA273ECEEA26619C, 0xD186B8C721C0C207, 0xEADA7DD6CDE0EB1E, 0xF57D4F7FEE6ED178,
  0x06F067AA72176FBA, 0x0A637DC5A2C898A6, 0x113F9804BEF90DAE, 0x1B710B35131C471B,
  0x28DB77F523047D84, 0x32CAAB7B40C72493, 0x3C9EBE0A15C9BEBC, 0x431D67C49C100D4C,
  0x4CC5D4BECB3E42B6, 0x597F299CFC657E2A, 0x5FCB6FAB3AD6FAEC, 0x6C44198C4A475817]

/-- The round constants. -/
def shaK : List (BitVec 64) := shaK0 ++ shaK1 ++ shaK2 ++ shaK3

/-- The initial value of SHA-384. -/
def shaInit : List (BitVec 64) := [
  0xCBBB9D5DC1059ED8, 0x629A292A367CD507, 0x9159015A3070DD17, 0x152FECD8F70E5939,
  0x67332667FFC00B31, 0x8EB44A8768581511, 0xDB0C2E0D64F98FA7, 0x47B5481DBEFA4FA4]

/-- The value of bytes, most significant first. -/
def ofBe (bs : List Byte) : Nat := bs.foldl (fun a b => a * 256 + b.toNat) 0

/-- The `n` bytes of `x`, most significant first. -/
def beBytes (n x : Nat) : List Byte := (List.range n).map (fun i => BitVec.ofNat 8 (x / 256 ^ (n - 1 - i)))

/-- The message with its padding, for blocks of 128 bytes. -/
def shaPad (m : List Byte) : List Byte :=
  m ++ [0x80] ++ List.replicate ((239 - m.length % 128) % 128) 0 ++ beBytes 16 (8 * m.length)

/-- The 16 words of a block. -/
def shaWords (b : List Byte) : List (BitVec 64) :=
  (List.range 16).map (fun i => BitVec.ofNat 64 (ofBe ((b.drop (8 * i)).take 8)))

def shaSmall0 (x : BitVec 64) : BitVec 64 := x.rotateRight 1 ^^^ x.rotateRight 8 ^^^ x >>> 7
def shaSmall1 (x : BitVec 64) : BitVec 64 := x.rotateRight 19 ^^^ x.rotateRight 61 ^^^ x >>> 6
def shaBig0 (x : BitVec 64) : BitVec 64 := x.rotateRight 28 ^^^ x.rotateRight 34 ^^^ x.rotateRight 39
def shaBig1 (x : BitVec 64) : BitVec 64 := x.rotateRight 14 ^^^ x.rotateRight 18 ^^^ x.rotateRight 41

/-- One round: the working variables, the last sixteen schedule words, and a constant. -/
def shaRound (st : List (BitVec 64) × List (BitVec 64)) (k : BitVec 64) : List (BitVec 64) × List (BitVec 64) :=
  match st.1 with
  | [a, b, c, d, e, f, g, h] =>
    let w := st.2.headD 0
    let t1 := h + shaBig1 e + ((e &&& f) ^^^ (~~~e &&& g)) + k + w
    let t2 := shaBig0 a + ((a &&& b) ^^^ (a &&& c) ^^^ (b &&& c))
    let nw := shaSmall1 (st.2.getD 14 0) + st.2.getD 9 0 + shaSmall0 (st.2.getD 1 0) + w
    ([t1 + t2, a, b, c, d + t1, e, f, g], st.2.drop 1 ++ [nw])
  | _ => st

/-- A block into the chaining value. -/
def shaBlock (h : List (BitVec 64)) (b : List Byte) : List (BitVec 64) :=
  List.zipWith (· + ·) h (shaK.foldl shaRound (h, shaWords b)).1

/-- SHA-384 of a message. -/
def sha384 (m : List Byte) : List Byte :=
  let p := shaPad m
  let h := (List.range (p.length / 128)).foldl (fun a i => shaBlock a ((p.drop (128 * i)).take 128)) shaInit
  (h.take 6).flatMap (fun w => beBytes 8 w.toNat)

/-! ## ECDSA over P-384 -/

/-- The field, the order, the coefficient b and the base point of P-384. -/
def p384P : Nat := 2 ^ 384 - 2 ^ 128 - 2 ^ 96 + 2 ^ 32 - 1
def p384N : Nat := 0xffffffffffffffffffffffffffffffffffffffffffffffffc7634d81f4372ddf581a0db248b0a77aecec196accc52973
def p384B : Nat := 0xb3312fa7e23ee7e4988e056be3f82d19181d9c6efe8141120314088f5013875ac656398d8a2ed19d2a85c8edd3ec2aef
def p384Gx : Nat := 0xaa87ca22be8b05378eb1c71ef320ad746e1d3b628ba79b9859f741e082542a385502f25dbf55296c3a545e3872760ab7
def p384Gy : Nat := 0x3617de4a96262c6f5d9e98bf9292dc29f8f41dbd289a147ce9da3113b5f0b8c00a60b1ce1d7e819d7a431d7c90ea0e5f

/-- b^e modulo m, over the low `k` bits of e. -/
def powMod (b e m : Nat) : Nat → Nat
  | 0 => 1 % m
  | k + 1 =>
    let r := powMod b (e / 2) m k
    r * r % m * (if e % 2 = 1 then b else 1) % m

/-- The inverse modulo a prime of at most 384 bits. -/
def invMod (x m : Nat) : Nat := powMod (x % m) (m - 2) m 384

/-- The sum of two points; `none` is the point at infinity. -/
def ecAdd (a b : Option (Nat × Nat)) : Option (Nat × Nat) :=
  match a, b with
  | none, q => q
  | q, none => q
  | some (x1, y1), some (x2, y2) =>
    let p := p384P
    if x1 = x2 ∧ (y1 + y2) % p = 0 then none
    else
      let l := if x1 = x2 then (3 * x1 * x1 + (p - 3)) % p * invMod (2 * y1) p % p
        else (y2 + p - y1) % p * invMod (x2 + p - x1) p % p
      let x3 := (l * l + 2 * p - x1 - x2) % p
      some (x3, (l * (x1 + p - x3) + p - y1) % p)

/-- `k` times a point, over the low `n` bits of `k`. -/
def ecMul (k : Nat) (q : Option (Nat × Nat)) : Nat → Option (Nat × Nat)
  | 0 => none
  | n + 1 =>
    let r := ecMul (k / 2) q n
    let d := ecAdd r r
    if k % 2 = 1 then ecAdd d q else d

/-- A point lies on the curve. -/
def ecOn (x y : Nat) : Bool :=
  decide (x < p384P) && decide (y < p384P) && (y * y % p384P == (x * x % p384P * x + (p384P - 3) * x + p384B) % p384P)

/-- The signature of `sig` (r, then s, 48 bytes each) over the digest of `msg` verifies under the public key `key` in
SEC 1 uncompressed form, 97 bytes (R135). -/
def ecdsaVerify (key msg sig : List Byte) : Bool :=
  let x := ofBe ((key.drop 1).take 48)
  let y := ofBe ((key.drop 49).take 48)
  let r := ofBe (sig.take 48)
  let s := ofBe ((sig.drop 48).take 48)
  let z := ofBe (sha384 msg)
  if key.headD 0 ≠ 4 ∨ !ecOn x y ∨ r = 0 ∨ s = 0 ∨ p384N ≤ r ∨ p384N ≤ s then false
  else
    let w := invMod s p384N
    match ecAdd (ecMul (z * w % p384N) (some (p384Gx, p384Gy)) 384) (ecMul (r * w % p384N) (some (x, y)) 384) with
    | some (px, _) => px % p384N == r
    | none => false

end Sys2Proof.Machine
end

