-- ==== Sys2Proof/Machine/Image.lean ====
section
/-! DEFINITION. The schedule image: its sections, and the load checks over it, in their order (R130 to R137, R150,
R168). -/

namespace Sys2Proof.Machine

/-- Where a load fails: the code, junction, list and entry of LOAD_STATUS (R137, R153). -/
structure ImgFail where
  code : Nat
  junction : Nat
  list : Nat
  entry : Nat
  deriving DecidableEq, Repr

/-- A failure without a position. -/
def ImgFail.at_ (code : Nat) : ImgFail := ⟨code, 0x7F, 0xF, 0x1FFF⟩

/-- A flow-table entry (R131). -/
structure ImgFlow where
  flow : Nat
  kind : Nat
  port : Nat
  junction : Nat
  runs : Nat
  flits : Nat
  raw : List Byte
  deriving DecidableEq, Repr

/-- A junction record (R132). -/
structure ImgRec where
  junction : Nat
  bank : Bank
  raw : List Byte
  deriving DecidableEq, Repr

/-- An image: its header fields, its sections and its bytes (R130). -/
structure Img where
  bytes : List Byte
  id : BitVec 32
  owner : Nat
  build : Nat
  distGen : Nat
  sigOff : Nat
  digest : List Byte
  flows : List ImgFlow
  recs : List ImgRec
  bounds : List (List Byte)
  deriving DecidableEq, Repr

/-! ## Sections -/

/-- `count` pieces of `size` bytes from the front of `bs`. -/
def pieces (size : Nat) : Nat → List Byte → List (List Byte)
  | 0, _ => []
  | k + 1, bs => bs.take size :: pieces size k (bs.drop size)

def ImgFlow.ofBytes (b : List Byte) : ImgFlow :=
  ⟨leAt b 0 2, leAt b 2 1, leAt b 3 1, leAt b 4 1, leAt b 6 2, leAt b 8 4, b⟩

/-- Lists of the given lengths, in entries of `size` bytes, and the bytes behind them. -/
def cutLists (size : Nat) : List Nat → List Byte → List (List (List Byte)) × List Byte
  | [], bs => ([], bs)
  | n :: t, bs =>
    let r := cutLists size t (bs.drop (size * n))
    (pieces size n bs :: r.1, r.2)

/-- The six lengths of a junction head (R132). -/
def recOutLens (b : List Byte) : List Nat := (List.range 6).map (fun o => leAt b (4 + 2 * o) 2)
def recInLens (b : List Byte) : List Nat := (List.range 6).map (fun i => leAt b (16 + 2 * i) 2)

/-- Bytes of the record whose head is at the front of `b`. -/
def recSize (b : List Byte) : Nat := 32 + 4 * (recOutLens b).sum + 8 * (recInLens b).sum + 32 * leAt b 1 1

def ImgRec.ofBytes (b : List Byte) : ImgRec :=
  let o := cutLists 4 (recOutLens b) (b.drop 32)
  let i := cutLists 8 (recInLens b) o.2
  ⟨leAt b 0 1,
    ⟨o.1.map (fun l => l.map (fun e => BitVec.ofNat 32 (ofLe e))),
      i.1.map (fun l => l.map (fun e => BitVec.ofNat 64 (ofLe e))), pieces 32 (leAt b 1 1) i.2⟩, b⟩

/-- Up to `k` records that lie wholly within `bs`; `none` where one does not, or bytes are left over. -/
def cutRecs : Nat → List Byte → Option (List ImgRec)
  | 0, bs => if bs.isEmpty then some [] else none
  | k + 1, bs =>
    if bs.length < 32 ∨ bs.length < recSize bs then none
    else (cutRecs k (bs.drop (recSize bs))).map (fun t => ImgRec.ofBytes (bs.take (recSize bs)) :: t)

/-! ## 0x01 FORMAT (R130 to R133, R137) -/

def zeroAt (bs : List Byte) (at_ k : Nat) : Bool := leAt bs at_ k == 0

/-- The header's own values and the order of the sections. -/
def headerOk (bs : List Byte) : Bool :=
  let flows := leAt bs 20 2
  let bounds := leAt bs 24 4
  decide (128 ≤ bs.length) && leAt bs 0 2 == 1 && leAt bs 2 2 == 0x80 && leAt bs 4 4 == bs.length &&
    decide (bs.length ≤ 0x01800000) && leAt bs 12 1 / 16 == 0 && decide (flows ≤ 3840) &&
    decide (1 ≤ leAt bs 22 1) && decide (leAt bs 22 1 ≤ 120) && zeroAt bs 23 1 && zeroAt bs 44 36 &&
    leAt bs 28 4 == 128 && leAt bs 32 4 == 128 + 16 * flows && decide (128 + 16 * flows ≤ leAt bs 36 4) &&
    leAt bs 40 4 == leAt bs 36 4 + 12 * bounds && bs.length == leAt bs 40 4 + 200

/-- The flow table is sorted and its reserved fields are zero (R131). DESIGN CHOICE (log 126): a table out of order fails here; R137 does
not say which check takes it. -/
def flowsOk : Option Nat → List ImgFlow → Bool
  | _, [] => true
  | lo, f :: t =>
    (match lo with
      | none => true
      | some l => decide (l < f.flow)) && zeroAt f.raw 5 1 && zeroAt f.raw 12 4 && flowsOk (some f.flow) t

/-- Reserved fields of an output entry are zero (R119). -/
def outReservedOk (e : BitVec 32) : Bool :=
  if outOp e = 1 then e.extractLsb' 28 2 == 0 else if outOp e = 2 then e.extractLsb' 8 18 == 0 else true

/-- Reserved fields of an intake entry are zero (R120). -/
def inReservedOk (e : BitVec 64) : Bool := e.extractLsb' 20 12 == 0

/-- Slots rise from join to join (R132). -/
def slotsRise : List (List Byte) → Bool
  | a :: b :: t => decide (joinSlot a < joinSlot b) && slotsRise (b :: t)
  | _ => true

/-- The first position in `ls` at which `bad` holds, as list and entry. -/
def firstBad {α : Type} (bad : α → Bool) (ls : List (List α)) : Option (Nat × Nat) :=
  ls.zipIdx.findSome? (fun p => (p.1.findIdx? bad).map (fun e => (p.2, e)))

/-- The format of one record. DESIGN CHOICE (log 126): join records out of ascending SLOT fail here, as 0x01; R137 does not say which
check takes them. -/
def ImgRec.formatFail (r : ImgRec) : Option ImgFail :=
  if leAt r.raw 1 1 > 16 ∨ !zeroAt r.raw 2 2 ∨ (recOutLens r.raw).any (fun n => decide (4096 < n)) ∨
      (recInLens r.raw).any (fun n => decide (1024 < n)) then some ⟨0x01, r.junction, 0xF, 0x1FFF⟩
  else match firstBad (fun e => !outReservedOk e) r.bank.outs with
    | some p => some ⟨0x01, r.junction, p.1, p.2⟩
    | none => match firstBad (fun e => !inReservedOk e) r.bank.ins with
      | some p => some ⟨0x01, r.junction, 6 + p.1, p.2⟩
      | none => if slotsRise r.bank.joins then none else some ⟨0x01, r.junction, 0xC, 0x1FFF⟩

/-- Junction numbers rise from record to record (DESIGN CHOICE, log 126). -/
def recsRise : List ImgRec → Bool
  | a :: b :: t => decide (a.junction < b.junction) && recsRise (b :: t)
  | _ => true

/-- A bound record (R133). DESIGN CHOICE (log 127): one with OUTPUT above 5, FLOW of 0x1000 or more, or S_DEN 0 fails as 0x01; R137 lists
no such check for the bound table. -/
def boundOk (b : List Byte) : Bool :=
  decide (leAt b 0 2 < 4096) && decide (leAt b 3 1 ≤ 5) && decide (leAt b 10 2 ≠ 0)

/-- The image in bytes `bs`, or the failure of FORMAT. -/
def parseImage (bs : List Byte) : Except ImgFail Img :=
  if !headerOk bs then .error (.at_ 0x01)
  else
    let flows := (pieces 16 (leAt bs 20 2) (bs.drop 128)).map ImgFlow.ofBytes
    let bounds := pieces 12 (leAt bs 24 4) (bs.drop (leAt bs 36 4))
    match cutRecs (leAt bs 22 1) ((bs.drop (leAt bs 32 4)).take (leAt bs 36 4 - leAt bs 32 4)) with
    | none => .error (.at_ 0x01)
    | some recs =>
      if !flowsOk none flows ∨ !recsRise recs ∨ !bounds.all boundOk then .error (.at_ 0x01)
      else match recs.findSome? ImgRec.formatFail with
        | some f => .error f
        | none => .ok ⟨bs, BitVec.ofNat 32 (leAt bs 8 4), leAt bs 12 1, leAt bs 13 1, leAt bs 16 4, leAt bs 40 4,
            (bs.drop 80).take 48, flows, recs, bounds⟩

/-! ## Looking up -/

def Img.flow? (m : Img) (f : Nat) : Option ImgFlow := m.flows.find? (fun x => x.flow == f)

def Img.runsOf (m : Img) (f : Nat) : Nat := ((m.flow? f).map ImgFlow.runs).getD 0

def Img.flitsOf (m : Img) (f : Nat) : Nat := ((m.flow? f).map ImgFlow.flits).getD 0

def Img.rec? (m : Img) (n : Nat) : Option ImgRec := m.recs.find? (fun r => r.junction == n)

def Img.bankOf (m : Img) (n : Nat) : Bank := ((m.rec? n).map ImgRec.bank).getD Bank.null

/-! ## 0x03 BUILD and 0x05 SIGNATURE (R135, R137) -/

def Img.buildFail (m : Img) (code njs : Nat) : Option ImgFail :=
  if m.build ≠ code then some (.at_ 0x03)
  else match m.recs.find? (fun r => decide (njs ≤ r.junction)) with
    | some r => some ⟨0x03, r.junction, 0xF, 0x1FFF⟩
    | none =>
      if m.flows.any (fun f => decide (njs ≤ f.junction)) ∨ m.bounds.any (fun b => decide (njs ≤ leAt b 2 1)) then some (.at_ 0x03)
      else none

/-- Whether a signature is accepted in a lifecycle state: 0 blank, 1 provisioned, 2 deployed, 3 retired (R135). -/
def Img.signed (m : Img) (life : Nat) (keyHash : List Byte) : Bool :=
  let sec := m.bytes.drop m.sigOff
  let kind := leAt sec 0 2
  let pub := (sec.drop 4).take 97
  let fused := keyHash.any (fun b => b != 0)
  if 3 ≤ life then false
  else if kind = 0 then decide (life < 2)
  else kind == 1 && (sha384 pub == keyHash || (decide (life < 2) && !fused)) &&
    ecdsaVerify pub (m.bytes.take (m.sigOff + 104)) ((sec.drop 104).take 96)

/-! ## 0x07 ENCODING (R113, R119, R120, R125, R137) -/

/-- A flow-table entry's own values. -/
def ImgFlow.bad (f : ImgFlow) (package : Bool) : Bool :=
  decide (1 < f.kind) || decide (f.port < 4) || decide (6 < f.port) || decide (f.runs < 1) || decide (8192 < f.runs) ||
    decide (f.flits < 2) || decide (1048576 < f.flits) || decide (0xFFE < f.flow) || (!package && decide (0xEFF < f.flow))

/-- Loops of a list obey R125: `ends` holds where the enclosing bodies stop, innermost first. -/
def loopsFail (len : Nat) : List (BitVec 32) → Nat → List Nat → Option Nat
  | [], _, _ => none
  | e :: t, i, ends =>
    let open_ := ends.filter (fun x => decide (i < x))
    if outOp e = 1 then
      let stop := i + 1 + loopBody e
      if len < stop ∨ 2 ≤ open_.length ∨ open_.head?.any (fun x => decide (x < stop)) ∨ !(t.take (loopBody e)).any isPass then some i
      else loopsFail len t (i + 1) (stop :: open_)
    else loopsFail len t (i + 1) open_

/-- An output entry with a reserved code, a flow outside the table or an absent region. -/
def Img.outBad (m : Img) (regions : Nat) (e : BitVec 32) : Bool :=
  match outOp e with
  | 0 => outSrc e == 7 || (m.flow? (outFlow e)).isNone
  | 1 => false
  | 2 => e.extractLsb' 26 4 != 0 || decide (2 ^ regions ≤ wakeMask e)
  | _ => true

def Img.outListFail (m : Img) (regions : Nat) (l : List (BitVec 32)) : Option Nat :=
  match l.findIdx? (m.outBad regions) with
  | some i => some i
  | none => if !l.isEmpty && !l.any isPass then some 0 else loopsFail l.length l 0 []

def Img.inBad (m : Img) (e : BitVec 64) : Bool :=
  inTakers e == 0 || (match m.flow? (inFlow e) with
    | some f => f.flits != inFlits e
    | none => true)

/-- The flows a join record names are in the table. -/
def Img.joinNames (m : Img) (r : List Byte) : Bool :=
  (joinOps r).all (fun k => (m.flow? (joinFlow r k)).isSome) && (m.flow? (joinOut r)).isSome &&
    (!joinTallied r || (m.flow? (joinTallyFlow r)).isSome)

def Img.recEncoding (m : Img) (regions : Nat) (r : ImgRec) : Option ImgFail :=
  match r.bank.outs.zipIdx.findSome? (fun p => (m.outListFail regions p.1).map (fun i => (p.2, i))) with
  | some p => some ⟨0x07, r.junction, p.1, p.2⟩
  | none => match firstBad m.inBad r.bank.ins with
    | some p => some ⟨0x07, r.junction, 6 + p.1, p.2⟩
    | none => (r.bank.joins.find? (fun j => !m.joinNames j)).map (fun j => ⟨0x07, r.junction, 0xC, joinSlot j⟩)

/-- The first failure of ENCODING. DESIGN CHOICE (log 128): a bad flow-table entry is reported as its place in the table in ENTRY, with
neither junction nor list; R153 names places of list entries and slots only. -/
def Img.encodingFail (m : Img) (package : Bool) (regions : Nat) : Option ImgFail :=
  match m.flows.findIdx? (fun f => f.bad package) with
  | some i => some ⟨0x07, 0x7F, 0xF, i⟩
  | none => m.recs.findSome? (m.recEncoding regions)

/-! ## 0x09 JOIN (R121, R124, R163, R168, R177) -/

/-- The bytes of a join record that are reserved, or must be zero for its arity. -/
def joinZeros (r : List Byte) : Bool :=
  zeroAt r 17 1 && zeroAt r 24 8 && leAt r 8 2 / 4096 == 0 && joinOperand r 0 / 4096 % 2 == 0 && joinOperand r 1 / 4096 % 2 == 0 &&
    joinOperand r 2 / 4096 % 2 == 0 && (joinArity r != 2 || (joinOperand r 2 == 0 && joinFmt r 2 == 0)) &&
    (joinTallied r || (joinTally r == 0 && joinBlocks r == 0))

/-- The formats and the slot agree with OP and MODE (R168). -/
def joinFormats (r : List Byte) : Bool :=
  let fs := (joinOps r).map (joinFmt r)
  let out := joinOutFmt r
  let same := fs.all (fun f => f == out)
  let w := joinBits r
  let grid := if joinMode r = 2 then 0x0B else 0x0A
  let slotOk := (w == 8 || w == 16 || w == 32 || w == 64)
  let plain := slotOk && (fs ++ [out]).all (fun f => decide (Fmt.bits f ≤ w))
  if joinMode r = 0 then
    !joinTallied r &&
    (if joinOp r = 3 then same && out == 0x0C && w == 64
     else if Fmt.isMx out then same && w == 0
     else if out = 9 then same && (w == 32 || w == 64)
     else if joinOp r = 0 then Fmt.isFloat out && fs.all Fmt.isFloat && plain
     else decide (joinOp r ≤ 2) && same && Fmt.isFloat out && plain)
  else
    decide (joinMode r ≤ 2) && joinOp r == 0 && (fs ++ [out]).all (fun f => Fmt.isFloat f || f == grid) &&
      w == Fmt.gridWidth grid && joinTallied r == (fs ++ [out]).any (fun f => f != grid)

/-- The flows of a join have one RUNS and RUN_FLITS, and the kind of its operation. -/
def Img.joinFlows (m : Img) (r : List Byte) : Bool :=
  let o := m.flow? (joinOut r)
  let kind := if joinOp r = 3 then 1 else 0
  ((joinOps r).map (fun k => m.flow? (joinFlow r k))).all (fun f =>
    f.map ImgFlow.runs == o.map ImgFlow.runs && f.map ImgFlow.flits == o.map ImgFlow.flits && f.map ImgFlow.kind == some kind) &&
    o.map ImgFlow.kind == some kind

/-- An operand that another node makes has that join's output format and this join's slot (R168). -/
def Img.joinChained (m : Img) (r : List Byte) : Bool :=
  (joinOps r).all (fun k => m.recs.all (fun c => c.bank.joins.all (fun p =>
    joinOut p != joinFlow r k || (joinOutFmt p == joinFmt r k && joinBits p == joinBits r))))

/-- The tally set-up (R168, R177). -/
def Img.joinTallyOk (m : Img) (js : List (List Byte)) (r : List Byte) : Bool :=
  !joinTallied r ||
  (decide (joinTallySrc r ≤ 6) && decide (1 ≤ joinBlocks r) && decide (joinBase r + joinBlocks r ≤ 16384) &&
    joinBlocks r == (m.flitsOf (joinOut r) * (4096 / joinBits r) + 1023) / 1024 &&
    (match m.flow? (joinTallyFlow r) with
      | some f => f.kind == 1 && f.runs == m.runsOf (joinOut r) && f.flits == max 2 ((joinBlocks r + 63) / 64)
      | none => false) &&
    (joinTallySrc r != 6 || js.any (fun p => joinOp p == 3 && joinOut p == joinTallyFlow r && decide (joinSlot p < joinSlot r))) &&
    js.all (fun p => joinSlot p == joinSlot r || !joinTallied p ||
      decide (joinBase p + joinBlocks p ≤ joinBase r) || decide (joinBase r + joinBlocks r ≤ joinBase p)))

/-- The input names the node among its takers for the flow (R124, R177). -/
def namesNode (b : Bank) (src flow : Nat) : Bool :=
  (b.ins.getD src []).any (fun e => inFlow e == flow && (inTakers e).testBit 6)

def Img.joinOk (m : Img) (b : Bank) (r : List Byte) : Bool :=
  decide (joinSlot r ≤ 15) && (joinArity r == 2 || joinArity r == 3) && decide (joinOp r ≤ 3) && joinZeros r &&
    (joinOps r).all (fun k => decide (joinSrc r k ≤ 5)) && decide (((joinOps r).map (joinSrc r)).Nodup) &&
    joinFormats r && m.joinFlows r && m.joinChained r && m.joinTallyOk b.joins r &&
    (joinOps r).all (fun k => namesNode b (joinSrc r k) (joinFlow r k)) &&
    (!joinTallied r || joinTallySrc r == 6 || namesNode b (joinTallySrc r) (joinTallyFlow r))

def Img.joinFail (m : Img) : Option ImgFail :=
  m.recs.findSome? (fun c => (c.bank.joins.find? (fun r => !m.joinOk c.bank r)).map (fun r => ⟨0x09, c.junction, 0xC, joinSlot r⟩))

/-! ## 0x0A LINK and 0x0B BALANCE (R115, R137) -/

/-- One pass of a list with loops, as source, flow and flits of each PASS entry visited; `inner` passes a loop's body. -/
def expandWith (inner : List (BitVec 32) → List (Nat × Nat × Nat)) : Nat → List (BitVec 32) → List (Nat × Nat × Nat)
  | 0, _ => []
  | _, [] => []
  | k + 1, e :: t =>
    if outOp e = 0 then (outSrc e, outFlow e, outCount e) :: expandWith inner k t
    else if outOp e = 1 then
      (List.replicate (loopIter e) (inner (t.take (loopBody e)))).flatten ++ expandWith inner k (t.drop (loopBody e))
    else expandWith inner k t

/-- One period of an output list: loops nest at most two deep (R125). -/
def expandList (l : List (BitVec 32)) : List (Nat × Nat × Nat) :=
  expandWith (expandWith (expandWith (fun _ => []) l.length) l.length) l.length l

/-- Consecutive counts of one flow added together. -/
def mergeRuns : List (Nat × Nat) → List (Nat × Nat)
  | [] => []
  | p :: t =>
    match mergeRuns t with
    | q :: r => if p.1 = q.1 then (p.1, p.2 + q.2) :: r else p :: q :: r
    | [] => [p]

/-- The runs an output passes, by flow in their order; `none` where a run is broken off. -/
def Img.runsOut (m : Img) (l : List (BitVec 32)) : Option (List (Nat × Nat)) :=
  (mergeRuns ((expandList l).map (fun p => (p.2.1, p.2.2)))).mapM (fun p =>
    if p.2 % m.flitsOf p.1 = 0 then some (p.1, p.2 / m.flitsOf p.1) else none)

/-- The runs an intake list takes, by flow in their order. -/
def runsIn (l : List (BitVec 64)) : List (Nat × Nat) := mergeRuns (l.map (fun e => (inFlow e, inRuns e)))

/-- The link out of port `p` of `n`: its runs differ from the receiver's intake list. -/
def Img.linkBad (m : Img) (c : Integration) (n p : Nat) : Bool :=
  match c.neighbour n p with
  | some n' => m.runsOut ((m.bankOf n).outs.getD p []) != some (runsIn ((m.bankOf n').ins.getD (facing p) []))
  | none => false

def Img.linkFail (m : Img) (c : Integration) : Option ImgFail :=
  (List.range c.njs).findSome? (fun n =>
    ((List.range 4).find? (m.linkBad c n)).map (fun p => ⟨0x0A, n, p, 0x1FFF⟩))

/-- Flits of a flow in a pass, from any source. -/
def passedFlow (xs : List (Nat × Nat × Nat)) (flow : Nat) : Nat := ((xs.filter (fun p => p.2.1 == flow)).map (·.2.2)).sum

/-- Flits of a flow from a source in a pass. -/
def passed (xs : List (Nat × Nat × Nat)) (src flow : Nat) : Nat := passedFlow (xs.filter (fun p => p.1 == src)) flow

/-- Entry `e` of output list `o` belongs to a flow that the list does not pass exactly once a period, or that its source
does not offer this output. -/
def Img.outUnbalanced (m : Img) (b : Bank) (o : Nat) (xs : List (Nat × Nat × Nat)) (e : BitVec 32) : Bool :=
  isPass e &&
  (passed xs (outSrc e) (outFlow e) != m.runsOf (outFlow e) * m.flitsOf (outFlow e) ||
    passedFlow xs (outFlow e) != m.runsOf (outFlow e) * m.flitsOf (outFlow e) ||
    (if outSrc e = 6 then !b.joins.any (fun r => joinOut r == outFlow e)
     else !((b.ins.getD (outSrc e) []).any (fun i => inFlow i == outFlow e)) ||
      (b.ins.getD (outSrc e) []).any (fun i => inFlow i == outFlow e && !(inTakers i).testBit o)))

/-- Entry `e` of intake list `i` belongs to a flow that the list does not take exactly once a period, or names a taker
that does not take it. -/
def Img.inUnbalanced (m : Img) (b : Bank) (i : Nat) (e : BitVec 64) : Bool :=
  let l := b.ins.getD i []
  ((l.filter (fun x => inFlow x == inFlow e)).map inRuns).sum != m.runsOf (inFlow e) ||
  (List.range 6).any (fun o => (inTakers e).testBit o && !namesFlow (b.outs.getD o []) i (inFlow e)) ||
  ((inTakers e).testBit 6 && !b.joins.any (fun r => (joinOps r).any (fun k => joinSrc r k == i && joinFlow r k == inFlow e) ||
    (joinTallied r && joinTallySrc r == i && joinTallyFlow r == inFlow e)))

def Img.recBalance (m : Img) (r : ImgRec) : Option ImgFail :=
  match r.bank.outs.zipIdx.findSome? (fun p => (p.1.findIdx? (m.outUnbalanced r.bank p.2 (expandList p.1))).map (fun e => (p.2, e))) with
  | some p => some ⟨0x0B, r.junction, p.1, p.2⟩
  | none => (r.bank.ins.zipIdx.findSome? (fun p => (p.1.findIdx? (m.inUnbalanced r.bank p.2)).map (fun e => (p.2, e)))).map
      (fun p => ⟨0x0B, r.junction, 6 + p.1, p.2⟩)

def Img.balanceFail (m : Img) : Option ImgFail := m.recs.findSome? m.recBalance

/-! ## 0x0C DIGEST and the set-up digest (R134, R192) -/

/-- ORDER_DIGEST (R134). -/
def Img.orderDigest (m : Img) : List Byte :=
  sha384 (m.flows.flatMap (fun f => f.raw.take 2 ++ (f.raw.drop 3).take 2) ++
    m.recs.flatMap (fun r => r.bank.joins.flatMap (fun j => BitVec.ofNat 8 r.junction :: (j.drop 1).take 9)))

/-- SETUP_DIGEST of an image's joins: 48 zero bytes where there are none (R192). -/
def Img.setupDigest (m : Img) : List Byte :=
  if m.recs.all (fun r => r.bank.joins.isEmpty) then List.replicate 48 0
  else sha384 (m.recs.flatMap (fun r => r.bank.joins.flatMap (fun j =>
    BitVec.ofNat 8 r.junction :: j.take 1 ++ (j.drop 10).take 22)))

/-- BANK_SIG of a record (R132). -/
def recSig (raw : List Byte) : BitVec 32 := crc32c (raw.take 28 ++ List.replicate 4 0 ++ raw.drop 32)

def ImgRec.sigBad (r : ImgRec) : Bool := recSig r.raw != BitVec.ofNat 32 (leAt r.raw 28 4)

/-- What the block keeps of the image (R146, R158, R192). -/
def Img.facts (m : Img) : ImageFacts where
  id := m.id
  digest := m.digest
  setup := m.setupDigest
  tally := (m.flows.filter (fun f => f.kind == 1)).map ImgFlow.flow
  multi := (m.flows.map ImgFlow.flow).filter (fun f => decide (1 < ((m.recs.map (fun r =>
    ([4, 5].filter (fun o => (r.bank.outs.getD o []).any (fun e => isPass e && outFlow e == f))).length)).sum)))

/-- The bytes of a bank as a junction record (R132, R152). -/
def recBytes (n : Nat) (b : Bank) : List Byte :=
  let pad := fun (l : List Nat) => (l ++ List.replicate (6 - l.length) 0).take 6
  let head := [BitVec.ofNat 8 n, BitVec.ofNat 8 b.joins.length, 0, 0] ++
    (pad (b.outs.map List.length)).flatMap (leBytes 2) ++ (pad (b.ins.map List.length)).flatMap (leBytes 2)
  let body := b.outs.flatten.flatMap (fun e => leBytes 4 e.toNat) ++ b.ins.flatten.flatMap (fun e => leBytes 8 e.toNat) ++ b.joins.flatten
  head ++ leBytes 4 (crc32c (head ++ List.replicate 4 0 ++ body)).toNat ++ body

end Sys2Proof.Machine
end

