-- ==== Sys2Proof/Machine/Walk.lean ====
section
/-! DEFINITION. The period walk: one period of an image from the empty state, link by link (R150, R159, R178). The links
agree and every list is balanced before it, so a link holds a number of flits, whose flows the intake list gives. -/

namespace Sys2Proof.Machine

/-- An input in the walk: flits on its link, its place in the intake list, and the takers of the flit at its head. -/
structure WIn where
  queued : Nat
  entry : Nat
  run : Nat
  flit : Nat
  done : Nat
  deriving DecidableEq, Repr

/-- A node in the walk: the join, run and flit it stands at, its latch, the flow each operand input has given it, and for
each tally join the flits captured and whether the run is whole. -/
structure WNode where
  join : Nat
  run : Nat
  flit : Nat
  latch : Option Nat
  done : Nat
  has : Tbl (Option Nat)
  caps : Tbl (Nat × Bool)
  deriving DecidableEq, Repr

def WIn.zero : WIn := ⟨0, 0, 0, 0, 0⟩

def WNode.zero : WNode := ⟨0, 0, 0, none, 0, [], []⟩

/-- The state of the walk, and whether the present sweep has passed a flit. -/
structure Walk where
  ins : Tbl WIn
  outs : Tbl TOut
  nodes : Tbl WNode
  moved : Bool
  deriving DecidableEq, Repr

def Walk.tin (w : Walk) (n i : Nat) : WIn := Tbl.get WIn.zero w.ins (8 * n + i)
def Walk.tout (w : Walk) (n o : Nat) : TOut := Tbl.get TOut.zero w.outs (8 * n + o)
def Walk.node (w : Walk) (n : Nat) : WNode := Tbl.get WNode.zero w.nodes n

def Walk.setIn (w : Walk) (n i : Nat) (x : WIn) : Walk := { w with ins := Tbl.set WIn.zero w.ins (8 * n + i) x, moved := true }
def Walk.setOut (w : Walk) (n o : Nat) (x : TOut) : Walk := { w with outs := Tbl.set TOut.zero w.outs (8 * n + o) x }
def Walk.setNode (w : Walk) (n : Nat) (x : WNode) : Walk := { w with nodes := Tbl.set WNode.zero w.nodes n x, moved := true }

/-- The input after its head flit has passed every taker. -/
def WIn.next (l : List (BitVec 64)) (x : WIn) : WIn :=
  match l[x.entry]? with
  | none => x
  | some e =>
    let y := { x with queued := x.queued - 1, done := 0 }
    if x.flit + 1 < inFlits e then { y with flit := x.flit + 1 }
    else if x.run + 1 < inRuns e then { y with flit := 0, run := x.run + 1 }
    else { y with flit := 0, run := 0, entry := x.entry + 1 }

/-- The flow input `i` presents to taker `t`: an ingress always offers its next flit, and so does an outward mesh input, whose runs come
from the partner die (R308; DEDUCED, log 129). -/
def Walk.presents (w : Walk) (c : Integration) (b : Bank) (n i t : Nat) : Option Nat :=
  let x := w.tin n i
  match (b.ins.getD i [])[x.entry]? with
  | some e => if (4 ≤ i ∨ (c.neighbour n i).isNone ∨ 0 < x.queued) ∧ (inTakers e).testBit t ∧ !x.done.testBit t then some (inFlow e) else none
  | none => none

/-- Taker `t` passes the head flit of input `i`. -/
def Walk.take (w : Walk) (b : Bank) (n i t : Nat) : Walk :=
  let x := w.tin n i
  let l := b.ins.getD i []
  match l[x.entry]? with
  | some e =>
    let d := x.done ||| 2 ^ t
    w.setIn n i (if inTakers e &&& d = inTakers e then x.next l else { x with done := d })
  | none => w

/-- The takers of the node's output flow, as bits; bit 7 where a join captures it. -/
def walkNodeTakers (b : Bank) (flow : Nat) : Nat :=
  ((List.range 6).filter (fun o => namesFlow (b.outs.getD o []) 6 flow)).foldl (fun a o => a + 2 ^ o) 0 +
    (if b.joins.any (fun r => joinTallied r && joinTallySrc r == 6 && joinTallyFlow r == flow) then 128 else 0)

/-- Taker `t` passes the flit in the node's latch. -/
def Walk.takeNode (w : Walk) (b : Bank) (n t : Nat) : Walk :=
  let x := w.node n
  match x.latch with
  | none => w
  | some f =>
    let d := x.done ||| 2 ^ t
    let ts := walkNodeTakers b f
    w.setNode n (if ts &&& d = ts then { x with latch := none, done := 0 } else { x with done := d })

/-- Output `o` passes its next flit, if its source presents one and its link has room for a third (R96, R150). -/
def Walk.outMove (c : Integration) (b : Bank) (n o : Nat) (w : Walk) : Walk :=
  let l := b.outs.getD o []
  let x := if (w.tout n o).periods = 0 then (listSettle l (2 * l.length + 8) (w.tout n o) 0).1 else w.tout n o
  let w1 := w.setOut n o x
  match l[x.entry]? with
  | none => w1
  | some e =>
    let m := if o < 4 then c.neighbour n o else none
    let room := match m with
      | some n' => decide ((w1.tin n' (facing o)).queued < 3)
      | none => true
    let here := if outSrc e = 6 then (w1.node n).latch == some (outFlow e) && !(w1.node n).done.testBit o
      else w1.presents c b n (outSrc e) o == some (outFlow e)
    if 0 < x.periods ∨ !room ∨ !here then w1
    else
      let y := if outCount e ≤ x.count + 1 then { x with entry := x.entry + 1, count := 0 } else { x with count := x.count + 1 }
      let w2 := (if outSrc e = 6 then w1.takeNode b n o else w1.take b n (outSrc e) o).setOut n o y
      match m with
      | some n' => w2.setIn n' (facing o) { w2.tin n' (facing o) with queued := (w2.tin n' (facing o)).queued + 1 }
      | none => w2

/-- The node takes the flit that input `i` presents to it, one per operand input (R150). -/
def Walk.nodeTake (c : Integration) (b : Bank) (n i : Nat) (w : Walk) : Walk :=
  match Tbl.get none (w.node n).has i, w.presents c b n i 6 with
  | none, some f => (w.setNode n { w.node n with has := Tbl.set none (w.node n).has i (some f) }).take b n i 6
  | _, _ => w

def Walk.cap (w : Walk) (n : Nat) (r : List Byte) : Nat × Bool := Tbl.get (0, false) (w.node n).caps (joinSlot r)

/-- The joins whose TALLY_IN is the flow from the source. -/
def capturers (b : Bank) (src flow : Nat) : List (List Byte) :=
  b.joins.filter (fun r => joinTallied r && joinTallySrc r == src && joinTallyFlow r == flow)

/-- The captures of `rs` after one more flit of a run of `flits`. -/
def WNode.captured (x : WNode) (rs : List (List Byte)) (flits : Nat) : WNode :=
  { x with caps := rs.foldl (fun t r => Tbl.upd (0, false) t (joinSlot r)
      (fun c => if c.1 + 1 < flits then (c.1 + 1, false) else (0, true))) x.caps }

/-- The node captures a flit of the tally that join `r` waits for (R177, R178). -/
def Walk.capture (m : Img) (b : Bank) (n : Nat) (r : List Byte) (w : Walk) : Walk :=
  let src := joinTallySrc r
  let flow := joinTallyFlow r
  let rs := capturers b src flow
  if !joinTallied r ∨ rs.any (fun q => (w.cap n q).2) then w
  else if src = 6 then
    if (w.node n).latch = some flow ∧ !(w.node n).done.testBit 7 then
      (w.setNode n ((w.node n).captured rs (m.flitsOf flow))).takeNode b n 7
    else w
  else if Tbl.get none (w.node n).has src = some flow then
    w.setNode n { (w.node n).captured rs (m.flitsOf flow) with has := Tbl.set none (w.node n).has src none }
  else w

/-- The node's place after a flit of a join (R159, R178). -/
def WNode.forward (x : WNode) (r : List Byte) (flits runs : Nat) : WNode :=
  if x.flit + 1 < flits then { x with flit := x.flit + 1 }
  else
    let y := { x with flit := 0, caps := Tbl.set (0, false) x.caps (joinSlot r) (0, false) }
    if x.run + 1 < runs then { y with run := x.run + 1 } else { y with run := 0, join := x.join + 1 }

/-- The node joins one flit of its present record (R159, R160). -/
def Walk.fire (m : Img) (b : Bank) (n : Nat) (w : Walk) : Walk :=
  let x := w.node n
  match b.joins[x.join]? with
  | none => w
  | some r =>
    let ready := (joinOps r).all (fun k => Tbl.get none x.has (joinSrc r k) == some (joinFlow r k)) &&
      (!joinTallied r || (w.cap n r).2)
    if x.latch.isSome ∨ !ready then w
    else
      let has := (joinOps r).foldl (fun t k => Tbl.set none t (joinSrc r k) none) x.has
      let out := joinOut r
      let y := { x with has := has, latch := if walkNodeTakers b out = 0 then none else some out, done := 0 }
      w.setNode n (y.forward r (m.flitsOf out) (m.runsOf out))

/-- Everything one junction can pass, once each. -/
def Walk.junction (m : Img) (c : Integration) (r : ImgRec) (w : Walk) : Walk :=
  let b := r.bank
  let n := r.junction
  let w1 := (List.range 6).foldl (fun a o => a.outMove c b n o) w
  let w2 := (List.range 6).foldl (fun a i => a.nodeTake c b n i) w1
  let w3 := b.joins.foldl (fun a j => a.capture m b n j) w2
  w3.fire m b n

/-- Sweeps over the junctions until none passes a flit. -/
def Walk.run (m : Img) (c : Integration) : Nat → Walk → Walk
  | 0, w => w
  | k + 1, w =>
    let w' := m.recs.foldl (fun a r => a.junction m c r) { w with moved := false }
    if w'.moved then Walk.run m c k w' else w'

/-- Flits an image moves in a period, each through at most eight takers. -/
def Img.walkFuel (m : Img) : Nat :=
  16 * ((m.recs.map (fun r => ((r.bank.ins.flatten.map (fun e => inRuns e * inFlits e)).sum +
    (r.bank.joins.map (fun j => m.runsOf (joinOut j) * m.flitsOf (joinOut j))).sum))).sum) + 16

/-- The first list of a junction that the walk left unfinished, as LOAD_STATUS codes it. -/
def Walk.unfinished (w : Walk) (r : ImgRec) : Option Nat :=
  match (List.range 6).find? (fun o => !(r.bank.outs.getD o []).isEmpty &&
      (listSettle (r.bank.outs.getD o []) (2 * (r.bank.outs.getD o []).length + 8) (w.tout r.junction o) 0).1.periods == 0) with
  | some o => some o
  | none => match (List.range 6).find? (fun i => decide ((w.tin r.junction i).entry < (r.bank.ins.getD i []).length)) with
    | some i => some (6 + i)
    | none => if (w.node r.junction).join < r.bank.joins.length then some 0xC else none

/-- 0x0D WALK (R137, R150). -/
def Img.walkFail (m : Img) (c : Integration) : Option ImgFail :=
  let w := Walk.run m c m.walkFuel ⟨[], [], [], false⟩
  m.recs.findSome? (fun r => (w.unfinished r).map (fun l => ⟨0x0D, r.junction, l, 0x1FFF⟩))

end Sys2Proof.Machine
end

