-- ==== Sys2Proof/Machine/Schedule.lean ====
section
/-! DEFINITION. Loading schedule images and swapping epochs (R136 to R149, R153, R154). -/

namespace Sys2Proof.Machine

/-! ## The sequencer's state -/

/-- LOAD_STATUS enters a state with a code and without a position. -/
def State.enterLoad (s : State) (w st code : Nat) : State := s.setLoad w st code 0x7F 0xF 0x1FFF

/-- The staged banks of the ward are emptied, with STAGED as given. -/
def State.emptyStaged (s : State) (w : BitVec 4) (v : Nat) : State :=
  (s.wardJunctions w).foldl (fun (a : State) n => (a.setBank n (a.stagedSel n) Bank.null).wr (.staged n) v) s

/-- The load or arm of ward `w` fails; its staged banks cannot be armed (R137, R140). -/
def State.failLoad (s : State) (w : BitVec 4) (f : ImgFail) : State :=
  (s.markStaged w 4).loadFails w.toNat f.code f.junction f.list f.entry

/-- A physical bank of `n` is no longer known damaged: it has been written. -/
def State.undamaged (s : State) (n sel : Nat) : State :=
  { s with ten := { s.ten with damaged := s.ten.damaged.erase (2 * n + sel) } }

/-! ## Loading (R136, R137, R139) -/

def Fld.pkgState (w : Nat) : Fld := ⟨Obj.pkgStatus w, 29, 3⟩

/-- The ward's package image holds its SCHED_IMAGE on every die (R327). A die other than the master knows PKG_STATUS from the copy that the
master's firmware writes to the dies of the image (log 132). -/
def State.packageHolds (s : State) (w : Nat) : Bool :=
  let st := s.rd (.pkgState w)
  st != 0 && st != 6 && st != 7

/-- A write to SCHED_IMAGE is refused now (R139, R327). `master` says that the package master writes. -/
def State.loadBusy (s : State) (w : Nat) (master : Bool) : Bool :=
  let st := s.rd (.ldState w)
  st == 1 || st == 2 || st == 4 || st == 5 || (s.sched w).armPending || (!master && s.packageHolds w)

/-- The staged bank of `n` is loaded anew: what an earlier swap left there is no longer the staged image (R139, R148). -/
def State.loadAfresh (s : State) (n : Nat) : State :=
  { s with ten := { s.ten with kept := Tbl.upd 0 s.ten.kept n (· % 8192) } }

/-- A transfer into SCHED_IMAGE begins: the staged banks of the ward are replaced from here on (R136, R139). -/
def Sched.begin (w : BitVec 4) (master : Bool) : Effect := fun s =>
  if s.loadBusy w.toNat master then .error .inUse
  else
    let s1 := (s.emptyStaged w 1).enterLoad w.toNat 1 0
    let s2 := (s1.wardJunctions w).foldl State.loadAfresh s1
    .ok (s2.setSched w.toNat { s2.sched w.toNat with image := [], package := master, staged := ImageFacts.null })

/-- The whole image has come: the checks run (R137). A gated region is woken for the write (R136). -/
def Sched.loaded (w : BitVec 4) (image : List Byte) (s : State) : State :=
  let s1 := (s.setSched w.toNat { s.sched w.toNat with image := image }).enterLoad w.toNat 2 0
  (s1.wardJunctions w).foldl State.wakeAt s1

/-! ## The checks that need the die (R137) -/

/-- Code 0x06: the owner, and mesh outputs that would leave the ward. -/
def State.ownerFail (s : State) (w : BitVec 4) (m : Img) : Option ImgFail :=
  if m.owner ≠ w.toNat then some (.at_ 0x06)
  else match m.recs.find? (fun r => s.wardOf r.junction != some w) with
    | some r => some ⟨0x06, r.junction, 0xF, 0x1FFF⟩
    | none => m.recs.findSome? (fun r =>
        ((List.range 4).find? (fun o => (r.bank.outs.getD o []).any isPass &&
          (match s.cfg.neighbour r.junction o with
            | some n' => s.wardOf n' != some w
            | none => false))).map (fun o =>
          ⟨0x06, r.junction, o, ((r.bank.outs.getD o []).findIdx? isPass).getD 0⟩))

/-- A port that an image may name: a mesh link, a present unit, or for a package section the tensor group of a bridge
(R137, R309). -/
def Integration.portNamed (c : Integration) (package : Bool) (n p : Nat) : Bool :=
  if p < 4 then (c.neighbour n p).isSome || (package && (c.tensorGroup n p).isSome)
  else if p = 4 then c.corePort n
  else if c.bKind n = 4 then package
  else c.bKind n != 0

/-- Code 0x08 (R137). -/
def Integration.portFail (c : Integration) (package : Bool) (m : Img) : Option ImgFail :=
  m.recs.findSome? (fun r =>
    match (List.range 6).find? (fun p => !(r.bank.outs.getD p []).isEmpty && !c.portNamed package r.junction p) with
    | some p => some ⟨0x08, r.junction, p, 0⟩
    | none => ((List.range 6).find? (fun p => !(r.bank.ins.getD p []).isEmpty && !c.portNamed package r.junction p)).map
        (fun p => ⟨0x08, r.junction, 6 + p, 0⟩))

/-- Code 0x09: a join at a junction whose node has lost a second lane (R522). -/
def State.laneFail (s : State) (m : Img) : Option ImgFail :=
  m.recs.findSome? (fun r => if s.rd (.laneSecond r.junction) = 1 then r.bank.joins.head?.map (fun j => ⟨0x09, r.junction, 0xC, joinSlot j⟩) else none)

/-- The first check of R137 that an image past FORMAT fails. -/
def State.imageFail (s : State) (w : BitVec 4) (package : Bool) (m : Img) : Option ImgFail :=
  (m.buildFail s.cfg.njs s.cfg.njs)
  <|> (if BitVec.ofNat 64 m.distGen ≠ s.obj Obj.distGen then some (.at_ 0x04) else none)
  <|> (if m.signed (s.obj Obj.lifecycle).toNat (s.dom Obj.schedKeyHash 48) then none else some (.at_ 0x05))
  <|> (s.ownerFail w m)
  <|> (m.encodingFail package s.cfg.regions)
  <|> (s.cfg.portFail package m)
  <|> m.joinFail
  <|> (s.laneFail m)
  <|> (m.linkFail s.cfg)
  <|> m.balanceFail
  <|> (if m.orderDigest = m.digest then none else some (.at_ 0x0C))
  <|> (m.walkFail s.cfg)
  <|> ((m.recs.find? ImgRec.sigBad).map (fun r => ⟨0x0E, r.junction, 0xF, 0x1FFF⟩))

/-- The staged banks take the image's records; a junction of the ward without one takes the null bank (R132, R136). -/
def State.stageImage (s : State) (w : BitVec 4) (m : Img) : State :=
  (s.wardJunctions w).foldl (fun (a : State) n =>
    (a.setBank n (a.stagedSel n) (m.bankOf n)).undamaged n (a.stagedSel n)) s

/-- SCHED_LOAD_CHECKS_COMPLETE: the checks of R137 end, with the first failure or with CHECKED. Firmware makes them: they wait while
no core runs (R25). -/
def Sched.checked (w : BitVec 4) (s : State) : State :=
  if s.rd (.ldState w.toNat) ≠ 2 ∨ s.frozen ∨ !s.firmwareRuns then s
  else
    let x := s.sched w.toNat
    match parseImage x.image with
    | .error f => s.failLoad w f
    | .ok m =>
      let s1 := (s.stageImage w m).setSched w.toNat { x with staged := m.facts }
      match s.imageFail w x.package m with
      | some f => s1.failLoad w f
      | none => ((s1.markStaged w 2).enterLoad w.toNat 3 0).reportLoad w.toNat

def execSchedLoadChecksComplete (w : BitVec 4) (s : State) : Host.Outcome State Fault Refusal :=
  .next (Sched.checked w s)

/-! ## Arming (R140 to R142, R147) -/

def Fld.epochCmd (w : Nat) : Fld := ⟨Obj.epochCtrl w, 0, 4⟩

/-- ARM (R140). -/
def Sched.arm (w : BitVec 4) : Effect := fun s =>
  if s.rd (.ldState w.toNat) ≠ 3 ∨ (s.sched w.toNat).armPending then .error .badState
  else .ok ((s.setSched w.toNat { s.sched w.toNat with armPending := true }).wr (.epochCmd w.toNat) 1)

/-- The ingresses of a ward: A and B inputs with a live intake list, but for the B port of a bridge, into which the far
die's markers come (R141, R328). -/
def State.wardIngresses (s : State) (w : BitVec 4) : List (Nat × Nat) :=
  (s.wardJunctions w).flatMap (fun n => ([4, 5].filter (fun i =>
    !(s.inList n i).isEmpty && !(i == 5 && s.cfg.bKind n == 4))).map (fun i => (n, i)))

/-- The junctions of the ward that hold an ingress. -/
def State.ingressJunctions (s : State) (w : BitVec 4) : List Nat := ((s.wardIngresses w).map (·.1)).eraseDups

/-- The ingresses of junction `n` that stand at a boundary act on it, after `f` (R141, R142). -/
def State.ingressesAct (s : State) (w : BitVec 4) (n : Nat) (f : Ingress → Ingress) : State :=
  ((s.wardIngresses w).filter (fun p => p.1 == n)).foldl (fun (a : State) p =>
    (a.setIng p.1 p.2 (f (a.ing p.1 p.2))).ingBoundary p.1 p.2) s

/-- The stopped ingresses of the ward are told to go on (R142, R147). -/
def State.releaseIngresses (s : State) (w : BitVec 4) : State := s.sequence w Cmd.release 0 (s.ingressJunctions w)

/-- T is sent to every junction of the ward, and the ingresses are released (R142). -/
def State.sendTarget (s : State) (w : BitVec 4) (t : Nat) : State :=
  let s1 := ((s.wr (.epochTarget w.toNat) t).enterLoad w.toNat 5 0).traceEpoch w.toNat 2
  let s2 := s1.setSched w.toNat { s1.sched w.toNat with target := s1.wardJunctions w }
  (s2.sequence w Cmd.target t (s2.wardJunctions w)).releaseIngresses w

/-- DIST_GEN of the staged image. -/
def State.stagedGen (s : State) (w : Nat) : Val := BitVec.ofNat 64 (leAt (s.sched w).image 16 4)

/-- A junction of the ward whose staged bank's code no longer agrees (R140). -/
def State.stagedDamaged (s : State) (w : BitVec 4) : Option Nat :=
  (s.wardJunctions w).find? (fun n => s.ten.damaged.contains (2 * n + s.stagedSel n))

/-- EPOCH_ARM_CHECK_COMPLETE: the arm's checks end; on success the ward is ARMED, and without an ingress T is 0. -/
def Sched.armChecked (w : BitVec 4) (s : State) : State :=
  let x := s.sched w.toNat
  if !x.armPending ∨ s.rd (.ldState w.toNat) ≠ 3 ∨ s.frozen then s
  else
    let s1 := s.setSched w.toNat { x with armPending := false }
    if s.stagedGen w.toNat ≠ s.obj Obj.distGen then s1.failLoad w (.at_ 0x04)
    else match s.stagedDamaged w with
      | some n => s1.failLoad w ⟨0x0E, n, 0xF, 0x1FFF⟩
      | none =>
        let s2 := ((s1.markStaged w 3).enterLoad w.toNat 4 0).traceEpoch w.toNat 1
        let s3 := s2.setSched w.toNat { s2.sched w.toNat with armed := [] }
        if (s3.wardIngresses w).isEmpty ∧ !x.package then s3.sendTarget w 0
        else s3.sequence w Cmd.arm 0 (s3.ingressJunctions w)

def execEpochArmCheckComplete (w : BitVec 4) (s : State) : Host.Outcome State Fault Refusal :=
  .next (Sched.armChecked w s)

/-- Every ingress of the ward has stopped, and the largest count among them (R142). -/
def State.allStopped (s : State) (w : BitVec 4) : Bool := (s.wardIngresses w).all (fun p => (s.ing p.1 p.2).stopped)

def State.largestCount (s : State) (w : BitVec 4) : Nat := ((s.wardIngresses w).map (fun p => (s.ing p.1 p.2).periods)).foldl max 0

/-- EPOCH_TARGET_SET: with every ingress stopped, T is set and sent. For a package image `t` is the T that the package
master sends; without one a die other than the master reports its largest count to it (R328). -/
def Sched.targetSet (w : BitVec 4) (t : Option (BitVec 32)) (s : State) : State :=
  if s.rd (.ldState w.toNat) ≠ 4 ∨ !s.allStopped w ∨ s.frozen then s
  else if (s.sched w.toNat).package then
    match t with
    | some x => s.sendTarget w x.toNat
    | none => if s.isMaster then s else s.emit (.dieReport w (.count (BitVec.ofNat 32 (s.largestCount w))))
  else s.sendTarget w (s.largestCount w)

def execEpochTargetSet (w : BitVec 4) (t : Option (BitVec 32)) (s : State) : Host.Outcome State Fault Refusal :=
  .next (Sched.targetSet w t s)

/-- CANCEL (R147). -/
def Sched.cancel (w : BitVec 4) : Effect := fun s =>
  let st := s.rd (.ldState w.toNat)
  let done := fun (a : State) =>
    ((a.setSched w.toNat { a.sched w.toNat with armPending := false }).enterLoad w.toNat 0 0x11).wr (.epochCmd w.toNat) 2
  if st = 3 then .ok (done (s.emptyStaged w 0))
  else if st = 4 then .ok (done ((s.releaseIngresses w).markStaged w 2))
  else .error .badState

/-! ## Swapping (R144, R146, R149) -/

/-- The oldest command of the sequencer that has reached junction `n`, and the state without it. -/
def State.commandAt (s : State) (n : Nat) : Option CtlMsg := s.arrivedAt (0x200 + n)

/-- The command is the one that the ward of `n` still expects there: T, or a forced marker. Any other is out of date. -/
def State.commandDue (s : State) (n : Nat) (m : CtlMsg) : Bool :=
  s.wardOf n == some m.ward &&
    (if m.sock = Cmd.target then
      (s.sched m.ward.toNat).target.contains n && !(s.sched m.ward.toNat).forcing && s.rd (.ldState m.ward.toNat) == 5
    else (m.sock == Cmd.forceNull || m.sock == Cmd.forceStaged) && (s.sched m.ward.toNat).forced.contains n)

/-- An arm or a release acts at `n` (R141, R142, R147). -/
def State.armOrRelease (s : State) (n : Nat) (m : CtlMsg) : State :=
  let w := m.ward
  if s.wardOf n ≠ some w then s
  else if m.sock = Cmd.arm ∧ s.rd (.ldState w.toNat) = 4 then
    let x := s.sched w.toNat
    (s.setSched w.toNat { x with armed := if x.armed.contains n then x.armed else x.armed ++ [n] }).ingressesAct w n id
  else if m.sock = Cmd.release ∧ s.rd (.ldState w.toNat) ≠ 4 then s.ingressesAct w n (fun x => { x with stopped := false })
  else s

/-- The commands at the head of junction `n`'s arrivals act, up to the first that has a step of its own. One whose OUTER fails is
refused (R203). -/
def State.commandsAct (s : State) (n : Nat) : Nat → State
  | 0 => s
  | k + 1 =>
    match s.commandAt n with
    | none => s
    | some m =>
      let s1 := s.arrivedDone (0x200 + n)
      if s.outerFails n 6 m then (((s1.afterOuter n 6).refuse n 7 m Nak.corrupt)).commandsAct n k
      else if s.commandDue n m then s
      else (s1.armOrRelease n m).commandsAct n k

def State.takeCommands (s : State) (n : Nat) : State := s.commandsAct n ((Tbl.get [] s.ctl.arrived (0x200 + n)).length)

/-- The commands that ward `w` still has outstanding at junction `n` are sent again (log 136). -/
def State.resend (s : State) (w : BitVec 4) (n : Nat) : State :=
  let x := s.sched w.toNat
  let st := s.rd (.ldState w.toNat)
  let stopped := ((s.wardIngresses w).filter (fun p => p.1 == n)).any (fun p => (s.ing p.1 p.2).stopped)
  if x.forcing ∧ x.forced.contains n then s.sequence w (if x.forceStaged then Cmd.forceStaged else Cmd.forceNull) 0 [n]
  else if st = 4 then if x.armed.contains n then s else s.sequence w Cmd.arm 0 [n]
  else
    let s1 := if st = 5 ∧ x.target.contains n then s.sequence w Cmd.target (s.rd (.epochTarget w.toNat)) [n] else s
    if stopped ∧ (st = 5 ∨ st = 0) then s1.sequence w Cmd.release 0 [n] else s1

/-- Every ward's outstanding commands are sent again: a region through which they passed has come back from reset (log 136). -/
def State.resendAll (s : State) : State :=
  (List.range 16).foldl (fun (a : State) w =>
    let x := a.sched w
    let st := a.rd (.ldState w)
    if x.forcing || st == 4 || st == 5 then
      (a.wardJunctions (BitVec.ofNat 4 w)).foldl (fun (b : State) n =>
        if x.forcing || !x.target.isEmpty || (a.ingressJunctions (BitVec.ofNat 4 w)).contains n then b.resend (BitVec.ofNat 4 w) n
        else b) a
    else a) s

/-- A NAK reaches the epoch sequencer. A command refused because a region is in reset waits until it is back; any other is sent
again (log 136). -/
def State.commandRefused (s : State) (m : CtlMsg) : State :=
  let u := m.dest.toNat % 1024
  if m.reason = Nak.notReady ∨ u < 0x100 then s else s.resend m.ward (u - 0x100)

/-- The block-internal traffic that has reached the management tile acts: wake-ahead requests at the power manager, NAKs at the
sequencer (R129, R231). -/
def State.tileCommands (s : State) : State :=
  let n := s.cfg.mgmtAt
  let inner := fun (m : CtlMsg) => !m.nak && m.kind == 3
  let wakes := (Tbl.get [] s.ctl.arrived 0xC0).filter inner
  let naks := (Tbl.get [] s.ctl.arrived 0xC1).filter (·.nak)
  if wakes.isEmpty ∧ naks.isEmpty then s
  else
    let s1 : State := { s with ctl := { s.ctl with
      arrived := Tbl.upd [] (Tbl.upd [] s.ctl.arrived 0xC0 (·.filter (fun m => !inner m))) 0xC1 (·.filter (fun m => !m.nak)) } }
    let s2 := wakes.foldl (fun (a : State) m =>
      let b := a.afterOuter n 6
      if a.outerFails n 6 m then b.refuse n 6 m Nak.corrupt
      else if m.sock = Cmd.wake then b.wakeAhead ((m.words.getD 0 0).toNat) else b) s1
    naks.foldl State.commandRefused s2

/-- CONTROL_MESSAGE_FORWARD: output `o` of the control router of `n` grants its next whole message. Block-internal traffic acts as it
arrives; T and a forced marker have steps of their own. -/
def execControlMessageForward (n : Nat) (o : Nat) (s : State) : Host.Outcome State Fault Refusal :=
  .next (((Control.forward n o s).takeCommands n).tileCommands)

/-- EPOCH_TARGET_ARRIVE: T reaches junction `n`, whose empty lists swap at once (R144). -/
def Sched.targetArrive (n : Nat) (s : State) : State :=
  match s.commandAt n with
  | none => s
  | some m =>
    if m.sock ≠ Cmd.target ∨ !s.moves n then s
    else
      let s1 := s.arrivedDone (0x200 + n)
      let x := s.sched m.ward.toNat
      let s2 := if s.commandDue n m then
          ((s1.setSched m.ward.toNat { x with target := x.target.erase n }).swapTry n).touch n
        else s1
      s2.takeCommands n

def execEpochTargetArrive (n : Nat) (s : State) : Host.Outcome State Fault Refusal := .next (Sched.targetArrive n s)

/-- What the ward's objects show of the image now live (R146, R192). -/
def State.showLive (s : State) (w : Nat) (f : ImageFacts) : State :=
  ((s.setObj (Obj.liveImageId w) (BitVec.ofNat 64 f.id.toNat)).setDom (Obj.liveDigest w) f.digest).setDom (Obj.setupDigest w) f.setup

/-- A swap of ward `w` has completed: EPOCH rises, the image of facts `f` is live (R146, R148). -/
def State.goLive (s : State) (w : BitVec 4) (code : Nat) (f : ImageFacts) : State :=
  let k := w.toNat
  let s1 := ((s.bumpWrap (.epochOf k) 1).showLive k f).enterLoad k 6 code
  let s0 := (s1.wardJunctions w).foldl (fun (a : State) n => a.wr (.swapBits n) 0) s1
  let s2 := s0.traceQueue s0.cfg.mgmtAt 2 ⟨s0.now, 4, 3, 0x00C1, 0, some w, 0, 0, BitVec.ofNat 32 (s0.rd (.epochOf k)), f.id⟩
  ((s2.setSched k { s2.sched k with live := f, target := [], forced := [], forcing := false }).countEv 0x70 s2.cfg.mgmtAt (some w) 1).reportLoad k

/-- The bank of `n` that was live becomes the staged one and is marked empty (R146). -/
def State.flipBank (s : State) (n : Nat) : State :=
  let old := s.rd (.liveSel n)
  let s1 := ((s.setBank n old Bank.null).wr (.liveSel n) ((old + 1) % 2)).wr (.staged n) 0
  s1.wr (.swapBits n) 0

/-- EPOCH_SWAP_COMPLETE: every junction of the ward has swapped (R146). -/
def Sched.swapComplete (w : BitVec 4) (s : State) : State :=
  let ns := s.wardJunctions w
  if s.rd (.ldState w.toNat) ≠ 5 ∨ !ns.all s.swapped ∨ s.frozen then s
  else
    let x := s.sched w.toNat
    let s1 := (ns.foldl State.flipBank s).goLive w 0 x.staged
    s1.setSched w.toNat { s1.sched w.toNat with staged := ImageFacts.null, image := [] }

def execEpochSwapComplete (w : BitVec 4) (s : State) : Host.Outcome State Fault Refusal := .next (Sched.swapComplete w s)

/-- A region reset or rail loss at junction `n` of a ward in ARMED or SWAPPING abandons the swap (R149). -/
def State.abandonSwap (s : State) (w : BitVec 4) (n : Nat) : State :=
  let st := s.rd (.ldState w.toNat)
  if st = 4 ∨ st = 5 then ((s.leaveSwap w).markStaged w 4).loadFails w.toNat 0x10 n 0xF 0x1FFF else s

/-! ## Forced swaps (R148) -/

/-- The forced markers leave for every junction of the ward. -/
def State.forceBegin (s : State) (w : BitVec 4) (staged : Bool) : State :=
  let x := s.sched w.toNat
  (s.setSched w.toNat { x with armPending := false, target := [], forced := s.wardJunctions w, forceStaged := staged, forcing := true }).sequence
    w (if staged then Cmd.forceStaged else Cmd.forceNull) 0 (s.wardJunctions w)

/-- FORCE_NULL (R148). -/
def Sched.forceNull (w : BitVec 4) : Effect := fun s => .ok ((s.forceBegin w false).wr (.epochCmd w.toNat) 4)

/-- FORCE_STAGED: the staged banks are CHECKED, or FAILED with code 0x0F, 0x10 or 0x0D (R148). -/
def Sched.forceStaged (w : BitVec 4) : Effect := fun s =>
  let st := s.rd (.ldState w.toNat)
  let code := s.rd (.ldCode w.toNat)
  if st = 3 ∨ (st = 7 ∧ (code = 0x0F ∨ code = 0x10 ∨ code = 0x0D)) then
    .ok ((s.forceBegin w true).wr (.epochCmd w.toNat) 3)
  else .error .badState

/-- A write of EPOCH_CTRL (R154). `l2` says that it is made at L2 or L3. -/
def Sched.writeCtrl (w : BitVec 4) (v : BitVec 64) (l2 : Bool) : Effect := fun s =>
  match v.toNat % 16 with
  | 1 => Sched.arm w s
  | 2 => Sched.cancel w s
  | 3 => if l2 then Sched.forceStaged w s else .error .level
  | 4 => if l2 then Sched.forceNull w s else .error .level
  | _ => .error .badState

/-- The flit that ends a partly delivered run: zero payload with LAST and ERROR (R148, R464). -/
def endFlit (first : Bool) : TFlit := ⟨0, frameOf 0 0 true true first, 0⟩

/-- A run of `flow` has been delivered in part at the port: its last flit so far, in the queue or taken, is not LAST. -/
def TDlv.partRun (d : TDlv) (flow : BitVec 12) : Bool :=
  match (d.queue.filter (fun p => p.1 == flow)).getLast? with
  | some p => !p.2.last
  | none => (Tbl.get none d.open_ flow.toNat).isSome

/-- The flows of the runs that have come to the port in part. -/
def TDlv.partFlows (d : TDlv) : List (BitVec 12) :=
  ((d.queue.map (·.1) ++ d.open_.map (fun p => BitVec.ofNat 12 p.1)).eraseDups).filter d.partRun

/-- The flit that ends a run of `flow` passes output `o` of `n`, into the port's queue or as a record of T0. -/
def State.endRun (s : State) (n o : Nat) (flow : BitVec 12) : State :=
  let s1 := s.tapSee n o flow.toNat (endFlit false)
  match s.cfg.tensorGroup n o with
  | some (b, g) => (s1.bridgeRecord b g (endFlit false).record).noteOpen n o flow.toNat true
  | none =>
    let d := s1.dlv n o
    s1.setDlv n o { d with queue := d.queue ++ [(flow, endFlit false)] }

/-- Every partly delivered run at the A and B outputs of `n` is ended (R148). -/
def State.endRuns (s : State) (n : Nat) : State :=
  [4, 5].foldl (fun (a : State) o => ((a.dlv n o).partFlows).foldl (fun (c : State) f => c.endRun n o f) a) s

/-- Every latch of `n` is emptied, its flits being acknowledged, and every count is zero; an ingress partway through a run discards
up to its end, and a tap summarises no run cut short at a mesh output or the node. -/
def State.clearLatches (s : State) (n : Nat) : State :=
  let s0 := s.setTap n { s.tap n with runs := [] }
  let s1 := (List.range 6).foldl (fun (a : State) i => ((a.setTin n i TIn.zero).setTout n i TOut.zero)) s0
  let s2 := [4, 5].foldl (fun (a : State) i =>
    a.setIng n i { Ingress.zero with discard := (decide ((a.ing n i).flow ≠ 0) && !(a.ing n i).cut) || (a.ing n i).discard }) s1
  s2.setNode n TNode.zero

/-- The bits of a swap, and what a swap short of its end left, are gone from junction `n`. -/
def State.clearSwap (s : State) (n : Nat) : State :=
  let s1 : State := { s with ten := { s.ten with kept := Tbl.set 0 s.ten.kept n 0 } }
  (s1.wr (.swapBits n) 0).wr (.halted n) 0

/-- The bank a forced swap makes live at `n` (R148): the null bank, or the staged image, which a junction that has
swapped to it already keeps. -/
def State.forceBank (s : State) (n : Nat) (staged : Bool) : State :=
  if !staged then (s.setBank n (s.rd (.liveSel n)) Bank.null).clearSwap n
  else if (Tbl.get 0 s.ten.kept n).testBit 13 then
    ((s.setBank n (s.stagedSel n) Bank.null).wr (.staged n) 0).clearSwap n
  else (s.flipBank n).clearSwap n

/-- Junction `n` completes its part of the forced swap of ward `w` (R148). -/
def State.forcedSwap (s : State) (n : Nat) (w : BitVec 4) : State :=
  let x := s.sched w.toNat
  let s1 := s.setSched w.toNat { x with forced := x.forced.erase n }
  (((s1.endRuns n).clearLatches n).forceBank n x.forceStaged).touch n

/-- FORCED_MARKER_ARRIVE: the forced marker reaches junction `n` (R148). Nothing reaches a junction whose region is in reset or without
its rail: it holds no flit, and takes the bank at once (log 136). -/
def Sched.forcedArrive (n : Nat) (s : State) : State :=
  if s.junctionLost n then
    match s.wardOf n with
    | some w => if (s.sched w.toNat).forced.contains n ∧ !s.frozen then s.forcedSwap n w else s
    | none => s
  else match s.commandAt n with
    | none => s
    | some m =>
      if (m.sock ≠ Cmd.forceNull ∧ m.sock ≠ Cmd.forceStaged) ∨ !s.moves n then s
      else
        let s1 := s.arrivedDone (0x200 + n)
        (if s.commandDue n m then s1.forcedSwap n m.ward else s1).takeCommands n

def execForcedMarkerArrive (n : Nat) (s : State) : Host.Outcome State Fault Refusal := .next (Sched.forcedArrive n s)

/-- FORCED_SWAP_COMPLETE: every junction has swapped: LIVE with code 0x12 (R148). A reclaim's step 4 ends with it
(R418). -/
def Sched.forcedComplete (w : BitVec 4) (s : State) : State :=
  let x := s.sched w.toNat
  if !x.forcing ∨ !x.forced.isEmpty ∨ s.frozen then s
  else
    let s1 := s.goLive w 0x12 (if x.forceStaged then x.staged else ImageFacts.null)
    let s2 := if x.forceStaged then s1.setSched w.toNat { s1.sched w.toNat with staged := ImageFacts.null, image := [] } else s1
    if s2.rd (.wardPhase w.toNat) = 4 then s2.wr (.wardPhase w.toNat) 5 else s2

def execForcedSwapComplete (w : BitVec 4) (s : State) : Host.Outcome State Fault Refusal :=
  .next (Sched.forcedComplete w s)

end Sys2Proof.Machine
end

