-- ==== Sys2Proof/Machine/PlaneWrites.lean ====
section
/-! DEFINITION. The object writes of the tensor, control and transaction planes, of schedules and of the DMA engines
that have a step of their own (R76, R111, R140, R147, R148, R187, R192, R214, R220, R233, R257, R263, R269, R272, R297,
R300). -/

namespace Sys2Proof.Machine

/-! ## Counters and gauges that a write clears -/

/-- PACE_MIN_CLEAR: a write of any value sets 0xFFFF (R111). -/
def Pace.clearMin (acc : Access) (k : Nat) (s : State) : State :=
  s.serveKey acc (Obj.paceMin k) 0 (fun _ => storeVal (Obj.paceMin k) 0xFFFF)

def execPaceMinClear (acc : Access) (k : Nat) (s : State) : Host.Outcome State Fault Refusal :=
  .next (Pace.clearMin acc k s)

/-- A write of any value sets every field to zero. -/
def State.serveClear (s : State) (acc : Access) (k : Nat) : State := s.serveKey acc k 0 (fun _ => storeVal k 0)

def execTlinkCorrClear (acc : Access) (n : Nat) (s : State) : Host.Outcome State Fault Refusal :=
  .next (s.serveClear acc (Obj.tlinkCorr n))

def execBPortStatusClear (acc : Access) (n : Nat) (s : State) : Host.Outcome State Fault Refusal :=
  .next (s.serveClear acc (Obj.bPortStatus n))

def execRnStatusClear (acc : Access) (n : Nat) (s : State) : Host.Outcome State Fault Refusal :=
  .next (s.serveClear acc (Obj.rnStatus n))

def execTxnStatClear (acc : Access) (n : Nat) (s : State) : Host.Outcome State Fault Refusal :=
  .next (s.serveKey acc (Obj.txnStat n) 0 (fun _ => Txn.clearStat n))

def execProbeCountClear (acc : Access) (n : Nat) (s : State) : Host.Outcome State Fault Refusal :=
  .next (s.serveKey acc (Obj.probeCount n) 0 (fun _ => Txn.clearProbe n))

def execChStatClear (acc : Access) (e c : Nat) (s : State) : Host.Outcome State Fault Refusal :=
  .next (s.serveKey acc (Obj.chStat (16 * e + c)) 0 (fun _ => Dma.clearStat (16 * e + c)))

def execSockStatClear (acc : Access) (n sock : Nat) (s : State) : Host.Outcome State Fault Refusal :=
  .next (s.serveKey acc (Obj.sockStat n sock) 0 (fun _ => Control.clearSockStat n sock))

/-! ## The tap (R187, R194, R195) -/

/-- TAP_CTRL. A write that sets ENABLE starts the count of runs again (R195). -/
def Tap.write (n : Nat) (v : Val) : Effect := fun s =>
  let t := s.tap n
  let s1 := if s.rd ⟨Obj.tapCtrl n, 31, 1⟩ = 0 ∧ fget v 31 1 = 1 then s.setTap n { t with seen := 0 } else s
  .ok (s1.setObj (Obj.tapCtrl n) v)

def execTapCtrlWrite (acc : Access) (n : Nat) (v : BitVec 32) (s : State) : Host.Outcome State Fault Refusal :=
  .next (s.serveKey acc (Obj.tapCtrl n) (v.setWidth 64) (Tap.write n))

/-! ## Epochs (R140, R147, R148, R154) -/

def execEpochArm (acc : Access) (w : BitVec 4) (s : State) : Host.Outcome State Fault Refusal :=
  .next (s.serveKey acc (Obj.epochCtrl w.toNat) 1 (fun _ => Sched.writeCtrl w 1 (decide (2 ≤ acc.level.toNat))))

def execEpochCancel (acc : Access) (w : BitVec 4) (s : State) : Host.Outcome State Fault Refusal :=
  .next (s.serveKey acc (Obj.epochCtrl w.toNat) 2 (fun _ => Sched.writeCtrl w 2 (decide (2 ≤ acc.level.toNat))))

def execForceStaged (acc : Access) (w : BitVec 4) (s : State) : Host.Outcome State Fault Refusal :=
  .next (s.serveKey acc (Obj.epochCtrl w.toNat) 3 (fun _ => Sched.writeCtrl w 3 (decide (2 ≤ acc.level.toNat))))

def execForceNull (acc : Access) (w : BitVec 4) (s : State) : Host.Outcome State Fault Refusal :=
  .next (s.serveKey acc (Obj.epochCtrl w.toNat) 4 (fun _ => Sched.writeCtrl w 4 (decide (2 ≤ acc.level.toNat))))

/-! ## Sockets, channels and ranks (R214, R220) -/

def execSockCfgWrite (acc : Access) (n sock : Nat) (v : BitVec 64) (s : State) : Host.Outcome State Fault Refusal :=
  .next (s.serveKey acc (Obj.sockCfg n sock) v (Control.writeSockCfg n sock))

/-- The ward a request may name in a gate's or engine's entry, when it is made at L1 (R236). -/
def askerOf (acc : Access) : Option (BitVec 4) := if acc.level = 1 then pathWard acc.path else none

/-- A write that may be accepted and answered later: the flag says so. -/
def State.serveLater (s : State) (acc : Access) (k : Nat) (v : Val) (eff : Val → State → Except Abort (State × Bool)) : State :=
  let i := k / 256
  let sub := k % 256
  if !s.serves acc then s
  else match s.check acc i sub .write (typeLen (s.typeOf i sub)) with
    | .error a => s.abortRequest acc 2 i sub 0 a
    | .ok r => match eff (r.merge k acc.level (s.obj k) v) s with
      | .error a => s.abortRequest acc 2 i sub 0 a
      | .ok (s1, true) => s1
      | .ok (s1, false) => s1.written acc k r.ty

/-- A channel entry, and whether its check waits for another die (R220). -/
def Control.chanLater (t i : Nat) (acc : Access) (v : Val) : State → Except Abort (State × Bool) := fun s =>
  match Control.writeChan t i (v.setWidth 32) acc (askerOf acc) s with
  | .error a => .error a
  | .ok s1 => .ok (s1, decide (s.ctl.checks.length < s1.ctl.checks.length))

/-- The key of entry `i` of the channel table at index `t` (R233). -/
def chanKey (t i : Nat) : Nat := objKey t (if 0x1680 ≤ t then 0x41 + i else 1 + i)

/-- CHANNEL_ENTRY_WRITE. -/
def Control.entryWrite (acc : Access) (t i : Nat) (v : BitVec 32) (s : State) : State :=
  s.serveLater acc (chanKey t i) (v.setWidth 64) (Control.chanLater t i acc)

def execChannelEntryWrite (acc : Access) (table : BitVec 16) (entry : Nat) (v : BitVec 32) (s : State) :
    Host.Outcome State Fault Refusal :=
  .next (Control.entryWrite acc table.toNat entry v s)

/-- The answer to a channel write whose check has ended. -/
def State.endCheck (s : State) (c : ChanCheck) (r : Except Abort Unit) : State :=
  let k := chanKey c.table c.entry
  match r with
  | .error a => s.abortRequest c.acc 2 (k / 256) (k % 256) 0 a
  | .ok _ => s.written c.acc k 3

/-- The destination die's answer to the pending write of an entry. WARD of an entry made valid meanwhile still cannot change (R236). -/
def Control.rankReceived (t i : Nat) (answer : RankAnswer) (s : State) : State :=
  match s.takeCheck t i, chanTable t with
  | some (c, s1), some (u, k0) =>
    let v : Val := c.value.setWidth 64
    match answer, s1.localRank u with
    | .noEndpoint, _ => s1.endCheck c (.error .outOfRange)
    | .rank r, some a =>
      match s1.chanWardClash u (k0 + i) v (askerOf c.acc) with
      | some e => s1.endCheck c (.error e)
      | none =>
        if a < r.toNat then
          let s2 := s1.setEntry u i (k0 + i) v
          ({ s2 with ctl := { s2.ctl with ranks := Tbl.set none s2.ctl.ranks (fget v 0 16) (some r) } }).endCheck c (.ok ())
        else s1.endCheck c (.error .rankOrder)
    | _, _ => s1.endCheck c (.error .rankOrder)
  | _, _ => s

/-- The registered channels without that of an entry of another die. -/
def State.dropIncoming (s : State) (src : BitVec 16) (entry : Nat) : State :=
  { s with ctl := { s.ctl with incoming := s.ctl.incoming.filter (fun c => !(c.src == src && c.entry == entry)) } }

/-- What this die answers about a channel that would end at `dest` (R220). -/
def State.rankAnswerOf (s : State) (dest : BitVec 16) (ward : BitVec 4) : RankAnswer :=
  let u := dest.toNat % 1024
  match s.cfg.endpointJunction u with
  | none => .noEndpoint
  | some n =>
    if dest.toNat / 1024 ≠ s.dieBits then .noEndpoint
    else if !s.endpointWard u n ward ∨ (0x80 ≤ u ∧ u < 0x90) ∨ (0x98 ≤ u ∧ u < 0x9C) then .otherWard
    else match s.localRank u with
      | some r => .rank (BitVec.ofNat 8 r)
      | none => .otherWard

/-- This die answers another, and registers the channel where it rises (R220). -/
def Control.rankGiven (src : BitVec 16) (entry : Nat) (dest : BitVec 16) (ward : BitVec 4) (rank : BitVec 8) (s : State) : State :=
  if !s.firmwareRuns then s
  else
    let answer := s.rankAnswerOf dest ward
    let s1 := s.dropIncoming src entry
    let s2 : State := match answer with
      | .rank r => if rank.toNat < r.toNat then { s1 with ctl := { s1.ctl with incoming := s1.ctl.incoming ++ [⟨src, entry, dest, rank⟩] } }
          else s
      | _ => s
    s2.emit (.rankAnswer src entry answer)

/-- CHANNEL_RANK_REPLY: a destination die's firmware returns a rank, to this die or from it. -/
def Control.rankReply (t : BitVec 16) (i : Nat) (r : RankReply) (s : State) : State :=
  match r with
  | .received a => Control.rankReceived t.toNat i a s
  | .given dest ward rank => Control.rankGiven t i dest ward rank s
  | .withdrawn => s.dropIncoming t i

def execChannelRankReply (table : BitVec 16) (entry : Nat) (reply : RankReply) (s : State) : Host.Outcome State Fault Refusal :=
  .next (Control.rankReply table entry reply s)

/-- The pending channel writes whose sender belongs to the ward are answered CHECK_INCOMPLETE: nothing of them is stored after its
reset or revocation (R236, R420). -/
def State.dropChecks (s : State) (w : BitVec 4) : State :=
  let mine := fun (c : ChanCheck) => match chanTable c.table with
    | some (u, _) => s.entryWard u (c.value.setWidth 64) == some w
    | none => false
  let s1 : State := { s with ctl := { s.ctl with checks := s.ctl.checks.filter (fun c => !mine c) } }
  (s.ctl.checks.filter mine).foldl (fun (a : State) c => a.endCheck c (.error .checkIncomplete)) s1

/-- CHANNEL_CHECK_TIMEOUT: no answer came within 1 ms. -/
def Control.checkTimeout (t i : Nat) (s : State) : State :=
  match s.takeCheck t i with
  | none => s
  | some (c, s1) => (s1.advanceTo (c.since + 1000000)).endCheck c (.error .checkIncomplete)

def execChannelCheckTimeout (table : BitVec 16) (entry : Nat) (s : State) : Host.Outcome State Fault Refusal :=
  .next (Control.checkTimeout table.toNat entry s)

/-- RANK_WRITE. -/
def Control.rankWrite (acc : Access) (t : Nat) (v : BitVec 8) (s : State) : State :=
  let key := match rankTable t with
    | some (_, k) => k
    | none => objKey t 0x81
  s.serveKey acc key (v.setWidth 64) (fun x => Control.writeRank t (x.setWidth 8))

def execRankWrite (acc : Access) (table : BitVec 16) (v : BitVec 8) (s : State) : Host.Outcome State Fault Refusal :=
  .next (Control.rankWrite acc table.toNat v s)

/-! ## Transaction objects (R257, R263, R272) -/

def execCohWindowWrite (acc : Access) (p i : Nat) (v : BitVec 64) (s : State) : Host.Outcome State Fault Refusal :=
  .next (s.serveLater acc (Obj.cohWindow p i) v (fun x => Txn.writeWindow p i x acc))

/-- COH_WINDOW_INVALIDATE_COMPLETE: the write takes effect and is answered. -/
def Txn.windowComplete (p i : Nat) (s : State) : State :=
  match s.txn.cohWaits.find? (fun c => c.port == p && c.index == i) with
  | none => s
  | some c =>
    if !s.windowReady c then s
    else match c.acc with
      | some acc => (Txn.windowDone p i s).written acc (Obj.cohWindow p i) 4
      | none => Txn.windowDone p i s

def execCohWindowInvalidateComplete (p i : Nat) (s : State) : Host.Outcome State Fault Refusal :=
  .next (Txn.windowComplete p i s)

def execArbRenumber (acc : Access) (a : Nat) (v : BitVec 32) (s : State) : Host.Outcome State Fault Refusal :=
  .next (s.serveKey acc (Obj.arbRenumber a) (v.setWidth 64) (Txn.renumber a))

def execPoolSizeWrite (acc : Access) (a : Nat) (v : BitVec 32) (s : State) : Host.Outcome State Fault Refusal :=
  .next (s.serveKey acc (Obj.poolSize a) (v.setWidth 64) (Txn.writePoolSize a))

/-! ## DMA channels (R297) -/

def execDmaStart (acc : Access) (e c : Nat) (s : State) : Host.Outcome State Fault Refusal :=
  .next (s.serveKey acc (Obj.chCtrl (16 * e + c)) 1 (fun _ => Dma.control (16 * e + c) 1))

def execDmaStop (acc : Access) (e c : Nat) (s : State) : Host.Outcome State Fault Refusal :=
  .next (s.serveKey acc (Obj.chCtrl (16 * e + c)) 2 (fun _ => Dma.control (16 * e + c) 2))

def execDmaAbort (acc : Access) (e c : Nat) (s : State) : Host.Outcome State Fault Refusal :=
  .next (s.serveKey acc (Obj.chCtrl (16 * e + c)) 3 (fun _ => Dma.control (16 * e + c) 3))

def execDmaClear (acc : Access) (e c : Nat) (s : State) : Host.Outcome State Fault Refusal :=
  .next (s.serveKey acc (Obj.chCtrl (16 * e + c)) 4 (fun _ => Dma.control (16 * e + c) 4))

end Sys2Proof.Machine
end

