-- ==== Sys2Proof/Machine/Bridge.lean ====
section
/-! DEFINITION. Scarf bridges: training, flits received, what lands from them, links that fall (R305 to R316, R319, R330). -/

namespace Sys2Proof.Machine

/-! ## Roles of modules (R319) -/

/-- Modules that carry a role. -/
def roleCount (bad role : Nat) : Nat := ((moduleRoles bad).filter (· == role)).length

/-- The modules that a training leaves out of service: those that failed it, and those that need more than their four redundant lanes
in a direction (R319). -/
def modulesOut (bad : Nat) (repair : BitVec 64) : Nat :=
  ((List.range 8).filter (fun m => bad.testBit m || decide (4 < repair.toNat / 2 ^ (8 * m + 4) % 8) || decide (4 < repair.toNat / 2 ^ (8 * m) % 8))).foldl
    (fun a m => a + 2 ^ m) 0

/-- BRIDGE_STATUS, but for RATE and PARTNER, and GROUP_MAP and MODULE_REPAIR, as the modules stand. -/
def State.showModules (s : State) (b st bad : Nat) (repair : BitVec 64) : State :=
  let v := s.obj (Obj.bridgeStatus b)
  let up := st == 2
  let n := fun (role : Nat) => if up && (decide (3 ≤ role) || s.bonded b role) then roleCount bad role else 0
  let v1 := fset (fset (fset v 29 3 st) 19 2 (n 0)) 17 2 (n 1)
  let v2 := fset (fset (fset v1 15 2 (n 2)) 14 1 (min 1 (n 3))) 13 1 (min 1 (n 4))
  let map := ((moduleRoles bad).zipIdx.map (fun p => p.1 * 2 ^ (4 * p.2))).sum
  let rep := ((List.range 8).map (fun m =>
    ((repair.toNat / 2 ^ (8 * m)) % 128 / 16 * 16 + (repair.toNat / 2 ^ (8 * m)) % 8 + (if bad.testBit m then 128 else 0)) * 2 ^ (8 * m))).sum
  let s1 := ((s.setObj (Obj.bridgeStatus b) v2).setObj (Obj.groupMap b) (BitVec.ofNat 64 map)).setObj (Obj.moduleRepair b) (BitVec.ofNat 64 rep)
  { s1 with brg := { s1.brg with bad := Tbl.set 0 s1.brg.bad b bad, retrain := Tbl.set 0 s1.brg.retrain b 0 } }

/-- The SPARE records of the modules whose byte of MODULE_REPAIR has changed from what it was: out of service, or repaired
(R527). -/
def State.repairRecords (s : State) (b n : Nat) (before : Val) : State :=
  (List.range 8).foldl (fun (a : State) m =>
    let new := fget (a.obj (Obj.moduleRepair b)) (8 * m) 8
    if new = fget before (8 * m) 8 then a
    else if 128 ≤ new then (if 128 ≤ fget before (8 * m) 8 then a else a.spareRecord 7 n 5 0x1F m new)
    else if new = 0 then a
    else a.spareRecord 6 n 5 0x1F m new) s

/-- Modules remain for both CTL and DAT. -/
def rolesFilled (bad : Nat) : Bool := decide (0 < roleCount bad 3) && decide (0 < roleCount bad 4)

/-! ## What lands (R250, R312, R313) -/

/-- The requests over bridge `b` whose data have come are accepted by the endpoint as initiator, in order, as tags allow. -/
def State.bridgeReqs (s : State) (b : Nat) : Nat → State
  | 0 => s
  | k + 1 =>
    let u := 0xB0 + b
    let match_ := fun (p d : TPkt) => p.src == d.src && p.tag == d.tag && p.gen == d.gen
    match s.brg.reqs.find? (fun e => e.1 == b) with
    | none => s
    | some (_, p) =>
      let d := (s.brg.early.find? (fun e => e.1 == b && match_ p e.2)).map (·.2)
      if hasWriteData p.op && d.isNone then s
      else match (s.tinit u).freeTag 1024 with
        | none => s
        | some tag =>
          let s1 : State := { s with brg := { s.brg with reqs := s.brg.reqs.erase (b, p), early := s.brg.early.filter (fun e => !(e.1 == b && match_ p e.2)) } }
          let s2 := match d with
            | some x =>
              if x.status ≠ 0 then s1.answerAcross b p.src p.ward p.level p.tag p.gen Status.uncorrectable []
              else s1.acceptTxn u ⟨p.op, p.addr, p.lenM1, p.level, p.ward, x.beats, (List.range x.beats.length).map (strobesOf x.masks)⟩ tag (.onward p.src p.tag p.gen)
            | none => s1.acceptTxn u ⟨p.op, p.addr, p.lenM1, p.level, p.ward, [], []⟩ tag (.onward p.src p.tag p.gen)
          s2.bridgeReqs b k

/-- A request record. -/
def State.landReq (s : State) (b n : Nat) (r : List Byte) : State :=
  let p := { TPkt.blank with kind := .request }.withBits (leAt r 1 23)
  if p.kind ≠ .request then s
  else if s.txnOuterFails n (0xB0 + b) p then s.txnOuterRaise n (0xB0 + b) p
  else
    let s1 : State := { s with brg := { s.brg with reqs := s.brg.reqs ++ [(b, p)] } }
    s1.bridgeReqs b s1.brg.reqs.length

/-- A response record: the answer to a request that this end has sent. -/
def State.landRsp (s : State) (b n : Nat) (r : List Byte) : State :=
  let p := { TPkt.blank with kind := .completion }.withBits (leAt r 1 11)
  if p.kind ≠ .completion then s
  else if s.txnOuterFails n (0xB0 + b) p then s.txnOuterRaise n (0xB0 + b) p
  else s.answerArrives (0x1B0 + b) p p.status []

/-- A data packet: read data for a request of this end, or the write data of a request of the partner's. -/
def State.landDat (s : State) (b n : Nat) (p : TPkt) : State :=
  let bad := s.txnOuterFails n (0xB0 + b) p
  let s1 := if bad then s.txnOuterRaise n (0xB0 + b) p else s
  if p.dkind = 1 then s1.answerArrives (0x1B0 + b) p (if bad then Status.uncorrectable else p.status) (if bad then [] else p.beats)
  else if p.dkind ≠ 0 then s1
  else
    let q := { p with status := if bad then Status.uncorrectable else 0 }
    let s2 : State := { s1 with brg := { s1.brg with early := s1.brg.early ++ [(b, q)] } }
    s2.bridgeReqs b s2.brg.reqs.length

/-- Records of the request, response, snoop and data groups are taken; a data packet once it is whole. Snoops do not cross. -/
def State.landTxn (s : State) (b g n : Nat) : Nat → State
  | 0 => s
  | k + 1 =>
    match (s.bgroup b g).recs with
    | [] => s
    | r :: rest =>
      if g = 4 then ((s.bridgeFree b g rest).landReq b n r).landTxn b g n k
      else if g = 5 then ((s.bridgeFree b g rest).landRsp b n r).landTxn b g n k
      else if g = 6 ∨ r.headD 0 ≠ 1 then (s.bridgeFree b g rest).landTxn b g n k
      else
        let x := leAt r 1 15
        let masks := nbits x 25 3
        let beats := nbits x 31 5 + 1
        if rest.length < masks + beats then s
        else
          let body := rest.map (fun q => BitVec.ofNat 1024 (leAt q 1 128))
          let p := { TPkt.blank with kind := .data, masks := body.take masks, beats := (body.drop masks).take beats }.withBits x
          ((s.bridgeFree b g (rest.drop (masks + beats))).landDat b n p).landTxn b g n k

/-- The records that a bridge has brought go where they belong, unless the die is frozen (R330) or the endpoint's region is not
ACTIVE. -/
def State.bridgeLand (s : State) (b g : Nat) : State :=
  match s.cfg.unitAt 4 b with
  | none => s
  | some n =>
    if g < 3 then s.bridgeFeed b g
    else if !s.moves n then s
    else if g = 3 then s.landCtl b
    else ((s.landTxn b g n ((s.bgroup b g).recs.length)).bridgeTell b g).touch n

/-- Everything waiting at the die's bridges lands, and what waits to be sent leaves. -/
def State.bridgesLand (s : State) : State :=
  (List.range 32).foldl (fun (a : State) i =>
    let a1 := a.bridgePump (i / 8) (i % 8)
    if (a1.bgroup (i / 8) (i % 8)).recs.isEmpty then a1 else a1.bridgeLand (i / 8) (i % 8)) s

/-! ## Training, retraining, fall (R306, R316, R319, R330) -/

/-- The groups of a bridge that have no module are down. -/
def State.dropGroups (s : State) (b : Nat) : State :=
  (List.range 8).foldl (fun (a : State) g => if a.groupState b g = 0 then a.groupDown b g else a) s

/-- This die's part of a package swap that waits is abandoned with code 0x10 (R149, R330). -/
def State.abandonSection (s : State) (w : Nat) : State :=
  let st := s.rd (.ldState w)
  if (s.sched w).package && (st == 4 || st == 5) then
    ((s.leaveSwap (BitVec.ofNat 4 w)).markStaged (BitVec.ofNat 4 w) 4).loadFails w 0x10 0x7F 0xF 0x1FFF
  else s

def State.pkg (s : State) (w : Nat) : PkgSeq := Tbl.get PkgSeq.zero s.brg.pkgs w

def State.setPkg (s : State) (w : Nat) (x : PkgSeq) : State :=
  { s with brg := { s.brg with pkgs := Tbl.set PkgSeq.zero s.brg.pkgs w x } }

/-- PKG_STATUS at the master (R334), and the copy of it at the other dies of the image, which hold their SCHED_IMAGE by it (R327;
log 132). -/
def State.pkgEnter (s : State) (w st code die : Nat) : State :=
  let v := st * 2 ^ 29 + code * 2 ^ 24 + die * 2 ^ 16
  ((s.pkg w).dies.filter (fun d => d != s.dieBits)).foldl (fun (a : State) d => a.peerWrite d 0x1921 (w + 1) (leBytes 4 v))
    (s.setObj (Obj.pkgStatus w) (BitVec.ofNat 64 v))

/-- A package swap is abandoned on every die: PKG_STATUS enters FAILED with code 0x10, and every die that is told so abandons its part
(R330). -/
def State.abandonPackage (s : State) (w die : Nat) : State := (s.abandonSection w).pkgEnter w 7 0x10 die

/-- The swaps of package images that wait are abandoned where a link is down: at the master on every die, at another die its own part,
which its report tells the master (R330). -/
def State.abandonPackages (s : State) : State :=
  (List.range 16).foldl (fun (a : State) w =>
    let pst := a.rd (.pkgState w)
    if a.isMaster && (pst == 4 || pst == 5) then a.abandonPackage w a.dieBits else a.abandonSection w) s

/-- The master's copy of PKG_STATUS comes to this die. -/
def Pkg.copyStatus (w : Nat) (v : Val) : Effect := fun s =>
  let s1 := s.setObj (Obj.pkgStatus w) v
  .ok (if fget v 29 3 = 7 ∧ fget v 24 5 = 0x10 then s1.abandonSection w else s1)

/-- The link of a bridge is down, in the STATE given. -/
def State.bridgeFall (s : State) (b st : Nat) : State :=
  match s.cfg.unitAt 4 b with
  | none => s
  | some n =>
    let s1 := (List.range 8).foldl (fun (a : State) g => a.groupDown b g) s
    let s2 := s1.setObj (Obj.bridgeStatus b) (BitVec.ofNat 64 (st * 2 ^ 29))
    let s3 := ((s2.raise (Cause.atUnit (0x074 + b) none n 5 0x3F 0xFFFF)).abandonPackages).serve (0xB0 + b)
    (List.range 3).foldl (fun (a : State) g => a.bridgeFeed b g) s3

/-- The die number that the enumeration gives the die beyond bridge `b`. -/
def State.expectedPartner (s : State) (b : Nat) : Option Nat :=
  let d := (s.obj Obj.dieNumber).toNat
  if d = 0xFF then none
  else match s.cfg.bridgeFacing.getD b 4 with
    | 0 => some (d - 8)
    | 1 => some (d + 1)
    | 2 => some (d + 8)
    | _ => some (d - 1)

/-- The bridge has come up after the enumeration, without the partner's number from it (R330). -/
def State.comesLate (s : State) (b : Nat) (partner : Option (BitVec 6)) : Bool :=
  match s.expectedPartner b with
  | none => false
  | some d => (partner.map (·.toNat)) != some d || !(s.obj Obj.dieMap).getLsbD d

/-- The bridge may train: its endpoint serves, and ENABLE is set (R306, R454). -/
def State.mayTrain (s : State) (b : Nat) : Bool :=
  match s.cfg.unitAt 4 b with
  | none => false
  | some n => s.running && !s.safeStart && (s.obj (Obj.bridgeCfg b)).getLsbD 0 && !s.junctionLost n && s.bonded b 0

/-- A bridge that is DOWN or FAILED begins to train (R332, R454). -/
def State.trainBegin (s : State) (b : Nat) : State :=
  if s.mayTrain b && (s.rd (.bridgeState b) == 0 || s.rd (.bridgeState b) == 4) then s.wr (.bridgeState b) 1 else s

/-- BRIDGE_TRAIN_COMPLETE: the bridge is trained, at 48 GT/s where either end asks for it; `bad` and `repair` are what the training
made of the modules. -/
def Bridge.trained (b : Nat) (slow : Bool) (bad : BitVec 8) (repair : BitVec 64) (partner : Option (BitVec 6)) (s : State) : State :=
  let st := s.rd (.bridgeState b)
  match s.cfg.unitAt 4 b with
  | none => s
  | some n =>
    let out := modulesOut bad.toNat repair
    if !s.mayTrain b ∨ st = 2 ∨ st = 3 then s
    else if !rolesFilled out then (s.showModules b 4 out repair).repairRecords b n (s.obj (Obj.moduleRepair b))
    else
      let s1 := (List.range 8).foldl (fun (a : State) g =>
        let x := a.bgroup b g
        a.setBgroup b g { BGroup.zero with recs := x.recs, cut := x.cut }) s
      let s2 := (s1.showModules b 2 out repair).repairRecords b n (s.obj (Obj.moduleRepair b))
      let v := fset (s2.obj (Obj.bridgeStatus b)) 28 1 (if slow || (s.obj (Obj.bridgeCfg b)).getLsbD 1 then 1 else 0)
      let v1 := match partner with
        | some d => fset (fset v 27 1 1) 21 6 d.toNat
        | none => fset (fset v 27 1 0) 21 6 0
      let late := s2.brg.late.filter (· != b)
      { s2.setObj (Obj.bridgeStatus b) v1 with brg := { s2.brg with late := if s.comesLate b partner then late ++ [b] else late } }

def execBridgeTrainComplete (b : Nat) (slow : Bool) (bad : BitVec 8) (repair : BitVec 64) (partner : Option (BitVec 6)) (s : State) :
    Host.Outcome State Fault Refusal := .next (Bridge.trained b slow bad repair partner s)

/-- Modules of a bridge retrain, as bit m: the records of their groups wait (R316). -/
def State.bridgeRetrain (s : State) (b mods : Nat) : State :=
  match s.cfg.unitAt 4 b with
  | none => s
  | some n =>
    let s1 : State := { s with brg := { s.brg with retrain := Tbl.upd 0 s.brg.retrain b (· ||| mods) } }
    ((s1.wr (.bridgeState b) 3).bump ⟨Obj.bridgeErr b, 0, 16⟩ 1).raise (Cause.atUnit (0x070 + b) none n 5 0x3F 0xFFFF)

/-- MODULE_REPAIR after a retrain of the modules `mods`: theirs as they came out of it, the others' as they were. -/
def repairAfter (mods : Nat) (old new : BitVec 64) : BitVec 64 :=
  BitVec.ofNat 64 (((List.range 8).map (fun m => fget (if mods.testBit m then new else old) (8 * m) 8 * 2 ^ (8 * m))).sum)

/-- What a group does once its modules are there again: a group that retrained, or whose modules have changed, sends again what is kept. -/
def State.groupResumes (s : State) (b g : Nat) (again : Bool) : State :=
  let s1 := if again && !(s.bgroup b g).replay.isEmpty then s.bridgeReplay b g else s
  (s1.setBgroup b g { s1.bgroup b g with answered := none, again := 0 }).bridgePump b g

/-- BRIDGE_RETRAIN_COMPLETE: roles are reassigned, groups without a module are down, and what the groups concerned keep is sent
again. A module once out of service stays so. -/
def Bridge.retrained (b : Nat) (bad : BitVec 8) (repair : BitVec 64) (s : State) : State :=
  if !s.running ∨ s.rd (.bridgeState b) ≠ 3 then s
  else
    let mods := s.retraining b
    let old := s.badModules b
    let rep := repairAfter mods (s.obj (Obj.moduleRepair b)) repair
    let out := old ||| (modulesOut bad.toNat repair &&& mods)
    let note := fun (a : State) => a.repairRecords b ((s.cfg.unitAt 4 b).getD 0) (s.obj (Obj.moduleRepair b))
    if !rolesFilled out then (note (s.showModules b 4 out rep)).bridgeFall b 4
    else
      (List.range 8).foldl (fun (a : State) g =>
        a.groupResumes b g (groupModules old g &&& mods != 0 || groupModules old g != groupModules out g))
        ((note (s.showModules b 2 out rep)).dropGroups b)

def execBridgeRetrainComplete (b : Nat) (bad : BitVec 8) (repair : BitVec 64) (s : State) : Host.Outcome State Fault Refusal :=
  .next (Bridge.retrained b bad repair s)

/-- BRIDGE_LINK_DOWN. -/
def Bridge.linkDown (b : Nat) (s : State) : State :=
  if !s.running ∨ (s.rd (.bridgeState b) ≠ 2 ∧ s.rd (.bridgeState b) ≠ 3) then s else s.bridgeFall b 0

def execBridgeLinkDown (b : Nat) (s : State) : Host.Outcome State Fault Refusal := .next (Bridge.linkDown b s)

/-- The marker or flit that waited for room in a tensor group's transmit side may go on (R144, R315). -/
def State.groupRetry (s : State) (b g : Nat) : State :=
  if 3 ≤ g then s
  else match s.cfg.groupPort b g with
    | some (n, _) => if s.moves n then s.swapTry n else s
    | none => s

/-- BRIDGE_FLIT_RECEIVE: the flit is taken or discarded, the group sends what it may now, and what has come lands. A SEQ replayed
eight times in succession makes the group's modules retrain (R316). -/
def Bridge.flitReceive (b g : Nat) (flit : BitVec 2048) (s : State) : State :=
  match s.cfg.unitAt 4 b with
  | none => s
  | some n =>
    if !s.running ∨ 8 ≤ g ∨ !s.groupRuns b g ∨ s.groupState b g = 0 then s
    else
      let s1 := if s.injectedAt 0x09 n 5 g then s.injectFired.bridgeDiscard b g else s.bridgeTake b g flit
      if 8 ≤ (s1.bgroup b g).again then s1.bridgeRetrain b (groupModules (s1.badModules b) g)
      else
        let s2 := ((s1.bridgePump b g).groupRetry b g).bridgeLand b g
        if (s2.bgroup b g).nak then s2.bridgeIdle b g else s2.bridgeTell b g

def execBridgeFlitReceive (b g : Nat) (flit : BitVec 2048) (s : State) : Host.Outcome State Fault Refusal :=
  .next (Bridge.flitReceive b g flit s)

/-! ## Objects (R331) -/

/-- BRIDGE_CFG: ENABLE 0 brings the link down or ends a training, ENABLE 1 has a link that is down train; the rest takes effect at the
next training. -/
def Bridge.writeCfg (b : Nat) (v : Val) : Effect := fun s =>
  let s1 := s.setObj (Obj.bridgeCfg b) v
  let st := s.rd (.bridgeState b)
  .ok (if v.getLsbD 0 then s1.trainBegin b
       else if st = 2 ∨ st = 3 then s1.bridgeFall b 0
       else if st = 1 then s1.wr (.bridgeState b) 0 else s1)

def execBridgeCfgWrite (acc : Access) (b : Nat) (v : BitVec 8) (s : State) : Host.Outcome State Fault Refusal :=
  .next (s.serveKey acc (Obj.bridgeCfg b) (v.setWidth 64) (Bridge.writeCfg b))

def execBridgeErrClear (acc : Access) (b : Nat) (s : State) : Host.Outcome State Fault Refusal :=
  .next (s.serveClear acc (Obj.bridgeErr b))

end Sys2Proof.Machine
end

