-- ==== Sys2Proof/Machine/Package.lean ====
section
/-! DEFINITION. The package: enumeration, its time base and the hall's, its number, and package schedules (R60, R320 to
R328, R545). -/

namespace Sys2Proof.Machine

/-! ## Fields -/

def Fld.enumSt : Fld := ⟨Obj.enumState, 30, 2⟩
def Fld.enumCause : Fld := ⟨Obj.enumState, 27, 3⟩
def Fld.enumParent : Fld := ⟨Obj.enumState, 0, 3⟩

/-- The die holds a number (R320). -/
def State.enumerated (s : State) : Bool := (s.obj Obj.dieNumber).toNat != 0xFF

/-- The bridge that leads to the parent, on a die that has one. -/
def State.parent (s : State) : Option Nat := if s.rd .enumParent < 4 then some (s.rd .enumParent) else none

/-- The bridge has trained. -/
def State.bridgeTrained (s : State) (b : Nat) : Bool :=
  (s.cfg.unitAt 4 b).isSome && (s.rd (.bridgeState b) == 2 || s.rd (.bridgeState b) == 3)

/-- The trained bridges but one. -/
def State.trainedBut (s : State) (b : Option Nat) : List Nat :=
  (List.range 4).filter (fun x => s.bridgeTrained x && b != some x)

/-- A value goes to every other enumerated die, on the firmware path (R322, R545; assumption 21). -/
def State.peerCopy (s : State) (i sub : Nat) (bs : List Byte) : State :=
  ((List.range 64).filter (fun d => (s.obj Obj.dieMap).getLsbD d && d != s.dieBits)).foldl
    (fun (a : State) d => a.peerWrite d i sub bs) s

/-! ## Enumeration (R320, R321, R333) -/

/-- The provisional identifier (R60). -/
def State.provisionalId (s : State) : BitVec 48 :=
  if (s.obj Obj.lifecycle).toNat = 0 then BitVec.ofNat 48 (s.boot.mfr.toNat * 2 ^ 33 + 2 ^ 32 + s.pin.pidRandom.toNat)
  else BitVec.ofNat 48 (s.boot.mfr.toNat * 2 ^ 33 + s.cfg.njs * 2 ^ 16 + s.boot.serial.toNat)

/-- The position of the die that a bridge facing `d` leads to. -/
def stepPos (d : Nat) (p : Int × Int) : Int × Int :=
  match d with
  | 0 => (p.1, p.2 - 1)
  | 1 => (p.1 + 1, p.2)
  | 2 => (p.1, p.2 + 1)
  | _ => (p.1 - 1, p.2)

/-- ENUM leaves on every trained bridge but the one it came by. -/
def State.forwardEnum (s : State) (p : Int × Int) (master : BitVec 48) (from_ : Option Nat) : State :=
  (s.trainedBut from_).foldl (fun (a : State) b =>
    let d := a.cfg.bridgeFacing.getD b 0
    let q := stepPos d p
    a.emit (.sidebandEnum b q.1 q.2 master (BitVec.ofNat 2 d))) s

/-- Enumeration begins when the firmware runs: the master takes (0,0) and sends ENUM; every other die waits for one. -/
def State.enumStart (s : State) : State :=
  if s.rd .enumSt ≠ 0 ∨ s.safeStart then s
  else if s.isMaster then
    let s1 : State := { s with brg := { s.brg with pos := some (0, 0), quietFrom := some s.now } }
    (s1.wr .enumSt 1).forwardEnum (0, 0) s1.provisionalId none
  else { s with brg := { s.brg with waitUntil := some (s.now + 1000000000) } }

/-- Enumeration fails with a cause of R333: this die records it, has no number, and passes it on by every trained bridge but the one it
came by, since every die reached records it (R321; the sideband's message: log 133). -/
def State.enumFailFrom (s : State) (cause : Nat) (from_ : Option Nat) : State :=
  let s1 : State := { s with brg := { s.brg with quietFrom := none, waitUntil := none } }
  let s2 := ((((s1.wr .enumSt 3).wr .enumCause cause).setObj Obj.dieNumber 0xFF).setObj Obj.dieMap 0).raise { Cause.plain 0x078 with info := cause }
  (s2.trainedBut from_).foldl (fun (a : State) b => a.emit (.sidebandFail b (BitVec.ofNat 3 cause))) s2

/-- Enumeration fails at this die. -/
def State.enumFail (s : State) (cause : Nat) : State := s.enumFailFrom cause none

/-- A position more than seven dies from the master cannot lie within 8 by 8. -/
def beyondExtent (p : Int × Int) : Bool := decide (7 < p.1.natAbs) || decide (7 < p.2.natAbs)

/-- The cause for which an ENUM fails, if any (R321). -/
def State.enumCauseOf (s : State) (b : Nat) (p : Int × Int) (master : BitVec 48) (facing_ : Nat) : Option Nat :=
  if facing (s.cfg.bridgeFacing.getD b 0) ≠ facing_ then some 5
  else if s.isMaster ∧ master ≠ s.provisionalId then some 3
  else if beyondExtent p then some 4
  else match s.brg.pos with
    | some q => if q = p then none else some 2
    | none => none

/-- ENUM_RECEIVE. Once the enumeration is DONE only another master's ENUM counts, at the master (R321). -/
def Pkg.enumReceive (b : Nat) (p : Int × Int) (master : BitVec 48) (facing_ : Nat) (s : State) : State :=
  if !s.running ∨ !s.bridgeTrained b ∨ s.rd .enumSt = 3 then s
  else if s.rd .enumSt = 2 then (if s.isMaster ∧ master ≠ s.provisionalId then s.enumFail 3 else s)
  else match s.enumCauseOf b p master facing_ with
    | some c => s.enumFail c
    | none =>
      if s.brg.pos.isSome then s
      else
        let s1 : State := { s with brg := { s.brg with pos := some p, waitUntil := none } }
        ((s1.wr .enumSt 1).wr .enumParent b).forwardEnum p master (some b)

def execEnumReceive (b : Nat) (col row : Int) (masterId : BitVec 48) (facing_ : BitVec 2) (s : State) :
    Host.Outcome State Fault Refusal := .next (Pkg.enumReceive b (col, row) masterId facing_.toNat s)

/-- Die number of a position, from the origin. -/
def dieOf (o p : Int × Int) : Nat := ((p.2 - o.2) * 8 + (p.1 - o.1)).toNat

/-- ENUM_STATE of a die that has its number. -/
def enumDone (cols rows master parent : Nat) : Nat :=
  2 * 2 ^ 30 + cols * 2 ^ 24 + rows * 2 ^ 21 + master * 2 ^ 15 + parent

/-- PARTNER of a trained bridge, once the die has its number (R332). -/
def State.showPartners (s : State) : State :=
  (s.trainedBut none).foldl (fun (a : State) b =>
    match a.expectedPartner b with
    | some d =>
      let v := a.obj (Obj.bridgeStatus b)
      if (a.obj Obj.dieMap).getLsbD d then a.setObj (Obj.bridgeStatus b) (fset (fset v 27 1 1) 21 6 d) else a
    | none => a) s

/-- The die takes its number (R320): its bridges carry traffic from here on. -/
def State.takeNumber (s : State) (die cols rows master parent : Nat) (map : BitVec 64) : State :=
  let s1 := ((s.setObj Obj.dieNumber (BitVec.ofNat 64 die)).setObj Obj.dieMap map).setObj Obj.enumState
    (BitVec.ofNat 64 (enumDone cols rows master parent))
  ({ s1 with brg := { s1.brg with quietFrom := none, waitUntil := none, late := [] } }).showPartners

/-- ASSIGN leaves on every trained bridge but one. -/
def State.forwardAssign (s : State) (o : Int × Int) (cols rows master : Nat) (map : BitVec 64) (from_ : Option Nat) : State :=
  (s.trainedBut from_).foldl (fun (a : State) b =>
    a.emit (.sidebandAssign b o.1 o.2 (BitVec.ofNat 3 cols) (BitVec.ofNat 3 rows) (BitVec.ofNat 6 master) map)) s

/-! ## Time exchanges (R324, R325) -/

def State.trial (s : State) (b : Nat) : TimeTrial := Tbl.get TimeTrial.zero s.brg.trials b

def State.setTrial (s : State) (b : Nat) (x : TimeTrial) : State :=
  { s with brg := { s.brg with trials := Tbl.set TimeTrial.zero s.brg.trials b x } }

/-- TIME_REQ of the exchange that is next on bridge `b`: it is stamped as its flit leaves. -/
def State.sendTimeReq (s : State) (b : Nat) : State :=
  let x := s.trial b
  (s.setTrial b { x with sent := s.now }).bridgeStamped b 3 ([2] ++ leBytes 8 s.now ++ leBytes 1 x.made) 1

/-- The die measures its children, which are the dies beyond its trained bridges but that to its parent. -/
def State.timeChildren (s : State) : State :=
  ((s.trainedBut s.parent).filter (fun b => s.groupCarries b 3)).foldl (fun (a : State) b =>
    (a.setTrial b TimeTrial.zero).sendTimeReq b) s

/-- A measurement of this die: TB_GEN rises, and its children follow. -/
def State.measured (s : State) : State := (s.bumpWrap ⟨Obj.tbGen, 0, 32⟩ 1).timeChildren

/-- The die measures again (R325). Its parent stamps the exchange, so a die with a parent asks it, by a write of its TB_GEN. -/
def State.measureAgain (s : State) : State :=
  match s.parent with
  | some b =>
    match s.expectedPartner b with
    | some d => s.peerWrite d 0x1900 0x08 [0, 0, 0, 0]
    | none => s.measured
  | none => s.measured

/-! ## The hall's time base (R545) -/

/-- HALL_OFFSET and HALL_ERROR are set, and copied to every enumerated die. -/
def State.hallSet (s : State) (offset : Int) (err : Nat) : State :=
  let o := BitVec.ofInt 64 offset
  let e := min err 0xFFFFFFFF
  let s1 := (s.setObj Obj.hallOffset o).setObj Obj.hallError (BitVec.ofNat 64 e)
  ((s1.peerCopy 0x2400 0x0A (leBytes 8 o.toNat)).peerCopy 0x2400 0x0B (leBytes 4 e) :
    State)

/-- A hall measurement begins at the master, where HALL_REF is valid. -/
def State.hallBegin (s : State) : State :=
  let r := s.obj Obj.hallRef
  if !s.isMaster ∨ fget r 31 1 = 0 then s
  else if fget r 16 12 = (s.obj Obj.pkgNumber).toNat then
    ({ s with obs := { s.obs with hall := [], hallFrom := none } }).hallSet 0 0
  else { s with obs := { s.obs with hall := [], hallFrom := some s.now } }

/-! ## The end of enumeration -/

/-- Least and largest of the coordinates found, 0 among them: the master's own. -/
def leastOf (xs : List Int) : Int := xs.foldl min 0
def mostOf (xs : List Int) : Int := xs.foldl max 0

/-- ENUM_QUIET_EXPIRE: 10 ms have passed with no new die (R320). -/
def Pkg.quietExpire (found : List (Int × Int)) (s : State) : State :=
  match s.brg.quietFrom with
  | none => s
  | some t =>
    if !s.firmwareRuns ∨ !s.isMaster then s
    else
      let s0 := s.advanceTo (t + 10000000)
      let cs := found.map (·.1)
      let rs := found.map (·.2)
      let o := (leastOf cs, leastOf rs)
      let cols := (mostOf cs - o.1).toNat
      let rows := (mostOf rs - o.2).toNat
      if 7 < cols ∨ 7 < rows then s0.enumFail 4
      else
        let own := dieOf o (0, 0)
        let map := BitVec.ofNat 64 ((((0, 0) :: found).map (dieOf o)).eraseDups.map (2 ^ ·)).sum
        let s1 := (s0.takeNumber own cols rows own 7 map).forwardAssign o cols rows own map none
        let s2 := (s1.setObj Obj.tbOffset 0).setObj Obj.tbError 0
        s2.measured.hallBegin

def execEnumQuietExpire (found : List (Int × Int)) (s : State) : Host.Outcome State Fault Refusal :=
  .next (Pkg.quietExpire found s)

/-- ENUM_ASSIGN_RECEIVE: a die that ENUM has reached takes its number, and passes ASSIGN on; or, where the sideband brings a failure
of the enumeration, records that (R321). -/
def Pkg.assignReceive (o : Int × Int) (cols rows : BitVec 3) (master : BitVec 6) (body : AssignBody) (s : State) : State :=
  match s.brg.pos, body with
  | none, _ => s
  | some _, .failed cause => if s.running ∧ s.rd .enumSt ≠ 3 then s.enumFail cause.toNat else s
  | some p, .dies map =>
    if !s.running ∨ s.isMaster ∨ s.rd .enumSt ≠ 1 then s
    else
      let c := s.rd .enumParent
      (s.takeNumber (dieOf o p) cols.toNat rows.toNat master.toNat c map).forwardAssign o cols.toNat rows.toNat master.toNat map s.parent

def execEnumAssignReceive (col0 row0 : Int) (cols rows : BitVec 3) (master : BitVec 6) (body : AssignBody) (s : State) :
    Host.Outcome State Fault Refusal := .next (Pkg.assignReceive (col0, row0) cols rows master body s)

/-- ENUM_WAIT_EXPIRE: the firmware has run for 1 s without an ENUM. -/
def Pkg.waitExpire (s : State) : State :=
  match s.brg.waitUntil with
  | none => s
  | some t => if !s.firmwareRuns ∨ s.rd .enumSt ≠ 0 then s else (s.advanceTo t).enumFail 1

def execEnumWaitExpire (s : State) : Host.Outcome State Fault Refusal := .next (Pkg.waitExpire s)

/-! ## PKG_NUMBER (R322) -/

/-- The value of object `k` gives something to a ward (R408): a range, window, page, group, counter, channel, gate or host port. -/
def ownsSome (k : Nat) (v : Val) : Bool :=
  let i := k / 256
  if k % 256 = 0 then false
  else if i = 0x1E10 ∨ (0x1720 ≤ i ∧ i < 0x1724) ∨ (0x1B20 ≤ i ∧ i < 0x1B30) then fget v 63 1 == 1
  else if (0x1854 ≤ i ∧ i < 0x1858) ∨ (0x1B50 ≤ i ∧ i < 0x1B60) then (tripWardOf v).isSome
  else if (0x1810 ≤ i ∧ i < 0x1850) ∨ (0x1C00 ≤ i ∧ i < 0x1E00) then k % 256 == 1 && (chanWardOf v).isSome
  else (i == 0x1A01 || i == 0x1220) && v != 0

/-- Some ward owns a resource of this die. -/
def State.anyOwned (s : State) : Bool :=
  (List.range s.cfg.njs).any (fun n => (s.wardOf n).isSome) || s.objs.any (fun p => ownsSome p.1 p.2) ||
    s.gat.plat.any (fun e => fget e.2 63 1 == 1)

/-- Some ward owns a resource on another die of the package: a free value, where there is one (R322; log 134). -/
def State.ownedElsewhere (s : State) : Bool :=
  (List.range 64).any (fun d => (s.obj Obj.dieMap).getLsbD d && d != s.dieBits) && Config.ownedElsewhere s.drawn s.now

/-- PKG_NUMBER. The master's copy comes on the firmware path of a peer. -/
def Pkg.writeNumber (path : Path) (v : Val) : Effect := fun s =>
  if isPeer path then .ok (s.setObj Obj.pkgNumber v)
  else if !s.isMaster then .error .notPresent
  else if 4095 < v.toNat then .error .outOfRange
  else if s.anyOwned || s.ownedElsewhere then .error .inUse
  else .ok ((s.setObj Obj.pkgNumber v).peerCopy 0x1900 0x02 (leBytes 2 v.toNat))

def execPkgNumberWrite (acc : Access) (v : BitVec 16) (s : State) : Host.Outcome State Fault Refusal :=
  .next (s.serveKey acc Obj.pkgNumber (v.setWidth 64) (Pkg.writeNumber acc.path))

/-! ## Time records -/

/-- The first time record with the given lead byte that has come over bridge `b`, taken. -/
def State.takeTime (s : State) (b : Nat) (lead : Byte) : Option (List Byte × Nat × State) :=
  match s.brg.times.find? (fun e => e.1 == b && e.2.1.headD 0 == lead) with
  | none => none
  | some e => some (e.2.1, e.2.2, { s with brg := { s.brg with times := s.brg.times.erase e } })

/-- TIME_REQ_RECEIVE: the child answers its parent, with the stamps of arrival and departure (R324). -/
def Pkg.timeReq (b : Nat) (s : State) : State :=
  if s.frozen ∨ !s.running then s
  else match s.takeTime b 2 with
    | none => s
    | some (r, at_, s1) =>
      if s1.parent ≠ some b then s1
      else s1.bridgeStamped b 3 ([3] ++ leBytes 8 (leAt r 1 8) ++ leBytes 8 at_ ++ leBytes 8 s1.now ++ leBytes 1 (leAt r 9 1)) 17

def execTimeReqReceive (b : Nat) (s : State) : Host.Outcome State Fault Refusal := .next (Pkg.timeReq b s)

/-- Offset and trip of an exchange (R324). -/
def exchangeOffset (t1 t2 t3 t4 : Int) : Int := Int.tdiv ((t2 - t1) + (t3 - t4)) 2
def exchangeTrip (t1 t2 t3 t4 : Int) : Int := (t4 - t1) - (t3 - t2)

/-- The exchange with the least trip, of one more and those before. -/
def TimeTrial.take (x : TimeTrial) (offset trip : Int) : TimeTrial :=
  { x with made := x.made + 1
           best := match x.best with
             | some (t, o) => if trip < t then some (trip, offset) else some (t, o)
             | none => some (trip, offset) }

/-- A bound on an error, further out by 2 ns; one not measured stays so. -/
def errorPlus (e : Nat) : Nat := if e = 0xFFFFFFFF then e else min (e + 2) 0xFFFFFFFF

/-- The child's offset and error are set (R324). -/
def State.timeDone (s : State) (b : Nat) (offset : Int) : State :=
  match s.expectedPartner b with
  | none => s
  | some d =>
    let o := s.obj Obj.tbOffset + BitVec.ofInt 64 offset
    let e := errorPlus (s.obj Obj.tbError).toNat
    (s.peerWrite d 0x1900 0x05 (leBytes 8 o.toNat)).peerWrite d 0x1900 0x06 (leBytes 4 e)

/-- TIME_RESP_RECEIVE: after eight exchanges the one with the least trip counts. -/
def Pkg.timeResp (b : Nat) (s : State) : State :=
  if s.frozen ∨ !s.running then s
  else match s.takeTime b 3 with
    | none => s
    | some (r, at_, s1) =>
      let x := s1.trial b
      if leAt r 1 8 < x.sent ∨ leAt r 25 1 ≠ x.made ∨ 8 ≤ x.made then s1
      else
        let t1 : Int := leAt r 1 8
        let t2 : Int := leAt r 9 8
        let t3 : Int := leAt r 17 8
        let y := x.take (exchangeOffset t1 t2 t3 at_) (exchangeTrip t1 t2 t3 at_)
        if y.made < 8 then (s1.setTrial b y).sendTimeReq b
        else match y.best with
          | some (_, o) => (s1.setTrial b y).timeDone b o
          | none => s1

def execTimeRespReceive (b : Nat) (s : State) : Host.Outcome State Fault Refusal := .next (Pkg.timeResp b s)

/-- The end of the period of TB_PERIOD that begins now. -/
def State.tbPeriodFrom (s : State) : State :=
  let p := (s.obj Obj.tbPeriod).toNat
  { s with brg := { s.brg with tbDue := if p = 0 then none else some (s.now + p * 1000000) } }

/-- TB_PERIOD_EXPIRE. -/
def Pkg.periodExpire (s : State) : State :=
  match s.brg.tbDue with
  | none => s
  | some t =>
    if !s.firmwareRuns then s
    else (s.advanceTo t).tbPeriodFrom.measureAgain.hallBegin

def execTbPeriodExpire (s : State) : Host.Outcome State Fault Refusal := .next (Pkg.periodExpire s)

/-- TB_PERIOD. -/
def Pkg.writePeriod (v : Val) : Effect := fun s => .ok (s.setObj Obj.tbPeriod v).tbPeriodFrom

/-- TB_GEN: a write of any value starts a measurement; one by a child has this die measure its children. -/
def Pkg.writeGen (path : Path) : Effect := fun s => .ok (if isPeer path then s.timeChildren else s.measureAgain)

def execTbGenWrite (acc : Access) (v : BitVec 32) (s : State) : Host.Outcome State Fault Refusal :=
  .next (s.serveKey acc Obj.tbGen (v.setWidth 64) (fun _ => Pkg.writeGen acc.path))

/-- TB_ERROR, as a parent writes it after an exchange: the die has been measured. -/
def Pkg.writeError (v : Val) : Effect := fun s => .ok (s.setObj Obj.tbError v).measured

/-! ## Package images: the container (R326, R327) -/

/-- A section of a package image. -/
structure PkgSection where
  die : Nat
  bytes : List Byte
  deriving DecidableEq, Repr

def pkgSections (bs : List Byte) : List PkgSection :=
  (List.range (leAt bs 3 1)).map (fun d => ⟨leAt bs (16 + 12 * d) 1, (bs.drop (leAt bs (20 + 12 * d) 4)).take (leAt bs (24 + 12 * d) 4)⟩)

/-- The entry of section `d` is well formed. -/
def pkgEntryOk (bs : List Byte) (max_ d : Nat) : Bool :=
  let off := leAt bs (20 + 12 * d) 4
  let len := leAt bs (24 + 12 * d) 4
  zeroAt bs (17 + 12 * d) 3 && off % 4 == 0 && decide (16 + 12 * leAt bs 3 1 ≤ off) && decide (off + len ≤ bs.length) &&
    decide (len ≤ max_) && (d == 0 || decide (leAt bs (4 + 12 * d) 1 < leAt bs (16 + 12 * d) 1))

/-- The container is well formed. -/
def pkgFormatOk (bs : List Byte) (max_ : Nat) : Bool :=
  leAt bs 0 2 == 1 && decide (leAt bs 2 1 < 16) && decide (1 ≤ leAt bs 3 1) && decide (leAt bs 3 1 ≤ 64) && zeroAt bs 8 8 &&
    decide (16 + 12 * leAt bs 3 1 ≤ bs.length) && (List.range (leAt bs 3 1)).all (pkgEntryOk bs max_)

/-- What a section names at a tensor group's port: the flows it passes out, and those it takes in. -/
def PkgSection.ports (x : PkgSection) (c : Integration) : List ((Nat × Nat) × List (BitVec 32) × List (BitVec 64)) :=
  match parseImage x.bytes with
  | .error _ => []
  | .ok m => (List.range 12).filterMap (fun i =>
      (c.groupPort (i / 3) (i % 3)).map (fun q => ((i / 3, i % 3), (m.bankOf q.1).outs.getD q.2 [], (m.bankOf q.1).ins.getD q.2 [])))

/-- Every crossing of a bridge: the flow, the section's die and the group. -/
def pkgCrossings (xs : List PkgSection) (c : Integration) : List (Nat × Nat × Nat × Nat) :=
  xs.flatMap (fun x => (x.ports c).flatMap (fun p =>
    (((expandList p.2.1).map (fun e => e.2.1)).eraseDups).map (fun f => (f, x.die, p.1.1, p.1.2))))

/-- Flows that cross are numbered 0xF00 to 0xFFE, and no flow is used by two crossings. -/
def crossingsOk (cs : List (Nat × Nat × Nat × Nat)) : Bool :=
  cs.all (fun x => decide (0xF00 ≤ x.1) && decide (x.1 ≤ 0xFFE)) && (cs.map (·.1)).eraseDups.length == cs.length

/-- Step 1 of R327: the container fails. -/
def State.containerBad (s : State) (w : BitVec 4) (bs : List Byte) : Bool :=
  let xs := pkgSections bs
  !pkgFormatOk bs (s.obj Obj.maxImage).toNat || leAt bs 2 1 != w.toNat || xs.any (fun x => !(s.obj Obj.dieMap).getLsbD x.die) ||
    xs.any (fun x => leAt x.bytes 12 1 != leAt bs 2 1 || leAt x.bytes 8 4 != leAt bs 4 4) || !crossingsOk (pkgCrossings xs s.cfg)

/-- The die beyond a bridge facing `d`, and the bridge's fellow there, which faces the opposite way. -/
def farDie (d die : Nat) : Option Nat :=
  match d with
  | 0 => if 8 ≤ die then some (die - 8) else none
  | 1 => if die % 8 = 7 then none else some (die + 1)
  | 2 => if die < 56 then some (die + 8) else none
  | _ => if die % 8 = 0 then none else some (die - 1)

def Integration.fellow (c : Integration) (b : Nat) : Nat :=
  ((List.range 4).find? (fun x => c.bridgeFacing.getD x 4 == facing (c.bridgeFacing.getD b 0))).getD b

/-- The lists of die `die` at tensor group `g` of bridge `b`, with the image's flits of a flow. -/
def pkgLists (xs : List PkgSection) (c : Integration) (die b g : Nat) : Option (Img × List (BitVec 32) × List (BitVec 64)) :=
  match xs.find? (fun x => x.die == die) with
  | none => none
  | some x =>
    match parseImage x.bytes, (x.ports c).find? (fun p => p.1 == (b, g)) with
    | .ok m, some p => some (m, p.2.1, p.2.2)
    | _, _ => none

/-- What one die sends over a group differs from what the die beyond takes there (LINK, R137): the sending die. -/
def pkgLinkFail (xs : List PkgSection) (c : Integration) : Option Nat :=
  (List.range 64).find? (fun die => (List.range 12).any (fun i =>
    let b := i / 3
    let g := i % 3
    if (c.unitAt 4 b).isNone then false
    else
      let mine := match pkgLists xs c die b g with
        | some (m, outs, _) => m.runsOut outs
        | none => some []
      let theirs := match (farDie (c.bridgeFacing.getD b 0) die).bind (fun d => pkgLists xs c d (c.fellow b) g) with
        | some (_, _, ins) => runsIn ins
        | none => []
      mine != some theirs))

/-- State of tensor group `g` of bridge `b` of die `d`: this die's own, or as BRIDGE_STATUS of another reads (R332). -/
def State.dieGroup (s : State) (results : List DieResult) (d b g : Nat) : Nat :=
  if d = s.dieBits then (if s.bridgeTrained b then s.groupState b g else 0)
  else match results.find? (fun r => r.die.toNat == d) with
    | some r =>
      let v := (r.bridges.getD b 0).toNat
      if v / 2 ^ 29 % 8 = 2 ∨ v / 2 ^ 29 % 8 = 3 then v / 2 ^ (19 - 2 * g) % 4 else 0
    | none => 0

/-- A tensor group that a section names is down (step 4 of R327): its die. -/
def State.pkgGroupDown (s : State) (results : List DieResult) (xs : List PkgSection) : Option Nat :=
  (xs.find? (fun x => (x.ports s.cfg).any (fun p =>
    (!p.2.1.isEmpty || !p.2.2.isEmpty) && s.dieGroup results x.die p.1.1 p.1.2 == 0))).map (·.die)

/-! ## Sections on their way (step 2 of R327) -/

/-- The next request of a section's transfer: INIT_DOWNLOAD, then SEGMENTs of up to 1,024 bytes (R444, R445). -/
def PkgSend.request (x : PkgSend) (w : Nat) : ReqPdu :=
  match x.handle with
  | none => ⟨4, 3, 0x1401, w + 1, 0, BitVec.ofNat 32 x.size, 0, []⟩
  | some h =>
    let part := x.rest.take 1024
    ⟨5, 3, 0x1401, w + 1, h, BitVec.ofNat 32 (x.next % 65536 + part.length * 65536 + (if x.rest.length ≤ 1024 then 2 ^ 31 else 0)), 0, part⟩

/-- A section's transfer asks on, unless an answer is awaited or no tag is free. -/
def State.sectionAsk (s : State) (w : Nat) (x : PkgSend) : State :=
  if x.busy then s
  else
    let r := s.peerAsk x.die (x.request w) 9 (.engine w x.die x.since)
    if r.2 then r.1.setPkg w { r.1.pkg w with sends := (r.1.pkg w).sends.map (fun y => if y.die = x.die then { x with busy := true } else y) } else s

/-- A section's transfer after a good answer: none once the last segment has been taken. -/
def PkgSend.after (x : PkgSend) (reply : List Byte) : Option PkgSend :=
  match x.handle with
  | none => some { x with handle := some (BitVec.ofNat 16 (leAt reply 6 2)), busy := false }
  | some _ => if x.rest.length ≤ 1024 then none else some { x with rest := x.rest.drop 1024, next := x.next + 1, busy := false }

/-- The answers that have come for the sections of ward `w`: the die whose transfer has failed, if any, and the state with the others'
taken. -/
def State.sectionAnswers (s : State) (w : Nat) : Nat → State × Option Nat
  | 0 => (s, none)
  | k + 1 =>
    let mine := fun (d : TDone) => d.unit == 0xC1 && (match d.owner with
      | .engine c _ _ => c == w
      | _ => false)
    match s.txn.dones.find? mine with
    | none => (s, none)
    | some d =>
      let s1 : State := { s with txn := { s.txn with dones := s.txn.dones.erase d } }
      let from_ := match d.owner with
        | .engine _ x t => (x, t)
        | _ => (64, 0)
      let x := s1.pkg w
      let reply := d.data.flatMap (fun (v : BitVec 1024) => leBytes 128 v.toNat)
      if !x.sends.any (fun y => (y.die, y.since) == from_) then s1.sectionAnswers w k
      else if d.status ≠ Status.okay ∨ leAt reply 1 1 ≠ 0 then (s1, some from_.1)
      else
        (s1.setPkg w { x with sends := x.sends.filterMap (fun y => if y.die = from_.1 then y.after reply else some y) }).sectionAnswers w k

/-- The sections of ward `w` go on; the flag names a die whose transfer has failed. -/
def State.sectionsGo (s : State) (w : Nat) : State × Option Nat :=
  let r := s.sectionAnswers w s.txn.dones.length
  (((r.1.pkg w).sends).foldl (fun (a : State) x => a.sectionAsk w x) r.1, r.2)

/-! ## Package images: load, arm and swap (R327, R328) -/

/-- A download into PKG_IMAGE opens. -/
def Pkg.begin (w : BitVec 4) : Effect := fun s =>
  let st := s.rd (.pkgState w.toNat)
  if st = 1 ∨ st = 2 ∨ st = 4 ∨ st = 5 then .error .inUse else .ok (s.pkgEnter w.toNat 1 0 0xFF)

/-- The download did not complete. -/
def Pkg.broken (w : BitVec 4) (s : State) : State :=
  if s.rd (.pkgState w.toNat) = 1 then s.pkgEnter w.toNat 7 0x02 0xFF else s

/-- A transfer has ended without its value: a download of a schedule or package image fails its load (R137, R446). -/
def State.transferLost (s : State) (t : Transfer) : State :=
  if !t.upload && t.key / 256 == 0x1920 then Pkg.broken (BitVec.ofNat 4 (t.key % 256 - 1)) s else s.imageLost t

/-- The whole package image has come: the sections go to their dies (step 2 of R327), unless the container fails. -/
def Pkg.loaded (w : BitVec 4) (image : List Byte) (s : State) : State :=
  let xs := pkgSections image
  let k := w.toNat
  if s.containerBad w image then (s.setPkg k ⟨image, [], [], 0, []⟩).pkgEnter k 2 0 0xFF
  else
    let far := xs.filter (fun x => x.die != s.dieBits)
    let s1 := (s.setPkg k ⟨image, xs.map (·.die), [], 0, far.map (fun x => ⟨x.die, x.bytes, x.bytes.length, none, 0, false, s.now⟩)⟩).pkgEnter k 2 0 0xFF
    let s2 := (s1.sectionsGo k).1
    match xs.find? (fun x => x.die == s.dieBits) with
    | none => s2
    | some x =>
      match Sched.begin w true s2 with
      | .ok s3 => Sched.loaded w x.bytes s3
      | .error _ => s2.pkgEnter k 7 0x02 s.dieBits

/-- STATE and CODE of a LOAD_STATUS. -/
def loadSt (v : Nat) : Nat := v / 2 ^ 29 % 8
def loadCode (v : Nat) : Nat := v / 2 ^ 24 % 32

/-- The LOAD_STATUS of a die of the package, this die's own or as the results give it. -/
def State.dieLoad (s : State) (w : Nat) (results : List DieResult) (d : Nat) : Option Nat :=
  if d = s.dieBits then some (s.obj (Obj.loadStatus w)).toNat
  else (results.find? (fun r => r.die.toNat == d)).map (fun r => r.load.toNat)

/-- The checks of a package image whose sections have all been taken (steps 2 to 5 of R327). -/
def Pkg.judge (k : Nat) (results : List DieResult) (s : State) : State :=
  let x := s.pkg k
  let xs := pkgSections x.image
  let loads := x.dies.map (fun d => (d, s.dieLoad k results d))
  if loads.any (fun p => match p.2 with
      | some v => loadSt v != 3 && loadSt v != 7
      | none => true) then s
  else match loads.find? (fun p => (p.2.map loadSt) == some 7) with
    | some p => s.pkgEnter k 7 (loadCode (p.2.getD 0)) p.1
    | none => match pkgLinkFail xs s.cfg with
      | some d => s.pkgEnter k 7 0x0A d
      | none => match s.pkgGroupDown results xs with
        | some d => s.pkgEnter k 7 0x13 d
        | none => s.pkgEnter k 3 0 0xFF

/-- PKG_LOAD_CHECK_COMPLETE. `results` are what the master finds at the other dies once their checks have ended. While sections are
still on their way, they go on. -/
def Pkg.checked (w : BitVec 4) (results : List DieResult) (s : State) : State :=
  let k := w.toNat
  if s.rd (.pkgState k) ≠ 2 ∨ !s.firmwareRuns ∨ s.frozen then s
  else if s.containerBad w (s.pkg k).image then s.pkgEnter k 7 0x14 0xFF
  else
    let r := s.sectionsGo k
    match r.2 with
    | some d => r.1.pkgEnter k 7 0x02 d
    | none => if !(r.1.pkg k).sends.isEmpty then r.1 else Pkg.judge k results r.1

def execPkgLoadCheckComplete (w : BitVec 4) (results : List DieResult) (s : State) : Host.Outcome State Fault Refusal :=
  .next (Pkg.checked w results s)

/-- EPOCH_CTRL of the ward is written at every other die of the image (R154). -/
def State.pkgCommand (s : State) (w : Nat) (cmd : Byte) : State :=
  ((s.pkg w).dies.filter (fun d => d != s.dieBits)).foldl (fun (a : State) d => a.peerWrite d 0x1403 (w + 1) [cmd]) s

/-- ARM (R328). -/
def Pkg.arm (w : BitVec 4) : Effect := fun s =>
  let k := w.toNat
  let x := s.pkg k
  if s.rd (.pkgState k) ≠ 3 then .error .badState
  else
    let go := fun (a : State) => (((a.setPkg k { x with waiting := x.dies, largest := 0 }).pkgEnter k 4 0 0xFF).pkgCommand k 1).setObj (Obj.pkgCtrl k) 1
    if x.dies.contains s.dieBits then
      match Sched.arm w s with
      | .error a => .error a
      | .ok s1 => .ok (go s1)
    else .ok (go s)

def execPkgArm (acc : Access) (w : BitVec 4) (s : State) : Host.Outcome State Fault Refusal :=
  .next (s.serveKey acc (Obj.pkgCtrl w.toNat) 1 (fun _ => Pkg.arm w))

/-- CANCEL reaches this die's own sequencer, where it applies, and every other die's. -/
def State.pkgCancelAll (s : State) (w : BitVec 4) : State :=
  let s1 := if (s.pkg w.toNat).dies.contains s.dieBits then (match Sched.cancel w s with
    | .ok a => a
    | .error _ => s) else s
  s1.pkgCommand w.toNat 2

/-- CANCEL (R147, R328). -/
def Pkg.cancel (w : BitVec 4) : Effect := fun s =>
  let st := s.rd (.pkgState w.toNat)
  if st = 3 ∨ st = 4 then .ok (((s.pkgCancelAll w).pkgEnter w.toNat 0 0x11 0xFF).setObj (Obj.pkgCtrl w.toNat) 2)
  else .error .badState

def execPkgCancel (acc : Access) (w : BitVec 4) (s : State) : Host.Outcome State Fault Refusal :=
  .next (s.serveKey acc (Obj.pkgCtrl w.toNat) 2 (fun _ => Pkg.cancel w))

/-- PKG_CTRL: a CMD that R331 does not name is refused. -/
def Pkg.writeCtrl (w : BitVec 4) (v : Val) : Effect :=
  match v.toNat % 16 with
  | 1 => Pkg.arm w
  | 2 => Pkg.cancel w
  | _ => fun _ => .error .badState

/-- Every die has reported its count: T is set and sent (R328). -/
def State.pkgTarget (s : State) (w : BitVec 4) (t : Nat) : State :=
  let x := s.pkg w.toNat
  let s1 := if x.dies.contains s.dieBits then Sched.targetSet w (some (BitVec.ofNat 32 t)) s else s
  let s2 := (x.dies.filter (fun d => d != s.dieBits)).foldl (fun (a : State) d => a.peerWrite d 0x1407 (w.toNat + 1) (leBytes 4 t)) s1
  (s2.setPkg w.toNat { x with waiting := x.dies, largest := t }).pkgEnter w.toNat 5 0 0xFF

/-- A die has stopped every ingress, with its largest count. -/
def State.pkgCount (s : State) (w : BitVec 4) (die t : Nat) : State :=
  let x := s.pkg w.toNat
  if s.rd (.pkgState w.toNat) ≠ 4 ∨ !x.waiting.contains die then s
  else
    let y := { x with waiting := x.waiting.erase die, largest := max x.largest t }
    let s1 := s.setPkg w.toNat y
    if y.waiting.isEmpty then s1.pkgTarget w y.largest else s1

/-- A die shows its LOAD_STATUS: LIVE ends its part, FAILED ends the whole, and with code 0x10 the swap is abandoned
on every die (R330). -/
def State.pkgShows (s : State) (w : BitVec 4) (die v : Nat) : State :=
  let x := s.pkg w.toNat
  let st := s.rd (.pkgState w.toNat)
  if (st ≠ 4 ∧ st ≠ 5) ∨ !x.dies.contains die then s
  else if loadSt v = 7 ∧ loadCode v = 0x10 then s.abandonPackage w.toNat die
  else if loadSt v = 7 then (if st = 4 then s.pkgCancelAll w else s).pkgEnter w.toNat 7 (loadCode v) die
  else if loadSt v = 6 ∧ st = 5 ∧ x.waiting.contains die then
    let y := { x with waiting := x.waiting.erase die }
    let s1 := s.setPkg w.toNat y
    if y.waiting.isEmpty then s1.pkgEnter w.toNat 6 0 0xFF else s1
  else s

/-- PKG_DIE_REPORT. Of this die's own reports, the state it is in decides. -/
def Pkg.report (w : BitVec 4) (die : Nat) (r : DieReport) (s : State) : State :=
  if !s.firmwareRuns ∨ s.frozen then s
  else if die ≠ s.dieBits then
    match r with
    | .count t => s.pkgCount w die t.toNat
    | .status v => s.pkgShows w die v.toNat
  else match r with
    | .count _ => if s.rd (.ldState w.toNat) = 4 ∧ s.allStopped w then s.pkgCount w die (s.largestCount w) else s
    | .status _ => s.pkgShows w die (s.obj (Obj.loadStatus w.toNat)).toNat

def execPkgDieReport (w : BitVec 4) (die : BitVec 6) (report : DieReport) (s : State) : Host.Outcome State Fault Refusal :=
  .next (Pkg.report w die.toNat report s)

end Sys2Proof.Machine
end

