-- ==== Sys2Proof/Machine/Services.lean ====
section
/-! DEFINITION. Trip increments, the power manager's and the tile's endpoints, host requests and mailboxes, the management
bus with MCTP and SPDM, and the I3C target (R54, R59 to R61, R228, R441 to R443, R457, R469). -/

namespace Sys2Proof.Machine

/-- A core of the management tile runs: the boot ROM past its check, or a firmware image (R25, R452). -/
def State.coreRuns (s : State) : Bool :=
  s.running && (s.rd .coreState == 1 || s.rd .coreState == 4 || (s.rd .coreState == 0 && s.boot.romOk))

/-! ## Increments (R228, R291, R292) -/

/-- TRIP_INCREMENT: the oldest increment at a gate or DMA engine adds to its counter, or is refused. -/
def Control.tripIncrement (u : Nat) (s : State) : State :=
  match s.arrivedAt u, s.cfg.endpointJunction u with
  | some m, some n =>
    let gate := decide (0x80 ≤ u ∧ u < 0x90)
    let engine := decide (0x98 ≤ u ∧ u < 0x9C)
    if !s.moves n ∨ m.nak ∨ m.kind ≠ 2 ∨ !(gate || engine) then s
    else
      let point := if gate then 5 else 6
      let r := if gate then Coll.increment (u - 0x80) n m (s.arrivedDone u) else Dma.increment (u - 0x98) n m (s.arrivedDone u)
      let s1 := (r.1.afterOuter n point).touch n
      match r.2 with
      | some x => (if x = Nak.ward then s1.wardRefusal else s1).refuse n (unitInput u) m x
      | none => s1
  | _, _ => s

def execTripIncrement (ep : Nat) (s : State) : Host.Outcome State Fault Refusal := .next (Control.tripIncrement ep s)

/-! ## Performance states (R469, R471) -/

def State.grant (s : State) (src : BitVec 16) : Grant := Tbl.get Grant.zero s.pwr.grants src.toNat

def State.setGrant (s : State) (src : BitVec 16) (g : Grant) : State :=
  { s with pwr := { s.pwr with grants := Tbl.set Grant.zero s.pwr.grants src.toNat g } }

/-- Power granted to every endpoint but one (R469). -/
def State.grantedBut (s : State) (src : Nat) : Nat := ((s.pwr.grants.filter (fun g => g.1 != src)).map (·.2.power)).sum

/-- GRANTED_POWER (R476). -/
def State.grantedPower (s : State) : Nat := min 0xFFFF ((s.pwr.grants.map (·.2.power)).sum)

/-- STATUS of a request of `power` in state `pstate`. -/
def State.pstateStatus (s : State) (src : BitVec 16) (pstate power : Nat) : Nat :=
  let budget := (s.obj Obj.coreBudget).toNat
  if budget ≠ 0xFFFF ∧ budget < s.grantedBut src.toNat + power then 1
  else if s.warn ∧ (s.obj Obj.throttlePstate).toNat < pstate then 2
  else 0

/-- The reply of the power manager, with the grant that stands. -/
def State.pstateReply (s : State) (src : BitVec 16) (status : Nat) (reqId : BitVec 32) (g : Grant) : State :=
  s.ctlReply 0xC0 src g.ward g.sock [BitVec.ofNat 32 (g.pstate + status * 256), BitVec.ofNat 32 g.power, reqId]

/-- A request reaches the power manager: granted, refused or invalid. -/
def State.pstateServe (s : State) (m : CtlMsg) : State :=
  let w0 := (m.words.getD 0 0).toNat
  let old := { s.grant m.src with sock := BitVec.ofNat 5 (w0 / 65536), ward := m.ward }
  if m.words.length ≠ 3 ∨ m.sock ≠ 0 then s.pstateReply m.src 4 (m.words.getD 2 0) old
  else
    let pstate := w0 % 16
    let power := (m.words.getD 1 0).toNat % 65536
    let st := s.pstateStatus m.src pstate power
    let g := if st = 0 then { old with pstate := pstate, power := power } else old
    (s.setGrant m.src g).pstateReply m.src st (m.words.getD 2 0) g

/-- PSTATE_REQUEST: the oldest message at the power manager's endpoint. -/
def Power.pstateRequest (s : State) : State :=
  let n := s.cfg.mgmtAt
  match s.arrivedAt 0xC0 with
  | none => s
  | some m =>
    if !s.running ∨ s.frozen ∨ m.nak ∨ m.kind ≠ 0 then s
    else
      let s1 := (s.arrivedDone 0xC0).afterOuter n 6
      if s.outerFails n 6 m then s1.refuse n 6 m Nak.corrupt
      else if !s.coreRuns then s1.refuse n 6 m Nak.notReady
      else s1.pstateServe m

def execPstateRequest (s : State) : Host.Outcome State Fault Refusal := .next (Power.pstateRequest s)

/-- THROTTLE goes to every core whose grant is above THROTTLE_PSTATE (R471). -/
def State.throttle (s : State) : State :=
  let t := (s.obj Obj.throttlePstate).toNat
  s.pwr.grants.foldl (fun (a : State) p =>
    let g := p.2
    if g.pstate ≤ t then a
    else
      let src := BitVec.ofNat 16 p.1
      (a.setGrant src { g with pstate := t }).pstateReply src 3 0 { g with pstate := t }) s

/-! ## Service messages (R441) -/

/-- The words a CMD needs. -/
def serviceNeed (cmd : Nat) : Nat := if cmd = 2 then 5 else 3

/-- A queued request whose CMD is not taken on this path, or that has too few words, is answered at once. -/
def State.serviceRefuse (s : State) (m : ServiceMsg) : State :=
  let w0 := (m.words.getD 0 0).toNat
  let w1 := (m.words.getD 1 0).toNat
  let cmd := w0 % 256
  let acc : Access := ⟨.service m.src m.ward (BitVec.ofNat 5 (w0 / 65536)), BitVec.ofNat 2 (w0 / 256), m.words.getD 2 0⟩
  if !s.servesNow acc then s
  else if cmd ≠ 1 ∧ cmd ≠ 2 ∧ cmd ≠ 7 then s.refuseNow acc cmd (w1 % 65536) (w1 / 65536 % 256) 0 .badCommand
  else if m.words.length < serviceNeed cmd then s.refuseNow acc cmd (w1 % 65536) (w1 / 65536 % 256) 0 .length
  else s

/-- The queue is looked through for requests that cannot be taken. -/
def State.serveService (s : State) : State := s.dict.service.foldl State.serviceRefuse s

/-- SERVICE_MESSAGE_RECEIVE: the oldest message at endpoint 0x0C1 is queued or refused. -/
def Service.receive (s : State) : State :=
  let n := s.cfg.mgmtAt
  match s.arrivedAt 0xC1 with
  | none => s
  | some m =>
    if !s.running ∨ s.frozen ∨ m.nak ∨ m.kind ≠ 0 then s
    else
      let s1 := (s.arrivedDone 0xC1).afterOuter n 6
      if s.outerFails n 6 m then s1.refuse n 6 m Nak.corrupt
      else if m.sock ≠ 0 then s1.refuse n 6 m Nak.noSocket
      else if 16 ≤ s1.dict.service.length then s1.refuse n 6 m Nak.queueFull
      else
        let q : ServiceMsg := ⟨m.src, m.ward, m.words⟩
        let s2 := ({ s1 with dict := { s1.dict with service := s1.dict.service ++ [q] } }).serviceRefuse q
        if s2.dict.service.isEmpty then s2 else s2.pathAsk (pathUnitBase + 3)

def execServiceMessageReceive (s : State) : Host.Outcome State Fault Refusal := .next (Service.receive s)

/-! ## Mailboxes (R442) -/

/-- The 4 KiB window as it reads. -/
def Mailbox.window (m : Mailbox) : List Byte :=
  let status := (if m.busy then 1 else 0) + (if m.done then 2 else 0) + (if m.overrun then 4 else 0) + m.answered.toNat * 65536
  List.replicate 1152 0 ++ padTo 1152 m.response ++ List.replicate 8 0 ++ leBytes 8 status ++ leBytes 8 (m.irq.toNat % 65536)

/-- One byte of REQUEST or MBX_IRQ written; a write to REQUEST while BUSY is ignored and sets OVERRUN. -/
def Mailbox.putByte (m : Mailbox) (off : Nat) (b : Byte) : Mailbox :=
  if off < 1152 then
    if m.busy then { m with overrun := true }
    else
      let r := padTo 1152 m.request
      { m with request := r.take off ++ [b] ++ r.drop (off + 1) }
  else if off = 0x910 then { m with irq := (m.irq &&& 0xFF00) ||| b.setWidth 16 }
  else if off = 0x911 then { m with irq := (m.irq &&& 0x00FF) ||| ((b &&& 0x87).setWidth 16 <<< 8) }
  else m

/-- Written bytes, at ascending offsets within the window; those the strobes leave out are `none`. -/
def Mailbox.put (m : Mailbox) : Nat → List (Option Byte) → Mailbox
  | _, [] => m
  | off, some b :: t => (m.putByte off b).put (off + 1) t
  | off, none :: t => m.put (off + 1) t

/-- The request posted in a mailbox is answered at once when its CMD is reserved. -/
def State.mailboxRefuse (s : State) (p : Nat) : State :=
  let m := s.mailbox p
  let q := ReqPdu.ofBytes (padTo 1152 m.request)
  let acc : Access := ⟨.mailbox p, q.level, q.reqId⟩
  if !m.busy ∨ listedCmd q.cmd ∨ !s.servesNow acc then s else s.refuseNow acc q.cmd q.index q.sub q.xfer .badCommand

/-- A post (R442). -/
def State.post (s : State) (p : Nat) : State :=
  let m := s.mailbox p
  if m.busy then s.setMailbox p { m with overrun := true }
  else
    let s1 := (s.setMailbox p { m with busy := true, done := false, overrun := false }).mailboxRefuse p
    if (s1.mailbox p).busy then s1.pathAsk (pathUnitBase + 1 + p) else s1

/-- The mailbox of port `p` can be reached: its region is ACTIVE, and no freeze is on but that of the safe state (R80, R450). -/
def State.mailboxLive (s : State) (p : Nat) : Bool :=
  match s.cfg.unitAt 3 p with
  | none => false
  | some n => s.running && s.adapterLive n .b && s.junctionActive n && (!s.frozen || s.safe)

/-- MAILBOX_REQUEST_WRITE: bytes written from an offset of the window. -/
def Mbox.write (p off : Nat) (bs : List Byte) (s : State) : State :=
  if !s.mailboxLive p then s else s.setMailbox p ((s.mailbox p).put off (bs.map some))

def execMailboxRequestWrite (p offset : Nat) (bytes : List (BitVec 8)) (s : State) : Host.Outcome State Fault Refusal :=
  .next (Mbox.write p offset bytes s)

/-- MAILBOX_DOORBELL. -/
def Mbox.doorbell (p : Nat) (s : State) : State := if !s.mailboxLive p then s else s.post p

def execMailboxDoorbell (p : Nat) (s : State) : Host.Outcome State Fault Refusal := .next (Mbox.doorbell p s)

/-- Written bytes of a request's beats, with their strobes. -/
def strobedBytes (data : List (BitVec 1024)) (strb : List (BitVec 128)) : List (Option Byte) :=
  (data.zip strb).flatMap (fun p => (List.range 128).map (fun i =>
    if p.2.getLsbD i then some ((p.1 >>> (8 * i)).setWidth 8) else none))

/-- Some strobed byte lies in DOORBELL. -/
def ringsBell (off : Nat) (bs : List (Option Byte)) : Bool :=
  (List.range 8).any (fun i => decide (off ≤ 0x900 + i) && ((bs.getD (0x900 + i - off) none).isSome))

/-- An access of the host to the mailbox window: READ and WRITE only (R442). -/
def HostPort.mailbox (p : Nat) (rq : TxnArgs) (s : State) : State :=
  let off := rq.addr.toNat % 4096
  if !s.mailboxLive p then s
  else if rq.op = 0 then
    s.emit (.hip p rq.tag Status.okay (beatsOf (rq.lenM1.toNat + 1) ((padTo 4096 (s.mailbox p).window).drop off)))
  else if rq.op = 1 then
    let bs := strobedBytes rq.data rq.strb
    let s1 := s.setMailbox p ((s.mailbox p).put off bs)
    (if ringsBell off bs then s1.post p else s1).emit (.hip p rq.tag Status.okay [])
  else s.emit (.hip p rq.tag Status.targetError (answerBeats rq.op Status.targetError []))

/-- HOST_INBOUND_REQUEST (R54): a mailbox access, or a request tagged with a ward that HOST_WARD_MASK admits and that is not being
reclaimed (R418). -/
def HostPort.inbound (p : Nat) (w : BitVec 4) (mbx : Bool) (rq : TxnArgs) (s : State) : State :=
  match s.cfg.unitAt 3 p with
  | none => s
  | some n =>
    let u := 0x90 + p
    if !s.running ∨ !s.adapterLive n .b then s
    else if s.regionStateOf (s.regionOf n) = 4 then s.wakeAt n
    else if mbx then HostPort.mailbox p rq s
    else if !s.moves n ∨ !(s.tinit u).tagFree rq.tag then s
    else if !(s.obj (Obj.hostWardMask p)).getLsbD w.toNat ∨ s.wardReclaiming w then
      (s.emit (.hip p rq.tag Status.wardRefused (answerBeats rq.op Status.wardRefused []))).touch n
    else (s.acceptTxn u ⟨rq.op, rq.addr, rq.lenM1, BitVec.ofNat 2 (s.rd (.regLevel w.toNat)), w, rq.data, rq.strb⟩ rq.tag .host).touch n

def execHostInboundRequest (p : Nat) (ward : BitVec 4) (mbx : Bool) (rq : TxnArgs) (s : State) : Host.Outcome State Fault Refusal :=
  .next (HostPort.inbound p ward mbx rq s)

/-! ## The management bus: MCTP (R59, R443) -/

/-- The bus is served: a core runs (R61). -/
def State.busServed (s : State) : Bool := s.bootRuns || s.firmwareRuns

/-- The request on the bus is answered at once when its CMD is reserved. -/
def State.busRefuse (s : State) : State :=
  match s.dict.bus with
  | none => s
  | some (_, bs) =>
    let q := ReqPdu.ofBytes bs
    let acc : Access := ⟨.bus, q.level, q.reqId⟩
    if listedCmd q.cmd ∨ !s.servesNow acc then s else s.refuseNow acc q.cmd q.index q.sub q.xfer .badCommand

/-- A second request before the first is answered gets PATH_BUSY and is not executed. -/
def State.busBusy (s : State) (mtag : BitVec 3) (bs : List Byte) : State :=
  let q := ReqPdu.ofBytes bs
  let s1 := s.bump .aborts 1
  s1.mctpSend 0x7F mtag (ianaBytes (s.obj Obj.mctpIana).toNat ++
    (Reply.aborted (s.typeOf q.index q.sub) q.xfer .pathBusy).bytes q.cmd q.index q.sub q.reqId)

/-- Bytes of the receive buffer of 4 KiB that a message in hand and one of `n` bytes after its type take (R61). -/
def State.busBytes (s : State) (n : Nat) : Nat :=
  (match s.dict.bus with
    | some b => b.2.length + 5
    | none => 0) + n + 1

/-- A packet of an MCTP message is not acknowledged: firmware is stopped, or the receive buffer is full (R61). -/
def State.busNacks (s : State) (n : Nat) : Bool := !s.busServed || decide (4096 < s.busBytes n)

/-- MCTP_MESSAGE_RECEIVE. SPDM and control messages have steps of their own for what they ask; other types, and other enterprise
numbers, are discarded. -/
def Mctp.receive (ty : Byte) (iana : BitVec 32) (mtag : BitVec 3) (body : List Byte) (s : State) : State :=
  if !s.running then s
  else if s.busNacks (body.length + if ty = 0x7F then 4 else 0) then s.emit .nack
  else if ty = 5 then { s with dict := { s.dict with spdm := mtag } }
  else if ty ≠ 0x7F ∨ iana.setWidth 64 ≠ s.obj Obj.mctpIana ∨ body.length < 16 then s
  else if s.dict.bus.isSome then s.busBusy mtag body
  else
    let s1 := ({ s with dict := { s.dict with bus := some (mtag, body) } }).busRefuse
    if s1.dict.bus.isSome then s1.pathAsk pathUnitBase else s1

def execMctpMessageReceive (ty : BitVec 8) (iana : BitVec 32) (mtag : BitVec 3) (body : List (BitVec 8)) (s : State) :
    Host.Outcome State Fault Refusal := .next (Mctp.receive ty iana mtag body s)

/-- What an MCTP control request is answered, by its command: completion code and data (PRESUMED, DSP0236). -/
def mctpAnswer (eid : Byte) (cmd : Byte) (data : List Byte) : List Byte × Byte :=
  if cmd = 1 then ([0, 0, data.getD 1 0, 0], data.getD 1 0)
  else if cmd = 2 then ([0, eid, 0, 0], eid)
  else if cmd = 4 then ([0, 1, 0xF1, 0xF3, 0xF1, 0], eid)
  else if cmd = 5 then ([0, 2, 5, 0x7F], eid)
  else ([5], eid)

/-- MCTP_CONTROL_MESSAGE: a request (Rq set) is answered with its instance and command. -/
def Mctp.control (mtag : BitVec 3) (body : List Byte) (s : State) : State :=
  let head := body.headD 0
  if !s.running then s
  else if s.busNacks body.length then s.emit .nack
  else if body.length < 2 ∨ !head.getLsbD 7 then s
  else
    let cmd := body.getD 1 0
    let r := mctpAnswer s.dict.eid cmd (body.drop 2)
    ({ s with dict := { s.dict with eid := r.2 } }).mctpSend 0 mtag ([head &&& 0x1F, cmd] ++ r.1)

def execMctpControlMessage (mtag : BitVec 3) (body : List (BitVec 8)) (s : State) : Host.Outcome State Fault Refusal :=
  .next (Mctp.control mtag body s)

/-! ## SPDM (R457): message layouts are those of DSP0274 (PRESUMED) -/

/-- An SPDM answer leaves with the tag of the request. -/
def State.spdmSend (s : State) (bs : List Byte) : State := s.mctpSend 5 s.dict.spdm bs

/-- ERROR, with its code. -/
def State.spdmError (s : State) (version code data : Byte) : State := s.spdmSend [version, 0x7F, code, data]

/-- A request is answered: with UnsupportedRequest before the device key exists, and while no core runs not at all. -/
def State.spdmAnswer (s : State) (request : Byte) (f : State → State) : State :=
  if !s.busServed then s
  else if !s.boot.provFused then s.spdmError 0x13 0x07 request
  else f s

/-- A request that needs the algorithms negotiated gets UnexpectedRequest without them. -/
def State.spdmAgreed (s : State) (request : Byte) (f : State → State) : State :=
  s.spdmAnswer request (fun a => if a.boot.negotiated then f a else a.spdmError 0x13 0x04 0)

/-- The certificate chain of slot 0, where it has been fused. -/
def State.certChain (s : State) : List Byte := (s.dom? Obj.certChain).getD []

def State.slotMask (s : State) : Byte := if s.boot.certFused then 1 else 0

/-- GET_VERSION: version 1.3; the negotiation begins again. -/
def Spdm.version (s : State) : State :=
  s.spdmAnswer 0x84 (fun a => ({ a with boot := { a.boot with negotiated := false } }).spdmSend [0x10, 0x04, 0, 0, 0, 1, 0x00, 0x13])

def execGetVersion (s : State) : Host.Outcome State Fault Refusal := .next (Spdm.version s)

/-- GET_CAPABILITIES: CERT_CAP, CHAL_CAP and MEAS_CAP with signature, and the receive buffer of 4 KiB (R61). CT exponent: a free value. -/
def Spdm.capabilities (s : State) : State :=
  s.spdmAnswer 0xE1 (fun a =>
    (a.spdmSend ([0x13, 0x61, 0, 0, 0, (Config.freeValue a.drawn).setWidth 8, 0, 0] ++ leBytes 4 0x16 ++ leBytes 4 4096 ++ leBytes 4 4096)).draw)

def execGetCapabilities (s : State) : Host.Outcome State Fault Refusal := .next (Spdm.capabilities s)

/-- NEGOTIATE_ALGORITHMS: TPM_ALG_ECDSA_ECC_NIST_P384, TPM_ALG_SHA_384 and the DMTF measurement specification, where offered. -/
def Spdm.negotiate (asym hash : BitVec 32) (measSpec : BitVec 8) (s : State) : State :=
  s.spdmAnswer 0xE3 (fun a =>
    let ok := asym.getLsbD 7 && hash.getLsbD 1
    let sel := fun (b : Bool) (v : Nat) => if b then v else 0
    ({ a with boot := { a.boot with negotiated := ok } }).spdmSend
      ([0x13, 0x63, 0, 0] ++ leBytes 2 36 ++ [BitVec.ofNat 8 (sel (measSpec.getLsbD 0) 1), 0] ++ leBytes 4 (sel (measSpec.getLsbD 0) 4) ++
        leBytes 4 (sel (asym.getLsbD 7) 0x80) ++ leBytes 4 (sel (hash.getLsbD 1) 2) ++ List.replicate 16 0))

def execNegotiateAlgorithms (asym hash : BitVec 32) (measSpec : BitVec 8) (s : State) : Host.Outcome State Fault Refusal :=
  .next (Spdm.negotiate asym hash measSpec s)

/-- GET_DIGESTS. -/
def Spdm.digests (s : State) : State :=
  s.spdmAgreed 0x81 (fun a => a.spdmSend ([0x13, 0x01, 1, a.slotMask] ++ (if a.boot.certFused then sha384 a.certChain else [])))

def execGetDigests (s : State) : Host.Outcome State Fault Refusal := .next (Spdm.digests s)

/-- GET_CERTIFICATE: a portion of CERT_CHAIN; slot 0 is the only one. -/
def Spdm.certificate (slot : BitVec 4) (offset len : BitVec 16) (s : State) : State :=
  s.spdmAgreed 0x82 (fun a =>
    let chain := a.certChain
    if slot ≠ 0 ∨ !a.boot.certFused ∨ chain.length < offset.toNat then a.spdmError 0x13 0x01 0
    else
      let part := (chain.drop offset.toNat).take len.toNat
      a.spdmSend ([0x13, 0x02, 0, 0] ++ leBytes 2 part.length ++ leBytes 2 (chain.length - offset.toNat - part.length) ++ part))

def execGetCertificate (slot : BitVec 4) (offset len : BitVec 16) (s : State) : Host.Outcome State Fault Refusal :=
  .next (Spdm.certificate slot offset len s)

/-- The value and DMTF type of measurement block `i` (R457). -/
def State.measurement (s : State) (i : Nat) : Byte × List Byte :=
  let b := fun (n k : Nat) => leBytes n (s.obj k).toNat
  match i with
  | 1 => (0x00, Config.romDigest)
  | 2 => (0x01, s.dom Obj.measFw 48)
  | 3 => (0x02, sha384 (b 1 Obj.lifecycle ++ b 2 Obj.fuseCaps ++ s.dom Obj.provision 16 ++ s.dom Obj.schedKeyHash 48 ++ b 1 Obj.debugDisable))
  | _ => (0x80, b 1 Obj.lifecycle ++ b 1 Obj.strapLatch ++ b 4 Obj.bootStatus ++ b 4 Obj.coreState ++
      leBytes 2 ((s.obj Obj.resetCause).toNat / 65536))

/-- A measurement block as it is sent. -/
def State.measBlock (s : State) (i : Nat) : List Byte :=
  let m := s.measurement i
  [BitVec.ofNat 8 i, 1] ++ leBytes 2 (m.2.length + 3) ++ [m.1] ++ leBytes 2 m.2.length ++ m.2

/-- A body with a fresh nonce, no opaque data, and the requester's context, signed by the engine. -/
def State.signed (s : State) (nonce : BitVec 256) (body : List Byte) : State :=
  let msg := body ++ Config.freeBytes s.drawn 32
  let all := msg ++ leBytes 2 0 ++ List.replicate 8 0
  (s.spdmSend (all ++ (Config.deviceSign s.drawn (leBytes 32 nonce.toNat ++ all)))).draw

/-- CHALLENGE: the chain's digest and, where asked for, a digest of the measurements. -/
def Spdm.challenge (slot : BitVec 4) (nonce : BitVec 256) (measHash : BitVec 8) (s : State) : State :=
  s.spdmAgreed 0x83 (fun a =>
    if slot ≠ 0 ∨ !a.boot.certFused then a.spdmError 0x13 0x01 0
    else
      let summary := if measHash = 1 then sha384 (a.measBlock 1)
        else if measHash = 0xFF then sha384 ([1, 2, 3, 4].flatMap a.measBlock) else []
      -- the summary follows the nonce
      let body := [0x13, 0x03, 0, a.slotMask] ++ sha384 a.certChain
      let msg := body ++ Config.freeBytes a.drawn 32 ++ summary ++ leBytes 2 0 ++ List.replicate 8 0
      (a.spdmSend (msg ++ Config.deviceSign a.drawn (leBytes 32 nonce.toNat ++ msg))).draw)

def execChallenge (slot : BitVec 4) (nonce : BitVec 256) (measHash : BitVec 8) (s : State) : Host.Outcome State Fault Refusal :=
  .next (Spdm.challenge slot nonce measHash s)

/-- GET_MEASUREMENTS: block `index`, all of them for 0xFF, only their number for 0. -/
def Spdm.measurements (index : BitVec 8) (nonce : BitVec 256) (s : State) : State :=
  s.spdmAgreed 0xE0 (fun a =>
    let ixs := if index = 0xFF then [1, 2, 3, 4] else if 1 ≤ index.toNat ∧ index.toNat ≤ 4 then [index.toNat] else []
    if index ≠ 0 ∧ ixs.isEmpty then a.spdmError 0x13 0x01 0
    else
      let blocks := ixs.flatMap a.measBlock
      a.signed nonce ([0x13, 0x60, if index = 0 then 4 else 0, 0, BitVec.ofNat 8 ixs.length] ++ leBytes 3 blocks.length ++ blocks))

def execGetMeasurements (index : BitVec 8) (nonce : BitVec 256) (s : State) : Host.Outcome State Fault Refusal :=
  .next (Spdm.measurements index nonce s)

/-! ## Common command codes (R59 to R61) -/

/-- The provisional identifier as it is sent, most significant byte first. -/
def State.pidBytes (s : State) : List Byte := (leBytes 6 s.provisionalId.toNat).reverse

/-- I3C_CCC (PRESUMED, MIPI I3C Basic: what each required code does). Bus and device characteristics and the status are free values:
the manual does not give them. A code outside the required ones is not answered. -/
def I3c.ccc (c : Ccc) (s : State) : State :=
  if !s.running then s
  else match c with
    | .entdaa a =>
      if s.pin.dynAddr.isSome then s
      else (({ s with pin := { s.pin with dynAddr := some a } }).emit (.ccc (s.pidBytes ++ Config.freeBytes s.drawn 2))).draw
    | .setnewda a => if s.pin.dynAddr.isSome then { s with pin := { s.pin with dynAddr := some a } } else s
    | .rstdaa => { s with pin := { s.pin with dynAddr := none } }
    | .getpid => if s.pin.dynAddr.isSome then s.emit (.ccc s.pidBytes) else s
    | .enec v => if v.getLsbD 0 then { s with pin := { s.pin with ibiOff := false } } else s
    | .disec v => if v.getLsbD 0 then { s with pin := { s.pin with ibiOff := true } } else s
    | .getbcr => if s.pin.dynAddr.isSome then (s.emit (.ccc (Config.freeBytes s.drawn 1))).draw else s
    | .getdcr => if s.pin.dynAddr.isSome then (s.emit (.ccc (Config.freeBytes s.drawn 1))).draw else s
    | .getstatus => if s.pin.dynAddr.isSome then (s.emit (.ccc (Config.freeBytes s.drawn 2))).draw else s
    | .other _ => s

def execI3cCcc (ccc : Ccc) (s : State) : Host.Outcome State Fault Refusal := .next (I3c.ccc ccc s)

end Sys2Proof.Machine
end

