-- ==== Sys2Proof/Machine/Wards.lean ====
section
/-! DEFINITION. Wards: their lifecycle, ownership of junctions and memory, and the sequence that resets or revokes one
(R408 to R427). -/

namespace Sys2Proof.Machine

/-! ## The tier of service (R473) -/

/-- Junction `n` is in service: its region is neither without its rail nor in reset. -/
def State.inService (s : State) (n : Nat) : Bool := decide (n < s.cfg.njs) && !s.junctionLost n

/-- The junctions in service that mesh links join to one of `seen`, in `k` steps at most. -/
def State.joined (s : State) : Nat → List Nat → List Nat
  | 0, seen => seen
  | k + 1, seen =>
    let more := (seen.flatMap (fun n => ([0, 1, 2, 3].filterMap (fun p => s.cfg.neighbour n p)).filter s.inService)).eraseDups
    let fresh := more.filter (fun n => !seen.contains n)
    if fresh.isEmpty then seen else s.joined k (seen ++ fresh)

/-- A host port and a memory attachment lie in one region of junctions in service that mesh links connect. -/
def State.dataTier (s : State) : Bool :=
  [0, 1].any (fun p => match s.cfg.unitAt 3 p with
    | none => false
    | some n => s.inService n && (s.joined s.cfg.njs [n]).any (fun m => s.cfg.bKind m == 1))

/-- SERVICE_TIER: 0 when tier 1 is not met (R473). -/
def State.serviceTier (s : State) : Nat :=
  if !s.running || s.rd .coreState == 3 || (s.rd .coreState == 0 && !s.boot.romOk) || !s.pin.timerefOk then 0 else if s.dataTier then 2 else 1

/-! ## The lifecycle (R416, R418, R426) -/

def Fld.wardCmd (w : Nat) : Fld := ⟨Obj.wardCtrl w, 0, 4⟩

/-- A decommissioned die: LIFECYCLE 3 (R460). -/
def State.retired (s : State) : Bool := (s.obj Obj.lifecycle).toNat == 3

/-- The DMA channels of a ward (R301). -/
def State.wardChans (s : State) (w : BitVec 4) : List Nat :=
  (List.range 64).filter (fun k => chanWardOf (s.obj (Obj.chCfg k)) == some w)

/-- The collective channels of a ward (R404). -/
def State.wardColls (s : State) (w : BitVec 4) : List Nat :=
  (List.range 512).filter (fun k => chanWardOf (s.obj (Obj.collCfg k)) == some w)

/-- The ward's DMA channels abort without write-back, and its collective operations with REVOKED (R298, R398). -/
def State.wardAborts (s : State) (w : BitVec 4) : State :=
  let s1 := (s.wardChans w).foldl State.chanAbort s
  (s1.wardColls w).foldl State.collClose s1

/-- The sequence of R418 begins: steps 1 and 2, and the aborts of step 3. -/
def State.wardClose (s : State) (w : BitVec 4) (revoke : Bool) : State :=
  let s1 := (s.wardBegin w revoke).wardAborts w
  if revoke then s1.wardWithdraw w else s1

/-- FORM: refused on a die started safely, on a retired one, and on a ward that is not FREE (R416, R458, R461). -/
def Ward.form (w : BitVec 4) : Effect := fun s =>
  if s.safeStart || s.retired || s.rd (.wardSt w.toNat) != 0 then .error .badState else .ok (s.wr (.wardSt w.toNat) 1)

/-- ACTIVATE: from FORMING, once a junction is named, on a die that can give tier 2 (R416, R473). -/
def Ward.activate (w : BitVec 4) : Effect := fun s =>
  if s.rd (.wardSt w.toNat) ≠ 1 ∨ (s.wardJunctions w).isEmpty ∨ s.serviceTier < 2 then .error .badState
  else .ok (s.wr (.wardSt w.toNat) 2)

/-- RESET: from ACTIVE (R416). -/
def Ward.reset (w : BitVec 4) : Effect := fun s =>
  if s.rd (.wardSt w.toNat) ≠ 2 then .error .badState else .ok (s.wardClose w false)

/-- REVOKE: from any state but FREE; during RESETTING the sequence goes on as a revocation (R416). -/
def Ward.revoke (w : BitVec 4) : Effect := fun s =>
  match s.rd (.wardSt w.toNat) with
  | 1 => .ok (s.wardClose w true)
  | 2 => .ok (s.wardClose w true)
  | 3 =>
    let s1 := s.wr (.wardSt w.toNat) 4
    .ok (({ s1 with wards := Tbl.upd none s1.wards w.toNat (fun x => x.map (fun q => { q with revoke := true })) } : State).wardWithdraw w)
  | 4 => .ok s
  | _ => .error .badState

/-- CMD of WARD_CTRL: RESET at L1, the others at L2 (R426). -/
def Ward.control (w : BitVec 4) (level : BitVec 2) (cmd : Nat) : Effect := fun s =>
  let r : Except Abort State :=
    if (cmd = 1 ∨ cmd = 2 ∨ cmd = 4) ∧ level.toNat < 2 then .error .level
    else match cmd with
      | 1 => Ward.form w s
      | 2 => Ward.activate w s
      | 3 => Ward.reset w s
      | 4 => Ward.revoke w s
      | _ => .error .badState
  match r with
  | .error a => .error a
  | .ok s1 => .ok (s1.wr (.wardCmd w.toNat) cmd)

/-- A command of a ward, as a write of WARD_CTRL. -/
def Ward.command (acc : Access) (w : BitVec 4) (cmd : Nat) (s : State) : State :=
  s.serveKey acc (Obj.wardCtrl w.toNat) (BitVec.ofNat 64 cmd) (fun _ => Ward.control w acc.level cmd)

def execWardForm (acc : Access) (w : BitVec 4) (s : State) : Host.Outcome State Fault Refusal := .next (Ward.command acc w 1 s)

def execWardActivate (acc : Access) (w : BitVec 4) (s : State) : Host.Outcome State Fault Refusal := .next (Ward.command acc w 2 s)

def execWardReset (acc : Access) (w : BitVec 4) (s : State) : Host.Outcome State Fault Refusal := .next (Ward.command acc w 3 s)

def execWardRevoke (acc : Access) (w : BitVec 4) (s : State) : Host.Outcome State Fault Refusal := .next (Ward.command acc w 4 s)

/-! ## The drain and the forced swap (R418 steps 3 and 4) -/

/-- The transactions open for a ward, each with its initiator. -/
def State.wardTxns (s : State) (w : BitVec 4) : List (Nat × OpenTxn) :=
  s.txn.inits.flatMap (fun p => (p.2.open_.filter (fun o => o.ward == w)).map (fun o => (p.1, o)))

/-- A head or NAK flit of the ward, by its 72 data bits (R201, R202). -/
def flitOfWard (w : BitVec 4) (f : BitVec 72) : Bool := f.extractLsb' 71 1 == 1 && f.extractLsb' 66 4 == w

/-- A message of the ward is in flight on the control plane. -/
def State.wardMessages (s : State) (w : BitVec 4) : Bool :=
  let mine := fun (m : CtlMsg) => m.ward == w && (m.nak || m.kind != 3)
  s.ctl.wire.any (fun p => p.2.any (fun f => flitOfWard w (f.extractLsb' 0 72))) || s.ctl.asm.any (fun p => p.2.any (flitOfWard w)) ||
    s.ctl.waiting.any (fun p => p.2.any mine) || s.ctl.buf.any (fun p => p.2.any mine) || s.ctl.arrived.any (fun p => p.2.any mine)

/-- The 1 ms of the drain have passed, time spent frozen aside. -/
def State.drainOver (s : State) (w : BitVec 4) : Bool := match Tbl.get none s.wards w.toNat with
  | some q => decide (q.drainFrom - q.frozen + 1000000 ≤ s.gateNow)
  | none => false

/-- WARD_DRAIN_COMPLETE: nothing of the ward is in flight any more, or what is left of its messages has had its 1 ms; FORCE_NULL goes
to its junctions and its staged banks are emptied. -/
def Ward.drained (w : BitVec 4) (s : State) : State :=
  if s.rd (.wardPhase w.toNat) ≠ 3 ∨ s.frozen then s
  else
    let s1 := s.wardAborts w
    if !(s1.wardTxns w).isEmpty || (s1.wardMessages w && !s1.drainOver w) then s1
    else ((s1.forceBegin w false).emptyStaged w 0).wr (.wardPhase w.toNat) 4

def execWardDrainComplete (w : BitVec 4) (s : State) : Host.Outcome State Fault Refusal := .next (Ward.drained w s)

/-- WARD_DRAIN_LIMIT_EXPIRE: 1 ms of drain, time spent frozen aside (R419); what is still open ends with TIMEOUT. -/
def Ward.drainLimit (w : BitVec 4) (s : State) : State :=
  match Tbl.get none s.wards w.toNat with
  | none => s
  | some q =>
    if s.rd (.wardPhase w.toNat) ≠ 3 then s
    else match s.gateDue (q.drainFrom - q.frozen + 1000000) with
      | none => s
      | some s1 => (s1.wardTxns w).foldl (fun (a : State) p =>
          match (a.tinit p.1).open_.find? (fun o => o.tag == p.2.tag && o.gen == p.2.gen) with
          | some o => a.timeoutTxn p.1 o
          | none => a) s1

def execWardDrainLimitExpire (w : BitVec 4) (s : State) : Host.Outcome State Fault Refusal := .next (Ward.drainLimit w s)

/-! ## The scrub (R420, R421) -/

/-- The object is held for the ward: its class is W, or it is the result of a tap or the probe of the ward's junctions, of
class V, and the ward has the rights of L1 on it. The regulators of engines and host ports serve every ward. -/
def State.wardHolds (s : State) (w : BitVec 4) (k : Nat) : Bool :=
  let i := k / 256
  (match rowOf k with
    | some r => r.cls == .w || i == 0x1521 || (decide (0x1740 ≤ i) && decide (i < 0x1744))
    | none => false) &&
  (if i = 0x1730 ∨ (0x1740 ≤ i ∧ i < 0x1744) then s.wardOf (k % 256 - 1) == some w
   else i != 0x1731 && i != 0x1732 && s.ownerWard i (k % 256) == some w)

/-- The objects of the ward take their defaults, but for their class D fields. -/
def State.scrubObjects (s : State) (w : BitVec 4) : State :=
  let ks := (s.objs.map (·.1)).filter (s.wardHolds w)
  let ds := (s.doms.map (·.1)).filter (s.wardHolds w)
  let s1 := ks.foldl (fun (a : State) k => a.setObj k (Obj.afterReset .w k (a.obj k))) s
  ds.foldl State.clearDom s1

/-- The stores of junction `n`: sockets, accumulators, combiner, NAKs, banks, tally store and tap. -/
def State.clearStores (s : State) (n : Nat) : State :=
  let s1 := (s.setBank n 0 Bank.null).setBank n 1 Bank.null
  let s2 := (s1.setNode n TNode.zero).setTap n TapState.zero
  { s2 with
    ctl := { s2.ctl with
      socks := Tbl.drop (fun k => k / 32 == n) s2.ctl.socks
      combs := Tbl.drop (· == n) s2.ctl.combs
      naks := Tbl.drop (· == n) s2.ctl.naks }
    ten := { s2.ten with
      damaged := s2.ten.damaged.filter (fun k => k / 2 != n)
      kept := Tbl.drop (· == n) s2.ten.kept } }

/-- Staging buffers of the ward's DMA channels, and the cells and tables of its collective channels. -/
def State.clearChannels (s : State) (w : BitVec 4) : State :=
  let ds := s.wardChans w
  let cs := s.wardColls w
  let s1 := ds.foldl (fun (a : State) k => a.dropDones (engineUnit k) k) (cs.foldl State.storeLeave s)
  { s1 with
    dma := { s1.dma with
      chans := Tbl.drop ds.contains s1.dma.chans
      held := s1.dma.held.filter (fun h => !ds.contains h.chan) }
    col := { s1.col with chans := Tbl.drop cs.contains s1.col.chans } }

/-- What the gates hold for the collective engine under the ward's tag: chunks, and records on their way in or out (R420). -/
def State.clearFabric (s : State) (w : BitVec 4) : State :=
  let keep := fun (p : FPkt) => p.ward != w
  (List.range 16).foldl (fun (a : State) g =>
    let x := a.gate g
    let b := a.setGate g { x with records := x.records.filter keep, chunks := x.chunks.filter keep }
    { b with col := { b.col with outbox := Tbl.upd [] b.col.outbox g (·.filter keep) } }) s

/-- The ward's counts and totals, and the epoch sequencer's state for it. -/
def State.clearCounts (s : State) (w : BitVec 4) : State :=
  { s with
    obs := { s.obs with
      counts := Tbl.drop (fun k => k % 17 == w.toNat + 1) s.obs.counts
      totals := Tbl.drop (fun k => k / 256 == w.toNat) s.obs.totals }
    ten := { s.ten with scheds := Tbl.drop (· == w.toNat) s.ten.scheds } }

/-- The buckets of the ward's core ports as their regulators go to the default (R259). -/
def State.settleDefaults (s : State) (w : BitVec 4) : State :=
  (s.wardJunctions w).foldl (fun (a : State) n => a.settleTokens n (a.obj (Obj.regCfg n)) (Obj.dflt (Obj.regCfg n))) s

/-- The scrub of R420. -/
def State.scrub (s : State) (w : BitVec 4) : State :=
  let s1 := (s.wardJunctions w).foldl State.clearStores (s.dropChecks w)
  ((((s1.clearChannels w).clearFabric w).clearCounts w).settleDefaults w).scrubObjects w

/-- The entry of index `i` names the ward in the four bits from `lo`. -/
def State.names (s : State) (w : BitVec 4) (k lo : Nat) : Bool := fget (s.obj k) lo 4 == w.toNat

/-- An object that assigns something to the ward and nothing else (R420). -/
def State.assigns (s : State) (w : BitVec 4) (k : Nat) : Bool :=
  let i := k / 256
  if k % 256 = 0 then false
  else if i = 0x1E10 ∨ (0x1720 ≤ i ∧ i < 0x1722) then s.names w k 56
  else if (0x1722 ≤ i ∧ i < 0x1724) ∨ (0x1B20 ≤ i ∧ i < 0x1B30) then s.names w k 58
  else if (0x1854 ≤ i ∧ i < 0x1858) ∨ (0x1B50 ≤ i ∧ i < 0x1B60) then tripWardOf (s.obj k) == some w
  else if (0x1810 ≤ i ∧ i < 0x1850) ∨ (0x1C00 ≤ i ∧ i < 0x1E00) then k % 256 == 1 && chanWardOf (s.obj k) == some w
  else if 0x1410 = i then s.wardOf (k % 256 - 1) == some w
  else (i == 0x1A01 || i == 0x1E03 || i == 0x1E04) && k % 256 == w.toNat + 1

/-- The valid coherent windows of a ward, by 8p + i. -/
def State.wardWindows (s : State) (w : BitVec 4) : List Nat :=
  (List.range 16).filter (fun k =>
    let v := s.obj (Obj.cohWindow (k / 8) (k % 8))
    fget v 63 1 == 1 && fget v 58 4 == w.toNat)

/-- At a revocation the lines of the ward's windows are invalidated and the dirty ones written back, as at a write that clears the
window, which goes once they are (R263, R420). -/
def State.closeWindows (s : State) (w : BitVec 4) : State :=
  (s.wardWindows w).foldl (fun (a : State) k =>
    let b := if a.txn.cohWaits.any (fun c => c.port == k / 8 && c.index == k % 8) then a else a.windowChange (k / 8) (k % 8) 0 none
    Txn.windowDone (k / 8) (k % 8) b) s

/-- The ward's class D assignments return to their defaults (R420). -/
def State.unassign (s : State) (w : BitVec 4) : State :=
  let ks := (s.objs.map (·.1)).filter (s.assigns w)
  let s1 := ks.foldl (fun (a : State) k => a.setObj k (Obj.afterReset .d k (a.obj k))) s
  let s2 := [0, 1].foldl (fun (a : State) p =>
    a.setObj (Obj.hostWardMask p) (fset (a.obj (Obj.hostWardMask p)) w.toNat 1 0)) s1
  let ps := (s2.gat.plat.filter (fun e => fget e.2 63 1 == 1 && fget e.2 26 4 == w.toNat)).map (·.1)
  (ps.foldl (fun (a : State) i => a.setPlat i 0) s2).platCount

/-- The regions that hold units of the ward: its junctions, engines and gates. -/
def State.wardRegions (s : State) (w : BitVec 4) : List Nat :=
  let es := (s.wardChans w).filterMap (fun k => s.cfg.dmaAt (k / 16))
  let gs := (s.wardColls w).filterMap (fun k => s.cfg.unitAt 2 (k / 32))
  ((s.wardJunctions w ++ es ++ gs).map s.regionOf).eraseDups

/-- What the sequence took, in µs, time spent frozen aside (R425). -/
def State.wardUs (s : State) (q : WardSeq) : Nat := (s.gateNow - (q.start - q.frozen)) / 1000

/-- The ward reclaim record (R505). -/
def State.reclaimRecord (s : State) (w : BitVec 4) (q : WardSeq) : State :=
  s.record ⟨0x0020, 0, BitVec.ofNat 8 (8 + w.toNat * 16), s.now,
    BitVec.ofNat 32 ((if q.revoke then 1 else 0) + (if q.overrun then 2 else 0)), BitVec.ofNat 32 (s.wardUs q)⟩ false

/-- The sequence ends: FREE after a revocation, ACTIVE after a reset (R418 step 6). -/
def State.wardEnd (s : State) (w : BitVec 4) (q : WardSeq) : State :=
  let k := w.toNat
  let s1 := (((s.wr (.wardSt k) (if q.revoke then 0 else 2)).wr (.wardPhase k) 0).bump (.wardReclaims k) 1).wr (.wardLastUs k)
    (min (s.wardUs q) 0xFFFF)
  { s1 with wards := Tbl.set none s1.wards k none }

/-- WARD_SCRUB_COMPLETE: the scrub of step 5 ends and firmware closes the sequence. Gated regions of the ward are woken
first (R423), and before a revocation ends the lines of its coherent windows are invalidated; steps 5 and 6 wait while no core runs. -/
def Ward.scrubbed (w : BitVec 4) (s : State) : State :=
  match Tbl.get none s.wards w.toNat with
  | none => s
  | some q =>
    if s.rd (.wardPhase w.toNat) ≠ 5 ∨ s.frozen ∨ !s.firmwareRuns then s
    else
      let asleep := (s.wardRegions w).filter (fun r => 3 ≤ s.regionStateOf r)
      if !asleep.isEmpty then asleep.foldl State.wake s
      else
        let s0 := if q.revoke then s.closeWindows w else s
        if q.revoke && !(s0.wardWindows w).isEmpty then s0
        else
        let s1 := s0.scrub w
        let s2 := if q.revoke then (s1.wardForget (fun u => s1.wardOf u == some w)).unassign w else s1
        (s2.reclaimRecord w q).wardEnd w q

def execWardScrubComplete (w : BitVec 4) (s : State) : Host.Outcome State Fault Refusal := .next (Ward.scrubbed w s)

/-! ## Ownership (R409, R417, R424, R427) -/

/-- WARD_JUNCTIONS of ward `w`, from the owners that BANK_STATE holds. -/
def State.junctionBytes (s : State) (w : BitVec 4) : List Byte :=
  leBytes 16 (((s.wardJunctions w).map (2 ^ ·)).sum)

/-- The object belongs to what a ward owns at junction `n`. -/
def junctionObj (n k : Nat) : Bool :=
  let i := k / 256
  if 0x1680 ≤ i ∧ i < 0x16F8 then i == 0x1680 + n
  else (i == 0x1213 || (decide (0x1410 ≤ i) && decide (i < 0x1414)) || i == 0x1510 || i == 0x1520 || i == 0x1521 ||
    i == 0x1730 || i == 0x1733 || (decide (0x1740 ≤ i) && decide (i < 0x1744))) && k % 256 == n + 1

/-- Junction `n` with the null bank and default objects. -/
def State.freshJunction (s : State) (n : Nat) : State :=
  let s1 := s.clearStores n
  let ks := (s1.objs.map (·.1)).filter (junctionObj n)
  let ds := (s1.doms.map (·.1)).filter (junctionObj n)
  ds.foldl State.clearDom (ks.foldl (fun (a : State) k => a.setObj k (Obj.afterReset .w k (a.obj k))) s1)

/-- The ward that owns junction `n` from now on. -/
def State.setOwner (s : State) (n : Nat) (w : Option (BitVec 4)) : State :=
  match w with
  | some x => (s.wr (.owned n) 1).wr (.owner n) x.toNat
  | none => (s.wr (.owned n) 0).wr (.owner n) 0

/-- A write of WARD_JUNCTIONS: the junctions named belong to the ward from now on (R409, R417). -/
def Ward.writeJunctions (w : BitVec 4) (bs : List Byte) : Effect := fun s =>
  let m := ofLe bs
  let st := s.rd (.wardSt w.toNat)
  let old := s.wardJunctions w
  let add := (List.range s.cfg.njs).filter (fun n => m.testBit n && !old.contains n)
  let gone := old.filter (fun n => !m.testBit n)
  if bs.length ≠ 16 then .error .length
  else if st ≠ 1 ∧ st ≠ 2 then .error .inUse
  else if 2 ^ s.cfg.njs ≤ m ∨ add.any (fun n => (s.wardOf n).isSome) then .error .outOfRange
  else if st = 2 ∧ !gone.isEmpty then .error .inUse
  else
    let s1 := gone.foldl (fun (a : State) n => a.setOwner n none) s
    .ok (add.foldl (fun (a : State) n => (a.freshJunction n).setOwner n (some w)) s1)

/-- A whole download of a DOMAIN in one command: it takes effect as its last segment is accepted (R436). -/
def State.serveDomain (s : State) (acc : Access) (k : Nat) (bs : List Byte) (eff : List Byte → Effect) : State :=
  let i := k / 256
  let sub := k % 256
  if !s.serves acc then s
  else match s.check acc i sub .download bs.length with
    | .error a => s.abortRequest acc 5 i sub 0 a
    | .ok r => match eff bs s with
      | .error a => s.abortRequest acc 5 i sub 0 a
      | .ok s1 => s1.respond acc 5 i sub (Reply.done r.ty 0 0x80000000 [])

def execWardJunctionsWrite (acc : Access) (w : BitVec 4) (map : BitVec 128) (s : State) : Host.Outcome State Fault Refusal :=
  .next (s.serveDomain acc (Obj.wardJunctions w.toNat) (leBytes 16 map.toNat) (Ward.writeJunctions w))

def execWardRefusalsClear (acc : Access) (s : State) : Host.Outcome State Fault Refusal :=
  .next (s.serveClear acc Obj.wardRefusals)

/-- The range lies within the MEM_MAP range of one attachment (R271). -/
def State.rangeMapped (s : State) (v : Val) : Bool :=
  let b := fget v 16 16
  let z := fget v 0 16
  (List.range 16).any (fun a =>
    let m := ((s.cfg.memMap.getD a 0) : BitVec 32).toNat
    (s.cfg.unitAt 1 a).isSome && decide (m / 65536 ≤ b) && decide (b + z ≤ m / 65536 + m % 65536))

/-- The range shares a GiB with a valid entry of another ward. -/
def State.rangeMeets (s : State) (i : Nat) (v : Val) : Bool :=
  (List.range 64).any (fun j =>
    let e := s.obj (Obj.wardRange j)
    j != i && fget e 63 1 == 1 && fget e 56 4 != fget v 56 4 &&
    decide (fget v 16 16 < fget e 16 16 + fget e 0 16) && decide (fget e 16 16 < fget v 16 16 + fget v 0 16))

/-- A write of a WARD_RANGE entry (R427): its range checks hold whether or not VALID is set; an entry that is not valid assigns nothing. -/
def Ward.writeRange (i : Nat) (v : Val) : Effect := fun s =>
  if fget v 0 16 = 0 ∨ !s.rangeMapped v ∨ s.rangeMeets i v then .error .outOfRange
  else if fget v 63 1 = 1 ∧ !s.wardTakes (fget v 56 4) then .error .inUse
  else .ok (s.setObj (Obj.wardRange i) v)

end Sys2Proof.Machine
end

