-- ==== Sys2Proof/Machine/Pins.lean ====
section
/-! DEFINITION. What comes in at pins and adapters: SYNC, TIMEREF, port clocks and adapter resets (R31 to R37, R66, R67,
R72, R76 to R81). -/

namespace Sys2Proof.Machine

/-- Firmware notes that the die has fallen from tier 2, in which it stood before (R473). -/
def State.tierFell (s : State) (before : Nat) : State :=
  if 2 ≤ before ∧ s.serviceTier < 2 ∧ s.firmwareRuns then s.raise (Cause.plain 0x006) else s

/-! ## SYNC and TIMEREF (R66, R67, R72) -/

/-- The die is in factory test mode: the SSP pins are the test access port (R459). -/
def State.factoryMode (s : State) : Bool := (s.obj Obj.bootStatus).getLsbD 29

def Fld.syncFreeze : Fld := ⟨Obj.freezeCtrl, 4, 1⟩

/-- SYNC_EDGE. -/
def Pin.syncEdge (s : State) : State :=
  if !s.running ∨ s.factoryMode then s
  else
    let s1 := ({ s with pin := { s.pin with sync := true, syncAt := some s.now } }).setObj Obj.syncTime (BitVec.ofNat 64 s.now)
    let s2 := s1.bumpWrap ⟨Obj.syncCount, 0, 32⟩ 1
    if s2.rd .syncFreeze = 1 ∧ !s2.frozen then s2.freezeBegin 1 2 else s2

def execSyncEdge (s : State) : Host.Outcome State Fault Refusal := .next (Pin.syncEdge s)

/-- TIMEREF_LOSS. -/
def Pin.timerefLoss (s : State) : State :=
  if !s.running ∨ !s.pin.timerefOk then s
  else
    let s1 := ({ s with pin := { s.pin with timerefOk := false } }).bump ⟨Obj.timerefLoss, 0, 16⟩ 1
    (s1.raise (Cause.plain 0x005)).tierFell s.serviceTier

def execTimerefLoss (s : State) : Host.Outcome State Fault Refusal := .next (Pin.timerefLoss s)

/-- TIMEREF_RETURN: the offsets of the die, and of those below it, are measured again (R325). -/
def Pin.timerefReturn (s : State) : State :=
  if !s.running ∨ s.pin.timerefOk then s
  else
    let s1 : State := { s with pin := { s.pin with timerefOk := true } }
    if s1.isMaster then
      let s2 := (s1.setObj Obj.hallError 0xFFFFFFFF).hallBegin
      if s2.enumerated then s2.measureAgain else s2
    else
      let s2 := s1.setObj Obj.tbError 0xFFFFFFFF
      if s2.enumerated then s2.measureAgain else s2

def execTimerefReturn (s : State) : Host.Outcome State Fault Refusal := .next (Pin.timerefReturn s)

/-- OSCILLATOR_TRIM: each 1 ms, while TIMEREF edges arrive. -/
def Pin.trim (s : State) : State :=
  if !s.running ∨ !s.pin.timerefOk then s
  else
    let s1 := s.advanceTo (s.pin.lastTrim + 1000000)
    { s1 with pin := { s1.pin with lastTrim := s1.now } }

def execOscillatorTrim (s : State) : Host.Outcome State Fault Refusal := .next (Pin.trim s)

/-! ## Port clocks (R34, R76) -/

/-- An adapter is there: a core port at A; an attachment, gate or host port at B. -/
def Integration.hasAdapter (c : Integration) (n : Nat) : Side → Bool
  | .a => c.corePort n
  | .b => decide (1 ≤ c.bKind n) && decide (c.bKind n ≤ 3)

/-- A_CLOCK or B_CLOCK. -/
def clockKey (n : Nat) : Side → Nat
  | .a => Obj.aClock n
  | .b => Obj.bClock n

/-- ADAPTER_CLOCK_STOP: the channels hold, and the clock reads 0. -/
def Pin.clockStop (n : Nat) (side : Side) (s : State) : State :=
  if !s.cfg.hasAdapter n side ∨ s.clockStopped n side then s
  else ({ s with pin := { s.pin with stopped := s.pin.stopped ++ [adapterKey n side] } }).setObj (clockKey n side) 0

def execAdapterClockStop (n : Nat) (side : Side) (s : State) : Host.Outcome State Fault Refusal := .next (Pin.clockStop n side s)

/-- The target half behind an adapter, by local unit number. -/
def Integration.targetBehind (c : Integration) (n : Nat) : Side → Option Nat
  | .a => if c.corePort n then some n else none
  | .b => match c.bKind n with
    | 1 => some (0xA0 + c.bIndex n)
    | 3 => some (0x90 + c.bIndex n)
    | _ => none

/-- Work that has waited for the adapter goes on. -/
def State.adapterResumes (s : State) (n : Nat) (side : Side) : State :=
  match s.cfg.targetBehind n side with
  | some u => if s.running then s.unitGoes u else s
  | none => s

/-- ADAPTER_CLOCK_START. -/
def Pin.clockStart (n : Nat) (side : Side) (s : State) : State :=
  if !s.clockStopped n side then s
  else ({ s with pin := { s.pin with stopped := s.pin.stopped.erase (adapterKey n side) } }).adapterResumes n side

def execAdapterClockStart (n : Nat) (side : Side) (s : State) : Host.Outcome State Fault Refusal := .next (Pin.clockStart n side s)

/-- ADAPTER_CLOCK_MEASURE: the frequency in MHz; 0 while the clock stands. -/
def Pin.clockMeasure (n : Nat) (side : Side) (mhz : BitVec 16) (s : State) : State :=
  if !s.running ∨ !s.cfg.hasAdapter n side then s
  else s.setObj (clockKey n side) (if s.clockStopped n side then 0 else mhz.setWidth 64)

def execAdapterClockMeasure (n : Nat) (side : Side) (mhz : BitVec 16) (s : State) : Host.Outcome State Fault Refusal :=
  .next (Pin.clockMeasure n side mhz s)

/-! ## Adapter resets (R36) -/

/-- A run partly injected at an ingress ends with an error completion, and ADAPTER_RESET_RUN is raised. -/
def State.endInjection (s : State) (n : Nat) (side : Side) : State :=
  let i := sidePort side
  let f := (s.ing n i).flow
  if f = 0 then s.ingAbort n i false
  else (s.ingAbort n i false).raise (Cause.atUnit 0x046 (s.wardOf n) n i 0x3F (f - 1))

/-- Flits under way to the port are lost, and after release nothing is delivered before a flit with FIRST. -/
def State.loseDelivery (s : State) (n : Nat) (side : Side) : State :=
  let k := adapterKey n side
  let s1 := s.setDlv n (sidePort side) TDlv.zero
  { s1 with pin := { s1.pin with waitFirst := if s1.pin.waitFirst.contains k then s1.pin.waitFirst else s1.pin.waitFirst ++ [k] } }

/-- What a socket loses when it is emptied: each message, an accumulator in use and a held result (R232). -/
def Sock.losses (x : Sock) : Nat :=
  x.msgs + (if x.acc.count = 0 then 0 else 1) + (if x.held.isSome then 1 else 0)

/-- The operand sockets of a port are emptied; each loss is a drop of its socket. -/
def State.emptySockets (s : State) (n : Nat) : State :=
  (List.range (s.cfg.sockets n)).foldl (fun (a : State) k =>
    (a.bump (.drops n k) (a.sock n k).losses).setSock n k Sock.zero) s

/-- ADAPTER_RESETS of the port. -/
def Fld.adapterResets (n : Nat) : Side → Fld
  | .a => ⟨Obj.portStatus n, 0, 8⟩
  | .b => ⟨Obj.bPortStatus n, 0, 8⟩

/-- The tile's part in an adapter reset. -/
def State.portReset (s : State) (n : Nat) (side : Side) : State :=
  let s1 := ((s.endInjection n side).loseDelivery n side).bump (.adapterResets n side) 1
  match side with
  | .a => ((s1.emptySockets n).txnAdapterReset n).snoopAdapterReset n
  | .b => match s.cfg.bKind n with
    | 1 => s1.targetAdapterReset (0xA0 + s.cfg.bIndex n)
    | 3 => (s1.txnAdapterReset (0x90 + s.cfg.bIndex n)).targetAdapterReset (0x90 + s.cfg.bIndex n)
    | _ => s1

/-- ADAPTER_RESET_ASSERT. -/
def Pin.adapterReset (n : Nat) (side : Side) (s : State) : State :=
  if !s.cfg.hasAdapter n side ∨ s.adapterHeld n side then s
  else
    let s1 : State := { s with pin := { s.pin with held := s.pin.held ++ [adapterKey n side] } }
    if s1.running then s1.portReset n side else s1

def execAdapterResetAssert (n : Nat) (side : Side) (s : State) : Host.Outcome State Fault Refusal :=
  .next (Pin.adapterReset n side s)

/-- ADAPTER_RESET_RELEASE. -/
def Pin.adapterRelease (n : Nat) (side : Side) (s : State) : State :=
  if !s.adapterHeld n side then s
  else ({ s with pin := { s.pin with held := s.pin.held.erase (adapterKey n side) } }).adapterResumes n side

def execAdapterResetRelease (n : Nat) (side : Side) (s : State) : Host.Outcome State Fault Refusal :=
  .next (Pin.adapterRelease n side s)

end Sys2Proof.Machine
end

