-- ==== Sys2Proof/Machine/Boot.lean ====
section
/-! DEFINITION. Start-up: the reset kinds of the whole die, the start sequence, the firmware image, the cores and their
watchdog, and the fuses (R65, R69, R428 to R431, R454 to R462, R497). -/

namespace Sys2Proof.Machine

/-! ## What a reset leaves (R15, R462) -/

/-- The objects after a reset of class `c`. -/
def State.keptObjs (s : State) (c : Cls) : Tbl Val :=
  s.objs.foldl (fun t p => Tbl.set (Obj.dflt p.1) t p.1 (Obj.afterReset c p.1 p.2)) []

/-- The DOMAIN objects after a reset of class `c`. -/
def State.keptDoms (s : State) (c : Cls) : Tbl (Option (List Byte)) :=
  s.doms.filter (fun p => match rowOf p.1 with
    | some r => decide (r.cls.code < c.code)
    | none => false)

/-- A collector register whose copies differ takes the copy whose code checks good; of two good copies a status takes
the OR, and another word its default (R494). -/
def State.settleSplit (s : State) : State :=
  let s1 := s.flt.split.foldl (fun (a : State) p =>
    let i := p.1 / 256
    a.setObj p.1 (match p.2 with
      | (some x, none) => x
      | (none, some y) => y
      | (some x, some y) => if 0x2220 ≤ i ∧ i < 0x2224 then x ||| y else Obj.dflt p.1
      | (none, none) => Obj.dflt p.1)) s
  { s1 with flt := { s1.flt with split := [] } }

/-- A reset of class `c` of the whole die, whatever its kind: what integration, fuses, antifuse and pins hold stays. -/
def State.resetTo (s : State) (c : Cls) : State :=
  { State.reset with
    cfg := s.cfg
    pending := s.pending
    drawn := s.drawn
    out := s.out
    objs := s.keptObjs c
    doms := s.keptDoms c
    txn := { TxnState.reset with owed := s.owing (fun _ => true) }
    pin := { s.pin with waitFirst := [], spent := [], dynAddr := none, ibiOff := false, syncAt := none, lastTrim := 0 }
    pwr := { PowerState.reset with
      below := s.pwr.below
      down := s.pwr.down
      dips := s.pwr.dips.map (fun p => (p.1, p.2.map (fun q => (0, q.2)))) }
    boot := { s.boot with startAsked := false, holdAsked := false, wdt := none, coreHold := none, expired := false,
                          remeasure := false, negotiated := false }
    flt := { FaultState.reset with slots := s.flt.slots, rowsUsed := s.flt.rowsUsed, remapped := s.flt.remapped }
    sp := { SpareState.reset with
      retiredCols := s.sp.retiredCols
      retiredRows := s.sp.retiredRows
      laneUsed := s.sp.laneUsed
      badSpares := s.sp.badSpares } }

/-! ## Power-on reset (R65) -/

def Fld.causeKind : Fld := ⟨Obj.resetCause, 28, 4⟩
def Fld.causeSource : Fld := ⟨Obj.resetCause, 24, 4⟩
def Fld.dieResets : Fld := ⟨Obj.resetCause, 16, 8⟩
def Fld.pkgResets : Fld := ⟨Obj.resetCause, 8, 8⟩
def Fld.regionResets : Fld := ⟨Obj.resetCause, 0, 8⟩

/-- The die enters a power-on reset, from the given source of R478: the image is lost, and a core is selected anew. -/
def State.powerOnReset (s : State) (source : Nat) : State :=
  let s1 := s.resetTo .p
  let s2 : State := { s1 with
    pin := { s1.pin with inReset := true }
    boot := { s1.boot with image := [], romOk := false, refusalNoted := false } }
  s2.wr .causeSource source

/-- POWER_ON_RESET_ASSERT: a pulse shorter than 100 ns is ignored. -/
def Boot.assert (pin : ResetPin) (ns : Nat) (s : State) : State :=
  if ns < 100 then s
  else
    let p : PinState := match pin with
      | .resetN => { s.pin with rstN := false }
      | .pwrOk => { s.pin with pwrOk := false }
    let s1 : State := { s with pin := p }
    if s.pin.inReset then s1
    else s1.powerOnReset (match pin with
      | .resetN => 0
      | .pwrOk => 1)

def execPowerOnResetAssert (pin : ResetPin) (ns : Nat) (s : State) : Host.Outcome State Fault Refusal :=
  .next (Boot.assert pin ns s)

/-! ## The start sequence (R454, R459, R460) -/

/-- PATH_CAP from three caps. -/
def capWord (bus mailbox inBand : Nat) : Nat := bus + 8 * mailbox + 64 * inBand

/-- The caps of R460: blank, as fused, or retired; those of blank in factory test mode (R459). -/
def State.caps (s : State) : Nat :=
  if s.factoryMode ∨ s.boot.lifecycle = 0 then capWord 3 3 1
  else if s.boot.lifecycle = 3 then capWord 2 7 7
  else (s.obj Obj.fuseCaps).toNat

/-- Step 2: the fuses are sensed. Random bits of the provisional identifier are drawn anew in blank (R60). -/
def State.sense (s : State) : State :=
  let s1 := (s.setObj Obj.lifecycle (BitVec.ofNat 64 s.boot.lifecycle)).setObj Obj.pathCap (BitVec.ofNat 64 s.caps)
  if s.boot.lifecycle = 0 then
    ({ s1 with pin := { s1.pin with pidRandom := (Config.freeValue s1.drawn).setWidth 32 } }).draw
  else s1

/-- Every region waits in reset for its release of step 5. -/
def State.holdRegions (s : State) : State :=
  let ks := List.range s.cfg.regions
  let s1 := ks.foldl (fun (a : State) k => a.wr (.regionSt k) (if a.pwr.down.contains k then 0 else 1)) s
  { s1 with pwr := { s1.pwr with unstarted := ks } }

/-- The straps as BOOT_STATUS shows them: FACTORY_TEST is honoured in blank and provisioned, while DEBUG_DISABLE is 0 (R459). -/
def State.latchStraps (s : State) (straps : BitVec 4) : State :=
  let asked := straps.getLsbD 0
  let may := s.boot.lifecycle ≤ 1 && (s.obj Obj.debugDisable).toNat == 0
  let v := (if straps.getLsbD 2 then 2 ^ 31 else 0) + (if straps.getLsbD 3 then 2 ^ 30 else 0) +
    (if asked && may then 2 ^ 29 else 0) + (if asked && !may then 2 ^ 28 else 0)
  (s.setObj Obj.strapLatch (straps.setWidth 64)).setObj Obj.bootStatus (BitVec.ofNat 64 v)

/-- RESET_RELEASE: steps 1 to 4. The recorder scans its slots from here on (R503). -/
def Boot.release (straps : BitVec 4) (romOk : Bool) (s : State) : State :=
  if !s.pin.inReset ∨ s.pwr.below.contains 8 ∨ s.pwr.down.contains 8 then s
  else
    let s1 : State := { s with
      pin := { s.pin with inReset := false, rstN := true, pwrOk := true, sync := straps.getLsbD 1, syncAt := some s.now }
      flt := { s.flt with scanning := true }
      boot := { s.boot with romOk := romOk } }
    let s2 := ((s1.latchStraps straps).sense).holdRegions
    let s3 := if s2.factoryMode then s2.recordEvent 0x0032 s2.boot.lifecycle 0 false else s2
    if romOk then s3 else s3.raise (Cause.plain 0x004)

def execResetRelease (straps : BitVec 4) (romOk : Bool) (s : State) : Host.Outcome State Fault Refusal :=
  .next (Boot.release straps romOk s)

/-- The bridges whose endpoints lie in region `k`. -/
def State.bridgesIn (s : State) (k : Nat) : List Nat :=
  (List.range 4).filter (fun b => (s.cfg.unitAt 4 b).any (fun n => s.regionOf n == k))

/-- REGION_START_RELEASE: regions are released in turn, each once its monitor reads above warning; the bridges there begin to train. -/
def Boot.regionStart (k : Nat) (s : State) : State :=
  if !s.running ∨ s.pwr.unstarted.head? ≠ some k ∨ s.pwr.below.contains k ∨ s.pwr.down.contains k then s
  else
    let s1 : State := { s with pwr := { s.pwr with
      unstarted := s.pwr.unstarted.tail
      lastActive := Tbl.set 0 s.pwr.lastActive k s.now } }
    (s1.bridgesIn k).foldl State.trainBegin (s1.wr (.regionSt k) 2)

def execRegionStartRelease (k : Nat) (s : State) : Host.Outcome State Fault Refusal := .next (Boot.regionStart k s)

/-! ## The firmware image (R455, R456) -/

/-- The header agrees with R455. -/
def imageHeaderOk (bs : List Byte) : Bool :=
  leAt bs 0 2 == 1 && leAt bs 2 2 == 0 && leAt bs 4 4 == bs.length && decide (64 ≤ bs.length) && decide (bs.length ≤ 393216) &&
  decide (leAt bs 8 4 < bs.length) && leAt bs 8 4 % 2 == 0 && (bs.drop 16).take 48 == List.replicate 48 0

def Fld.imagePresent : Fld := ⟨Obj.bootStatus, 27, 1⟩
def Fld.imageBad : Fld := ⟨Obj.bootStatus, 26, 1⟩
def Fld.starts : Fld := ⟨Obj.bootStatus, 0, 16⟩

/-- FW_IMAGE: a download is accepted in BOOT_ROM. -/
def Boot.imageMay (s : State) : Except Abort Unit := if s.rd .coreState = 0 then .ok () else .error .inUse

/-- A download of FW_IMAGE ends: the image is held, or discarded. -/
def Boot.writeImage (bs : List Byte) : Effect := fun s =>
  if s.rd .coreState ≠ 0 then .error .inUse
  else if imageHeaderOk bs then
    .ok (({ s with boot := { s.boot with image := bs, holdAsked := false } }).wr .imagePresent 1 |>.wr .imageBad 0)
  else .ok (({ s with boot := { s.boot with image := [] } }).wr .imagePresent 0 |>.wr .imageBad 1)

/-- The end of the watchdog's period, counted from now (R497). -/
def State.armWatchdog (s : State) : State :=
  { s with boot := { s.boot with wdt := some (s.now + 1000 * (s.obj Obj.wdtPeriod).toNat) } }

/-- FW_IMAGE_START: the held image is measured and started. In factory test mode none starts; a die started safely waits
for START, and HOLD holds the image back. -/
def Boot.imageStart (s : State) : State :=
  if !s.bootRuns ∨ s.boot.image.isEmpty ∨ s.factoryMode ∨ s.boot.holdAsked ∨ (s.safeStart ∧ !s.boot.startAsked) then s
  else
    let s1 := (s.setDom Obj.measFw (sha384 s.boot.image)).bump .starts 1
    (({ s1 with boot := { s1.boot with startAsked := false } }).wr .coreState 4).armWatchdog

def execFwImageStart (s : State) : Host.Outcome State Fault Refusal := .next (Boot.imageStart s)

/-- FW_CTRL keeps the last accepted command. START needs the boot ROM and a held image (R476). -/
def Boot.start : Effect := fun s =>
  if !s.bootRuns ∨ s.boot.image.isEmpty ∨ s.factoryMode then .error .badState
  else .ok (({ s with boot := { s.boot with startAsked := true, holdAsked := false } }).setObj Obj.fwCtrl 1)

def execFwStart (acc : Access) (s : State) : Host.Outcome State Fault Refusal :=
  .next (s.serveKey acc Obj.fwCtrl 1 (fun _ => Boot.start))

/-! ## Core restarts (R430, R431) -/

/-- The request that a tile slot holds. -/
def Slot.heldReq (x : Slot) : Option HeldReq :=
  x.pdu.map (fun p => ⟨⟨slotPath p.1.src p.1.ward p.1.tag, p.2.level, p.2.reqId⟩, p.2.cmd, p.2.index, p.2.sub, p.2.xfer⟩)

/-- The request of a mailbox or of the management bus. -/
def heldPdu (path : Path) (bs : List Byte) : HeldReq :=
  let q := ReqPdu.ofBytes bs
  ⟨⟨path, q.level, q.reqId⟩, q.cmd, q.index, q.sub, q.xfer⟩

/-- The request of a queued service message. -/
def ServiceMsg.heldReq (m : ServiceMsg) : HeldReq :=
  let w0 := (m.words.getD 0 0).toNat
  let w1 := (m.words.getD 1 0).toNat
  ⟨⟨.service m.src m.ward (BitVec.ofNat 5 (w0 / 65536)), BitVec.ofNat 2 (w0 / 256), m.words.getD 2 0⟩,
    w0 % 256, w1 % 65536, w1 / 65536 % 256, 0⟩

/-- The requests that slots, mailboxes, the bus buffer and the service queue hold unexecuted. -/
def State.caught (s : State) : List HeldReq :=
  (s.target 0xC1).slots.filterMap Slot.heldReq ++
  ([0, 1].filter (fun p => (s.mailbox p).busy)).map (fun p => heldPdu (.mailbox p) (padTo 1152 (s.mailbox p).request)) ++
  (match s.dict.bus with
    | some b => [heldPdu .bus b.2]
    | none => []) ++
  s.dict.service.map ServiceMsg.heldReq

/-- The running core stops: transfers are abandoned, the requests held are answered once firmware runs again, and ward
sequences under way note it (R423, R431). -/
def State.coreDown (s : State) : State :=
  let s1 := (s.dict.transfers.foldl State.transferLost (s.bump .abandoned s.dict.transfers.length)).setObj Obj.fwRelease 0
  { s1 with
    dict := { s1.dict with transfers := [], held := s.caught }
    boot := { s1.boot with wdt := none, negotiated := false }
    wards := s1.wards.map (fun p => (p.1, p.2.map (fun q => { q with overrun := true }))) }

def Fld.coreSpare : Fld := ⟨Obj.coreState, 31, 1⟩
def Fld.spareFailed : Fld := ⟨Obj.coreState, 30, 1⟩
def Fld.coreRestarts : Fld := ⟨Obj.coreState, 8, 8⟩
def Fld.coreExpiries : Fld := ⟨Obj.coreState, 0, 8⟩

/-- The cold spare is powered and started from the boot ROM (R430, R505). -/
def State.selectSpare (s : State) : State :=
  let s1 := (((s.wr .coreSpare 1).wr .coreState 0).bump .coreRestarts 1).setObj Obj.coreSel 1
  let s2 : State := { s1 with boot := { s1.boot with expired := false, coreHold := none } }
  s2.recordEvent 0x0041 (s2.obj Obj.coreState).toNat 0 false

/-- Both cores stay in reset (R430). -/
def State.stopCores (s : State) : State :=
  let s1 := (s.wr .spareFailed 1).wr .coreState 3
  (({ s1 with boot := { s1.boot with coreHold := none } }).raise (Cause.plain 0x002))

/-- WATCHDOG_EXPIRE: the core is held in reset for 10 µs; the second time before firmware has reported itself running,
the spare is selected, or both cores stop. -/
def Boot.watchdog (s : State) : State :=
  match s.boot.wdt with
  | none => s
  | some t =>
    if !s.running then s
    else
      let s1 := ((s.advanceTo t).bump .coreExpiries 1).raise (Cause.plain 0x001)
      let s2 := s1.coreDown
      let tier := s.serviceTier
      if !s2.boot.expired then
        let s3 := s2.wr .coreState 2
        { s3 with boot := { s3.boot with expired := true, coreHold := some (s3.now + 10000) } }
      else if s2.rd .coreSpare = 0 then s2.selectSpare
      else s2.stopCores.tierFell tier

def execWatchdogExpire (s : State) : Host.Outcome State Fault Refusal := .next (Boot.watchdog s)

/-- CORE_RESET_HOLD_EXPIRE: the core starts from the boot ROM. -/
def Boot.coreHeld (s : State) : State :=
  match s.boot.coreHold with
  | none => s
  | some t =>
    let s1 := ((s.advanceTo t).wr .coreState 0).bump .coreRestarts 1
    { s1 with boot := { s1.boot with coreHold := none } }

def execCoreResetHoldExpire (s : State) : Host.Outcome State Fault Refusal := .next (Boot.coreHeld s)

/-- CORE_SEL: 1 selects the spare; 0 is refused while the spare is selected. -/
def Boot.selectMay (v : Val) : Effect := fun s =>
  if fget v 0 1 = 0 ∧ s.rd .coreSpare = 1 then .error .badState else .ok s

/-- CORE_SEL_WRITE: the spare takes over once the write has been answered. -/
def Boot.coreSel (acc : Access) (v : BitVec 8) (s : State) : State :=
  s.serveThen acc Obj.coreSel (v.setWidth 64) Boot.selectMay
    (fun a => if v.getLsbD 0 ∧ a.rd .coreSpare = 0 then a.coreDown.selectSpare else a)

def execCoreSelWrite (acc : Access) (v : BitVec 8) (s : State) : Host.Outcome State Fault Refusal := .next (Boot.coreSel acc v s)

/-- HOLD: the core restarts into the boot ROM and starts no image (R476). -/
def State.holdCore (s : State) : State :=
  let s1 : State := { s with boot := { s.boot with holdAsked := true, startAsked := false } }
  if s1.rd .coreState = 1 then
    let s2 := ((s1.coreDown).wr .coreState 0).bump .coreRestarts 1
    { s2 with boot := { s2.boot with expired := false } }
  else s1

def execFwHold (acc : Access) (s : State) : Host.Outcome State Fault Refusal :=
  .next (s.serveThen acc Obj.fwCtrl 2 (fun _ => storeVal Obj.fwCtrl 2) State.holdCore)

/-- Requests that the restart caught are answered RESTARTED (R431). -/
def State.answerHeld (s : State) : State :=
  let hs := s.dict.held
  let s1 : State := { s with dict := { s.dict with held := [] } }
  hs.foldl (fun (a : State) h => a.abortRequest h.acc h.cmd h.index h.sub h.xfer .restarted) s1

/-- What waits at every path is looked through (R444, R448). -/
def State.servePaths (s : State) : State := (((s.serveTile.serveService).busRefuse).mailboxRefuse 0).mailboxRefuse 1

/-- Firmware's work once it runs: the refused-test record after power-on, enumeration, and the offsets (R320, R324, R459). -/
def State.firmwareBegins (s : State) : State :=
  let refused := (s.obj Obj.bootStatus).getLsbD 28 && !s.boot.refusalNoted
  let s1 := if refused then
      ({ s with boot := { s.boot with refusalNoted := true } }).recordEvent 0x0031
        ((s.obj Obj.lifecycle).toNat + 4 * (s.obj Obj.debugDisable).toNat) 0 false else s
  let s2 := s1.repairsBegin.enumStart
  if s2.boot.remeasure then
    let s3 : State := { s2 with boot := { s2.boot with remeasure := false } }
    if s3.enumerated then s3.measureAgain else s3
  else s2

/-- FIRMWARE_RUNNING. -/
def Boot.firmwareRunning (rel : BitVec 32) (s : State) : State :=
  if !s.running ∨ s.rd .coreState ≠ 4 then s
  else
    let s1 := (s.wr .coreState 1).setObj Obj.fwRelease (rel.setWidth 64)
    let s2 : State := { s1 with boot := { s1.boot with expired := false } }
    s2.answerHeld.servePaths.firmwareBegins

def execFirmwareRunning (rel : BitVec 32) (s : State) : Host.Outcome State Fault Refusal := .next (Boot.firmwareRunning rel s)

/-- WDT_KICK: 0x5A restarts the period (R497). -/
def Boot.kick (v : Val) : Effect := fun s =>
  if v ≠ 0x5A then .error .outOfRange
  else .ok (if s.boot.wdt.isSome then s.armWatchdog else s)

def execWdtKick (acc : Access) (v : BitVec 8) (s : State) : Host.Outcome State Fault Refusal :=
  .next (s.serveKey acc Obj.wdtKick (v.setWidth 64) Boot.kick)

/-! ## Die and package resets (R462) -/

/-- The die starts again from step 2 of R454, at time 0. A die both of whose cores have stopped keeps them so (R430). -/
def State.restartDie (s : State) : State :=
  let low := (List.range s.cfg.regions).any (fun k => decide ((s.obj (Obj.railTarget k)).toNat < 750))
  let old := s.settleSplit
  let s1 := old.resetTo .d
  let s2 : State := { s1 with
    flt := { s1.flt with lastCount := old.flt.lastCount, queue := old.flt.queue, scanning := old.flt.scanning }
    obs := { s1.obs with store := old.obs.store, seq := old.obs.seq, left := old.obs.left }
    brg := { s1.brg with pos := old.brg.pos }
    boot := { s1.boot with remeasure := true } }
  let s3 := (if s2.rd .coreState = 3 then s2 else s2.wr .coreState 0).setObj Obj.fwRelease 0
  let s4 := s3.sense.holdRegions.tbPeriodFrom
  if low then s4.ibi 0x52 else s4

/-- The count of die resets, and the cause, as RESET_CAUSE shows them (R478). -/
def State.noteReset (s : State) (kind source : Nat) : State :=
  ((s.wr .causeKind kind).wr .causeSource source).bump .dieResets 1

/-- A die reset by DIE_RESET. -/
def State.dieReset (s : State) : State :=
  let s1 := s.noteReset 2 3
  (s1.recordEvent 0x0003 (s1.obj Obj.resetCause).toNat 0 false).restartDie

/-- DIE_RESET: any value but 0xD1 is out of range. -/
def Boot.resetMay (good : Val) (v : Val) : Effect := fun s => if v = good then .ok s else .error .outOfRange

def execDieReset (acc : Access) (v : BitVec 8) (s : State) : Host.Outcome State Fault Refusal :=
  .next (s.serveThen acc Obj.dieReset (v.setWidth 64) (Boot.resetMay 0xD1) State.dieReset)

/-- A package reset at this die, from the source given: classes K and below. -/
def State.packageReset (s : State) (source : Nat) : State :=
  let s1 := (s.noteReset 1 source).bump .pkgResets 1
  let s2 := s1.recordEvent 0x0004 (s1.obj Obj.resetCause).toNat (s1.obj Obj.dieNumber).toNat false
  let s3 := (s2.trainedBut s2.parent).foldl (fun (a : State) b => a.emit (.sidebandReset b)) s2
  let s4 := ({ s3 with objs := s3.keptObjs .k, doms := s3.keptDoms .k }).restartDie
  { s4 with brg := BridgeState.reset, boot := { s4.boot with remeasure := false } }

def execPkgReset (acc : Access) (v : BitVec 8) (s : State) : Host.Outcome State Fault Refusal :=
  .next (s.serveThen acc Obj.pkgReset (v.setWidth 64) (Boot.resetMay 0xA5) (fun a => a.packageReset 5))

/-- PKG_RESET_RECEIVE: the reset goes on over the sidebands away from the master. -/
def Boot.packageReset (s : State) : State := if s.running then s.packageReset 4 else s

def execPkgResetReceive (s : State) : Host.Outcome State Fault Refusal := .next (Boot.packageReset s)

/-! ## Fuses (R461) -/

/-- LIFECYCLE as sensed at the start. -/
def State.lifecycle (s : State) : Nat := (s.obj Obj.lifecycle).toNat

/-- FUSE_CAPS: in blank, once. -/
def Fuse.writeCaps (v : Val) : Effect := fun s =>
  let ib := fget v 6 3
  if s.boot.capsFused then .error .inUse
  else if s.lifecycle ≠ 0 then .error .badState
  else if 3 < fget v 0 3 ∨ 3 < fget v 3 3 ∨ (ib ≠ 0 ∧ ib ≠ 1 ∧ ib ≠ 7) then .error .outOfRange
  else .ok (({ s with boot := { s.boot with capsFused := true } }).setObj Obj.fuseCaps v)

def execFuseCaps (acc : Access) (v : BitVec 16) (s : State) : Host.Outcome State Fault Refusal :=
  .next (s.serveKey acc Obj.fuseCaps (v.setWidth 64) Fuse.writeCaps)

/-- PROVISION: in blank, once. The device key pair is generated: its value is free. -/
def Fuse.writeProvision (bs : List Byte) : Effect := fun s =>
  if s.boot.provFused then .error .inUse
  else if s.lifecycle ≠ 0 then .error .badState
  else if bs.length ≠ 16 then .error .length
  else
    let s1 : State := { s with boot := { s.boot with
      provFused := true
      mfr := BitVec.ofNat 15 (leAt bs 4 2)
      serial := BitVec.ofNat 12 (leAt bs 6 2) } }
    let s2 := (s1.setObj Obj.licenseeId (BitVec.ofNat 64 (leAt bs 0 4))).setObj Obj.mctpIana (BitVec.ofNat 64 (leAt bs 8 4))
    .ok (((s2.setDom Obj.provision bs).setDom Obj.devicePubkey (4 :: padTo 96 (Config.freeBytes s2.drawn 96))).draw)

/-- CERT_CHAIN: in provisioned, once. -/
def Fuse.writeChain (bs : List Byte) : Effect := fun s =>
  if s.boot.certFused then .error .inUse
  else if s.lifecycle ≠ 1 then .error .badState
  else .ok (({ s with boot := { s.boot with certFused := true } }).setDom Obj.certChain bs)

/-- SCHED_KEY_HASH: in blank or provisioned, once. -/
def Fuse.writeKeyHash (bs : List Byte) : Effect := fun s =>
  if s.boot.keyFused then .error .inUse
  else if 1 < s.lifecycle then .error .badState
  else if bs.length ≠ 48 then .error .length
  else .ok (({ s with boot := { s.boot with keyFused := true } }).setDom Obj.schedKeyHash bs)

/-- DEBUG_DISABLE: a bit once written stays. -/
def Fuse.writeDebug (v : Val) : Effect := fun s => .ok (s.setObj Obj.debugDisable (s.obj Obj.debugDisable ||| v))

def execDebugDisable (acc : Access) (v : BitVec 8) (s : State) : Host.Outcome State Fault Refusal :=
  .next (s.serveKey acc Obj.debugDisable (v.setWidth 64) Fuse.writeDebug)

/-- LIFECYCLE_ADVANCE: by one, with its preconditions; it takes effect from the next start. -/
def Fuse.advance (v : Val) : Effect := fun s =>
  let l := s.lifecycle
  if l = 3 then .error .badState
  else if v.toNat ≠ l + 1 then .error .outOfRange
  else if (l = 0 ∧ !(s.boot.capsFused ∧ s.boot.provFused)) ∨ (l = 1 ∧ !(s.boot.certFused ∧ s.boot.keyFused)) then .error .badState
  else
    let s1 : State := { s with boot := { s.boot with lifecycle := max s.boot.lifecycle (l + 1) } }
    let s2 := if l = 1 then s1.setObj Obj.debugDisable 1 else s1
    .ok (s2.recordEvent 0x0033 (l + 1) 0 false)

def execLifecycleAdvance (acc : Access) (v : BitVec 8) (s : State) : Host.Outcome State Fault Refusal :=
  .next (s.serveKey acc Obj.lifecycleAdvance (v.setWidth 64) Fuse.advance)

end Sys2Proof.Machine
end

