-- ==== Sys2Proof/Machine/Counters.lean ====
section
/-! DEFINITION. The central reader: gathers of local counts, and trace records on their way to the store (R535 to R539). -/

namespace Sys2Proof.Machine

/-- Slot `j` counts event `ev` at unit `n` for the ward numbered `w` − 1, 0 for an event without ward (R536, R560). -/
def State.slotCounts (s : State) (j ev n w : Nat) : Bool :=
  let v := s.obj (Obj.cntCfg j)
  fget v 31 1 == 1 && fget v 0 8 == ev && (fget v 25 1 == 1 || fget v 18 7 == n) &&
  (fget v 30 1 == 1 || fget v 26 4 + 1 == w) && !s.obs.fresh.contains j

/-- CNT_VALUE of slot `j`, raised by `c`. -/
def State.slotAdd (s : State) (c : Nat) (j : Nat) : State := s.bump ⟨Obj.cntValue j, 0, 64⟩ c

/-- One local count is added into the totals it belongs to. -/
def State.gatherOne (s : State) (p : Nat × Nat) : State :=
  let w := p.1 % 17
  let n := p.1 / 17 % 128
  let ev := p.1 / 17 / 128
  let s1 := ((List.range 64).filter (fun j => s.slotCounts j ev n w)).foldl (fun (a : State) j => a.slotAdd p.2 j) s
  if w ≠ 0 ∧ bitOf (s.dom (Obj.wardEvtEn (w - 1)) 16) ev then
    { s1 with obs := { s1.obs with totals := Tbl.upd 0 s1.obs.totals (256 * (w - 1) + ev) (fun x => min (x + p.2) (2 ^ 64 - 1)) } }
  else s1

/-- The counts whose unit `pick` chooses are gathered, and leave their units. -/
def State.gatherAt (s : State) (pick : Nat → Bool) : State :=
  let s1 := (s.obs.counts.filter (fun p => pick (p.1 / 17 % 128))).foldl State.gatherOne s
  { s1 with obs := { s1.obs with counts := Tbl.drop (fun k => pick (k / 17 % 128)) s1.obs.counts } }

/-- A gather of the whole die. -/
def State.gather (s : State) : State :=
  let s1 := s.gatherAt (fun _ => true)
  ({ s1 with obs := { s1.obs with fresh := [] } }).setObj Obj.gatherTime (BitVec.ofNat 64 s.now)

/-- A record arrives over the chain and is stored; one that matches TRACE_MATCH fires the trigger (R539, R542). -/
def State.traceArrive (s : State) (r : TraceRec) : State :=
  let stopped := s.rd .traceState == 3 || s.rd .traceEnable == 0
  let s1 := s.traceWrite r
  if !stopped && s.rd .trigMatch == 1 && s.traceMatches r then
    (s1.traceFire (Config.freeValue s1.drawn).toNat).draw
  else s1

/-- The records queued at a unit are drained into the store (R556). -/
def State.traceDrain (s : State) (k : Nat) : State :=
  let q := Tbl.get [] s.obs.queues k
  q.foldl State.traceArrive { s with obs := { s.obs with queues := Tbl.set [] s.obs.queues k [] } }

end Sys2Proof.Machine
end

