-- ==== Sys2Proof/Machine/Power.lean ====
section
/-! DEFINITION. Power: region resets and their release, gating and wake, rails, and the supply monitors
(R463 to R472, R475 to R481). -/

namespace Sys2Proof.Machine

/-! ## What a region holds -/

/-- The junctions of region `k`, as a test. -/
def State.inRegion (s : State) (k n : Nat) : Bool := s.regionOf n == k

/-- The unit with local number `u` lies at a junction that `r` names, line sides and router units included; the tile's own
endpoints keep working whatever region they lie in (R80). -/
def State.unitAmong (s : State) (r : Nat → Bool) (u : Nat) : Bool :=
  if u = 0xC0 ∨ u = 0xC1 then false
  else match s.cfg.unitJunction (u % 0x100) with
    | some n => r n
    | none => false

def State.unitIn (s : State) (k u : Nat) : Bool := s.unitAmong (s.inRegion k) u

/-- The same for the key of a control message at its destination, where `un` names the units. -/
def ctlAmong (r un : Nat → Bool) (u : Nat) : Bool :=
  if 0x200 ≤ u then r (u - 0x200)
  else if 0x100 ≤ u ∧ u < 0x178 then r (u - 0x100)
  else un u

def State.ctlUnitIn (s : State) (k u : Nat) : Bool := ctlAmong (s.inRegion k) (s.unitIn k) u

/-- The bridges, gates, engines and host ports of region `k`. -/
def State.kindIn (s : State) (kind k : Nat) : List Nat :=
  (List.range 16).filter (fun i => match s.cfg.unitAt kind i with
    | some n => s.regionOf n == k
    | none => false)

def State.enginesIn (s : State) (k : Nat) : List Nat :=
  (List.range 4).filter (fun e => match s.cfg.dmaAt e with
    | some n => s.regionOf n == k
    | none => false)

/-- The seams of the junctions `r` names: a junction inside, the port by which it faces out, and the neighbour there. -/
def Integration.seams (c : Integration) (r : Nat → Bool) : List (Nat × Nat × Nat) :=
  ((List.range c.njs).filter r).flatMap (fun n => [0, 1, 2, 3].filterMap (fun p =>
    match c.neighbour n p with
    | some m => if r m then none else some (n, p, m)
    | none => none))

/-! ## Region reset (R463) -/

/-- A run has passed the link into the input in part, as its sender sees it. -/
def TIn.sentPart (x : TIn) : Bool :=
  match x.wire.getLast? with
  | some f => !f.last && !f.isMarker
  | none => match x.held with
    | some f => !f.last && !f.isMarker
    | none => x.passed != 0

/-- A run out of the region has been latched in part: its rest will not come. -/
def TIn.latchedPart (x : TIn) : Bool :=
  match x.held with
  | some f => !f.last && !f.isMarker
  | none => x.passed != 0

/-- The tensor links of a seam: the run into the region is discarded to its end at the neighbour, and the run out of it
ends with one flit of zeros with LAST and ERROR. -/
def State.seamTensor (s : State) (n p m : Nat) : State :=
  let o := 8 * m + facing p
  let s1 : State := if (s.tin n p).sentPart && !s.ten.cut.contains o then { s with ten := { s.ten with cut := s.ten.cut ++ [o] } } else s
  let x := s1.tin m (facing p)
  s1.setTin m (facing p) (if x.latchedPart then { x.align.request with wire := [⟨0, 0x06, 0⟩] } else { x.align with wire := [] })

/-- The control link out of the region: a message cut at the seam is completed (R204, R232). -/
def State.seamControl (s : State) (p m : Nat) : State :=
  let k := 8 * m + facing p
  let s1 := (match Tbl.get [] s.ctl.asm k with
    | h :: data => s.bufferMsg k (asmMessage h data)
    | [] => s).setSkip k false
  { s1 with ctl := { s1.ctl with wire := Tbl.set [] s1.ctl.wire k [] } }

/-- The transaction links out of the region: flits at the seam are lost (R268). -/
def State.seamTxn (s : State) (p m : Nat) : State :=
  [Net.request, Net.response, Net.snoop, Net.data].foldl (fun (a : State) net => a.setTlink (tKey net m (facing p)) TLink.zero) s

/-- One link is isolated, and its neighbour raises the seam (R105). -/
def State.isolate (s : State) (e : Nat × Nat × Nat) : State :=
  let s1 := ((s.seamTensor e.1 e.2.1 e.2.2).seamControl e.2.1 e.2.2).seamTxn e.2.1 e.2.2
  s1.raise (Cause.atUnit 0x028 (s.wardOf e.2.2) e.2.2 (facing e.2.1) 0x3F 0xFFFF)

/-- An ingress in the region: a run being injected is discarded, uncounted, to its end. -/
def Ingress.regionLost (x : Ingress) : Ingress := { Ingress.zero with discard := x.flow != 0 || x.discard }

/-- The tensor plane at the junctions `r` names is lost. -/
def State.dropTensor (s : State) (r : Nat → Bool) : State :=
  let by8 := fun (i : Nat) => r (i / 8)
  { s with ten := { s.ten with
    banks := Tbl.drop (fun i => r (i / 2)) s.ten.banks
    damaged := s.ten.damaged.filter (fun i => !r (i / 2))
    kept := Tbl.drop r s.ten.kept
    ings := (s.ten.ings.map (fun p => (p.1, if by8 p.1 then p.2.regionLost else p.2))).filter (fun p => p.2 != Ingress.zero)
    ins := Tbl.drop by8 s.ten.ins
    outs := Tbl.drop by8 s.ten.outs
    dlvs := Tbl.drop by8 s.ten.dlvs
    nodes := Tbl.drop r s.ten.nodes
    taps := Tbl.drop r s.ten.taps
    cut := s.ten.cut.filter (fun i => !by8 i) } }

/-- The control plane at the junctions `r` names, and at the units `un` names, is lost. -/
def State.dropControl (s : State) (r un : Nat → Bool) : State :=
  let by8 := fun (i : Nat) => r (i / 8)
  { s with ctl := { s.ctl with
    wire := Tbl.drop by8 s.ctl.wire
    asm := Tbl.drop by8 s.ctl.asm
    skipping := s.ctl.skipping.filter (fun i => !by8 i)
    waiting := Tbl.drop by8 s.ctl.waiting
    buf := Tbl.drop by8 s.ctl.buf
    served := Tbl.drop by8 s.ctl.served
    arrived := Tbl.drop (ctlAmong r un) s.ctl.arrived
    naks := Tbl.drop r s.ctl.naks
    socks := Tbl.drop (fun i => r (i / 32)) s.ctl.socks
    combs := Tbl.drop r s.ctl.combs
    irq := Tbl.drop (fun p => un (0x90 + p)) s.ctl.irq } }

/-- The answer that a core port's adapter presents at the release for a tag still open (R268). -/
def lostAnswer (tag : BitVec 10) : TReady := ⟨tag, Status.timeout, [0]⟩

/-- An initiator in the region: a core port's adapter keeps the tags it has accepted, and a host controller its own; all else
is lost. -/
def TInit.regionLost (x : TInit) (u : Nat) : TInit :=
  let mine := x.open_.filter (fun o => o.owner == .port)
  let host := x.open_.filter (fun o => o.owner == .host)
  if u < 0x78 then { TInit.zero with gens := x.gens, ready := x.ready.map (fun y => lostAnswer y.tag) ++ mine.map (fun o => lostAnswer o.tag) }
  else if u = 0x90 ∨ u = 0x91 then { TInit.zero with gens := x.gens, open_ := host.map (fun o => { o with stage := 3, keep := false }) }
  else { TInit.zero with gens := x.gens }

/-- The transaction planes at the junctions `r` names, and at the units `un` names, are lost; slots are freed, input
numbers stay. -/
def State.dropTxn (s : State) (r un : Nat → Bool) : State :=
  let byKey := fun (i : Nat) => r (i / 8 % 128)
  { s with txn := { s.txn with
    links := Tbl.drop byKey s.txn.links
    bufs := Tbl.drop byKey s.txn.bufs
    served := Tbl.drop byKey s.txn.served
    passedOver := Tbl.drop (fun i => r (i / 64 % 128)) s.txn.passedOver
    arrived := Tbl.drop (fun i => un (i % 1024)) s.txn.arrived
    inits := (s.txn.inits.map (fun p => (p.1, if un p.1 then p.2.regionLost p.1 else p.2))).filter (fun p => p.2 != TInit.zero)
    targets := (s.txn.targets.map (fun p => (p.1, if un p.1 then { TTarget.zero with numbers := p.2.numbers } else p.2))).filter
      (fun p => p.2 != TTarget.zero)
    mas := Tbl.drop (fun a => un (0xA0 + a)) s.txn.mas
    homes := s.txn.homes.filter (fun h => !un (0x90 + h.1))
    agents := s.txn.agents.filter (fun g => !un (0x90 + g.port))
    snoops := s.txn.snoops.filter (fun x => !un x.core)
    cohWaits := s.txn.cohWaits.map (fun c => if un (0x90 + c.port) then { c with next := c.stop, waits := [], asks := false } else c)
    owed := s.owing un
    dones := s.txn.dones.filter (fun d => !un d.unit) } }

/-- Counts since the last gather, and the trace queues of the units at junctions `r` names, are lost (R535). -/
def State.dropCounts (s : State) (r : Nat → Bool) : State :=
  { s with
    obs := { s.obs with
      counts := Tbl.drop (fun i => r (i / 17 % 128)) s.obs.counts
      queues := Tbl.drop (fun i => i % 3 != 2 && r (i / 3)) s.obs.queues }
    sp := { s.sp with steering := s.sp.steering.filter (fun x => !r x.n) } }

/-- Gates of the region: connections, stores and channels are lost. -/
def State.dropGate (s : State) (g : Nat) : State :=
  let s1 := s.setGate g Gate.zero
  { s1 with col := { s1.col with
    chans := Tbl.drop (fun i => i / 32 == g) s1.col.chans
    stores := Tbl.drop (· == g) s1.col.stores
    outbox := Tbl.drop (· == g) s1.col.outbox
    capEnds := Tbl.drop (fun i => i / 64 == g) s1.col.capEnds } }

/-- The wards that own a junction that `r` names enter FAILED with code 0x10 (R149, R463). -/
def State.failWards (s : State) (r : Nat → Bool) : State :=
  (List.range 16).foldl (fun (a : State) w =>
    let x := BitVec.ofNat 4 w
    match (a.wardJunctions x).find? r with
    | some n => if a.rd (.ldState w) = 7 then a else
        let b := (a.leaveSwap x).setSched w { a.sched w with armPending := false }
        (if 3 ≤ a.rd (.ldState w) ∧ a.rd (.ldState w) ≤ 5 then b.markStaged x 4 else b).loadFails w 0x10 n 0xF 0x1FFF
    | none => a) s

/-- Region `k` no longer sleeps, wakes or waits for anything: it is in reset until the time given, or for as long as its rail holds
it (R464). -/
def State.clearRegionTimes (s : State) (k : Nat) (reset : Option Nat) : State :=
  { s with pwr := { s.pwr with
    wakeFrom := Tbl.set 0 s.pwr.wakeFrom k 0
    heldWakes := s.pwr.heldWakes.filter (· != k)
    wakeHold := Tbl.set 0 s.pwr.wakeHold k 0
    resetUntil := Tbl.set 0 s.pwr.resetUntil k (reset.getD 0)
    railHeld := if reset.isNone then k :: s.pwr.railHeld.filter (· != k) else s.pwr.railHeld.filter (· != k) } }

/-- Region `k` is reset, by its rail (STATE OFF) or by a command (STATE RESET until the time given). -/
def State.regionFall (s : State) (k : Nat) (ends : Option Nat) : State :=
  let tier := s.serviceTier
  let r := s.inRegion k
  let s1 := (s.cfg.seams r).foldl State.isolate s
  let s2 := s1.failWards r
  let s3 := (s2.kindIn 4 k).foldl (fun (a : State) b => a.bridgeFall b 0) s2
  let s4 := (s3.enginesIn k).foldl State.engineRegionReset s3
  let s5 := (s4.kindIn 2 k).foldl State.dropGate s4
  let s6 := (((s5.dropTensor r).dropControl r (s.unitIn k)).dropTxn r (s.unitIn k)).dropCounts r
  let s7 := (s6.clearRegionTimes k ends).wr (.regionSt k) (if ends.isSome then 1 else 0)
  let s8 := ((s7.setObj (Obj.paceRate k) 0).raise (Cause.plain (0x020 + k))).bump .regionResets 1
  s8.tierFell tier

/-! ## Commands of REGION_CTRL (R476) -/

/-- The request would pass every check of a write of its full length (R437). -/
def State.accepts (s : State) (acc : Access) (key : Nat) : Bool :=
  s.serves acc && (match s.check acc (key / 256) (key % 256) .write (typeLen (s.typeOf (key / 256) (key % 256))) with
    | .ok _ => true
    | .error _ => false)

def Region.reset (k : Nat) : Effect := fun s =>
  let s1 := s.setObj (Obj.regionCtrl k) 3
  .ok (if s.regionStateOf k ≤ 1 then s1 else s1.regionFall k (some (s.now + 10000)))

def execRegionReset (acc : Access) (k : Nat) (s : State) : Host.Outcome State Fault Refusal :=
  .next (s.serveKey acc (Obj.regionCtrl k) 3 (fun _ => Region.reset k))

/-- WAKE: a region that is not gated takes it without effect. -/
def Region.wake (k : Nat) : Effect := fun s => .ok ((s.setObj (Obj.regionCtrl k) 2).wake k)

def execRegionWake (acc : Access) (k : Nat) (s : State) : Host.Outcome State Fault Refusal :=
  .next (s.serveKey acc (Obj.regionCtrl k) 2 (fun _ => Region.wake k))

/-! ## Release (R464) -/

/-- The junction in whose units an object is held, for those that a region reset takes to their defaults. Channel objects of
the engines are kept in the management tile (R298), and port clocks are measured at the adapters. -/
def State.objHome (s : State) (k : Nat) : Option Nat :=
  let i := k / 256
  let n := k % 256 - 1
  if i = 0x1213 ∨ (0x1410 ≤ i ∧ i < 0x1414) ∨ i = 0x1510 ∨ i = 0x1520 ∨ i = 0x1521 ∨ i = 0x1730 ∨ i = 0x1733 ∨
      (0x1740 ≤ i ∧ i < 0x1744) ∨ i = 0x2310 then some n
  else if 0x1680 ≤ i ∧ i < 0x16F8 then some (i - 0x1680)
  else if 0x1620 ≤ i ∧ i < 0x1630 then s.cfg.unitAt 2 (i - 0x1620)
  else if 0x1630 ≤ i ∧ i < 0x1634 then s.cfg.dmaAt (i - 0x1630)
  else if i = 0x1731 then s.cfg.dmaAt n
  else if i = 0x1732 then s.cfg.unitAt 3 n
  else if 0x1850 ≤ i ∧ i < 0x1854 then s.cfg.dmaAt (i - 0x1850)
  else if 0x1910 ≤ i ∧ i < 0x1914 then s.cfg.unitAt 4 (i - 0x1910)
  else if 0x1A10 ≤ i ∧ i < 0x1A20 then s.cfg.unitAt 2 (i - 0x1A10)
  else if 0x1B30 ≤ i ∧ i < 0x1B50 then s.cfg.unitAt 2 (i % 16)
  else if 0x1C00 ≤ i ∧ i < 0x1E00 then s.cfg.unitAt 2 ((i - 0x1C00) / 32)
  else none

/-- Object `o` is held in the units of region `k`, or is its wear gauge. -/
def State.heldIn (s : State) (k o : Nat) : Bool :=
  match s.objHome o with
  | some n => s.regionOf n == k
  | none => o == Obj.paceDrift k

/-- The object shows a line that stays up while its region is gated: a bridge's modules, or a gate's line (R330, R360). -/
def lineObj (o : Nat) : Bool :=
  let i := o / 256
  (decide (0x1910 ≤ i) && decide (i < 0x1914)) || (decide (0x1A10 ≤ i) && decide (i < 0x1A20))

/-- The objects of class `c` and above that `held` names take their defaults. -/
def State.defaultsOf (s : State) (held : Nat → Bool) (c : Cls) : State :=
  let s1 := ((s.objs.map (·.1)).filter held).foldl (fun (a : State) o => a.setObj o (Obj.afterReset c o (a.obj o))) s
  ((s1.doms.map (·.1)).filter (fun o => held o && (match rowOf o with
    | some r => decide (c.code ≤ r.cls.code)
    | none => false))).foldl State.clearDom s1

/-- The objects of class `c` and above that the region's units hold take their defaults. -/
def State.regionDefaults (s : State) (k : Nat) (c : Cls) : State := s.defaultsOf (s.heldIn k) c

/-- TIMEOUTS counts each tag that a core port at one of the junctions still has to answer (R268). -/
def State.countLost (s : State) (ns : List Nat) : State :=
  ns.foldl (fun (a : State) n => a.bump (.txnTimeouts n) (a.tinit n).ready.length) s

/-- The initiators and targets that `un` names go on. -/
def State.unitsGo (s : State) (un : Nat → Bool) : State :=
  let cores : List Nat := s.txn.snoops.map (·.core)
  let ports : List Nat := s.txn.agents.map (fun g => 0x90 + g.port)
  let us := (s.txn.targets.map (·.1) ++ s.txn.inits.map (·.1) ++ cores ++ ports).eraseDups.filter un
  us.foldl (fun (a : State) u => (if u < 0x100 then a.unitGoes u else a).txnGo u) s

/-- What waits in the region, and at its bridges and gates, goes on. -/
def State.regionGoes (s : State) (k : Nat) : State :=
  let s1 := s.unitsGo (s.unitIn k)
  let s2 := (s1.kindIn 4 k).foldl (fun (a : State) b => [0, 1, 2].foldl (fun (c : State) g => c.bridgeFeed b g) (a.landCtl b)) s1
  let s3 := (s2.kindIn 2 k).foldl (fun (a : State) g => (a.gateDeliver g).collSettle g) s2
  if s3.frozen then s3 else s3.bridgesLand

/-- The region enters ACTIVE. -/
def State.regionActive (s : State) (k : Nat) : State :=
  let s1 : State := { s with pwr := { s.pwr with
    lastActive := Tbl.set 0 s.pwr.lastActive k s.now
    wakeFrom := Tbl.set 0 s.pwr.wakeFrom k 0
    resetUntil := Tbl.set 0 s.pwr.resetUntil k 0
    railHeld := s.pwr.railHeld.filter (· != k) } }
  let s2 := s1.wr (.regionSt k) 2
  (((s2.kindIn 4 k).foldl State.trainBegin s2).resendAll).regionGoes k

/-- REGION_RESET_RELEASE: once the time has come, and a region that its rail holds has that rail above warning. -/
def Region.release (k : Nat) (s : State) : State :=
  if s.regionStateOf k ≠ 1 ∨ s.pwr.unstarted.contains k ∨ (s.pwr.railHeld.contains k ∧ s.pwr.below.contains k) ∨ s.pwr.down.contains k ∨ !s.running ∨
      s.cfg.regions ≤ k then s
  else
    let s1 := s.advanceTo (Tbl.get 0 s.pwr.resetUntil k)
    ((s1.regionDefaults k .w).countLost (s1.regionJunctions k)).regionActive k

def execRegionResetRelease (k : Nat) (s : State) : Host.Outcome State Fault Refusal := .next (Region.release k s)

/-! ## Gating (R465, R467) -/

def State.wireBusy (s : State) (k : Nat) : Bool :=
  let by8 := fun (i : Nat) => s.regionOf (i / 8) == k
  (s.ctl.wire.any (fun p => by8 p.1)) || (s.ctl.asm.any (fun p => by8 p.1)) || (s.ctl.buf.any (fun p => by8 p.1)) ||
  (s.ctl.waiting.any (fun p => by8 p.1)) ||
  (s.ctl.arrived.any (fun p => s.ctlUnitIn k p.1)) || (s.ctl.naks.any (fun p => s.regionOf p.1 == k)) ||
  (s.ctl.irq.any (fun p => s.unitIn k (0x90 + p.1) && !p.2.queue.isEmpty))

/-- A message rests in the region, or a socket, accumulator or held result is not empty (R232). -/
def State.gateMessages (s : State) (k : Nat) : Bool :=
  s.wireBusy k || (s.ctl.socks.any (fun p => s.regionOf (p.1 / 32) == k && p.2.busy)) ||
  (s.ctl.combs.any (fun p => s.regionOf p.1 == k && (p.2.acc.count != 0 || !p.2.releases.isEmpty)))

/-- A slot, lease, latch or response buffer of the region is in use (R268). -/
def State.gateTxns (s : State) (k : Nat) : Bool :=
  let byKey := fun (i : Nat) => s.regionOf (i / 8 % 128) == k
  (s.txn.links.any (fun p => byKey p.1 && (!p.2.queue.isEmpty || p.2.asm.isSome))) || (s.txn.bufs.any (fun p => byKey p.1)) ||
  (s.txn.arrived.any (fun p => s.unitIn k (p.1 % 1024))) ||
  (s.txn.inits.any (fun p => s.unitIn k p.1 && (!p.2.open_.isEmpty || !p.2.ready.isEmpty))) ||
  (s.txn.targets.any (fun p => s.unitIn k p.1 && (!p.2.slots.isEmpty || !p.2.latches.isEmpty || !p.2.early.isEmpty))) ||
  (s.txn.mas.any (fun p => s.unitIn k (0xA0 + p.1))) || (s.txn.dones.any (fun d => s.unitIn k d.unit)) ||
  (s.txn.homes.any (fun h => s.unitIn k (0x90 + h.1))) || (s.txn.snoops.any (fun x => s.unitIn k x.core && !x.driven)) ||
  (s.txn.agents.any (fun g => s.unitIn k (0x90 + g.port))) || (s.txn.cohWaits.any (fun c => s.unitIn k (0x90 + c.port)))

/-- A flit rests in the region or on a link out of it, a beat is offered there, a captured tally waits for its data, or a swap is
pending (R81, R105, R149, R178). -/
def State.gateTensor (s : State) (k : Nat) : Bool :=
  let by8 := fun (i : Nat) => s.regionOf (i / 8) == k
  (s.ten.ins.any (fun p => by8 p.1 && (p.2.held.isSome || !p.2.wire.isEmpty))) ||
  (s.ten.dlvs.any (fun p => by8 p.1 && !p.2.queue.isEmpty)) ||
  (s.ten.ings.any (fun p => by8 p.1 && (p.2.flow != 0 || p.2.refused || p.2.cut))) ||
  ((s.cfg.seams (s.inRegion k)).any (fun e => !(s.tin e.2.2 (facing e.2.1)).wire.isEmpty)) ||
  (s.ten.nodes.any (fun p => s.regionOf p.1 == k && (p.2.latch.isSome || !p.2.ops.isEmpty || p.2.caps.any (fun c => c.2.full || c.2.flits != 0)))) ||
  (List.range 16).any (fun w => (s.wardJunctions (BitVec.ofNat 4 w)).any (fun n => s.regionOf n == k) &&
    (s.rd (.ldState w) == 4 || s.rd (.ldState w) == 5 || (s.sched w).armPending || (s.sched w).forcing))

/-- A channel of an engine or gate of the region is at work (R298, R399). -/
def State.gateChannels (s : State) (k : Nat) : Bool :=
  (s.enginesIn k).any (fun e => s.dma.held.any (fun h => h.chan / 16 == e) || (List.range 16).any (fun c =>
    let st := s.rd (.chState (16 * e + c))
    (st != 0 && st != 4) || !(s.chan (16 * e + c)).reads.isEmpty || !(s.chan (16 * e + c)).writes.isEmpty)) ||
  (s.kindIn 2 k).any s.gateCollBusy

/-- A bridge or gate of the region holds a record or packet (R330, R360). -/
def State.gateEdges (s : State) (k : Nat) : Bool :=
  (s.kindIn 4 k).any (fun b => (List.range 8).any (fun g =>
    let x := s.bgroup b g
    !x.stream.isEmpty || !x.replay.isEmpty || !x.part.isEmpty || !x.recs.isEmpty)) ||
  (s.kindIn 2 k).any (fun g =>
    let x := s.gate g
    !x.queue.isEmpty || !x.jobs.isEmpty || !x.records.isEmpty || !x.chunks.isEmpty ||
    x.conns.any (fun c => c.classes.any (fun y => !y.2.sent.isEmpty || !y.2.held.isEmpty)))

/-- A ward with units in the region is being reclaimed (R423). -/
def State.gateReclaim (s : State) (k : Nat) : Bool :=
  (List.range 16).any (fun w => s.wardReclaiming (BitVec.ofNat 4 w) && (s.wardRegions (BitVec.ofNat 4 w)).contains k)

/-- The cause of a refusal of gating, as REFUSE shows it, and 0 where the region may be gated (R479). -/
def State.gateRefusal (s : State) (k : Nat) : Nat :=
  if s.gateMessages k then 1
  else if s.gateTxns k then 2
  else if s.gateTensor k then 3
  else if s.gateChannels k then 4
  else if s.gateEdges k then 5
  else if s.gateReclaim k then 6
  else if s.regionStateOf k = 3 ∨ s.now < Tbl.get 0 s.pwr.wakeHold k ∨ s.pwr.heldWakes.contains k ∨ s.spanHolds k then 7
  else 0

/-- The region is switched off: its counts are gathered and its trace queues drained first (R535, R556), then class V values
are lost. -/
def State.regionSleep (s : State) (k : Nat) : State :=
  let s1 := s.gatherAt (fun n => s.regionOf n == k)
  let s2 := (s.regionJunctions k).foldl (fun (a : State) n => (a.traceDrain (3 * n)).traceDrain (3 * n + 1)) s1
  ((s2.defaultsOf (fun o => s2.heldIn k o && !lineObj o) .v).setObj (Obj.paceRate k) 0).wr (.regionSt k) 4

/-- GATE, once every check of the write has passed. A region in reset or without its rail is not gated. -/
def Region.gate (k : Nat) : Effect := fun s =>
  let st := s.regionStateOf k
  if st = 4 then .ok (s.setObj (Obj.regionCtrl k) 1)
  else if st ≤ 1 ∨ s.gateRefusal k ≠ 0 then .error .inUse
  else .ok ((s.setObj (Obj.regionCtrl k) 1).regionSleep k)

/-- A refused gating records its cause. -/
def State.noteRefusal (s : State) (k : Nat) : State :=
  let st := s.regionStateOf k
  if st = 2 ∨ st = 3 then s.wr (.regionRefuse k) (s.gateRefusal k) else s

/-- REGION_GATE. -/
def Region.gateWrite (acc : Access) (k : Nat) (s : State) : State :=
  let r := s.gateRefusal k
  let st := s.regionStateOf k
  let s1 := s.serveKey acc (Obj.regionCtrl k) 1 (fun _ => Region.gate k)
  if s.accepts acc (Obj.regionCtrl k) ∧ r ≠ 0 ∧ (st = 2 ∨ st = 3) then s1.wr (.regionRefuse k) r else s1

def execRegionGate (acc : Access) (k : Nat) (s : State) : Host.Outcome State Fault Refusal := .next (Region.gateWrite acc k s)

def Fld.autoGate (k : Nat) : Fld := ⟨Obj.regionCfg k, 31, 1⟩
def Fld.idleUs (k : Nat) : Fld := ⟨Obj.regionCfg k, 0, 16⟩

/-- AUTO_GATE_IDLE_EXPIRE: no handshake has passed in the region for IDLE_US. -/
def Region.autoGate (k : Nat) (s : State) : State :=
  if s.rd (.autoGate k) = 0 ∨ s.warn ∨ s.safe ∨ !s.running ∨ s.regionStateOf k ≠ 2 ∨ s.cfg.regions ≤ k then s
  else
    let s1 := s.advanceTo (Tbl.get 0 s.pwr.lastActive k + 1000 * s.rd (.idleUs k))
    if s1.gateRefusal k = 0 then s1.regionSleep k else s1.noteRefusal k

def execAutoGateIdleExpire (k : Nat) (s : State) : Host.Outcome State Fault Refusal := .next (Region.autoGate k s)

/-- REGION_WAKE_COMPLETE: a wake past its first step completes even in a freeze (R475). -/
def Region.wakeComplete (k : Nat) (s : State) : State :=
  if s.regionStateOf k ≠ 3 ∨ s.cfg.regions ≤ k then s else s.regionActive k

def execRegionWakeComplete (k : Nat) (s : State) : Host.Outcome State Fault Refusal := .next (Region.wakeComplete k s)

/-! ## Rails (R468) -/

/-- RAIL_TARGET and RAIL_APPLIED differ from now on, or agree. -/
def State.railNote (s : State) (k : Nat) : State :=
  let same := s.obj (Obj.railTarget k) == s.obj (Obj.railApplied k)
  let since := Tbl.get 0 s.pwr.railDiff k
  { s with pwr := { s.pwr with railDiff := Tbl.set 0 s.pwr.railDiff k (if same then 0 else if since = 0 then s.now + 1 else since) } }

/-- RAIL_TARGET: 650 to 850 mV; the board controller is told. -/
def Rail.setTarget (k : Nat) (v : Val) : Effect := fun s =>
  if v.toNat < 650 ∨ 850 < v.toNat then .error .outOfRange
  else .ok (((s.setObj (Obj.railTarget k) v).railNote k).ibi 0x52)

def execRailTargetWrite (acc : Access) (k : Nat) (v : BitVec 16) (s : State) : Host.Outcome State Fault Refusal :=
  .next (s.serveKey acc (Obj.railTarget k) (v.setWidth 64) (Rail.setTarget k))

def Rail.setApplied (k : Nat) (v : Val) : Effect := fun s => .ok ((s.setObj (Obj.railApplied k) v).railNote k)

def execRailAppliedWrite (acc : Access) (k : Nat) (v : BitVec 16) (s : State) : Host.Outcome State Fault Refusal :=
  .next (s.serveKey acc (Obj.railApplied k) (v.setWidth 64) (Rail.setApplied k))

/-- RAIL_REQUEST_TIMEOUT: they have differed for 10 ms. -/
def Rail.timeout (k : Nat) (s : State) : State :=
  match Tbl.get 0 s.pwr.railDiff k with
  | 0 => s
  | t + 1 =>
    if !s.running then s
    else
      let s1 := (s.advanceTo (t + 10000000)).raise (Cause.plain 0x007)
      { s1 with pwr := { s1.pwr with railDiff := Tbl.set 0 s1.pwr.railDiff k 0 } }

def execRailRequestTimeout (k : Nat) (s : State) : Host.Outcome State Fault Refusal := .next (Rail.timeout k s)

/-! ## Supply monitors (R470 to R472) -/

/-- The monitor of a rail: region k as k, VDD_AON as 8; none where the build has no such region. -/
def State.monitor (s : State) : Rail → Option Nat
  | .aon => some 8
  | .reg k => if k < s.cfg.regions then some k else none

/-- SUPPLY_NOW (R476). -/
def State.supplyNow (s : State) : Nat := (s.pwr.below.map (2 ^ ·)).sum

/-- SUPPLY_WARN_ENTER. -/
def Supply.warnEnter (rail : Rail) (s : State) : State :=
  match s.monitor rail with
  | none => s
  | some i =>
    if s.pwr.below.contains i then s
    else
      let first := !s.warn
      let s1 : State := { s with pwr := { s.pwr with below := s.pwr.below ++ [i] } }
      let s2 : State := { s1 with pwr := { s1.pwr with dips := Tbl.set none s1.pwr.dips i (some (s1.now, s1.supplyNow)) } }
      if first ∧ s2.running ∧ s2.coreRuns then s2.throttle else s2

def execSupplyWarnEnter (rail : Rail) (s : State) : Host.Outcome State Fault Refusal := .next (Supply.warnEnter rail s)

def Fld.dips : Fld := ⟨Obj.supplyStat, 48, 16⟩
def Fld.longDips : Fld := ⟨Obj.supplyStat, 32, 16⟩
def Fld.maxDwell : Fld := ⟨Obj.supplyStat, 0, 32⟩

/-- A recovered dip is counted; one longer than 100 µs is recorded. -/
def State.countDip (s : State) (q : Nat × Nat) : State :=
  let dwell := min (s.now - q.1) 0xFFFFFFFF
  let s1 := (s.bump .dips 1).wr .maxDwell (max (s.rd .maxDwell) dwell)
  if 100000 < dwell then (s1.bump .longDips 1).recordEvent 0x0030 q.2 dwell false else s1

/-- A rail back above warning ends its outage: the region it holds waits 8 µs more in reset, after the 2 µs above warning (R464). -/
def State.railBack (s : State) (i : Nat) : State :=
  let s1 : State := { s with pwr := { s.pwr with down := s.pwr.down.filter (· != i) } }
  if s1.running ∧ i < s1.cfg.regions ∧ (s1.pwr.railHeld.contains i ∨ s1.regionStateOf i = 0) then
    let s2 := s1.wr (.regionSt i) 1
    { s2 with pwr := { s2.pwr with resetUntil := Tbl.set 0 s2.pwr.resetUntil i (s2.now + 8000) } }
  else s1

/-- No rail is below warning any more: held starts go on. -/
def State.warnFalls (s : State) : State := if s.warn ∨ !s.running then s else s.heldStarts.collHeldStarts

/-- SUPPLY_WARN_EXIT. -/
def Supply.warnExit (rail : Rail) (s : State) : State :=
  match s.monitor rail with
  | none => s
  | some i =>
    if !s.pwr.below.contains i then s
    else
      let q := (Tbl.get none s.pwr.dips i).getD (s.now, 0)
      let s1 : State := { s with pwr := { s.pwr with below := s.pwr.below.filter (· != i), dips := Tbl.set none s.pwr.dips i none } }
      let s2 := if s1.running then s1.countDip q else s1
      (s2.railBack i).warnFalls

def execSupplyWarnExit (rail : Rail) (s : State) : Host.Outcome State Fault Refusal := .next (Supply.warnExit rail s)

/-- SUPPLY_RESET_CROSS: a region loses its rail, or the die takes a power-on reset. A rail below reset is below warning. -/
def Supply.resetCross (rail : Rail) (s : State) : State :=
  match s.monitor rail with
  | none => s
  | some i =>
    if s.pwr.down.contains i then s
    else
      let s1 := Supply.warnEnter rail s
      let s2 : State := { s1 with pwr := { s1.pwr with down := s1.pwr.down ++ [i] } }
      if !s2.running then s2
      else if i = 8 then s2.powerOnReset 2
      else if s2.regionStateOf i ≤ 1 then ((s2.clearRegionTimes i none).wr (.regionSt i) 0).setObj (Obj.paceRate i) 0
      else s2.regionFall i none

def execSupplyResetCross (rail : Rail) (s : State) : Host.Outcome State Fault Refusal := .next (Supply.resetCross rail s)

def execSupplyStatClear (acc : Access) (s : State) : Host.Outcome State Fault Refusal := .next (s.serveClear acc Obj.supplyStat)

end Sys2Proof.Machine
end

