-- ==== Sys2Proof/Machine/Faults.lean ====
section
/-! DEFINITION. The fault collector, fault injection, the patrol scrubber and the event recorder (R484 to R512). -/

namespace Sys2Proof.Machine

/-! ## Causes that persist (R489) -/

/-- An unsigned value of `w` bits as a signed one. -/
def toSigned (w x : Nat) : Int := if x < 2 ^ (w - 1) then x else (x : Int) - 2 ^ w

/-- PACE_DRIFT of a region, in 0.01 %. -/
def State.paceDrift (s : State) (k : Nat) : Int := toSigned 16 (fget (s.obj (Obj.paceDrift k)) 0 16)

/-- The region's drift has reached DRIFT_LIMIT (R531). -/
def State.drifted (s : State) (k : Nat) : Bool := decide ((10 * s.rd .driftLimit : Nat) ≤ s.paceDrift k)

/-- A channel of an engine, or of a gate, is HALTED. -/
def State.engineHalted (s : State) (e : Nat) : Bool := (List.range 16).any (fun c => s.rd (.chState (16 * e + c)) == 4)

def State.gateHalted (s : State) (g : Nat) : Bool := (List.range 32).any (fun c => s.rd (.coState (32 * g + c)) == 4)

/-- ACTIVE of a source: the cause R489 names for it persists. -/
def State.causeActive (s : State) (src : Nat) : Bool :=
  let js := List.range s.cfg.njs
  let rs := List.range s.cfg.regions
  s.sourcePresent src &&
  (if src = 0x002 then s.rd .coreState == 3
   else if src = 0x005 then !s.pin.timerefOk
   else if src = 0x006 then decide (s.serviceTier < 2)
   else if src = 0x007 then rs.any (fun k => s.obj (Obj.railTarget k) != s.obj (Obj.railApplied k))
   else if src = 0x009 then decide (8192 ≤ s.rd .recNext)
   else if src = 0x00A then rs.any s.drifted
   else if 0x020 ≤ src ∧ src ≤ 0x027 then decide (s.regionStateOf (src - 0x020) ≤ 1)
   else if src = 0x028 then rs.any (fun k => decide (s.regionStateOf k ≤ 1) && !(s.cfg.seams (s.inRegion k)).isEmpty)
   else if src = 0x045 then s.ten.ings.any (fun p => p.2.refused)
   else if src = 0x047 then js.any (fun n => s.rd (.halted n) == 1)
   else if src = 0x048 then (List.range 16).any (fun w => s.rd (.ldState w) == 7 && s.rd (.ldCode w) == 0x0F)
   else if 0x060 ≤ src ∧ src ≤ 0x063 then s.engineHalted (src - 0x060)
   else if 0x074 ≤ src ∧ src ≤ 0x077 then s.rd (.bridgeState (src - 0x074)) != 2
   else if src = 0x078 then s.rd .enumSt == 3
   else if 0x0B0 ≤ src ∧ src ≤ 0x0BF then s.gateHalted (src - 0x0B0)
   else false)

/-! ## Clearing, severities and the threshold (R491 to R493) -/

/-- FAULT_N is high (R492). -/
def State.faultN (s : State) : Bool :=
  !s.safe && (List.range 512).all (fun i => s.rd (.stPending i) == 0 ||
    decide (s.rd (.stSev i) < (s.obj Obj.faultThreshold).toNat))

/-- The abort that a clear of source `i` meets, if any. -/
def State.clearBar (s : State) (i : Nat) : Option Abort :=
  if !s.sourcePresent i then some .outOfRange
  else if s.causeActive i then some .inUse
  else if s.safe ∧ s.rd (.stSev i) = 3 then some .badState
  else none

/-- A status is cleared; the next FAULT record of its source names its COUNT (R505). -/
def State.clearStatus (s : State) (i : Nat) : State :=
  let s1 : State := { s with flt := { s.flt with lastCount := Tbl.set 0 s.flt.lastCount i (s.rd (.stCount i)) } }
  s1.setObj (Obj.faultStatus i) 0

/-- A write of FAULT_CLEAR: one source, or with 0xFFFF every one that may be cleared. -/
def Faults.clear (v : Val) : Effect := fun s =>
  if v = 0xFFFF then
    .ok (((List.range 512).filter (fun i => (s.clearBar i).isNone && s.obj (Obj.faultStatus i) != 0)).foldl State.clearStatus s)
  else match s.clearBar v.toNat with
    | some a => .error a
    | none => .ok (s.clearStatus v.toNat)

def execFaultClear (acc : Access) (v : BitVec 16) (s : State) : Host.Outcome State Fault Refusal :=
  .next (s.serveKey acc Obj.faultClear (v.setWidth 64) Faults.clear)

/-- A write of FAULT_SEV of a source: the severity of later raises. -/
def Faults.setSev (src : Nat) (v : Val) : Effect := fun s =>
  if src = 0 ∨ (fget v 0 2 = 2 ∧ !Fault.hasWard src) then .error .outOfRange else .ok (s.setObj (Obj.faultSev src) v)

def execFaultSevWrite (acc : Access) (src : Nat) (v : BitVec 8) (s : State) : Host.Outcome State Fault Refusal :=
  .next (s.serveKey acc (Obj.faultSev src) (v.setWidth 64) (Faults.setSev src))

def Faults.setThreshold (v : Val) : Effect := fun s =>
  if v.toNat < 1 ∨ 3 < v.toNat then .error .outOfRange else .ok (s.setObj Obj.faultThreshold v)

def execFaultThresholdWrite (acc : Access) (v : BitVec 8) (s : State) : Host.Outcome State Fault Refusal :=
  .next (s.serveKey acc Obj.faultThreshold (v.setWidth 64) Faults.setThreshold)

/-! ## The collector's registers (R494) -/

/-- COLLECTOR_COMPARE is raised and the die enters the safe state, whatever FAULT_SEV holds. -/
def State.collectorFails (s : State) (injected : Bool) : State :=
  let c : Cause := { Cause.plain 0 with injected := injected }
  let s1 := if s.rd (.stPending 0) = 1 then s.bump (.stCount 0) 1
    else (s.setObj (Obj.faultStatus 0) (c.status 3)).applySeverity c 3
  if s1.safe then s1
  else (s1.freezeBegin 4 4).record ⟨0x0011, 0, c.flags 3, s1.now, 0, BitVec.ofNat 32 c.detail⟩ true

/-- A register that the collector holds twice. -/
def collectorKey (k : Nat) : Bool :=
  let i := k / 256
  (i == 0x2200 || (decide (0x2210 ≤ i) && decide (i < 0x2214)) || (decide (0x2220 ≤ i) && decide (i < 0x2224))) && k % 256 != 0 &&
  (rowOf k).isSome

/-- COLLECTOR_COMPARE_MISMATCH: each copy's value, where its code checks good. -/
def Faults.mismatch (key : Nat) (a b : Option (BitVec 64)) (s : State) : State :=
  if !s.running ∨ !collectorKey key ∨ (a.isSome ∧ a = b) then s
  else
    let old := s.flt.split
    ({ s with flt := { s.flt with split := Tbl.set (none, none) old key (a, b) } }).collectorFails false

def execCollectorCompareMismatch (key : Nat) (copyA copyB : Option (BitVec 64)) (s : State) : Host.Outcome State Fault Refusal :=
  .next (Faults.mismatch key copyA copyB s)

/-! ## Injection (R498 to R500, R511) -/

/-- The unit of a checker is there. -/
def State.checkerPresent (s : State) (kind n point sub : Nat) : Bool :=
  if kind = 0x0B then s.factoryMode
  else if s.cfg.njs ≤ n then false
  else if 1 ≤ kind ∧ kind ≤ 4 then true
  else if kind = 5 then point != 4 || s.cfg.corePort n
  else if kind = 6 ∨ kind = 7 then true
  else if kind = 8 then
    (if sub ≤ 1 then true
     else if sub = 2 then s.cfg.corePort n
     else if sub = 3 then s.cfg.dmaSides.contains n
     else if sub ≤ 6 then s.cfg.bKind n == 2
     else sub == 7 && n == s.cfg.mgmtAt)
  else if kind = 9 then s.cfg.bKind n == 4
  else kind == 10 && s.cfg.bKind n == 2

/-- A write of INJECT. The collector compares its copies all the time, so an injection there fires at once. -/
def Faults.arm (v : Val) : Effect := fun s =>
  let arm := fget v 63 1 == 1
  if s.rd .injArm = 1 ∧ arm then .error .inUse
  else if fget v 61 1 = 1 ∧ !s.factoryMode then .error .outOfRange
  else if arm ∧ !s.checkerPresent (fget v 48 8) (fget v 41 7) (fget v 38 3) (fget v 32 6) then .error .outOfRange
  else
    let s1 := s.setObj Obj.inject v
    .ok (if arm ∧ fget v 48 8 = 0x0B then s1.injectFired.collectorFails true else s1)

def execInject (acc : Access) (v : BitVec 64) (s : State) : Host.Outcome State Fault Refusal :=
  .next (s.serveKey acc Obj.inject v Faults.arm)

/-- TEST_PORT_INJECT_ACCESS: the same register by the test access port, in factory test mode; reserved bits stay 0. -/
def Faults.testPort (v : BitVec 64) (s : State) : State :=
  if !s.running ∨ !s.factoryMode then s
  else match Faults.arm (v &&& 0xE0FFFFFF00000000) s with
    | .ok s1 => s1
    | .error _ => s

def execTestPortInjectAccess (v : BitVec 64) (s : State) : Host.Outcome State Fault Refusal := .next (Faults.testPort v s)

/-! ## The patrol scrubber (R484, R485, R523) -/

def execStoreCorrClear (acc : Access) (s : State) : Host.Outcome State Fault Refusal := .next (s.serveClear acc Obj.storeCorr)

/-- Where a word is: its store kind, the junction of its unit, and the width and check bits of its code. -/
def State.wordAt (s : State) : StoreWord → Option (Nat × Nat × Nat × Nat)
  | .bank n _ l _ => if n < s.cfg.njs ∧ l < 12 then some (0, n, if l < 6 then 32 else 64, if l < 6 then 6 else 7) else none
  | .join n _ _ => if n < s.cfg.njs then some (1, n, 64, 7) else none
  | .tally n _ => if n < s.cfg.njs then some (1, n, 64, 7) else none
  | .socket n _ => if s.cfg.corePort n then some (2, n, 32, 6) else none
  | .staging e _ _ => (s.cfg.dmaAt e).map (fun n => (3, n, 64, 7))
  | .reduction g _ _ _ => (s.cfg.unitAt 2 g).map (fun n => (4, n, 64, 7))
  | .gateBuf g _ _ _ _ => (s.cfg.unitAt 2 g).map (fun n => (5, n, 64, 7))
  | .plat _ => (s.cfg.unitAt 2 0).map (fun n => (6, n, 64, 7))
  | .sram _ _ => some (7, s.cfg.mgmtAt, 64, 7)
  | .trace _ => some (7, s.cfg.mgmtAt, 64, 7)

/-- A bank is no longer what was written into it. -/
def State.bankDamaged (s : State) (n sel : Nat) : State :=
  if s.ten.damaged.contains (2 * n + sel) then s
  else { s with ten := { s.ten with damaged := s.ten.damaged ++ [2 * n + sel] } }

/-- An uncorrectable word in a list or join record: a live one halts its reader (R128), a staged one fails the next arm. -/
def State.bankWordBad (s : State) (n sel l : Nat) (injected : Bool) : State :=
  if l < 6 ∧ sel = s.outSel n l then
    ((s.setTout n l { s.tout n l with stuck := true }).wr (.halted n) 1).storeRaise 0x047 n l 0 (s.wardOf n) injected
  else if 6 ≤ l ∧ sel = s.inSel n (l - 6) then
    ((s.setTin n (l - 6) { s.tin n (l - 6) with stuck := true }).wr (.halted n) 1).storeRaise 0x047 n (l - 6) 0 (s.wardOf n) injected
  else (s.bankDamaged n sel).storeRaise 0x047 n 6 0 (s.wardOf n) injected

def State.joinWordBad (s : State) (n sel : Nat) (injected : Bool) : State :=
  if sel = s.rnSel n then
    ((s.setNode n { s.node n with stuck := true }).wr (.halted n) 1).storeRaise 0x047 n 6 1 (s.wardOf n) injected
  else (s.bankDamaged n sel).storeRaise 0x047 n 6 1 (s.wardOf n) injected

/-- The message of a socket that holds word `i` of the port's socket store: the socket, and the message's offset. -/
def State.socketWord (s : State) (n i : Nat) : Option (Nat × RingItem) :=
  (List.range (s.cfg.sockets n)).findSome? (fun k =>
    let b := sockBase (s.sockCfg n k)
    ((s.sock n k).ring.find? (fun r => r.isMsg && decide (b + r.start ≤ i) && decide (i < b + r.stop))).map (fun r => (k, r)))

/-- The message that holds the word leaves its socket, and its words are passed over. -/
def State.socketWordBad (s : State) (n i : Nat) (injected : Bool) : State :=
  match s.socketWord n i with
  | none => s.storeRaise 0x053 n 6 2 (s.wardOf n) injected
  | some (k, r) =>
    let x := s.sock n k
    let ring := x.ring.map (fun y => if y = r then .skip r.start (r.stop - r.start) else y)
    (((s.setSock n k { x with ring := ringSkip ring }).dropAt n k).storeRaise 0x053 n 6 2 (s.wardOf n) injected).retryHeld n k

/-- The read of a channel whose data hold beat `i` of its staging buffer. -/
def DmaChan.stagedAt : Nat → List DmaRead → Option DmaRead
  | _, [] => none
  | i, r :: t => match r.data with
    | some d => if i < d.length then some r else DmaChan.stagedAt (i - d.length) t
    | none => DmaChan.stagedAt i t

/-- A beat of the staging buffer counts as a completion with UNCORRECTABLE (R296). -/
def State.stagingBad (s : State) (e n k i : Nat) (injected : Bool) : State :=
  let w := if s.rd (.chOwned k) = 1 then some (s.chanWard k) else none
  let s1 := s.storeRaise 0x053 n 6 3 w injected
  match DmaChan.stagedAt i (s1.chan k).reads with
  | none => s1
  | some r =>
    let x := s1.chan k
    let s2 := s1.setChan k { x with reads := x.reads.map (fun q => if q.id = r.id then { q with data := none } else q) }
    (s2.readAnswer k r.id ⟨0x98 + e, .engine k askRead r.id, 0, Status.uncorrectable, []⟩).engineSettle e

/-- The elements that share a 64-bit word with element `i` become the marker of their format. -/
def CBlock.spoil (b : CBlock) (i : Nat) : CBlock :=
  let per := if b.fmt = Fmt.grid32 then 2 else 4
  { b with codes := b.codes.zipIdx.map (fun p => if p.2 / per = i / per then blockMarker b.fmt else p.1) }

/-- The chunk with the word of element `i` spoilt, in its total or, before there is one, in the blocks of its own. -/
def CollChunk.spoil (c : CollChunk) (i : Nat) : CollChunk :=
  let f := fun (bs : List CBlock) => bs.zipIdx.map (fun p => if p.2 = i / 1024 then p.1.spoil (i % 1024) else p.1)
  if c.total.isEmpty then { c with own := f c.own } else { c with total := f c.total }

def State.reductionBad (s : State) (g n c chunk i : Nat) (injected : Bool) : State :=
  let k := 32 * g + c
  let s1 := s.storeRaise 0x053 n 6 4 (chanWardOf (s.obj (Obj.collCfg k))) injected
  let x := s1.coll k
  match x.op with
  | none => s1
  | some o => s1.setColl k { x with op := some { o with chunks := o.chunks.map (fun ch => if ch.index = chunk then ch.spoil i else ch) } }

/-- A packet of the retransmit or the reorder share is discarded and counted (R360). -/
def State.gateBufBad (s : State) (g n : Nat) (peer : BitVec 22) (c : Nat) (seq : BitVec 32) (rx injected : Bool) : State :=
  let s1 := (s.bump (.gateCheck g) 1).storeRaise 0x053 n 5 5 none injected
  match (s1.gate g).conn peer with
  | none => s1
  | some k =>
    let a := k.cls c
    let b := if rx then { a with held := a.held.filter (fun p => p.seq != seq) } else { a with sent := a.sent.filter (fun p => p.pkt.seq != seq) }
    s1.setGate g ((s1.gate g).setConn (k.setCls c b))

/-- What an uncorrectable word does, by its store (R485). -/
def State.wordBad (s : State) (n : Nat) (w : StoreWord) (injected : Bool) : State :=
  match w with
  | .bank _ sel l _ => s.bankWordBad n (if sel then 1 else 0) l injected
  | .join _ sel _ => s.joinWordBad n (if sel then 1 else 0) injected
  | .tally _ i =>
    let x := s.node n
    (s.setNode n { x with badStore := if x.badStore.contains i then x.badStore else x.badStore ++ [i] }).storeRaise 0x04C n 6 1
      (s.wardOf n) injected
  | .socket _ i => s.socketWordBad n i injected
  | .staging e c i => s.stagingBad e n (16 * e + c) i injected
  | .reduction g c chunk i => s.reductionBad g n c chunk i injected
  | .gateBuf g peer cls seq rx => s.gateBufBad g n peer cls.toNat seq rx injected
  | .plat i => s.storeRaise 0x0A0 n 5 6 (if fget (s.platAt i) 63 1 = 1 then some (BitVec.ofNat 4 (fget (s.platAt i) 26 4)) else none) injected
  | .sram index sub =>
    let k := objKey index.toNat sub.toNat
    let s1 := s.storeRaise 0x003 n 6 7 none injected
    if (rowOf k).isSome ∧ !s1.dict.spoilt.contains k then { s1 with dict := { s1.dict with spoilt := s1.dict.spoilt ++ [k] } } else s1
  | .trace i =>
    let s1 := s.storeRaise 0x003 n 6 7 none injected
    { s1 with obs := { s1.obs with store := Tbl.upd none s1.obs.store i (fun r => r.map (fun x => { x with valid := false })) } }

/-- A word that a decoder has corrected wrongly keeps its wrong bits: bits of a list word, of the first 64 bits of a join record,
of a tally word, a plat entry or an object value. -/
def State.wordWrong (s : State) (n : Nat) (w : StoreWord) (bits : List Nat) : State :=
  if bits.isEmpty then s
  else match w with
    | .bank _ sel l i =>
      let j := if sel then 1 else 0
      let b := s.bank n j
      let b' := if l < 6 then
          let xs := b.outs.getD l []
          { b with outs := b.outs.set l (xs.set i (flipBits (xs.getD i 0) bits)) }
        else
          let xs := b.ins.getD (l - 6) []
          { b with ins := b.ins.set (l - 6) (xs.set i (flipBits (xs.getD i 0) bits)) }
      (s.setBank n j b').bankDamaged n j
    | .join _ sel slot =>
      let j := if sel then 1 else 0
      let b := s.bank n j
      let f := fun (r : List Byte) =>
        if joinSlot r = slot then leBytes 8 (flipBits (BitVec.ofNat 64 (leAt r 0 8)) bits).toNat ++ r.drop 8 else r
      (s.setBank n j { b with joins := b.joins.map f }).bankDamaged n j
    | .tally _ i =>
      let x := s.node n
      s.setNode n { x with store := Tbl.upd 0 x.store i (fun v => flipBits v bits) }
    | .plat i => s.setPlat i (flipBits (s.platAt i) bits)
    | .sram index sub =>
      let k := objKey index.toNat sub.toNat
      if (rowOf k).isSome then s.setObj k (flipBits (s.obj k) bits) else s
    | _ => s

/-- A corrected word of a row that the pass before had also corrected has its row remapped (R523). -/
def State.scrubNote (s : State) (n kind : Nat) (w : StoreWord) : State :=
  let pass := s.now / (1000000000 * (s.obj Obj.scrubPeriod).toNat)
  let k := rowKey kind w
  let last := Tbl.get 0 s.flt.scrubbed k
  let s1 : State := { s with flt := { s.flt with scrubbed := Tbl.set 0 s.flt.scrubbed k (pass + 1) } }
  if last ≠ 0 ∧ last = pass then s1.repairDue (.row n kind w) (·.remapRow n kind w) else s1

/-- PATROL_SCRUB_READ. Stores of a region that is not active are not read. -/
def Faults.patrol (w : StoreWord) (flips : List Nat) (s : State) : State :=
  match s.wordAt w with
  | none => s
  | some (kind, n, d, c) =>
    if !s.running ∨ s.obj Obj.scrubPeriod = 0 ∨ (kind ≠ 7 ∧ !s.junctionActive n) then s
    else
      let r := s.storeDecode n kind d c flips
      let inj := s.storeInjected n kind
      let s1 := s.storeRead n kind d c flips
      if r.bad then (s1.wordBad n w inj).rowBad n kind w
      else
        let s2 := s1.wordWrong n w r.wrong
        if r.corrected.isSome then s2.scrubNote n kind w else s2

def execPatrolScrubRead (store : StoreWord) (flips : List Nat) (s : State) : Host.Outcome State Fault Refusal :=
  .next (Faults.patrol store flips s)

/-! ## The event recorder (R501 to R505) -/

/-- A record's bytes 27:0, of the given power cycle and hours. -/
def EventRec.body (r : EventRec) (cycles hours : Nat) : List Byte :=
  leBytes 2 r.code ++ leBytes 2 r.source ++ [r.flags, 0] ++ leBytes 2 cycles ++ leBytes 4 hours ++ leBytes 8 r.time ++
    leBytes 4 r.d0.toNat ++ leBytes 4 r.d1.toNat

/-- The whole record: CHECK, the reserved byte and VALID follow. -/
def EventRec.bytes (r : EventRec) (cycles hours : Nat) : List Byte :=
  let b := r.body cycles hours
  b ++ leBytes 2 (crc16 b).toNat ++ [0, 0xFF]

/-- Records for which the last 256 slots are kept. -/
def EventRec.reserved (r : EventRec) : Bool :=
  r.code == 0x0001 || r.code == 0x0011 || (r.code == 0x0010 && r.flags.toNat % 4 == 3)

def State.slotBytes (s : State) (i : Nat) : List Byte := Tbl.get [] s.flt.slots i

/-- A slot that holds a 1 bit is in use; one whose VALID is not 0xFF is torn. -/
def slotUsed (bs : List Byte) : Bool := bs.any (· != 0)

/-- The first slot from `i` on that holds nothing: torn ones are skipped. -/
def State.freeSlot (s : State) : Nat → Nat → Nat
  | 0, i => i
  | k + 1, i => if slotUsed (s.slotBytes i) then s.freeSlot k (i + 1) else i

/-- REC_NEXT; once every slot is used, RECORDER is raised and what still waits is lost. -/
def State.recordAt (s : State) (i : Nat) : State :=
  let s1 := s.wr .recNext i
  if i < 8192 then s1
  else
    let s2 := s1.bump .recLost s1.flt.queue.length
    ({ s2 with flt := { s2.flt with queue := [] } }).raiseRecorder

/-- The writer takes the oldest record from its queue. -/
def State.recordDone (s : State) : State := { s with flt := { s.flt with queue := s.flt.queue.drop 1 } }

/-- RECORD_WRITE_COMPLETE: a record programmed and verified, or not; then VALID is programmed, and a record that failed is
written again in the next slot. -/
def Recorder.write (verified : Bool) (s : State) : State :=
  match s.flt.queue with
  | [] => s
  | r :: _ =>
    if !s.running ∨ s.flt.scanning ∨ s.pwr.below.contains 8 then s
    else
      let i := s.freeSlot 8192 (s.rd .recNext)
      if 8192 ≤ i then s.recordAt 8192
      else if 7936 ≤ i ∧ !r.reserved then ((s.recordDone.wr .recNext i).bump .recLost 1).raiseRecorder
      else if verified then
        let bs := r.bytes (s.obj Obj.powerCycles).toNat (s.obj Obj.opHours).toNat
        ({ s.recordDone with flt := { s.recordDone.flt with slots := Tbl.set [] s.flt.slots i bs } }).recordAt (i + 1)
      else
        let bs := padTo 31 (Config.freeBytes s.drawn 31) ++ [0xFF]
        ((({ s with flt := { s.flt with slots := Tbl.set [] s.flt.slots i bs } }).draw).raiseRecorder).recordAt (i + 1)

def execRecordWriteComplete (verified : Bool) (s : State) : Host.Outcome State Fault Refusal := .next (Recorder.write verified s)

/-- A valid record: VALID reads 0xFF and CHECK verifies (R506). -/
def slotValid (bs : List Byte) : Bool := bs.getD 31 0 == 0xFF && leAt bs 28 2 == (crc16 (bs.take 28)).toNat

/-- DETAIL1 of POWER_ON: the straps and the lifecycle. -/
def State.powerOnDetail (s : State) : Nat := (s.obj Obj.strapLatch).toNat % 256 + (s.obj Obj.lifecycle).toNat % 4 * 256

/-- RECORDER_SCAN_COMPLETE. -/
def Recorder.scan (s : State) : State :=
  if !s.running ∨ !s.flt.scanning then s
  else
    let used := (s.flt.slots.filter (fun p => slotUsed p.2)).map (·.1)
    let valid := (s.flt.slots.filter (fun p => slotValid p.2)).map (·.2)
    let next := (used.map (· + 1)).foldl max 0
    let hours := (valid.map (fun b => leAt b 8 4)).foldl max 0
    let cycles := min ((valid.map (fun b => leAt b 6 2)).foldl max 0 + 1) 0xFFFF
    let s1 := (s.setObj Obj.opHours (BitVec.ofNat 64 hours)).setObj Obj.powerCycles (BitVec.ofNat 64 cycles)
    let s2 : State := { s1 with flt := { s1.flt with scanning := false } }
    let s3 := s2.wr .recNext next
    (if next < 8192 then s3 else s3.raiseRecorder).recordEvent 0x0001 (s3.obj Obj.resetCause).toNat s3.powerOnDetail true

def execRecorderScanComplete (s : State) : Host.Outcome State Fault Refusal := .next (Recorder.scan s)

/-- OPERATING_HOUR_TICK. -/
def Recorder.hour (s : State) : State :=
  if !s.running ∨ !s.pin.pwrOk then s
  else
    let s1 := s.bump ⟨Obj.opHours, 0, 32⟩ 1
    if (s1.obj Obj.opHours).toNat % 16 = 0 then s1.recordEvent 0x0002 0 0 false else s1

def execOperatingHourTick (s : State) : Host.Outcome State Fault Refusal := .next (Recorder.hour s)

end Sys2Proof.Machine
end

