-- ==== Sys2Proof/Machine/Spares.lean ====
section
/-! DEFINITION. Spares and sistering: retirement of columns and rows, steering of wires and lanes, wear (R513 to R532), and
the distance table that a retirement rewrites (R107, R108). -/

namespace Sys2Proof.Machine

/-! ## DIST_TABLE (R107, R108, R516) -/

/-- The junctions of the path from `n` to `m`, both ends included: along the row, then along the column. -/
def Integration.pathFrom (c : Integration) (n m : Nat) : Nat → List Nat
  | 0 => [n]
  | k + 1 => match (c.routePort n m).bind (c.neighbour n) with
    | none => [n]
    | some x => n :: c.pathFrom x m k

def Integration.path (c : Integration) (n m : Nat) : List Nat := c.pathFrom n m (c.cols + c.rows)

/-- Hops between two logical neighbours, by how far apart the junctions that serve them stand. -/
def State.hopsBetween (s : State) (n m : Nat) : Nat :=
  let a := s.physOf n
  let b := s.physOf m
  (Int.natAbs ((a.1 : Int) - b.1) + Int.natAbs ((a.2 : Int) - b.2) + 1) / 2

/-- The eight bytes of an entry. -/
def State.distEntry (s : State) (n kind i m : Nat) : List Byte :=
  let path := s.cfg.path n m
  let steps := path.zip (path.drop 1)
  let hops := (steps.map (fun e => s.hopsBetween e.1 e.2)).sum
  let seam := steps.any (fun e => s.regionOf e.1 != s.regionOf e.2)
  let moved := path.any (fun x => s.physOf x != s.cfg.homeOf x)
  leBytes 8 (n + (16 * kind + i) * 2 ^ 8 + m * 2 ^ 16 + hops * 2 ^ 24 + 16 * max 1 hops * 2 ^ 32 +
    ((if seam then 1 else 0) + (if moved then 2 else 0)) * 2 ^ 48)

/-- The targets of entries: memory attachments, then gates, with their kinds and junctions. -/
def Integration.distTargets (c : Integration) : List (Nat × Nat × Nat) :=
  [(1, 1), (2, 2)].flatMap (fun (kind, unit) => (List.range 16).filterMap (fun i => (c.unitAt unit i).map (fun m => (kind, i, m))))

def State.distTable (s : State) : List Byte :=
  let es := ((List.range s.cfg.njs).filter s.cfg.corePort).flatMap (fun n => s.cfg.distTargets.map (fun t => s.distEntry n t.1 t.2.1 t.2.2))
  leBytes 2 1 ++ leBytes 2 es.length ++ leBytes 4 (s.obj Obj.distGen).toNat ++ List.replicate 8 0 ++ es.flatten

/-! ## Retirement (R515, R518, R519) -/

/-- Each line of a map stands within `reach` of its home. -/
def inReach (home now : List Nat) (reach : Nat) : Bool :=
  (home.zip now).all (fun p => Int.natAbs ((p.1 : Int) - p.2) ≤ reach)

/-- Why firmware refuses the retirement that SISTER_CTRL names: 1 EXHAUSTED, 2 RANGE, 3 TIER. -/
def State.retireBar (s : State) : Option Nat :=
  let c := s.cfg
  let col := s.rd .sisterCmd == 1
  let t := s.withRetired
  if (if col then sparesLeft c.spareCols s.sp.retiredCols else sparesLeft c.spareRows s.sp.retiredRows).isEmpty then some 1
  else if !inReach (linesInService c.pcols c.spareCols []) t.colMap c.spareCols.length ||
      !inReach (linesInService c.prows c.spareRows []) t.rowMap 1 then some 2
  else if s.span.contains c.mgmtAt || decide (t.serviceTier < 2) then some 3
  else none

/-- A ward that owns a junction of the span is ARMED or SWAPPING (R149). -/
def State.spanSwaps (s : State) : Bool :=
  s.span.any (fun n => match s.wardOf n with
    | some w => s.rd (.ldState w.toNat) == 4 || s.rd (.ldState w.toNat) == 5
    | none => false)

/-- A gated region of the span is woken, and a wake in progress is awaited. -/
def State.spanWake (s : State) (k : Nat) : State :=
  if s.regionStateOf k = 4 then (s.bumpWrap (.regionWakes k) 1).regionActive k
  else if s.regionStateOf k = 3 then s.regionActive k
  else s

/-- A bridge group bonded to a physical junction that no longer serves goes down for good, and the whole bridge with its endpoint's
(R517). -/
def State.dropBonds (s : State) (b : Nat) : State :=
  if s.rd (.bridgeState b) = 0 then s
  else if !s.bonded b 0 then s.bridgeFall b 0
  else [1, 2].foldl (fun (a : State) g =>
    if a.bonded b g || a.groupState b g == 0 then a else (a.wr ⟨Obj.bridgeStatus b, 19 - 2 * g, 2⟩ 0).groupDown b g) s

/-- Steps 3 to 6 of R518, for the span and the regions that it touches. Edge units keep their state, and core ports end with
their junctions. -/
def State.retireSteps (s : State) : State :=
  let span := s.span
  let r := fun (n : Nat) => span.contains n
  let un := fun (u : Nat) => decide (u < 0x78) && r u
  let ks := (span.map s.regionOf).eraseDups
  let s1 := (ks ++ span.map s.withRetired.regionOf).eraseDups.foldl State.spanWake s
  let s2 := ((s1.cfg.seams r).foldl State.isolate s1).failWards r
  let s3 := (((s2.dropTensor r).dropControl r un).dropTxn r un).dropCounts r
  let s4 := ks.foldl (fun (a : State) k => (a.raise (Cause.plain (0x020 + k))).bump .regionResets 1) s3
  let s5 := (List.range 4).foldl State.dropBonds s4.withRetired
  let s6 := ((s5.defaultsOf (fun o => span.any (fun n => junctionObj n o || o == Obj.linkWear n)) .w).countLost span).unitsGo un
  let s7 := s6.bumpWrap ⟨Obj.distGen, 0, 32⟩ 1
  ((s7.spareRecord (s7.rd .sisterCmd) 0x7F 7 0x1F (s7.rd .sisterPhys) (s7.obj Obj.distGen).toNat).sisterEnd 2 0)

/-- The sequence from step 2, where nothing holds it: a freeze does, short of the safe state (R528). -/
def State.retire (s : State) : State :=
  if (s.frozen && !s.safe) || !s.firmwareRuns then s
  else match s.retireBar with
    | some reason => s.sisterEnd 3 reason
    | none => if s.spanSwaps then s.sisterEnd 4 0 else (s.wr .sisterState 1).retireSteps

/-! ## SISTER_CTRL (R529, R530) -/

/-- The command names a line of the build not yet retired, a mesh input and wire, or a lane. -/
def State.sisterFits (s : State) (v : Val) : Bool :=
  let unit := fget v 45 7
  let wire := fget v 29 13
  let phys := fget v 16 8
  match fget v 52 4 with
  | 1 => decide (phys < s.cfg.pcols) && !s.sp.retiredCols.contains phys
  | 2 => decide (phys < s.cfg.prows) && !s.sp.retiredRows.contains phys
  | 3 => decide (unit < s.cfg.njs) && (s.cfg.neighbour unit (fget v 42 3)).isSome && decide (wire < 4224)
  | 4 => decide (unit < s.cfg.njs) && decide (wire < 8)
  | _ => false

/-- The command begins. -/
def State.sisterStart (s : State) : State :=
  let n := s.rd .sisterUnit
  let i := s.rd .sisterPoint
  match s.rd .sisterCmd with
  | 3 => if 32 ≤ s.rd (.wiresUsed n i) then (s.candidate n).sisterEnd 3 1 else s.steerBegin n i (s.rd .sisterWire)
  | 4 => if s.rd (.laneSpare n) = 1 then (s.laneBegin n (s.rd .sisterWire)).sisterEnd 3 1 else s.laneBegin n (s.rd .sisterWire)
  | _ => s.retire

/-- A write of SISTER_CTRL. -/
def Spares.control (v : Val) : Effect := fun s =>
  if s.rd .sisterState = 1 ∨ s.rd .sisterState = 4 then .error .inUse
  else if !s.sisterFits v then .error .outOfRange
  else .ok (((s.setObj Obj.sisterCtrl v).sisterEnd 1 0).sisterStart)

/-- A command as the word that writes it. -/
def sisterWord (cmd unit point wire phys : Nat) : Val :=
  BitVec.ofNat 64 (cmd * 2 ^ 52 + unit * 2 ^ 45 + point * 2 ^ 42 + wire * 2 ^ 29 + phys * 2 ^ 16)

def execRetireCol (acc : Access) (phys : BitVec 8) (s : State) : Host.Outcome State Fault Refusal :=
  .next (s.serveKey acc Obj.sisterCtrl (sisterWord 1 0 0 0 phys.toNat) Spares.control)

def execRetireRow (acc : Access) (phys : BitVec 8) (s : State) : Host.Outcome State Fault Refusal :=
  .next (s.serveKey acc Obj.sisterCtrl (sisterWord 2 0 0 0 phys.toNat) Spares.control)

/-- The line that AUTO_RETIRE retires next, as its command: that of a candidate, its column before its row, where nothing refuses it and
no ward owns a junction of the span (R525, R526; log 142). -/
def State.retireNext (s : State) : Option Val :=
  ((List.range s.cfg.njs).filter (fun n => (List.range 4).any (fun i => wearCandidate (s.wear n i) == 1))).findSome? (fun n =>
    [sisterWord 1 0 0 0 (s.physOf n).1, sisterWord 2 0 0 0 (s.physOf n).2].find? (fun v =>
      let t := s.setObj Obj.sisterCtrl v
      t.retireBar.isNone && t.span.all (fun m => (t.wardOf m).isNone)))

/-- Firmware retires a candidate's line by itself, where SPARE_POLICY allows (R526). -/
def State.autoRetire (s : State) : State :=
  if s.rd .autoRetire = 0 ∨ !s.firmwareRuns ∨ s.frozen ∨ s.rd .sisterState = 1 ∨ s.rd .sisterState = 4 then s
  else match s.retireNext with
    | some v => ((s.setObj Obj.sisterCtrl v).sisterEnd 1 0).retire
    | none => s

/-- RETIREMENT_RESUME: a deferred retirement goes on once no ward of its span swaps, and a held one once released. -/
def Spares.resume (s : State) : State :=
  let st := s.rd .sisterState
  if (st = 1 ∨ st = 4) ∧ s.rd .sisterCmd ≤ 2 ∧ !s.spanSwaps then s.retire else s.autoRetire

def execRetirementResume (s : State) : Host.Outcome State Fault Refusal := .next (Spares.resume s)

def execSteerWire (acc : Access) (n : BitVec 7) (point : BitVec 3) (wire : BitVec 13) (s : State) : Host.Outcome State Fault Refusal :=
  .next (s.serveKey acc Obj.sisterCtrl (sisterWord 3 n.toNat point.toNat wire.toNat 0) Spares.control)

def execSteerLane (acc : Access) (n : BitVec 7) (lane : BitVec 13) (s : State) : Host.Outcome State Fault Refusal :=
  .next (s.serveKey acc Obj.sisterCtrl (sisterWord 4 n.toNat 0 lane.toNat 0) Spares.control)

/-! ## The stages of a steering (R520, R528) -/

/-- The spare a wire is steered to has failed: the next one is taken, as far as there is one. -/
def State.steerAgain (s : State) (x : Steer) : State :=
  let s1 : State := { s with sp := { s.sp with steering := s.sp.steering.erase x, badSpares := s.sp.badSpares ++ [32 * (4 * x.n + x.point) + x.spare] } }
  let s2 := s1.steerBegin x.n x.point x.wire
  if s2.sp.steering.any (fun y => y.n == x.n && y.point == x.point && y.wire == x.wire) then s2
  else if s2.rd .sisterState = 1 ∧ s2.rd .sisterCmd = 3 ∧ s2.rd .sisterUnit = x.n ∧ s2.rd .sisterPoint = x.point ∧ s2.rd .sisterWire = x.wire then
    s2.sisterEnd 3 1
  else s2

/-- The steering passes its next stage: the receiver switches, then the suspect wire is released. -/
def State.steerOn (s : State) (x : Steer) : State :=
  let rest := s.sp.steering.erase x
  if x.stage = 0 then { s with sp := { s.sp with steering := rest ++ [⟨x.n, x.point, x.wire, x.spare, 1⟩] } }
  else
    let s1 : State := { s with sp := { s.sp with steering := rest } }
    (s1.spareRecord 3 x.n x.point 0x1F x.wire (32 - s1.rd (.wiresUsed x.n x.point))).sisterDone 3 x.n
      (s1.rd .sisterPoint == x.point && s1.rd .sisterWire == x.wire)

/-- WIRE_STEER_STAGE: 64 flits have passed at input `point` of junction `n`, or its spare wire has failed. -/
def Spares.stage (n point : Nat) (spareOk : Bool) (s : State) : State :=
  if !s.moves n then s
  else match s.sp.steering.find? (fun x => x.n == n && x.point == point) with
    | none => s
    | some x => if spareOk then s.steerOn x else s.steerAgain x

def execWireSteerStage (n point : Nat) (spareOk : Bool) (s : State) : Host.Outcome State Fault Refusal :=
  .next (Spares.stage n point spareOk s)

/-! ## Wear (R524, R525, R531) -/

/-- Every suspect wire of the input has been steered. -/
def State.suspectsSteered (s : State) (n i : Nat) : Bool :=
  !s.sp.steering.any (fun x => x.n == n && x.point == i) && (s.rd .autoWire == 1 || decide (wearCount (s.wear n i) < s.rd .wireLimit))

/-- MARGIN_MEASURE at input `point` of junction `n`. -/
def Spares.margin (n point : Nat) (steps : BitVec 8) (s : State) : State :=
  if !s.running ∨ !s.junctionActive n ∨ (s.cfg.neighbour n point).isNone then s
  else
    let v := s.wear n point
    let m := if 32 ≤ s.rd (.wiresUsed n point) then 0xFF else steps.toNat
    let s1 := s.setWear n point (wearOf (wearSuspect v) (wearCount v) (wearCandidate v) m)
    (if m < s1.rd .marginMin ∧ s1.suspectsSteered n point then s1.candidate n else s1).autoRetire

def execMarginMeasure (n point : Nat) (steps : BitVec 8) (s : State) : Host.Outcome State Fault Refusal :=
  .next (Spares.margin n point steps s)

/-- PACE_DRIFT_MEASURE of region `k`. -/
def Spares.drift (k : Nat) (drift : BitVec 16) (s : State) : State :=
  if !s.running ∨ s.cfg.regions ≤ k ∨ s.regionStateOf k ≠ 2 then s
  else
    let s1 := s.setObj (Obj.paceDrift k) (drift.setWidth 64)
    if s1.drifted k then s1.raise ⟨0x00A, none, 0x7F, 7, k, drift.toNat, false⟩ else s1

def execPaceDriftMeasure (k : Nat) (drift : BitVec 16) (s : State) : Host.Outcome State Fault Refusal := .next (Spares.drift k drift s)

def Fld.fecCount (b : Nat) : Fld := ⟨Obj.bridgeErr b, 32, 32⟩

/-- SUSPECT_HOUR_EXPIRE: SUSPECT_COUNT restarts, and so do the hour's residue faults and FEC corrections. -/
def Spares.hour (s : State) : State :=
  if !s.running then s
  else
    let s1 := (List.range s.cfg.njs).foldl (fun (a : State) n => if (a.dom? (Obj.linkWear n)).isNone then a
      else (List.range 4).foldl (fun (c : State) i =>
        let v := c.wear n i
        c.setWear n i (wearOf (wearSuspect v) 0 (wearCandidate v) (wearMargin v))) a) s
    ({ s1 with sp := { s1.sp with
      residues := []
      fecBase := (List.range 4).foldl (fun t b => Tbl.set 0 t b (s1.rd (.fecCount b))) []
      fecMods := [] } }).autoRetire

def execSuspectHourExpire (s : State) : Host.Outcome State Fault Refusal := .next (Spares.hour s)

/-- FEC corrections of bridge `b` since the hour began; BRIDGE_ERR may have been cleared since. -/
def State.fecThisHour (s : State) (b : Nat) : Nat :=
  let base := Tbl.get 0 s.sp.fecBase b
  if s.rd (.fecCount b) < base then s.rd (.fecCount b) else s.rd (.fecCount b) - base

/-- AUTO_BRIDGE_CHECK: more than 2^20 corrections this hour retrain the modules that show errors. -/
def Spares.autoBridge (b : Nat) (s : State) : State :=
  if s.rd .autoBridge = 1 ∧ s.firmwareRuns ∧ s.rd (.bridgeState b) = 2 ∧ 2 ^ 20 < s.fecThisHour b then
    s.bridgeRetrain b (Tbl.get 0 s.sp.fecMods b)
  else s

def execAutoBridgeCheck (b : Nat) (s : State) : Host.Outcome State Fault Refusal := .next (Spares.autoBridge b s)

end Sys2Proof.Machine
end

