-- ==== Sys2Proof/Machine/Observe.lean ====
section
/-! DEFINITION. Observation: counters, trace, the hall's time base, freeze, release and dump (R533 to R545, R550 to R562). -/

namespace Sys2Proof.Machine

/-! ## Counters (R534 to R537) -/

/-- COUNTER_GATHER. -/
def Observe.gather (s : State) : State := if s.running then s.gather else s

def execCounterGather (s : State) : Host.Outcome State Fault Refusal := .next (Observe.gather s)

/-- The codes of R534. -/
def eventListed (c : Nat) : Bool :=
  decide (0x11 ≤ c ∧ c ≤ 0x1C) || c == 0x20 || c == 0x21 || decide (0x30 ≤ c ∧ c ≤ 0x35) || c == 0x40 || c == 0x41 ||
  c == 0x50 || c == 0x51 || c == 0x60 || c == 0x61 || c == 0x70

/-- CNT_CFG of slot `k`: its value starts from zero, and counting restarts at the next gather (R536). -/
def Observe.setSlot (k : Nat) (v : Val) : Effect := fun s =>
  if !eventListed (fget v 0 8) then .error .outOfRange
  else
    let s1 := (s.setObj (Obj.cntCfg k) v).setObj (Obj.cntValue k) 0
    .ok { s1 with obs := { s1.obs with fresh := if s1.obs.fresh.contains k then s1.obs.fresh else s1.obs.fresh ++ [k] } }

def execCntCfgWrite (acc : Access) (k : Nat) (v : BitVec 32) (s : State) : Host.Outcome State Fault Refusal :=
  .next (s.serveKey acc (Obj.cntCfg k) (v.setWidth 64) (Observe.setSlot k))

/-- WARD_EVT_EN: only attributed codes may be enabled (R537). -/
def Observe.setEvents (w : Nat) (bs : List Byte) : Effect := fun s =>
  if bs.length ≠ 16 then .error .length
  else if (List.range 128).any (fun e => bitOf bs e && (!eventListed e || e == 0x35)) then .error .outOfRange
  else .ok (s.setDom (Obj.wardEvtEn w) bs)

def execWardEvtEnWrite (acc : Access) (w : BitVec 4) (bits : BitVec 128) (s : State) : Host.Outcome State Fault Refusal :=
  .next (s.serveDomain acc (Obj.wardEvtEn w.toNat) (leBytes 16 bits.toNat) (Observe.setEvents w.toNat))

/-! ## Trace (R538 to R543, R558, R559) -/

/-- TRACE_RECORD_STORE: the oldest record of a queue at junction `n` arrives over the chain. -/
def Observe.store (n : Nat) (s : State) : State :=
  match [3 * n, 3 * n + 1, 3 * n + 2].find? (fun k => !(Tbl.get [] s.obs.queues k).isEmpty) with
  | none => s
  | some k => match Tbl.get [] s.obs.queues k with
    | [] => s
    | r :: rest => State.traceArrive { s with obs := { s.obs with queues := Tbl.set [] s.obs.queues k rest } } r

def execTraceRecordStore (n : Nat) (s : State) : Host.Outcome State Fault Refusal := .next (Observe.store n s)

/-- RESTART: the store is emptied and its numbering begins anew, and a RESTART record is the first (R542). -/
def State.traceRestart (s : State) : State :=
  let s1 := (s.setObj Obj.traceStatus (BitVec.ofNat 64 (2 ^ 61))).setObj Obj.traceLoss 0
  let s2 : State := { s1 with obs := { s1.obs with store := [], seq := 0, left := 0 } }
  s2.traceWrite (eventRec s2.now 5 0)

/-- A write of TRACE_CMD. -/
def Observe.traceCommand (v : Val) : Effect := fun s =>
  match v.toNat with
  | 1 => .ok (s.traceFire (Config.freeValue s.drawn).toNat).draw
  | 2 => .ok s.traceRestart
  | _ => .error .outOfRange

def execTraceTrigger (acc : Access) (s : State) : Host.Outcome State Fault Refusal :=
  .next (s.serveKey acc Obj.traceCmd 1 Observe.traceCommand)

def execTraceRestart (acc : Access) (s : State) : Host.Outcome State Fault Refusal :=
  .next (s.serveKey acc Obj.traceCmd 2 Observe.traceCommand)

/-- A write of TRACE_CTRL: refused while TRIGGERED unless it clears ENABLE; the store runs from the write that sets it. -/
def Observe.traceControl (v : Val) : Effect := fun s =>
  let st := s.rd .traceState
  if st = 2 ∧ v.getLsbD 31 then .error .inUse
  else
    let s1 := s.setObj Obj.traceCtrl v
    .ok (if !v.getLsbD 31 then s1.wr .traceState 0 else if st = 0 then s1.wr .traceState 1 else s1)

def execTraceCtrlWrite (acc : Access) (v : BitVec 32) (s : State) : Host.Outcome State Fault Refusal :=
  .next (s.serveKey acc Obj.traceCtrl (v.setWidth 64) Observe.traceControl)

/-! ## The hall's time base (R544, R545) -/

/-- HALL_REF: only the master takes it. Until the new reference is measured HALL_ERROR says so. -/
def Observe.hallRef (v : Val) : Effect := fun s =>
  if !s.isMaster then .error .notPresent
  else
    let s1 := s.setObj Obj.hallRef v
    let other := fget v 16 12 != (s.obj Obj.pkgNumber).toNat
    .ok (if v.getLsbD 31 then (if other then s1.setObj Obj.hallError 0xFFFFFFFF else s1).hallBegin else s1)

def execHallRefWrite (acc : Access) (v : BitVec 32) (s : State) : Host.Outcome State Fault Refusal :=
  .next (s.serveKey acc Obj.hallRef (v.setWidth 64) Observe.hallRef)

/-- The exchange with the least trip sets the offset and the bound on its error. -/
def State.hallDone (s : State) : State :=
  match s.obs.hall with
  | [] => s
  | e :: es =>
    let b := es.foldl (fun x y => if y.2.1 < x.2.1 then y else x) e
    let s1 : State := { s with obs := { s.obs with hall := [], hallFrom := none } }
    s1.hallSet b.1 (b.2.1 / 2 + b.2.2 + 2)

/-- HALL_TIME_RESP_RECEIVE: an exchange with the reference gate ends; the eighth ends the measurement. HALL_OFFSET is package time
minus reference package time, so the sender minus the responder. -/
def Observe.hallResp (t1 t2 t3 t4 : Int) (refError : Nat) (s : State) : State :=
  if !s.isMaster ∨ s.obs.hallFrom = none then s
  else
    let x := (-exchangeOffset t1 t2 t3 t4, (exchangeTrip t1 t2 t3 t4).toNat, refError)
    let s1 : State := { s with obs := { s.obs with hall := s.obs.hall ++ [x] } }
    if 8 ≤ s1.obs.hall.length then s1.hallDone else s1

def execHallTimeRespReceive (t1 t2 t3 t4 : Int) (refError : BitVec 32) (s : State) : Host.Outcome State Fault Refusal :=
  .next (Observe.hallResp t1 t2 t3 t4 refError.toNat s)

/-- HALL_MEASURE_TIMEOUT: 10 ms have passed. With no exchange completed HALL_ERROR stays as it was. -/
def Observe.hallTimeout (s : State) : State :=
  match s.obs.hallFrom with
  | none => s
  | some t =>
    let s1 := s.advanceTo (t + 10000000)
    let s2 := s1.hallDone
    { s2 with obs := { s2.obs with hall := [], hallFrom := none } }

def execHallMeasureTimeout (s : State) : Host.Outcome State Fault Refusal := .next (Observe.hallTimeout s)

/-! ## Freeze and release (R550, R551) -/

def Fld.freezeCmd : Fld := ⟨Obj.freezeCtrl, 0, 4⟩

/-- What a freeze has held goes on: wakes, and whatever waits at units, bridges and gates. -/
def State.thaw (s : State) : State :=
  let held := s.pwr.heldWakes
  let s1 : State := { s with pin := { s.pin with spent := [] }, pwr := { s.pwr with heldWakes := [] } }
  let s2 := held.foldl State.wake s1
  (List.range s2.cfg.regions).foldl (fun (a : State) k => if a.regionStateOf k = 2 then a.regionGoes k else a) s2

/-- RELEASE of a frozen die: units resume, and a RELEASE record is stored. -/
def State.releaseBegin (s : State) : State :=
  let s1 := s.wr .freezeState 3
  (if s1.traces 5 then s1.traceWrite (eventRec s1.now 3 0) else s1).thaw

/-- A write of FREEZE_CTRL: SYNC_FREEZE, and a command or none. FREEZE of a frozen die and RELEASE of a running one are accepted without
effect. -/
def Observe.freezeControl (v : Val) : Effect := fun s =>
  let keep := s.setObj Obj.freezeCtrl (fset v 0 4 (s.rd .freezeCmd))
  match fget v 0 4 with
  | 0 => .ok keep
  | 1 => .ok (if s.frozen then s.setObj Obj.freezeCtrl v else (s.setObj Obj.freezeCtrl v).freezeBegin 1 1)
  | 2 =>
    if s.safe then .error .badState
    else if s.obs.capturing then .error .inUse
    else .ok (if s.frozen then (s.setObj Obj.freezeCtrl v).releaseBegin else s.setObj Obj.freezeCtrl v)
  | _ => .error .outOfRange

/-- FREEZE_CTRL with the command given, and SYNC_FREEZE as it stands. -/
def State.freezeWord (s : State) (cmd : Nat) : Val := fset (s.obj Obj.freezeCtrl) 0 4 cmd

def execFreeze (acc : Access) (s : State) : Host.Outcome State Fault Refusal :=
  .next (s.serveKey acc Obj.freezeCtrl (s.freezeWord 1) Observe.freezeControl)

def execRelease (acc : Access) (s : State) : Host.Outcome State Fault Refusal :=
  .next (s.serveKey acc Obj.freezeCtrl (s.freezeWord 2) Observe.freezeControl)

/-- FREEZE_COMPLETE: every unit withholds its acknowledges. -/
def Observe.freezeDone (s : State) : State := if s.rd .freezeState = 1 then s.wr .freezeState 2 else s

def execFreezeComplete (s : State) : Host.Outcome State Fault Refusal := .next (Observe.freezeDone s)

/-- RELEASE_COMPLETE. -/
def Observe.releaseDone (s : State) : State :=
  if s.rd .freezeState = 3 then (s.wr .freezeState 0).wr .freezeCause 0 else s

def execReleaseComplete (s : State) : Host.Outcome State Fault Refusal := .next (Observe.releaseDone s)

/-! ## Dump (R552, R553) -/

/-- A write of DUMP_CTRL. -/
def Observe.capture (v : Val) : Effect := fun s =>
  if v.toNat ≠ 1 then .error .outOfRange
  else if s.rd .freezeState ≠ 2 ∧ s.rd .freezeState ≠ 4 then .error .badState
  else .ok { s with obs := { s.obs with capturing := true } }

def execCapture (acc : Access) (s : State) : Host.Outcome State Fault Refusal :=
  .next (s.serveKey acc Obj.dumpCtrl 1 Observe.capture)

/-- FREEZE_TIME of a unit: within 2 µs of the freeze's start. -/
def State.freezeTime (s : State) (u : Nat) : Nat := s.obs.freezeStart + Config.freezeDelay s.obs.freezeStart u % 2001

/-- The input latch at the far end of output `o` of junction `n`. -/
def State.facingIn (s : State) (n o : Nat) : Option TIn := (s.cfg.neighbour n o).map (fun m => s.tin m (facing o))

/-- The output latch of `o` holds a flit: one more than the middle latch takes is on the link, or one waits for the unit. -/
def State.outFull (s : State) (n o : Nat) : Bool :=
  if o < 4 then (match s.facingIn n o with
    | some x => decide (2 ≤ x.wire.length)
    | none => false)
  else !(s.dlv n o).queue.isEmpty

def State.midFull (s : State) (n o : Nat) : Bool :=
  match s.facingIn n o with
  | some x => !x.wire.isEmpty
  | none => false

def bitsOf (bs : List Bool) : Nat := (bs.zipIdx.map (fun p => if p.1 then 2 ^ p.2 else 0)).sum

/-- LATCH_FULL and MID_FULL of junction `n`. -/
def State.latchFull (s : State) (n : Nat) : Nat :=
  bitsOf ((List.range 6).map (fun i => (s.tin n i).held.isSome) ++ (List.range 6).map (s.outFull n) ++ [(s.node n).latch.isSome])

def State.midFullBits (s : State) (n : Nat) : Nat := bitsOf ((List.range 4).map (s.midFull n))

/-- Latches of the die that hold a flit. -/
def State.heldLatches (s : State) : Nat :=
  ((List.range s.cfg.njs).map (fun n =>
    (((List.range 6).filter (fun i => (s.tin n i).held.isSome)).length + ((List.range 6).filter (s.outFull n)).length +
      ((List.range 4).filter (s.midFull n)).length + (if (s.node n).latch.isSome then 1 else 0)))).sum

/-- OUT_POS of output `o`. -/
def State.outPos (s : State) (n o : Nat) : Nat :=
  let x := s.tout n o
  x.entry % 4096 * 2 ^ 20 + (match (s.outList n o)[x.entry]? with
    | some e => if isPass e then (outCount e - x.count) % 2 ^ 20 else 0
    | none => 0)

def State.inPos (s : State) (n i : Nat) : Nat := (s.tin n i).entry % 4096 * 2 ^ 20 + (s.tin n i).passed % 2 ^ 20

/-- HELD of input `i`: the flow and number of the flit held. -/
def State.heldFlit (s : State) (n i : Nat) : Nat :=
  let x := s.tin n i
  match x.held with
  | none => 0
  | some f => if f.last && !f.isMarker then (match (s.inList n i)[x.entry]? with
      | some e => inFlow e * 2 ^ 20 + (x.passed - 1) % 2 ^ 20
      | none => (x.passed - 1) % 2 ^ 20)
    else f.run.toNat

/-- CTL: complete messages at each control input. -/
def State.ctlNibbles (s : State) (n : Nat) : Nat :=
  ((List.range 7).map (fun i => min 15 (Tbl.get [] s.ctl.buf (8 * n + i)).length * 16 ^ i)).sum

/-- The record of a junction. -/
def State.junctionDump (s : State) (n : Nat) : List Byte :=
  let owner := match s.wardOf n with
    | some w => 128 + w.toNat
    | none => 0
  leBytes 1 n ++ leBytes 1 owner ++ leBytes 2 (s.latchFull n) ++ leBytes 1 (s.midFullBits n) ++ [0, 0, 0] ++
  leBytes 8 (s.freezeTime n) ++ (List.range 6).flatMap (fun o => leBytes 4 (s.outPos n o)) ++
  (List.range 6).flatMap (fun i => leBytes 4 (s.inPos n i)) ++ (List.range 6).flatMap (fun i => leBytes 4 (s.heldFlit n i)) ++
  leBytes 4 (s.ctlNibbles n) ++ leBytes 2 ((s.tinit n).open_.length + (s.tinit n).ready.length) ++ leBytes 2 (s.target n).slots.length ++
  leBytes 4 (s.periodsOf n 4) ++ leBytes 4 (s.periodsOf n 5) ++ List.replicate 24 0

/-- Edge units, engines and bridge endpoints, by unit number, each with its kind. -/
def Integration.dumpUnits (c : Integration) : List (Nat × Nat) :=
  (List.range 0x100).filterMap (fun u =>
    let kind := if 0x80 ≤ u ∧ u < 0x90 then 2 else if u = 0x90 ∨ u = 0x91 then 3 else if 0x98 ≤ u ∧ u < 0x9C then 5
      else if 0xA0 ≤ u ∧ u < 0xB0 then 1 else if 0xB0 ≤ u ∧ u < 0xB4 then 4 else 0
    if kind ≠ 0 ∧ (c.unitJunction u).isSome then some (u, kind) else none)

/-- DUMP, as a capture takes it. -/
def State.dumpBytes (s : State) : List Byte :=
  let js := List.range s.cfg.njs
  let us := s.cfg.dumpUnits
  let times := js.map s.freezeTime ++ us.map (fun e => s.freezeTime (0x100 + e.1))
  let first := times.foldl min (times.headD 0)
  leBytes 2 1 ++ leBytes 1 js.length ++ leBytes 1 us.length ++ leBytes 1 (s.rd .freezeCause) ++ [0, 0, 0] ++
  leBytes 8 s.obs.freezeStart ++ leBytes 8 first ++ leBytes 8 (times.foldl max 0) ++ js.flatMap s.junctionDump ++
  us.flatMap (fun e => leBytes 2 e.1 ++ leBytes 1 e.2 ++ List.replicate 5 0 ++ leBytes 8 (s.freezeTime (0x100 + e.1)))

/-- CAPTURE_COMPLETE: firmware has read every unit, and writes the HANG_DUMP record. -/
def Observe.captureDone (s : State) : State :=
  if !s.obs.capturing ∨ !s.firmwareRuns then s
  else
    let s1 := s.setDom Obj.dump s.dumpBytes
    ({ s1 with obs := { s1.obs with capturing := false } }).recordEvent 0x0050 (s.rd .freezeCause * 2 ^ 28 + s.heldLatches % 2 ^ 16)
      (s.obs.freezeStart % 2 ^ 32) false

def execCaptureComplete (s : State) : Host.Outcome State Fault Refusal := .next (Observe.captureDone s)

end Sys2Proof.Machine
end

