-- ==== Sys2Proof/Machine/Watch.lean ====
section
/-! DEFINITION. The progress watchdog and the wait-for graph (R546 to R549, R561, R562). -/

namespace Sys2Proof.Machine

/-! ## The items (R546) -/

/-- An item that is stalled now, with what says that it has not moved since: the place it stands at. -/
abbrev Seen := Nat × WaitNode × Option (BitVec 4) × List Nat

/-- Where an input stands. -/
def TIn.mark (x : TIn) : List Nat :=
  [x.periods, x.entry, x.run, x.passed, if x.held.isSome then 1 else 0, match x.wire.head? with
    | some f => f.run.toNat
    | none => 0]

def TOut.mark (x : TOut) : List Nat := [x.periods, x.entry, x.count, (x.loops.map (·.left)).sum]

/-- The flow of a flit held at input `i` of `n`, or on its link. -/
def State.flowAt (s : State) (n i : Nat) : Nat :=
  match (s.inList n i)[(s.tin n i).entry]? with
  | some e => inFlow e
  | none => 0

/-- The latches at point `p` of junction `n` that hold a flit: input, output, middle of the link. -/
def State.latchItems (s : State) (n p : Nat) : List Seen :=
  let w := s.wardOf n
  if p = 6 then
    let x := s.node n
    if x.latch.isSome then [(1, ⟨1, n, 6, 1, x.latchFlow⟩, w, [x.periods, x.join, x.run, x.flit])] else []
  else
    let far := (s.cfg.neighbour n p).map (fun m => (s.flowAt m (facing p), (s.tin m (facing p)).mark))
    (if (s.tin n p).held.isSome then [(1, ⟨1, n, p, 0, s.flowAt n p⟩, w, (s.tin n p).mark)] else []) ++
    (if s.outFull n p then [(1, ⟨1, n, p, 1, match (s.dlv n p).queue.head? with
        | some q => q.1.toNat
        | none => (far.getD (0, [])).1⟩, w, (far.getD (0, [])).2 ++ (s.tout n p).mark ++ [(s.dlv n p).queue.length])] else []) ++
    (if s.midFull n p then [(1, ⟨1, n, p, 2, (far.getD (0, [])).1⟩, w, (far.getD (0, [])).2)] else [])

/-- Wards whose LOAD_STATUS or PKG_STATUS is ARMED. -/
def State.armedItems (s : State) : List Seen :=
  ((List.range 16).filter (fun w => s.rd (.ldState w) == 4 || s.rd (.pkgState w) == 4)).map (fun w =>
    (2, ⟨11, 0x7F, 7, w, 0⟩, some (BitVec.ofNat 4 w), [s.rd (.epochOf w)]))

/-- How far a DMA channel has come: beats moved and answers received. -/
def DmaChan.mark (x : DmaChan) (done : Nat) : List Nat :=
  [done, x.slot, x.order, x.moveRow, x.moveOff, x.asm.length, (x.reads.filter (fun r => r.data.isSome)).length, x.writes.length,
   x.tries, x.backTries, x.fetchTries]

/-- DMA channels that wait, or run without a beat moved or an answer received. -/
def State.dmaItems (s : State) : List Seen :=
  (List.range 64).filterMap (fun k =>
    let st := s.rd (.chState k)
    match s.cfg.dmaAt (k / 16) with
    | none => none
    | some n =>
      if st = 1 ∨ st = 2 then
        some (3, ⟨7, n, 6, k % 16, s.rd (.chSlot k)⟩, chanWardOf (s.obj (Obj.chCfg k)), st :: (s.chan k).mark (s.rd (.chDone k)))
      else none)

/-- The packets an operation has sent and received, as far as they show. -/
def CollOp.mark (o : CollOp) : List Nat :=
  [o.kids.length, if o.upSent then 1 else 0, if o.final.isSome then 1 else 0, o.readies.length, o.arriveAt, o.next] ++
  o.chunks.flatMap (fun c => [c.index, c.kids.length, (c.kids.map (fun e => e.2.length)).sum, c.total.length, c.attempt, c.sends,
    bitsOf [c.readySent, c.upSent, c.downSent]])

/-- Collective channels that wait, or stand in phases 1 to 4. -/
def State.collItems (s : State) : List Seen :=
  (List.range 512).filterMap (fun k =>
    let st := s.rd (.coState k)
    let ph := s.rd (.coPhase k)
    match s.cfg.unitAt 2 (k / 32) with
    | none => none
    | some n =>
      if st = 2 ∨ (1 ≤ ph ∧ ph ≤ 4) then
        some (4, ⟨8, n, 5, k % 32, s.rd (.coSlot k)⟩, chanWardOf (s.obj (Obj.collCfg k)),
          [st, s.rd (.coSlot k), s.rd (.coOps k)] ++ (match (s.coll k).op with
            | some o => o.mark
            | none => []))
      else none)

/-- The items lower in `f` first. -/
def sortedBy (f : Seen → Nat) (xs : List Seen) : List Seen :=
  (List.range 120).flatMap (fun n => xs.filter (fun x => f x == n)) ++ xs.filter (fun x => decide (120 ≤ f x))

/-- The stalled items of class `c`, lowest junction and point first. -/
def State.stalledIn (s : State) (c : Nat) : List Seen :=
  match c with
  | 1 => (List.range s.cfg.njs).flatMap (fun n => (List.range 7).flatMap (s.latchItems n))
  | 2 => s.armedItems
  | 3 => sortedBy (fun x => x.2.1.unit) s.dmaItems
  | 4 => sortedBy (fun x => x.2.1.unit) s.collItems
  | _ => []

/-- The stalled items of the classes that WATCH_CFG enables. -/
def State.stalledNow (s : State) : List Seen :=
  ([1, 2, 3, 4].filter (fun c => s.rd ⟨Obj.watchCfg, 27 + c, 1⟩ == 1)).flatMap s.stalledIn

/-! ## Detection (R547) -/

/-- The same item, whatever it holds. -/
def WaitNode.same (a b : WaitNode) : Bool := a.kind == b.kind && a.unit == b.unit && a.point == b.point && a.sub == b.sub

/-- The item as the examination finds it: since when it stands where it does. -/
def State.stallOf (s : State) (x : Seen) : Stall :=
  match s.obs.stalls.find? (fun y => y.cls == x.1 && y.node.same x.2.1 && y.mark == x.2.2.2) with
  | some y => { y with node := x.2.1 }
  | none => ⟨x.1, x.2.1, x.2.2.1, x.2.2.2, s.txnNow, false⟩

/-- The window of a class, in ns. -/
def State.watchWindow (s : State) (c : Nat) : Nat := 1000 * (s.obj (Obj.watchWindow (c - 1))).toNat

/-- HANG_STATUS with the item recorded. -/
def Stall.word (x : Stall) : Val :=
  BitVec.ofNat 64 (2 ^ 63 + x.cls % 8 * 2 ^ 60 + (match x.ward with
    | some w => 2 ^ 59 + w.toNat * 2 ^ 55
    | none => 0) + x.node.unit % 128 * 2 ^ 48 + x.node.point % 8 * 2 ^ 45 + x.node.sub % 64 * 2 ^ 39 + x.node.info % 2 ^ 16 * 2 ^ 16)

def Fld.stalls : Fld := ⟨Obj.hangStatus, 0, 16⟩

/-- HANG_STATUS after a detection that found `x` first. -/
def State.hangNote (s : State) (x : Stall) : State :=
  let v := s.obj Obj.hangStatus
  (if v.getLsbD 63 then s else s.setObj Obj.hangStatus (x.word ||| (v &&& 0xFFFF))).bump .stalls 1

/-- The STALL record, and the trigger on a detection. -/
def State.hangTrace (s : State) : State :=
  let high := fget (s.obj Obj.hangStatus) 32 32
  let s1 := if s.traces 5 then s.traceWrite (eventRec s.now 4 high) else s
  if s1.rd .trigStall = 1 then s1.traceFire high else s1

/-- The interrupts of a detection. -/
def State.hangSignals (s : State) : State :=
  let v := s.obj Obj.watchCfg
  let s1 := if v.getLsbD 26 then s.ibi 0x48 else s
  if v.getLsbD 25 then s1.hostVector (fget v 24 1) 2 (BitVec.ofNat 11 (fget v 0 11)) else s1

/-- The nodes the graph starts from: the stalled items. A mid-link latch stands for nothing of its own where its output latch has
stalled too: R548 has that latch wait for the facing input latch. -/
def graphStart (xs : List WaitNode) : List WaitNode :=
  xs.filter (fun x => !(x.kind == 1 && x.sub == 2 && xs.any (fun y => y.kind == 1 && y.sub == 1 && y.unit == x.unit && y.point == x.point)))

/-- A detection. -/
def State.detect (s : State) (x : Stall) : State :=
  let s1 := ((s.hangNote x).hangTrace).hangSignals
  let s2 : State := if s1.obs.graphFrom.isSome then s1
    else { s1 with obs := { s1.obs with
      graphFrom := some s1.now
      graphSeeds := graphStart ((s1.obs.stalls.filter (·.counted)).map (·.node)) } }
  if s2.rd ⟨Obj.watchCfg, 27, 1⟩ = 1 then s2.freezeBegin 1 3 else s2

/-- PROGRESS_WATCH_EXAMINE: windows stand still in a freeze and under WARN. -/
def Watch.examine (s : State) : State :=
  if !s.running ∨ s.timersStopped then s
  else
    let now := s.stalledNow.map s.stallOf
    let due := fun (x : Stall) => !x.counted && decide (s.watchWindow x.cls ≤ s.txnNow - x.since)
    let s1 : State := { s with obs := { s.obs with stalls := now.map (fun x => if due x then { x with counted := true } else x) } }
    match now.find? due with
    | none => s1
    | some x => s1.detect x

def execProgressWatchExamine (s : State) : Host.Outcome State Fault Refusal := .next (Watch.examine s)

def execHangStatusClear (acc : Access) (s : State) : Host.Outcome State Fault Refusal := .next (s.serveClear acc Obj.hangStatus)

/-! ## The wait-for graph (R548, R549) -/

/-- The node of the latch at the end of the link by which output `o` of `n` sends, or of the unit beyond it. -/
def State.beyond (s : State) (n o : Nat) : WaitNode :=
  match s.cfg.neighbour n o with
  | some m => ⟨1, m, facing o, 0, s.flowAt m (facing o)⟩
  | none => if o = 4 then ⟨5, n, 4, 0, 0⟩ else ⟨6, n, o, 0, 0⟩

/-- The node for an input that a list or a join names. -/
def State.inputNode (s : State) (n i : Nat) : WaitNode := if i = 6 then ⟨4, n, 6, 0, (s.node n).latchFlow⟩ else ⟨1, n, i, 0, s.flowAt n i⟩

/-- The node for a taker: the output whose latch is full or whose list stands elsewhere, or the reduction node. -/
def State.takerNode (s : State) (n t : Nat) : WaitNode :=
  if t = 6 then ⟨4, n, 6, 0, (s.node n).latchFlow⟩
  else if s.outFull n t then ⟨1, n, t, 1, ((s.cfg.neighbour n t).map (fun m => s.flowAt m (facing t))).getD 0⟩
  else ⟨2, n, t, 0, 0⟩

/-- What a latch waits for. -/
def State.latchWaits (s : State) (x : WaitNode) : List WaitNode :=
  if x.point = 6 then ((List.range 6).filter (fun o => (s.nodeTakers x.unit (s.node x.unit).latchFlow).testBit o &&
    !(s.node x.unit).done.testBit o)).map (s.takerNode x.unit)
  else if x.sub ≠ 0 then [s.beyond x.unit x.point]
  else
    let y := s.tin x.unit x.point
    if y.held.isSome then ((List.range 7).filter (fun t => (s.takersOf x.unit x.point).testBit t && !y.done.testBit t)).map (s.takerNode x.unit)
    else if 4 ≤ x.point then [⟨3, x.unit, x.point, 0, s.flowAt x.unit x.point⟩]
    else match s.cfg.neighbour x.unit x.point with
      | some m => [s.takerNode m (facing x.point)]
      | none => [⟨6, x.unit, x.point, 0, 0⟩]

/-- What a reduction node waits for: operand inputs with no flit, and the takers of its latch. -/
def State.joinWaits (s : State) (n : Nat) : List WaitNode :=
  let x := s.node n
  (match (s.joinList n)[x.join]? with
    | some r => ((joinOps r).filter (fun k => (s.opLatch n (joinSrc r k)).isNone)).map (fun k => s.inputNode n (joinSrc r k))
    | none => []) ++
  (if x.latch.isSome then s.latchWaits ⟨1, n, 6, 1, x.latchFlow⟩ else [])

/-- The peer gates from which a READY, an ARRIVE or a fragment is awaited. -/
def State.collWaits (s : State) (x : WaitNode) : List WaitNode :=
  match (List.range 16).find? (fun g => s.cfg.unitAt 2 g == some x.unit) with
  | none => []
  | some g =>
    let k := 32 * g + x.sub
    if s.rd (.coState k) = 2 then [⟨9, x.unit, 6, recCtr (s.coll k).record, 0⟩]
    else match (s.coll k).op with
      | none => []
      | some o =>
        let kids := (o.children false).filter (fun r => (Tbl.get none o.kids r).isNone)
        let up := if (o.upSent && o.final.isNone) || o.chunks.any (fun c => c.upSent && c.total.isEmpty) then (o.parent false).toList else []
        let frags := o.chunks.flatMap (fun c => (o.children (c.index % 2 == 1)).filter (fun r => (Tbl.get [] c.kids r).isEmpty))
        ((kids ++ up ++ (if o.final.isSome then frags else [])).eraseDups.map (fun r =>
          ⟨10, x.unit, 5, x.sub, (o.members.getD r 0).toNat / 1024⟩))

/-- What a node waits for. -/
def State.waits (s : State) (x : WaitNode) : List WaitNode :=
  match x.kind with
  | 1 => s.latchWaits x
  | 2 => match (s.outList x.unit x.point)[(s.tout x.unit x.point).entry]? with
    | some e => if isPass e then [s.inputNode x.unit (outSrc e)] else []
    | none => []
  | 3 => [if x.point = 4 then ⟨5, x.unit, 4, 0, 0⟩ else ⟨6, x.unit, x.point, 0, 0⟩]
  | 4 => s.joinWaits x.unit
  | 7 => match (List.range 4).find? (fun e => s.cfg.dmaAt e == some x.unit) with
    | some e => if s.rd (.chState (16 * e + x.sub)) = 2 then [⟨9, x.unit, 6, s.rd (.chWaitCtr (16 * e + x.sub)), 0⟩] else []
    | none => []
  | 8 => s.collWaits x
  | 11 => ((s.wardIngresses (BitVec.ofNat 4 x.sub)).filter (fun p => !(s.ing p.1 p.2).stopped)).map (fun p => ⟨3, p.1, p.2, 0, s.flowAt p.1 p.2⟩)
  | _ => []

/-- The most nodes a graph holds. -/
def graphMost : Nat := 4096

/-- The nodes found from those at hand, in the order they are found; the flag says that the graph was cut short. -/
def State.graphNodes (s : State) : Nat → List WaitNode → List WaitNode → List WaitNode × Bool
  | 0, todo, found => (found, !todo.isEmpty)
  | _ + 1, [], found => (found, false)
  | k + 1, x :: todo, found =>
    let new := ((s.waits x).filter (fun y => !(found.any y.same))).eraseDups
    let room := new.take (graphMost - found.length)
    if room.length < new.length then (found ++ room, true)
    else s.graphNodes k (todo ++ new) (found ++ new)

/-- The places in `ns` that the node `x` waits for. -/
def State.graphEdges (s : State) (ns : List WaitNode) (x : WaitNode) : List Nat :=
  ((s.waits x).filterMap (fun y => ns.findIdx? y.same)).eraseDups

/-- The nodes reached from `todo` over the edges `out`. -/
def reached (out : List (List Nat)) : Nat → List Nat → List Nat → List Nat
  | 0, _, found => found
  | k + 1, todo, found =>
    let new := ((todo.flatMap (fun i => out.getD i [])).eraseDups).filter (fun j => !found.contains j)
    if new.isEmpty then found else reached out k new (found ++ new)

/-- Node `i` lies on a cycle. -/
def onCycle (out : List (List Nat)) (i : Nat) : Bool := (reached out out.length [i] []).contains i

/-- Kinds outside the block. -/
def WaitNode.external (x : WaitNode) : Bool := x.kind == 5 || x.kind == 6 || x.kind == 9 || x.kind == 10

/-- The ward of a node. -/
def State.nodeWard (s : State) (x : WaitNode) : Nat :=
  if x.kind = 11 then 128 + x.sub
  else match s.wardOf x.unit with
    | some w => 128 + w.toNat
    | none => 0

/-- The eight bytes of a node. -/
def State.nodeBytes (s : State) (x : WaitNode) (stalled cyclic moved : Bool) : List Byte :=
  leBytes 1 x.kind ++ leBytes 1 x.unit ++ leBytes 1 x.point ++ leBytes 1 x.sub ++ leBytes 2 x.info ++
  leBytes 1 (bitsOf [stalled, x.external, cyclic, moved]) ++ leBytes 1 (s.nodeWard x)

/-- WAIT_GRAPH from the items that were detected. A detected item that has moved since is marked. -/
def State.graphBytes (s : State) (seeds : List WaitNode) : List Byte :=
  let g := s.graphNodes graphMost (seeds.take graphMost) (seeds.take graphMost)
  let ns := g.1
  let out := ns.map (s.graphEdges ns)
  let edges := (out.zipIdx.flatMap (fun p => p.1.map (fun j => (p.2, j)))).take 8192
  let now := (([1, 2, 3, 4].flatMap s.stalledIn)).map (fun x => x.2.1)
  let cyc := (List.range ns.length).map (onCycle out)
  let verdict := if ns.isEmpty then 0 else if g.2 then 3 else if cyc.any id then 2 else 1
  leBytes 2 1 ++ leBytes 2 ns.length ++ leBytes 2 edges.length ++ leBytes 1 verdict ++ [0] ++ leBytes 8 s.now ++
  (ns.zip cyc).flatMap (fun p =>
    let seed := seeds.any p.1.same
    let still := now.any p.1.same
    s.nodeBytes p.1 (seed && still) p.2 (seed && !still)) ++
  edges.flatMap (fun e => leBytes 2 e.1 ++ leBytes 2 e.2)

/-- WAIT_GRAPH_COMPLETE. -/
def Watch.graphDone (s : State) : State :=
  if s.obs.graphFrom.isNone ∨ !s.firmwareRuns then s
  else
    let s1 := s.setDom Obj.waitGraph (s.graphBytes s.obs.graphSeeds)
    { s1 with obs := { s1.obs with graphFrom := none, graphSeeds := [] } }

def execWaitGraphComplete (s : State) : Host.Outcome State Fault Refusal := .next (Watch.graphDone s)

end Sys2Proof.Machine
end

