-- ==== Sys2Proof/Machine/Values.lean ====
section
/-! DEFINITION. What an object reads as: the value its unit holds, or the one it shows live (R8, R23, R58, R74, R75,
R101, R113, R138, R155, R235, R273, R425, R433, R436, R481, R508, R509, R537, R543). -/

namespace Sys2Proof.Machine

/-! ## Scalars -/

/-- The level of SSP1 now: known at the latching of the straps and at a rising edge, free at any other time. -/
def State.syncLevel (s : State) : Bool := if s.pin.syncAt = some s.now then s.pin.sync else Config.pinLevel 1 s.drawn s.now

/-- PIN_LEVEL: the pads of SSP0 to SSP3, PWR_OK and TIMEREF_OK (R68, R75). In factory test mode the SSP pins are the test access
port, whose levels are free (R459). -/
def State.pinLevel (s : State) : Nat :=
  let signal := fun (k : Nat) (b : Bool) => if s.factoryMode then Config.pinLevel k s.drawn s.now else b
  bitsOf [signal 0 s.faultN, signal 1 s.syncLevel, signal 2 s.firmwareRuns, signal 3 s.warn, s.pin.pwrOk, s.pin.timerefOk]

/-- FAULT_SUMMARY (R509). -/
def State.faultSummary (s : State) : Nat :=
  let ps := (List.range 512).filter (fun i => s.rd (.stPending i) == 1)
  (if s.safe then 2 ^ 31 else 0) + (if ps.isEmpty then 0 else 2 ^ 30) +
    (ps.foldl (fun m i => max m (s.rd (.stSev i))) 0) * 2 ^ 28 + ps.length

/-- FAULT_STATUS: ACTIVE follows the cause (R512). -/
def State.faultWord (s : State) (i : Nat) : Val := fset (s.obj (Obj.faultStatus i)) 62 1 (if s.causeActive i then 1 else 0)

/-- SOCK_STAT: what the ring and the accumulator hold now (R235). -/
def State.sockStatWord (s : State) (n k : Nat) : Val :=
  let x := s.sock n k
  let cs := if x.held.isSome then 2 else if x.acc.count ≠ 0 then 1 else 0
  fset (fset (fset (fset (s.obj (Obj.sockStat n k)) 32 8 x.msgs) 29 3 cs) 16 13 x.words) 0 16 x.acc.count

/-- The constants of object 1100 (R22). -/
def Integration.topo (c : Integration) (sub : Nat) : Nat :=
  match sub with
  | 1 => c.cols
  | 2 => c.rows
  | 3 => c.pcols
  | 4 => c.prows
  | 5 => (((((List.range c.njs).filter c.corePort).map c.coreAt).filter (· != 0x3F)).eraseDups).length
  | 6 => c.count 1
  | 7 => c.count 2
  | 8 => c.count 3
  | 9 => c.count 4
  | 10 => c.dmaSides.length
  | _ => c.regions

/-- The value that a scalar object has at a level: fields above it read zero (R425). -/
def State.valueOf (s : State) (level : BitVec 2) (i sub : Nat) : Val :=
  let n := sub - 1
  let k := objKey i sub
  let nat := fun (v : Nat) => BitVec.ofNat 64 v
  if sub = 0 then nat (listedHighest i (s.highest i))
  else if s.presence i sub = .zero then 0
  else if k = Obj.buildCode then nat s.cfg.njs
  else if k = Obj.licenseeId then (if s.boot.lifecycle = 0 then 0 else s.obj k)
  else if i = 0x1100 then nat (s.cfg.topo sub)
  else if i = 0x1101 then nat (s.cfg.attachAt n)
  else if k = Obj.pinLevel then nat s.pinLevel
  else if i = 0x1210 then nat (s.cfg.adapterAt n)
  else if i = 0x1302 then nat (s.regionOf n)
  else if i = 0x1412 then nat (s.periodsOf n 4)
  else if i = 0x1413 then nat (s.periodsOf n 5)
  else if 0x1680 ≤ i ∧ i < 0x16F8 ∧ sub ≤ 0x20 then s.sockCfg (i - 0x1680) n
  else if 0x1680 ≤ i ∧ i < 0x16F8 ∧ sub ≤ 0x40 then
    (if sub - 0x21 < s.cfg.sockets (i - 0x1680) then s.sockStatWord (i - 0x1680) (sub - 0x21) else 0)
  else if i = 0x1710 then (s.cfg.memMap.getD n 0).setWidth 64
  else if k = Obj.platQuery then s.platAnswer
  else if 0x1A10 ≤ i ∧ i < 0x1A20 ∧ sub = 4 then s.gateStatusOf (i - 0x1A10)
  else if i = 0x1E01 then (if level.toNat < 2 then s.obj k &&& ~~~(0xFFFFFF : Val) else s.obj k)
  else if k = Obj.supplyNow then nat s.supplyNow
  else if k = Obj.grantedPower then nat s.grantedPower
  else if k = Obj.serviceTier then nat s.serviceTier
  else if k = Obj.faultSummary then nat s.faultSummary
  else if 0x2220 ≤ i ∧ i < 0x2224 then s.faultWord ((i - 0x2220) * 128 + n)
  else s.obj k

/-! ## DOMAIN objects -/

/-- Six lists, those that a bank lacks being empty. -/
def sixLists {α : Type} (ls : List (List α)) : List (List α) := (List.range 6).map (fun i => ls.getD i [])

/-- The junction record of a bank, with its signature (R132, R138). -/
def bankBytes (n : Nat) (b : Bank) : List Byte :=
  let outs := sixLists b.outs
  let ins := sixLists b.ins
  let head := leBytes 1 n ++ leBytes 1 b.joins.length ++ leBytes 2 0 ++ outs.flatMap (fun l => leBytes 2 l.length) ++
    ins.flatMap (fun l => leBytes 2 l.length)
  let body := (outs.flatten).flatMap (fun e => leBytes 4 e.toNat) ++ (ins.flatten).flatMap (fun e => leBytes 8 e.toNat) ++ b.joins.flatten
  head ++ leBytes 4 (crc32c (head ++ List.replicate 4 0 ++ body)).toNat ++ body

/-- A slot of the antifuse store, whole. -/
def State.slotWhole (s : State) (i : Nat) : List Byte := padTo 32 (s.slotBytes i)

/-- A trace record as it is read (R540). -/
def StoredTrace.bytes (r : StoredTrace) : List Byte :=
  let b := r.body
  leBytes 8 b.time ++ leBytes 4 r.seq.toNat ++ leBytes 1 b.src ++ leBytes 1 b.evt ++ leBytes 2 b.unit ++ leBytes 1 b.chan ++
    leBytes 1 (match b.ward with
      | some w => 0x80 + w.toNat
      | none => 0) ++
    leBytes 2 b.layer.toNat ++ leBytes 2 b.operator.toNat ++ leBytes 4 b.arg0.toNat ++ leBytes 4 b.arg1.toNat ++
    leBytes 1 (if r.valid then 1 else 0) ++ [0]

/-- TRACE_DATA: 8,192 records from TRACE_READ_AT on, wrapping at the end of the store (R543). -/
def State.traceData (s : State) : List Byte :=
  (List.range 8192).flatMap (fun j =>
    match Tbl.get none s.obs.store (((s.obj Obj.traceReadAt).toNat + j) % traceSize) with
    | some r => r.bytes
    | none => List.replicate 32 0)

/-- WARD_EVENTS: the total of code e in bytes 8e to 8e + 7 (R537). -/
def State.wardEvents (s : State) (w : Nat) : List Byte :=
  (List.range 128).flatMap (fun e => leBytes 8 (Tbl.get 0 s.obs.totals (256 * w + e)))

/-- Bytes that a DOMAIN nothing has written reads as, all zero: the default of its object table. -/
def domDefault (r : ObjRow) (k : Nat) : Nat :=
  if k = Obj.certChain then 0 else if k = Obj.waitGraph then 16 else if k = Obj.dump then 32 else r.maxLen

/-- The value of a DOMAIN object. -/
def State.bytesOf (s : State) (r : ObjRow) (i sub : Nat) : List Byte :=
  let n := sub - 1
  let k := objKey i sub
  if k = Obj.distTable then s.distTable
  else if i = 0x1411 then bankBytes n (s.bank n (s.rd (.liveSel n)))
  else if i = 0x1712 then s.arbTable n
  else if 0x1C00 ≤ i ∧ i < 0x1E00 then s.lagBytes (i - 0x1C00)
  else if i = 0x1E03 then s.junctionBytes (BitVec.ofNat 4 n)
  else if k = Obj.eventLog then (List.range 8192).flatMap s.slotWhole
  else if 0x2240 ≤ i ∧ i < 0x2280 then s.slotWhole ((i - 0x2240) * 128 + n)
  else if k = Obj.colMap then (s.colMap).flatMap (leBytes 1)
  else if k = Obj.rowMap then (s.rowMap).flatMap (leBytes 1)
  else if k = Obj.traceData then s.traceData
  else if i = 0x2421 then s.wardEvents n
  else (s.dom? k).getD (List.replicate (domDefault r k) 0)

/-- MAX_LEN of an object: those of DIST_TABLE, ARB_TABLE, COL_MAP, ROW_MAP and DUMP follow the build (R112, R273, R447, R529, R553). -/
def State.maxLen (s : State) (r : ObjRow) (i sub : Nat) : Nat :=
  if objKey i sub = Obj.distTable then s.distTable.length else if i = 0x1712 then (s.arbTable (sub - 1)).length
  else if objKey i sub = Obj.colMap then s.cfg.cols
  else if objKey i sub = Obj.rowMap then s.cfg.rows
  else if objKey i sub = Obj.dump then 32 + 128 * s.cfg.njs + 16 * s.cfg.dumpUnits.length else r.maxLen

end Sys2Proof.Machine
end

