-- ==== Sys2Proof/Machine/Objects.lean ====
section
/-! DEFINITION. The dictionary's own commands: READ, WRITE and DESCRIBE, segmented transfers, and the effect that a
WRITE or a download has in the chapter of its object (R433 to R453). -/

namespace Sys2Proof.Machine

/-! ## What a WRITE does, by its object -/

/-- A value within a range is stored; any other is refused. -/
def storeIf (ok : Bool) (k : Nat) (v : Val) : Effect := if ok then storeVal k v else fun _ => .error .outOfRange

/-- A resource may go to ward `new`, where ward `old` had it: a ward takes resources while it forms or is active (R417). -/
def State.mayAssign (s : State) (old new : Option (BitVec 4)) : Bool :=
  new == old || (match new with
    | some w => s.wardTakes w.toNat
    | none => true)

/-- An effect that assigns a channel, counter or group, which has one owner at most (R409). -/
def owning (old new : Option (BitVec 4)) (eff : Effect) : Effect :=
  fun s => if !s.mayAssign old new then .error .inUse
    else if old.isSome ∧ new.isSome ∧ old ≠ new then .error .outOfRange
    else eff s

/-- An effect that assigns a resource. -/
def assigning (old new : Option (BitVec 4)) (eff : Effect) : Effect :=
  fun s => if s.mayAssign old new then eff s else .error .inUse

/-- The ward of a valid HOST_XLAT entry, and of a valid GROUP entry. -/
def xlatWard (v : Val) : Option (BitVec 4) := if fget v 63 1 = 1 then some (BitVec.ofNat 4 (fget v 56 4)) else none
def groupWard (v : Val) : Option (BitVec 4) := if fget v 63 1 = 1 then some (BitVec.ofNat 4 (fget v 58 4)) else none

/-- HOST_WARD_MASK: each bit newly set assigns the port to that ward. -/
def Txn.writeHostMask (p : Nat) (v : Val) : Effect := fun s =>
  let old := s.obj (Obj.hostWardMask p)
  if (List.range 16).any (fun w => v.getLsbD w && !old.getLsbD w && !s.wardTakes w) then .error .inUse
  else .ok (s.setObj (Obj.hostWardMask p) v)

/-- GATE_WARD: a bit newly set assigns that gate to the ward. -/
def Gate.writeWard (w : Nat) (v : Val) : Effect := fun s =>
  if v &&& ~~~(s.obj (Obj.gateWard w)) ≠ 0 ∧ !s.wardTakes w then .error .inUse else .ok (s.setObj (Obj.gateWard w) v)

/-- A byte of each field that must not be zero. -/
def fieldsSet (v : Val) (fs : List (Nat × Nat)) : Bool := fs.all (fun f => fget v f.1 f.2 != 0)

/-- Ports, schedules, the node and the control plane. -/
def Objects.low (acc : Access) (i sub : Nat) (v : Val) : Effect :=
  let n := sub - 1
  let k := objKey i sub
  if i = 0x1214 ∨ i = 0x1320 ∨ i = 0x1510 then storeVal k 0
  else if i = 0x1220 then Txn.writeHostMask n v
  else if i = 0x1301 then storeVal k 0xFFFF
  else if i = 0x1403 then Sched.writeCtrl (BitVec.ofNat 4 n) v (decide (2 ≤ acc.level.toNat))
  else if i = 0x1407 then fun s => .ok (Sched.targetSet (BitVec.ofNat 4 n) (some (v.setWidth 32)) s)
  else if i = 0x1520 then Tap.write n v
  else if ((0x1620 ≤ i ∧ i < 0x1634) ∧ sub = 0x41) ∨ i = 0x1634 ∨ i = 0x1635 ∨ (0x1680 ≤ i ∧ sub = 0x81) then
    Control.writeRank i (v.setWidth 8)
  else if 0x1680 ≤ i ∧ sub ≤ 0x20 then Control.writeSockCfg (i - 0x1680) n v
  else if 0x1680 ≤ i ∧ sub ≤ 0x40 then Control.clearSockStat (i - 0x1680) (sub - 0x21)
  else if 0x1680 ≤ i ∧ sub = 0x82 then Control.writeCombCfg (i - 0x1680) v
  else storeVal k v

/-- Transactions, DMA engines, bridges and the package. -/
def Objects.mid (acc : Access) (i sub : Nat) (v : Val) : Effect :=
  let n := sub - 1
  let k := objKey i sub
  let old := fun (s : State) => s.obj k
  if i = 0x1702 then storeIf (decide (1000 ≤ v.toNat) && decide (v.toNat ≤ 10000000)) k v
  else if i = 0x1711 then Txn.writePoolSize n v
  else if i = 0x1713 then Txn.renumber n v
  else if i = 0x1720 ∨ i = 0x1721 then fun s => assigning (xlatWard (old s)) (xlatWard v) (storeVal k v) s
  else if 0x1730 ≤ i ∧ i ≤ 0x1732 then Txn.writeReg (i - 0x1730) n k v
  else if i = 0x1733 then Txn.clearStat n
  else if i = 0x1743 then Txn.clearProbe n
  else if 0x1810 ≤ i ∧ i < 0x1850 then
    (if sub = 1 then fun s => owning (chanWardOf (old s)) (chanWardOf v) (Dma.writeIdle (i - 0x1810) k v) s
     else if sub ≤ 4 then Dma.writeIdle (i - 0x1810) k v
     else if sub = 5 then Dma.control (i - 0x1810) (fget v 0 4)
     else if sub = 9 then Dma.clearStat (i - 0x1810)
     else storeVal k v)
  else if 0x1850 ≤ i ∧ i < 0x1854 then Dma.writeTrip (i - 0x1850) n v
  else if 0x1854 ≤ i ∧ i < 0x1858 then fun s => owning (tripWardOf (old s)) (tripWardOf v) (Dma.writeTripWard (i - 0x1854) n v) s
  else if k = Obj.pkgNumber then Pkg.writeNumber acc.path v
  else if k = Obj.tbPeriod then Pkg.writePeriod v
  else if k = Obj.tbGen then Pkg.writeGen acc.path
  else if k = Obj.tbError then Pkg.writeError v
  else if 0x1910 ≤ i ∧ i < 0x1914 then (if sub = 1 then Bridge.writeCfg (i - 0x1910) v else storeVal k 0)
  else if i = 0x1921 then Pkg.copyStatus n v
  else if i = 0x1922 then Pkg.writeCtrl (BitVec.ofNat 4 n) v
  else storeVal k v

/-- The host windows of the die, as hall addresses (R242). -/
def State.hostSpans (s : State) : List (Nat × Nat) :=
  let base := (s.obj Obj.pkgNumber).toNat * 2 ^ 47 + s.dieBits * 2 ^ 41 + 0x10000000000
  ([0, 1].filter (fun p => (s.cfg.unitAt 3 p).isSome)).map (fun p => (base + p * 2 ^ 38, base + (p + 1) * 2 ^ 38))

/-- Gates, collectives and wards. -/
def Objects.hall (acc : Access) (i sub : Nat) (v : Val) : Effect :=
  let n := sub - 1
  let k := objKey i sub
  let old := fun (s : State) => s.obj k
  if k = Obj.platInsert then Gate.insert acc.level v
  else if k = Obj.platRemove then Gate.remove v
  else if i = 0x1A01 then Gate.writeWard n v
  else if 0x1A10 ≤ i ∧ i < 0x1A20 then
    (if sub = 1 then Gate.setCfg (i - 0x1A10) v
     else if sub = 2 then storeIf (fieldsSet v [(0, 8), (8, 8), (16, 8)]) k v
     else if sub = 3 then storeIf (fieldsSet v [(0, 8), (12, 4), (16, 16)]) k v
     else if sub = 5 then storeVal k 0
     else storeVal k v)
  else if k = Obj.hallTopo then Coll.writeTopo 16 v
  else if 0x1B10 ≤ i ∧ i < 0x1B20 then Coll.writeStore (i - 0x1B10) v
  else if 0x1B20 ≤ i ∧ i < 0x1B30 then fun s => owning (groupWard (old s)) (groupWard v) (Coll.writeGroup (i - 0x1B20) n v) s
  else if 0x1B40 ≤ i ∧ i < 0x1B50 then Coll.writeTrip (i - 0x1B40) n v
  else if 0x1B50 ≤ i ∧ i < 0x1B60 then fun s => owning (tripWardOf (old s)) (tripWardOf v) (Coll.writeTripWard (i - 0x1B50) n v) s
  else if 0x1C00 ≤ i ∧ i < 0x1E00 then
    (if sub = 1 then fun s => owning (chanWardOf (old s)) (chanWardOf v) (Coll.writeCfg (i - 0x1C00) v) s
     else if sub ≤ 4 then fun s => Coll.writeRing s.hostSpans (i - 0x1C00) k v s
     else if sub = 5 then Coll.control (i - 0x1C00) (fget v 0 4)
     else Coll.clearStat (i - 0x1C00))
  else if k = Obj.wardRefusals then storeVal k 0
  else if i = 0x1E02 then Ward.control (BitVec.ofNat 4 n) acc.level (fget v 0 4)
  else if i = 0x1E10 then Ward.writeRange n v
  else storeVal k v

/-- Start-up, power, faults, spares and observation. -/
def Objects.high (i sub : Nat) (v : Val) : Effect :=
  let n := sub - 1
  let k := objKey i sub
  if k = Obj.accessStat ∨ k = Obj.supplyStat ∨ k = Obj.storeCorr ∨ k = Obj.hangStatus then storeVal k 0
  else if k = Obj.lifecycleAdvance then Fuse.advance v
  else if k = Obj.fuseCaps then Fuse.writeCaps v
  else if k = Obj.debugDisable then Fuse.writeDebug v
  else if k = Obj.fwCtrl then (if fget v 0 8 = 1 then Boot.start else fun _ => .error .badState)
  else if i = 0x2120 then
    (if v = 2 then Region.wake n else if v = 3 then Region.reset n else fun _ => .error .outOfRange)
  else if i = 0x2122 then storeIf (fieldsSet v [(0, 16)]) k v
  else if i = 0x2123 then Rail.setTarget n v
  else if i = 0x2124 then Rail.setApplied n v
  else if k = Obj.throttlePstate then storeIf (decide (v.toNat ≤ 15)) k v
  else if k = Obj.faultThreshold then Faults.setThreshold v
  else if k = Obj.faultClear then Faults.clear v
  else if k = Obj.inject then Faults.arm v
  else if k = Obj.wdtPeriod then storeIf (decide (1000 ≤ v.toNat) && decide (v.toNat ≤ 10000000)) k v
  else if k = Obj.wdtKick then Boot.kick v
  else if k = Obj.scrubPeriod then storeIf (v == 0 || (decide (3600 ≤ v.toNat) && decide (v.toNat ≤ 2592000))) k v
  else if 0x2210 ≤ i ∧ i < 0x2214 then Faults.setSev ((i - 0x2210) * 128 + n) v
  else if k = Obj.sisterCtrl then Spares.control v
  else if k = Obj.sparePolicy then storeIf (fieldsSet v [(16, 8)]) k v
  else if k = Obj.traceCtrl then Observe.traceControl v
  else if k = Obj.traceCmd then Observe.traceCommand v
  else if k = Obj.traceReadAt then storeIf (decide (v.toNat < traceSize)) k v
  else if k = Obj.hallRef then Observe.hallRef v
  else if i = 0x2410 then Observe.setSlot n v
  else if i = 0x2430 ∧ 2 ≤ sub ∧ sub ≤ 5 then storeIf (decide (10 ≤ v.toNat) && decide (v.toNat ≤ 100000000)) k v
  else if k = Obj.freezeCtrl then Observe.freezeControl v
  else if k = Obj.dumpCtrl then Observe.capture v
  else storeVal k v

/-- The effect of a merged value on its object. -/
def Objects.effect (acc : Access) (i sub : Nat) (v : Val) : Effect :=
  if i < 0x1700 then Objects.low acc i sub v
  else if i < 0x1A00 then Objects.mid acc i sub v
  else if i < 0x2000 then Objects.hall acc i sub v
  else Objects.high i sub v

/-- The object is an entry of a channel table (R233): its number. -/
def chanEntry (i sub : Nat) : Option Nat :=
  if (0x1620 ≤ i ∧ i < 0x1634) ∧ 1 ≤ sub ∧ sub ≤ 0x40 then some (sub - 1)
  else if (0x1680 ≤ i ∧ i < 0x16F8) ∧ 0x41 ≤ sub ∧ sub ≤ 0x80 then some (sub - 0x41)
  else none

/-- An expedited write at its turn. Those whose effect follows the answer, or whose answer waits, take their own step. -/
def Objects.write (acc : Access) (i sub len : Nat) (v : Val) (s : State) : State :=
  let k := objKey i sub
  if len ≠ typeLen (s.typeOf i sub) then
    (if !s.serves acc then s
     else match s.check acc i sub .write len with
      | .error a => s.abortRequest acc 2 i sub 0 a
      | .ok _ => s.abortRequest acc 2 i sub 0 .length)
  else if isPeer acc.path ∧ peerCopies k then s.serveKey acc k v (fun _ => Objects.effect acc i sub v)
  else match chanEntry i sub with
    | some e => Control.entryWrite acc i e (v.setWidth 32) s
    | none =>
      if i = 0x1722 ∨ i = 0x1723 then s.serveLater acc k v (fun x => Txn.writeWindow (i - 0x1722) (sub - 1) x acc)
      else if k = Obj.coreSel then Boot.coreSel acc (v.setWidth 8) s
      else if k = Obj.fwCtrl ∧ v = 2 then s.serveThen acc k v (fun _ => storeVal k 2) State.holdCore
      else if k = Obj.dieReset then s.serveThen acc k v (Boot.resetMay 0xD1) State.dieReset
      else if k = Obj.pkgReset then s.serveThen acc k v (Boot.resetMay 0xA5) (fun a => a.packageReset 5)
      else if i = 0x2120 ∧ sub ≠ 0 ∧ v = 1 then Region.gateWrite acc (sub - 1) s
      else s.serveKey acc k v (Objects.effect acc i sub)

/-- WRITE: `len` bytes of `v`. -/
def execWrite (acc : Access) (index : BitVec 16) (sub : BitVec 8) (len : Nat) (v : BitVec 64) (s : State) :
    Host.Outcome State Fault Refusal :=
  .next (Objects.write acc index.toNat sub.toNat len (BitVec.ofNat 64 (v.toNat % 2 ^ (8 * len))) s)

def execAccessStatClear (acc : Access) (s : State) : Host.Outcome State Fault Refusal := .next (s.serveClear acc Obj.accessStat)

/-! ## READ and DESCRIBE -/

/-- A request other than a write, at its turn: its answer, or the abort. -/
def State.serveReply (s : State) (acc : Access) (cmd i sub : Nat) (xfer : BitVec 16) (r : Except Abort Reply) : State :=
  match r with
  | .error a => s.abortRequest acc cmd i sub xfer a
  | .ok p => s.respond acc cmd i sub p

/-- READ. -/
def Objects.read (acc : Access) (i sub : Nat) (s : State) : State :=
  if !s.serves acc then s
  else s.serveReply acc 1 i sub 0 (match s.check acc i sub .read 0 with
    | .error a => .error a
    | .ok r => .ok (Reply.done r.ty 0 (typeLen r.ty) (leBytes (typeLen r.ty) (s.valueOf acc.level i sub).toNat)))

def execRead (acc : Access) (index : BitVec 16) (sub : BitVec 8) (s : State) : Host.Outcome State Fault Refusal :=
  .next (Objects.read acc index.toNat sub.toNat s)

/-- The checks of a request that is neither a read nor a write of a value: a barred path, the boot ROM, existence and the
path's cap. -/
def State.checkHead (s : State) (acc : Access) (i sub : Nat) : Except Abort ObjRow :=
  if inBandPath acc.path ∧ s.bootRuns ∧ s.pathLimit acc.path ≠ 7 then .error .badState
  else match s.checkPath acc i sub false with
    | .error a => .error a
    | .ok r => if s.bootRuns ∧ !bootServes i then .error .badState else .ok r

/-- DESCRIBE (R447). -/
def Objects.describe (acc : Access) (i sub : Nat) (s : State) : State :=
  if !s.serves acc then s
  else s.serveReply acc 7 i sub 0 (match s.checkHead acc i sub with
    | .error a => .error a
    | .ok r => .ok (Reply.done r.ty 0 0 (leBytes 1 r.ty ++ leBytes 1 r.rd ++ leBytes 1 r.wr ++ leBytes 1 r.cls.code ++
        leBytes 4 (s.maxLen r i sub))))

def execDescribe (acc : Access) (index : BitVec 16) (sub : BitVec 8) (s : State) : Host.Outcome State Fault Refusal :=
  .next (Objects.describe acc index.toNat sub.toNat s)

/-! ## Segmented transfers (R445, R446) -/

/-- The paths name one requester. -/
def sameRequester : Path → Path → Bool
  | .bus, .bus => true
  | .mailbox p, .mailbox q => p == q
  | .inBand u _ _, .inBand v _ _ => u == v
  | .service u _ _, .service v _ _ => u == v
  | .firmware, .firmware => true
  | .peer d _ _, .peer e _ _ => d == e
  | _, _ => false

def servicePath : Path → Bool
  | .service .. => true
  | _ => false

/-- The open transfer that a SEGMENT or ABORT names. -/
def State.transferOf (s : State) (acc : Access) (i sub : Nat) (xfer : BitVec 16) : Option Transfer :=
  s.dict.transfers.find? (fun t => t.handle == xfer && t.key == objKey i sub && sameRequester t.path acc.path)

/-- The next handle, 0x0001 to 0xFFFF, that no open transfer has. -/
def State.freeHandle (s : State) : Nat :=
  ((List.range 9).map (fun j => (s.dict.nextHandle - 1 + j) % 65535 + 1)).find?
    (fun h => !s.dict.transfers.any (fun t => t.handle.toNat == h)) |>.getD 1

/-- A transfer opens, and its INIT is answered with the handle. -/
def State.openTransfer (s : State) (acc : Access) (cmd i sub : Nat) (upload : Bool) (bs : List Byte) (size : Nat) (arg : Nat) : State :=
  let h := s.freeHandle
  let t : Transfer := ⟨BitVec.ofNat 16 h, acc.path, objKey i sub, upload, bs, size, 0, [], s.now⟩
  ({ s with dict := { s.dict with transfers := s.dict.transfers ++ [t], nextHandle := h % 65535 + 1 } }).respond acc cmd i sub
    (Reply.done 9 (BitVec.ofNat 16 h) arg [])

/-- Bytes of the snapshot pool (R436). -/
def snapshotPool : Nat := 524288

/-- INIT_UPLOAD. -/
def Objects.initUpload (acc : Access) (i sub : Nat) (s : State) : State :=
  if !s.serves acc then s
  else if servicePath acc.path then s.refuseNow acc 3 i sub 0 .badCommand
  else match s.check acc i sub .upload 0 with
    | .error a => s.abortRequest acc 3 i sub 0 a
    | .ok r =>
      let bs := s.bytesOf r i sub
      let held := ((s.dict.transfers.filter (fun t => t.upload)).map (fun t => t.size)).sum
      if 8 ≤ s.dict.transfers.length ∨ snapshotPool < held + bs.length then s.abortRequest acc 3 i sub 0 .exhausted
      else s.openTransfer acc 3 i sub true bs bs.length bs.length

def execInitUpload (acc : Access) (index : BitVec 16) (sub : BitVec 8) (s : State) : Host.Outcome State Fault Refusal :=
  .next (Objects.initUpload acc index.toNat sub.toNat s)

/-- What the owning chapter says to a download that opens. -/
def Objects.beginDownload (acc : Access) (i sub : Nat) : Effect := fun s =>
  let w := BitVec.ofNat 4 (sub - 1)
  if i = 0x1401 then Sched.begin w (isPeer acc.path) s
  else if i = 0x1920 then Pkg.begin w s
  else if objKey i sub = Obj.fwImage then (match Boot.imageMay s with
    | .error a => .error a
    | .ok _ => .ok s)
  else .ok s

/-- INIT_DOWNLOAD. -/
def Objects.initDownload (acc : Access) (i sub size : Nat) (s : State) : State :=
  if !s.serves acc then s
  else if servicePath acc.path then s.refuseNow acc 4 i sub 0 .badCommand
  else
    let stop := fun (a : Abort) => s.abortRequest acc 4 i sub 0 a
    match s.check acc i sub .download 0 with
    | .error a => stop a
    | .ok r =>
      if r.maxLen < size then stop .tooLarge
      else if s.dict.transfers.any (fun t => !t.upload && t.key == objKey i sub) then stop .inUse
      else if 8 ≤ s.dict.transfers.length then stop .exhausted
      else match Objects.beginDownload acc i sub s with
        | .error a => stop a
        | .ok s1 => s1.openTransfer acc 4 i sub false [] size 0

def execInitDownload (acc : Access) (index : BitVec 16) (sub : BitVec 8) (size : BitVec 32) (s : State) :
    Host.Outcome State Fault Refusal :=
  .next (Objects.initDownload acc index.toNat sub.toNat size.toNat s)

/-- What a whole download does, by its object (R436). -/
def Objects.take (i sub : Nat) (bs : List Byte) : Effect := fun s =>
  let w := BitVec.ofNat 4 (sub - 1)
  let k := objKey i sub
  if i = 0x1401 then (if s.rd (.ldState w.toNat) = 1 then .ok (Sched.loaded w bs s) else .error .badState)
  else if i = 0x1920 then (if s.rd (.pkgState w.toNat) = 1 then .ok (Pkg.loaded w bs s) else .error .badState)
  else if 0x1680 ≤ i ∧ i < 0x16F8 then Control.writeReleaseMap (i - 0x1680) bs s
  else if i = 0x1E03 then Ward.writeJunctions w bs s
  else if i = 0x2420 then Observe.setEvents w.toNat bs s
  else if k = Obj.provision then Fuse.writeProvision bs s
  else if k = Obj.certChain then Fuse.writeChain bs s
  else if k = Obj.schedKeyHash then Fuse.writeKeyHash bs s
  else Boot.writeImage bs s

def State.closeTransfer (s : State) (t : Transfer) : State :=
  { s with dict := { s.dict with transfers := s.dict.transfers.filter (fun x => x.handle != t.handle) } }

/-- A transfer ends without its value, and the cause is recorded (R445, R446). -/
def State.endTransfer (s : State) (t : Transfer) (a : Abort) : State :=
  let s1 := (s.closeTransfer t).transferLost t
  { s1 with dict := { s1.dict with ended := some (t.handle, BitVec.ofNat 32 a.code) } }

def State.setTransfer (s : State) (t : Transfer) : State :=
  { s with dict := { s.dict with transfers := s.dict.transfers.map (fun x => if x.handle = t.handle then t else x) } }

/-- ARG of the answer to a segment. -/
def segmentArg (seq n : Nat) (last : Bool) : Nat := seq + n * 2 ^ 16 + (if last then 2 ^ 31 else 0)

/-- The next 1,024 bytes of an upload. The segment that ends the value closes the transfer. -/
def State.uploadNext (s : State) (acc : Access) (i sub seq : Nat) (t : Transfer) : State :=
  let part := (t.bytes.drop (1024 * t.next)).take 1024
  let last := decide (t.size ≤ 1024 * (t.next + 1))
  let arg := segmentArg seq part.length last
  let s1 := if last then s.closeTransfer t
    else s.setTransfer { t with next := t.next + 1, last := leBytes 4 arg ++ part, at_ := s.now }
  s1.respond acc 5 i sub (Reply.done 9 t.handle arg part)

/-- The next bytes of a download. -/
def State.downloadNext (s : State) (acc : Access) (i sub seq : Nat) (last : Bool) (data : List Byte) (t : Transfer) : State :=
  let bs := t.bytes ++ data
  let arg := segmentArg seq 0 last
  if data.isEmpty ∨ 1024 < data.length then s.abortRequest acc 5 i sub t.handle .length
  else if t.size < bs.length ∨ (last ∧ bs.length ≠ t.size) then (s.endTransfer t .length).abortRequest acc 5 i sub t.handle .length
  else if last then
    match Objects.take i sub bs (s.closeTransfer t) with
    | .error a => (s.endTransfer t a).abortRequest acc 5 i sub t.handle a
    | .ok s1 =>
      (s1.unspoilt (objKey i sub)).respond acc 5 i sub (Reply.done 9 t.handle arg [])
  else (s.setTransfer { t with bytes := bs, next := t.next + 1, last := leBytes 4 arg, at_ := s.now }).respond acc 5 i sub
    (Reply.done 9 t.handle arg [])

/-- SEGMENT: the next sequence moves bytes, a repeat of the last is answered again, and any other ends the transfer. -/
def Objects.segment (acc : Access) (i sub : Nat) (xfer : BitVec 16) (arg : BitVec 32) (data : List Byte) (s : State) : State :=
  let stop := fun (a : Abort) => s.abortRequest acc 5 i sub xfer a
  let seq := arg.toNat % 65536
  let count := arg.toNat / 65536 % 2048
  if !s.serves acc then s
  else if servicePath acc.path then s.refuseNow acc 5 i sub xfer .badCommand
  else match s.checkHead acc i sub with
    | .error a => stop a
    | .ok r => match s.transferOf acc i sub xfer with
      | none => stop .noTransfer
      | some t => match s.checkRest acc i sub (if t.upload then .upload else .download) 0 r with
        | .error a => stop a
        | .ok _ =>
          if seq = t.next % 65536 then
            (if t.upload then s.uploadNext acc i sub seq t
             else if data.length < count then stop .length
             else s.downloadNext acc i sub seq (arg.getLsbD 31) (data.take count) t)
          else if t.next ≠ 0 ∧ seq = (t.next - 1) % 65536 then
            (s.setTransfer { t with at_ := s.now }).respond acc 5 i sub (Reply.done 9 xfer (leAt t.last 0 4) (t.last.drop 4))
          else (s.endTransfer t .sequence).abortRequest acc 5 i sub xfer .sequence

def execSegment (acc : Access) (index : BitVec 16) (sub : BitVec 8) (xfer : BitVec 16) (arg : BitVec 32) (data : List (BitVec 8))
    (s : State) : Host.Outcome State Fault Refusal :=
  .next (Objects.segment acc index.toNat sub.toNat xfer arg data s)

/-- ABORT from the requester. -/
def Objects.abortTransfer (acc : Access) (i sub : Nat) (xfer : BitVec 16) (s : State) : State :=
  if !s.serves acc then s
  else if servicePath acc.path then s.refuseNow acc 6 i sub xfer .badCommand
  else match s.checkHead acc i sub with
    | .error a => s.abortRequest acc 6 i sub xfer a
    | .ok _ => match s.transferOf acc i sub xfer with
      | none => s.abortRequest acc 6 i sub xfer .noTransfer
      | some t => (s.endTransfer t .requesterAbort).respond acc 6 i sub (Reply.done 9 xfer 0 [])

def execTransferAbort (acc : Access) (index : BitVec 16) (sub : BitVec 8) (xfer : BitVec 16) (_code : BitVec 32) (s : State) :
    Host.Outcome State Fault Refusal :=
  .next (Objects.abortTransfer acc index.toNat sub.toNat xfer s)

/-- TRANSFER_TIMEOUT_EXPIRE: no SEGMENT has come for 1 s. -/
def Objects.transferExpire (xfer : BitVec 16) (s : State) : State :=
  match s.dict.transfers.find? (fun t => t.handle == xfer) with
  | none => s
  | some t =>
    if !(s.bootRuns || s.firmwareRuns) then s
    else ((s.advanceTo (t.at_ + 1000000000)).bump .abandoned 1).endTransfer t .transferTimeout

def execTransferTimeoutExpire (xfer : BitVec 16) (s : State) : Host.Outcome State Fault Refusal :=
  .next (Objects.transferExpire xfer s)

end Sys2Proof.Machine
end

