-- ==== Sys2Proof/Machine/Dispatch.lean ====
section
/-! DEFINITION. The meaning of every command, one arm for each constructor. -/

namespace Sys2Proof.Machine

def exec (i : Instr) (s : State) : Host.Outcome State Fault Refusal :=
  match i with
  | .powerOnResetAssert pin ns => Sys2Proof.Machine.execPowerOnResetAssert pin ns s
  | .resetRelease straps romOk => Sys2Proof.Machine.execResetRelease straps romOk s
  | .regionStartRelease k => Sys2Proof.Machine.execRegionStartRelease k s
  | .bridgeTrainComplete b slow bad repair partner => Sys2Proof.Machine.execBridgeTrainComplete b slow bad repair partner s
  | .fwImageStart => Sys2Proof.Machine.execFwImageStart s
  | .firmwareRunning rel => Sys2Proof.Machine.execFirmwareRunning rel s
  | .syncEdge => Sys2Proof.Machine.execSyncEdge s
  | .timerefLoss => Sys2Proof.Machine.execTimerefLoss s
  | .timerefReturn => Sys2Proof.Machine.execTimerefReturn s
  | .oscillatorTrim => Sys2Proof.Machine.execOscillatorTrim s
  | .adapterClockStop n side => Sys2Proof.Machine.execAdapterClockStop n side s
  | .adapterClockStart n side => Sys2Proof.Machine.execAdapterClockStart n side s
  | .adapterClockMeasure n side mhz => Sys2Proof.Machine.execAdapterClockMeasure n side mhz s
  | .adapterResetAssert n side => Sys2Proof.Machine.execAdapterResetAssert n side s
  | .adapterResetRelease n side => Sys2Proof.Machine.execAdapterResetRelease n side s
  | .tensorInjectBeat n side flow lower upper last => Sys2Proof.Machine.execTensorInjectBeat n side flow lower upper last s
  | .tensorDeliverBeat n side => Sys2Proof.Machine.execTensorDeliverBeat n side s
  | .coreWakeRequest n => Sys2Proof.Machine.execCoreWakeRequest n s
  | .controlSend n dest sock kind tag words => Sys2Proof.Machine.execControlSend n dest sock kind tag words s
  | .nakDeliver n => Sys2Proof.Machine.execNakDeliver n s
  | .socketPop n sock => Sys2Proof.Machine.execSocketPop n sock s
  | .txnRequestAccept unit rq => Sys2Proof.Machine.execTxnRequestAccept unit rq s
  | .tokenBucketRelease unit => Sys2Proof.Machine.execTokenBucketRelease unit s
  | .slotReservationArrive unit => Sys2Proof.Machine.execSlotReservationArrive unit s
  | .leaseReturnArrive unit => Sys2Proof.Machine.execLeaseReturnArrive unit s
  | .slotGrantArrive unit => Sys2Proof.Machine.execSlotGrantArrive unit s
  | .slotBackoffArrive unit => Sys2Proof.Machine.execSlotBackoffArrive unit s
  | .backoffExpire unit target level => Sys2Proof.Machine.execBackoffExpire unit target level s
  | .txnFlitArrive n net inp flips => Sys2Proof.Machine.execTxnFlitArrive n net inp flips s
  | .txnPacketForward n net out => Sys2Proof.Machine.execTxnPacketForward n net out s
  | .txnRequestArrive unit => Sys2Proof.Machine.execTxnRequestArrive unit s
  | .txnResponseArrive unit => Sys2Proof.Machine.execTxnResponseArrive unit s
  | .txnDataArrive unit => Sys2Proof.Machine.execTxnDataArrive unit s
  | .txnTimeoutExpire unit tag => Sys2Proof.Machine.execTxnTimeoutExpire unit tag s
  | .tagQuarantineExpire unit tag => Sys2Proof.Machine.execTagQuarantineExpire unit tag s
  | .targetSlotTimeout unit src tag => Sys2Proof.Machine.execTargetSlotTimeout unit src tag s
  | .snoopReplyArrive unit src stag resp line => Sys2Proof.Machine.execSnoopReplyArrive unit src stag resp line s
  | .snoopTimeout unit stag => Sys2Proof.Machine.execSnoopTimeout unit stag s
  | .coreTargetAnswer n tag status data => Sys2Proof.Machine.execCoreTargetAnswer n tag status data s
  | .maCommandIssue a => Sys2Proof.Machine.execMaCommandIssue a s
  | .maReadData a tag data status => Sys2Proof.Machine.execMaReadData a tag data status s
  | .maWriteCompletion a tag status => Sys2Proof.Machine.execMaWriteCompletion a tag status s
  | .hostInboundRequest p ward mbx rq => Sys2Proof.Machine.execHostInboundRequest p ward mbx rq s
  | .hostCompletionArrive p tag status data => Sys2Proof.Machine.execHostCompletionArrive p tag status data s
  | .hostSnoopArrive p line ty tag => Sys2Proof.Machine.execHostSnoopArrive p line ty tag s
  | .hostIrqMessage p => Sys2Proof.Machine.execHostIrqMessage p s
  | .hostIrqDeliver p => Sys2Proof.Machine.execHostIrqDeliver p s
  | .cohWindowWrite acc p idx v => Sys2Proof.Machine.execCohWindowWrite acc p idx v s
  | .cohWindowInvalidateComplete p idx => Sys2Proof.Machine.execCohWindowInvalidateComplete p idx s
  | .arbRenumber acc a v => Sys2Proof.Machine.execArbRenumber acc a v s
  | .poolSizeWrite acc a v => Sys2Proof.Machine.execPoolSizeWrite acc a v s
  | .i3cCcc ccc => Sys2Proof.Machine.execI3cCcc ccc s
  | .mctpMessageReceive ty iana mtag body => Sys2Proof.Machine.execMctpMessageReceive ty iana mtag body s
  | .mctpControlMessage mtag body => Sys2Proof.Machine.execMctpControlMessage mtag body s
  | .tensorFlitArrive n inp flips => Sys2Proof.Machine.execTensorFlitArrive n inp flips s
  | .paceGaugeWindow k rate => Sys2Proof.Machine.execPaceGaugeWindow k rate s
  | .outputPassFlit n out flips => Sys2Proof.Machine.execOutputPassFlit n out flips s
  | .wakeHoldExpire k => Sys2Proof.Machine.execWakeHoldExpire k s
  | .schedLoadChecksComplete w => Sys2Proof.Machine.execSchedLoadChecksComplete w s
  | .epochArm acc w => Sys2Proof.Machine.execEpochArm acc w s
  | .epochArmCheckComplete w => Sys2Proof.Machine.execEpochArmCheckComplete w s
  | .epochCancel acc w => Sys2Proof.Machine.execEpochCancel acc w s
  | .forceStaged acc w => Sys2Proof.Machine.execForceStaged acc w s
  | .forceNull acc w => Sys2Proof.Machine.execForceNull acc w s
  | .epochTargetSet w t => Sys2Proof.Machine.execEpochTargetSet w t s
  | .epochTargetArrive n => Sys2Proof.Machine.execEpochTargetArrive n s
  | .epochMarkerArrive n inp => Sys2Proof.Machine.execEpochMarkerArrive n inp s
  | .epochSwapComplete w => Sys2Proof.Machine.execEpochSwapComplete w s
  | .forcedMarkerArrive n => Sys2Proof.Machine.execForcedMarkerArrive n s
  | .forcedSwapComplete w => Sys2Proof.Machine.execForcedSwapComplete w s
  | .reductionJoinFlit n residueBad => Sys2Proof.Machine.execReductionJoinFlit n residueBad s
  | .tallyCaptureFlit n => Sys2Proof.Machine.execTallyCaptureFlit n s
  | .tapCtrlWrite acc n v => Sys2Proof.Machine.execTapCtrlWrite acc n v s
  | .controlFlitArrive n inp flips => Sys2Proof.Machine.execControlFlitArrive n inp flips s
  | .controlMessageForward n out => Sys2Proof.Machine.execControlMessageForward n out s
  | .controlMessageDeliver ep => Sys2Proof.Machine.execControlMessageDeliver ep s
  | .combineContribution ep => Sys2Proof.Machine.execCombineContribution ep s
  | .combinerReleaseSend n => Sys2Proof.Machine.execCombinerReleaseSend n s
  | .releaseDeliver n => Sys2Proof.Machine.execReleaseDeliver n s
  | .tripIncrement ep => Sys2Proof.Machine.execTripIncrement ep s
  | .pstateRequest => Sys2Proof.Machine.execPstateRequest s
  | .serviceMessageReceive => Sys2Proof.Machine.execServiceMessageReceive s
  | .sockCfgWrite acc n sock v => Sys2Proof.Machine.execSockCfgWrite acc n sock v s
  | .sockStatClear acc n sock => Sys2Proof.Machine.execSockStatClear acc n sock s
  | .channelEntryWrite acc table entry v => Sys2Proof.Machine.execChannelEntryWrite acc table entry v s
  | .channelRankReply table entry reply => Sys2Proof.Machine.execChannelRankReply table entry reply s
  | .channelCheckTimeout table entry => Sys2Proof.Machine.execChannelCheckTimeout table entry s
  | .rankWrite acc table v => Sys2Proof.Machine.execRankWrite acc table v s
  | .dmaStart acc e c => Sys2Proof.Machine.execDmaStart acc e c s
  | .dmaStop acc e c => Sys2Proof.Machine.execDmaStop acc e c s
  | .dmaAbort acc e c => Sys2Proof.Machine.execDmaAbort acc e c s
  | .dmaClear acc e c => Sys2Proof.Machine.execDmaClear acc e c s
  | .dmaDescriptorFetch e c => Sys2Proof.Machine.execDmaDescriptorFetch e c s
  | .dmaMoverStep e => Sys2Proof.Machine.execDmaMoverStep e s
  | .dmaWritebackComplete e c => Sys2Proof.Machine.execDmaWritebackComplete e c s
  | .dmaNakArrive e => Sys2Proof.Machine.execDmaNakArrive e s
  | .chStatClear acc e c => Sys2Proof.Machine.execChStatClear acc e c s
  | .bridgeFlitReceive b g flit => Sys2Proof.Machine.execBridgeFlitReceive b g flit s
  | .bridgeRetrainComplete b bad repair => Sys2Proof.Machine.execBridgeRetrainComplete b bad repair s
  | .bridgeLinkDown b => Sys2Proof.Machine.execBridgeLinkDown b s
  | .bridgeCfgWrite acc b v => Sys2Proof.Machine.execBridgeCfgWrite acc b v s
  | .bridgeErrClear acc b => Sys2Proof.Machine.execBridgeErrClear acc b s
  | .enumReceive b col row masterId facing => Sys2Proof.Machine.execEnumReceive b col row masterId facing s
  | .enumQuietExpire found => Sys2Proof.Machine.execEnumQuietExpire found s
  | .enumAssignReceive col0 row0 cols rows master body => Sys2Proof.Machine.execEnumAssignReceive col0 row0 cols rows master body s
  | .enumWaitExpire => Sys2Proof.Machine.execEnumWaitExpire s
  | .pkgNumberWrite acc v => Sys2Proof.Machine.execPkgNumberWrite acc v s
  | .timeReqReceive b => Sys2Proof.Machine.execTimeReqReceive b s
  | .timeRespReceive b => Sys2Proof.Machine.execTimeRespReceive b s
  | .tbPeriodExpire => Sys2Proof.Machine.execTbPeriodExpire s
  | .tbGenWrite acc v => Sys2Proof.Machine.execTbGenWrite acc v s
  | .pkgLoadCheckComplete w results => Sys2Proof.Machine.execPkgLoadCheckComplete w results s
  | .pkgArm acc w => Sys2Proof.Machine.execPkgArm acc w s
  | .pkgCancel acc w => Sys2Proof.Machine.execPkgCancel acc w s
  | .pkgDieReport w die report => Sys2Proof.Machine.execPkgDieReport w die report s
  | .gateRequestAccept g flips => Sys2Proof.Machine.execGateRequestAccept g flips s
  | .gateCtlAccept g peer flits => Sys2Proof.Machine.execGateCtlAccept g peer flits s
  | .gateEgressSend g => Sys2Proof.Machine.execGateEgressSend g s
  | .fabricPacketReceive g bytes => Sys2Proof.Machine.execFabricPacketReceive g bytes s
  | .ackDelayExpire g peer cls => Sys2Proof.Machine.execAckDelayExpire g peer cls s
  | .retxTimeoutExpire g peer cls seq => Sys2Proof.Machine.execRetxTimeoutExpire g peer cls seq s
  | .connectionIdleExpire g peer => Sys2Proof.Machine.execConnectionIdleExpire g peer s
  | .platInsert acc v => Sys2Proof.Machine.execPlatInsert acc v s
  | .platRemove acc v => Sys2Proof.Machine.execPlatRemove acc v s
  | .platQuery acc v => Sys2Proof.Machine.execPlatQuery acc v s
  | .gateCfgWrite acc g v => Sys2Proof.Machine.execGateCfgWrite acc g v s
  | .gateErrClear acc g => Sys2Proof.Machine.execGateErrClear acc g s
  | .gateLineDown g => Sys2Proof.Machine.execGateLineDown g s
  | .gateLineUp g => Sys2Proof.Machine.execGateLineUp g s
  | .collStart acc g c => Sys2Proof.Machine.execCollStart acc g c s
  | .collStop acc g c => Sys2Proof.Machine.execCollStop acc g c s
  | .collAbort acc g c => Sys2Proof.Machine.execCollAbort acc g c s
  | .collClear acc g c => Sys2Proof.Machine.execCollClear acc g c s
  | .collRecordFetch g c => Sys2Proof.Machine.execCollRecordFetch g c s
  | .collInputFlit g c => Sys2Proof.Machine.execCollInputFlit g c s
  | .collArriveReceive g => Sys2Proof.Machine.execCollArriveReceive g s
  | .collReadyReceive g => Sys2Proof.Machine.execCollReadyReceive g s
  | .collAbortReceive g => Sys2Proof.Machine.execCollAbortReceive g s
  | .tallyUpReceive g => Sys2Proof.Machine.execTallyUpReceive g s
  | .tallyDownReceive g => Sys2Proof.Machine.execTallyDownReceive g s
  | .dataUpReceive g => Sys2Proof.Machine.execDataUpReceive g s
  | .dataDownReceive g => Sys2Proof.Machine.execDataDownReceive g s
  | .swContribReceive g => Sys2Proof.Machine.execSwContribReceive g s
  | .swCapacityReceive g => Sys2Proof.Machine.execSwCapacityReceive g s
  | .swResultReceive g => Sys2Proof.Machine.execSwResultReceive g s
  | .swRefuseReceive g => Sys2Proof.Machine.execSwRefuseReceive g s
  | .swRetryBackoffExpire g c chunk => Sys2Proof.Machine.execSwRetryBackoffExpire g c chunk s
  | .swAttemptTimeout g c chunk => Sys2Proof.Machine.execSwAttemptTimeout g c chunk s
  | .swCapExpire g j => Sys2Proof.Machine.execSwCapExpire g j s
  | .storeAllocGrant g => Sys2Proof.Machine.execStoreAllocGrant g s
  | .arriveResendExpire g c => Sys2Proof.Machine.execArriveResendExpire g c s
  | .collWritebackComplete g c => Sys2Proof.Machine.execCollWritebackComplete g c s
  | .collStatClear acc g c => Sys2Proof.Machine.execCollStatClear acc g c s
  | .wardForm acc w => Sys2Proof.Machine.execWardForm acc w s
  | .wardActivate acc w => Sys2Proof.Machine.execWardActivate acc w s
  | .wardReset acc w => Sys2Proof.Machine.execWardReset acc w s
  | .wardRevoke acc w => Sys2Proof.Machine.execWardRevoke acc w s
  | .wardDrainComplete w => Sys2Proof.Machine.execWardDrainComplete w s
  | .wardDrainLimitExpire w => Sys2Proof.Machine.execWardDrainLimitExpire w s
  | .wardScrubComplete w => Sys2Proof.Machine.execWardScrubComplete w s
  | .wardJunctionsWrite acc w map => Sys2Proof.Machine.execWardJunctionsWrite acc w map s
  | .wardRefusalsClear acc => Sys2Proof.Machine.execWardRefusalsClear acc s
  | .watchdogExpire => Sys2Proof.Machine.execWatchdogExpire s
  | .coreResetHoldExpire => Sys2Proof.Machine.execCoreResetHoldExpire s
  | .coreSelWrite acc v => Sys2Proof.Machine.execCoreSelWrite acc v s
  | .read acc index sub => Sys2Proof.Machine.execRead acc index sub s
  | .write acc index sub len v => Sys2Proof.Machine.execWrite acc index sub len v s
  | .initUpload acc index sub => Sys2Proof.Machine.execInitUpload acc index sub s
  | .initDownload acc index sub size => Sys2Proof.Machine.execInitDownload acc index sub size s
  | .segment acc index sub xfer arg data => Sys2Proof.Machine.execSegment acc index sub xfer arg data s
  | .transferAbort acc index sub xfer code => Sys2Proof.Machine.execTransferAbort acc index sub xfer code s
  | .describe acc index sub => Sys2Proof.Machine.execDescribe acc index sub s
  | .transferTimeoutExpire xfer => Sys2Proof.Machine.execTransferTimeoutExpire xfer s
  | .mailboxRequestWrite p offset bytes => Sys2Proof.Machine.execMailboxRequestWrite p offset bytes s
  | .mailboxDoorbell p => Sys2Proof.Machine.execMailboxDoorbell p s
  | .accessStatClear acc => Sys2Proof.Machine.execAccessStatClear acc s
  | .getVersion => Sys2Proof.Machine.execGetVersion s
  | .getCapabilities => Sys2Proof.Machine.execGetCapabilities s
  | .negotiateAlgorithms asym hash measSpec => Sys2Proof.Machine.execNegotiateAlgorithms asym hash measSpec s
  | .getDigests => Sys2Proof.Machine.execGetDigests s
  | .getCertificate slot offset len => Sys2Proof.Machine.execGetCertificate slot offset len s
  | .challenge slot nonce measHash => Sys2Proof.Machine.execChallenge slot nonce measHash s
  | .getMeasurements index nonce => Sys2Proof.Machine.execGetMeasurements index nonce s
  | .fwStart acc => Sys2Proof.Machine.execFwStart acc s
  | .fwHold acc => Sys2Proof.Machine.execFwHold acc s
  | .fuseCaps acc v => Sys2Proof.Machine.execFuseCaps acc v s
  | .debugDisable acc v => Sys2Proof.Machine.execDebugDisable acc v s
  | .lifecycleAdvance acc v => Sys2Proof.Machine.execLifecycleAdvance acc v s
  | .dieReset acc v => Sys2Proof.Machine.execDieReset acc v s
  | .pkgReset acc v => Sys2Proof.Machine.execPkgReset acc v s
  | .pkgResetReceive => Sys2Proof.Machine.execPkgResetReceive s
  | .regionGate acc k => Sys2Proof.Machine.execRegionGate acc k s
  | .regionWake acc k => Sys2Proof.Machine.execRegionWake acc k s
  | .regionReset acc k => Sys2Proof.Machine.execRegionReset acc k s
  | .regionResetRelease k => Sys2Proof.Machine.execRegionResetRelease k s
  | .regionWakeComplete k => Sys2Proof.Machine.execRegionWakeComplete k s
  | .autoGateIdleExpire k => Sys2Proof.Machine.execAutoGateIdleExpire k s
  | .railTargetWrite acc k v => Sys2Proof.Machine.execRailTargetWrite acc k v s
  | .railAppliedWrite acc k v => Sys2Proof.Machine.execRailAppliedWrite acc k v s
  | .railRequestTimeout k => Sys2Proof.Machine.execRailRequestTimeout k s
  | .supplyWarnEnter rail => Sys2Proof.Machine.execSupplyWarnEnter rail s
  | .supplyWarnExit rail => Sys2Proof.Machine.execSupplyWarnExit rail s
  | .supplyResetCross rail => Sys2Proof.Machine.execSupplyResetCross rail s
  | .supplyStatClear acc => Sys2Proof.Machine.execSupplyStatClear acc s
  | .collectorCompareMismatch key copyA copyB => Sys2Proof.Machine.execCollectorCompareMismatch key copyA copyB s
  | .faultClear acc v => Sys2Proof.Machine.execFaultClear acc v s
  | .faultSevWrite acc src v => Sys2Proof.Machine.execFaultSevWrite acc src v s
  | .faultThresholdWrite acc v => Sys2Proof.Machine.execFaultThresholdWrite acc v s
  | .inject acc v => Sys2Proof.Machine.execInject acc v s
  | .testPortInjectAccess v => Sys2Proof.Machine.execTestPortInjectAccess v s
  | .wdtKick acc v => Sys2Proof.Machine.execWdtKick acc v s
  | .patrolScrubRead store flips => Sys2Proof.Machine.execPatrolScrubRead store flips s
  | .storeCorrClear acc => Sys2Proof.Machine.execStoreCorrClear acc s
  | .recordWriteComplete verified => Sys2Proof.Machine.execRecordWriteComplete verified s
  | .recorderScanComplete => Sys2Proof.Machine.execRecorderScanComplete s
  | .operatingHourTick => Sys2Proof.Machine.execOperatingHourTick s
  | .retireCol acc phys => Sys2Proof.Machine.execRetireCol acc phys s
  | .retireRow acc phys => Sys2Proof.Machine.execRetireRow acc phys s
  | .retirementResume => Sys2Proof.Machine.execRetirementResume s
  | .steerWire acc n point wire => Sys2Proof.Machine.execSteerWire acc n point wire s
  | .wireSteerStage n point spareOk => Sys2Proof.Machine.execWireSteerStage n point spareOk s
  | .steerLane acc n lane => Sys2Proof.Machine.execSteerLane acc n lane s
  | .marginMeasure n point steps => Sys2Proof.Machine.execMarginMeasure n point steps s
  | .paceDriftMeasure k drift => Sys2Proof.Machine.execPaceDriftMeasure k drift s
  | .suspectHourExpire => Sys2Proof.Machine.execSuspectHourExpire s
  | .autoBridgeCheck b => Sys2Proof.Machine.execAutoBridgeCheck b s
  | .counterGather => Sys2Proof.Machine.execCounterGather s
  | .cntCfgWrite acc k v => Sys2Proof.Machine.execCntCfgWrite acc k v s
  | .wardEvtEnWrite acc w bits => Sys2Proof.Machine.execWardEvtEnWrite acc w bits s
  | .traceRecordStore n => Sys2Proof.Machine.execTraceRecordStore n s
  | .traceTrigger acc => Sys2Proof.Machine.execTraceTrigger acc s
  | .traceRestart acc => Sys2Proof.Machine.execTraceRestart acc s
  | .traceCtrlWrite acc v => Sys2Proof.Machine.execTraceCtrlWrite acc v s
  | .hallRefWrite acc v => Sys2Proof.Machine.execHallRefWrite acc v s
  | .hallTimeRespReceive t1 t2 t3 t4 refError => Sys2Proof.Machine.execHallTimeRespReceive t1 t2 t3 t4 refError s
  | .hallMeasureTimeout => Sys2Proof.Machine.execHallMeasureTimeout s
  | .progressWatchExamine => Sys2Proof.Machine.execProgressWatchExamine s
  | .waitGraphComplete => Sys2Proof.Machine.execWaitGraphComplete s
  | .freeze acc => Sys2Proof.Machine.execFreeze acc s
  | .freezeComplete => Sys2Proof.Machine.execFreezeComplete s
  | .release acc => Sys2Proof.Machine.execRelease acc s
  | .releaseComplete => Sys2Proof.Machine.execReleaseComplete s
  | .capture acc => Sys2Proof.Machine.execCapture acc s
  | .captureComplete => Sys2Proof.Machine.execCaptureComplete s
  | .hangStatusClear acc => Sys2Proof.Machine.execHangStatusClear acc s
  | .paceMinClear acc k => Sys2Proof.Machine.execPaceMinClear acc k s
  | .tlinkCorrClear acc n => Sys2Proof.Machine.execTlinkCorrClear acc n s
  | .bPortStatusClear acc n => Sys2Proof.Machine.execBPortStatusClear acc n s
  | .rnStatusClear acc n => Sys2Proof.Machine.execRnStatusClear acc n s
  | .txnStatClear acc n => Sys2Proof.Machine.execTxnStatClear acc n s
  | .probeCountClear acc n => Sys2Proof.Machine.execProbeCountClear acc n s
  | .cnHandshake n => Sys2Proof.Machine.execCnHandshake n s
  | .trResponseBeat unit => Sys2Proof.Machine.execTrResponseBeat unit s

end Sys2Proof.Machine
end

