-- ==== Sys2Proof/Safety.lean ====
section
/-! DEFINITION. The words claims are made in: a legal floorplan, a sound state, a request that its object takes, and what
a command leaves as it was. -/

namespace Sys2Proof.Machine

/-- What a build of the family fixes (R8, R24, R514): its logical and physical mesh, its spare columns and rows, the most memory
attachments, and the fewest and the most fabric gates. -/
structure Build where
  logical : Nat × Nat
  physical : Nat × Nat
  spareCols : List Nat
  spareRows : List Nat
  attachments : Nat
  gates : Nat × Nat
  deriving DecidableEq, Repr

/-- SV5-48, SV5-80 and SV5-120. -/
def builds : List Build :=
  [⟨(8, 6), (9, 6), [4], [], 8, (8, 8)⟩, ⟨(10, 8), (12, 8), [3, 8], [], 12, (0, 16)⟩, ⟨(12, 10), (14, 11), [4, 9], [5], 16, (0, 16)⟩]

/-- The integration is one of build `b`. -/
def Integration.fits (c : Integration) (b : Build) : Bool :=
  (c.cols, c.rows) == b.logical && (c.pcols, c.prows) == b.physical && c.spareCols == b.spareCols && c.spareRows == b.spareRows &&
    decide (c.count 1 ≤ b.attachments) && decide (b.gates.1 ≤ c.count 2) && decide (c.count 2 ≤ b.gates.2) &&
    c.physRegion.length == b.physical.1 * b.physical.2

/-- The limits of R8 and R22 to R24: a build of the family, its edge units within their numbers and each instance at one port, four
DMA engines, one management tile, bridges that face different ways, and no junction with both side attachments. -/
def Integration.legal (c : Integration) : Bool :=
  let js := List.range c.njs
  let once := fun (kind : Nat) => (List.range 16).all (fun i => decide ((js.filter (fun n => c.bKind n == kind && c.bIndex n == i)).length ≤ 1))
  let ways := c.bridgeFacing.take (c.count 4)
  builds.any c.fits && decide (1 ≤ c.count 3) && decide (c.count 3 ≤ 2) && decide (c.count 4 ≤ 4) && [1, 2, 3, 4].all once &&
    js.all (fun n => decide (c.bKind n ≤ 4)) && c.dmaSides.length == 4 && ways.all (fun d => decide (ways.count d ≤ 1) && decide (d < 4)) &&
    (js.filter (fun n => c.attachAt n / 64 % 2 == 1)).length == 1 &&
    js.all (fun n => !(c.attachAt n / 64 % 2 == 1 && c.attachAt n / 128 % 2 == 1)) &&
    decide (1 ≤ c.regions) && decide (c.regions ≤ 8) && js.all (fun n => decide (c.physRegion.getD n 0 < c.regions))

/-- What holds of every state a die can be in: its floorplan is legal. -/
def State.sound (s : State) : Bool := s.cfg.legal

/-- The table of object values is in its canonical form: rising keys, and no value that is its object's default. -/
def State.canonical (s : State) : Bool := Tbl.wf Obj.dflt s.objs

/-- A write of the object with key `k` is executed now and passes the checks of R437 that hold for every object; `r` is the
object's row. -/
def State.MayWrite (s : State) (acc : Access) (k : Nat) (r : ObjRow) : Prop :=
  s.serves acc = true ∧ s.check acc (k / 256) (k % 256) .write (typeLen (s.typeOf (k / 256) (k % 256))) = .ok r

/-- The value such a write carries to the owning chapter's checks: the bits that its level may write, over the others as they are
(R435). -/
def State.value (s : State) (acc : Access) (k : Nat) (r : ObjRow) (v : Val) : Val := r.merge k acc.level (s.obj k) v

/-- Every object but those named keeps its value. -/
def State.KeepsObjects (s t : State) (ks : List Nat) : Prop := ∀ k, k ∉ ks → t.obj k = s.obj k

/-- Every part of the state but the objects is as it was. -/
def State.SameButObjects (s t : State) : Prop := { t with objs := s.objs } = s

end Sys2Proof.Machine
end

