-- ==== Sys2Proof/Certificates/Slice0/Obligations.lean ====
section
/-! DEFINITION. The statements. Where one says that a command writes an object, `r` is the row of that object, its hypothesis
`MayWrite` says that the request is served at its turn and passes the checks every object shares (R437), and `State.written` is
the answer that follows the effect (`RequestsAreAnswered` says what an answer does). -/

open Sys2Proof Sys2Proof.Machine

/-! ## The whole machine -/

/-- A step runs the command at the front of the queue, on the state whose queue holds the rest. -/
def Obligations.StepRunsTheFrontCommand : Prop :=
  ∀ (c : Instr) (rest : List Instr) (s : State), step { s with pending := c :: rest } = exec c { s with pending := rest }

/-- With no command waiting, one nanosecond of the time base passes, if it runs, and nothing else happens: the model's choice
(assumption 1). -/
def Obligations.EmptyQueueLetsOneNanosecondPass : Prop :=
  ∀ s : State, s.pending = [] →
    (s.running = true → step s = .next { s with
        now := s.now + 1
        stoppedFor := if s.timersStopped then s.stoppedFor + 1 else s.stoppedFor
        frozenFor := if s.frozen then s.frozenFor + 1 else s.frozenFor }) ∧
    (s.running = false → step s = .next s)

/-- The state after reset: the reference integration is legal, the die is held in reset at time 0, no command waits, nothing has
been driven, every scalar object holds its default, no DOMAIN has been written, no fault record waits or stands, no transfer is open,
the trace store is empty, and no freeze is on. -/
def Obligations.ResetLeavesEveryObjectAtItsDefault : Prop :=
  State.reset.sound = true ∧ State.reset.canonical = true ∧ State.reset.pending = [] ∧ State.reset.running = false ∧
    State.reset.now = 0 ∧ State.reset.out = [] ∧ (∀ k, State.reset.obj k = Obj.dflt k) ∧ (∀ k, State.reset.dom? k = none) ∧
    (∀ r ∈ catalogue, ∀ k, rowOf k = some r → k < objKey 0x1680 0 → State.reset.obj k = BitVec.ofNat 64 r.dflt) ∧
    State.reset.flt.queue = [] ∧ State.reset.flt.slots = [] ∧ State.reset.dict.transfers = [] ∧ State.reset.obs.store = [] ∧
    State.reset.frozen = false

/-- No command changes the floorplan: what the integrator fixed (class F) stays, so a legal machine stays legal (R8, R22 to R24). -/
def Obligations.EveryStepKeepsTheFloorplan : Prop :=
  ∀ s t : State, step s = .next t → t.cfg = s.cfg ∧ (s.sound = true → t.sound = true)

/-- Every step keeps the table of object values in its canonical form, so that equal values are equal data. -/
def Obligations.EveryStepKeepsTheCanonicalForm : Prop :=
  ∀ s t : State, s.canonical = true → step s = .next t → t.canonical = true

/-! ## The dictionary -/

/-- What an answer does: it counts in ACCESS_STAT, an abort among the aborts too, and leaves by the path of the request. On the firmware
path and the bus the answer is driven, and the bus says by an in-band interrupt of 0xAE that it awaits reading, unless those are
disabled; on a mailbox it stands in RESPONSE with BUSY clear and DONE set; an OBJECT request's slot at the tile is answered with 9
beats; a service message's five words leave for the requester's socket. No object but ACCESS_STAT changes on any path (R440 to R444,
R453). -/
def Obligations.RequestsAreAnswered : Prop :=
  ∀ (s : State) (acc : Access) (cmd i sub : Nat) (r : Reply),
    (acc.path = .firmware → ∃ t, s.respond acc cmd i sub r = t ∧ t.out = s.out ++ [.answer .firmware (r.bytes cmd i sub acc.reqId)] ∧
      t.rd .accesses = min (s.rd .accesses + 1) (2 ^ 24 - 1) ∧
      t.rd .aborts = (if r.status = 1 then min (s.rd .aborts + 1) (2 ^ 16 - 1) else s.rd .aborts) ∧
      (∀ k, k ≠ Obj.accessStat → t.obj k = s.obj k) ∧ t = { s with objs := t.objs, out := t.out }) ∧
    (acc.path = .bus → ∀ mtag body, s.dict.bus = some (mtag, body) → ∃ t, s.respond acc cmd i sub r = t ∧
      t.out = s.out ++ [.mctp 0x7F mtag (ianaBytes (s.obj Obj.mctpIana).toNat ++ r.bytes cmd i sub acc.reqId)] ++
        (if s.pin.ibiOff then [] else [.ibi 0xAE]) ∧
      t.dict.bus = none ∧ t.rd .accesses = min (s.rd .accesses + 1) (2 ^ 24 - 1) ∧
      t.rd .aborts = (if r.status = 1 then min (s.rd .aborts + 1) (2 ^ 16 - 1) else s.rd .aborts)) ∧
    (∀ p, acc.path = .mailbox p → ∃ t, s.respond acc cmd i sub r = t ∧ (t.mailbox p).response = r.bytes cmd i sub acc.reqId ∧
      (t.mailbox p).busy = false ∧ (t.mailbox p).done = true ∧ (t.mailbox p).answered = (s.mailbox p).answered + 1 ∧
      t.rd .accesses = min (s.rd .accesses + 1) (2 ^ 24 - 1) ∧
      t.rd .aborts = (if r.status = 1 then min (s.rd .aborts + 1) (2 ^ 16 - 1) else s.rd .aborts)) ∧
    (∀ (a : State) (unit : BitVec 16) (tag : BitVec 10) (gen : BitVec 4),
      ((∃ w, acc.path = .inBand unit w tag) ∨ ∃ d, acc.path = .peer d unit tag) → s.tileSlot unit tag = some gen →
      a = (if r.status = 1 then (s.bump .accesses 1).bump .aborts 1 else s.bump .accesses 1) →
      s.respond acc cmd i sub r = a.slotAnswer 0xC1 unit tag gen Status.okay (beatsOf 9 (r.bytes cmd i sub acc.reqId))) ∧
    (∀ (a : State) (src : BitVec 16) (w : BitVec 4) (k : BitVec 5), acc.path = .service src w k →
      a = (if r.status = 1 then (s.bump .accesses 1).bump .aborts 1 else s.bump .accesses 1) →
      s.respond acc cmd i sub r = (({ a with dict := s.dict.served src w acc.reqId } : State).serviceNext).ctlReply 0xC1 src w k
        (serviceWords r cmd i sub acc.reqId)) ∧
    (∀ k, k ≠ Obj.accessStat → (s.respond acc cmd i sub r).obj k = s.obj k)

/-- READ answers the value the object has at the request's level, and DESCRIBE its type, levels, class and largest length
(R444, R447); a read that a check stops is answered with the check's abort code. Neither changes the object.
Completes: read, describe. -/
def Obligations.ReadAndDescribeAnswer : Prop :=
  ∀ (s : State) (acc : Access) (index : BitVec 16) (sub : BitVec 8) (r : ObjRow), s.serves acc = true →
    (s.check acc index.toNat sub.toNat .read 0 = .ok r →
      exec (.read acc index sub) s = .next (s.respond acc 1 index.toNat sub.toNat
        (Reply.done r.ty 0 (typeLen r.ty) (leBytes (typeLen r.ty) (s.valueOf acc.level index.toNat sub.toNat).toNat)))) ∧
    (∀ a, s.check acc index.toNat sub.toNat .read 0 = .error a →
      exec (.read acc index sub) s = .next (s.respond acc 1 index.toNat sub.toNat
        (Reply.aborted (s.typeOf index.toNat sub.toNat) 0 a))) ∧
    (s.checkHead acc index.toNat sub.toNat = .ok r →
      exec (.describe acc index sub) s = .next (s.respond acc 7 index.toNat sub.toNat
        (Reply.done r.ty 0 0 (leBytes 1 r.ty ++ leBytes 1 r.rd ++ leBytes 1 r.wr ++ leBytes 1 r.cls.code ++
          leBytes 4 (s.maxLen r index.toNat sub.toNat)))))

/-- A request at a level below the one its object requires, or at a level its path is barred from, is refused and leaves the object
unchanged (R14). -/
def Obligations.AccessBelowItsLevelIsRefused : Prop :=
  ∀ (s : State) (acc : Access) (index : BitVec 16) (sub : BitVec 8) (len : Nat) (v : BitVec 64) (r : ObjRow),
    s.serves acc = true → isPeer acc.path = false → s.pathLimit acc.path ≠ 7 →
    (s.bootRuns = false ∨ (inBandPath acc.path = false ∧ objKey index.toNat sub.toNat ≠ Obj.fwImage)) →
    s.find index.toNat sub.toNat = .ok r → s.presence index.toNat sub.toNat = .here →
    (acc.level.toNat ≤ s.pathLimit acc.path → r.wr ≠ 15 → acc.level.toNat < r.wr →
      exec (.write acc index sub len v) s = .next (s.abortRequest acc 2 index.toNat sub.toNat 0 .level)) ∧
    (acc.level.toNat ≤ s.pathLimit acc.path → r.rd ≠ 15 → acc.level.toNat < r.rd →
      exec (.read acc index sub) s = .next (s.abortRequest acc 1 index.toNat sub.toNat 0 .level)) ∧
    (s.pathLimit acc.path < acc.level.toNat →
      exec (.write acc index sub len v) s = .next (s.abortRequest acc 2 index.toNat sub.toNat 0 .pathBarred) ∧
      exec (.read acc index sub) s = .next (s.abortRequest acc 1 index.toNat sub.toNat 0 .pathBarred)) ∧
    (∀ cmd a k, k ≠ Obj.accessStat → (s.abortRequest acc cmd index.toNat sub.toNat 0 a).obj k = s.obj k)

/-- A WRITE that a check of R437 stops is answered with that check's abort code and does nothing else; a download or upload
likewise. A write to LIVE_BANK is refused with LIVE_BANK (R138). -/
def Obligations.StoppedRequestsDoNothing : Prop :=
  ∀ (s : State) (acc : Access) (index : BitVec 16) (sub : BitVec 8) (a : Abort), s.serves acc = true →
    (∀ len v, s.check acc index.toNat sub.toNat .write len = .error a →
      exec (.write acc index sub len v) s = .next (s.abortRequest acc 2 index.toNat sub.toNat 0 a)) ∧
    (servicePath acc.path = false → s.check acc index.toNat sub.toNat .upload 0 = .error a →
      exec (.initUpload acc index sub) s = .next (s.abortRequest acc 3 index.toNat sub.toNat 0 a)) ∧
    (servicePath acc.path = false → s.check acc index.toNat sub.toNat .download 0 = .error a →
      ∀ size, exec (.initDownload acc index sub size) s = .next (s.abortRequest acc 4 index.toNat sub.toNat 0 a)) ∧
    (∀ r, acc.path = .firmware → s.firmwareRuns = true → index = 0x1411 → s.find 0x1411 sub.toNat = .ok r → sub ≠ 0 →
      s.presence 0x1411 sub.toNat = .here →
      ∀ size, exec (.initDownload acc index sub size) s = .next (s.abortRequest acc 4 0x1411 sub.toNat 0 .liveBank))

/-- A WRITE of an object whose chapter sets no condition stores the value, merged at the request's level.
Completes: write. -/
def Obligations.PlainObjectsAreStored : Prop :=
  ∀ (s : State) (acc : Access) (index : BitVec 16) (sub : BitVec 8) (len : Nat) (v : BitVec 64) (r : ObjRow),
    objKey index.toNat sub.toNat ∈ [Obj.coreBudget, Obj.faultNotify, Obj.recPolicy, Obj.traceMatch, Obj.watchCfg, Obj.wardPolicy 3,
      Obj.probeMatch 5, Obj.probeMask 5, Obj.service 2, Obj.mirrorAll 1] → isPeer acc.path = false →
    s.MayWrite acc (objKey index.toNat sub.toNat) r → len = typeLen (s.typeOf index.toNat sub.toNat) →
    exec (.write acc index sub len v) s = .next ((s.setObj (objKey index.toNat sub.toNat)
      (s.value acc (objKey index.toNat sub.toNat) r (BitVec.ofNat 64 (v.toNat % 2 ^ (8 * len))))).written acc
        (objKey index.toNat sub.toNat) r.ty)

/-- INIT opens a transfer under a handle that no open one has, and answers it (R445).
Completes: initUpload, initDownload. -/
def Obligations.InitOpensATransfer : Prop :=
  ∀ (s : State) (acc : Access) (index : BitVec 16) (sub : BitVec 8) (r : ObjRow),
    s.serves acc = true → servicePath acc.path = false → s.dict.transfers.length < 8 →
    (s.check acc index.toNat sub.toNat .upload 0 = .ok r →
      ((s.dict.transfers.filter (fun t => t.upload)).map (fun t => t.size)).sum + (s.bytesOf r index.toNat sub.toNat).length ≤ 524288 →
      ∃ (h : BitVec 16) (n : Nat), h ≠ 0 ∧ (∀ x ∈ s.dict.transfers, x.handle ≠ h) ∧
        exec (.initUpload acc index sub) s = .next (({ s with dict := { s.dict with
          transfers := s.dict.transfers ++ [⟨h, acc.path, objKey index.toNat sub.toNat, true, s.bytesOf r index.toNat sub.toNat,
            (s.bytesOf r index.toNat sub.toNat).length, 0, [], s.now⟩]
          nextHandle := n } } : State).respond acc 3 index.toNat sub.toNat
            (Reply.done 9 h (s.bytesOf r index.toNat sub.toNat).length []))) ∧
    (∀ size : BitVec 32, s.check acc index.toNat sub.toNat .download 0 = .ok r → size.toNat ≤ r.maxLen →
      (∀ x ∈ s.dict.transfers, x.upload = true ∨ x.key ≠ objKey index.toNat sub.toNat) →
      index ≠ 0x1401 → index ≠ 0x1920 → objKey index.toNat sub.toNat ≠ Obj.fwImage →
      ∃ (h : BitVec 16) (n : Nat), h ≠ 0 ∧ (∀ x ∈ s.dict.transfers, x.handle ≠ h) ∧
        exec (.initDownload acc index sub size) s = .next (({ s with dict := { s.dict with
          transfers := s.dict.transfers ++ [⟨h, acc.path, objKey index.toNat sub.toNat, false, [], size.toNat, 0, [], s.now⟩]
          nextHandle := n } } : State).respond acc 4 index.toNat sub.toNat (Reply.done 9 h 0 [])))

/-- SEGMENT moves the next bytes of its transfer and answers with them; the last one of an upload closes it, and the last one of a
download gives the value to its object, or ends with LENGTH where the bytes differ from the size; a repeat changes nothing but its time, any other sequence ends it; ABORT ends it, and so does a second without a SEGMENT, each with its cause
recorded (R445, R446).
Completes: segment, transferAbort, transferTimeoutExpire. -/
def Obligations.SegmentsMoveTransfers : Prop :=
  ∀ (s : State) (acc : Access) (index : BitVec 16) (sub : BitVec 8) (xfer : BitVec 16) (arg : BitVec 32) (data : List Byte)
    (r : ObjRow) (t : Transfer),
    s.serves acc = true → servicePath acc.path = false → s.checkHead acc index.toNat sub.toNat = .ok r →
    s.transferOf acc index.toNat sub.toNat xfer = some t →
    s.checkRest acc index.toNat sub.toNat (if t.upload then .upload else .download) 0 r = .ok () →
    (t.upload = true → arg.toNat % 65536 = t.next → t.next < 65536 → 1024 * (t.next + 1) < t.size →
      exec (.segment acc index sub xfer arg data) s = .next ((s.setTransfer { t with
          next := t.next + 1
          last := leBytes 4 (segmentArg t.next ((t.bytes.drop (1024 * t.next)).take 1024).length false) ++
            (t.bytes.drop (1024 * t.next)).take 1024
          at_ := s.now }).respond acc 5 index.toNat sub.toNat
        (Reply.done 9 xfer (segmentArg t.next ((t.bytes.drop (1024 * t.next)).take 1024).length false)
          ((t.bytes.drop (1024 * t.next)).take 1024)))) ∧
    (t.upload = true → arg.toNat % 65536 = t.next → t.next < 65536 → t.size ≤ 1024 * (t.next + 1) →
      exec (.segment acc index sub xfer arg data) s = .next (({ s with dict := { s.dict with
          transfers := s.dict.transfers.filter (fun x => x.handle != t.handle) } } : State).respond acc 5 index.toNat sub.toNat
        (Reply.done 9 xfer (segmentArg t.next ((t.bytes.drop (1024 * t.next)).take 1024).length true)
          ((t.bytes.drop (1024 * t.next)).take 1024)))) ∧
    (t.upload = false → arg.toNat % 65536 = t.next → t.next < 65536 → arg.getLsbD 31 = false →
      0 < arg.toNat / 65536 % 2048 → arg.toNat / 65536 % 2048 ≤ 1024 → arg.toNat / 65536 % 2048 ≤ data.length →
      t.bytes.length + arg.toNat / 65536 % 2048 ≤ t.size →
      exec (.segment acc index sub xfer arg data) s = .next ((s.setTransfer { t with
          bytes := t.bytes ++ data.take (arg.toNat / 65536 % 2048)
          next := t.next + 1
          last := leBytes 4 t.next
          at_ := s.now }).respond acc 5 index.toNat sub.toNat (Reply.done 9 xfer t.next []))) ∧
    (t.upload = false → arg.toNat % 65536 = t.next → t.next < 65536 → arg.getLsbD 31 = true →
      0 < arg.toNat / 65536 % 2048 → arg.toNat / 65536 % 2048 ≤ 1024 → arg.toNat / 65536 % 2048 ≤ data.length →
      (t.bytes.length + arg.toNat / 65536 % 2048 = t.size → ∀ u,
        Objects.take index.toNat sub.toNat (t.bytes ++ data.take (arg.toNat / 65536 % 2048)) (s.closeTransfer t) = .ok u →
        exec (.segment acc index sub xfer arg data) s = .next ((u.unspoilt (objKey index.toNat sub.toNat)).respond acc 5
          index.toNat sub.toNat (Reply.done 9 xfer (segmentArg t.next 0 true) []))) ∧
      (t.bytes.length + arg.toNat / 65536 % 2048 ≠ t.size →
        exec (.segment acc index sub xfer arg data) s =
          .next ((s.endTransfer t .length).abortRequest acc 5 index.toNat sub.toNat xfer .length))) ∧
    (t.next < 65536 → arg.toNat % 65536 + 1 = t.next →
      exec (.segment acc index sub xfer arg data) s = .next ((s.setTransfer { t with at_ := s.now }).respond acc 5 index.toNat sub.toNat
        (Reply.done 9 xfer (leAt t.last 0 4) (t.last.drop 4)))) ∧
    (t.next < 65536 → arg.toNat % 65536 ≠ t.next → arg.toNat % 65536 + 1 ≠ t.next →
      exec (.segment acc index sub xfer arg data) s =
        .next ((s.endTransfer t .sequence).abortRequest acc 5 index.toNat sub.toNat xfer .sequence)) ∧
    (∀ code, exec (.transferAbort acc index sub xfer code) s =
      .next ((s.endTransfer t .requesterAbort).respond acc 6 index.toNat sub.toNat (Reply.done 9 xfer 0 []))) ∧
    (s.dict.transfers.find? (fun x => x.handle == xfer) = some t →
      exec (.transferTimeoutExpire xfer) s =
        .next (((s.advanceTo (t.at_ + 1000000000)).bump .abandoned 1).endTransfer t .transferTimeout)) ∧
    (∀ a, t.upload = true → s.endTransfer t a = { s with dict := { s.dict with
      transfers := s.dict.transfers.filter (fun x => x.handle != t.handle)
      ended := some (t.handle, BitVec.ofNat 32 a.code) } })

/-! ## Counters that a write clears -/

/-- A write that its object takes sets the counter to zero, PACE_MIN to 0xFFFF, and SOCK_STAT's DROPS and HIGH_MSGS to zero, and is
answered; nothing else changes (R78, R111, R114, R194, R233, R269, R300, R332, R365, R407, R425, R451, R476, R498, R554).
Completes: paceMinClear, tlinkCorrClear, bPortStatusClear, rnStatusClear, txnStatClear, probeCountClear, chStatClear, sockStatClear,
bridgeErrClear, gateErrClear, collStatClear, wardRefusalsClear, accessStatClear, supplyStatClear, storeCorrClear, hangStatusClear. -/
def Obligations.ClearsSetTheirCountersToZero : Prop :=
  ∀ (s : State) (acc : Access) (n m : Nat) (r : ObjRow),
    (s.MayWrite acc (Obj.paceMin n) r →
      exec (.paceMinClear acc n) s = .next ((s.setObj (Obj.paceMin n) 0xFFFF).written acc (Obj.paceMin n) r.ty)) ∧
    (s.MayWrite acc (Obj.tlinkCorr n) r →
      exec (.tlinkCorrClear acc n) s = .next ((s.setObj (Obj.tlinkCorr n) 0).written acc (Obj.tlinkCorr n) r.ty)) ∧
    (s.MayWrite acc (Obj.bPortStatus n) r →
      exec (.bPortStatusClear acc n) s = .next ((s.setObj (Obj.bPortStatus n) 0).written acc (Obj.bPortStatus n) r.ty)) ∧
    (s.MayWrite acc (Obj.rnStatus n) r →
      exec (.rnStatusClear acc n) s = .next ((s.setObj (Obj.rnStatus n) 0).written acc (Obj.rnStatus n) r.ty)) ∧
    (s.MayWrite acc (Obj.txnStat n) r →
      exec (.txnStatClear acc n) s = .next ((s.setObj (Obj.txnStat n) 0).written acc (Obj.txnStat n) r.ty)) ∧
    (s.MayWrite acc (Obj.probeCount n) r →
      exec (.probeCountClear acc n) s = .next ((s.setObj (Obj.probeCount n) 0).written acc (Obj.probeCount n) r.ty)) ∧
    (s.MayWrite acc (Obj.chStat (16 * n + m)) r →
      exec (.chStatClear acc n m) s = .next ((s.setObj (Obj.chStat (16 * n + m)) 0).written acc (Obj.chStat (16 * n + m)) r.ty)) ∧
    (s.MayWrite acc (Obj.sockStat n m) r → m < s.cfg.sockets n →
      exec (.sockStatClear acc n m) s =
        .next (((s.wr (.drops n m) 0).wr (.highMsgs n m) 0).written acc (Obj.sockStat n m) r.ty)) ∧
    (s.MayWrite acc (Obj.bridgeErr n) r →
      exec (.bridgeErrClear acc n) s = .next ((s.setObj (Obj.bridgeErr n) 0).written acc (Obj.bridgeErr n) r.ty)) ∧
    (s.MayWrite acc (Obj.gateErr n) r →
      exec (.gateErrClear acc n) s = .next ((s.setObj (Obj.gateErr n) 0).written acc (Obj.gateErr n) r.ty)) ∧
    (s.MayWrite acc (Obj.collStat (32 * n + m)) r →
      exec (.collStatClear acc n m) s =
        .next ((s.setObj (Obj.collStat (32 * n + m)) 0).written acc (Obj.collStat (32 * n + m)) r.ty)) ∧
    (s.MayWrite acc Obj.wardRefusals r →
      exec (.wardRefusalsClear acc) s = .next ((s.setObj Obj.wardRefusals 0).written acc Obj.wardRefusals r.ty)) ∧
    (s.MayWrite acc Obj.accessStat r →
      exec (.accessStatClear acc) s = .next ((s.setObj Obj.accessStat 0).written acc Obj.accessStat r.ty)) ∧
    (s.MayWrite acc Obj.supplyStat r →
      exec (.supplyStatClear acc) s = .next ((s.setObj Obj.supplyStat 0).written acc Obj.supplyStat r.ty)) ∧
    (s.MayWrite acc Obj.storeCorr r →
      exec (.storeCorrClear acc) s = .next ((s.setObj Obj.storeCorr 0).written acc Obj.storeCorr r.ty)) ∧
    (s.MayWrite acc Obj.hangStatus r →
      exec (.hangStatusClear acc) s = .next ((s.setObj Obj.hangStatus 0).written acc Obj.hangStatus r.ty))

/-! ## Supply regions and rails -/

/-- REGION_CTRL: GATE switches an idle ACTIVE region off and refuses one that may not be gated, recording why; WAKE starts the wake
of a gated region; RESET resets a region for 10 µs (R463 to R466, R476).
Completes: regionGate, regionWake, regionReset. -/
def Obligations.RegionCommandsAct : Prop :=
  ∀ (s : State) (acc : Access) (k : Nat) (r : ObjRow), s.MayWrite acc (Obj.regionCtrl k) r →
    (s.regionStateOf k = 2 → s.gateRefusal k = 0 →
      exec (.regionGate acc k) s = .next (((s.setObj (Obj.regionCtrl k) 1).regionSleep k).written acc (Obj.regionCtrl k) r.ty) ∧
      ((s.setObj (Obj.regionCtrl k) 1).regionSleep k).regionStateOf k = 4) ∧
    (s.regionStateOf k = 2 ∨ s.regionStateOf k = 3 → s.gateRefusal k ≠ 0 →
      exec (.regionGate acc k) s = .next ((s.abortRequest acc 2 (Obj.regionCtrl k / 256) (Obj.regionCtrl k % 256) 0 .inUse).wr
        (.regionRefuse k) (s.gateRefusal k))) ∧
    (k < 8 → s.regionStateOf k = 4 → s.frozen = false → ∃ t : State,
      exec (.regionWake acc k) s = .next (t.written acc (Obj.regionCtrl k) r.ty) ∧ t.regionStateOf k = 3 ∧
      t.rd (.regionWakes k) = (s.rd (.regionWakes k) + 1) % 65536 ∧ t.obj (Obj.regionCtrl k) = 2 ∧
      (∀ j, j ≠ Obj.regionCtrl k → j ≠ Obj.regionState k → t.obj j = s.obj j)) ∧
    (s.regionStateOf k ≠ 4 →
      exec (.regionWake acc k) s = .next ((s.setObj (Obj.regionCtrl k) 2).written acc (Obj.regionCtrl k) r.ty)) ∧
    (2 ≤ s.regionStateOf k →
      exec (.regionReset acc k) s = .next (((s.setObj (Obj.regionCtrl k) 3).regionFall k (some (s.now + 10000))).written acc
        (Obj.regionCtrl k) r.ty)) ∧
    (s.regionStateOf k ≤ 1 →
      exec (.regionReset acc k) s = .next ((s.setObj (Obj.regionCtrl k) 3).written acc (Obj.regionCtrl k) r.ty))

/-- A region held in reset is released when its time has come and, where its rail holds it, that stands above warning: its class W and V values take their
defaults and it enters ACTIVE. A wake ends with the region ACTIVE; an idle region with AUTO_GATE set is gated at the end of IDLE_US
(R464, R466, R467).
Completes: regionResetRelease, regionWakeComplete, autoGateIdleExpire. -/
def Obligations.RegionsComeAndGoByThemselves : Prop :=
  ∀ (s : State) (k : Nat), s.running = true → k < s.cfg.regions →
    (s.regionStateOf k = 1 → s.pwr.unstarted.contains k = false → (s.pwr.railHeld.contains k = true → s.pwr.below.contains k = false) →
      s.pwr.down.contains k = false →
      ∃ a, a = s.advanceTo (Tbl.get 0 s.pwr.resetUntil k) ∧
        exec (.regionResetRelease k) s = .next (((a.regionDefaults k .w).countLost (a.regionJunctions k)).regionActive k)) ∧
    (s.regionStateOf k = 3 → exec (.regionWakeComplete k) s = .next (s.regionActive k)) ∧
    (s.regionStateOf k = 2 → s.rd (.autoGate k) = 1 → s.warn = false → s.safe = false →
      ∀ a, a = s.advanceTo (Tbl.get 0 s.pwr.lastActive k + 1000 * s.rd (.idleUs k)) →
        (a.gateRefusal k = 0 → exec (.autoGateIdleExpire k) s = .next (a.regionSleep k) ∧ (a.regionSleep k).regionStateOf k = 4) ∧
        (a.gateRefusal k ≠ 0 → a.regionStateOf k = 2 →
          exec (.autoGateIdleExpire k) s = .next (a.wr (.regionRefuse k) (a.gateRefusal k))))

/-- RAIL_TARGET takes 650 to 850 mV and tells the board controller with an in-band interrupt of 0x52, unless those are
disabled; RAIL_APPLIED is stored. From the moment they differ a time runs, which ends when they agree; after 10 ms of it the rail-request source is raised (R468).
Completes: railTargetWrite, railAppliedWrite, railRequestTimeout. -/
def Obligations.RailsAreAskedForAndWatched : Prop :=
  ∀ (s : State) (acc : Access) (k : Nat) (v : BitVec 16) (r : ObjRow),
    (s.MayWrite acc (Obj.railTarget k) r → 650 ≤ (s.value acc (Obj.railTarget k) r (v.setWidth 64)).toNat →
      (s.value acc (Obj.railTarget k) r (v.setWidth 64)).toNat ≤ 850 →
      exec (.railTargetWrite acc k v) s = .next ((((s.setObj (Obj.railTarget k)
        (s.value acc (Obj.railTarget k) r (v.setWidth 64))).railNote k).ibi 0x52).written acc (Obj.railTarget k) r.ty)) ∧
    (s.MayWrite acc (Obj.railTarget k) r → ((s.value acc (Obj.railTarget k) r (v.setWidth 64)).toNat < 650 ∨
        850 < (s.value acc (Obj.railTarget k) r (v.setWidth 64)).toNat) →
      exec (.railTargetWrite acc k v) s =
        .next (s.abortRequest acc 2 (Obj.railTarget k / 256) (Obj.railTarget k % 256) 0 .outOfRange)) ∧
    (s.MayWrite acc (Obj.railApplied k) r →
      exec (.railAppliedWrite acc k v) s = .next (((s.setObj (Obj.railApplied k)
        (s.value acc (Obj.railApplied k) r (v.setWidth 64))).railNote k).written acc (Obj.railApplied k) r.ty)) ∧
    Tbl.get 0 (s.railNote k).pwr.railDiff k =
      (if s.obj (Obj.railTarget k) = s.obj (Obj.railApplied k) then 0
       else if Tbl.get 0 s.pwr.railDiff k = 0 then s.now + 1 else Tbl.get 0 s.pwr.railDiff k) ∧
    (∀ from_, Tbl.get 0 s.pwr.railDiff k = from_ + 1 → s.running = true → ∃ t,
      exec (.railRequestTimeout k) s = .next t ∧ Tbl.get 0 t.pwr.railDiff k = 0 ∧
      t.objs = ((s.advanceTo (from_ + 10000000)).raise (Cause.plain 0x007)).objs)

/-- A rail that falls below its warning threshold is noted with the time of its dip; the first one throttles. When it recovers, the
dip is counted with its length, a long one is recorded, and a rail that had been lost ends its outage. A rail below its reset
threshold resets its region, VDD_AON the die (R470 to R472).
Completes: supplyWarnEnter, supplyWarnExit, supplyResetCross. -/
def Obligations.SupplyDipsAreMetAndCounted : Prop :=
  ∀ (s : State) (rail : Rail) (i : Nat), s.monitor rail = some i →
    (s.pwr.below.contains i = false → ∀ a : State,
      a = { s with pwr := { s.pwr with
        below := s.pwr.below ++ [i]
        dips := Tbl.set none s.pwr.dips i (some (s.now, ((s.pwr.below ++ [i]).map (2 ^ ·)).sum)) } } →
      (s.warn = true → exec (.supplyWarnEnter rail) s = .next a) ∧
      (s.warn = false → s.running = true → a.coreRuns = true → exec (.supplyWarnEnter rail) s = .next a.throttle)) ∧
    (s.pwr.below.contains i = true → s.running = true → ∀ q a, Tbl.get none s.pwr.dips i = some q →
      a = { s with pwr := { s.pwr with below := s.pwr.below.filter (· != i), dips := Tbl.set none s.pwr.dips i none } } →
      exec (.supplyWarnExit rail) s = .next (((a.countDip q).railBack i).warnFalls) ∧
      (a.countDip q).rd .dips = min (s.rd .dips + 1) 65535) ∧
    (s.pwr.down.contains i = false → s.pwr.below.contains i = true → s.running = true → ∀ a : State,
      a = { s with pwr := { s.pwr with down := s.pwr.down ++ [i] } } →
      (i = 8 → exec (.supplyResetCross rail) s = .next (a.powerOnReset 2)) ∧
      (i ≠ 8 → 2 ≤ s.regionStateOf i → exec (.supplyResetCross rail) s = .next (a.regionFall i none)) ∧
      (i ≠ 8 → s.regionStateOf i ≤ 1 → exec (.supplyResetCross rail) s =
        .next (((a.clearRegionTimes i none).wr (.regionSt i) 0).setObj (Obj.paceRate i) 0)))

/-! ## The control plane -/

/-- The block stamps every message a core sends with the source endpoint, the rank and the ward of its port, whatever the core
offers: the flits put on the wire of the port's router input are those of the stamped message, and no other wire changes (R44).
Completes: controlSend. -/
def Obligations.MessagesCarryTheStampOfTheirPort : Prop :=
  ∀ (s : State) (n : Nat) (dest : BitVec 16) (sock : BitVec 5) (kind : BitVec 2) (tag : BitVec 8) (words : List (BitVec 32)),
    s.cfg.sockets n ≠ 0 → s.adapterLive n .a = true → s.moves n = true → s.inputRoom (8 * n + 4) = true →
    s.sendRefusal n dest sock kind = none → ∃ (t : State) (m : CtlMsg), exec (.controlSend n dest sock kind tag words) s = .next t ∧
      m.src = s.ep n ∧ m.rank = BitVec.ofNat 8 (s.obj (Obj.portRank n)).toNat ∧ m.ward = (s.wardOf n).getD 0 ∧
      m.dest = dest ∧ m.sock = sock ∧ m.kind = kind ∧ m.tag = tag ∧ m.words = words ∧ m.nak = false ∧ m.outer = crc8 m.covered ∧
      Tbl.get [] t.ctl.wire (8 * n + 4) = Tbl.get [] s.ctl.wire (8 * n + 4) ++ m.flits.map ctlEncode ∧
      (∀ k, k ≠ 8 * n + 4 → Tbl.get [] t.ctl.wire k = Tbl.get [] s.ctl.wire k) ∧ t.objs = s.objs ∧ t.out = s.out

/-- A message its port refuses (R216, R410) comes back to the core as one NAK with the first cause, and is not injected. -/
def Obligations.RefusedSendsAreAnsweredLocally : Prop :=
  ∀ (s : State) (n : Nat) (dest : BitVec 16) (sock : BitVec 5) (kind : BitVec 2) (tag : BitVec 8) (words : List (BitVec 32))
    (r : BitVec 4),
    s.cfg.sockets n ≠ 0 → s.adapterLive n .a = true → s.moves n = true → s.inputRoom (8 * n + 4) = true →
    s.sendRefusal n dest sock kind = some r → (Tbl.get [] s.ctl.naks n).length < 32 → ∃ (t : State) (m : CtlMsg),
      exec (.controlSend n dest sock kind tag words) s = .next t ∧ m.nak = true ∧ m.reason = r ∧ m.tag = tag ∧ m.dest = dest ∧
      Tbl.get [] t.ctl.naks n = Tbl.get [] s.ctl.naks n ++ [m] ∧ t.ctl.wire = s.ctl.wire ∧ t.objs = s.objs

/-- The oldest flit of a wire arrives: one without errors, or with one wrong bit, goes to the message its input is putting together,
and one with two wrong bits is lost; then the input takes what waits for its room. The output that serves a message bound for a mesh
port hands it to the next router when that has room, and leaves it where it is otherwise; a message for a local endpoint arrives there,
and one for a bridge goes into its control group flit by flit. An input fed by a bridge then takes what the bridge has brought, and
the block's own commands that have come to the junction, or to the management tile, act (R200, R204 to R206, R231).
Completes: controlFlitArrive, controlMessageForward. -/
def Obligations.ControlMessagesTravel : Prop :=
  ∀ (s : State) (n : Nat), s.moves n = true →
    (∀ i w rest, Tbl.get [] s.ctl.wire (8 * n + i) = w :: rest → s.injectedAt 0x04 n (min i 6) 0x3F = false →
      exec (.controlFlitArrive n i []) s = .next (((({ s with ctl := { s.ctl with
        wire := Tbl.set [] s.ctl.wire (8 * n + i) rest } } : State).touch n).takeCtlFlit (8 * n + i) (w.extractLsb' 0 72)).ctlRefill
          (8 * n + i))) ∧
    (∀ i w rest b c, Tbl.get [] s.ctl.wire (8 * n + i) = w :: rest → s.injectedAt 0x04 n (min i 6) 0x3F = false →
      b < 72 → c < 72 → b ≠ c →
      exec (.controlFlitArrive n i [b]) s = exec (.controlFlitArrive n i []) s ∧
      exec (.controlFlitArrive n i [b, c]) s = .next (((({ s with ctl := { s.ctl with
        wire := Tbl.set [] s.ctl.wire (8 * n + i) rest } } : State).touch n).loseCtlFlit n i false).ctlRefill (8 * n + i))) ∧
    (∀ (after : Nat → State → State), (∀ i x, after i x =
        ((if i = 5 ∧ s.cfg.bKind n = 4 then x.landCtl (s.cfg.bIndex n) else x).takeCommands n).tileCommands) →
      (∀ o i m p n', s.ctlPick n o = some (i, m) → s.ctlRouteOf n m = .mesh p → s.cfg.neighbour n p = some n' →
        s.junctionActive n' = true → s.junctionLost n' = false →
        (s.inputRoom (8 * n' + facing p) = true →
          exec (.controlMessageForward n o) s = .next (after i (((s.ctlTake n o i m).ctlSend n' (facing p) m).touch n))) ∧
        (s.inputRoom (8 * n' + facing p) = false → exec (.controlMessageForward n o) s = .next (after i s))) ∧
      (∀ o i m out num, s.ctlPick n o = some (i, m) → s.ctlRouteOf n m = .here out num → (num < 0xB0 ∨ 0xB4 ≤ num) →
        exec (.controlMessageForward n o) s = .next (after i (((s.ctlTake n o i m).touch n).ctlArrive num m))) ∧
      (∀ o i m out b, s.ctlPick n o = some (i, m) → s.ctlRouteOf n m = .here out (0xB0 + b) → b < 4 → s.groupCarries b 3 = true →
        s.groupRoom b 3 = true → exec (.controlMessageForward n o) s = .next (after i (m.flits.foldl
          (fun (x : State) f => x.bridgeRecord b 3 ([1] ++ leBytes 9 f.toNat)) ((s.ctlTake n o i m).touch n))))) ∧
    (∀ num m, m.nak = false ∨ takesNaks num = true →
      Tbl.get [] (s.ctlArrive num m).ctl.arrived num = Tbl.get [] s.ctl.arrived num ++ [m] ∧ (s.ctlArrive num m).objs = s.objs)

/-- Along its row and then along its column a message comes one junction nearer at each hop, until it is at its junction (R205). -/
def Obligations.RoutesComeNearer : Prop :=
  ∀ (c : Integration) (n m : Nat), 0 < c.cols → n < c.njs → m < c.njs → n ≠ m →
    ∃ p n', c.routePort n m = some p ∧ c.neighbour n p = some n' ∧ n' < c.njs ∧
      ((n % c.cols : Int) - (m % c.cols : Nat)).natAbs + ((n / c.cols : Int) - (m / c.cols : Nat)).natAbs =
        ((n' % c.cols : Int) - (m % c.cols : Nat)).natAbs + ((n' / c.cols : Int) - (m / c.cols : Nat)).natAbs + 1 ∧
      (n % c.cols ≠ m % c.cols → n' / c.cols = n / c.cols)

/-- At its core port a message is stored in its socket, or refused with the first cause of R216; NAKs wait for the core and leave in
order; the core pops a socket word by word and the last word frees the message (R45, R46, R211 to R213, R216, R217).
Completes: controlMessageDeliver, nakDeliver, cnHandshake, socketPop. -/
def Obligations.CorePortsTakeMessages : Prop :=
  ∀ (s : State) (n : Nat),
    (∀ m x, s.moves n = true → n < 0x78 → s.arrivedAt n = some m → s.cfg.endpointJunction n = some n → m.nak = false → m.kind = 0 →
      m.isRelease = false → s.portRefusal n m = none → s.injectedAt 0x05 n 4 0x3F = false →
      (s.sock n m.sock.toNat).store (s.sockCfg n m.sock.toNat) m.src m.words = .ok x →
      exec (.controlMessageDeliver n) s = .next (((((s.arrivedDone n).setSock n m.sock.toNat x).countEv 0x30 n (some m.ward) 1).noteHigh
        n m.sock.toNat).touch n)) ∧
    (∀ m r, s.moves n = true → n < 0x78 → s.arrivedAt n = some m → s.cfg.endpointJunction n = some n → m.nak = false → m.kind = 0 →
      m.isRelease = false → s.portRefusal n m = some r →
      exec (.controlMessageDeliver n) s = .next ((((s.arrivedDone n).afterOuter n 4).portRefuse n m r).touch n)) ∧
    (∀ m, s.moves n = true → s.arrivedAt n = some m → m.nak = true → s.adapterHeld n .a = false →
      (Tbl.get [] s.ctl.naks n).length < 32 → ∃ t, exec (.nakDeliver n) s = .next t ∧
      Tbl.get [] t.ctl.naks n = Tbl.get [] s.ctl.naks n ++ [m] ∧ t.objs = s.objs ∧ t.ctl.socks = s.ctl.socks) ∧
    (∀ m rest, s.running = true → s.adapterLive n .a = true → s.junctionActive n = true → s.frozen = false →
      Tbl.get [] s.ctl.naks n = m :: rest → ∃ t, exec (.cnHandshake n) s = .next t ∧ Tbl.get [] t.ctl.naks n = rest ∧
      t.out = s.out ++ [.cn n m.tag m.dest m.reason] ∧ t.objs = s.objs) ∧
    (∀ k a src w ws popped rest, s.running = true → s.adapterLive n .a = true → s.junctionActive n = true → s.frozen = false →
      k < s.cfg.sockets n → (s.sock n k).ring = .msg a src (w :: ws) popped :: rest → popped < ws.length →
      s.storeInjected n 2 = false → (s.sock n k).held = none → ∃ t, exec (.socketPop n k) s = .next t ∧
      (t.sock n k).ring = .msg a src (w :: ws) (popped + 1) :: rest ∧
      t.out = s.out ++ [.sk n k ((w :: ws).getD popped 0) (popped == 0) false src] ∧ t.objs = s.objs) ∧
    (∀ k a src ws popped rest, s.running = true → s.adapterLive n .a = true → s.junctionActive n = true → s.frozen = false →
      k < s.cfg.sockets n → (s.sock n k).ring = .msg a src ws popped :: rest → popped + 1 = ws.length →
      s.storeInjected n 2 = false → (s.sock n k).held = none → ∃ t, exec (.socketPop n k) s = .next t ∧
      (t.sock n k).ring = ringSkip rest ∧ t.out = s.out ++ [.sk n k (ws.getD popped 0) (popped == 0) true src] ∧ t.objs = s.objs)

/-- A contribution adds to its COMBINE socket or combiner, lane by lane; the EXPECT-th completes the round and clears the
accumulator. A combiner's releases leave one by one, and a release replaces what socket 31 holds (R223 to R227).
Completes: combineContribution, combinerReleaseSend, releaseDeliver. -/
def Obligations.ContributionsCombineAndRelease : Prop :=
  ∀ (s : State) (u n : Nat) (m : CtlMsg), s.moves n = true →
    (s.arrivedAt u = some m → s.cfg.endpointJunction u = some n → m.nak = false → m.kind = 1 → u < 0x78 →
      s.contribRefusal u n m = none → s.injectedAt 0x05 n 4 0x3F = false →
      exec (.combineContribution u) s =
        .next ((((s.arrivedDone u).touch n).countEv 0x32 n (some m.ward) 1).sockCombine n m.sock.toNat m.words)) ∧
    (s.arrivedAt u = some m → s.cfg.endpointJunction u = some n → m.nak = false → m.kind = 1 → 0x100 ≤ u →
      s.contribRefusal u n m = none → s.injectedAt 0x05 n 6 0x3F = false →
      exec (.combineContribution u) s =
        .next ((((s.arrivedDone u).touch n).countEv 0x32 n (some m.ward) 1).combCombine n m.words)) ∧
    (∀ k, ((s.sock n k).acc.count + 1 < sockExpect (s.sockCfg n k) →
        ((s.sockCombine n k m.words).sock n k).acc = (s.sock n k).acc.add (sockFmt (s.sockCfg n k)) (sockLanes (s.sockCfg n k)) m.words ∧
        ((s.sockCombine n k m.words).sock n k).acc.count = (s.sock n k).acc.count + 1 ∧
        ((s.sockCombine n k m.words).sock n k).ring = (s.sock n k).ring) ∧
      (sockExpect (s.sockCfg n k) ≤ (s.sock n k).acc.count + 1 → ((s.sockCombine n k m.words).sock n k).acc = Acc.zero)) ∧
    (∀ j ws rest, (s.comb n).releases = (j, ws) :: rest → s.releaseBarred n j = false →
      exec (.combinerReleaseSend n) s = .next (((s.setComb n { s.comb n with releases := rest }).touch n).ctlFrom (0x100 + n)
        ⟨false, (s.wardOf n).getD 0, 0, 0, 255, 0, 31, 0, s.ep j, 0, ws⟩)) ∧
    (∀ j ws rest, (s.comb n).releases = (j, ws) :: rest → s.releaseBarred n j = true → n < 0x78 → ∃ t,
      exec (.combinerReleaseSend n) s = .next t ∧ (t.comb n).releases = rest ∧
      t.rd (.combDiscarded n) = min (s.rd (.combDiscarded n) + 1) 255) ∧
    (s.arrivedAt n = some m → m.isRelease = true → s.outerFails n 4 m = false → sockKind (s.sockCfg n 31) = 3 →
      s.endpointWard n n m.ward = true → s.endpointUnready n n m.ward = false → ∃ t, exec (.releaseDeliver n) s = .next t ∧
      (t.sock n 31).ring = [.msg 0 m.src m.words 0] ∧ t.arrivedAt n = ((Tbl.get [] s.ctl.arrived n).tail).head?)

/-- A message to a host port queues its vector, and vectors leave on HI_IRQ in order. An increment that a gate's or engine's counter
takes is added to it, and the channels that wait for the counter are looked at; one that finds its code wrong, no counter, another ward,
a ward being reclaimed or a wrong length is refused with that cause, the first of them in this order, and changes no object but
WARD_REFUSALS (R228, R230, R291, R292).
Completes: hostIrqMessage, hostIrqDeliver, tripIncrement. -/
def Obligations.InterruptsAndIncrementsArrive : Prop :=
  ∀ (s : State),
    (∀ p n m, p < 2 → s.moves n = true → s.arrivedAt (0x90 + p) = some m → s.cfg.endpointJunction (0x90 + p) = some n →
      m.nak = false → m.kind = 0 → s.outerFails n 6 m = false → s.endpointWard (0x90 + p) n m.ward = true →
      s.endpointUnready (0x90 + p) n m.ward = false → (Tbl.get IrqState.zero s.ctl.irq p).queue.length < 64 →
      ∃ t, exec (.hostIrqMessage p) s = .next t ∧ (Tbl.get IrqState.zero t.ctl.irq p).queue =
        (Tbl.get IrqState.zero s.ctl.irq p).queue ++ [((m.words.getD 0 0).extractLsb' 0 11, m.ward)] ∧ t.objs = s.objs) ∧
    (∀ p n v w rest, (Tbl.get IrqState.zero s.ctl.irq p).queue = (v, w) :: rest → s.cfg.unitAt 3 p = some n → s.running = true →
      s.adapterLive n .b = true → s.junctionActive n = true → s.frozen = false →
      (Tbl.get IrqState.zero s.ctl.irq p).waiting = [] → ∃ t, exec (.hostIrqDeliver p) s = .next t ∧
      (Tbl.get IrqState.zero t.ctl.irq p).queue = rest ∧ t.out = s.out ++ [.hiIrq p v w] ∧ t.objs = s.objs) ∧
    (∀ e n m, e < 4 → s.moves n = true → s.arrivedAt (0x98 + e) = some m → s.cfg.endpointJunction (0x98 + e) = some n →
      m.nak = false → m.kind = 2 → s.outerFails n 6 m = false → fget (s.obj (Obj.dmaTripWard e m.sock.toNat)) 7 1 = 1 →
      fget (s.obj (Obj.dmaTripWard e m.sock.toNat)) 0 4 = m.ward.toNat → s.junctionLost n = false → s.wardReclaiming m.ward = false →
      m.words.length = 1 → exec (.tripIncrement (0x98 + e)) s = .next ((((s.arrivedDone (0x98 + e)).countEv 0x34 n (some m.ward) 1).tripAdd
        e m.sock.toNat (m.words.headD 0)).touch n)) ∧
    (∀ g n m, g < 16 → s.moves n = true → s.arrivedAt (0x80 + g) = some m → s.cfg.endpointJunction (0x80 + g) = some n →
      m.nak = false → m.kind = 2 → s.outerFails n 5 m = false → fget (s.obj (Obj.collTripWard g m.sock.toNat)) 7 1 = 1 →
      fget (s.obj (Obj.collTripWard g m.sock.toNat)) 0 4 = m.ward.toNat → s.junctionLost n = false → s.wardReclaiming m.ward = false →
      m.words.length = 1 → exec (.tripIncrement (0x80 + g)) s = .next (((((((s.arrivedDone (0x80 + g)).countEv 0x34 n (some m.ward) 1).bump
        ⟨Obj.collTrip g m.sock.toNat, 0, 32⟩ (m.words.headD 0).toNat).collExamine g m.sock.toNat).collSettle g).afterOuter n 5).touch n)) ∧
    (∀ u n m v point, s.moves n = true → s.arrivedAt u = some m → s.cfg.endpointJunction u = some n → m.nak = false → m.kind = 2 →
      ((0x98 ≤ u ∧ u < 0x9C ∧ v = s.obj (Obj.dmaTripWard (u - 0x98) m.sock.toNat) ∧ point = 6) ∨
        (0x80 ≤ u ∧ u < 0x90 ∧ v = s.obj (Obj.collTripWard (u - 0x80) m.sock.toNat) ∧ point = 5)) →
      s.injectedAt 0x05 n 5 0x3F = false → s.injectedAt 0x05 n 6 0x3F = false →
      (∀ r, s.outerFails n point m = true ∧ r = Nak.corrupt ∨
          s.outerFails n point m = false ∧ fget v 7 1 = 0 ∧ r = Nak.noCounter ∨
          s.outerFails n point m = false ∧ fget v 7 1 = 1 ∧ fget v 0 4 = m.ward.toNat ∧ s.wardReclaiming m.ward = true ∧ r = Nak.notReady ∨
          s.outerFails n point m = false ∧ fget v 7 1 = 1 ∧ fget v 0 4 = m.ward.toNat ∧ s.junctionLost n = false ∧
            s.wardReclaiming m.ward = false ∧ m.words.length ≠ 1 ∧ r = Nak.malformed →
        exec (.tripIncrement u) s = .next (((s.arrivedDone u).touch n).refuse n (unitInput u) m r)) ∧
      (s.outerFails n point m = false → fget v 7 1 = 1 → fget v 0 4 ≠ m.ward.toNat →
        exec (.tripIncrement u) s = .next ((((s.arrivedDone u).touch n).wardRefusal).refuse n (unitInput u) m Nak.ward))) ∧
    (∀ n i m r, (s.refuse n i m r).objs = s.objs) ∧ (∀ n, (s.touch n).objs = s.objs) ∧ (∀ u, (s.arrivedDone u).objs = s.objs)

/-- SOCK_CFG is written while its socket is not in use and the value is in range, and refused with IN_USE or OUT_OF_RANGE otherwise
(R214). A channel entry is stored when it is cleared, or when it runs from a lower rank to a higher one on this die; one to another die
waits for that die's answer, which stores it or refuses it, as does the end of 1 ms. A rank is stored when every valid channel
still rises, and another die that a channel enters is told; firmware answers another die's question about a rank of this one and
registers the channel that rises (R218 to R220, R236).
Completes: sockCfgWrite, channelEntryWrite, channelRankReply, channelCheckTimeout, rankWrite. -/
def Obligations.SocketsChannelsAndRanksAreSetUp : Prop :=
  ∀ (s : State) (acc : Access) (n k : Nat) (r : ObjRow),
    (∀ (v : BitVec 64) x, x = s.value acc (Obj.sockCfg n k) r v &&& 0xFFFFFFFFFFFFFF00 → s.MayWrite acc (Obj.sockCfg n k) r →
      k < s.cfg.sockets n →
      ((s.sock n k).busy = false → s.sockCfgBad n k x = false →
        exec (.sockCfgWrite acc n k v) s = .next ((s.setObj (Obj.sockCfg n k) x).written acc (Obj.sockCfg n k) r.ty)) ∧
      ((s.sock n k).busy = true → exec (.sockCfgWrite acc n k v) s =
        .next (s.abortRequest acc 2 (Obj.sockCfg n k / 256) (Obj.sockCfg n k % 256) 0 .inUse)) ∧
      ((s.sock n k).busy = false → s.sockCfgBad n k x = true → exec (.sockCfgWrite acc n k v) s =
        .next (s.abortRequest acc 2 (Obj.sockCfg n k / 256) (Obj.sockCfg n k % 256) 0 .outOfRange))) ∧
    (∀ (t : BitVec 16) (v : BitVec 32) u k0 x, chanTable t.toNat = some (u, k0) → (s.cfg.endpointJunction u).isSome = true →
      s.MayWrite acc (chanKey t.toNat k) r → k < 64 →
      x = chanMask u (BitVec.ofNat 64 ((s.value acc (chanKey t.toNat k) r (v.setWidth 64)).setWidth 32).toNat) →
      s.chanWardClash u (k0 + k) x (askerOf acc) = none →
      (fget x 31 1 = 0 → exec (.channelEntryWrite acc t k v) s =
        .next ((s.setEntry u k (k0 + k) x).written acc (chanKey t.toNat k) r.ty)) ∧
      (fget x 31 1 = 1 → s.chanBad u x = none → fget x 0 16 / 1024 = s.dieBits → ∀ a b, s.localRank u = some a →
        s.localRank (fget x 0 16 % 1024) = some b →
        (a < b → exec (.channelEntryWrite acc t k v) s = .next ((s.setEntry u k (k0 + k) x).written acc (chanKey t.toNat k) r.ty)) ∧
        (b ≤ a → exec (.channelEntryWrite acc t k v) s =
          .next (s.abortRequest acc 2 (chanKey t.toNat k / 256) (chanKey t.toNat k % 256) 0 .rankOrder))) ∧
      (fget x 31 1 = 1 → s.chanBad u x = none → fget x 0 16 / 1024 ≠ s.dieBits →
        exec (.channelEntryWrite acc t k v) s = .next (({ s with ctl := { s.ctl with
          checks := s.ctl.checks ++ [⟨t.toNat, k, BitVec.ofNat 32 x.toNat, s.now, acc⟩] } } : State).askRank u k x))) ∧
    (∀ (t : BitVec 16) c s1 u k0 a, s.takeCheck t.toNat k = some (c, s1) → chanTable t.toNat = some (u, k0) →
      s.localRank u = some a →
      (∀ b : BitVec 8, s.chanWardClash u (k0 + k) (c.value.setWidth 64) (askerOf c.acc) = none → a < b.toNat → ∃ t' : State,
        exec (.channelRankReply t k (.received (.rank b))) s = .next (t'.written c.acc (chanKey c.table c.entry) 3) ∧
        t'.obj (k0 + k) = c.value.setWidth 64 ∧ (∀ j, j ≠ k0 + k → t'.obj j = s.obj j) ∧ t'.ctl.checks = s.ctl.checks.erase c) ∧
      (∀ b : BitVec 8, s.chanWardClash u (k0 + k) (c.value.setWidth 64) (askerOf c.acc) = none → b.toNat ≤ a →
        exec (.channelRankReply t k (.received (.rank b))) s = .next (s1.abortRequest c.acc 2
          (chanKey c.table c.entry / 256) (chanKey c.table c.entry % 256) 0 .rankOrder)) ∧
      (∀ (b : BitVec 8) e, s.chanWardClash u (k0 + k) (c.value.setWidth 64) (askerOf c.acc) = some e →
        exec (.channelRankReply t k (.received (.rank b))) s = .next (s1.abortRequest c.acc 2
          (chanKey c.table c.entry / 256) (chanKey c.table c.entry % 256) 0 e)) ∧
      exec (.channelRankReply t k (.received .noEndpoint)) s = .next (s1.abortRequest c.acc 2
        (chanKey c.table c.entry / 256) (chanKey c.table c.entry % 256) 0 .outOfRange) ∧
      exec (.channelRankReply t k (.received .otherWard)) s = .next (s1.abortRequest c.acc 2
        (chanKey c.table c.entry / 256) (chanKey c.table c.entry % 256) 0 .rankOrder) ∧
      exec (.channelCheckTimeout t k) s = .next ((s1.advanceTo (c.since + 1000000)).abortRequest c.acc 2
        (chanKey c.table c.entry / 256) (chanKey c.table c.entry % 256) 0 .checkIncomplete)) ∧
    (∀ src dest ward rank, s.firmwareRuns = true → ∃ t, exec (.channelRankReply src k (.given dest ward rank)) s = .next t ∧
      t.out = s.out ++ [.rankAnswer src k (s.rankAnswerOf dest ward)] ∧ t.objs = s.objs ∧
      (∀ b : BitVec 8, s.rankAnswerOf dest ward = .rank b → rank.toNat < b.toNat → ⟨src, k, dest, rank⟩ ∈ t.ctl.incoming)) ∧
    (∀ src, exec (.channelRankReply src k .withdrawn) s = .next { s with ctl := { s.ctl with
      incoming := s.ctl.incoming.filter (fun c => !(c.src == src && c.entry == k)) } }) ∧
    (∀ (t : BitVec 16) (v : BitVec 8) u key x, rankTable t.toNat = some (u, key) → (s.cfg.endpointJunction u).isSome = true →
      s.MayWrite acc key r → x = (s.value acc key r (v.setWidth 64)).setWidth 8 →
      (s.risesTo u x.toNat = true → (∀ u' k0, chanTable t.toNat = some (u', k0) → s.risesFrom u k0 x.toNat = true) →
        (∀ u' k0, chanTable t.toNat = some (u', k0) → exec (.rankWrite acc t v) s =
          .next (((s.setObj key (BitVec.ofNat 64 x.toNat)).tellRanks u k0).written acc key r.ty)) ∧
        (chanTable t.toNat = none → exec (.rankWrite acc t v) s =
          .next ((s.setObj key (BitVec.ofNat 64 x.toNat)).written acc key r.ty))) ∧
      (s.risesTo u x.toNat = false → exec (.rankWrite acc t v) s = .next (s.abortRequest acc 2 (key / 256) (key % 256) 0 .rankOrder)))

/-! ## Crossing schedules -/

/-- The checks of a whole image, which firmware makes, end with the ward CHECKED and its staged banks holding the image, or with the
first failure; in a freeze, and while no core runs, they do not end (R25, R136, R137). Completes: schedLoadChecksComplete. -/
def Obligations.LoadsEndCheckedOrFailed : Prop :=
  ∀ (s : State) (w : BitVec 4),
    (s.frozen = true ∨ s.firmwareRuns = false → exec (.schedLoadChecksComplete w) s = .next s) ∧
    (s.rd (.ldState w.toNat) = 2 → s.frozen = false → s.firmwareRuns = true →
    (∀ f, parseImage (s.sched w.toNat).image = .error f → exec (.schedLoadChecksComplete w) s = .next (s.failLoad w f)) ∧
    (∀ m f, parseImage (s.sched w.toNat).image = .ok m → s.imageFail w (s.sched w.toNat).package m = some f →
      exec (.schedLoadChecksComplete w) s = .next (((s.stageImage w m).setSched w.toNat
        { s.sched w.toNat with staged := m.facts }).failLoad w f)) ∧
    (∀ m, parseImage (s.sched w.toNat).image = .ok m → s.imageFail w (s.sched w.toNat).package m = none →
      exec (.schedLoadChecksComplete w) s = .next (((((s.stageImage w m).setSched w.toNat
        { s.sched w.toNat with staged := m.facts }).markStaged w 2).enterLoad w.toNat 3 0).reportLoad w.toNat)) ∧
    (∀ t : State, ((t.enterLoad w.toNat 3 0).reportLoad w.toNat).rd (.ldState w.toNat) = 3 ∧
      ((t.enterLoad w.toNat 3 0).reportLoad w.toNat).rd (.ldCode w.toNat) = 0) ∧
    (∀ f, f.code < 32 → f.list < 16 → f.junction < 128 → f.entry < 8192 → (s.failLoad w f).rd (.ldState w.toNat) = 7 ∧
      (s.failLoad w f).rd (.ldCode w.toNat) = f.code))

/-- ARM is accepted only in CHECKED and only once; its checks fail the ward with the code of what has changed, or arm it and send the
arm to every junction that holds an ingress. With every ingress stopped the largest count becomes T, and T goes to every junction, where
the command is taken off and the lists that are due swap; a command out of date is only taken off. A marker on a link arrives as a flit
does. When all have swapped the staged banks are live and EPOCH rises by one (R140 to R146, R154).
Completes: epochArm, epochArmCheckComplete, epochTargetSet, epochTargetArrive, epochMarkerArrive, epochSwapComplete. -/
def Obligations.EpochsAreArmedAndSwapped : Prop :=
  ∀ (s : State) (acc : Access) (w : BitVec 4) (r : ObjRow),
    (s.MayWrite acc (Obj.epochCtrl w.toNat) r →
      (s.rd (.ldState w.toNat) = 3 → (s.sched w.toNat).armPending = false →
        exec (.epochArm acc w) s = .next (((s.setSched w.toNat { s.sched w.toNat with armPending := true }).wr (.epochCmd w.toNat) 1).written
          acc (Obj.epochCtrl w.toNat) r.ty)) ∧
      (s.rd (.ldState w.toNat) ≠ 3 ∨ (s.sched w.toNat).armPending = true →
        exec (.epochArm acc w) s = .next (s.abortRequest acc 2 (Obj.epochCtrl w.toNat / 256) (Obj.epochCtrl w.toNat % 256) 0 .badState))) ∧
    ((s.sched w.toNat).armPending = true → s.rd (.ldState w.toNat) = 3 → s.frozen = false → ∀ a, a = s.setSched w.toNat { s.sched w.toNat with armPending := false } →
      (s.stagedGen w.toNat ≠ s.obj Obj.distGen → exec (.epochArmCheckComplete w) s = .next (a.failLoad w (.at_ 0x04))) ∧
      (s.stagedGen w.toNat = s.obj Obj.distGen → ∀ n, s.stagedDamaged w = some n →
        exec (.epochArmCheckComplete w) s = .next (a.failLoad w ⟨0x0E, n, 0xF, 0x1FFF⟩)) ∧
      (s.stagedGen w.toNat = s.obj Obj.distGen → s.stagedDamaged w = none → ∀ b,
        b = (((a.markStaged w 3).enterLoad w.toNat 4 0).traceEpoch w.toNat 1).setSched w.toNat
          { ((((a.markStaged w 3).enterLoad w.toNat 4 0).traceEpoch w.toNat 1).sched w.toNat) with armed := [] } →
        ((b.wardIngresses w).isEmpty = false ∨ (s.sched w.toNat).package = true →
          exec (.epochArmCheckComplete w) s = .next (b.sequence w Cmd.arm 0 (b.ingressJunctions w))) ∧
        ((b.wardIngresses w).isEmpty = true → (s.sched w.toNat).package = false →
          exec (.epochArmCheckComplete w) s = .next (b.sendTarget w 0)))) ∧
    (s.rd (.ldState w.toNat) = 4 → s.allStopped w = true → s.frozen = false →
      ((s.sched w.toNat).package = false → ∀ x, exec (.epochTargetSet w x) s = .next (s.sendTarget w (s.largestCount w))) ∧
      ((s.sched w.toNat).package = true → ∀ x : BitVec 32,
        exec (.epochTargetSet w (some x)) s = .next (s.sendTarget w x.toNat))) ∧
    (∀ n m a, s.commandAt n = some m → m.ward = w → m.sock = Cmd.target → s.moves n = true → a = s.arrivedDone (0x200 + n) →
      (s.commandDue n m = true → exec (.epochTargetArrive n) s = .next ((((a.setSched w.toNat { s.sched w.toNat with
        target := (s.sched w.toNat).target.erase n }).swapTry n).touch n).takeCommands n)) ∧
      (s.commandDue n m = false → exec (.epochTargetArrive n) s = .next (a.takeCommands n)) ∧
      (s.commandDue n m = true ↔ s.wardOf n = some w ∧ (s.sched w.toNat).target.contains n = true ∧
        (s.sched w.toNat).forcing = false ∧ s.rd (.ldState w.toNat) = 5)) ∧
    (∀ n i f rest, (s.tin n i).wire = f :: rest → f.isMarker = true →
      exec (.epochMarkerArrive n i) s = .next (Tensor.arrive n i [] s)) ∧
    (s.rd (.ldState w.toNat) = 5 → (s.wardJunctions w).all s.swapped = true → s.frozen = false →
      ∃ t, exec (.epochSwapComplete w) s = .next t ∧ t.rd (.ldState w.toNat) = 6 ∧ t.rd (.ldCode w.toNat) = 0 ∧
        (t.sched w.toNat).live = (s.sched w.toNat).staged ∧ (t.sched w.toNat).staged = ImageFacts.null ∧
        t.rd (.epochOf w.toNat) = (s.rd (.epochOf w.toNat) + 1) % 2 ^ 32)

/-- CANCEL in CHECKED empties the staged banks and abandons a pending arm; in ARMED it sends the release to every junction that
holds an ingress, and on its arrival there no ingress is stopped any more; in either case LOAD_STATUS enters IDLE with code 0x11; in
SWAPPING it is refused (R147).
Completes: epochCancel. -/
def Obligations.CancelLeavesTheLoadIdle : Prop :=
  ∀ (s : State) (acc : Access) (w : BitVec 4) (r : ObjRow), s.MayWrite acc (Obj.epochCtrl w.toNat) r →
    (s.rd (.ldState w.toNat) = 3 ∨ s.rd (.ldState w.toNat) = 4 → ∃ t : State,
      exec (.epochCancel acc w) s = .next (t.written acc (Obj.epochCtrl w.toNat) r.ty) ∧
      t.rd (.ldState w.toNat) = 0 ∧ t.rd (.ldCode w.toNat) = 0x11 ∧ (t.sched w.toNat).armPending = false ∧
      (s.rd (.ldState w.toNat) = 3 → ∀ n ∈ s.wardJunctions w, t.rd (.staged n) = 0 ∧ t.bank n (s.stagedSel n) = Bank.null) ∧
      (s.rd (.ldState w.toNat) = 4 → t.ctl = (s.releaseIngresses w).ctl ∧ ∀ n ∈ s.wardJunctions w, t.rd (.staged n) = 2) ∧
      (∀ n, t.rd (.liveSel n) = s.rd (.liveSel n))) ∧
    (s.rd (.ldState w.toNat) = 5 → exec (.epochCancel acc w) s =
      .next (s.abortRequest acc 2 (Obj.epochCtrl w.toNat / 256) (Obj.epochCtrl w.toNat % 256) 0 .badState)) ∧
    (∀ m p, p ∈ s.wardIngresses w → s.wardOf p.1 = some w → m.ward = w → m.sock = Cmd.release → s.rd (.ldState w.toNat) ≠ 4 →
      ((s.armOrRelease p.1 m).ing p.1 p.2).stopped = false)

/-- FORCE_NULL and FORCE_STAGED need L2, and FORCE_STAGED staged banks that may be forced; the forced marker goes to every junction of
the ward, where it ends the runs, clears the latches and makes its bank live; a junction whose region is in reset takes its bank at once;
when all have it, LOAD_STATUS enters LIVE with code 0x12 and EPOCH rises by one (R148).
Completes: forceNull, forceStaged, forcedMarkerArrive, forcedSwapComplete. -/
def Obligations.ForcedSwapsRun : Prop :=
  ∀ (s : State) (acc : Access) (w : BitVec 4) (r : ObjRow),
    (s.MayWrite acc (Obj.epochCtrl w.toNat) r →
      (2 ≤ acc.level.toNat → exec (.forceNull acc w) s =
        .next (((s.forceBegin w false).wr (.epochCmd w.toNat) 4).written acc (Obj.epochCtrl w.toNat) r.ty)) ∧
      (2 ≤ acc.level.toNat → s.rd (.ldState w.toNat) = 3 ∨ (s.rd (.ldState w.toNat) = 7 ∧ (s.rd (.ldCode w.toNat) = 0x0F ∨
          s.rd (.ldCode w.toNat) = 0x10 ∨ s.rd (.ldCode w.toNat) = 0x0D)) →
        exec (.forceStaged acc w) s =
          .next (((s.forceBegin w true).wr (.epochCmd w.toNat) 3).written acc (Obj.epochCtrl w.toNat) r.ty)) ∧
      (acc.level.toNat < 2 →
        exec (.forceNull acc w) s = .next (s.abortRequest acc 2 (Obj.epochCtrl w.toNat / 256) (Obj.epochCtrl w.toNat % 256) 0 .level) ∧
        exec (.forceStaged acc w) s = .next (s.abortRequest acc 2 (Obj.epochCtrl w.toNat / 256) (Obj.epochCtrl w.toNat % 256) 0 .level))) ∧
    ((s.forceBegin w false).sched w.toNat).forced = s.wardJunctions w ∧
    (∀ n a, s.wardOf n = some w → (s.sched w.toNat).forced.contains n = true →
      (s.junctionLost n = true → s.frozen = false → a = s.setSched w.toNat { s.sched w.toNat with
          forced := (s.sched w.toNat).forced.erase n } →
        exec (.forcedMarkerArrive n) s = .next ((((a.endRuns n).clearLatches n).forceBank n (s.sched w.toNat).forceStaged).touch n)) ∧
      (∀ m, s.junctionLost n = false → s.commandAt n = some m → m.ward = w → m.sock = Cmd.forceNull ∨ m.sock = Cmd.forceStaged →
        s.moves n = true → a = (s.arrivedDone (0x200 + n)).setSched w.toNat { s.sched w.toNat with
          forced := (s.sched w.toNat).forced.erase n } →
        exec (.forcedMarkerArrive n) s =
          .next (((((a.endRuns n).clearLatches n).forceBank n (s.sched w.toNat).forceStaged).touch n).takeCommands n))) ∧
    ((s.sched w.toNat).forcing = true → (s.sched w.toNat).forced = [] → s.frozen = false →
      ∃ t, exec (.forcedSwapComplete w) s = .next t ∧ t.rd (.ldState w.toNat) = 6 ∧ t.rd (.ldCode w.toNat) = 0x12 ∧
        t.rd (.epochOf w.toNat) = (s.rd (.epochOf w.toNat) + 1) % 2 ^ 32 ∧ (t.sched w.toNat).forcing = false ∧
        (t.sched w.toNat).live = (if (s.sched w.toNat).forceStaged then (s.sched w.toNat).staged else ImageFacts.null))

/-! ## Transactions -/

/-- A write to ARB_RENUMBER names a unit of the die by its 16-bit number and a new input number: the unit gets it, an initiator that held
the number gets the unit's, and every other initiator of that attachment keeps its own; nothing but the numbers of that arbiter changes. A
unit that is no initiator of the attachment is refused with OUT_OF_RANGE. No two initiators that had different numbers come to have the
same (R257). Completes: arbRenumber. -/
def Obligations.RenumberingSwapsTwoNumbers : Prop :=
  ∀ (s : State) (acc : Access) (a : Nat) (v : BitVec 32) (r : ObjRow) (x : Val) (u k at_ : Nat), a < 16 → at_ = 0xA0 + a →
    s.MayWrite acc (Obj.arbRenumber a) r → x = s.value acc (Obj.arbRenumber a) r (v.setWidth 64) → u = fget x 16 16 % 1024 → k = fget x 0 8 →
    (s.cfg.initiators.contains u = false ∨ s.ep u ≠ BitVec.ofNat 16 (fget x 16 16) → exec (.arbRenumber acc a v) s =
      .next (s.abortRequest acc 2 (Obj.arbRenumber a / 256) (Obj.arbRenumber a % 256) 0 .outOfRange)) ∧
    (s.cfg.initiators.contains u = true → s.ep u = BitVec.ofNat 16 (fget x 16 16) → ∃ (t : State) (m : Tbl Nat),
      t = s.setTarget at_ { s.target at_ with numbers := m } ∧
      exec (.arbRenumber acc a v) s = .next (t.written acc (Obj.arbRenumber a) r.ty) ∧
      t.arbNumber at_ u = k ∧
      (∀ y ∈ s.cfg.initiators, y ≠ u → s.arbNumber at_ y = k →
        (∀ z ∈ s.cfg.initiators, z ≠ u → s.arbNumber at_ z = k → z = y) → t.arbNumber at_ y = s.arbNumber at_ u) ∧
      (∀ y ∈ s.cfg.initiators, y ≠ u → s.arbNumber at_ y ≠ k → t.arbNumber at_ y = s.arbNumber at_ y) ∧
      ((∀ y ∈ s.cfg.initiators, ∀ z ∈ s.cfg.initiators, s.arbNumber at_ y = s.arbNumber at_ z → y = z) →
        ∀ y ∈ s.cfg.initiators, ∀ z ∈ s.cfg.initiators, t.arbNumber at_ y = t.arbNumber at_ z → y = z))

/-- TAP_CTRL is stored, and setting ENABLE starts the count of runs again. POOL_SIZE is stored when each pool has 1 to 61 slots and all
together at most 64, and refused otherwise; slots that become free are granted. A coherent window is stored at once when no valid
window changes; else the write waits while the old window's lines are invalidated, and takes effect once they are and the dirty ones have
been written back (R195, R263, R272). Completes: tapCtrlWrite, poolSizeWrite, cohWindowWrite, cohWindowInvalidateComplete. -/
def Obligations.PlaneObjectsAreWritten : Prop :=
  ∀ (s : State) (acc : Access) (n i : Nat) (r : ObjRow),
    (∀ (v : BitVec 32) x, s.MayWrite acc (Obj.tapCtrl n) r → x = s.value acc (Obj.tapCtrl n) r (v.setWidth 64) → ∃ t : State,
      exec (.tapCtrlWrite acc n v) s = .next (t.written acc (Obj.tapCtrl n) r.ty) ∧ t.obj (Obj.tapCtrl n) = x ∧
      (∀ k, k ≠ Obj.tapCtrl n → t.obj k = s.obj k) ∧
      (t.tap n).seen = (if fget (s.obj (Obj.tapCtrl n)) 31 1 = 0 ∧ fget x 31 1 = 1 then 0 else (s.tap n).seen) ∧
      (∀ m, m ≠ n → t.tap m = s.tap m)) ∧
    (∀ (v : BitVec 32) x, s.MayWrite acc (Obj.poolSize n) r → x = s.value acc (Obj.poolSize n) r (v.setWidth 64) →
      ((∀ l < 4, 1 ≤ fget x (8 * l) 8 ∧ fget x (8 * l) 8 ≤ 61) → fget x 0 8 + fget x 8 8 + fget x 16 8 + fget x 24 8 ≤ 64 →
        exec (.poolSizeWrite acc n v) s = .next ((((((s.setObj (Obj.poolSize n) x).arbitrate (0xA0 + n) 0).arbitrate (0xA0 + n) 1).arbitrate
          (0xA0 + n) 2).arbitrate (0xA0 + n) 3).written acc (Obj.poolSize n) r.ty)) ∧
      ((∃ l < 4, fget x (8 * l) 8 = 0 ∨ 61 < fget x (8 * l) 8) ∨ 64 < fget x 0 8 + fget x 8 8 + fget x 16 8 + fget x 24 8 →
        exec (.poolSizeWrite acc n v) s =
          .next (s.abortRequest acc 2 (Obj.poolSize n / 256) (Obj.poolSize n % 256) 0 .outOfRange))) ∧
    (∀ (v : BitVec 64) x, s.MayWrite acc (Obj.cohWindow n i) r → x = s.value acc (Obj.cohWindow n i) r v →
      s.cfg.hsnp.getD n false = true →
      (s.cohBad n i x = true → exec (.cohWindowWrite acc n i v) s =
        .next (s.abortRequest acc 2 (Obj.cohWindow n i / 256) (Obj.cohWindow n i % 256) 0 .outOfRange)) ∧
      (s.cohBad n i x = false → fget x 63 1 = 0 ∨ s.wardTakes (fget x 58 4) = true →
        (fget (s.obj (Obj.cohWindow n i)) 63 1 = 0 ∨ s.obj (Obj.cohWindow n i) = x →
          exec (.cohWindowWrite acc n i v) s = .next ((s.setObj (Obj.cohWindow n i) x).written acc (Obj.cohWindow n i) r.ty)) ∧
        (fget (s.obj (Obj.cohWindow n i)) 63 1 = 1 → s.obj (Obj.cohWindow n i) ≠ x →
          exec (.cohWindowWrite acc n i v) s = .next (s.windowChange n i x (some acc)) ∧ (s.windowChange n i x (some acc)).objs = s.objs ∧
          ∃ c ∈ (s.windowChange n i x (some acc)).txn.cohWaits, c.port = n ∧ c.index = i ∧ c.value = x ∧ c.acc = some acc))) ∧
    (∀ (v : BitVec 64), s.MayWrite acc (Obj.cohWindow n i) r → s.cfg.hsnp.getD n false = false →
      exec (.cohWindowWrite acc n i v) s = .next (s.abortRequest acc 2 (Obj.cohWindow n i / 256) (Obj.cohWindow n i % 256) 0 .notPresent)) ∧
    (∀ c a, s.txn.cohWaits.find? (fun c => c.port == n && c.index == i) = some c →
      a = ({ s with txn := { s.txn with cohWaits := s.txn.cohWaits.filter (fun x => x != c) } }.setObj (Obj.cohWindow n i) c.value).serve (0x90 + n) →
      (s.windowReady c = true → ∀ acc', c.acc = some acc' →
        exec (.cohWindowInvalidateComplete n i) s = .next (a.written acc' (Obj.cohWindow n i) 4)) ∧
      (s.windowReady c = true → c.acc = none → exec (.cohWindowInvalidateComplete n i) s = .next a) ∧
      (s.windowReady c = false → exec (.cohWindowInvalidateComplete n i) s = .next s) ∧
      (s.windowReady c = true ↔ c.waits = [] ∧ c.stop ≤ c.next ∧ ∀ o ∈ (s.tinit (0x90 + c.port)).open_, o.owner ≠ .nobody))

/-- A reservation waits in its target's latch and is granted a slot at once where the pool has one and nobody waits; the GRANT lets the
oldest request that may take the slot go, or gives the slot back; a BACKOFF makes the initiator wait BASE × 2 ^ min(STREAK − 1, CAP) ns,
after which it reserves again; a returned lease frees its slot (R251, R252, R255).
Completes: slotReservationArrive, leaseReturnArrive, slotGrantArrive, slotBackoffArrive, backoffExpire. -/
def Obligations.SlotsAreReservedGrantedAndReturned : Prop :=
  ∀ (s s1 : State) (u : Nat) (p : TPkt),
    (s.takeKind .reserve u = .ok (p, s1) →
      exec (.slotReservationArrive u) s = .next (s1.latchReservation u p) ∧
      (arbited u = false → (s1.target u).latches = [] → (s1.target u).used u (poolOf u p.level) < s1.poolSize u (poolOf u p.level) →
        ((s1.latchReservation u p).target u).slots = (s1.target u).slots ++ [⟨p.src, p.level, none, none, none, 0⟩] ∧
        ((s1.latchReservation u p).target u).latches = []) ∧
      (s1.poolSize u (poolOf u p.level) ≤ (s1.target u).used u (poolOf u p.level) →
        ((s1.latchReservation u p).target u).slots = (s1.target u).slots ∧ p ∈ ((s1.latchReservation u p).target u).latches)) ∧
    (∀ x, s.takeKind .giveBack u = .ok (p, s1) →
      (s1.target u).slots.find? (fun x => x.src == p.src && poolOf u x.level == poolOf u p.level && x.rq.isNone) = some x →
      exec (.leaseReturnArrive u) s = .next ((s1.setTarget u { s1.target u with slots := (s1.target u).slots.erase x }).arbitrate u
        (poolOf u p.level))) ∧
    (∀ a, s.takeKind .grant u = .ok (p, s1) → a = s1.setClaim u (claimKey p.src p.level) Claim.zero →
      (∀ o rest, (s1.tinit u).sendable (claimKey p.src p.level) = o :: rest →
        exec (.slotGrantArrive u) s = .next ((a.sendTxn u o 1).reservePools u p.src p.level)) ∧
      ((s1.tinit u).sendable (claimKey p.src p.level) = [] → exec (.slotGrantArrive u) s = .next (a.txnFrom u
        { TPkt.blank with kind := .giveBack, level := p.level, ward := p.ward, src := s1.ep u, dest := p.src }))) ∧
    (s.takeKind .backoff u = .ok (p, s1) →
      exec (.slotBackoffArrive u) s = .next (s1.setClaim u (claimKey p.src p.level)
        ⟨false, s1.waitNow + (s1.obj Obj.backoffBase).toNat * 2 ^ min (p.streak.toNat - 1) (s1.obj Obj.backoffCap).toNat + 1⟩)) ∧
    (∀ tgt level k t, k = 4 * (tgt % 1024) + poolOf (tgt % 1024) level → tgt < 0x300 → u < 0x3F0 →
      (Tbl.get Claim.zero (s.tinit u).claims k).retryAt = t + 1 → s.waitDue t = some s1 →
      exec (.backoffExpire u tgt level) s = .next ((s1.setClaim u k Claim.zero).reserveFor u k)) ∧
    (∀ tgt level t, 0x3F0 ≤ u → Tbl.get 0 s.dict.tries u = t + 1 → s.waitDue t = some s1 →
      exec (.backoffExpire u tgt level) s =
        .next ({ s1 with dict := { s1.dict with tries := Tbl.set 0 s1.dict.tries u 0 } }.pathAsk u))

/-- The first flit of the oldest packet on a transaction link arrives: a whole packet, or the head of a data packet; one inverted bit
changes nothing. A router output passes the packet it serves to the next router when that has room, leaves it where it is otherwise, loses
it towards a region in reset, and hands it to its unit at the end of its way; a snoop for a core is driven on SQ_ as soon as its adapter
can, one whose end-to-end code fails is discarded and raised (R105, R240, R249, R250, R264).
Completes: txnFlitArrive, txnPacketForward. -/
def Obligations.TransactionPacketsTravel : Prop :=
  ∀ (s : State) (n : Nat), s.moves n = true →
    (∀ net i p rest b, (s.tlink (tKey net n i)).queue = p :: rest → net ≠ .data → Tbl.get [] s.txn.bufs (tKey net n i) = [] →
      s.txnInjected net n i = false → b < (netWidth net).1 + (netWidth net).2 + 1 →
      exec (.txnFlitArrive n net i []) s =
        .next (((s.setTlink (tKey net n i) { s.tlink (tKey net n i) with queue := rest }).txnBuffer net n i p).touch n) ∧
      exec (.txnFlitArrive n net i [b]) s = exec (.txnFlitArrive n net i []) s) ∧
    (∀ i p rest, (s.tlink (tKey .data n i)).queue = p :: rest → Tbl.get [] s.txn.bufs (tKey .data n i) = [] →
      (s.tlink (tKey .data n i)).pos = 0 → s.txnInjected .data n i = false →
      exec (.txnFlitArrive n .data i []) s = .next ((s.setTlink (tKey .data n i) { s.tlink (tKey .data n i) with
        pos := 1, asm := some p, entries := [], lost := false }).touch n)) ∧
    (∀ net o i p m, s.txnPick net n o = some (i, p) → o < 4 → s.cfg.neighbour n o = some m →
      (s.regionStateOf (s.regionOf m) = 2 ∨ s.regionStateOf (s.regionOf m) = 3 →
        ((s.tlink (tKey net m (facing o))).queue.length < 2 →
          exec (.txnPacketForward n net o) s = .next (((s.txnTake net n o i).txnSend m (facing o) p).touch n)) ∧
        (2 ≤ (s.tlink (tKey net m (facing o))).queue.length → exec (.txnPacketForward n net o) s = .next s)) ∧
      (s.junctionLost m = true → exec (.txnPacketForward n net o) s = .next ((s.txnTake net n o i).touch n))) ∧
    (∀ net o i p a, s.txnPick net n o = some (i, p) → 4 ≤ o → o < 7 → a = (s.txnTake net n o i).touch n →
      ((p.kind ≠ .snoop ∨ 0x78 ≤ p.dest.toNat % 1024) → exec (.txnPacketForward n net o) s = .next (a.txnArrive p)) ∧
      (∀ c, c = p.dest.toNat % 1024 → p.kind = .snoop → c < 0x78 →
        (a.txnOuterFails n c p = true → exec (.txnPacketForward n net o) s = .next (a.txnOuterRaise n c p)) ∧
        (a.txnOuterFails n c p = false → ∀ t : State, t = { a with txn := { a.txn with snoops := a.txn.snoops ++
            [⟨n, p.src, p.tag.extractLsb' 0 8, p.addr.extractLsb' 0 35, p.code, p.ward, false⟩] } } →
          exec (.txnPacketForward n net o) s = .next (t.snoopsGo n) ∧
          (a.drives n .a = true → (∀ x ∈ a.txn.snoops, x.core = n → x.driven = true) →
            (t.snoopsGo n).out = a.out ++ [.sq n (p.addr.extractLsb' 0 35) p.code (p.tag.extractLsb' 0 8)] ∧ (t.snoopsGo n).objs = a.objs))))

/-- A request fills the slot that was reserved for it, write data join their request, and the target serves what is whole; write data
with errors end the write with UNCORRECTABLE. A completion or read data end the transaction with its TAG and GEN, with their status;
with none open it is a late answer. A gate whose engine waits for one of them goes on (R245, R249, R250, R260).
Completes: txnRequestArrive, txnResponseArrive, txnDataArrive. -/
def Obligations.RequestsAndAnswersArrive : Prop :=
  ∀ (s s1 : State) (u n : Nat) (p : TPkt),
    (s.takeKind .request u = .ok (p, s1) → exec (.txnRequestArrive u) s = .next ((s1.fillSlot u p).serve u) ∧
      (∀ x, (s1.target u).slots.find? (fun x => x.src == p.src && poolOf u x.level == poolOf u p.level && x.rq.isNone) = some x →
        (s1.target u).early = [] →
        s1.fillSlot u p = s1.setTarget u { s1.target u with
          slots := (s1.target u).slots.erase x ++ [{ x with rq := some p, data := none }], early := [] })) ∧
    (∀ t : State, u < 0x80 ∨ 0x90 ≤ u → t.settleUnit u = t) ∧ (∀ (t : State) (g : Nat), g < 16 → t.settleUnit (0x80 + g) = t.collSettle g) ∧
    (s.takeKind .completion u = .ok (p, s1) →
      (∀ o, (s1.tinit u).open_.find? (fun o => o.stage == 2 && o.tag == p.tag && o.gen == p.gen) = some o →
        exec (.txnResponseArrive u) s = .next ((s1.finishTxn u o p.status []).settleUnit u)) ∧
      ((s1.tinit u).open_.find? (fun o => o.stage == 2 && o.tag == p.tag && o.gen == p.gen) = none →
        exec (.txnResponseArrive u) s = .next ((s1.lateAnswer u p.tag p.gen).settleUnit u))) ∧
    (s.cfg.unitJunction u = some n → s.moves n = true → s.takeArrived .data u (fun p => p.dkind != 2) = some (p, s1) →
      (p.dkind = 1 → s1.txnOuterFails n u p = false →
        ∀ o, (s1.tinit u).open_.find? (fun o => o.stage == 2 && o.tag == p.tag && o.gen == p.gen) = some o →
        exec (.txnDataArrive u) s = .next ((s1.finishTxn u o p.status p.beats).settleUnit u)) ∧
      (p.dkind = 1 → s1.txnOuterFails n u p = true →
        exec (.txnDataArrive u) s = .next (((s1.txnOuterRaise n u p).answerArrives u p Status.uncorrectable []).settleUnit u)) ∧
      (p.dkind = 0 → s1.txnOuterFails n u p = false →
        exec (.txnDataArrive u) s = .next (((s1.fillData u { p with status := 0 }).serve u).settleUnit u)) ∧
      (p.dkind = 0 → s1.txnOuterFails n u p = true →
        exec (.txnDataArrive u) s = .next ((((s1.txnOuterRaise n u p).fillData u { p with status := Status.uncorrectable }).serve u).settleUnit u)))

/-- A port accepts a request under a free tag: one that breaks the rules of its OP is answered TARGET_ERROR at once and not sent, one
that no unit serves with the status that says so, any other joins the port's order towards its unit. The tokens of a regulated port
cover it in time. A port whose junction belongs to no active ward answers WARD_REFUSED. The limit of the ward ends it with TIMEOUT, and
its tag stays in quarantine for twice that limit (R242, R244, R259, R260, R410).
Completes: txnRequestAccept, tokenBucketRelease, trResponseBeat, txnTimeoutExpire, tagQuarantineExpire. -/
def Obligations.TransactionsAreAcceptedAnsweredAndTimed : Prop :=
  ∀ (s : State) (n u : Nat) (rq : TxnArgs) (a : TAsk) (g : BitVec 4), g = Tbl.get 0 (s.tinit n).gens rq.tag.toNat →
    (s.cfg.corePort n = true → n < 0x78 → s.adapterLive n .a = true → s.moves n = true → rq.tag.toNat < 256 →
      (s.tinit n).tagFree rq.tag = true → (s.tinit n).open_.length + (s.tinit n).ready.length < s.cfg.outstanding n →
      a = ⟨rq.op, rq.addr, rq.lenM1, s.levelOf ((s.wardOf n).getD 0) rq.prio, (s.wardOf n).getD 0, rq.data, rq.strb⟩ →
      (s.portClosed n = false → s.breaksRules n a.shaped = true → ∃ t : State, exec (.txnRequestAccept n rq) s = .next t ∧
        (t.tinit n).ready = (s.tinit n).ready ++ [⟨rq.tag, Status.targetError, [0]⟩] ∧ (t.tinit n).open_ = (s.tinit n).open_ ∧
        t.txn.links = s.txn.links ∧ t.objs = s.objs) ∧
      (s.portClosed n = false → s.breaksRules n a.shaped = false → a.op ≠ 6 →
        (∀ st, s.routeOf n a.shaped = .none st → st ≠ Status.wardRefused → st ≠ 0 → ∃ t : State,
          exec (.txnRequestAccept n rq) s = .next t ∧ (t.tinit n).ready = (s.tinit n).ready ++ [⟨rq.tag, st, [0]⟩] ∧
          (t.tinit n).open_ = (s.tinit n).open_ ∧ t.txn.links = s.txn.links ∧ t.objs = s.objs) ∧
        (∀ w, s.routeOf n a.shaped = .unit w → exec (.txnRequestAccept n rq) s =
          .next (((s.setTinit n { s.tinit n with gens := Tbl.set 0 (s.tinit n).gens rq.tag.toNat (g + 1) }).openTxn n a.shaped
            (s.ep w) rq.tag g .port).touch n))) ∧
      (s.portClosed n = false → s.breaksRules n a.shaped = false → a.op = 6 → exec (.txnRequestAccept n rq) s =
        .next (((s.setTinit n { s.tinit n with gens := Tbl.set 0 (s.tinit n).gens rq.tag.toNat (g + 1) }).openTxn n a.shaped 0
          rq.tag g .port).touch n)) ∧
      (s.portClosed n = true → ∃ t : State, exec (.txnRequestAccept n rq) s = .next t ∧
        (t.tinit n).ready = (s.tinit n).ready ++ [⟨rq.tag, Status.wardRefused, [0]⟩] ∧ t.txn.links = s.txn.links ∧
        t.rd (.txnRefused n) = min (s.rd (.txnRefused n) + 1) 255)) ∧
    (s.running = true → s.frozen = false → (s.tinit 0xC1).tagFree rq.tag = true → exec (.txnRequestAccept 0xC1 rq) s =
      .next (s.acceptTxn 0xC1 ⟨rq.op, rq.addr, rq.lenM1, 3, 0, rq.data, rq.strb⟩ rq.tag .port)) ∧
    (∀ o, (s.tinit u).open_.find? (fun o => o.stage == 0) = some o → s.frozen = false →
      exec (.tokenBucketRelease u) s = .next ((s.advance (s.tokenWait u o).1).txnGo u)) ∧
    (∀ r b rest more, (s.tinit u).ready = r :: rest → r.beats = b :: more → s.running = true → s.frozen = false →
      (u < 0x78 → s.adapterLive ((s.cfg.unitJunction u).getD 0) .a = true ∧
        s.junctionActive ((s.cfg.unitJunction u).getD 0) = true) → ∃ t : State,
      exec (.trResponseBeat u) s = .next t ∧ t.out = s.out ++ [.tr u r.tag r.status b more.isEmpty] ∧ t.objs = s.objs ∧
      (t.tinit u).ready = (if more.isEmpty then rest else { r with beats := more } :: rest)) ∧
    (∀ tag o s1, (s.tinit u).open_.find? (fun o => o.tag == tag) = some o →
      s.txnDue (o.since + (s.obj (Obj.txnTimeout o.ward.toNat)).toNat) = some s1 →
      exec (.txnTimeoutExpire u tag) s = .next (s1.timeoutTxn u o)) ∧
    (∀ tag q s1, (s.tinit u).quarantine.find? (fun q => q.1.tag == tag) = some q → s.txnDue q.2 = some s1 → ∃ t : State,
      exec (.tagQuarantineExpire u tag) s = .next t ∧ (∀ y ∈ (t.tinit u).quarantine, y.1.tag ≠ tag) ∧
      (t.tinit u).open_ = (s.tinit u).open_ ∧ t.objs = s1.objs)

/-- A host request tagged with a ward that HOST_WARD_MASK leaves out, or that is being reclaimed, is answered WARD_REFUSED, any other is
accepted in its ward at the ward's level; one to the mailbox window goes to the mailbox. A beat of read data and a completion bring their status; the slot of the command is answered when its data are whole.
A core's and a host controller's answers free the slot that waits for them; one that is kept waiting for twice TXN_TIMEOUT is freed and
raised; a later answer is discarded (R49, R51 to R54, R56, R261).
Completes: hostInboundRequest, coreTargetAnswer, maCommandIssue, maReadData, maWriteCompletion, hostCompletionArrive,
targetSlotTimeout. -/
def Obligations.TargetsAnswerTheirSlots : Prop :=
  ∀ (s : State) (n : Nat),
    (∀ pt w rq, s.cfg.unitAt 3 pt = some n → s.moves n = true → s.adapterLive n .b = true → (s.tinit (0x90 + pt)).tagFree rq.tag = true →
      (exec (.hostInboundRequest pt w true rq) s = .next (HostPort.mailbox pt rq s)) ∧
      ((s.obj (Obj.hostWardMask pt)).getLsbD w.toNat = false ∨ s.wardReclaiming w = true → exec (.hostInboundRequest pt w false rq) s =
        .next ((s.emit (.hip pt rq.tag Status.wardRefused (answerBeats rq.op Status.wardRefused []))).touch n)) ∧
      ((s.obj (Obj.hostWardMask pt)).getLsbD w.toNat = true → s.wardReclaiming w = false →
        exec (.hostInboundRequest pt w false rq) s = .next ((s.acceptTxn (0x90 + pt)
          ⟨rq.op, rq.addr, rq.lenM1, BitVec.ofNat 2 (s.rd (.regLevel w.toNat)), w, rq.data, rq.strb⟩ rq.tag .host).touch n))) ∧
    (∀ tag status data, s.moves n = true → s.cfg.corePort n = true → n < 0x78 → s.adapterLive n .a = true →
      (∀ p, s.slotBehind n tag.toNat = some p →
        exec (.coreTargetAnswer n tag status data) s = .next (((s.slotAnswer n p.src p.tag p.gen status data).serve n).touch n)) ∧
      (s.slotBehind n tag.toNat = none → exec (.coreTargetAnswer n tag status data) s = .next (s.dropOwed n tag))) ∧
    (∀ a c t, s.cfg.unitAt 1 a = some n → nextCmd [] (s.masOf a) = some c →
      ((List.range (s.cfg.maTags.getD a 0)).map (BitVec.ofNat 10)).find? (fun t => !(s.masOf a).any (fun x => x.issued == some t) &&
        !s.owes (0xA0 + a) t) = some t →
      s.moves n = true → s.adapterLive n .b = true → (c.write = true ∨ readReserved (s.masOf a) + c.size ≤ (s.obj Obj.maReadBuffer).toNat) →
      exec (.maCommandIssue a) s = .next (((s.setMas a ((s.masOf a).map (fun x => if x = c then { c with issued := some t } else x))).emit
        (.mq a t c.write (BitVec.ofNat 35 (c.addr / 64)) (BitVec.ofNat 3 (blockCode c.size))
          (if c.write then c.beats else []) (if c.write then c.strb else []))).touch n)) ∧
    (∀ a tag data status c c' a1, s.cfg.unitAt 1 a = some n → (s.masOf a).find? (fun c => c.issued == some tag && !c.write) = some c →
      s.pin.inReset = false → s.junctionLost n = false → s.adapterLive n .b = true →
      c' = { c with beats := c.beats ++ [data], status := if c.holds c.beats.length = true ∧ c.status = 0 then status else c.status } →
      a1 = (s.setMas a ((s.masOf a).map (fun x => if x = c then c' else x))).maRaise n ((s.cmdSlot a c).map (·.ward))
        (if c.holds c.beats.length = true then status else 0) →
      ((c.beats.length + 1 < blockBeats c.size → exec (.maReadData a tag data status) s = .next a1) ∧
        (blockBeats c.size ≤ c.beats.length + 1 → exec (.maReadData a tag data status) s = .next (a1.readDone a c')))) ∧
    (∀ a tag st c, s.cfg.unitAt 1 a = some n → (s.masOf a).find? (fun c => c.issued == some tag && c.write) = some c →
      s.pin.inReset = false → s.junctionLost n = false → s.adapterLive n .b = true →
      exec (.maWriteCompletion a tag st) s =
        .next ((s.maRaise n ((s.cmdSlot a c).map (·.ward)) st).maFinish a c (maStatus st) (if c.second then [c.old] else []))) ∧
    (∀ pt tag status data, s.cfg.unitAt 3 pt = some n → s.drives n .b = true →
      (∀ p, s.slotBehind (0x90 + pt) tag.toNat = some p → exec (.hostCompletionArrive pt tag status data) s =
        .next (((s.slotAnswer (0x90 + pt) p.src p.tag p.gen status data).serve (0x90 + pt)).touch n)) ∧
      (s.slotBehind (0x90 + pt) tag.toNat = none →
        exec (.hostCompletionArrive pt tag status data) s = .next (s.takeOwed (0x90 + pt) n tag))) ∧
    (∀ u src tag x p t0 s1, (s.target u).slots.find? (fun x => x.src == src && (x.rq.map (·.tag)) == some tag && x.waitsBehind u) = some x →
      x.rq = some p → x.since = some t0 → s.txnDue (t0 + 2 * (s.obj (Obj.txnTimeout p.ward.toNat)).toNat) = some s1 →
      exec (.targetSlotTimeout u src tag) s = .next (((((s1.giveUp u x false).setTarget u { s1.target u with
        slots := (s1.target u).slots.erase x }).raise (Cause.atUnit 0x051 (some p.ward) ((s.cfg.unitJunction u).getD 0)
          (unitInput u) 0x3F 0xFFFF)).arbitrate u (poolOf u p.level)).serve u))

/-- A core's reply to a snoop it was asked leaves its port over the snoop network, its line over the data network. At the home a reply
that the networks have brought, or the agent's on HXP_, is combined into the transaction, the agent's snoop or the window write that waits
for it: the last one lets it go on. An agent's snoop ends with the strongest reply and the dirty line on HSP_. Replies that do not come
within TXN_TIMEOUT are taken as INVALID, which is raised. A snoop of the agent goes to every core of the line's ward that holds a coherent
cache; with none, it is answered INVALID at once (R248, R249, R264, R265). Completes: snoopReplyArrive, snoopTimeout, hostSnoopArrive. -/
def Obligations.SnoopsAreSentAndCombined : Prop :=
  ∀ (s : State) (pt n : Nat) (stag : BitVec 8),
    (∀ c resp line x a, c < 0x78 → s.drives c .a = true →
      s.txn.snoops.find? (fun x => x.core == c && x.home.toNat == 0x90 + pt && x.stag == stag && x.driven) = some x →
      a = { s with txn := { s.txn with snoops := s.txn.snoops.erase x } }.txnFrom c { TPkt.blank with
        kind := .snoopReply, ward := x.ward, tag := stag.setWidth 10, code := resp, hasData := line.isSome, src := BitVec.ofNat 16 c
        dest := x.home, addr := x.line.setWidth 64 } →
      (line = none → exec (.snoopReplyArrive c (0x90 + pt) stag resp line) s = .next (a.touch c)) ∧
      (∀ l : BitVec 512, line = some l → exec (.snoopReplyArrive c (0x90 + pt) stag resp line) s = .next ((a.txnFrom c { TPkt.blank with
        kind := .data, dkind := 2, ward := x.ward, tag := stag.setWidth 10, src := a.ep c, dest := a.ep (0x90 + pt)
        beats := [l.setWidth 1024] }).touch c))) ∧
    (∀ resp line, s.cfg.unitAt 3 pt = some n → s.drives n .b = true →
      exec (.snoopReplyArrive (0x90 + pt) (0x90 + pt) stag resp line) s =
        .next ((s.combineReply pt (0x90 + pt) stag resp line false).touch n)) ∧
    (∀ src resp line p s1, s.cfg.unitAt 3 pt = some n → s.moves n = true → src ≠ 0x90 + pt →
      s.takeArrived .snoop (0x90 + pt) (fun p => p.kind == .snoopReply && p.src.toNat == src && p.tag == stag.setWidth 10) = some (p, s1) →
      s.txnOuterFails n (0x90 + pt) p = false →
      (p.hasData = false → exec (.snoopReplyArrive (0x90 + pt) src stag resp line) s =
        .next ((s1.combineReply pt src stag p.code none false).touch n)) ∧
      (∀ d s2, p.hasData = true → s1.takeArrived .data (0x90 + pt) (fun d => d.dkind == 2 && d.src.toNat % 1024 == src &&
          d.tag == stag.setWidth 10) = some (d, s2) → s2.txnOuterFails n (0x90 + pt) d = false →
        exec (.snoopReplyArrive (0x90 + pt) src stag resp line) s =
          .next ((s2.combineReply pt src stag p.code (some ((d.beats.headD 0).setWidth 512)) false).touch n))) ∧
    (∀ src resp line h, s.txn.homes.find? (fun h => h.1 == pt && h.2.stag == stag && h.2.waits.contains src) = some (pt, h) →
      s.combineReply pt src stag resp line false = s.homeWent pt h { h with
        waits := h.waits.erase src
        dirty := if resp = 2 ∧ line.isSome = true then Tbl.set none h.dirty (h.lines.headD 0) line else h.dirty }) ∧
    (∀ src resp line g, s.cfg.unitAt 3 pt = some n → s.drives n .b = true →
      s.txn.homes.find? (fun h => h.1 == pt && h.2.stag == stag && h.2.waits.contains src) = none →
      s.txn.agents.find? (fun g => g.port == pt && g.stag == stag && g.waits.contains src) = some g → g.waits = [src] →
      (s.combineReply pt src stag resp line false).objs = s.objs ∧
      (s.combineReply pt src stag resp line false).out = s.out ++
        [.hsp pt g.tag (if resp = 2 ∧ line.isSome = true then 2 else if resp = 1 ∧ g.resp = 0 then 1 else g.resp)
          (if resp = 2 ∧ line.isSome = true then line else if g.resp = 2 then g.data else none)]) ∧
    (∀ h s1, s.cfg.unitAt 3 pt = some n →
      s.txn.homes.find? (fun h => h.1 == pt && h.2.stag == stag && !h.2.waits.isEmpty) = some (pt, h) →
      s.txnDue (h.since + (s.obj (Obj.txnTimeout h.ward.toNat)).toNat) = some s1 →
      exec (.snoopTimeout (0x90 + pt) stag) s = .next ((s1.snoopRaise n (some h.ward)).homeWent pt h { h with waits := [], failed := true })) ∧
    (∀ g w s1, s.cfg.unitAt 3 pt = some n → s.txn.homes.find? (fun h => h.1 == pt && h.2.stag == stag && !h.2.waits.isEmpty) = none →
      s.txn.agents.find? (fun g => g.port == pt && g.stag == stag && !g.waits.isEmpty) = some g → w = s.lineWard g.line →
      s.txnDue (g.since + (s.obj (Obj.txnTimeout (w.getD 0).toNat)).toNat) = some s1 →
      exec (.snoopTimeout (0x90 + pt) stag) s = .next ((s1.snoopRaise n w).agentNext { g with waits := [] })) ∧
    (∀ c w s1, s.cfg.unitAt 3 pt = some n → s.txn.homes.find? (fun h => h.1 == pt && h.2.stag == stag && !h.2.waits.isEmpty) = none →
      s.txn.agents.find? (fun g => g.port == pt && g.stag == stag && !g.waits.isEmpty) = none →
      s.txn.cohWaits.find? (fun c => c.port == pt && c.stag == stag && !c.waits.isEmpty) = some c → w = s.lineWard c.next →
      s.txnDue (c.since + (s.obj (Obj.txnTimeout (w.getD 0).toNat)).toNat) = some s1 →
      exec (.snoopTimeout (0x90 + pt) stag) s = .next ((s1.snoopRaise n w).windowWent c { c with waits := [] } none)) ∧
    (∀ line ty tag w cores a g, s.cfg.unitAt 3 pt = some n → s.cfg.hsnp.getD pt false = true → s.drives n .b = true →
      w = s.lineWard line.toNat → (w = none → cores = []) → (∀ x, w = some x → cores = s.snoopers x 0x3FF) →
      g = ⟨pt, tag, s.freeStag pt, line.toNat, cores, s.txnNow, 0, none⟩ →
      a = s.snoopLine pt (w.getD 0) ty (s.freeStag pt) line.toNat cores false →
      exec (.hostSnoopArrive pt line ty tag) s =
        .next (({ a with txn := { a.txn with agents := a.txn.agents ++ [g] } }.agentNext g).touch n) ∧
      (cores = [] → ({ a with txn := { a.txn with agents := a.txn.agents ++ [g] } }.agentNext g).out = s.out ++ [.hsp pt tag 0 none]) ∧
      (cores ≠ [] → ({ a with txn := { a.txn with agents := a.txn.agents ++ [g] } }.agentNext g).out = s.out) ∧
      ({ a with txn := { a.txn with agents := a.txn.agents ++ [g] } }.agentNext g).objs = s.objs)

/-! ## Services, mailboxes and the management bus -/

/-- The power manager grants a request that the core budget and a warning supply allow, else answers OVER_BUDGET or THROTTLED with the
grant that stands, and INVALID to a message of another form. A request to the service endpoint waits in its queue of 16 and asks for its
turn; one of a CMD not taken there, or with too few words, is answered with its abort code; a message to another socket, or past a full
queue, gets its NAK. A mailbox takes writes while it is not BUSY and sets OVERRUN else; its doorbell posts the request, which asks for
its turn (R228, R441, R442, R449, R469, R471). How the turns are asked for is the model's (log entry 141).
Completes: pstateRequest, serviceMessageReceive, mailboxRequestWrite, mailboxDoorbell. -/
def Obligations.ServicesTakeTheirMessages : Prop :=
  ∀ (s : State),
    (∀ (m : CtlMsg) (a : State) (old : Grant), s.arrivedAt 0xC0 = some m → s.running = true → s.frozen = false → m.nak = false → m.kind = 0 →
      a = (s.arrivedDone 0xC0).afterOuter s.cfg.mgmtAt 6 →
      old = ({ a.grant m.src with sock := BitVec.ofNat 5 ((m.words.getD 0 0).toNat / 65536), ward := m.ward } : Grant) →
      ∀ ps pw budget : Nat, ps = (m.words.getD 0 0).toNat % 16 → pw = (m.words.getD 1 0).toNat % 65536 → budget = (a.obj Obj.coreBudget).toNat →
      (s.outerFails s.cfg.mgmtAt 6 m = true → exec .pstateRequest s = .next (a.refuse s.cfg.mgmtAt 6 m Nak.corrupt)) ∧
      (s.outerFails s.cfg.mgmtAt 6 m = false →
        (s.coreRuns = false → exec .pstateRequest s = .next (a.refuse s.cfg.mgmtAt 6 m Nak.notReady)) ∧
        (s.coreRuns = true → m.words.length ≠ 3 ∨ m.sock ≠ 0 →
          exec .pstateRequest s = .next (a.pstateReply m.src 4 (m.words.getD 2 0) old)) ∧
        (s.coreRuns = true → m.words.length = 3 → m.sock = 0 →
          (budget = 0xFFFF ∨ a.grantedBut m.src.toNat + pw ≤ budget →
            (a.warn = false ∨ ps ≤ (a.obj Obj.throttlePstate).toNat → exec .pstateRequest s =
              .next ((a.setGrant m.src { old with pstate := ps, power := pw }).pstateReply m.src 0 (m.words.getD 2 0)
                { old with pstate := ps, power := pw })) ∧
            (a.warn = true → (a.obj Obj.throttlePstate).toNat < ps →
              exec .pstateRequest s = .next ((a.setGrant m.src old).pstateReply m.src 2 (m.words.getD 2 0) old))) ∧
          (budget ≠ 0xFFFF → budget < a.grantedBut m.src.toNat + pw →
            exec .pstateRequest s = .next ((a.setGrant m.src old).pstateReply m.src 1 (m.words.getD 2 0) old))))) ∧
    (∀ (m : CtlMsg) (a b : State) (acc : Access) (w0 w1 cmd : Nat) (asks : State → State), s.arrivedAt 0xC1 = some m → s.running = true →
      s.frozen = false → m.nak = false → m.kind = 0 → a = (s.arrivedDone 0xC1).afterOuter s.cfg.mgmtAt 6 →
      b = { a with dict := { a.dict with service := a.dict.service ++ [⟨m.src, m.ward, m.words⟩] } } →
      w0 = (m.words.getD 0 0).toNat → w1 = (m.words.getD 1 0).toNat → cmd = w0 % 256 →
      acc = ⟨.service m.src m.ward (BitVec.ofNat 5 (w0 / 65536)), BitVec.ofNat 2 (w0 / 256), m.words.getD 2 0⟩ →
      (∀ x : State, asks x = if x.dict.service.isEmpty then x else x.pathAsk (pathUnitBase + 3)) →
      (s.outerFails s.cfg.mgmtAt 6 m = true → exec .serviceMessageReceive s = .next (a.refuse s.cfg.mgmtAt 6 m Nak.corrupt)) ∧
      (s.outerFails s.cfg.mgmtAt 6 m = false →
        (m.sock ≠ 0 → exec .serviceMessageReceive s = .next (a.refuse s.cfg.mgmtAt 6 m Nak.noSocket)) ∧
        (m.sock = 0 → 16 ≤ a.dict.service.length →
          exec .serviceMessageReceive s = .next (a.refuse s.cfg.mgmtAt 6 m Nak.queueFull)) ∧
        (m.sock = 0 → a.dict.service.length < 16 →
          ((cmd = 1 ∨ cmd = 7) ∧ 3 ≤ m.words.length ∨ cmd = 2 ∧ 5 ≤ m.words.length ∨ b.servesNow acc = false →
            exec .serviceMessageReceive s = .next (asks b)) ∧
          (b.servesNow acc = true → cmd ≠ 1 → cmd ≠ 2 → cmd ≠ 7 → exec .serviceMessageReceive s =
            .next (asks (b.refuseNow acc cmd (w1 % 65536) (w1 / 65536 % 256) 0 .badCommand))) ∧
          (b.servesNow acc = true → (cmd = 1 ∨ cmd = 7) ∧ m.words.length < 3 ∨ cmd = 2 ∧ m.words.length < 5 →
            exec .serviceMessageReceive s = .next (asks (b.refuseNow acc cmd (w1 % 65536) (w1 / 65536 % 256) 0 .length)))))) ∧
    (∀ p off b, s.mailboxLive p = true → off < 1152 → ∃ t : State, exec (.mailboxRequestWrite p off [b]) s = .next t ∧
      t.objs = s.objs ∧ t.out = s.out ∧ (t.mailbox p).busy = (s.mailbox p).busy ∧
      ((s.mailbox p).busy = false → (t.mailbox p).request.getD off 0 = b ∧
        (∀ j, j < 1152 → j ≠ off → (t.mailbox p).request.getD j 0 = (padTo 1152 (s.mailbox p).request).getD j 0)) ∧
      ((s.mailbox p).busy = true → (t.mailbox p).request = (s.mailbox p).request ∧ (t.mailbox p).overrun = true)) ∧
    (∀ p off bs, s.mailboxLive p = true → exec (.mailboxRequestWrite p off bs) s =
      .next (s.setMailbox p ((s.mailbox p).put off (bs.map some)))) ∧
    (∀ p q (acc : Access) (a : State), s.mailboxLive p = true → q = ReqPdu.ofBytes (padTo 1152 (s.mailbox p).request) →
      acc = ⟨.mailbox p, q.level, q.reqId⟩ →
      a = s.setMailbox p { s.mailbox p with busy := true, done := false, overrun := false } →
      ((s.mailbox p).busy = false → listedCmd q.cmd = true ∨ a.servesNow acc = false →
        exec (.mailboxDoorbell p) s = .next (a.pathAsk (pathUnitBase + 1 + p))) ∧
      ((s.mailbox p).busy = false → listedCmd q.cmd = false → a.servesNow acc = true → ∀ b,
        b = a.refuseNow acc q.cmd q.index q.sub q.xfer .badCommand →
        exec (.mailboxDoorbell p) s = .next (if (b.mailbox p).busy then b.pathAsk (pathUnitBase + 1 + p) else b)) ∧
      ((s.mailbox p).busy = true →
        exec (.mailboxDoorbell p) s = .next (s.setMailbox p { s.mailbox p with overrun := true })))

/-- The I3C target takes, changes and gives up its dynamic address, answers with its provisional identifier, and enables or disables its
interrupts. A packet past the receive buffer of 4 KiB, or with no core to serve it, is not acknowledged. An MCTP message of the
dictionary's type and enterprise number waits as the bus's request and asks for its turn, a second one before the answer is answered
PATH_BUSY, and other types are discarded. Every message sent is announced by an in-band interrupt of 0xAE unless those are disabled.
Control and SPDM requests are answered, SPDM ones with UnsupportedRequest before the device key exists and UnexpectedRequest before
the algorithms are agreed (R59 to R61, R443, R457). The layouts of the common command codes, of control and of SPDM messages are the
model's, of the standards the spec names (log entries 22 and 173).
Completes: i3cCcc, mctpMessageReceive, mctpControlMessage, getVersion, getCapabilities, negotiateAlgorithms, getDigests,
getCertificate, challenge, getMeasurements. -/
def Obligations.TheManagementBusIsServed : Prop :=
  ∀ (s : State),
    (∀ ty mtag bs, (s.mctpSend ty mtag bs).out = s.out ++ [.mctp ty mtag bs] ++ (if s.pin.ibiOff then [] else [.ibi 0xAE]) ∧
      (s.mctpSend ty mtag bs).objs = s.objs) ∧
    (s.running = true →
      (∀ x : BitVec 7, (s.pin.dynAddr = none → exec (.i3cCcc (.entdaa x)) s =
          .next (({ s with pin := { s.pin with dynAddr := some x } } : State).emit
            (.ccc ((leBytes 6 s.provisionalId.toNat).reverse ++ Config.freeBytes s.drawn 2))).draw) ∧
        (∀ y, s.pin.dynAddr = some y → exec (.i3cCcc (.entdaa x)) s = .next s ∧
          exec (.i3cCcc (.setnewda x)) s = .next { s with pin := { s.pin with dynAddr := some x } })) ∧
      exec (.i3cCcc .rstdaa) s = .next { s with pin := { s.pin with dynAddr := none } } ∧
      (∀ y : BitVec 7, s.pin.dynAddr = some y →
        exec (.i3cCcc .getpid) s = .next (s.emit (.ccc (leBytes 6 s.provisionalId.toNat).reverse)) ∧
        exec (.i3cCcc .getbcr) s = .next (s.emit (.ccc (Config.freeBytes s.drawn 1))).draw ∧
        exec (.i3cCcc .getdcr) s = .next (s.emit (.ccc (Config.freeBytes s.drawn 1))).draw ∧
        exec (.i3cCcc .getstatus) s = .next (s.emit (.ccc (Config.freeBytes s.drawn 2))).draw) ∧
      (s.pin.dynAddr = none → ∀ x, exec (.i3cCcc .getpid) s = .next s ∧ exec (.i3cCcc .getbcr) s = .next s ∧
        exec (.i3cCcc .getdcr) s = .next s ∧ exec (.i3cCcc .getstatus) s = .next s ∧ exec (.i3cCcc (.setnewda x)) s = .next s) ∧
      (∀ v, v.getLsbD 0 = true → exec (.i3cCcc (.enec v)) s = .next { s with pin := { s.pin with ibiOff := false } } ∧
        exec (.i3cCcc (.disec v)) s = .next { s with pin := { s.pin with ibiOff := true } }) ∧
      (∀ v, v.getLsbD 0 = false → exec (.i3cCcc (.enec v)) s = .next s ∧ exec (.i3cCcc (.disec v)) s = .next s) ∧
      (∀ c, exec (.i3cCcc (.other c)) s = .next s)) ∧
    (∀ (ty : BitVec 8) (iana : BitVec 32) (mtag : BitVec 3) (body : List (BitVec 8)) q (acc : Access) (a : State) (bytes : Nat),
      s.running = true → q = ReqPdu.ofBytes body → acc = ⟨.bus, q.level, q.reqId⟩ →
      a = { s with dict := { s.dict with bus := some (mtag, body) } } → bytes = body.length + (if ty = 0x7F then 4 else 0) →
      (s.busServed = false ∨ 4096 < s.busBytes bytes → exec (.mctpMessageReceive ty iana mtag body) s = .next (s.emit .nack)) ∧
      (s.busServed = true → s.busBytes bytes ≤ 4096 →
        (ty = 5 → exec (.mctpMessageReceive ty iana mtag body) s = .next { s with dict := { s.dict with spdm := mtag } }) ∧
        (ty ≠ 5 → ty ≠ 0x7F ∨ iana.setWidth 64 ≠ s.obj Obj.mctpIana ∨ body.length < 16 →
          exec (.mctpMessageReceive ty iana mtag body) s = .next s) ∧
        (ty = 0x7F → iana.setWidth 64 = s.obj Obj.mctpIana → 16 ≤ body.length →
          (s.dict.bus = none → listedCmd q.cmd = true ∨ a.servesNow acc = false →
            exec (.mctpMessageReceive ty iana mtag body) s = .next (a.pathAsk pathUnitBase)) ∧
          (s.dict.bus = none → listedCmd q.cmd = false → a.servesNow acc = true → ∀ b,
            b = a.refuseNow acc q.cmd q.index q.sub q.xfer .badCommand →
            exec (.mctpMessageReceive ty iana mtag body) s = .next (if b.dict.bus.isSome then b.pathAsk pathUnitBase else b)) ∧
          (s.dict.bus.isSome = true → exec (.mctpMessageReceive ty iana mtag body) s =
            .next ((s.bump .aborts 1).mctpSend 0x7F mtag (ianaBytes (s.obj Obj.mctpIana).toNat ++
              (Reply.aborted (s.typeOf q.index q.sub) q.xfer .pathBusy).bytes q.cmd q.index q.sub q.reqId)))))) ∧
    (∀ (mtag : BitVec 3) (head cmd : Byte) (data bs : List Byte) (eid : Byte), s.running = true →
      (cmd = 1 → bs = [0, 0, data.getD 1 0, 0] ∧ eid = data.getD 1 0) → (cmd ≠ 1 → eid = s.dict.eid) →
      (cmd = 2 → bs = [0, s.dict.eid, 0, 0]) → (cmd = 4 → bs = [0, 1, 0xF1, 0xF3, 0xF1, 0]) → (cmd = 5 → bs = [0, 2, 5, 0x7F]) →
      (cmd ≠ 1 → cmd ≠ 2 → cmd ≠ 4 → cmd ≠ 5 → bs = [5]) →
      (s.busServed = false ∨ 4096 < s.busBytes (data.length + 2) →
        exec (.mctpControlMessage mtag (head :: cmd :: data)) s = .next (s.emit .nack)) ∧
      (s.busServed = true → s.busBytes (data.length + 2) ≤ 4096 →
        (head.getLsbD 7 = true → exec (.mctpControlMessage mtag (head :: cmd :: data)) s =
          .next (({ s with dict := { s.dict with eid := eid } } : State).mctpSend 0 mtag ([head &&& 0x1F, cmd] ++ bs))) ∧
        (head.getLsbD 7 = false → exec (.mctpControlMessage mtag (head :: cmd :: data)) s = .next s))) ∧
    (∀ (c : Instr) (request : Byte) asym hash meas slot off len nonce mh index,
      (c = .getVersion ∧ request = 0x84 ∨ c = .getCapabilities ∧ request = 0xE1 ∨
        c = .negotiateAlgorithms asym hash meas ∧ request = 0xE3 ∨ c = .getDigests ∧ request = 0x81 ∨
        c = .getCertificate slot off len ∧ request = 0x82 ∨ c = .challenge slot nonce mh ∧ request = 0x83 ∨
        c = .getMeasurements index nonce ∧ request = 0xE0) →
      (s.busServed = false → exec c s = .next s) ∧
      (s.busServed = true → s.boot.provFused = false →
        exec c s = .next (s.mctpSend 5 s.dict.spdm [0x13, 0x7F, 0x07, request])) ∧
      (s.busServed = true → s.boot.provFused = true → s.boot.negotiated = false → request < 0x84 ∨ request = 0xE0 →
        exec c s = .next (s.mctpSend 5 s.dict.spdm [0x13, 0x7F, 0x04, 0]))) ∧
    (s.busServed = true → s.boot.provFused = true → ∀ send : State → List Byte → State,
      (∀ a bs, send a bs = State.mctpSend a 5 s.dict.spdm bs) →
      exec .getVersion s =
        .next (send { s with boot := { s.boot with negotiated := false } } [0x10, 0x04, 0, 0, 0, 1, 0x00, 0x13]) ∧
      exec .getCapabilities s = .next (send s ([0x13, 0x61, 0, 0, 0, (Config.freeValue s.drawn).setWidth 8, 0, 0] ++
        leBytes 4 0x16 ++ leBytes 4 4096 ++ leBytes 4 4096)).draw ∧
      (∀ (asym hash : BitVec 32) (meas : BitVec 8) (sel : Bool → Nat → Nat), (∀ b v, sel b v = if b then v else 0) →
        exec (.negotiateAlgorithms asym hash meas) s =
          .next (send { s with boot := { s.boot with negotiated := asym.getLsbD 7 && hash.getLsbD 1 } } ([0x13, 0x63, 0, 0] ++
            leBytes 2 36 ++ [BitVec.ofNat 8 (sel (meas.getLsbD 0) 1), 0] ++ leBytes 4 (sel (meas.getLsbD 0) 4) ++
            leBytes 4 (sel (asym.getLsbD 7) 0x80) ++ leBytes 4 (sel (hash.getLsbD 1) 2) ++ List.replicate 16 0))) ∧
      (s.boot.negotiated = true → ∀ chain, chain = s.certChain →
        exec .getDigests s = .next (send s ([0x13, 0x01, 1, s.slotMask] ++ (if s.boot.certFused then sha384 chain else []))) ∧
        (∀ (slot : BitVec 4) (off len : BitVec 16) (part : List Byte),
          (slot ≠ 0 ∨ s.boot.certFused = false ∨ chain.length < off.toNat →
            exec (.getCertificate slot off len) s = .next (send s [0x13, 0x7F, 0x01, 0])) ∧
          (slot = 0 → s.boot.certFused = true → off.toNat ≤ chain.length → part = (chain.drop off.toNat).take len.toNat →
            exec (.getCertificate slot off len) s = .next (send s ([0x13, 0x02, 0, 0] ++ leBytes 2 part.length ++
              leBytes 2 (chain.length - off.toNat - part.length) ++ part)))) ∧
        (∀ (slot : BitVec 4) (nonce : BitVec 256) (mh : BitVec 8) (summary msg : List Byte),
          (slot ≠ 0 ∨ s.boot.certFused = false → exec (.challenge slot nonce mh) s = .next (send s [0x13, 0x7F, 0x01, 0])) ∧
          (slot = 0 → s.boot.certFused = true → summary = (if mh = 1 then sha384 (s.measBlock 1)
              else if mh = 0xFF then sha384 ([1, 2, 3, 4].flatMap s.measBlock) else []) →
            msg = [0x13, 0x03, 0, 1] ++ sha384 chain ++ Config.freeBytes s.drawn 32 ++ summary ++ leBytes 2 0 ++ List.replicate 8 0 →
            exec (.challenge slot nonce mh) s =
              .next (send s (msg ++ Config.deviceSign s.drawn (leBytes 32 nonce.toNat ++ msg))).draw)) ∧
        (∀ (index : BitVec 8) (nonce : BitVec 256) (ixs : List Nat) (blocks msg : List Byte),
          (5 ≤ index.toNat → index ≠ 0xFF → exec (.getMeasurements index nonce) s = .next (send s [0x13, 0x7F, 0x01, 0])) ∧
          (index.toNat < 5 ∨ index = 0xFF →
            ixs = (if index = 0xFF then [1, 2, 3, 4] else if index = 0 then [] else [index.toNat]) →
            blocks = ixs.flatMap s.measBlock →
            msg = [0x13, 0x60, if index = 0 then 4 else 0, 0, BitVec.ofNat 8 ixs.length] ++ leBytes 3 blocks.length ++ blocks ++
              Config.freeBytes s.drawn 32 ++ leBytes 2 0 ++ List.replicate 8 0 →
            exec (.getMeasurements index nonce) s =
              .next (send s (msg ++ Config.deviceSign s.drawn (leBytes 32 nonce.toNat ++ msg))).draw))))

/-! ## The tensor plane -/

/-- An ingress takes the beats of the run its live list expects next, one flit or two, and refuses another flow, which is raised once;
a beat it cannot take stays offered, and one that is offered to a gated junction wakes its region. The adapter drives the flits delivered
at its port in order, two of one run in a beat where it has the width. A wake request at a gated junction wakes its region, the hold of
a wake-ahead ends, and the gauge keeps its least rate (R36, R38 to R40, R50, R101, R126, R129).
Completes: tensorInjectBeat, tensorDeliverBeat, coreWakeRequest, wakeHoldExpire, paceGaugeWindow. -/
def Obligations.TensorBeatsEnterAndLeave : Prop :=
  ∀ (s : State) (n : Nat) (side : Side) (i : Nat) (twoFlits : Bool), s.running = true → i = sidePort side →
    (twoFlits = true ↔ side = .a ∧ s.cfg.adapterAt n / 2 % 2 = 1) →
    (s.beatPort n side = true → s.adapterLive n side = true → s.tMoves n = true → (side = .a → s.portClosed n = false) →
      s.ingOpen n i = true → ∀ x, x = s.ing n i →
      (∀ flow lower upper last s0, x.discard = true ∨ x.flow ≠ 0 ∨ s.ingNext n i = some flow.toNat →
        s0 = s.setIng n i { x with refused := false } →
        (twoFlits = false ∨ upper = none →
          exec (.tensorInjectBeat n side flow lower upper last) s = .next ((s0.ingTake n i lower last).touch n)) ∧
        (∀ u, twoFlits = true → upper = some u → exec (.tensorInjectBeat n side flow lower upper last) s =
          .next (((s0.ingTake n i lower false).ingTake n i u last).touch n))) ∧
      (∀ (flow : BitVec 12) lower upper last, x.discard = false → x.flow = 0 → s.ingNext n i ≠ some flow.toNat →
        (x.refused = true → exec (.tensorInjectBeat n side flow lower upper last) s = .next s) ∧
        (x.refused = false → exec (.tensorInjectBeat n side flow lower upper last) s =
          .next ((s.setIng n i { x with refused := true }).raise (Cause.atUnit 0x045 (s.wardOf n) n i 0x3F flow.toNat))))) ∧
    (s.beatPort n side = true → s.adapterLive n side = true → ∀ flow lower upper last,
      (s.regionStateOf (s.regionOf n) = 4 → exec (.tensorInjectBeat n side flow lower upper last) s = .next (s.wakeAt n)) ∧
      (s.regionStateOf (s.regionOf n) ≠ 4 → s.tMoves n = false ∨ (side = .a ∧ s.portClosed n = true) ∨ s.ingOpen n i = false →
        exec (.tensorInjectBeat n side flow lower upper last) s = .next s)) ∧
    (∀ lower x, x = s.ing n i → x.discard = false → x.flow ≠ 0 → x.taken + 1 < x.flits → ∃ t f, s.ingTake n i lower false = t ∧
      (t.tin n i).wire = (s.tin n i).wire ++ [f] ∧ f.payload = lower ∧ f.last = false ∧ f.err = false ∧
      (t.ing n i).taken = x.taken + 1 ∧ (t.ing n i).flow = x.flow ∧ t.objs = s.objs) ∧
    (∀ s0 flow f flags s1, s.beatPort n side = true → s.adapterLive n side = true → s.junctionActive n = true →
      s.offer (600 + 2 * n + (if side = .a then 0 else 1)) = some s0 → s0.dlvTake n i = some (flow, f, flags, s1) →
      ((twoFlits = false ∨ f.last = true ∨ (s1.dlv n i).queue.head?.map (·.1) ≠ some flow) →
        exec (.tensorDeliverBeat n side) s = .next ((s1.drive n side flow f.payload none f.last flags).touch n)) ∧
      (twoFlits = true → f.last = false → (s1.dlv n i).queue.head?.map (·.1) = some flow → ∀ flow' g flags2 s2,
        s1.dlvTake n i = some (flow', g, flags2, s2) → exec (.tensorDeliverBeat n side) s =
          .next ((s2.drive n side flow f.payload (some g.payload) g.last flags2).touch n))) ∧
    (s.frozen = false → ∀ ch, s.offer ch = some s) ∧
    (s.cfg.corePort n = true → s.adapterHeld n .a = false → exec (.coreWakeRequest n) s = .next (s.wakeAt n) ∧
      (s.regionStateOf (s.regionOf n) = 4 → s.frozen = false → (s.wakeAt n).regionStateOf (s.regionOf n) = 3) ∧
      (s.regionStateOf (s.regionOf n) ≠ 4 → s.wakeAt n = s)) ∧
    (∀ k, Tbl.get 0 s.pwr.wakeHold k ≠ 0 → ∃ t : State, exec (.wakeHoldExpire k) s = .next t ∧ Tbl.get 0 t.pwr.wakeHold k = 0 ∧
      t.objs = (s.advanceTo (Tbl.get 0 s.pwr.wakeHold k)).objs) ∧
    (∀ k (rate : BitVec 16), k < s.cfg.regions →
      ((1 ≤ s.regionStateOf k ∧ s.regionStateOf k ≠ 4) → s.pwr.down.contains k = false →
        ∃ t : State, exec (.paceGaugeWindow k rate) s = .next t ∧ t.obj (Obj.paceRate k) = rate.setWidth 64 ∧
          t.obj (Obj.paceMin k) = (if rate.toNat < (s.obj (Obj.paceMin k)).toNat then rate.setWidth 64 else s.obj (Obj.paceMin k)) ∧
          (∀ j, j ≠ Obj.paceRate k → j ≠ Obj.paceMin k → t.obj j = s.obj j)) ∧
      (s.regionStateOf k = 0 ∨ s.regionStateOf k = 4 ∨ s.pwr.down.contains k = true →
        exec (.paceGaugeWindow k rate) s = .next (s.setObj (Obj.paceRate k) 0)))

/-- A flit on a link is latched by its input, which holds it until its takers have it, and the node takes it at once into an empty operand
latch; at a gate's port its channels look for what they want; a flit where a marker must stand fails the swap, and an uncorrectable list word halts the input or output that reads it. An output
passes the flit its entry names; the node combines the flits of its operands, and captures the flits of a tally into the tally store
(R92, R96, R122, R123, R128, R145, R159 to R162, R177).
Completes: tensorFlitArrive, outputPassFlit, reductionJoinFlit, tallyCaptureFlit. -/
def Obligations.TensorFlitsArePassedOn : Prop :=
  ∀ (s : State) (n : Nat), s.tMoves n = true →
    (∀ i flips f rest s1 (after : State → State), i < 6 → (s.tin n i).wire = f :: rest → s.latchFree n i = true →
      s1 = (if s.inReads n i then s.inRead n i else s) →
      (∀ a : State, after a = if i = 5 ∧ s.cfg.bKind n = 2 then a.collSettle (s.cfg.bIndex n) else a) →
      (s.inReads n i = true → (s.storeDecode n 0 64 7 []).bad = true →
        exec (.tensorFlitArrive n i flips) s = .next (after (s.inRead n i))) ∧
      (s.inReads n i = false ∨ (s.storeDecode n 0 64 7 []).bad = false →
        (f.isMarker = true ∨ s.markerDue n i = false ∨ ((s.tin n i).skip ≠ 0 ∧ f.first = false) →
          exec (.tensorFlitArrive n i flips) s = .next (after ((((((s1.latchFlit n i flips f rest).refillFromBridge n i).ingGoes n
            i).swapTry n).swapBehind n i).touch n))) ∧
        (f.isMarker = false → s.markerDue n i = true → (s.tin n i).skip = 0 ∨ f.first = true →
          exec (.tensorFlitArrive n i flips) s = .next (after (s1.markerFault n i))))) ∧
    (∀ i f rest e, i < 4 → (s.tin n i).wire = f :: rest → (∀ j, s.injectedAt 0x01 n i j = false) → f.kind ≤ 1 →
      (s.inList n i)[(s.tin n i).entry]? = some e → (s.tin n i).skip = 0 → (s.cfg.tensorGroup n i).isNone = true →
      (f.first = true → f.flow = inFlow e) → ((s.tin n i).passed + 1 < inFlits e ∧ f.last = false ∨
        (s.tin n i).passed + 1 = inFlits e ∧ f.last = true) → f.err = false → (s.tin n i).err = false →
      ((inTakers e).testBit 6 = false → inTakers e ≠ 0 → ∃ t, s.latchFlit n i [] f rest = t ∧ (t.tin n i).held = some f ∧
        (t.tin n i).wire = rest ∧ (t.tin n i).passed = (s.tin n i).passed + 1 ∧ (t.tin n i).done = 0 ∧ t.objs = s.objs) ∧
      (inTakers e = 64 → f.last = false → (s.node n).stuck = false → (s.node n).drain.contains i = false → s.opLatch n i = none →
        s.inSel n i = s.rnSel n → ∃ t, s.latchFlit n i [] f rest = t ∧ t.opLatch n i = some ⟨inFlow e, f, inFlits e⟩ ∧
          (t.tin n i).held = none ∧ (t.tin n i).wire = rest ∧ (t.tin n i).passed = (s.tin n i).passed + 1 ∧ t.objs = s.objs)) ∧
    (∀ o flips s0 s1 e0 d, s0 = s.settleOut n o → o < 6 → (s0.tout n o).stuck = false → s0.outRoom n o = true →
      (s0.swapGo n = false ∨ s0.rd (.outSwapped n o) = 1 ∨ (s0.tout n o).periods < s0.swapT n) →
      (s0.outList n o)[(s0.tout n o).entry]? = some e0 → s0.entryFlit n o e0 ≠ none →
      d = s0.storeDecode n 0 32 6 flips → s1 = s0.storeRead n 0 32 6 flips →
      (d.bad = true → exec (.outputPassFlit n o flips) s = .next (s1.haltOut n o)) ∧
      (d.bad = false → ∀ s2 e f skip, s2 = s1.outWord n o (s0.tout n o).entry d.wrong →
        (s2.outList n o)[(s0.tout n o).entry]? = some e → isPass e = true → s2.entryFlit n o e = some (f, skip) →
        exec (.outputPassFlit n o flips) s = .next (s2.passOut n o e f skip))) ∧
    (∀ r fs residue, (s.node n).stuck = false → (s.node n).latch = none → s.nodeWaits n = false →
      (s.joinList n)[(s.node n).join]? = some r → (joinTallied r = false ∨ (s.cap n (joinSlot r)).full = true) →
      s.operandFlits n r = some fs →
      (s.storeInjected n 1 = false ∨ (s.node n).flit ≠ 0 ∨ joinTallied r = true →
        exec (.reductionJoinFlit n residue) s = .next ((s.joinAt n r fs residue).touch n)) ∧
      (s.storeInjected n 1 = true → (s.node n).flit = 0 → joinTallied r = false →
        ((s.storeDecode n 1 64 7 []).bad = false →
          exec (.reductionJoinFlit n residue) s = .next (((s.joinReads n).joinAt n r fs residue).touch n)) ∧
        ((s.storeDecode n 1 64 7 []).bad = true →
          exec (.reductionJoinFlit n residue) s = .next ((s.joinReads n).haltNode n true)))) ∧
    (∀ r j fs err last, ∃ f, ((s.latchJoin n r j fs err last).node n).latch = some f ∧ f.payload = j.payload ∧ f.err = err ∧
      f.last = last ∧ ((s.latchJoin n r j fs err last).node n).latchFlow = joinOut r) ∧
    (∀ src flow f, (s.node n).stuck = false → s.tallyFlit n = some (src, flow, f) → ∀ s1,
      s1 = (s.tallyJoins n src flow).foldl (fun a r => a.captureInto n flow r f) s → exec (.tallyCaptureFlit n) s =
        .next (((if src = 6 then s1.takeNode n 7 else s1.emptyOp n src).swapTry n).touch n)) ∧
    (∀ flow r f m, m < 64 → 64 * (s.cap n (joinSlot r)).flits + m < joinBlocks r →
      Tbl.get 0 ((s.captureInto n flow r f).node n).store (joinBase r + 64 * (s.cap n (joinSlot r)).flits + m) =
        f.payload.extractLsb' (64 * m) 64 ∧
      (f.last = false → ((s.captureInto n flow r f).cap n (joinSlot r)).flits = (s.cap n (joinSlot r)).flits + 1) ∧
      (f.last = true → ((s.captureInto n flow r f).cap n (joinSlot r)).full = true))

/-! ## DMA engines -/

/-- START, STOP, ABORT and CLEAR act by the state of the channel, as the table of R297 says, START being held while a supply warns
(R298); every other pair is refused with BAD_STATE.
Completes: dmaStart, dmaStop, dmaAbort, dmaClear. -/
def Obligations.DmaCommandsFollowTheTable : Prop :=
  ∀ (s : State) (acc : Access) (e c k : Nat) (r : ObjRow) (x : DmaChan) (refused : Host.Outcome State Fault Refusal),
    k = 16 * e + c → s.MayWrite acc (Obj.chCtrl k) r → x = (s.chanCmd k 3).chan k →
    refused = .next (s.abortRequest acc 2 (Obj.chCtrl k / 256) (Obj.chCtrl k % 256) 0 .badState) →
    (s.rd (.chOwned k) = 1 → s.rd (.chState k) = 0 → s.warn = false →
      exec (.dmaStart acc e c) s = .next (((s.chanCmd k 1).chanStart k).written acc (Obj.chCtrl k) r.ty)) ∧
    (s.rd (.chOwned k) = 1 → s.rd (.chState k) = 1 ∨ s.rd (.chState k) = 2 ∨ (s.rd (.chState k) = 0 ∧ s.warn = true) →
      exec (.dmaStart acc e c) s = .next (((s.chanCmd k 1).wr (.chPending k) 1).written acc (Obj.chCtrl k) r.ty)) ∧
    (s.rd (.chOwned k) = 0 ∨ 3 ≤ s.rd (.chState k) → exec (.dmaStart acc e c) s = refused) ∧
    (s.rd (.chState k) = 0 ∨ s.rd (.chState k) = 3 →
      exec (.dmaStop acc e c) s = .next ((s.chanCmd k 2).written acc (Obj.chCtrl k) r.ty)) ∧
    (s.rd (.chState k) = 1 →
      exec (.dmaStop acc e c) s = .next (((s.chanCmd k 2).wr (.chState k) 3).written acc (Obj.chCtrl k) r.ty)) ∧
    (s.rd (.chState k) = 2 →
      exec (.dmaStop acc e c) s = .next (((s.chanCmd k 2).chanIdle k).written acc (Obj.chCtrl k) r.ty) ∧
      exec (.dmaAbort acc e c) s = .next (((s.chanCmd k 3).chanIdle k).written acc (Obj.chCtrl k) r.ty)) ∧
    (4 ≤ s.rd (.chState k) → exec (.dmaStop acc e c) s = refused) ∧
    (s.rd (.chState k) = 0 ∨ s.rd (.chState k) = 5 →
      exec (.dmaAbort acc e c) s = .next ((s.chanCmd k 3).written acc (Obj.chCtrl k) r.ty)) ∧
    (s.rd (.chState k) = 1 ∨ s.rd (.chState k) = 3 → exec (.dmaAbort acc e c) s =
      .next ((((((s.chanCmd k 3).chanWithdraw k).setChan k { x with
        phase := .abort, reads := [], writes := [], asm := [], fetching := none }).wr (.chState k) 5).chanSettle k).written acc (Obj.chCtrl k) r.ty)) ∧
    (s.rd (.chState k) = 4 → exec (.dmaAbort acc e c) s = refused ∧
      exec (.dmaClear acc e c) s = .next (((s.chanCmd k 4).wr (.chState k) 0).written acc (Obj.chCtrl k) r.ty)) ∧
    (s.rd (.chState k) ≠ 4 → exec (.dmaClear acc e c) s = refused)

/-- A fetched slot that its OWN bit does not give to the engine, or that a channel which stops has fetched, ends the run of the channel;
an invalid descriptor halts it; the mover issues reads and moves beats of the channel whose turn it is, bytes swapped as the descriptor
says, swapping twice being no swap; the write-back's completion moves the ring on or halts, and a failing one is repeated while RETRY
allows; a NAK is counted (R282, R285, R287 to R289, R295, R296).
Completes: dmaDescriptorFetch, dmaMoverStep, dmaWritebackComplete, dmaNakArrive. -/
def Obligations.DmaEnginesWorkThroughTheirRings : Prop :=
  ∀ (s s0 : State) (e c k : Nat), k = 16 * e + c → c < 16 → s.engineMoves e = true → s0 = s.engineSettle e →
    (∀ d j what info s1, (s0.chan k).phase = .fetch → s0.takeDone (0x98 + e) (fun j what info => j == k &&
        (what == askFetch || what == askExt) && !s0.staleFetch k what info) = some (d, j, what, info, s1) →
      exec (.dmaDescriptorFetch e c) s = .next (((s1.chanFetched k what info d).chanSettle k).touch (s.engineAt k))) ∧
    (∀ slot b, s.rd (.chState k) = 3 → s.chanExamine k slot b = s.chanIdle k) ∧
    (∀ slot b, s.rd (.chState k) ≠ 3 → descOwn (slotOfBeat b slot) = false →
      (s.rd (.chPending k) = 0 → s.chanExamine k slot b = s.chanIdle k ∧ (s.chanIdle k).rd (.chState k) = 0) ∧
      (s.rd (.chPending k) = 1 → s.chanExamine k slot b = (s.wr (.chPending k) 0).chanFetch k slot)) ∧
    (∀ d ext, s.descBad k d ext = true → ∃ a, s.chanCheck k d ext = State.chanFail a k
        ⟨3, (s.chan k).slot, Status.targetError, 0, true⟩ ∧ a.objs = s.objs ∧ (s.chanCheck k d ext).chan k =
        { a.chan k with
          phase := .halting, fail := some ⟨3, (s.chan k).slot, Status.targetError, 0, true⟩, reads := [], writes := [], asm := []
          fetching := none }) ∧
    (∀ c' k', s0.moverPick e = some c' → k' = 16 * e + c' →
      (s0.canRead k' = true → ∀ r, (s0.chan k').nextRead = some r →
        exec (.dmaMoverStep e) s = .next (((s0.chanRead k' r).chanSettle k').touch (s.engineAt k'))) ∧
      (s0.canRead k' = false → ∀ bs, (s0.chan k').nextBeat = some bs →
        exec (.dmaMoverStep e) s = .next ((((s0.chanMove k' bs).moverTurn e c').chanSettle k').touch (s.engineAt k')))) ∧
    (s0.moverPick e = none → exec (.dmaMoverStep e) s = .next s0) ∧
    (∀ d j what info s1 x, s0.takeDone (0x98 + e) (fun j what _ => j == k && what == askBack) = some (d, j, what, info, s1) →
      x = s1.chan k →
      (d.status = 0 → x.phase = .writeBack → exec (.dmaWritebackComplete e c) s = .next ((s1.chanAdvance k).touch (s.engineAt k))) ∧
      (∀ f s2, d.status = 0 → x.phase = .haltBack → x.fail = some f →
        s2 = (s1.clearOwn k x.slot 0).countEv 0x41 (s.engineAt k) (some (s.chanWard k)) 1 →
        (f.back = true → exec (.dmaWritebackComplete e c) s = .next (s2.chanHalted k f)) ∧
        (f.back = false → exec (.dmaWritebackComplete e c) s =
          .next (((s2.setChan k { s2.chan k with phase := .halting }).chanSettle k).touch (s.engineAt k)))) ∧
      (x.phase = .writeBack ∨ x.phase = .haltBack → d.status ≠ 0 →
        (∀ st tries, s1.mayRetry k d.status x.backTries = true →
          (∀ f, x.fail = some f → f.back = true → tries = f.tries ∧ st = backStatus f.status (f.kind == 3) f.tries) →
          ((∀ f, x.fail = some f → f.back = false) → tries = x.tries ∧ st = backStatus 0 false x.tries) →
          exec (.dmaWritebackComplete e c) s =
            .next (((s1.setChan k { x with backTries := x.backTries + 1 }).bump (.chRetries k) 1).writeBack k st tries)) ∧
        (s1.mayRetry k d.status x.backTries = false →
          (∀ f, x.fail = some f → exec (.dmaWritebackComplete e c) s = .next (s1.chanHalted k f)) ∧
          (x.fail = none → exec (.dmaWritebackComplete e c) s =
            .next ((s1.chanFail k ⟨4, x.slot, d.status, x.backTries, false⟩).chanSettle k)))) ∧
      (x.phase ≠ .writeBack → x.phase ≠ .haltBack → exec (.dmaWritebackComplete e c) s = .next s1)) ∧
    (∀ n m, s.cfg.dmaAt e = some n → (Tbl.get [] s.ctl.arrived (0x98 + e)).find? (fun m => m.nak) = some m → m.tag.toNat % 16 = c →
      ∃ t : State, exec (.dmaNakArrive e) s = .next t ∧ t.rd (.chNotifyNak k) = min (s.rd (.chNotifyNak k) + 1) 65535 ∧
        t.rd (.chNaked k) = 1 ∧ (∀ j, j ≠ Obj.chStat k → j ≠ Obj.chStatus k → t.obj j = s.obj j) ∧
        Tbl.get [] t.ctl.arrived (0x98 + e) = (Tbl.get [] s.ctl.arrived (0x98 + e)).erase m) ∧
    (∀ sw b, sw < 4 → swapFrom sw (swapFrom sw b) = b)

/-! ## Scarf bridges and the package -/

/-- A bridge whose training leaves modules for CTL and DAT comes up, at 48 GT/s where either end asks for it, with its partner's number
where it has one; else it fails. A module that failed, or that needs more than its four spare lanes, carries no role. A flit is taken, or
discarded where an injection spoils it, the group sends what it may and what has come lands; a SEQ replayed eight times in succession makes
the modules of its group retrain, after which what is kept is sent again. A link that goes down or that ENABLE 0 takes down falls: its
groups are down and the fault is raised; ENABLE 1 has a link that is down train (R306, R314 to R316, R319, R330).
Completes: bridgeTrainComplete, bridgeFlitReceive, bridgeRetrainComplete, bridgeLinkDown, bridgeCfgWrite. -/
def Obligations.BridgesTrainCarryAndFall : Prop :=
  ∀ (s : State) (b n : Nat), b < 4 → s.running = true → s.cfg.unitAt 4 b = some n →
    (s.safeStart = false → s.rd (.bridgeState b) ≠ 2 → s.rd (.bridgeState b) ≠ 3 → (s.obj (Obj.bridgeCfg b)).getLsbD 0 = true →
      s.junctionLost n = false → s.bonded b 0 = true → ∀ (slow : Bool) (bad : BitVec 8) repair partner out, out = modulesOut bad.toNat repair →
      (rolesFilled out = false → exec (.bridgeTrainComplete b slow bad repair partner) s =
        .next ((s.showModules b 4 out repair).repairRecords b n (s.obj (Obj.moduleRepair b)))) ∧
      (rolesFilled out = true → ∃ t : State, exec (.bridgeTrainComplete b slow bad repair partner) s = .next t ∧
        fget (t.obj (Obj.bridgeStatus b)) 29 3 = 2 ∧
        fget (t.obj (Obj.bridgeStatus b)) 28 1 = (if slow = true ∨ (s.obj (Obj.bridgeCfg b)).getLsbD 1 = true then 1 else 0) ∧
        (∀ d : BitVec 6, partner = some d → fget (t.obj (Obj.bridgeStatus b)) 27 1 = 1 ∧
          fget (t.obj (Obj.bridgeStatus b)) 21 6 = d.toNat) ∧
        (partner = none → fget (t.obj (Obj.bridgeStatus b)) 27 1 = 0) ∧
        (t.brg.late.contains b = true ↔ s.comesLate b partner = true))) ∧
    (∀ (bad : BitVec 8) repair m, m < 8 → ((modulesOut bad.toNat repair).testBit m = true ↔
      bad.toNat.testBit m = true ∨ 4 < fget repair (8 * m) 3 ∨ 4 < fget repair (8 * m + 4) 3)) ∧
    (∀ bad, bad < 256 → ∀ m < 8, (bad.testBit m = true → (moduleRoles bad).getD m 0 = 0xF) ∧
      (bad.testBit 6 = false → (moduleRoles bad).getD 6 0 = 3) ∧ (bad.testBit 7 = false → (moduleRoles bad).getD 7 0 = 4) ∧
      (bad.testBit 6 = true → bad.testBit 5 = false → (moduleRoles bad).getD 5 0 = 3) ∧
      (bad.testBit 6 = true → bad.testBit 5 = true → bad.testBit 4 = false → (moduleRoles bad).getD 4 0 = 3) ∧
      (bad.testBit 6 = false → bad.testBit 7 = true → bad.testBit 5 = false → (moduleRoles bad).getD 5 0 = 4) ∧
      (bad.testBit 6 = true → bad.testBit 7 = true → bad.testBit 5 = false → bad.testBit 4 = false →
        (moduleRoles bad).getD 4 0 = 4)) ∧
    (∀ g flit s1, g < 8 → s.groupRuns b g = true → s.groupState b g ≠ 0 →
      (s.injectedAt 0x09 n 5 g = false → s1 = s.bridgeTake b g flit) → (s.injectedAt 0x09 n 5 g = true → s1 = s.injectFired.bridgeDiscard b g) →
      (8 ≤ (s1.bgroup b g).again →
        exec (.bridgeFlitReceive b g flit) s = .next (s1.bridgeRetrain b (groupModules (s1.badModules b) g))) ∧
      ((s1.bgroup b g).again < 8 → ∀ s2, s2 = ((s1.bridgePump b g).groupRetry b g).bridgeLand b g →
        exec (.bridgeFlitReceive b g flit) s =
          .next (if (s2.bgroup b g).nak = true then s2.bridgeIdle b g else s2.bridgeTell b g))) ∧
    (∀ (bad : BitVec 8) repair mods old out rep s1 s2, s.rd (.bridgeState b) = 3 → mods = s.retraining b → old = s.badModules b →
      rep = repairAfter mods (s.obj (Obj.moduleRepair b)) repair → out = old ||| (modulesOut bad.toNat repair &&& mods) →
      s1 = (s.showModules b 4 out rep).repairRecords b n (s.obj (Obj.moduleRepair b)) →
      s2 = ((s.showModules b 2 out rep).repairRecords b n (s.obj (Obj.moduleRepair b))).dropGroups b →
      (rolesFilled out = false → exec (.bridgeRetrainComplete b bad repair) s = .next (s1.bridgeFall b 4)) ∧
      (rolesFilled out = true → exec (.bridgeRetrainComplete b bad repair) s = .next ((List.range 8).foldl (fun (a : State) g =>
        a.groupResumes b g (groupModules old g &&& mods != 0 || groupModules old g != groupModules out g)) s2))) ∧
    (∀ (t : State) g x, x = ((t.bridgeReplay b g).bgroup b g) → (t.bgroup b g).replay ≠ [] → t.groupResumes b g true =
      ((t.bridgeReplay b g).setBgroup b g { x with answered := none, again := 0 }).bridgePump b g) ∧
    (s.rd (.bridgeState b) = 2 ∨ s.rd (.bridgeState b) = 3 → exec (.bridgeLinkDown b) s = .next (s.bridgeFall b 0)) ∧
    (∀ (acc : Access) (v : BitVec 8) r x a, s.MayWrite acc (Obj.bridgeCfg b) r → x = s.value acc (Obj.bridgeCfg b) r (v.setWidth 64) →
      a = s.setObj (Obj.bridgeCfg b) x →
      (x.getLsbD 0 = true → exec (.bridgeCfgWrite acc b v) s = .next ((a.trainBegin b).written acc (Obj.bridgeCfg b) r.ty)) ∧
      (x.getLsbD 0 = false → s.rd (.bridgeState b) = 2 ∨ s.rd (.bridgeState b) = 3 → exec (.bridgeCfgWrite acc b v) s =
        .next ((a.bridgeFall b 0).written acc (Obj.bridgeCfg b) r.ty)) ∧
      (x.getLsbD 0 = false → s.rd (.bridgeState b) = 1 → exec (.bridgeCfgWrite acc b v) s =
        .next ((a.wr (.bridgeState b) 0).written acc (Obj.bridgeCfg b) r.ty)) ∧
      (x.getLsbD 0 = false → s.rd (.bridgeState b) = 0 ∨ 4 ≤ s.rd (.bridgeState b) → exec (.bridgeCfgWrite acc b v) s =
        .next (a.written acc (Obj.bridgeCfg b) r.ty))) ∧
    ((s.obj (Obj.bridgeCfg b)).getLsbD 0 = true → s.safeStart = false → s.junctionLost n = false → s.bonded b 0 = true →
      s.rd (.bridgeState b) = 0 ∨ s.rd (.bridgeState b) = 4 → (s.trainBegin b).rd (.bridgeState b) = 1)

/-- The first ENUM that fits gives a die its position and its parent and goes on by every other trained bridge; one that does not fit
fails the enumeration with its cause. When no new die has come for 10 ms the master numbers the dies from their positions and sends
ASSIGN, which gives every other die its number and goes on; dies within eight columns and rows get different numbers. A failure that the
sideband brings is recorded. A die that waits 1 s for an ENUM fails. PKG_NUMBER is the master's to write, before any ward owns a resource on
any die; what wards own on other dies is a free value (log 134) (R320 to R322, R333).
Completes: enumReceive, enumQuietExpire, enumAssignReceive, enumWaitExpire, pkgNumberWrite. -/
def Obligations.EnumerationNumbersTheDies : Prop :=
  ∀ (s : State),
    (∀ b col row master (f : BitVec 2), s.running = true → s.bridgeTrained b = true → s.rd .enumSt < 2 →
      (∀ c, s.enumCauseOf b (col, row) master f.toNat = some c →
        exec (.enumReceive b col row master f) s = .next (s.enumFail c)) ∧
      (s.enumCauseOf b (col, row) master f.toNat = none → s.brg.pos = none → ∃ t : State,
        exec (.enumReceive b col row master f) s = .next t ∧ t.brg.pos = some (col, row) ∧ t.rd .enumSt = 1 ∧
        t.rd .enumParent = b % 8 ∧ t.brg.waitUntil = none ∧
        t.out = s.out ++ (s.trainedBut (some b)).map (fun x => Emission.sidebandEnum x
          (stepPos (s.cfg.bridgeFacing.getD x 0) (col, row)).1 (stepPos (s.cfg.bridgeFacing.getD x 0) (col, row)).2 master
          (BitVec.ofNat 2 (s.cfg.bridgeFacing.getD x 0)))) ∧
      (s.enumCauseOf b (col, row) master f.toNat = none → s.brg.pos.isSome = true →
        exec (.enumReceive b col row master f) s = .next s)) ∧
    (∀ b col row master (f : BitVec 2), s.running = true → s.bridgeTrained b = true → s.rd .enumSt = 2 →
      (s.isMaster = true → master ≠ s.provisionalId → exec (.enumReceive b col row master f) s = .next (s.enumFail 3)) ∧
      (s.isMaster = false ∨ master = s.provisionalId → exec (.enumReceive b col row master f) s = .next s)) ∧
    (∀ found from_ o cols rows map s1, s.brg.quietFrom = some from_ → s.firmwareRuns = true → s.isMaster = true →
      o = (leastOf (found.map (·.1)), leastOf (found.map (·.2))) → cols = (mostOf (found.map (·.1)) - o.1).toNat →
      rows = (mostOf (found.map (·.2)) - o.2).toNat → map = BitVec.ofNat 64 ((((0, 0) :: found).map (dieOf o)).eraseDups.map (2 ^ ·)).sum →
      s1 = s.advanceTo (from_ + 10000000) →
      (7 < cols ∨ 7 < rows → exec (.enumQuietExpire found) s = .next (s1.enumFail 4)) ∧
      (cols ≤ 7 → rows ≤ 7 → exec (.enumQuietExpire found) s = .next ((((((s1.takeNumber (dieOf o (0, 0)) cols rows (dieOf o (0, 0)) 7 map).forwardAssign o cols
        rows (dieOf o (0, 0)) map none).setObj Obj.tbOffset 0).setObj Obj.tbError 0).measured).hallBegin))) ∧
    (∀ col0 row0 (cols rows : BitVec 3) (master : BitVec 6) map p, s.brg.pos = some p → s.running = true → s.isMaster = false →
      s.rd .enumSt = 1 → ∃ t : State, exec (.enumAssignReceive col0 row0 cols rows master (.dies map)) s = .next t ∧
      t.obj Obj.dieNumber = BitVec.ofNat 64 (dieOf (col0, row0) p) ∧ t.obj Obj.dieMap = map ∧
      t.obj Obj.enumState = BitVec.ofNat 64 (enumDone cols.toNat rows.toNat master.toNat (s.rd .enumParent))) ∧
    (∀ col0 row0 cols rows master (f : BitVec 3), s.brg.pos.isSome = true → s.running = true → s.rd .enumSt ≠ 3 →
      exec (.enumAssignReceive col0 row0 cols rows master (.failed f)) s = .next (s.enumFail f.toNat)) ∧
    (∀ c : Nat, c < 8 → ∀ t, t = s.enumFail c → t.rd .enumSt = 3 ∧ t.rd .enumCause = c ∧ t.obj Obj.dieNumber = 0xFF ∧
      t.obj Obj.dieMap = 0) ∧
    (∀ o p q : Int × Int, o.1 ≤ p.1 → p.1 < o.1 + 8 → o.2 ≤ p.2 → p.2 < o.2 + 8 → o.1 ≤ q.1 → q.1 < o.1 + 8 → o.2 ≤ q.2 → q.2 < o.2 + 8 →
      dieOf o p < 64 ∧ (dieOf o p = dieOf o q → p = q)) ∧
    (∀ d, s.brg.waitUntil = some d → s.firmwareRuns = true → s.rd .enumSt = 0 →
      exec .enumWaitExpire s = .next ((s.advanceTo d).enumFail 1)) ∧
    (∀ (acc : Access) (v : BitVec 16) r x, s.MayWrite acc Obj.pkgNumber r → isPeer acc.path = false →
      x = s.value acc Obj.pkgNumber r (v.setWidth 64) →
      (s.isMaster = true → x.toNat ≤ 4095 → s.anyOwned = false → exec (.pkgNumberWrite acc v) s =
        .next (if s.ownedElsewhere then s.abortRequest acc 2 (Obj.pkgNumber / 256) (Obj.pkgNumber % 256) 0 .inUse
          else ((s.setObj Obj.pkgNumber x).peerCopy 0x1900 0x02 (leBytes 2 x.toNat)).written acc Obj.pkgNumber r.ty)) ∧
      ((∀ d < 64, (s.obj Obj.dieMap).getLsbD d = true → d = s.dieBits) → s.ownedElsewhere = false) ∧
      (s.isMaster = true → 4095 < x.toNat → exec (.pkgNumberWrite acc v) s =
        .next (s.abortRequest acc 2 (Obj.pkgNumber / 256) (Obj.pkgNumber % 256) 0 .outOfRange)) ∧
      (s.isMaster = true → x.toNat ≤ 4095 → s.anyOwned = true → exec (.pkgNumberWrite acc v) s =
        .next (s.abortRequest acc 2 (Obj.pkgNumber / 256) (Obj.pkgNumber % 256) 0 .inUse)) ∧
      (s.isMaster = false → exec (.pkgNumberWrite acc v) s =
        .next (s.abortRequest acc 2 (Obj.pkgNumber / 256) (Obj.pkgNumber % 256) 0 .notPresent)))

/-- A child answers its parent's TIME_REQ with the stamps of arrival and departure; the parent makes eight exchanges, of which the one
with the least trip counts, and sets the child's offset. With equal trips the offset is exact. A period that ends, and a write of
TB_GEN, start a measurement (R324, R325). Completes: timeReqReceive, timeRespReceive, tbPeriodExpire, tbGenWrite. -/
def Obligations.TheTimeBaseIsMeasured : Prop :=
  ∀ (s : State),
    (∀ b q at_ s1, s.frozen = false → s.running = true → s.takeTime b 2 = some (q, at_, s1) →
      (s1.parent = some b → exec (.timeReqReceive b) s = .next (s1.bridgeStamped b 3 ([3] ++ leBytes 8 (leAt q 1 8) ++ leBytes 8 at_ ++
        leBytes 8 s1.now ++ leBytes 1 (leAt q 9 1)) 17)) ∧
      (s1.parent ≠ some b → exec (.timeReqReceive b) s = .next s1)) ∧
    (∀ b q at_ s1 x y, s.frozen = false → s.running = true → s.takeTime b 3 = some (q, at_, s1) → x = s1.trial b → x.sent ≤ leAt q 1 8 →
      leAt q 25 1 = x.made → x.made < 8 → y = x.take (exchangeOffset (leAt q 1 8) (leAt q 9 8) (leAt q 17 8) at_)
        (exchangeTrip (leAt q 1 8) (leAt q 9 8) (leAt q 17 8) at_) →
      (x.made < 7 → exec (.timeRespReceive b) s = .next ((s1.setTrial b y).sendTimeReq b)) ∧
      (x.made = 7 → ∃ trip o, y.best = some (trip, o) ∧ exec (.timeRespReceive b) s = .next ((s1.setTrial b y).timeDone b o))) ∧
    (∀ (x : TimeTrial) offset trip, ∃ t o, (x.take offset trip).best = some (t, o) ∧ t ≤ trip ∧ (∀ t' o', x.best = some (t', o') → t ≤ t') ∧
      ((t, o) = (trip, offset) ∨ x.best = some (t, o))) ∧
    (∀ t1 there turn back off : Int, exchangeTrip t1 (t1 + there + off) (t1 + there + off + turn) (t1 + there + turn + back) =
        there + back ∧
      (there = back → exchangeOffset t1 (t1 + there + off) (t1 + there + off + turn) (t1 + there + turn + back) = off)) ∧
    (∀ t, s.brg.tbDue = some t → s.firmwareRuns = true →
      exec .tbPeriodExpire s = .next ((s.advanceTo t).tbPeriodFrom.measureAgain.hallBegin)) ∧
    (∀ acc v r, s.MayWrite acc Obj.tbGen r →
      exec (.tbGenWrite acc v) s = .next ((if isPeer acc.path then s.timeChildren else s.measureAgain).written acc Obj.tbGen r.ty))

/-- A package load whose sections have all been taken ends CHECKED, or FAILED with the first failure of its container, of a section's
transfer, of a die, of its crossings or of its groups; while a section is on its way it goes on. ARM is taken in CHECKED and reaches every
die of the image; the last count makes the largest T, the last LIVE ends the swap, and a die that fails fails it, a die whose link or
region is lost abandoning it everywhere. CANCEL in CHECKED or ARMED leaves it idle with code 0x11 (R327, R328, R330).
Completes: pkgLoadCheckComplete, pkgArm, pkgCancel, pkgDieReport. -/
def Obligations.PackageImagesAreCheckedArmedAndSwapped : Prop :=
  ∀ (s : State) (w : BitVec 4) (k : Nat) (x : PkgSeq), k = w.toNat → x = s.pkg k →
    (∀ results, s.rd (.pkgState k) = 2 → s.firmwareRuns = true → s.frozen = false →
      (s.containerBad w x.image = true → exec (.pkgLoadCheckComplete w results) s = .next (s.pkgEnter k 7 0x14 0xFF)) ∧
      (∀ a, s.containerBad w x.image = false → a = (s.sectionsGo k).1 →
        (∀ d, (s.sectionsGo k).2 = some d → exec (.pkgLoadCheckComplete w results) s = .next (a.pkgEnter k 7 0x02 d)) ∧
        ((s.sectionsGo k).2 = none → (a.pkg k).sends ≠ [] → exec (.pkgLoadCheckComplete w results) s = .next a) ∧
        (∀ y xs, (s.sectionsGo k).2 = none → (a.pkg k).sends = [] → y = a.pkg k → xs = pkgSections y.image →
          ((∀ d ∈ y.dies, ∃ v, a.dieLoad k results d = some v ∧ loadSt v = 3) →
            (pkgLinkFail xs a.cfg = none → a.pkgGroupDown results xs = none →
              exec (.pkgLoadCheckComplete w results) s = .next (a.pkgEnter k 3 0 0xFF)) ∧
            (∀ d, pkgLinkFail xs a.cfg = some d → exec (.pkgLoadCheckComplete w results) s = .next (a.pkgEnter k 7 0x0A d)) ∧
            (∀ d, pkgLinkFail xs a.cfg = none → a.pkgGroupDown results xs = some d →
              exec (.pkgLoadCheckComplete w results) s = .next (a.pkgEnter k 7 0x13 d))) ∧
          (∀ d rest v, y.dies = d :: rest → a.dieLoad k results d = some v → loadSt v = 7 →
            (∀ d' ∈ rest, ∃ v', a.dieLoad k results d' = some v' ∧ (loadSt v' = 3 ∨ loadSt v' = 7)) →
            exec (.pkgLoadCheckComplete w results) s = .next (a.pkgEnter k 7 (loadCode v) d)) ∧
          (∀ d ∈ y.dies, (∀ v, a.dieLoad k results d = some v → loadSt v ≠ 3 ∧ loadSt v ≠ 7) →
            exec (.pkgLoadCheckComplete w results) s = .next a)))) ∧
    (∀ acc r, s.MayWrite acc (Obj.pkgCtrl k) r →
      (s.rd (.pkgState k) = 3 → ∀ s1, (x.dies.contains s.dieBits = false ∧ s1 = s) ∨
          (x.dies.contains s.dieBits = true ∧ Sched.arm w s = .ok s1) →
        exec (.pkgArm acc w) s = .next (((((s1.setPkg k { x with waiting := x.dies, largest := 0 }).pkgEnter k 4 0
          0xFF).pkgCommand k 1).setObj (Obj.pkgCtrl k) 1).written acc (Obj.pkgCtrl k) r.ty)) ∧
      (s.rd (.pkgState k) ≠ 3 → exec (.pkgArm acc w) s =
        .next (s.abortRequest acc 2 (Obj.pkgCtrl k / 256) (Obj.pkgCtrl k % 256) 0 .badState)) ∧
      (s.rd (.pkgState k) = 3 ∨ s.rd (.pkgState k) = 4 → exec (.pkgCancel acc w) s =
        .next ((((s.pkgCancelAll w).pkgEnter k 0 0x11 0xFF).setObj (Obj.pkgCtrl k) 2).written acc (Obj.pkgCtrl k) r.ty)) ∧
      (s.rd (.pkgState k) ≠ 3 → s.rd (.pkgState k) ≠ 4 → exec (.pkgCancel acc w) s =
        .next (s.abortRequest acc 2 (Obj.pkgCtrl k / 256) (Obj.pkgCtrl k % 256) 0 .badState))) ∧
    (∀ die : BitVec 6, s.firmwareRuns = true → s.frozen = false →
      (∀ (t : BitVec 32) (n : Nat), die.toNat ≠ s.dieBits ∧ n = t.toNat ∨
          die.toNat = s.dieBits ∧ s.rd (.ldState k) = 4 ∧ s.allStopped w = true ∧ n = s.largestCount w →
        s.rd (.pkgState k) = 4 → x.waiting.contains die.toNat = true →
        ∀ y, y = { x with waiting := x.waiting.erase die.toNat, largest := max x.largest n } →
        (y.waiting.isEmpty = false → exec (.pkgDieReport w die (.count t)) s = .next (s.setPkg k y)) ∧
        (y.waiting.isEmpty = true → exec (.pkgDieReport w die (.count t)) s = .next ((s.setPkg k y).pkgTarget w y.largest))) ∧
      (∀ (v : BitVec 32) (n : Nat), die.toNat ≠ s.dieBits ∧ n = v.toNat ∨ die.toNat = s.dieBits ∧ n = (s.obj (Obj.loadStatus k)).toNat →
        x.dies.contains die.toNat = true →
        (s.rd (.pkgState k) = 5 → loadSt n = 6 → x.waiting = [die.toNat] → exec (.pkgDieReport w die (.status v)) s =
          .next ((s.setPkg k { x with waiting := [] }).pkgEnter k 6 0 0xFF)) ∧
        (s.rd (.pkgState k) = 4 ∨ s.rd (.pkgState k) = 5 → loadSt n = 7 → loadCode n = 0x10 →
          exec (.pkgDieReport w die (.status v)) s = .next (s.abandonPackage k die.toNat)) ∧
        (s.rd (.pkgState k) = 5 → loadSt n = 7 → loadCode n ≠ 0x10 → exec (.pkgDieReport w die (.status v)) s =
          .next (s.pkgEnter k 7 (loadCode n) die.toNat)) ∧
        (s.rd (.pkgState k) = 4 → loadSt n = 7 → loadCode n ≠ 0x10 → exec (.pkgDieReport w die (.status v)) s =
          .next ((s.pkgCancelAll w).pkgEnter k 7 (loadCode n) die.toNat)))) ∧
    (∀ st code die, st < 8 → code < 32 → die < 256 → (∀ d ∈ x.dies, d = s.dieBits) → (s.pkgEnter k st code die).rd (.pkgState k) = st ∧
      ∀ j, j ≠ Obj.pkgStatus k → (s.pkgEnter k st code die).obj j = s.obj j)

/-! ## Fabric gates -/

/-- An entry that is in range, shares no address with another and belongs to a ward that takes resources stands in the lowest free way
of its set, where a lookup of its segment finds it; an entry is removed by its KEY and SIZE, and PLAT_QUERY keeps the address asked for
(R343, R344, R353). Completes: platInsert, platRemove, platQuery. -/
def Obligations.ThePlatMapsSegments : Prop :=
  ∀ (s : State) (acc : Access) (v : BitVec 64) (r : ObjRow) (key z : Nat), key = platFirst v → z = platSize v →
    (s.MayWrite acc Obj.platInsert r →
      (fget v 17 1 = 0 ∨ acc.level = 3 → z ≤ 8 → key % 2 ^ (30 + z) = 0 → fget v 0 16 ≠ 0 → key / 2 ^ 47 ≠ (s.obj Obj.pkgNumber).toNat →
        s.platOverlaps key z = false → s.wardTakes (fget v 26 4) = true →
        (∀ i, ((List.range 4).map (fun w => 4 * platSet key z + w)).find? (fun i => fget (s.platAt i) 63 1 == 0) = some i → ∃ t : State,
          exec (.platInsert acc v) s = .next (t.written acc Obj.platInsert r.ty) ∧ t = (s.setPlat i (fset (fset v 63 1 1) 16 1 0)).platCount ∧
          t.platWay key z = some i ∧ (∀ j, j ≠ i → t.platAt j = s.platAt j)) ∧
        (((List.range 4).map (fun w => 4 * platSet key z + w)).find? (fun i => fget (s.platAt i) 63 1 == 0) = none →
          exec (.platInsert acc v) s = .next (s.abortRequest acc 2 (Obj.platInsert / 256) (Obj.platInsert % 256) 0 .exhausted))) ∧
      (fget v 17 1 = 1 → acc.level ≠ 3 → exec (.platInsert acc v) s =
        .next (s.abortRequest acc 2 (Obj.platInsert / 256) (Obj.platInsert % 256) 0 .level)) ∧
      (fget v 17 1 = 0 → (8 < z ∨ key % 2 ^ (30 + z) ≠ 0 ∨ fget v 0 16 = 0 ∨ key / 2 ^ 47 = (s.obj Obj.pkgNumber).toNat ∨
          s.platOverlaps key z = true) →
        exec (.platInsert acc v) s = .next (s.abortRequest acc 2 (Obj.platInsert / 256) (Obj.platInsert % 256) 0 .outOfRange)) ∧
      (fget v 17 1 = 0 → z ≤ 8 → key % 2 ^ (30 + z) = 0 → fget v 0 16 ≠ 0 → key / 2 ^ 47 ≠ (s.obj Obj.pkgNumber).toNat →
        s.platOverlaps key z = false → s.wardTakes (fget v 26 4) = false →
        exec (.platInsert acc v) s = .next (s.abortRequest acc 2 (Obj.platInsert / 256) (Obj.platInsert % 256) 0 .inUse))) ∧
    (s.MayWrite acc Obj.platRemove r →
      (∀ i, s.platWay key z = some i → exec (.platRemove acc v) s =
        .next (((s.setPlat i 0).platCount).written acc Obj.platRemove r.ty)) ∧
      (s.platWay key z = none → exec (.platRemove acc v) s =
        .next (s.abortRequest acc 2 (Obj.platRemove / 256) (Obj.platRemove % 256) 0 .outOfRange))) ∧
    (s.MayWrite acc Obj.platQuery r →
      exec (.platQuery acc v) s = .next ((s.setObj Obj.platQuery v).written acc Obj.platQuery r.ty))

/-- A gate looks the address of the next request up: with no entry it answers NO_TARGET, with an entry of another ward or without the
right WARD_REFUSED, and else a REQ waits at the egress in the entry's hall ward. A block-internal message joins the CTL queue while
it has room. The scheduler's next packet leaves whole, of a collective's in the turn of its channel; a new one of a connection takes
the next SEQ and is kept, with MIRROR only as its segment has it (R338, R345 to R349, R357).
Completes: gateRequestAccept, gateCtlAccept, gateEgressSend. -/
def Obligations.RequestsLeaveAsPackets : Prop :=
  ∀ (s : State) (g n : Nat), s.cfg.unitAt 2 g = some n → s.moves n = true →
    (∀ x p, nextSlot (s.target (0x80 + g)).slots [] = some x → x.rq = some p → (x.data = none ∨ ∃ d, x.data = some d ∧ d.status = 0) →
      (s.platLookup p.addr.toNat = none → exec (.gateRequestAccept g []) s =
        .next ((s.slotAnswer (0x80 + g) p.src p.tag p.gen Status.noTarget []).touch n)) ∧
      (∀ i v, s.platLookup p.addr.toNat = some i → v = s.platAt i → s.storeInjected n 6 = false →
        (s.fromTile p = false → fget v 26 4 ≠ p.ward.toNat →
          exec (.gateRequestAccept g []) s = .next ((s.refuseSlot (0x80 + g) p).touch n)) ∧
        (s.fromTile p = true ∨ (fget v 26 4 = p.ward.toNat ∧ s.wardReclaiming p.ward = false) → isCoherentOp p.op = false →
          (fget v (platRight p.op) 1 = 0 → exec (.gateRequestAccept g []) s = .next ((s.refuseSlot (0x80 + g) p).touch n)) ∧
          (fget v (platRight p.op) 1 = 1 → exec (.gateRequestAccept g []) s = .next ((s.sendRequest g v x p).touch n))))) ∧
    (∀ v x p, (s.tinit (0x180 + g)).freeTag 1024 ≠ none → ∃ q, ((s.sendRequest g v x p).gate g).queue = (s.gate g).queue ++ [q] ∧
      q.pkt.ty = 0 ∧ q.pkt.ward = BitVec.ofNat 4 (fget v 22 4) ∧ q.pkt.level = p.level ∧ q.pkt.src = s.gateName g ∧ q.free = false ∧
      (s.sendRequest g v x p).objs = s.objs) ∧
    (∀ (h : BitVec 72) t peer, h.extractLsb' 70 2 = 2 → h.extractLsb' 64 2 = 3 → t.length ≤ 4 →
      ((s.gate g).ctlWaiting < 64 → exec (.gateCtlAccept g peer (h :: t)) s =
        .next ((s.gateQueue g (s.ctlPacket g peer (h.extractLsb' 66 4) (h :: t)) false).touch n)) ∧
      (64 ≤ (s.gate g).ctlWaiting → exec (.gateCtlAccept g peer (h :: t)) s = .next (s.refuse n 5 (asmMessage h t) Nak.queueFull))) ∧
    (∀ c d q k s1, s.gateSends g n = true → s.gateClass g = some (c, d) → s.gatePick g c = some (q, k) →
      (c = 0 → s1 = s.setGate g (s.gate g)) →
      (c ≠ 0 → (c ≠ 3 ∨ ∀ x, q ≠ .fresh x) → s1 = s.setGate g { s.gate g with turn := c, deficit := d }) →
      (∀ x, c = 3 → q = .fresh x → ∃ y i cd, s.collChoice g (s.gate g) = some (y, i, cd) ∧
        s1 = s.setGate g { s.gate g with turn := c, deficit := d, chanTurn := i, chanDeficit := cd }) →
      exec (.gateEgressSend g) s = .next ((((match q with
        | .again peer seq => s1.sendAgain g n c peer seq
        | .ack peer => s1.sendAck g c peer
        | .fresh q => s1.sendFresh g q).touch n)).collSettle g)) ∧
    (∀ q k id, (s.gate g).conn q.pkt.dst = some k → k.mine = some id → q.free = false → ∃ (p : FPkt) (k' : GConn),
      (s.sendFresh g q).out = s.out ++ [.frame g p.bytes] ∧ p.seq = (k.cls q.pkt.cls).next ∧ p.conn = id ∧ p.body = q.pkt.body ∧
      p.hops = BitVec.ofNat 8 (s.rd (.hopLimit g)) ∧ ((s.sendFresh g q).gate g).conn q.pkt.dst = some k' ∧
      (k'.cls q.pkt.cls).next = (k.cls q.pkt.cls).next + 1 ∧
      p.mirror = (q.pkt.mirror || (s.obj (Obj.mirrorAll g)).getLsbD 0) ∧
      ∃ e, (k'.cls q.pkt.cls).sent = (k.cls q.pkt.cls).sent ++ [e] ∧ e.pkt = { p with mirror := q.pkt.mirror } ∧ e.times = 1)

/-- A packet wakes a gated gate; one whose codes or form are wrong is counted and discarded, one for another gate raised as well; any other
is taken and what has come in order is delivered. A first packet that opens a connection afresh discards its old reorder state before it is
placed. What an acknowledgement covers is no longer kept, and the window stays between 4 and 512. A delayed
acknowledgement falls due; a packet not acknowledged in time waits to be sent again until its limit, when its peer is lost; an idle
connection is freed. ENABLE 0 drops every connection, with the chunks on it (R342, R348 to R352, R360, R362).
Completes: fabricPacketReceive, ackDelayExpire, retxTimeoutExpire, connectionIdleExpire, gateCfgWrite, gateLineDown, gateLineUp. -/
def Obligations.PacketsAreCheckedAcknowledgedAndRepeated : Prop :=
  ∀ (s : State) (g n : Nat), s.cfg.unitAt 2 g = some n → s.running = true →
    (∀ bs p s1, s.junctionLost n = false → s.rd (.gateLinkUp g) = 1 → s.rd (.gateEnable g) = 1 → s.adapterHeld n .b = false →
      s.injectedAt 0x0A n 5 0x3F = false → p = FPkt.ofBytes bs →
      s1 = (if s.regionStateOf (s.regionOf n) = 4 then s.wakeAt n else s) →
      (fabricCodes bs = false ∨ fabricForm bs = false →
        exec (.fabricPacketReceive g bs) s = .next ((s1.bump (.gateCheck g) 1).collSettle g)) ∧
      (fabricCodes bs = true → fabricForm bs = true →
        (p.dst ≠ s.gateName g → exec (.fabricPacketReceive g bs) s =
          .next (((s1.bump (.gateCheck g) 1).raise (Cause.atUnit (0x080 + g) none n 5 0x3F 0xFFFF)).collSettle g)) ∧
        (p.dst = s.gateName g →
          ((s1.takePacket g p).2 = false → exec (.fabricPacketReceive g bs) s =
            .next (((((s1.takePacket g p).1).gateDeliver g).touch n).collSettle g)) ∧
          ((s1.takePacket g p).2 = true → exec (.fabricPacketReceive g bs) s =
            .next ((((((s1.takePacket g p).1).gateDeliver g).touch n).collPeerLost g p.src).collSettle g))))) ∧
    (s.junctionLost n = false → s.rd (.gateLinkUp g) = 1 → s.rd (.gateEnable g) = 1 → s.adapterHeld n .b = true → ∀ bs,
      exec (.fabricPacketReceive g bs) s = .next ((s.bump (.bDiscards n) 1).collSettle g)) ∧
    (∀ k p, (s.gate g).conn p.src = some k → p.seq = 0 → (∀ t, k.theirs = some t → t ≠ p.conn ∧ newerConn p.conn t = true) →
      s.takeSeq g p = (s.setGate g ((s.gate g).setConn (k.reopened p.conn))).reorder g (k.reopened p.conn) p ∧
      (∀ c < 4, ((k.reopened p.conn).cls c).held = [] ∧ ((k.reopened p.conn).cls c).want = 0)) ∧
    (∀ k p, p.ty ≠ 3 → ((s.gate g).conn p.src = some k ∧ k.theirs = some p.conn) → (s.gate g).conns = [k] →
      (p.seq - (k.cls p.cls).want).toNat < 4096 → (k.cls p.cls).held.any (fun q => q.seq == p.seq) = false →
      (s.gate g).heldBytes p.cls + p.size ≤ classShare p.cls → ∃ k', ((s.takeSeq g p).gate g).conn p.src = some k' ∧
      (k'.cls p.cls).held = (k.cls p.cls).held ++ [p] ∧ (k'.cls p.cls).want = (k.cls p.cls).want) ∧
    (∀ (k : GClass) cum sack echo limit, (∀ e ∈ (k.acked cum sack echo limit).sent, ackCovers cum sack e.pkt.seq = false) ∧
      (4 ≤ k.window → k.window ≤ 512 →
        4 ≤ (k.acked cum sack echo limit).window ∧ (k.acked cum sack echo limit).window ≤ 512)) ∧
    (∀ peer (c : BitVec 2) k t s1, (s.gate g).conn peer = some k → (k.cls c.toNat).ackDue = some t → s.gateDue t = some s1 →
      exec (.ackDelayExpire g peer c) s =
        .next (s1.setGate g ((s1.gate g).setConn (k.setCls c.toNat { k.cls c.toNat with ackDue := none, ackNow := true })))) ∧
    (∀ peer (c : BitVec 2) seq k e s1, (s.gate g).conn peer = some k → (k.cls c.toNat).sent.find? (fun e => e.pkt.seq == seq) = some e →
      s.rd (.gateLinkUp g) = 1 → e.again = false → s.gateDue e.due = some s1 →
      (s.rd (.retxLimit g) < e.times →
        exec (.retxTimeoutExpire g peer c seq) s = .next (((s1.peerLost g peer).collPeerLost g peer).collSettle g)) ∧
      (e.times ≤ s.rd (.retxLimit g) → ∀ k', k' = k.mapSent c.toNat (fun y => if y = e then { e with again := true } else y) →
        exec (.retxTimeoutExpire g peer c seq) s =
          .next (s1.setGate g ((s1.gate g).setConn (k'.setCls c.toNat { k'.cls c.toNat with window := 4 }))))) ∧
    (∀ peer k s1, (s.gate g).conn peer = some k → (∀ c < 4, (k.cls c).sent = [] ∧ (k.cls c).ackDue = none ∧ (k.cls c).ackNow = false) →
      s.gateDue (k.used + 1000000) = some s1 →
      exec (.connectionIdleExpire g peer) s = .next (s1.setGate g ((s1.gate g).dropConn peer)) ∧
      (s1.gate g |>.dropConn peer).conn peer = none) ∧
    (∀ (acc : Access) (v : BitVec 32) r x, s.MayWrite acc (Obj.gateCfg g) r → x = s.value acc (Obj.gateCfg g) r (v.setWidth 64) →
      (fget x 16 8 = 0 → exec (.gateCfgWrite acc g v) s =
        .next (s.abortRequest acc 2 (Obj.gateCfg g / 256) (Obj.gateCfg g % 256) 0 .outOfRange)) ∧
      (fget x 16 8 ≠ 0 → fget x 31 1 = 1 → exec (.gateCfgWrite acc g v) s =
        .next (((s.setObj (Obj.gateCfg g) x).collSettle g).written acc (Obj.gateCfg g) r.ty)) ∧
      (fget x 16 8 ≠ 0 → fget x 31 1 = 0 → exec (.gateCfgWrite acc g v) s =
        .next (((((s.gate g).conns.map (·.peer)).foldl (fun (a : State) p => a.collPeerLost g p)
          ((s.setObj (Obj.gateCfg g) x).setGate g { s.gate g with conns := [] })).collSettle g).written acc (Obj.gateCfg g) r.ty))) ∧
    exec (.gateLineDown g) s = .next (s.wr (.gateLinkUp g) 0) ∧
    (s.rd (.gateLinkUp g) = 0 → ∃ t : State, exec (.gateLineUp g) s = .next t ∧ t.rd (.gateLinkUp g) = 1 ∧
      (∀ k, k ≠ Obj.gateStatus g → t.obj k = s.obj k) ∧ (t.gate g).queue = (s.gate g).queue ∧
      (t.gate g).conns.length = (s.gate g).conns.length)

/-! ## Collectives -/

/-- START, STOP, ABORT and CLEAR act on a collective channel by its state, as on an engine's. A record that has been read whole waits
on its counter, ends the run or is written back with DESC; the write-back's completion moves the ring on, and a failing fetch or
write-back halts the channel. A flit of the wanted flow is taken. The store's choice takes the cells of its tally or of one chunk where
the pool has them, the highest channel that asked becomes the next choice and the others back off (R374, R379, R386).
Completes: collStart, collStop, collAbort, collClear, collRecordFetch, collWritebackComplete, collInputFlit, storeAllocGrant. -/
def Obligations.CollectiveChannelsRunTheirRings : Prop :=
  ∀ (s : State) (g c k : Nat), k = 32 * g + c →
    (∀ (acc : Access) (r : ObjRow) (s0 : Nat → State) (refused : Host.Outcome State Fault Refusal), s.MayWrite acc (Obj.collCtrl k) r →
      (∀ n, s0 n = s.setObj (Obj.collCtrl k) (BitVec.ofNat 64 n)) →
      refused = .next (s.abortRequest acc 2 (Obj.collCtrl k / 256) (Obj.collCtrl k % 256) 0 .badState) →
      (s.rd (.coOwned k) = 1 → s.rd (.coState k) = 0 → s.warn = false →
        exec (.collStart acc g c) s = .next (((s0 1).collStart k).written acc (Obj.collCtrl k) r.ty)) ∧
      (s.rd (.coOwned k) = 1 → s.rd (.coState k) = 1 ∨ s.rd (.coState k) = 2 ∨ (s.rd (.coState k) = 0 ∧ s.warn = true) →
        exec (.collStart acc g c) s = .next (((s0 1).wr (.coPending k) 1).written acc (Obj.collCtrl k) r.ty)) ∧
      (s.rd (.coOwned k) = 0 ∨ 3 ≤ s.rd (.coState k) → exec (.collStart acc g c) s = refused) ∧
      (s.rd (.coState k) = 0 ∨ s.rd (.coState k) = 3 →
        exec (.collStop acc g c) s = .next ((s0 2).written acc (Obj.collCtrl k) r.ty)) ∧
      (s.rd (.coState k) = 1 →
        exec (.collStop acc g c) s = .next (((s0 2).wr (.coState k) 3).written acc (Obj.collCtrl k) r.ty)) ∧
      (s.rd (.coState k) = 2 → exec (.collStop acc g c) s = .next (((s0 2).collIdle k).written acc (Obj.collCtrl k) r.ty)) ∧
      (4 ≤ s.rd (.coState k) → exec (.collStop acc g c) s = refused) ∧
      (s.rd (.coState k) = 0 ∨ s.rd (.coState k) = 5 →
        exec (.collAbort acc g c) s = .next ((s0 3).written acc (Obj.collCtrl k) r.ty)) ∧
      (s.rd (.coState k) = 2 → exec (.collAbort acc g c) s = .next (((s0 3).collIdle k).written acc (Obj.collCtrl k) r.ty)) ∧
      (s.rd (.coState k) = 1 ∨ s.rd (.coState k) = 3 →
        ((s.coll k).phase = .run → exec (.collAbort acc g c) s =
          .next ((((s0 3).collAbort k 6).collSettle (k / 32)).written acc (Obj.collCtrl k) r.ty)) ∧
        ((s.coll k).phase ≠ .run → exec (.collAbort acc g c) s =
          .next (((s0 3).collCancel k).written acc (Obj.collCtrl k) r.ty))) ∧
      (s.rd (.coState k) = 4 → exec (.collAbort acc g c) s = refused ∧
        exec (.collClear acc g c) s = .next (((s0 4).wr (.coState k) 0).written acc (Obj.collCtrl k) r.ty)) ∧
      (s.rd (.coState k) ≠ 4 → exec (.collClear acc g c) s = refused)) ∧
    (c < 32 → s.gateMoves g = true → ∀ s0, s0 = s.collSettle g →
      (∀ d j what info s1 i, s0.takeDone (0x80 + g) (fun j what info => j == k && what == collFetchAsk &&
          ((s0.coll k).io.bind (·.serial)) == some info) = some (d, j, what, info, s1) →
        (s1.coll k).phase = .fetch → (s1.coll k).io = some i →
        (i.answered d = none → exec (.collRecordFetch g c) s =
          .next (((s1.collHalted k 8).collSettle g).touch (s.gateAt g))) ∧
        (∀ y, i.answered d = some y →
          (y.whole = true → exec (.collRecordFetch g c) s = .next (((s1.collRead k y.got).collSettle g).touch (s.gateAt g))) ∧
          (y.whole = false → exec (.collRecordFetch g c) s =
            .next (((s1.setColl k { s1.coll k with io := some y }).collSettle g).touch (s.gateAt g))))) ∧
      (∀ d j what info s1 i, s0.takeDone (0x80 + g) (fun j what info => j == k && what == collBackAsk &&
          ((s0.coll k).io.bind (·.serial)) == some info) = some (d, j, what, info, s1) →
        (s1.coll k).io = some i → (s1.coll k).phase = .back ∨ (s1.coll k).phase = .haltBack →
        (∀ y, i.answered d = some y →
          (y.whole = false → exec (.collWritebackComplete g c) s =
            .next (((s1.setColl k { s1.coll k with io := some y }).collSettle g).touch (s.gateAt g))) ∧
          (y.whole = true → (s1.coll k).phase = .back → exec (.collWritebackComplete g c) s =
            .next ((((s1.countEv 0x51 (s.gateAt g) (some (s.collOwner k)) 1).collAdvance k).collSettle g).touch (s.gateAt g))) ∧
          (y.whole = true → (s1.coll k).phase = .haltBack → exec (.collWritebackComplete g c) s =
            .next (((((s1.countEv 0x51 (s.gateAt g) (some (s.collOwner k)) 1).collClearOwn k).collHalted k (s1.coll k).status).collSettle
              g).touch (s.gateAt g)))) ∧
        (i.answered d = none → exec (.collWritebackComplete g c) s =
          .next (((s1.collHalted k (if (s1.coll k).phase = .haltBack then (s1.coll k).status else 8)).collSettle g).touch (s.gateAt g)))) ∧
      (∀ flow f flags s1, s0.dlvTake (s.gateAt g) 5 = some (flow, f, flags, s1) → (s0.coll k).wants = some flow.toNat →
        (s0.dlv (s.gateAt g) 5).queue.head?.map (fun p => p.1.toNat) = some flow.toNat →
        (∀ d ds, (s0.coll k).drain = d :: ds → exec (.collInputFlit g c) s =
          .next (((s1.setColl k { s0.coll k with drain := (d.take f.last).toList ++ ds }).collSettle g).touch (s.gateAt g))) ∧
        (∀ o, (s0.coll k).drain = [] → (s0.coll k).op = some o →
          (recIn (s0.coll k).record = Fmt.grid64 → o.tallyEnded = false → exec (.collInputFlit g c) s =
            .next (((s1.inputTally k o f f.err).collSettle g).touch (s.gateAt g))) ∧
          (recIn (s0.coll k).record ≠ Fmt.grid64 ∨ o.tallyEnded = true → ∀ ch i, o.filling = some (ch, i) →
            exec (.collInputFlit g c) s = .next (((s1.inputData k o ch i f f.err).collSettle g).touch (s.gateAt g)))))) ∧
    (∀ b, (s.rd (.coState k) = 3 → s.collRead k b = s.collIdle k) ∧
      (s.rd (.coState k) ≠ 3 → recOwn b = false →
        (s.rd (.coPending k) = 0 → s.collRead k b = s.collIdle k) ∧
        (s.rd (.coPending k) = 1 → s.collRead k b = (s.wr (.coPending k) 0).collFetch k (s.coll k).slot)) ∧
      (s.rd (.coState k) ≠ 3 → recOwn b = true →
        (s.recBad k b = true → s.collRead k b = ((s.setColl k { s.coll k with record := b, io := none }).wr (.coSlot k)
          (s.coll k).slot).collWriteBack k 7 .haltBack) ∧
        (s.recBad k b = false → s.collRead k b = (((((s.setColl k { s.coll k with record := b, io := none }).wr (.coSlot k)
          (s.coll k).slot).setColl k { s.coll k with record := b, io := none, phase := .wait }).wr (.coState k) 2).collRelease k)))) ∧
    (s.gateMoves g = true → exec (.storeAllocGrant g) s =
      .next ((((s.collSettle g).storeGrant g).collSettle g).touch (s.gateAt g))) ∧
    (∀ o l, (s.collStore g).choice = some c → (s.coll k).op = some o → l = (s.collStore g).latched.filter (fun x => x != c) →
      (s.wantsCells k o = false → s.storeGrant g = s.storeLeave k) ∧
      (s.wantsCells k o = true → s.poolCells g < s.poolUsed g + s.cellsWanted k o → s.storeGrant g = s) ∧
      (s.wantsCells k o = true → s.poolUsed g + s.cellsWanted k o ≤ s.poolCells g → ∀ s0, s0 = s.setCollStore g { s.collStore g with
          latched := l, choice := topChannel l, streaks := Tbl.set 0 (s.collStore g).streaks c 0 } →
        (o.tallied = false → s.storeGrant g =
          (l.filter (fun x => some x != topChannel l)).foldl (fun (a : State) x => a.storeBackOff g x) (s0.tallyBegin k o)) ∧
        (o.tallied = true → s.storeGrant g =
          (l.filter (fun x => some x != topChannel l)).foldl (fun (a : State) x => a.storeBackOff g x) (s0.startChunk k o false))))

/-- A control record and a fragment of a running operation act on it: an ARRIVE is stamped, a READY kept, an ABORT aborts; a child's
tally that disagrees aborts the operation, the final tally is passed on, a block joins its chunk; a fragment that is late, of another
size or from a rank that is no neighbour there is discarded. A result of the switch is placed, a refused attempt waits or
falls back to its tree, one without an answer is sent again until its limit. Tally entries join alike in every order and grouping
(R176, R377, R378, R387, R390 to R393, R396, R398).
Completes: collArriveReceive, collReadyReceive, collAbortReceive, tallyUpReceive, tallyDownReceive, dataUpReceive, dataDownReceive,
swContribReceive, swCapacityReceive, swResultReceive, swRefuseReceive, swRetryBackoffExpire, swAttemptTimeout, arriveResendExpire,
swCapExpire. -/
def Obligations.CollectivePacketsActOnTheirOperation : Prop :=
  ∀ (s : State) (g : Nat), g < 16 → s.gateMoves g = true →
    (∀ s0 (rtype k : Nat) (r : CRecord) s1 (end_ : State → State), s0 = (s.collSettle g).dropReserved g → s0.takeRecord g rtype = some (k, r, s1) →
      (∀ a : State, end_ a = (a.collSettle g).touch (s.gateAt g)) →
      (k < 512 → (s1.coll k).late r.tag = false →
        (rtype = arriveType → exec (.collArriveReceive g) s = .next (end_ (s1.collStamp k r.tag r.rank))) ∧
        (rtype = readyType → ∀ o, (s1.coll k).op = some o → exec (.collReadyReceive g) s =
          .next (end_ (s1.setOp k { o with readies := o.readies ++ [(r.tree, if r.arg = noIndex then none else some r.arg)] }))) ∧
        (rtype = abortType → exec (.collAbortReceive g) s = .next (end_ (s1.collAbort k 4)))) ∧
      (512 ≤ k ∨ (s1.coll k).late r.tag = true →
        (rtype = arriveType → exec (.collArriveReceive g) s = .next (end_ s1)) ∧
        (rtype = readyType → exec (.collReadyReceive g) s = .next (end_ s1)) ∧
        (rtype = abortType → exec (.collAbortReceive g) s = .next (end_ s1)))) ∧
    (∀ (ckind k : Nat) (f : Frag) s1 o (end_ : State → State), (s.collSettle g).takeFrag g ckind = some (k, f, s1) → (s1.coll k).op = some o →
      (s1.coll k).runs f.tag = true → f.size = o.size → (∀ a : State, end_ a = (a.collSettle g).touch (s.gateAt g)) →
      (ckind = 1 → (o.children false).contains f.rank = false ∨ HTally.take (Tbl.get none o.kids f.rank) f = none →
        exec (.tallyUpReceive g) s = .next (end_ s1)) ∧
      (ckind = 1 → (o.children false).contains f.rank = true → ∀ t, HTally.take (Tbl.get none o.kids f.rank) f = some t →
        ((o.ownHead (s1.coll k).record).agrees t.head = true → exec (.tallyUpReceive g) s =
          .next (end_ (s1.setOp k { o with kids := Tbl.set none o.kids f.rank (some t) }))) ∧
        ((o.ownHead (s1.coll k).record).agrees t.head = false → exec (.tallyUpReceive g) s = .next (end_ (s1.collAbort k 3)))) ∧
      (ckind = 2 → o.parent false = some f.rank → o.agreed = false → ∀ o1, o1 = { o with final := HTally.take o.final f } →
        (o1.agreed = false → exec (.tallyDownReceive g) s = .next (end_ (s1.setOp k o1))) ∧
        (o1.agreed = true → exec (.tallyDownReceive g) s = .next (end_ ((s1.setOp k o1).collAgree k o1)))) ∧
      (ckind = 2 → o.parent false ≠ some f.rank ∨ o.agreed = true → exec (.tallyDownReceive g) s = .next (end_ s1)) ∧
      (ckind = 4 → o.parent (f.chunk % 2 == 1) ≠ some f.rank → exec (.dataDownReceive g) s = .next (end_ s1)) ∧
      (∀ ch, o.chunks.find? (fun x => x.index == f.chunk) = some ch →
        (ckind = 3 → exec (.dataUpReceive g) s =
          .next (end_ (s1.setOp k (o.setChunk { ch with kids := Tbl.upd [] ch.kids f.rank (· ++ [f.blockOf]) })))) ∧
        (ckind = 4 → o.parent (f.chunk % 2 == 1) = some f.rank → exec (.dataDownReceive g) s =
          .next (end_ (s1.setOp k (o.setChunk { ch with total := ch.total ++ [f.blockOf] })))))) ∧
    (∀ (ckind k : Nat) (f : Frag) s1 (t : State), (s.collSettle g).takeFrag g ckind = some (k, f, s1) →
      (∀ o, (s1.coll k).op = some o → (s1.coll k).runs f.tag = true → f.size ≠ o.size) → t = (s1.collSettle g).touch (s.gateAt g) →
      (ckind = 1 → exec (.tallyUpReceive g) s = .next t) ∧ (ckind = 2 → exec (.tallyDownReceive g) s = .next t) ∧
      (ckind = 3 → exec (.dataUpReceive g) s = .next t) ∧ (ckind = 4 → exec (.dataDownReceive g) s = .next t)) ∧
    (∀ p s1, s.takeSwitched g FPkt.switched = some (p, s1) → exec (.swContribReceive g) s = .next s1) ∧
    (∀ p s1, s.takeSwitched g (fun p => p.ty == 5 && p.body.headD 0 == 1) = some (p, s1) → ∃ t : State,
      exec (.swCapacityReceive g) s = .next t ∧
      (∀ j, j < 64 → grpValid (s.obj (Obj.group g j)) = true → grpSwTag (s.obj (Obj.group g j)) = leAt p.body 2 2 % 4096 →
        t.obj (Obj.swCap g j) = BitVec.ofNat 64 (leAt p.body 4 4)) ∧
      (∀ i, (∀ j, j < 64 → i = Obj.swCap g j → grpValid (s.obj (Obj.group g j)) = false ∨
        grpSwTag (s.obj (Obj.group g j)) ≠ leAt p.body 2 2 % 4096) → t.obj i = s.obj i)) ∧
    (∀ p s1 k o ch, s.takeSwitched g (fun p => p.ty == 5 && p.body.headD 0 == 2) = some (p, s1) → k = 32 * g + p.chan →
      s1.switchChunk k (leAt p.body 2 2) (leAt p.body 4 4) (leAt p.body 8 4) (leAt p.body 18 1) = some (o, ch) →
      exec (.swResultReceive g) s = .next (((s1.setOp k (o.setChunk { ch with
        results := Tbl.set none ch.results (leAt p.body 12 4 - ch.index * o.chunkBlocks)
          (some ⟨Fmt.grid32, codesOf Fmt.grid32 (leAt p.body 16 2) (p.body.drop 32)⟩) })).collSettle g).touch (s.gateAt g))) ∧
    (∀ p s1 s2 k o ch, s.takeSwitched g (fun p => p.ty == 6) = some (p, s1) → k = 32 * g + p.chan → s2 = s1.bump (.coRefusals k) 1 →
      s2.switchChunk k (leAt p.body 2 2) (leAt p.body 4 4) (leAt p.body 8 4) (leAt p.body 1 1) = some (o, ch) →
      (ch.attempt < recTries (s2.coll k).record → exec (.swRefuseReceive g) s =
        .next (s2.setOp k (o.setChunk { ch with wait := some (s2.gateNow + 64 * 2 ^ min ch.attempt 10), results := [] }))) ∧
      (recTries (s2.coll k).record ≤ ch.attempt → exec (.swRefuseReceive g) s =
        .next (((s2.setOp k (o.setChunk { ch with tree := true, results := [] })).collSettle g).touch (s.gateAt g)))) ∧
    (∀ c (i : BitVec 32) k o ch s1, k = 32 * g + c → s.runChunk k i.toNat = some (o, ch) →
      (∀ t, ch.wait = some t → s.gateDue t = some s1 → exec (.swRetryBackoffExpire g c i) s =
        .next ((s1.swSend k o { ch with attempt := ch.attempt + 1, sends := 0, wait := none }).collSettle g)) ∧
      (ch.tree = false → 0 < ch.sends → ch.wait = none → ch.downSent = false → s.gateDue ch.due = some s1 →
        (s.rd (.retxLimit g) < ch.sends → exec (.swAttemptTimeout g c i) s = .next ((s1.collAbort k 2).collSettle g)) ∧
        (ch.sends ≤ s.rd (.retxLimit g) → exec (.swAttemptTimeout g c i) s = .next ((s1.swSend k o ch).collSettle g)))) ∧
    (∀ c k o s1, k = 32 * g + c → (s.coll k).phase = .run → (s.coll k).op = some o → o.isRoot false = false → o.final = none →
      s.gateDue (o.arriveAt + 1000) = some s1 → exec (.arriveResendExpire g c) s =
        .next (((s1.setOp k { o with arriveAt := s1.gateNow }).collRecord k arriveType o false 0 o.rootA).collSettle g)) ∧
    (∀ j t, j < 64 → s.running = true → Tbl.get 0 s.col.capEnds (64 * g + j) = t + 1 → ∃ s1 : State,
      exec (.swCapExpire g j) s = .next s1 ∧ s1.objs = ((s.advanceTo t).setObj (Obj.swCap g j) 0).objs ∧
      Tbl.get 0 s1.col.capEnds (64 * g + j) = 0) ∧
    (∀ k st o, (s.coll k).phase = .run → (s.coll k).op = some o → ((s.collAbort k st).coll k).op = none) ∧
    (∀ u v w : BitVec 64, (TallyEntry.ofWord u).join (TallyEntry.ofWord v) = (TallyEntry.ofWord v).join (TallyEntry.ofWord u) ∧
      ((TallyEntry.ofWord u).join (TallyEntry.ofWord v)).join (TallyEntry.ofWord w) =
        (TallyEntry.ofWord u).join ((TallyEntry.ofWord v).join (TallyEntry.ofWord w))) ∧
    (∀ a b c : HEntry, a.join b = b.join a ∧ (a.join b).join c = a.join (b.join c))

/-! ## Wards -/

/-- FORM, ACTIVATE, RESET and REVOKE move a ward as the table of R416 says and at the levels of R426, and are else refused. Its drain
waits for its transactions and, at most 1 ms, for its messages; then its junctions swap to null. At the limit what is open ends with
TIMEOUT. The scrub wakes what sleeps, waits at a revocation for the lines of its windows, and takes the ward back to FREE or ACTIVE with
the banks of its junctions emptied. A junction joins only a ward that forms or is active, and only where no other owns it; an L1 right
on an object is held by the tag of its ward alone (R409, R413, R417 to R420, R423).
Completes: wardForm, wardActivate, wardReset, wardRevoke, wardDrainComplete, wardDrainLimitExpire, wardScrubComplete,
wardJunctionsWrite. -/
def Obligations.WardsFormActivateAndEnd : Prop :=
  ∀ (s : State) (w : BitVec 4),
    (∀ (acc : Access) (r : ObjRow) (key : Nat) (done : State → Nat → Host.Outcome State Fault Refusal)
        (refused : Abort → Host.Outcome State Fault Refusal), key = Obj.wardCtrl w.toNat → s.MayWrite acc key r →
      (∀ t n, done t n = .next ((t.wr (.wardCmd w.toNat) n).written acc key r.ty)) →
      (∀ a, refused a = .next (s.abortRequest acc 2 (key / 256) (key % 256) 0 a)) →
      (acc.level.toNat < 2 → exec (.wardForm acc w) s = refused .level ∧ exec (.wardActivate acc w) s = refused .level ∧
        exec (.wardRevoke acc w) s = refused .level) ∧
      (2 ≤ acc.level.toNat →
        (s.safeStart = false → s.retired = false → s.rd (.wardSt w.toNat) = 0 →
          exec (.wardForm acc w) s = done (s.wr (.wardSt w.toNat) 1) 1) ∧
        (s.safeStart = true ∨ s.retired = true ∨ s.rd (.wardSt w.toNat) ≠ 0 → exec (.wardForm acc w) s = refused .badState) ∧
        (s.rd (.wardSt w.toNat) = 1 → s.wardJunctions w ≠ [] → s.serviceTier = 2 →
          exec (.wardActivate acc w) s = done (s.wr (.wardSt w.toNat) 2) 2) ∧
        (s.rd (.wardSt w.toNat) ≠ 1 ∨ s.wardJunctions w = [] ∨ s.serviceTier < 2 →
          exec (.wardActivate acc w) s = refused .badState) ∧
        (s.rd (.wardSt w.toNat) = 1 ∨ s.rd (.wardSt w.toNat) = 2 →
          exec (.wardRevoke acc w) s = done (s.wardClose w true) 4) ∧
        (s.rd (.wardSt w.toNat) = 3 → exec (.wardRevoke acc w) s = done (({ s.wr (.wardSt w.toNat) 4 with
          wards := Tbl.upd none s.wards w.toNat (fun x => x.map (fun q => { q with revoke := true })) } : State).wardWithdraw w) 4) ∧
        (s.rd (.wardSt w.toNat) = 4 → exec (.wardRevoke acc w) s = done s 4) ∧
        (s.rd (.wardSt w.toNat) = 0 ∨ 4 < s.rd (.wardSt w.toNat) → exec (.wardRevoke acc w) s = refused .badState)) ∧
      (s.rd (.wardSt w.toNat) = 2 → exec (.wardReset acc w) s = done (s.wardClose w false) 3) ∧
      (s.rd (.wardSt w.toNat) ≠ 2 → exec (.wardReset acc w) s = refused .badState)) ∧
    (∀ s1, s.rd (.wardPhase w.toNat) = 3 → s.frozen = false → s1 = s.wardAborts w →
      (s1.wardTxns w ≠ [] ∨ (s1.wardMessages w = true ∧ s1.drainOver w = false) → exec (.wardDrainComplete w) s = .next s1) ∧
      (s1.wardTxns w = [] → s1.wardMessages w = false ∨ s1.drainOver w = true → exec (.wardDrainComplete w) s =
        .next (((s1.forceBegin w false).emptyStaged w 0).wr (.wardPhase w.toNat) 4))) ∧
    (∀ q, Tbl.get none s.wards w.toNat = some q →
      (∀ s1, s.rd (.wardPhase w.toNat) = 3 → s.gateDue (q.drainFrom - q.frozen + 1000000) = some s1 →
        exec (.wardDrainLimitExpire w) s = .next ((s1.wardTxns w).foldl (fun (a : State) p =>
          match (a.tinit p.1).open_.find? (fun o => o.tag == p.2.tag && o.gen == p.2.gen) with
          | some o => a.timeoutTxn p.1 o
          | none => a) s1)) ∧
      (s.rd (.wardPhase w.toNat) = 5 → s.frozen = false → s.firmwareRuns = true → ∀ asleep,
        asleep = (s.wardRegions w).filter (fun k => decide (3 ≤ s.regionStateOf k)) →
        (asleep ≠ [] → exec (.wardScrubComplete w) s = .next (asleep.foldl State.wake s)) ∧
        (asleep = [] → q.revoke = true → (s.closeWindows w).wardWindows w ≠ [] →
          exec (.wardScrubComplete w) s = .next (s.closeWindows w)) ∧
        (asleep = [] → q.revoke = false ∨ (s.closeWindows w).wardWindows w = [] → ∃ t : State, exec (.wardScrubComplete w) s = .next t ∧
          t.rd (.wardSt w.toNat) = (if q.revoke then 0 else 2) ∧ t.rd (.wardPhase w.toNat) = 0 ∧ Tbl.get none t.wards w.toNat = none ∧
          ∀ n ∈ s.wardJunctions w, t.bank n 0 = Bank.null ∧ t.bank n 1 = Bank.null))) ∧
    (∀ (acc : Access) (map : BitVec 128) (r : ObjRow) (key : Nat), key = Obj.wardJunctions w.toNat → s.serves acc = true →
      s.check acc (key / 256) (key % 256) .download 16 = .ok r → s.cfg.njs ≤ 120 →
      (s.rd (.wardSt w.toNat) = 1 ∨ s.rd (.wardSt w.toNat) = 2 →
        (map.toNat < 2 ^ s.cfg.njs → (∀ n, map.getLsbD n = true → s.wardOf n = none ∨ s.wardOf n = some w) →
          (s.rd (.wardSt w.toNat) = 1 ∨ ∀ n ∈ s.wardJunctions w, map.getLsbD n = true) → ∃ t : State,
          exec (.wardJunctionsWrite acc w map) s =
            .next (t.respond acc 5 (key / 256) (key % 256) (Reply.done r.ty 0 0x80000000 [])) ∧
          ∀ n < s.cfg.njs, t.wardOf n = if map.getLsbD n then some w else if s.wardOf n = some w then none else s.wardOf n) ∧
        (2 ^ s.cfg.njs ≤ map.toNat ∨ (∃ n < s.cfg.njs, map.getLsbD n = true ∧ s.wardOf n ≠ none ∧ s.wardOf n ≠ some w) →
          exec (.wardJunctionsWrite acc w map) s = .next (s.abortRequest acc 5 (key / 256) (key % 256) 0 .outOfRange))) ∧
      (s.rd (.wardSt w.toNat) ≠ 1 → s.rd (.wardSt w.toNat) ≠ 2 →
        exec (.wardJunctionsWrite acc w map) s = .next (s.abortRequest acc 5 (key / 256) (key % 256) 0 .inUse))) ∧
    (∀ (acc : Access) i sub len r, s.check acc i sub .write len = .ok r → acc.level = 1 → r.wr = 1 → ∃ x, pathWard acc.path = some x ∧
      (s.ownerWard i sub = some x ∨ (0x1620 ≤ i ∧ i < 0x1634 ∧ fget (s.obj (objKey i sub)) 31 1 = 0)))

/-! ## Start-up and resets -/

/-- A reset pin low for 100 ns restores every class and loses the image; its release latches the straps and holds the regions, which are
released in turn. A held image that nothing holds back is measured and started; firmware that reports itself running answers what waited.
The watchdog holds the core in reset, then takes the spare, then stops both; HOLD, START, CORE_SEL and the kick act as their chapters say
(R65, R430, R431, R454, R455, R459, R476, R497).
Completes: powerOnResetAssert, resetRelease, regionStartRelease, fwImageStart, firmwareRunning, watchdogExpire, coreResetHoldExpire,
fwStart, fwHold, coreSelWrite, wdtKick. -/
def Obligations.StartUpReachesFirmware : Prop :=
  ∀ (s : State),
    (∀ pin ns, (ns < 100 → exec (.powerOnResetAssert pin ns) s = .next s) ∧
      (100 ≤ ns → s.pin.inReset = true → exec (.powerOnResetAssert pin ns) s = .next { s with
        pin := if pin = .resetN then { s.pin with rstN := false } else { s.pin with pwrOk := false } }) ∧
      (100 ≤ ns → s.pin.inReset = false → s.canonical = true → ∃ t : State, exec (.powerOnResetAssert pin ns) s = .next t ∧
        t.running = false ∧ t.boot.image = [] ∧ t.rd .causeSource = (if pin = .resetN then 0 else 1) ∧ t.pending = s.pending ∧
        t.cfg = s.cfg ∧ ∀ k, k ≠ Obj.resetCause → t.obj k = Obj.afterReset .p k (s.obj k))) ∧
    (∀ (straps : BitVec 4) (romOk : Bool) s1, s.pin.inReset = true → s.pwr.below.contains 8 = false → s.pwr.down.contains 8 = false →
      s1 = ((({ s with
        pin := { s.pin with inReset := false, rstN := true, pwrOk := true, sync := straps.getLsbD 1, syncAt := some s.now }
        flt := { s.flt with scanning := true }
        boot := { s.boot with romOk := romOk } } : State).latchStraps straps).sense).holdRegions →
      s1.running = true ∧ s1.obj Obj.strapLatch = straps.setWidth 64 ∧ s1.pwr.unstarted = List.range s.cfg.regions ∧
      (s1.factoryMode = true ↔ straps.getLsbD 0 = true ∧ s.boot.lifecycle ≤ 1 ∧ s.obj Obj.debugDisable = 0) ∧
      (∀ k < s.cfg.regions, s1.rd (.regionSt k) = if s.pwr.down.contains k then 0 else 1) ∧
      (romOk = true → s1.factoryMode = false → exec (.resetRelease straps romOk) s = .next s1) ∧
      (romOk = true → s1.factoryMode = true →
        exec (.resetRelease straps romOk) s = .next (s1.recordEvent 0x0032 s.boot.lifecycle 0 false)) ∧
      (romOk = false → s1.factoryMode = false →
        exec (.resetRelease straps romOk) s = .next (s1.raise (Cause.plain 0x004))) ∧
      (romOk = false → s1.factoryMode = true → exec (.resetRelease straps romOk) s =
        .next ((s1.recordEvent 0x0032 s.boot.lifecycle 0 false).raise (Cause.plain 0x004)))) ∧
    (∀ straps romOk, s.pin.inReset = false ∨ s.pwr.below.contains 8 = true ∨ s.pwr.down.contains 8 = true →
      exec (.resetRelease straps romOk) s = .next s) ∧
    (∀ k, s.running = true → s.pwr.unstarted.head? = some k → s.pwr.below.contains k = false → s.pwr.down.contains k = false →
      ∃ t : State, exec (.regionStartRelease k) s = .next t ∧ t.rd (.regionSt k) = 2 ∧ t.pwr.unstarted = s.pwr.unstarted.tail ∧
      ∀ i, i ≠ Obj.regionState k → (∀ b, b ∈ s.bridgesIn k → i ≠ Obj.bridgeStatus b) → t.obj i = s.obj i) ∧
    (s.bootRuns = true → s.boot.image ≠ [] → s.factoryMode = false → s.boot.holdAsked = false →
      s.safeStart = false ∨ s.boot.startAsked = true → ∃ t : State, exec .fwImageStart s = .next t ∧ t.rd .coreState = 4 ∧
      t.dom? Obj.measFw = some (sha384 s.boot.image) ∧ t.boot.wdt = some (s.now + 1000 * (s.obj Obj.wdtPeriod).toNat) ∧
      t.rd .starts = min (s.rd .starts + 1) 65535) ∧
    (s.bootRuns = false ∨ s.boot.image = [] ∨ s.factoryMode = true ∨ s.boot.holdAsked = true ∨
      (s.safeStart = true ∧ s.boot.startAsked = false) → exec .fwImageStart s = .next s) ∧
    (∀ rel : BitVec 32, s.running = true → s.rd .coreState = 4 → exec (.firmwareRunning rel) s =
      .next (({ (s.wr .coreState 1).setObj Obj.fwRelease (rel.setWidth 64) with
        boot := { s.boot with expired := false } } : State).answerHeld.servePaths.firmwareBegins)) ∧
    (∀ t0 s1, s.boot.wdt = some t0 → s.running = true →
      s1 = (((s.advanceTo t0).bump .coreExpiries 1).raise (Cause.plain 0x001)).coreDown →
      (s1.boot.expired = false → ∃ t : State, exec .watchdogExpire s = .next t ∧ t.rd .coreState = 2 ∧
        t.boot.coreHold = some (s1.now + 10000) ∧ t.boot.expired = true) ∧
      (s1.boot.expired = true → s1.rd .coreSpare = 0 → exec .watchdogExpire s = .next s1.selectSpare) ∧
      (s1.boot.expired = true → s1.rd .coreSpare ≠ 0 → exec .watchdogExpire s = .next (s1.stopCores.tierFell s.serviceTier))) ∧
    (∀ t0, s.boot.coreHold = some t0 → ∃ t : State, exec .coreResetHoldExpire s = .next t ∧ t.rd .coreState = 0 ∧
      t.boot.coreHold = none) ∧
    (∀ (acc : Access) r, s.MayWrite acc Obj.fwCtrl r →
      (s.bootRuns = true → s.boot.image ≠ [] → s.factoryMode = false → exec (.fwStart acc) s =
        .next ((({ s with boot := { s.boot with startAsked := true, holdAsked := false } } : State).setObj Obj.fwCtrl 1).written acc
          Obj.fwCtrl r.ty)) ∧
      (s.bootRuns = false ∨ s.boot.image = [] ∨ s.factoryMode = true → exec (.fwStart acc) s =
        .next (s.abortRequest acc 2 (Obj.fwCtrl / 256) (Obj.fwCtrl % 256) 0 .badState)) ∧
      exec (.fwHold acc) s = .next (((s.setObj Obj.fwCtrl 2).written acc Obj.fwCtrl r.ty).holdCore)) ∧
    (∀ (acc : Access) (v : BitVec 8) r x a, s.MayWrite acc Obj.coreSel r → x = s.value acc Obj.coreSel r (v.setWidth 64) →
      a = s.written acc Obj.coreSel r.ty →
      (fget x 0 1 = 0 → s.rd .coreSpare = 1 → exec (.coreSelWrite acc v) s =
        .next (s.abortRequest acc 2 (Obj.coreSel / 256) (Obj.coreSel % 256) 0 .badState)) ∧
      (fget x 0 1 = 1 ∨ s.rd .coreSpare = 0 →
        (v.getLsbD 0 = true → a.rd .coreSpare = 0 → exec (.coreSelWrite acc v) s = .next a.coreDown.selectSpare) ∧
        (v.getLsbD 0 = false ∨ a.rd .coreSpare ≠ 0 → exec (.coreSelWrite acc v) s = .next a))) ∧
    (∀ (acc : Access) (v : BitVec 8) r x, s.MayWrite acc Obj.wdtKick r → x = s.value acc Obj.wdtKick r (v.setWidth 64) →
      (x = 0x5A → exec (.wdtKick acc v) s =
        .next ((if s.boot.wdt.isSome then s.armWatchdog else s).written acc Obj.wdtKick r.ty)) ∧
      (x ≠ 0x5A → exec (.wdtKick acc v) s =
        .next (s.abortRequest acc 2 (Obj.wdtKick / 256) (Obj.wdtKick % 256) 0 .outOfRange)))

/-- 0xD1 and 0xA5 reset the die and the package once they are answered, and any other value is refused; a reset that comes from a bridge
is taken. A restarted die begins at time 0 with the objects that its class keeps and its regions held; cores that have stopped stay so.
A fuse is written once and in its state, and LIFECYCLE advances by one where what it needs is fused (R430, R461, R462).
Completes: dieReset, pkgReset, pkgResetReceive, fuseCaps, debugDisable, lifecycleAdvance. -/
def Obligations.ResetsRestoreAndFusesHold : Prop :=
  ∀ (s : State),
    (∀ (acc : Access) (v : BitVec 8) r, s.MayWrite acc Obj.dieReset r →
      (s.value acc Obj.dieReset r (v.setWidth 64) = 0xD1 →
        exec (.dieReset acc v) s = .next (s.written acc Obj.dieReset r.ty).dieReset) ∧
      (s.value acc Obj.dieReset r (v.setWidth 64) ≠ 0xD1 → exec (.dieReset acc v) s =
        .next (s.abortRequest acc 2 (Obj.dieReset / 256) (Obj.dieReset % 256) 0 .outOfRange))) ∧
    (∀ (acc : Access) (v : BitVec 8) r, s.MayWrite acc Obj.pkgReset r →
      (s.value acc Obj.pkgReset r (v.setWidth 64) = 0xA5 →
        exec (.pkgReset acc v) s = .next ((s.written acc Obj.pkgReset r.ty).packageReset 5)) ∧
      (s.value acc Obj.pkgReset r (v.setWidth 64) ≠ 0xA5 → exec (.pkgReset acc v) s =
        .next (s.abortRequest acc 2 (Obj.pkgReset / 256) (Obj.pkgReset % 256) 0 .outOfRange))) ∧
    (s.running = true → exec .pkgResetReceive s = .next (s.packageReset 4)) ∧
    (∀ source, (s.packageReset source).brg = BridgeState.reset ∧ (s.packageReset source).now = 0) ∧
    (s.restartDie.now = 0 ∧ s.restartDie.pending = s.pending ∧ s.restartDie.cfg = s.cfg ∧
      s.restartDie.pwr.unstarted = List.range s.cfg.regions ∧ s.restartDie.wards = [] ∧
      (s.canonical = true → s.flt.split = [] →
        s.restartDie.rd .coreState = (if s.rd .coreState = 3 then 3 else 0) ∧
        ∀ k, k ≠ Obj.coreState → k ≠ Obj.fwRelease → k ≠ Obj.lifecycle → k ≠ Obj.pathCap →
          (∀ i < s.cfg.regions, k ≠ Obj.regionState i) → s.restartDie.obj k = Obj.afterReset .d k (s.obj k))) ∧
    (∀ (acc : Access) (v : BitVec 16) r x (refused : Abort → Host.Outcome State Fault Refusal), s.MayWrite acc Obj.fuseCaps r →
      x = s.value acc Obj.fuseCaps r (v.setWidth 64) →
      (∀ a, refused a = .next (s.abortRequest acc 2 (Obj.fuseCaps / 256) (Obj.fuseCaps % 256) 0 a)) →
      (s.boot.capsFused = true → exec (.fuseCaps acc v) s = refused .inUse) ∧
      (s.boot.capsFused = false → s.lifecycle ≠ 0 → exec (.fuseCaps acc v) s = refused .badState) ∧
      (s.boot.capsFused = false → s.lifecycle = 0 →
        (fget x 0 3 ≤ 3 → fget x 3 3 ≤ 3 → fget x 6 3 = 0 ∨ fget x 6 3 = 1 ∨ fget x 6 3 = 7 → exec (.fuseCaps acc v) s =
          .next ((({ s with boot := { s.boot with capsFused := true } } : State).setObj Obj.fuseCaps x).written acc Obj.fuseCaps r.ty)) ∧
        (3 < fget x 0 3 ∨ 3 < fget x 3 3 ∨ (fget x 6 3 ≠ 0 ∧ fget x 6 3 ≠ 1 ∧ fget x 6 3 ≠ 7) →
          exec (.fuseCaps acc v) s = refused .outOfRange))) ∧
    (∀ (acc : Access) (v : BitVec 8) r x, s.MayWrite acc Obj.debugDisable r → x = s.value acc Obj.debugDisable r (v.setWidth 64) →
      exec (.debugDisable acc v) s =
        .next ((s.setObj Obj.debugDisable (s.obj Obj.debugDisable ||| x)).written acc Obj.debugDisable r.ty)) ∧
    (∀ (acc : Access) (v : BitVec 8) r x (refused : Abort → Host.Outcome State Fault Refusal), s.MayWrite acc Obj.lifecycleAdvance r →
      x = s.value acc Obj.lifecycleAdvance r (v.setWidth 64) →
      (∀ a, refused a = .next (s.abortRequest acc 2 (Obj.lifecycleAdvance / 256) (Obj.lifecycleAdvance % 256) 0 a)) →
      (s.lifecycle = 3 → exec (.lifecycleAdvance acc v) s = refused .badState) ∧
      (s.lifecycle ≠ 3 → x.toNat ≠ s.lifecycle + 1 → exec (.lifecycleAdvance acc v) s = refused .outOfRange) ∧
      (x.toNat = s.lifecycle + 1 → (s.lifecycle = 0 ∧ (s.boot.capsFused = false ∨ s.boot.provFused = false)) ∨
          (s.lifecycle = 1 ∧ (s.boot.certFused = false ∨ s.boot.keyFused = false)) →
        exec (.lifecycleAdvance acc v) s = refused .badState) ∧
      (x.toNat = s.lifecycle + 1 → (s.lifecycle = 0 ∧ s.boot.capsFused = true ∧ s.boot.provFused = true) ∨
          (s.lifecycle = 1 ∧ s.boot.certFused = true ∧ s.boot.keyFused = true) ∨ s.lifecycle = 2 →
        ∀ s1, s1 = ({ s with boot := { s.boot with lifecycle := max s.boot.lifecycle (s.lifecycle + 1) } } : State) →
        exec (.lifecycleAdvance acc v) s = .next (((if s.lifecycle = 1 then s1.setObj Obj.debugDisable 1 else s1).recordEvent 0x0033
          (s.lifecycle + 1) 0 false).written acc Obj.lifecycleAdvance r.ty)))

/-! ## Pins and adapters -/

/-- A rising edge of SYNC latches the time and counts, and freezes where SYNC_FREEZE is set. Losing TIMEREF is counted and raised, and
its return starts a new measurement, at the master of the hall offset and everywhere of what is below; the oscillator is trimmed each
millisecond. An adapter clock that stops holds its channels and reads 0, and resumes what waits when it starts. An adapter reset empties
the port, which resumes at its release (R34, R36, R66, R67, R76, R325).
Completes: syncEdge, timerefLoss, timerefReturn, oscillatorTrim, adapterClockStop, adapterClockStart, adapterClockMeasure,
adapterResetAssert, adapterResetRelease. -/
def Obligations.PinsClocksAndAdapterResetsAct : Prop :=
  ∀ (s : State),
    (s.running = true → s.factoryMode = false → ∀ s1, s1 = (({ s with pin := { s.pin with sync := true, syncAt := some s.now } } : State).setObj
        Obj.syncTime (BitVec.ofNat 64 s.now)).bumpWrap ⟨Obj.syncCount, 0, 32⟩ 1 →
      (s1.obj Obj.syncTime = BitVec.ofNat 64 s.now ∧
        s1.rd ⟨Obj.syncCount, 0, 32⟩ = (s.rd ⟨Obj.syncCount, 0, 32⟩ + 1) % 2 ^ 32 ∧
        ∀ k, k ≠ Obj.syncTime → k ≠ Obj.syncCount → s1.obj k = s.obj k) ∧
      (s.rd .syncFreeze = 1 → s.frozen = false → exec .syncEdge s = .next (s1.freezeBegin 1 2)) ∧
      (s.rd .syncFreeze ≠ 1 ∨ s.frozen = true → exec .syncEdge s = .next s1)) ∧
    (s.running = true → s.pin.timerefOk = true → ∀ s1, s1 = ({ s with pin := { s.pin with timerefOk := false } } : State).bump
        ⟨Obj.timerefLoss, 0, 16⟩ 1 →
      exec .timerefLoss s = .next ((s1.raise (Cause.plain 0x005)).tierFell s.serviceTier) ∧ s1.pin.timerefOk = false ∧
      s1.rd ⟨Obj.timerefLoss, 0, 16⟩ = min (s.rd ⟨Obj.timerefLoss, 0, 16⟩ + 1) 65535) ∧
    (s.running = true → s.pin.timerefOk = false → ∀ s1, s1 = ({ s with pin := { s.pin with timerefOk := true } } : State) →
      ∀ s2, s2 = (if s1.isMaster then (s1.setObj Obj.hallError 0xFFFFFFFF).hallBegin else s1.setObj Obj.tbError 0xFFFFFFFF) →
        (s2.enumerated = true → exec .timerefReturn s = .next s2.measureAgain) ∧
        (s2.enumerated = false → exec .timerefReturn s = .next s2)) ∧
    (s.running = false ∨ s.factoryMode = true → exec .syncEdge s = .next s) ∧
    (s.running = true → s.pin.timerefOk = true → ∃ t : State, exec .oscillatorTrim s = .next t ∧
      t.now = max s.now (s.pin.lastTrim + 1000000) ∧ t.pin.lastTrim = t.now ∧ t.objs = s.objs) ∧
    (∀ n side, s.cfg.hasAdapter n side = true →
      (s.clockStopped n side = false → ∃ t : State, exec (.adapterClockStop n side) s = .next t ∧ t.clockStopped n side = true ∧
        t.obj (clockKey n side) = 0 ∧ ∀ k, k ≠ clockKey n side → t.obj k = s.obj k) ∧
      (s.clockStopped n side = true → exec (.adapterClockStart n side) s =
        .next (({ s with pin := { s.pin with stopped := s.pin.stopped.erase (adapterKey n side) } } : State).adapterResumes n side)) ∧
      (∀ mhz : BitVec 16, s.running = true → exec (.adapterClockMeasure n side mhz) s =
        .next (s.setObj (clockKey n side) (if s.clockStopped n side then 0 else mhz.setWidth 64))) ∧
      (s.adapterHeld n side = false → ∀ s1, s1 = ({ s with pin := { s.pin with held := s.pin.held ++ [adapterKey n side] } } : State) →
        s1.adapterHeld n side = true ∧
        (s.running = true → exec (.adapterResetAssert n side) s = .next (s1.portReset n side)) ∧
        (s.running = false → exec (.adapterResetAssert n side) s = .next s1)) ∧
      (s.adapterHeld n side = true → exec (.adapterResetRelease n side) s =
        .next (({ s with pin := { s.pin with held := s.pin.held.erase (adapterKey n side) } } : State).adapterResumes n side))) ∧
    (∀ n side, (s.loseDelivery n side).dlv n (sidePort side) = TDlv.zero ∧
      adapterKey n side ∈ (s.loseDelivery n side).pin.waitFirst) ∧
    (∀ n k, k < s.cfg.sockets n → (s.emptySockets n).sock n k = Sock.zero)

/-! ## Faults and the event recorder -/

/-- A status is cleared unless its source is absent, its cause persists or the safe state holds it; 0xFFFF clears those that may be.
Severities, the threshold and an injection are stored within their ranges. A mismatch of the collector's copies is raised; a patrolled
word is corrected or ends as its store says. A record is written whole, with a CHECK that verifies, in the first free slot, of which the
last 256 are kept for the records R504 names; one whose programming does not verify is written again in the next slot. The scan finds
that slot and the next power cycle, and hours count (R484, R485, R491 to R494, R498, R501 to R506).
Completes: faultClear, faultSevWrite, faultThresholdWrite, inject, testPortInjectAccess, collectorCompareMismatch, patrolScrubRead,
recordWriteComplete, recorderScanComplete, operatingHourTick. -/
def Obligations.FaultsAreClearedInjectedAndRecorded : Prop :=
  ∀ (s : State),
    (∀ (acc : Access) (v : BitVec 16) r x i (refused : Abort → Host.Outcome State Fault Refusal), s.MayWrite acc Obj.faultClear r →
      x = s.value acc Obj.faultClear r (v.setWidth 64) → i = x.toNat →
      (∀ a, refused a = .next (s.abortRequest acc 2 (Obj.faultClear / 256) (Obj.faultClear % 256) 0 a)) →
      (x ≠ 0xFFFF →
        (s.sourcePresent i = false → exec (.faultClear acc v) s = refused .outOfRange) ∧
        (s.sourcePresent i = true → s.causeActive i = true → exec (.faultClear acc v) s = refused .inUse) ∧
        (s.sourcePresent i = true → s.causeActive i = false →
          (s.safe = true → s.rd (.stSev i) = 3 → exec (.faultClear acc v) s = refused .badState) ∧
          (s.safe = false ∨ s.rd (.stSev i) ≠ 3 →
            exec (.faultClear acc v) s = .next ((s.clearStatus i).written acc Obj.faultClear r.ty)))) ∧
      (x = 0xFFFF → ∃ t : State, exec (.faultClear acc v) s = .next (t.written acc Obj.faultClear r.ty) ∧
        (∀ j < 512, t.obj (Obj.faultStatus j) = if s.clearBar j = none then 0 else s.obj (Obj.faultStatus j)) ∧
        ∀ k, (∀ j < 512, k ≠ Obj.faultStatus j) → t.obj k = s.obj k)) ∧
    (∀ (acc : Access) src (v : BitVec 8) r x, s.MayWrite acc (Obj.faultSev src) r →
      x = s.value acc (Obj.faultSev src) r (v.setWidth 64) →
      (src = 0 ∨ (fget x 0 2 = 2 ∧ Fault.hasWard src = false) → exec (.faultSevWrite acc src v) s =
        .next (s.abortRequest acc 2 (Obj.faultSev src / 256) (Obj.faultSev src % 256) 0 .outOfRange)) ∧
      (src ≠ 0 → fget x 0 2 ≠ 2 ∨ Fault.hasWard src = true → exec (.faultSevWrite acc src v) s =
        .next ((s.setObj (Obj.faultSev src) x).written acc (Obj.faultSev src) r.ty))) ∧
    (∀ (acc : Access) (v : BitVec 8) r x, s.MayWrite acc Obj.faultThreshold r →
      x = s.value acc Obj.faultThreshold r (v.setWidth 64) →
      (1 ≤ x.toNat → x.toNat ≤ 3 → exec (.faultThresholdWrite acc v) s =
        .next ((s.setObj Obj.faultThreshold x).written acc Obj.faultThreshold r.ty)) ∧
      (x.toNat = 0 ∨ 3 < x.toNat → exec (.faultThresholdWrite acc v) s =
        .next (s.abortRequest acc 2 (Obj.faultThreshold / 256) (Obj.faultThreshold % 256) 0 .outOfRange))) ∧
    (∀ (v x : BitVec 64) present, present = s.checkerPresent (fget x 48 8) (fget x 41 7) (fget x 38 3) (fget x 32 6) →
      (∀ (acc : Access) r, s.MayWrite acc Obj.inject r → x = s.value acc Obj.inject r v →
        (s.rd .injArm = 1 → fget x 63 1 = 1 → exec (.inject acc v) s =
          .next (s.abortRequest acc 2 (Obj.inject / 256) (Obj.inject % 256) 0 .inUse)) ∧
        (s.rd .injArm ≠ 1 ∨ fget x 63 1 = 0 →
          ((fget x 61 1 = 1 ∧ s.factoryMode = false) ∨ (fget x 63 1 = 1 ∧ present = false) → exec (.inject acc v) s =
            .next (s.abortRequest acc 2 (Obj.inject / 256) (Obj.inject % 256) 0 .outOfRange)) ∧
          (fget x 61 1 = 0 ∨ s.factoryMode = true → fget x 63 1 = 0 ∨ present = true →
            (fget x 63 1 = 0 ∨ fget x 48 8 ≠ 0x0B → exec (.inject acc v) s =
              .next ((s.setObj Obj.inject x).written acc Obj.inject r.ty)) ∧
            (fget x 63 1 = 1 → fget x 48 8 = 0x0B → exec (.inject acc v) s =
              .next (((s.setObj Obj.inject x).injectFired.collectorFails true).written acc Obj.inject r.ty))))) ∧
      (x = v &&& 0xE0FFFFFF00000000 → s.running = true → s.factoryMode = true → s.rd .injArm ≠ 1 ∨ fget x 63 1 = 0 →
        fget x 63 1 = 0 ∨ present = true →
        (fget x 63 1 = 0 ∨ fget x 48 8 ≠ 0x0B → exec (.testPortInjectAccess v) s = .next (s.setObj Obj.inject x)) ∧
        (fget x 63 1 = 1 → fget x 48 8 = 0x0B →
          exec (.testPortInjectAccess v) s = .next ((s.setObj Obj.inject x).injectFired.collectorFails true))) ∧
      (x = v &&& 0xE0FFFFFF00000000 → s.running = false ∨ s.factoryMode = false ∨ (s.rd .injArm = 1 ∧ fget x 63 1 = 1) ∨
        (fget x 63 1 = 1 ∧ present = false) → exec (.testPortInjectAccess v) s = .next s)) ∧
    (∀ key (a b : Option (BitVec 64)), s.running = true → collectorKey key = true → a = none ∨ a ≠ b →
      exec (.collectorCompareMismatch key a b) s =
        .next (({ s with flt := { s.flt with split := Tbl.set (none, none) s.flt.split key (a, b) } } : State).collectorFails false)) ∧
    (∀ w flips kind n d c, s.wordAt w = some (kind, n, d, c) → s.running = true → s.obj Obj.scrubPeriod ≠ 0 →
      kind = 7 ∨ s.junctionActive n = true → ∀ x s1, x = s.storeDecode n kind d c flips → s1 = s.storeRead n kind d c flips →
      (x.bad = true → exec (.patrolScrubRead w flips) s = .next ((s1.wordBad n w (s.storeInjected n kind)).rowBad n kind w)) ∧
      (x.bad = false → ∀ s2, s2 = s1.wordWrong n w x.wrong →
        (x.corrected.isSome = true → exec (.patrolScrubRead w flips) s = .next (s2.scrubNote n kind w)) ∧
        (x.corrected = none → exec (.patrolScrubRead w flips) s = .next s2))) ∧
    (∀ w flips kind n d c, s.wordAt w = some (kind, n, d, c) →
      s.running = false ∨ s.obj Obj.scrubPeriod = 0 ∨ (kind ≠ 7 ∧ s.junctionActive n = false) →
      exec (.patrolScrubRead w flips) s = .next s) ∧
    (∀ q rest i verified, s.flt.queue = q :: rest → s.running = true → s.flt.scanning = false → s.pwr.below.contains 8 = false →
      i = s.freeSlot 8192 (s.rd .recNext) →
      (8192 ≤ i → exec (.recordWriteComplete verified) s = .next (s.recordAt 8192)) ∧
      (i < 8192 → 7936 ≤ i → q.reserved = false → exec (.recordWriteComplete verified) s =
        .next ((({ s with flt := { s.flt with queue := rest } } : State).wr .recNext i).bump .recLost 1).raiseRecorder) ∧
      (i < 8192 → i < 7936 ∨ q.reserved = true →
        (∀ (t : State) bs, bs = q.bytes (s.obj Obj.powerCycles).toNat (s.obj Obj.opHours).toNat →
          t = { s with flt := { s.flt with queue := rest, slots := Tbl.set [] s.flt.slots i bs } } →
          exec (.recordWriteComplete true) s = .next (t.recordAt (i + 1)) ∧ t.slotBytes i = bs ∧
            ∀ j, j ≠ i → t.slotBytes j = s.slotBytes j) ∧
        exec (.recordWriteComplete false) s = .next (((({ s with flt := { s.flt with
          slots := Tbl.set [] s.flt.slots i (padTo 31 (Config.freeBytes s.drawn 31) ++ [0xFF]) } } : State).draw).raiseRecorder).recordAt
            (i + 1)))) ∧
    (∀ i b, b = (s.wr .recNext i).bump .recLost s.flt.queue.length →
      (i < 8192 → s.recordAt i = s.wr .recNext i) ∧
      (8192 ≤ i → s.recordAt i = ({ b with flt := { b.flt with queue := [] } } : State).raiseRecorder)) ∧
    (∀ (q : EventRec) cycles hours, slotValid (q.bytes cycles hours) = true) ∧
    (∀ next valid, s.running = true → s.flt.scanning = true →
      next = (((s.flt.slots.filter (fun p => slotUsed p.2)).map (·.1)).map (· + 1)).foldl max 0 →
      valid = (s.flt.slots.filter (fun p => slotValid p.2)).map (·.2) → ∃ t : State,
      (next < 8192 → exec .recorderScanComplete s = .next (t.recordEvent 0x0001 (s.obj Obj.resetCause).toNat s.powerOnDetail true) ∧
        t.rd .recNext = next) ∧
      (8192 ≤ next → exec .recorderScanComplete s =
        .next (t.raiseRecorder.recordEvent 0x0001 (s.obj Obj.resetCause).toNat s.powerOnDetail true)) ∧
      t.flt.scanning = false ∧
      t.obj Obj.powerCycles = BitVec.ofNat 64 (min ((valid.map (fun b => leAt b 6 2)).foldl max 0 + 1) 0xFFFF) ∧
      t.obj Obj.opHours = BitVec.ofNat 64 ((valid.map (fun b => leAt b 8 4)).foldl max 0)) ∧
    (s.running = true → s.pin.pwrOk = true → ∀ s1, s1 = s.bump ⟨Obj.opHours, 0, 32⟩ 1 →
      s1.rd ⟨Obj.opHours, 0, 32⟩ = min (s.rd ⟨Obj.opHours, 0, 32⟩ + 1) (2 ^ 32 - 1) ∧
      ((s1.obj Obj.opHours).toNat % 16 = 0 → exec .operatingHourTick s = .next (s1.recordEvent 0x0002 0 0 false)) ∧
      ((s1.obj Obj.opHours).toNat % 16 ≠ 0 → exec .operatingHourTick s = .next s1))

/-! ## Spares -/

/-- A command of SISTER_CTRL is taken when none is in progress and it names what the build has: a retirement runs, is deferred while a
ward of its span swaps, or is refused with its reason; a wire or lane is steered stage by stage. A margin below its limit with nothing
left to steer makes the junction a candidate, whose line firmware retires by itself where AUTO_RETIRE allows (which line first is the
model's choice, log entry 142); drift at its limit is raised, the hour restarts the counts, and a bridge with too many corrections
retrains the modules that showed them (R518, R520, R524 to R526, R528 to R531).
Completes: retireCol, retireRow, steerWire, steerLane, retirementResume, wireSteerStage, marginMeasure, paceDriftMeasure,
suspectHourExpire, autoBridgeCheck. -/
def Obligations.SparesAreTakenAndWearIsWatched : Prop :=
  ∀ (s : State),
    (∀ (acc : Access) r (n point wire lane phys) (start : Val → Host.Outcome State Fault Refusal), s.MayWrite acc Obj.sisterCtrl r →
      (∀ v x, x = s.value acc Obj.sisterCtrl r v →
        (s.sisterFits x = true → start v =
          .next ((((s.setObj Obj.sisterCtrl x).sisterEnd 1 0).sisterStart).written acc Obj.sisterCtrl r.ty)) ∧
        (s.sisterFits x = false → start v =
          .next (s.abortRequest acc 2 (Obj.sisterCtrl / 256) (Obj.sisterCtrl % 256) 0 .outOfRange))) →
      (s.rd .sisterState ≠ 1 → s.rd .sisterState ≠ 4 →
        exec (.retireCol acc phys) s = start (sisterWord 1 0 0 0 phys.toNat) ∧
        exec (.retireRow acc phys) s = start (sisterWord 2 0 0 0 phys.toNat) ∧
        exec (.steerWire acc n point wire) s = start (sisterWord 3 n.toNat point.toNat wire.toNat 0) ∧
        exec (.steerLane acc n lane) s = start (sisterWord 4 n.toNat 0 lane.toNat 0)) ∧
      (s.rd .sisterState = 1 ∨ s.rd .sisterState = 4 → ∀ c, c = .retireCol acc phys ∨ c = .retireRow acc phys ∨
        c = .steerWire acc n point wire ∨ c = .steerLane acc n lane → exec c s =
          .next (s.abortRequest acc 2 (Obj.sisterCtrl / 256) (Obj.sisterCtrl % 256) 0 .inUse))) ∧
    (s.rd .sisterState = 1 ∨ s.rd .sisterState = 4 → s.rd .sisterCmd ≤ 2 → s.spanSwaps = false →
      exec .retirementResume s = .next s.retire) ∧
    ((s.rd .sisterState ≠ 1 ∧ s.rd .sisterState ≠ 4) ∨ 2 < s.rd .sisterCmd ∨ s.spanSwaps = true →
      exec .retirementResume s = .next s.autoRetire) ∧
    (s.rd .autoRetire = 0 → s.autoRetire = s) ∧
    (s.rd .autoRetire = 1 → s.firmwareRuns = true → s.frozen = false → s.rd .sisterState ≠ 1 → s.rd .sisterState ≠ 4 →
      (s.retireNext = none → s.autoRetire = s) ∧
      (∀ v, s.retireNext = some v → s.autoRetire = ((s.setObj Obj.sisterCtrl v).sisterEnd 1 0).retire ∧
        (s.setObj Obj.sisterCtrl v).retireBar = none ∧ ∃ n i, n < s.cfg.njs ∧ i < 4 ∧ wearCandidate (s.wear n i) = 1 ∧
          (v = sisterWord 1 0 0 0 (s.physOf n).1 ∨ v = sisterWord 2 0 0 0 (s.physOf n).2))) ∧
    (s.frozen = false → s.firmwareRuns = true →
      (∀ reason, s.retireBar = some reason → s.retire = s.sisterEnd 3 reason ∧ 1 ≤ reason ∧ reason ≤ 3) ∧
      (s.retireBar = none → s.spanSwaps = true → s.retire = s.sisterEnd 4 0) ∧
      (s.retireBar = none → s.spanSwaps = false → s.retire = (s.wr .sisterState 1).retireSteps)) ∧
    (∀ n point x, s.moves n = true → s.sp.steering.find? (fun x => x.n == n && x.point == point) = some x →
      (x.stage = 0 → ∃ t : State, exec (.wireSteerStage n point true) s = .next t ∧ t.objs = s.objs ∧
        t.sp.steering = s.sp.steering.erase x ++ [⟨x.n, x.point, x.wire, x.spare, 1⟩]) ∧
      (x.stage ≠ 0 → ∀ s1, s1 = ({ s with sp := { s.sp with steering := s.sp.steering.erase x } } : State) →
        exec (.wireSteerStage n point true) s = .next ((s1.spareRecord 3 x.n x.point 0x1F x.wire
          (32 - s1.rd (.wiresUsed x.n x.point))).sisterDone 3 x.n (s1.rd .sisterPoint == x.point && s1.rd .sisterWire == x.wire))) ∧
      exec (.wireSteerStage n point false) s = .next (s.steerAgain x)) ∧
    (∀ n point (steps : BitVec 8) v m s1, s.running = true → s.junctionActive n = true → (s.cfg.neighbour n point).isSome = true →
      v = s.wear n point → m = (if 32 ≤ s.rd (.wiresUsed n point) then 0xFF else steps.toNat) →
      s1 = s.setWear n point (wearOf (wearSuspect v) (wearCount v) (wearCandidate v) m) →
      (m < s1.rd .marginMin → s1.suspectsSteered n point = true → exec (.marginMeasure n point steps) s = .next (s1.candidate n).autoRetire) ∧
      (s1.rd .marginMin ≤ m ∨ s1.suspectsSteered n point = false → exec (.marginMeasure n point steps) s = .next s1.autoRetire)) ∧
    (∀ k (drift : BitVec 16) s1, s.running = true → k < s.cfg.regions → s.regionStateOf k = 2 →
      s1 = s.setObj (Obj.paceDrift k) (drift.setWidth 64) →
      (s1.drifted k = true → exec (.paceDriftMeasure k drift) s = .next (s1.raise ⟨0x00A, none, 0x7F, 7, k, drift.toNat, false⟩)) ∧
      (s1.drifted k = false → exec (.paceDriftMeasure k drift) s = .next s1)) ∧
    (s.running = true → ∃ t : State, exec .suspectHourExpire s = .next t.autoRetire ∧ t.sp.residues = [] ∧ t.objs = s.objs ∧
      (∀ b < 4, Tbl.get 0 t.sp.fecBase b = s.rd (.fecCount b)) ∧ ∀ n < s.cfg.njs, ∀ i < 4, wearCount (t.wear n i) = 0) ∧
    (∀ b, s.rd .autoBridge = 1 → s.firmwareRuns = true → s.rd (.bridgeState b) = 2 →
      (∀ count base, count = s.rd (.fecCount b) → base = Tbl.get 0 s.sp.fecBase b →
        2 ^ 20 < (if count < base then count else count - base) →
          exec (.autoBridgeCheck b) s = .next (s.bridgeRetrain b (Tbl.get 0 s.sp.fecMods b))))

/-! ## Observation -/

/-- A gather leaves no count at the units and its time; a counter slot takes a listed event and starts from zero, and a ward enables
events that are attributed. Records reach the store in the order of their queues; trigger, restart and control act on it. The exchange
with the least trip sets the hall's offset, after eight or after 10 ms (R534 to R545).
Completes: counterGather, cntCfgWrite, wardEvtEnWrite, traceRecordStore, traceTrigger, traceRestart, traceCtrlWrite, hallRefWrite,
hallTimeRespReceive, hallMeasureTimeout. -/
def Obligations.CountersTraceAndHallTimeAct : Prop :=
  ∀ (s : State),
    (s.running = true → ∃ t : State, exec .counterGather s = .next t ∧ t.obs.counts = [] ∧ t.obs.fresh = [] ∧
      t.obj Obj.gatherTime = BitVec.ofNat 64 s.now) ∧
    (∀ (acc : Access) k (v : BitVec 32) r x, s.MayWrite acc (Obj.cntCfg k) r → x = s.value acc (Obj.cntCfg k) r (v.setWidth 64) →
      (eventListed (fget x 0 8) = true → ∃ t : State,
        exec (.cntCfgWrite acc k v) s = .next (t.written acc (Obj.cntCfg k) r.ty) ∧ k ∈ t.obs.fresh ∧
        t.objs = ((s.setObj (Obj.cntCfg k) x).setObj (Obj.cntValue k) 0).objs) ∧
      (eventListed (fget x 0 8) = false → exec (.cntCfgWrite acc k v) s =
        .next (s.abortRequest acc 2 (Obj.cntCfg k / 256) (Obj.cntCfg k % 256) 0 .outOfRange))) ∧
    (∀ (acc : Access) (w : BitVec 4) (bits : BitVec 128) r key, key = Obj.wardEvtEn w.toNat → s.serves acc = true →
      s.check acc (key / 256) (key % 256) .download 16 = .ok r →
      ((∀ e < 128, bits.getLsbD e = true → eventListed e = true ∧ e ≠ 0x35) → exec (.wardEvtEnWrite acc w bits) s =
        .next ((s.setDom key (leBytes 16 bits.toNat)).respond acc 5 (key / 256) (key % 256) (Reply.done r.ty 0 0x80000000 []))) ∧
      (∀ e < 128, bits.getLsbD e = true → eventListed e = false ∨ e = 0x35 → exec (.wardEvtEnWrite acc w bits) s =
        .next (s.abortRequest acc 5 (key / 256) (key % 256) 0 .outOfRange))) ∧
    (∀ n j q rest, j < 3 → (∀ i < j, Tbl.get [] s.obs.queues (3 * n + i) = []) → Tbl.get [] s.obs.queues (3 * n + j) = q :: rest →
      exec (.traceRecordStore n) s = .next (State.traceArrive { s with
        obs := { s.obs with queues := Tbl.set [] s.obs.queues (3 * n + j) rest } } q)) ∧
    (∀ (acc : Access) r, s.MayWrite acc Obj.traceCmd r →
      (s.value acc Obj.traceCmd r 1 = 1 → exec (.traceTrigger acc) s =
        .next (((s.traceFire (Config.freeValue s.drawn).toNat).draw).written acc Obj.traceCmd r.ty)) ∧
      (s.value acc Obj.traceCmd r 2 = 2 → exec (.traceRestart acc) s = .next (s.traceRestart.written acc Obj.traceCmd r.ty))) ∧
    (∀ (acc : Access) (v : BitVec 32) r x, s.MayWrite acc Obj.traceCtrl r → x = s.value acc Obj.traceCtrl r (v.setWidth 64) →
      (x.getLsbD 31 = true → s.rd .traceState = 2 → exec (.traceCtrlWrite acc v) s =
        .next (s.abortRequest acc 2 (Obj.traceCtrl / 256) (Obj.traceCtrl % 256) 0 .inUse)) ∧
      (x.getLsbD 31 = true → s.rd .traceState = 0 → exec (.traceCtrlWrite acc v) s =
        .next (((s.setObj Obj.traceCtrl x).wr .traceState 1).written acc Obj.traceCtrl r.ty)) ∧
      (x.getLsbD 31 = true → s.rd .traceState = 1 ∨ s.rd .traceState = 3 → exec (.traceCtrlWrite acc v) s =
        .next ((s.setObj Obj.traceCtrl x).written acc Obj.traceCtrl r.ty)) ∧
      (x.getLsbD 31 = false → exec (.traceCtrlWrite acc v) s =
        .next (((s.setObj Obj.traceCtrl x).wr .traceState 0).written acc Obj.traceCtrl r.ty))) ∧
    (∀ (acc : Access) (v : BitVec 32) r x s1, s.MayWrite acc Obj.hallRef r → x = s.value acc Obj.hallRef r (v.setWidth 64) →
      s1 = s.setObj Obj.hallRef x →
      (s.isMaster = false → exec (.hallRefWrite acc v) s =
        .next (s.abortRequest acc 2 (Obj.hallRef / 256) (Obj.hallRef % 256) 0 .notPresent)) ∧
      (s.isMaster = true →
        (x.getLsbD 31 = false → exec (.hallRefWrite acc v) s = .next (s1.written acc Obj.hallRef r.ty)) ∧
        (x.getLsbD 31 = true → fget x 16 12 = (s.obj Obj.pkgNumber).toNat → exec (.hallRefWrite acc v) s =
          .next (s1.hallBegin.written acc Obj.hallRef r.ty)) ∧
        (x.getLsbD 31 = true → fget x 16 12 ≠ (s.obj Obj.pkgNumber).toNat → exec (.hallRefWrite acc v) s =
          .next (((s1.setObj Obj.hallError 0xFFFFFFFF).hallBegin).written acc Obj.hallRef r.ty)))) ∧
    (∀ t1 t2 t3 t4 (e : BitVec 32) s1, s.isMaster = true → s.obs.hallFrom ≠ none → s1 = ({ s with obs := { s.obs with hall := s.obs.hall ++
        [(-exchangeOffset t1 t2 t3 t4, (exchangeTrip t1 t2 t3 t4).toNat, e.toNat)] } } : State) →
      (s.obs.hall.length < 7 → exec (.hallTimeRespReceive t1 t2 t3 t4 e) s = .next s1) ∧
      (7 ≤ s.obs.hall.length → exec (.hallTimeRespReceive t1 t2 t3 t4 e) s = .next s1.hallDone)) ∧
    (s.obs.hall ≠ [] → ∃ b ∈ s.obs.hall, (∀ x ∈ s.obs.hall, b.2.1 ≤ x.2.1) ∧ s.hallDone =
      ({ s with obs := { s.obs with hall := [], hallFrom := none } } : State).hallSet b.1 (b.2.1 / 2 + b.2.2 + 2)) ∧
    (∀ t0, s.obs.hallFrom = some t0 → ∃ t : State, exec .hallMeasureTimeout s = .next t ∧ t.obs.hall = [] ∧ t.obs.hallFrom = none ∧
      t.objs = ((s.advanceTo (t0 + 10000000)).hallDone).objs)

/-- FREEZE and RELEASE of a die that runs or is frozen act as R550 and R551 say and are confirmed when every unit has; a capture needs a
frozen die and ends with the dump and its record. The watchdog notes what stalls and detects what has stalled for its window; the graph
that follows holds at most 4,096 nodes (R546 to R553).
Completes: freeze, release, freezeComplete, releaseComplete, capture, captureComplete, progressWatchExamine, waitGraphComplete. -/
def Obligations.TheDieIsFrozenDumpedAndWatched : Prop :=
  ∀ (s : State),
    (∀ (acc : Access) r x s1 (refused : Abort → Host.Outcome State Fault Refusal), s.MayWrite acc Obj.freezeCtrl r →
      s1 = s.setObj Obj.freezeCtrl x →
      (∀ a, refused a = .next (s.abortRequest acc 2 (Obj.freezeCtrl / 256) (Obj.freezeCtrl % 256) 0 a)) →
      (x = s.value acc Obj.freezeCtrl r (s.freezeWord 1) → fget x 0 4 = 1 →
        (s.frozen = true → exec (.freeze acc) s = .next (s1.written acc Obj.freezeCtrl r.ty)) ∧
        (s.frozen = false → exec (.freeze acc) s = .next ((s1.freezeBegin 1 1).written acc Obj.freezeCtrl r.ty))) ∧
      (x = s.value acc Obj.freezeCtrl r (s.freezeWord 2) → fget x 0 4 = 2 →
        (s.obs.capturing = true → exec (.release acc) s = refused .inUse) ∧
        (s.obs.capturing = false →
          (s.frozen = true → exec (.release acc) s = .next (s1.releaseBegin.written acc Obj.freezeCtrl r.ty)) ∧
          (s.frozen = false → exec (.release acc) s = .next (s1.written acc Obj.freezeCtrl r.ty))))) ∧
    (∀ (acc : Access), s.safe = true → (∀ r, ¬ s.MayWrite acc Obj.freezeCtrl r) ∧
      (s.serves acc = true → s.check acc (Obj.freezeCtrl / 256) (Obj.freezeCtrl % 256) .write
        (typeLen (s.typeOf (Obj.freezeCtrl / 256) (Obj.freezeCtrl % 256))) = .error .badState →
        exec (.release acc) s = .next (s.abortRequest acc 2 (Obj.freezeCtrl / 256) (Obj.freezeCtrl % 256) 0 .badState) ∧
        exec (.freeze acc) s = .next (s.abortRequest acc 2 (Obj.freezeCtrl / 256) (Obj.freezeCtrl % 256) 0 .badState))) ∧
    (∀ st cause, s.frozen = false → st < 8 → (s.freezeBegin st cause).rd .freezeState = st) ∧
    (s.rd .freezeState = 1 → exec .freezeComplete s = .next (s.wr .freezeState 2)) ∧
    (s.rd .freezeState = 3 → exec .releaseComplete s = .next ((s.wr .freezeState 0).wr .freezeCause 0)) ∧
    (s.rd .freezeState ≠ 1 → exec .freezeComplete s = .next s) ∧
    (s.rd .freezeState ≠ 3 → exec .releaseComplete s = .next s) ∧
    (∀ (acc : Access) r, s.MayWrite acc Obj.dumpCtrl r → s.value acc Obj.dumpCtrl r 1 = 1 →
      (s.rd .freezeState = 2 ∨ s.rd .freezeState = 4 → exec (.capture acc) s =
        .next (({ s with obs := { s.obs with capturing := true } } : State).written acc Obj.dumpCtrl r.ty)) ∧
      (s.rd .freezeState ≠ 2 → s.rd .freezeState ≠ 4 → exec (.capture acc) s =
        .next (s.abortRequest acc 2 (Obj.dumpCtrl / 256) (Obj.dumpCtrl % 256) 0 .badState))) ∧
    (s.obs.capturing = true → s.firmwareRuns = true → exec .captureComplete s =
      .next (({ s.setDom Obj.dump s.dumpBytes with obs := { s.obs with capturing := false } } : State).recordEvent 0x0050
        (s.rd .freezeCause * 2 ^ 28 + s.heldLatches % 2 ^ 16) (s.obs.freezeStart % 2 ^ 32) false)) ∧
    (∀ now due s1, s.running = true → s.timersStopped = false → now = s.stalledNow.map s.stallOf →
      (∀ x : Stall, due x = (!x.counted && decide (s.watchWindow x.cls ≤ s.txnNow - x.since))) →
      s1 = ({ s with obs := { s.obs with stalls := now.map (fun x => if due x then { x with counted := true } else x) } } : State) →
      (now.find? due = none → exec .progressWatchExamine s = .next s1) ∧
      (∀ x, now.find? due = some x → exec .progressWatchExamine s = .next (s1.detect x))) ∧
    (s.obs.graphFrom ≠ none → s.firmwareRuns = true → ∃ t : State, exec .waitGraphComplete s = .next t ∧
      t.dom? Obj.waitGraph = some (s.graphBytes s.obs.graphSeeds) ∧ t.obs.graphFrom = none ∧ t.obs.graphSeeds = [] ∧ t.objs = s.objs) ∧
    (∀ seeds : List WaitNode, (s.graphNodes graphMost (seeds.take graphMost) (seeds.take graphMost)).1.length ≤ 4096)
end

