-- ==== Sys2Proof/Laws/Catalogue.lean ====
section
/-! SUPPORT. Objects whose default is zero, read from the catalogue's ranges rather than key by key. -/

namespace Sys2Proof.Machine

/-- No row with a default other than zero meets these indices and subindices, and no object there has a default of its own. -/
def plainRange (ilo ihi slo shi : Nat) : Bool :=
  (decide (ihi < 0x1680) || decide (0x16F7 < ilo) || decide (0x20 < slo)) && (decide (ihi < 0x2210) || decide (0x2213 < ilo)) &&
    (decide (ihi < 0x2430) || decide (0x2430 < ilo)) &&
    catalogue.all (fun r => r.dflt == 0 || decide (r.ihi < ilo) || decide (ihi < r.ilo) || decide (r.shi < slo) || decide (shi < r.slo))

/-- An object in such a range has the default zero. -/
theorem Obj.dflt_of_plainRange {ilo ihi slo shi k : Nat} (h : plainRange ilo ihi slo shi = true) (hi : ilo ≤ k / 256)
    (hj : k / 256 ≤ ihi) (si : slo ≤ k % 256) (sj : k % 256 ≤ shi) : Obj.dflt k = 0 := by
  simp only [plainRange, Bool.and_eq_true, Bool.or_eq_true, decide_eq_true_eq, List.all_eq_true, beq_iff_eq] at h
  obtain ⟨⟨⟨h1, h2⟩, h3⟩, h4⟩ := h
  unfold Obj.dflt
  simp only
  rw [if_neg (by omega), if_neg (by omega), if_neg (by omega), if_neg (by omega), if_neg (by omega)]
  cases hr : rowOf k with
  | none => rfl
  | some r =>
    have hm := List.mem_of_find?_eq_some hr
    have hp := List.find?_some hr
    simp only [ObjRow.has, Bool.and_eq_true, decide_eq_true_eq] at hp
    have := h4 r hm
    have hz : r.dflt = 0 := by omega
    simp [hz]

/-- Every row that meets these indices and subindices has the default `d`, and one row holds them all. -/
def flatRange (ilo ihi slo shi d : Nat) : Bool :=
  (decide (ihi < 0x1680) || decide (0x16F7 < ilo) || decide (0x20 < slo)) && (decide (ihi < 0x2210) || decide (0x2213 < ilo)) &&
    (decide (ihi < 0x2430) || decide (0x2430 < ilo)) &&
    catalogue.all (fun r => r.dflt == d || decide (r.ihi < ilo) || decide (ihi < r.ilo) || decide (r.shi < slo) || decide (shi < r.slo)) &&
    catalogue.any (fun r => decide (r.ilo ≤ ilo) && decide (ihi ≤ r.ihi) && decide (r.slo ≤ slo) && decide (shi ≤ r.shi))

/-- An object in such a range has that default. -/
theorem Obj.dflt_of_flatRange {ilo ihi slo shi d k : Nat} (h : flatRange ilo ihi slo shi d = true) (hi : ilo ≤ k / 256)
    (hj : k / 256 ≤ ihi) (si : slo ≤ k % 256) (sj : k % 256 ≤ shi) : Obj.dflt k = BitVec.ofNat 64 d := by
  simp only [flatRange, Bool.and_eq_true, Bool.or_eq_true, decide_eq_true_eq, List.all_eq_true, List.any_eq_true, beq_iff_eq] at h
  obtain ⟨⟨⟨⟨h1, h2⟩, h3⟩, h4⟩, q, hq, hc⟩ := h
  unfold Obj.dflt
  simp only
  rw [if_neg (by omega), if_neg (by omega), if_neg (by omega), if_neg (by omega), if_neg (by omega)]
  cases hr : rowOf k with
  | none =>
    have hn := List.find?_eq_none.mp hr q hq
    simp only [ObjRow.has, Bool.and_eq_true, decide_eq_true_eq] at hn
    omega
  | some r =>
    have hm := List.mem_of_find?_eq_some hr
    have hp := List.find?_some hr
    simp only [ObjRow.has, Bool.and_eq_true, decide_eq_true_eq] at hp
    have := h4 r hm
    have hz : r.dflt = d := by omega
    simp [hz]

/-- An object that no entry of the store names holds its default. -/
theorem State.obj_of_unlisted {s : State} {k : Nat} (h : ∀ p ∈ s.objs, p.1 ≠ k) : s.obj k = Obj.dflt k := by
  unfold State.obj
  generalize s.objs = t at h
  induction t with
  | nil => rfl
  | cons p t ih =>
    simp only [Tbl.get]
    rw [if_neg (h p (by simp)), ih (fun q hq => h q (by simp [hq]))]

/-- The channels of core ports, gates and DMA engines are not valid by default. -/
theorem Obj.dflt_chan {k : Nat} (h : (0x168041 ≤ k ∧ k < 0x168041 + 256 * 0x78 ∧ 0x41 ≤ k % 256 ∧ k % 256 ≤ 0x80) ∨
    (0x162000 ≤ k ∧ k < 0x163000 ∧ 1 ≤ k % 256 ∧ k % 256 ≤ 0x40) ∨ (0x163000 ≤ k ∧ k < 0x163400 ∧ 1 ≤ k % 256 ∧ k % 256 ≤ 0x40)) :
    Obj.dflt k = 0 := by
  rcases h with h | h | h
  · exact Obj.dflt_of_plainRange (ilo := 0x1680) (ihi := 0x16F7) (slo := 0x41) (shi := 0x80) (by decide +kernel)
      (by omega) (by omega) (by omega) (by omega)
  · exact Obj.dflt_of_plainRange (ilo := 0x1620) (ihi := 0x162F) (slo := 1) (shi := 0x40) (by decide +kernel)
      (by omega) (by omega) (by omega) (by omega)
  · exact Obj.dflt_of_plainRange (ilo := 0x1630) (ihi := 0x1633) (slo := 1) (shi := 0x40) (by decide +kernel)
      (by omega) (by omega) (by omega) (by omega)

/-- No DMA channel, and no collective channel, is owned by default. -/
theorem Obj.dflt_chCfg {k : Nat} (h : k < 64) : chanWardOf (Obj.dflt (Obj.chCfg k)) = none := by
  rw [Obj.dflt_of_flatRange (ilo := 0x1810) (ihi := 0x184F) (slo := 1) (shi := 1) (d := 0x00060000) (by decide +kernel)
    (by simp only [Obj.chCfg]; omega) (by simp only [Obj.chCfg]; omega) (by simp only [Obj.chCfg]; omega)
    (by simp only [Obj.chCfg]; omega)]
  decide

theorem Obj.dflt_collCfg {k : Nat} (h : k < 512) : chanWardOf (Obj.dflt (Obj.collCfg k)) = none := by
  rw [Obj.dflt_of_flatRange (ilo := 0x1C00) (ihi := 0x1DFF) (slo := 1) (shi := 1) (d := 0x00201000) (by decide +kernel)
    (by simp only [Obj.collCfg]; omega) (by simp only [Obj.collCfg]; omega) (by simp only [Obj.collCfg]; omega)
    (by simp only [Obj.collCfg]; omega)]
  decide

end Sys2Proof.Machine
end

