-- ==== Sys2Proof/Laws/State.lean ====
section
/-! SUPPORT. What each named update of the state leaves as it was, field by field. -/

namespace Sys2Proof.Machine

@[simp] theorem State.setObj_cfg (s : State) (k : Nat) (v : Val) : (s.setObj k v).cfg = s.cfg := rfl
@[simp] theorem State.setObj_pending (s : State) (k : Nat) (v : Val) : (s.setObj k v).pending = s.pending := rfl
@[simp] theorem State.setObj_now (s : State) (k : Nat) (v : Val) : (s.setObj k v).now = s.now := rfl
@[simp] theorem State.setObj_stoppedFor (s : State) (k : Nat) (v : Val) : (s.setObj k v).stoppedFor = s.stoppedFor := rfl
@[simp] theorem State.setObj_frozenFor (s : State) (k : Nat) (v : Val) : (s.setObj k v).frozenFor = s.frozenFor := rfl
@[simp] theorem State.setObj_drawn (s : State) (k : Nat) (v : Val) : (s.setObj k v).drawn = s.drawn := rfl
@[simp] theorem State.setObj_out (s : State) (k : Nat) (v : Val) : (s.setObj k v).out = s.out := rfl
@[simp] theorem State.setObj_doms (s : State) (k : Nat) (v : Val) : (s.setObj k v).doms = s.doms := rfl
@[simp] theorem State.setObj_pin (s : State) (k : Nat) (v : Val) : (s.setObj k v).pin = s.pin := rfl
@[simp] theorem State.setObj_pwr (s : State) (k : Nat) (v : Val) : (s.setObj k v).pwr = s.pwr := rfl
@[simp] theorem State.setObj_boot (s : State) (k : Nat) (v : Val) : (s.setObj k v).boot = s.boot := rfl
@[simp] theorem State.setObj_flt (s : State) (k : Nat) (v : Val) : (s.setObj k v).flt = s.flt := rfl
@[simp] theorem State.setObj_wards (s : State) (k : Nat) (v : Val) : (s.setObj k v).wards = s.wards := rfl
@[simp] theorem State.setObj_dict (s : State) (k : Nat) (v : Val) : (s.setObj k v).dict = s.dict := rfl
@[simp] theorem State.setObj_sp (s : State) (k : Nat) (v : Val) : (s.setObj k v).sp = s.sp := rfl
@[simp] theorem State.setObj_obs (s : State) (k : Nat) (v : Val) : (s.setObj k v).obs = s.obs := rfl
@[simp] theorem State.setObj_ctl (s : State) (k : Nat) (v : Val) : (s.setObj k v).ctl = s.ctl := rfl
@[simp] theorem State.setObj_ten (s : State) (k : Nat) (v : Val) : (s.setObj k v).ten = s.ten := rfl
@[simp] theorem State.setObj_txn (s : State) (k : Nat) (v : Val) : (s.setObj k v).txn = s.txn := rfl
@[simp] theorem State.setObj_brg (s : State) (k : Nat) (v : Val) : (s.setObj k v).brg = s.brg := rfl
@[simp] theorem State.setObj_dma (s : State) (k : Nat) (v : Val) : (s.setObj k v).dma = s.dma := rfl
@[simp] theorem State.setObj_gat (s : State) (k : Nat) (v : Val) : (s.setObj k v).gat = s.gat := rfl
@[simp] theorem State.setObj_col (s : State) (k : Nat) (v : Val) : (s.setObj k v).col = s.col := rfl

@[simp] theorem State.wr_cfg (s : State) (f : Fld) (x : Nat) : (s.wr f x).cfg = s.cfg := rfl
@[simp] theorem State.wr_pending (s : State) (f : Fld) (x : Nat) : (s.wr f x).pending = s.pending := rfl
@[simp] theorem State.wr_now (s : State) (f : Fld) (x : Nat) : (s.wr f x).now = s.now := rfl
@[simp] theorem State.wr_stoppedFor (s : State) (f : Fld) (x : Nat) : (s.wr f x).stoppedFor = s.stoppedFor := rfl
@[simp] theorem State.wr_frozenFor (s : State) (f : Fld) (x : Nat) : (s.wr f x).frozenFor = s.frozenFor := rfl
@[simp] theorem State.wr_drawn (s : State) (f : Fld) (x : Nat) : (s.wr f x).drawn = s.drawn := rfl
@[simp] theorem State.wr_out (s : State) (f : Fld) (x : Nat) : (s.wr f x).out = s.out := rfl
@[simp] theorem State.wr_doms (s : State) (f : Fld) (x : Nat) : (s.wr f x).doms = s.doms := rfl
@[simp] theorem State.wr_pin (s : State) (f : Fld) (x : Nat) : (s.wr f x).pin = s.pin := rfl
@[simp] theorem State.wr_pwr (s : State) (f : Fld) (x : Nat) : (s.wr f x).pwr = s.pwr := rfl
@[simp] theorem State.wr_boot (s : State) (f : Fld) (x : Nat) : (s.wr f x).boot = s.boot := rfl
@[simp] theorem State.wr_flt (s : State) (f : Fld) (x : Nat) : (s.wr f x).flt = s.flt := rfl
@[simp] theorem State.wr_wards (s : State) (f : Fld) (x : Nat) : (s.wr f x).wards = s.wards := rfl
@[simp] theorem State.wr_dict (s : State) (f : Fld) (x : Nat) : (s.wr f x).dict = s.dict := rfl
@[simp] theorem State.wr_sp (s : State) (f : Fld) (x : Nat) : (s.wr f x).sp = s.sp := rfl
@[simp] theorem State.wr_obs (s : State) (f : Fld) (x : Nat) : (s.wr f x).obs = s.obs := rfl
@[simp] theorem State.wr_ctl (s : State) (f : Fld) (x : Nat) : (s.wr f x).ctl = s.ctl := rfl
@[simp] theorem State.wr_ten (s : State) (f : Fld) (x : Nat) : (s.wr f x).ten = s.ten := rfl
@[simp] theorem State.wr_txn (s : State) (f : Fld) (x : Nat) : (s.wr f x).txn = s.txn := rfl
@[simp] theorem State.wr_brg (s : State) (f : Fld) (x : Nat) : (s.wr f x).brg = s.brg := rfl
@[simp] theorem State.wr_dma (s : State) (f : Fld) (x : Nat) : (s.wr f x).dma = s.dma := rfl
@[simp] theorem State.wr_gat (s : State) (f : Fld) (x : Nat) : (s.wr f x).gat = s.gat := rfl
@[simp] theorem State.wr_col (s : State) (f : Fld) (x : Nat) : (s.wr f x).col = s.col := rfl

@[simp] theorem State.bump_cfg (s : State) (f : Fld) (x : Nat) : (s.bump f x).cfg = s.cfg := rfl
@[simp] theorem State.bump_pending (s : State) (f : Fld) (x : Nat) : (s.bump f x).pending = s.pending := rfl
@[simp] theorem State.bump_now (s : State) (f : Fld) (x : Nat) : (s.bump f x).now = s.now := rfl
@[simp] theorem State.bump_stoppedFor (s : State) (f : Fld) (x : Nat) : (s.bump f x).stoppedFor = s.stoppedFor := rfl
@[simp] theorem State.bump_frozenFor (s : State) (f : Fld) (x : Nat) : (s.bump f x).frozenFor = s.frozenFor := rfl
@[simp] theorem State.bump_drawn (s : State) (f : Fld) (x : Nat) : (s.bump f x).drawn = s.drawn := rfl
@[simp] theorem State.bump_out (s : State) (f : Fld) (x : Nat) : (s.bump f x).out = s.out := rfl
@[simp] theorem State.bump_doms (s : State) (f : Fld) (x : Nat) : (s.bump f x).doms = s.doms := rfl
@[simp] theorem State.bump_pin (s : State) (f : Fld) (x : Nat) : (s.bump f x).pin = s.pin := rfl
@[simp] theorem State.bump_pwr (s : State) (f : Fld) (x : Nat) : (s.bump f x).pwr = s.pwr := rfl
@[simp] theorem State.bump_boot (s : State) (f : Fld) (x : Nat) : (s.bump f x).boot = s.boot := rfl
@[simp] theorem State.bump_flt (s : State) (f : Fld) (x : Nat) : (s.bump f x).flt = s.flt := rfl
@[simp] theorem State.bump_wards (s : State) (f : Fld) (x : Nat) : (s.bump f x).wards = s.wards := rfl
@[simp] theorem State.bump_dict (s : State) (f : Fld) (x : Nat) : (s.bump f x).dict = s.dict := rfl
@[simp] theorem State.bump_sp (s : State) (f : Fld) (x : Nat) : (s.bump f x).sp = s.sp := rfl
@[simp] theorem State.bump_obs (s : State) (f : Fld) (x : Nat) : (s.bump f x).obs = s.obs := rfl
@[simp] theorem State.bump_ctl (s : State) (f : Fld) (x : Nat) : (s.bump f x).ctl = s.ctl := rfl
@[simp] theorem State.bump_ten (s : State) (f : Fld) (x : Nat) : (s.bump f x).ten = s.ten := rfl
@[simp] theorem State.bump_txn (s : State) (f : Fld) (x : Nat) : (s.bump f x).txn = s.txn := rfl
@[simp] theorem State.bump_brg (s : State) (f : Fld) (x : Nat) : (s.bump f x).brg = s.brg := rfl
@[simp] theorem State.bump_dma (s : State) (f : Fld) (x : Nat) : (s.bump f x).dma = s.dma := rfl
@[simp] theorem State.bump_gat (s : State) (f : Fld) (x : Nat) : (s.bump f x).gat = s.gat := rfl
@[simp] theorem State.bump_col (s : State) (f : Fld) (x : Nat) : (s.bump f x).col = s.col := rfl

@[simp] theorem State.bumpWrap_cfg (s : State) (f : Fld) (x : Nat) : (s.bumpWrap f x).cfg = s.cfg := rfl
@[simp] theorem State.bumpWrap_pending (s : State) (f : Fld) (x : Nat) : (s.bumpWrap f x).pending = s.pending := rfl
@[simp] theorem State.bumpWrap_now (s : State) (f : Fld) (x : Nat) : (s.bumpWrap f x).now = s.now := rfl
@[simp] theorem State.bumpWrap_stoppedFor (s : State) (f : Fld) (x : Nat) : (s.bumpWrap f x).stoppedFor = s.stoppedFor := rfl
@[simp] theorem State.bumpWrap_frozenFor (s : State) (f : Fld) (x : Nat) : (s.bumpWrap f x).frozenFor = s.frozenFor := rfl
@[simp] theorem State.bumpWrap_drawn (s : State) (f : Fld) (x : Nat) : (s.bumpWrap f x).drawn = s.drawn := rfl
@[simp] theorem State.bumpWrap_out (s : State) (f : Fld) (x : Nat) : (s.bumpWrap f x).out = s.out := rfl
@[simp] theorem State.bumpWrap_doms (s : State) (f : Fld) (x : Nat) : (s.bumpWrap f x).doms = s.doms := rfl
@[simp] theorem State.bumpWrap_pin (s : State) (f : Fld) (x : Nat) : (s.bumpWrap f x).pin = s.pin := rfl
@[simp] theorem State.bumpWrap_pwr (s : State) (f : Fld) (x : Nat) : (s.bumpWrap f x).pwr = s.pwr := rfl
@[simp] theorem State.bumpWrap_boot (s : State) (f : Fld) (x : Nat) : (s.bumpWrap f x).boot = s.boot := rfl
@[simp] theorem State.bumpWrap_flt (s : State) (f : Fld) (x : Nat) : (s.bumpWrap f x).flt = s.flt := rfl
@[simp] theorem State.bumpWrap_wards (s : State) (f : Fld) (x : Nat) : (s.bumpWrap f x).wards = s.wards := rfl
@[simp] theorem State.bumpWrap_dict (s : State) (f : Fld) (x : Nat) : (s.bumpWrap f x).dict = s.dict := rfl
@[simp] theorem State.bumpWrap_sp (s : State) (f : Fld) (x : Nat) : (s.bumpWrap f x).sp = s.sp := rfl
@[simp] theorem State.bumpWrap_obs (s : State) (f : Fld) (x : Nat) : (s.bumpWrap f x).obs = s.obs := rfl
@[simp] theorem State.bumpWrap_ctl (s : State) (f : Fld) (x : Nat) : (s.bumpWrap f x).ctl = s.ctl := rfl
@[simp] theorem State.bumpWrap_ten (s : State) (f : Fld) (x : Nat) : (s.bumpWrap f x).ten = s.ten := rfl
@[simp] theorem State.bumpWrap_txn (s : State) (f : Fld) (x : Nat) : (s.bumpWrap f x).txn = s.txn := rfl
@[simp] theorem State.bumpWrap_brg (s : State) (f : Fld) (x : Nat) : (s.bumpWrap f x).brg = s.brg := rfl
@[simp] theorem State.bumpWrap_dma (s : State) (f : Fld) (x : Nat) : (s.bumpWrap f x).dma = s.dma := rfl
@[simp] theorem State.bumpWrap_gat (s : State) (f : Fld) (x : Nat) : (s.bumpWrap f x).gat = s.gat := rfl
@[simp] theorem State.bumpWrap_col (s : State) (f : Fld) (x : Nat) : (s.bumpWrap f x).col = s.col := rfl

@[simp] theorem State.setDom_cfg (s : State) (k : Nat) (bs : List Byte) : (s.setDom k bs).cfg = s.cfg := rfl
@[simp] theorem State.setDom_pending (s : State) (k : Nat) (bs : List Byte) : (s.setDom k bs).pending = s.pending := rfl
@[simp] theorem State.setDom_now (s : State) (k : Nat) (bs : List Byte) : (s.setDom k bs).now = s.now := rfl
@[simp] theorem State.setDom_stoppedFor (s : State) (k : Nat) (bs : List Byte) : (s.setDom k bs).stoppedFor = s.stoppedFor := rfl
@[simp] theorem State.setDom_frozenFor (s : State) (k : Nat) (bs : List Byte) : (s.setDom k bs).frozenFor = s.frozenFor := rfl
@[simp] theorem State.setDom_drawn (s : State) (k : Nat) (bs : List Byte) : (s.setDom k bs).drawn = s.drawn := rfl
@[simp] theorem State.setDom_out (s : State) (k : Nat) (bs : List Byte) : (s.setDom k bs).out = s.out := rfl
@[simp] theorem State.setDom_objs (s : State) (k : Nat) (bs : List Byte) : (s.setDom k bs).objs = s.objs := rfl
@[simp] theorem State.setDom_pin (s : State) (k : Nat) (bs : List Byte) : (s.setDom k bs).pin = s.pin := rfl
@[simp] theorem State.setDom_pwr (s : State) (k : Nat) (bs : List Byte) : (s.setDom k bs).pwr = s.pwr := rfl
@[simp] theorem State.setDom_boot (s : State) (k : Nat) (bs : List Byte) : (s.setDom k bs).boot = s.boot := rfl
@[simp] theorem State.setDom_flt (s : State) (k : Nat) (bs : List Byte) : (s.setDom k bs).flt = s.flt := rfl
@[simp] theorem State.setDom_wards (s : State) (k : Nat) (bs : List Byte) : (s.setDom k bs).wards = s.wards := rfl
@[simp] theorem State.setDom_dict (s : State) (k : Nat) (bs : List Byte) : (s.setDom k bs).dict = s.dict := rfl
@[simp] theorem State.setDom_sp (s : State) (k : Nat) (bs : List Byte) : (s.setDom k bs).sp = s.sp := rfl
@[simp] theorem State.setDom_obs (s : State) (k : Nat) (bs : List Byte) : (s.setDom k bs).obs = s.obs := rfl
@[simp] theorem State.setDom_ctl (s : State) (k : Nat) (bs : List Byte) : (s.setDom k bs).ctl = s.ctl := rfl
@[simp] theorem State.setDom_ten (s : State) (k : Nat) (bs : List Byte) : (s.setDom k bs).ten = s.ten := rfl
@[simp] theorem State.setDom_txn (s : State) (k : Nat) (bs : List Byte) : (s.setDom k bs).txn = s.txn := rfl
@[simp] theorem State.setDom_brg (s : State) (k : Nat) (bs : List Byte) : (s.setDom k bs).brg = s.brg := rfl
@[simp] theorem State.setDom_dma (s : State) (k : Nat) (bs : List Byte) : (s.setDom k bs).dma = s.dma := rfl
@[simp] theorem State.setDom_gat (s : State) (k : Nat) (bs : List Byte) : (s.setDom k bs).gat = s.gat := rfl
@[simp] theorem State.setDom_col (s : State) (k : Nat) (bs : List Byte) : (s.setDom k bs).col = s.col := rfl

@[simp] theorem State.clearDom_cfg (s : State) (k : Nat) : (s.clearDom k).cfg = s.cfg := rfl
@[simp] theorem State.clearDom_pending (s : State) (k : Nat) : (s.clearDom k).pending = s.pending := rfl
@[simp] theorem State.clearDom_now (s : State) (k : Nat) : (s.clearDom k).now = s.now := rfl
@[simp] theorem State.clearDom_stoppedFor (s : State) (k : Nat) : (s.clearDom k).stoppedFor = s.stoppedFor := rfl
@[simp] theorem State.clearDom_frozenFor (s : State) (k : Nat) : (s.clearDom k).frozenFor = s.frozenFor := rfl
@[simp] theorem State.clearDom_drawn (s : State) (k : Nat) : (s.clearDom k).drawn = s.drawn := rfl
@[simp] theorem State.clearDom_out (s : State) (k : Nat) : (s.clearDom k).out = s.out := rfl
@[simp] theorem State.clearDom_objs (s : State) (k : Nat) : (s.clearDom k).objs = s.objs := rfl
@[simp] theorem State.clearDom_pin (s : State) (k : Nat) : (s.clearDom k).pin = s.pin := rfl
@[simp] theorem State.clearDom_pwr (s : State) (k : Nat) : (s.clearDom k).pwr = s.pwr := rfl
@[simp] theorem State.clearDom_boot (s : State) (k : Nat) : (s.clearDom k).boot = s.boot := rfl
@[simp] theorem State.clearDom_flt (s : State) (k : Nat) : (s.clearDom k).flt = s.flt := rfl
@[simp] theorem State.clearDom_wards (s : State) (k : Nat) : (s.clearDom k).wards = s.wards := rfl
@[simp] theorem State.clearDom_dict (s : State) (k : Nat) : (s.clearDom k).dict = s.dict := rfl
@[simp] theorem State.clearDom_sp (s : State) (k : Nat) : (s.clearDom k).sp = s.sp := rfl
@[simp] theorem State.clearDom_obs (s : State) (k : Nat) : (s.clearDom k).obs = s.obs := rfl
@[simp] theorem State.clearDom_ctl (s : State) (k : Nat) : (s.clearDom k).ctl = s.ctl := rfl
@[simp] theorem State.clearDom_ten (s : State) (k : Nat) : (s.clearDom k).ten = s.ten := rfl
@[simp] theorem State.clearDom_txn (s : State) (k : Nat) : (s.clearDom k).txn = s.txn := rfl
@[simp] theorem State.clearDom_brg (s : State) (k : Nat) : (s.clearDom k).brg = s.brg := rfl
@[simp] theorem State.clearDom_dma (s : State) (k : Nat) : (s.clearDom k).dma = s.dma := rfl
@[simp] theorem State.clearDom_gat (s : State) (k : Nat) : (s.clearDom k).gat = s.gat := rfl
@[simp] theorem State.clearDom_col (s : State) (k : Nat) : (s.clearDom k).col = s.col := rfl

@[simp] theorem State.draw_cfg (s : State) : (s.draw).cfg = s.cfg := rfl
@[simp] theorem State.draw_pending (s : State) : (s.draw).pending = s.pending := rfl
@[simp] theorem State.draw_now (s : State) : (s.draw).now = s.now := rfl
@[simp] theorem State.draw_stoppedFor (s : State) : (s.draw).stoppedFor = s.stoppedFor := rfl
@[simp] theorem State.draw_frozenFor (s : State) : (s.draw).frozenFor = s.frozenFor := rfl
@[simp] theorem State.draw_out (s : State) : (s.draw).out = s.out := rfl
@[simp] theorem State.draw_objs (s : State) : (s.draw).objs = s.objs := rfl
@[simp] theorem State.draw_doms (s : State) : (s.draw).doms = s.doms := rfl
@[simp] theorem State.draw_pin (s : State) : (s.draw).pin = s.pin := rfl
@[simp] theorem State.draw_pwr (s : State) : (s.draw).pwr = s.pwr := rfl
@[simp] theorem State.draw_boot (s : State) : (s.draw).boot = s.boot := rfl
@[simp] theorem State.draw_flt (s : State) : (s.draw).flt = s.flt := rfl
@[simp] theorem State.draw_wards (s : State) : (s.draw).wards = s.wards := rfl
@[simp] theorem State.draw_dict (s : State) : (s.draw).dict = s.dict := rfl
@[simp] theorem State.draw_sp (s : State) : (s.draw).sp = s.sp := rfl
@[simp] theorem State.draw_obs (s : State) : (s.draw).obs = s.obs := rfl
@[simp] theorem State.draw_ctl (s : State) : (s.draw).ctl = s.ctl := rfl
@[simp] theorem State.draw_ten (s : State) : (s.draw).ten = s.ten := rfl
@[simp] theorem State.draw_txn (s : State) : (s.draw).txn = s.txn := rfl
@[simp] theorem State.draw_brg (s : State) : (s.draw).brg = s.brg := rfl
@[simp] theorem State.draw_dma (s : State) : (s.draw).dma = s.dma := rfl
@[simp] theorem State.draw_gat (s : State) : (s.draw).gat = s.gat := rfl
@[simp] theorem State.draw_col (s : State) : (s.draw).col = s.col := rfl

@[simp] theorem State.emit_cfg (s : State) (e : Emission) : (s.emit e).cfg = s.cfg := rfl
@[simp] theorem State.emit_pending (s : State) (e : Emission) : (s.emit e).pending = s.pending := rfl
@[simp] theorem State.emit_now (s : State) (e : Emission) : (s.emit e).now = s.now := rfl
@[simp] theorem State.emit_stoppedFor (s : State) (e : Emission) : (s.emit e).stoppedFor = s.stoppedFor := rfl
@[simp] theorem State.emit_frozenFor (s : State) (e : Emission) : (s.emit e).frozenFor = s.frozenFor := rfl
@[simp] theorem State.emit_drawn (s : State) (e : Emission) : (s.emit e).drawn = s.drawn := rfl
@[simp] theorem State.emit_objs (s : State) (e : Emission) : (s.emit e).objs = s.objs := rfl
@[simp] theorem State.emit_doms (s : State) (e : Emission) : (s.emit e).doms = s.doms := rfl
@[simp] theorem State.emit_pin (s : State) (e : Emission) : (s.emit e).pin = s.pin := rfl
@[simp] theorem State.emit_pwr (s : State) (e : Emission) : (s.emit e).pwr = s.pwr := rfl
@[simp] theorem State.emit_boot (s : State) (e : Emission) : (s.emit e).boot = s.boot := rfl
@[simp] theorem State.emit_flt (s : State) (e : Emission) : (s.emit e).flt = s.flt := rfl
@[simp] theorem State.emit_wards (s : State) (e : Emission) : (s.emit e).wards = s.wards := rfl
@[simp] theorem State.emit_dict (s : State) (e : Emission) : (s.emit e).dict = s.dict := rfl
@[simp] theorem State.emit_sp (s : State) (e : Emission) : (s.emit e).sp = s.sp := rfl
@[simp] theorem State.emit_obs (s : State) (e : Emission) : (s.emit e).obs = s.obs := rfl
@[simp] theorem State.emit_ctl (s : State) (e : Emission) : (s.emit e).ctl = s.ctl := rfl
@[simp] theorem State.emit_ten (s : State) (e : Emission) : (s.emit e).ten = s.ten := rfl
@[simp] theorem State.emit_txn (s : State) (e : Emission) : (s.emit e).txn = s.txn := rfl
@[simp] theorem State.emit_brg (s : State) (e : Emission) : (s.emit e).brg = s.brg := rfl
@[simp] theorem State.emit_dma (s : State) (e : Emission) : (s.emit e).dma = s.dma := rfl
@[simp] theorem State.emit_gat (s : State) (e : Emission) : (s.emit e).gat = s.gat := rfl
@[simp] theorem State.emit_col (s : State) (e : Emission) : (s.emit e).col = s.col := rfl

@[simp] theorem State.unspoilt_cfg (s : State) (k : Nat) : (s.unspoilt k).cfg = s.cfg := rfl
@[simp] theorem State.unspoilt_pending (s : State) (k : Nat) : (s.unspoilt k).pending = s.pending := rfl
@[simp] theorem State.unspoilt_now (s : State) (k : Nat) : (s.unspoilt k).now = s.now := rfl
@[simp] theorem State.unspoilt_stoppedFor (s : State) (k : Nat) : (s.unspoilt k).stoppedFor = s.stoppedFor := rfl
@[simp] theorem State.unspoilt_frozenFor (s : State) (k : Nat) : (s.unspoilt k).frozenFor = s.frozenFor := rfl
@[simp] theorem State.unspoilt_drawn (s : State) (k : Nat) : (s.unspoilt k).drawn = s.drawn := rfl
@[simp] theorem State.unspoilt_out (s : State) (k : Nat) : (s.unspoilt k).out = s.out := rfl
@[simp] theorem State.unspoilt_objs (s : State) (k : Nat) : (s.unspoilt k).objs = s.objs := rfl
@[simp] theorem State.unspoilt_doms (s : State) (k : Nat) : (s.unspoilt k).doms = s.doms := rfl
@[simp] theorem State.unspoilt_pin (s : State) (k : Nat) : (s.unspoilt k).pin = s.pin := rfl
@[simp] theorem State.unspoilt_pwr (s : State) (k : Nat) : (s.unspoilt k).pwr = s.pwr := rfl
@[simp] theorem State.unspoilt_boot (s : State) (k : Nat) : (s.unspoilt k).boot = s.boot := rfl
@[simp] theorem State.unspoilt_flt (s : State) (k : Nat) : (s.unspoilt k).flt = s.flt := rfl
@[simp] theorem State.unspoilt_wards (s : State) (k : Nat) : (s.unspoilt k).wards = s.wards := rfl
@[simp] theorem State.unspoilt_sp (s : State) (k : Nat) : (s.unspoilt k).sp = s.sp := rfl
@[simp] theorem State.unspoilt_obs (s : State) (k : Nat) : (s.unspoilt k).obs = s.obs := rfl
@[simp] theorem State.unspoilt_ctl (s : State) (k : Nat) : (s.unspoilt k).ctl = s.ctl := rfl
@[simp] theorem State.unspoilt_ten (s : State) (k : Nat) : (s.unspoilt k).ten = s.ten := rfl
@[simp] theorem State.unspoilt_txn (s : State) (k : Nat) : (s.unspoilt k).txn = s.txn := rfl
@[simp] theorem State.unspoilt_brg (s : State) (k : Nat) : (s.unspoilt k).brg = s.brg := rfl
@[simp] theorem State.unspoilt_dma (s : State) (k : Nat) : (s.unspoilt k).dma = s.dma := rfl
@[simp] theorem State.unspoilt_gat (s : State) (k : Nat) : (s.unspoilt k).gat = s.gat := rfl
@[simp] theorem State.unspoilt_col (s : State) (k : Nat) : (s.unspoilt k).col = s.col := rfl

@[simp] theorem State.setMailbox_cfg (s : State) (p : Nat) (m : Mailbox) : (s.setMailbox p m).cfg = s.cfg := rfl
@[simp] theorem State.setMailbox_pending (s : State) (p : Nat) (m : Mailbox) : (s.setMailbox p m).pending = s.pending := rfl
@[simp] theorem State.setMailbox_now (s : State) (p : Nat) (m : Mailbox) : (s.setMailbox p m).now = s.now := rfl
@[simp] theorem State.setMailbox_stoppedFor (s : State) (p : Nat) (m : Mailbox) : (s.setMailbox p m).stoppedFor = s.stoppedFor := rfl
@[simp] theorem State.setMailbox_frozenFor (s : State) (p : Nat) (m : Mailbox) : (s.setMailbox p m).frozenFor = s.frozenFor := rfl
@[simp] theorem State.setMailbox_drawn (s : State) (p : Nat) (m : Mailbox) : (s.setMailbox p m).drawn = s.drawn := rfl
@[simp] theorem State.setMailbox_out (s : State) (p : Nat) (m : Mailbox) : (s.setMailbox p m).out = s.out := rfl
@[simp] theorem State.setMailbox_objs (s : State) (p : Nat) (m : Mailbox) : (s.setMailbox p m).objs = s.objs := rfl
@[simp] theorem State.setMailbox_doms (s : State) (p : Nat) (m : Mailbox) : (s.setMailbox p m).doms = s.doms := rfl
@[simp] theorem State.setMailbox_pin (s : State) (p : Nat) (m : Mailbox) : (s.setMailbox p m).pin = s.pin := rfl
@[simp] theorem State.setMailbox_pwr (s : State) (p : Nat) (m : Mailbox) : (s.setMailbox p m).pwr = s.pwr := rfl
@[simp] theorem State.setMailbox_boot (s : State) (p : Nat) (m : Mailbox) : (s.setMailbox p m).boot = s.boot := rfl
@[simp] theorem State.setMailbox_flt (s : State) (p : Nat) (m : Mailbox) : (s.setMailbox p m).flt = s.flt := rfl
@[simp] theorem State.setMailbox_wards (s : State) (p : Nat) (m : Mailbox) : (s.setMailbox p m).wards = s.wards := rfl
@[simp] theorem State.setMailbox_sp (s : State) (p : Nat) (m : Mailbox) : (s.setMailbox p m).sp = s.sp := rfl
@[simp] theorem State.setMailbox_obs (s : State) (p : Nat) (m : Mailbox) : (s.setMailbox p m).obs = s.obs := rfl
@[simp] theorem State.setMailbox_ctl (s : State) (p : Nat) (m : Mailbox) : (s.setMailbox p m).ctl = s.ctl := rfl
@[simp] theorem State.setMailbox_ten (s : State) (p : Nat) (m : Mailbox) : (s.setMailbox p m).ten = s.ten := rfl
@[simp] theorem State.setMailbox_txn (s : State) (p : Nat) (m : Mailbox) : (s.setMailbox p m).txn = s.txn := rfl
@[simp] theorem State.setMailbox_brg (s : State) (p : Nat) (m : Mailbox) : (s.setMailbox p m).brg = s.brg := rfl
@[simp] theorem State.setMailbox_dma (s : State) (p : Nat) (m : Mailbox) : (s.setMailbox p m).dma = s.dma := rfl
@[simp] theorem State.setMailbox_gat (s : State) (p : Nat) (m : Mailbox) : (s.setMailbox p m).gat = s.gat := rfl
@[simp] theorem State.setMailbox_col (s : State) (p : Nat) (m : Mailbox) : (s.setMailbox p m).col = s.col := rfl

@[simp] theorem State.draw_drawn (s : State) : s.draw.drawn = s.drawn + 1 := rfl
@[simp] theorem State.emit_out (s : State) (e : Emission) : (s.emit e).out = s.out ++ [e] := rfl

end Sys2Proof.Machine
end

