-- ==== Sys2Proof/Laws/Tbl.lean ====
section
/-! SUPPORT. Sparse tables: what is read after a write, and that writing keeps the canonical form. -/

namespace Sys2Proof.Machine

theorem Tbl.get_erase_ne {α : Type} (d : α) (t : Tbl α) {i j : Nat} (h : j ≠ i) :
    Tbl.get d (t.erase i) j = Tbl.get d t j := by
  induction t with
  | nil => rfl
  | cons p t ih =>
    simp only [Tbl.erase, Tbl.get]
    split
    · rename_i hp; subst hp; simp [Ne.symm h, ih]
    · simp only [Tbl.get, ih]

theorem Tbl.get_erase_same {α : Type} (d : α) (t : Tbl α) (i : Nat) : Tbl.get d (t.erase i) i = d := by
  induction t with
  | nil => rfl
  | cons p t ih =>
    simp only [Tbl.erase]
    split
    · exact ih
    · rename_i hp; simp [Tbl.get, hp, ih]

theorem Tbl.get_insert_ne {α : Type} (d : α) (t : Tbl α) {i j : Nat} (v : α) (h : j ≠ i) :
    Tbl.get d (t.insert i v) j = Tbl.get d t j := by
  induction t with
  | nil => simp [Tbl.insert, Tbl.get, Ne.symm h]
  | cons p t ih =>
    simp only [Tbl.insert]
    split
    · simp [Tbl.get, Ne.symm h]
    · simp only [Tbl.get, ih]

/-- No entry at `i`. -/
def Tbl.Free {α : Type} (t : Tbl α) (i : Nat) : Prop := ∀ p ∈ t, p.1 ≠ i

theorem Tbl.free_erase {α : Type} (t : Tbl α) (i : Nat) : (t.erase i).Free i := by
  induction t with
  | nil => intro p hp; cases hp
  | cons q t ih =>
    simp only [Tbl.erase]
    split
    · exact ih
    · rename_i hq
      intro p hp
      cases hp with
      | head => exact hq
      | tail _ h => exact ih p h

theorem Tbl.get_insert_same {α : Type} (d : α) (t : Tbl α) (i : Nat) (v : α) (h : t.Free i) :
    Tbl.get d (t.insert i v) i = v := by
  induction t with
  | nil => simp [Tbl.insert, Tbl.get]
  | cons p t ih =>
    have hp : p.1 ≠ i := h p (List.mem_cons_self ..)
    simp only [Tbl.insert]
    split
    · simp [Tbl.get]
    · simp [Tbl.get, hp, ih (fun q hq => h q (List.mem_cons_of_mem _ hq))]

@[simp] theorem Tbl.get_set_same {α : Type} [DecidableEq α] (d : α) (t : Tbl α) (i : Nat) (v : α) :
    Tbl.get d (Tbl.set d t i v) i = v := by
  unfold Tbl.set
  split
  · rename_i h; rw [Tbl.get_erase_same, h]
  · exact Tbl.get_insert_same d _ i v (Tbl.free_erase t i)

theorem Tbl.get_set_ne {α : Type} [DecidableEq α] (d d' : α) (t : Tbl α) {i j : Nat} (v : α) (h : j ≠ i) :
    Tbl.get d' (Tbl.set d t i v) j = Tbl.get d' t j := by
  unfold Tbl.set
  split
  · exact Tbl.get_erase_ne d' t h
  · rw [Tbl.get_insert_ne d' _ v h, Tbl.get_erase_ne d' t h]

theorem Tbl.wfFrom_erase {α : Type} [DecidableEq α] (dfl : Nat → α) (t : Tbl α) (i : Nat) :
    ∀ lo, Tbl.wfFrom dfl lo t = true → Tbl.wfFrom dfl lo (t.erase i) = true := by
  induction t with
  | nil => intro lo _; rfl
  | cons p t ih =>
    intro lo h
    simp only [Tbl.wfFrom, Bool.and_eq_true] at h
    simp only [Tbl.erase]
    split
    · refine ih lo ?_
      cases t with
      | nil => rfl
      | cons q t =>
        simp only [Tbl.wfFrom, Bool.and_eq_true, decide_eq_true_eq] at h ⊢
        refine ⟨⟨?_, h.2.1.2⟩, h.2.2⟩
        cases lo with
        | none => trivial
        | some l => exact decide_eq_true (Nat.lt_trans (of_decide_eq_true h.1.1) h.2.1.1)
    · simp only [Tbl.wfFrom, Bool.and_eq_true]
      exact ⟨h.1, ih _ h.2⟩

theorem Tbl.wfFrom_insert {α : Type} [DecidableEq α] (dfl : Nat → α) (t : Tbl α) (i : Nat) (v : α) (hv : v ≠ dfl i) :
    ∀ lo, (∀ l, lo = some l → l < i) → t.Free i → Tbl.wfFrom dfl lo t = true → Tbl.wfFrom dfl lo (t.insert i v) = true := by
  induction t with
  | nil =>
    intro lo hl _ _
    cases lo with
    | none => simp [Tbl.insert, Tbl.wfFrom, hv]
    | some l => simp [Tbl.insert, Tbl.wfFrom, hv, hl l rfl]
  | cons p t ih =>
    intro lo hl hf h
    simp only [Tbl.wfFrom, Bool.and_eq_true] at h
    simp only [Tbl.insert]
    split
    · rename_i hip
      simp only [Tbl.wfFrom, Bool.and_eq_true, decide_eq_true_eq]
      refine ⟨⟨?_, hv⟩, ⟨hip, of_decide_eq_true h.1.2⟩, h.2⟩
      cases lo with
      | none => trivial
      | some l => exact decide_eq_true (hl l rfl)
    · rename_i hip
      simp only [Tbl.wfFrom, Bool.and_eq_true]
      refine ⟨h.1, ih _ ?_ (fun q hq => hf q (List.mem_cons_of_mem _ hq)) h.2⟩
      intro l hpl
      cases hpl
      have := hf p (List.mem_cons_self ..)
      omega

/-- A write keeps the canonical form. -/
theorem Tbl.wf_set {α : Type} [DecidableEq α] (dfl : Nat → α) (t : Tbl α) (i : Nat) (v : α) (h : Tbl.wf dfl t = true) :
    Tbl.wf dfl (Tbl.set (dfl i) t i v) = true := by
  unfold Tbl.set
  split
  · exact Tbl.wfFrom_erase dfl t i none h
  · rename_i hv
    refine Tbl.wfFrom_insert dfl _ i v hv none ?_ (Tbl.free_erase t i) (Tbl.wfFrom_erase dfl t i none h)
    intro l hl; cases hl

/-- Dropping entries keeps the canonical form. -/
theorem Tbl.wf_drop {α : Type} [DecidableEq α] (dfl : Nat → α) (f : Nat → Bool) (t : Tbl α) :
    ∀ lo, Tbl.wfFrom dfl lo t = true → Tbl.wfFrom dfl lo (t.drop f) = true := by
  induction t with
  | nil => intro lo _; rfl
  | cons p t ih =>
    intro lo h
    simp only [Tbl.wfFrom, Bool.and_eq_true] at h
    simp only [Tbl.drop]
    split
    · refine ih lo ?_
      cases t with
      | nil => rfl
      | cons q t =>
        simp only [Tbl.wfFrom, Bool.and_eq_true, decide_eq_true_eq] at h ⊢
        refine ⟨⟨?_, h.2.1.2⟩, h.2.2⟩
        cases lo with
        | none => trivial
        | some l => exact decide_eq_true (Nat.lt_trans (of_decide_eq_true h.1.1) h.2.1.1)
    · simp only [Tbl.wfFrom, Bool.and_eq_true]
      exact ⟨h.1, ih _ h.2⟩

end Sys2Proof.Machine
end

