-- ==== Sys2Proof/Laws/Ops.lean ====
section
/-! SUPPORT. Objects and their fields: what is read after a write (R435). -/

namespace Sys2Proof.Machine

@[simp] theorem State.obj_setObj_same (s : State) (k : Nat) (v : Val) : (s.setObj k v).obj k = v :=
  Tbl.get_set_same _ _ _ _

theorem State.obj_setObj_ne (s : State) {k j : Nat} (v : Val) (h : j ≠ k) : (s.setObj k v).obj j = s.obj j :=
  Tbl.get_set_ne _ _ _ _ h

/-- A write to one object: it holds the value, and every other object what it held. -/
theorem State.obj_setObj (s : State) (k j : Nat) (v : Val) : (s.setObj k v).obj j = if j = k then v else s.obj j := by
  split
  · rename_i h; subst h; simp
  · rename_i h; exact s.obj_setObj_ne v h

/-- Any update that leaves the table of values alone leaves every object alone. -/
theorem State.obj_congr {s t : State} (h : s.objs = t.objs) (k : Nat) : s.obj k = t.obj k := by
  simp [State.obj, h]

@[simp] theorem State.obj_setDom (s : State) (k j : Nat) (bs : List Byte) : (s.setDom k bs).obj j = s.obj j := rfl
@[simp] theorem State.obj_clearDom (s : State) (k j : Nat) : (s.clearDom k).obj j = s.obj j := rfl
@[simp] theorem State.obj_draw (s : State) (j : Nat) : s.draw.obj j = s.obj j := rfl
@[simp] theorem State.obj_emit (s : State) (e : Emission) (j : Nat) : (s.emit e).obj j = s.obj j := rfl
@[simp] theorem State.obj_unspoilt (s : State) (k j : Nat) : (s.unspoilt k).obj j = s.obj j := rfl

/-- The canonical form of the table of values. -/
def State.objsWf (s : State) : Bool := Tbl.wf Obj.dflt s.objs

theorem State.setObj_wf (s : State) (k : Nat) (v : Val) (h : s.objsWf = true) : (s.setObj k v).objsWf = true :=
  Tbl.wf_set Obj.dflt s.objs k v h

theorem State.wr_wf (s : State) (f : Fld) (x : Nat) (h : s.objsWf = true) : (s.wr f x).objsWf = true :=
  s.setObj_wf _ _ h

/-! ## Fields -/

theorem fget_mod (v : Val) (lo w : Nat) (h : w ≤ 64) : fget v lo w = v.toNat / 2 ^ lo % 2 ^ w := by
  have hp : 2 ^ w - 1 < 2 ^ 64 := Nat.lt_of_lt_of_le (Nat.sub_lt (Nat.two_pow_pos w) Nat.one_pos) (Nat.pow_le_pow_right (by decide) h)
  simp only [fget, BitVec.toNat_and, BitVec.toNat_ushiftRight, BitVec.toNat_ofNat, Nat.mod_eq_of_lt hp, Nat.and_two_pow_sub_one_eq_mod,
    Nat.shiftRight_eq_div_pow]

theorem mask_getLsbD (w i : Nat) (h : w ≤ 64) : (BitVec.ofNat 64 (2 ^ w - 1)).getLsbD i = decide (i < w) := by
  simp only [BitVec.getLsbD_ofNat, Nat.testBit_two_pow_sub_one]
  by_cases hi : i < w
  · simp [hi, Nat.lt_of_lt_of_le hi h]
  · simp [hi]

/-- Bit `i` of a value after a field has been replaced. -/
theorem fset_getLsbD (v : Val) (lo w x i : Nat) (h : w ≤ 64) (hi : i < 64) :
    (fset v lo w x).getLsbD i = if lo ≤ i ∧ i < lo + w then x.testBit (i - lo) else v.getLsbD i := by
  have ht : i - lo < 64 := by omega
  simp only [fset, BitVec.getLsbD_or, BitVec.getLsbD_and, BitVec.getLsbD_not, BitVec.getLsbD_shiftLeft, mask_getLsbD _ _ h, hi,
    BitVec.getLsbD_ofNat, ht]
  by_cases h1 : lo ≤ i
  · by_cases h2 : i < lo + w
    · have h3 : i - lo < w := by omega
      have h4 : ¬ i < lo := by omega
      simp [h1, h2, h3, h4]
    · have h3 : ¬ i - lo < w := by omega
      simp [h2, h3]
  · have h4 : i < lo := by omega
    simp [h1, h4]

theorem fget_testBit (v : Val) (lo w i : Nat) (h : w ≤ 64) : (fget v lo w).testBit i = (decide (i < w) && v.getLsbD (lo + i)) := by
  rw [fget_mod v lo w h, Nat.testBit_mod_two_pow, Nat.testBit_div_two_pow, BitVec.getLsbD, Nat.add_comm]

/-- A field that has been replaced reads what was written. -/
theorem fget_fset_same (v : Val) (lo w x : Nat) (h : lo + w ≤ 64) : fget (fset v lo w x) lo w = x % 2 ^ w := by
  apply Nat.eq_of_testBit_eq
  intro i
  rw [fget_testBit _ _ _ _ (by omega), Nat.testBit_mod_two_pow]
  by_cases hi : i < w
  · rw [fset_getLsbD _ _ _ _ _ (by omega) (by omega)]
    simp [hi]
  · simp [hi]

/-- A field apart from the replaced one reads what it read. -/
theorem fget_fset_apart (v : Val) (lo w x lo' w' : Nat) (h : w ≤ 64) (h' : w' ≤ 64) (ha : lo' + w' ≤ lo ∨ lo + w ≤ lo') :
    fget (fset v lo w x) lo' w' = fget v lo' w' := by
  apply Nat.eq_of_testBit_eq
  intro i
  rw [fget_testBit _ _ _ _ h', fget_testBit _ _ _ _ h']
  by_cases hi : i < w'
  · by_cases h64 : lo' + i < 64
    · rw [fset_getLsbD _ _ _ _ _ h h64]
      have : ¬ (lo ≤ lo' + i ∧ lo' + i < lo + w) := by omega
      simp [this]
    · simp [BitVec.getLsbD_of_ge _ _ (Nat.le_of_not_lt h64)]
  · simp [hi]

/-- A field that fits a 64-bit value. -/
abbrev Fld.fits (f : Fld) : Prop := f.lo + f.w ≤ 64

theorem State.rd_wr_same (s : State) (f : Fld) (x : Nat) (h : f.fits) : (s.wr f x).rd f = x % 2 ^ f.w := by
  simp only [State.rd, State.wr, State.obj_setObj_same]
  exact fget_fset_same _ _ _ _ h

theorem State.rd_wr_obj_ne (s : State) (f g : Fld) (x : Nat) (h : g.key ≠ f.key) : (s.wr f x).rd g = s.rd g := by
  simp only [State.rd, State.wr, State.obj_setObj_ne _ _ h]

theorem State.rd_wr_apart (s : State) (f g : Fld) (x : Nat) (hf : f.fits) (hg : g.fits)
    (h : g.lo + g.w ≤ f.lo ∨ f.lo + f.w ≤ g.lo) : (s.wr f x).rd g = s.rd g := by
  unfold Fld.fits at hf hg
  simp only [State.rd, State.wr, State.obj_setObj]
  split
  · rename_i hk; rw [fget_fset_apart _ _ _ _ _ _ (by omega) (by omega) h, hk]
  · rfl

theorem State.rd_setObj_ne (s : State) (g : Fld) (k : Nat) (v : Val) (h : g.key ≠ k) : (s.setObj k v).rd g = s.rd g := by
  simp only [State.rd, State.obj_setObj_ne _ _ h]

theorem State.obj_wr_ne (s : State) (f : Fld) (x j : Nat) (h : j ≠ f.key) : (s.wr f x).obj j = s.obj j :=
  s.obj_setObj_ne _ h

/-- A saturating counter. -/
theorem State.rd_bump_same (s : State) (f : Fld) (n : Nat) (h : f.fits) :
    (s.bump f n).rd f = min (s.rd f + n) (2 ^ f.w - 1) := by
  unfold State.bump
  rw [State.rd_wr_same _ _ _ h]
  apply Nat.mod_eq_of_lt
  have := Nat.two_pow_pos f.w
  omega

end Sys2Proof.Machine
end

