-- ==== Sys2Proof/Laws/Tile.lean ====
section
/-! SUPPORT. What a target's arbiter can change: slots and latches, packets on their way, the back-off waits of the tile's own paths,
and the count of back-offs in ACCESS_STAT (R251, R255, R449, R453). -/

namespace Sys2Proof.Machine

/-- `t` is `s` after steps of a target's arbiter. -/
def ArbMoves (s t : State) : Prop :=
  (∃ txn tries, t = { s with objs := t.objs, txn := txn, dict := { s.dict with tries := tries } }) ∧
  (∀ k, k ≠ Obj.accessStat → t.obj k = s.obj k) ∧ t.rd .accesses = s.rd .accesses ∧ t.rd .aborts = s.rd .aborts ∧
  t.rd .abandoned = s.rd .abandoned

theorem ArbMoves.refl (s : State) : ArbMoves s s := ⟨⟨s.txn, s.dict.tries, rfl⟩, fun _ _ => rfl, rfl, rfl, rfl⟩

theorem ArbMoves.trans {s t u : State} (h : ArbMoves s t) (g : ArbMoves t u) : ArbMoves s u := by
  obtain ⟨⟨x, y, e⟩, h1, h2, h3, h4⟩ := h
  obtain ⟨⟨x', y', e'⟩, g1, g2, g3, g4⟩ := g
  refine ⟨⟨x', y', ?_⟩, fun k hk => (g1 k hk).trans (h1 k hk), g2.trans h2, g3.trans h3, g4.trans h4⟩
  rw [e', e]

/-- The count of back-offs is a field of ACCESS_STAT beside the others. -/
theorem ArbMoves.bump (s : State) (n : Nat) : ArbMoves s (s.bump ⟨Obj.accessStat, 8, 16⟩ n) := by
  refine ⟨⟨s.txn, s.dict.tries, rfl⟩, fun k hk => s.obj_wr_ne _ _ _ hk, ?_, ?_, ?_⟩ <;>
    exact s.rd_wr_apart _ _ _ (by decide) (by decide) (by decide)

theorem ArbMoves.setTarget (s : State) (u : Nat) (t : TTarget) : ArbMoves s (s.setTarget u t) :=
  ⟨⟨_, s.dict.tries, rfl⟩, fun _ _ => rfl, rfl, rfl, rfl⟩

theorem ArbMoves.txnFrom (s : State) (u : Nat) (p : TPkt) : ArbMoves s (s.txnFrom u p) := by
  unfold State.txnFrom
  split
  · exact ⟨⟨_, s.dict.tries, rfl⟩, fun _ _ => rfl, rfl, rfl, rfl⟩
  · exact .refl s

theorem ArbMoves.tries (s : State) (x : Tbl Nat) : ArbMoves s { s with dict := { s.dict with tries := x } } :=
  ⟨⟨s.txn, x, rfl⟩, fun _ _ => rfl, rfl, rfl, rfl⟩

theorem ArbMoves.foldl {α : Type} (f : State → α → State) (hf : ∀ s a, ArbMoves s (f s a)) (l : List α) (s : State) :
    ArbMoves s (l.foldl f s) := by
  induction l generalizing s with
  | nil => exact .refl s
  | cons a l ih => exact (hf s a).trans (ih _)

theorem State.grantSlot_moves (s : State) (u : Nat) (r : TPkt) : ArbMoves s (s.grantSlot u r) := by
  simp only [State.grantSlot]
  split
  · exact .setTarget ..
  · exact (ArbMoves.setTarget ..).trans (.txnFrom ..)

theorem State.backOff_moves (s : State) (u : Nat) (r : TPkt) : ArbMoves s (s.backOff u r) := by
  simp only [State.backOff]
  have h : ArbMoves s (if u = 0xC1 then s.bump ⟨Obj.accessStat, 8, 16⟩ 1 else s) := by
    split
    · exact .bump s 1
    · exact .refl s
  split
  · exact h.trans ((ArbMoves.setTarget ..).trans (.tries ..))
  · exact h.trans ((ArbMoves.setTarget ..).trans (.txnFrom ..))

theorem State.setChoice_moves (s : State) (u pl : Nat) (c : Option (BitVec 16)) : ArbMoves s (s.setChoice u pl c) :=
  ArbMoves.setTarget ..

theorem State.arbGrant_moves (s : State) (u pl : Nat) : ArbMoves s (s.arbGrant u pl) := by
  simp only [State.arbGrant]
  split
  · exact .refl s
  · split
    · exact s.setChoice_moves ..
    · exact ((s.grantSlot_moves ..).trans (State.setChoice_moves ..)).trans (.foldl _ (fun a x => a.backOff_moves u x) _ _)

theorem State.arbStep_moves (s : State) (u pl : Nat) : ArbMoves s (s.arbStep u pl) := by
  unfold State.arbStep
  split
  · exact .refl s
  · split
    · exact s.arbGrant_moves ..
    · split
      · exact s.grantSlot_moves ..
      · exact .refl s

theorem State.arbitrate_moves (s : State) (u pl : Nat) : ArbMoves s (s.arbitrate u pl) :=
  .foldl _ (fun a _ => a.arbStep_moves u pl) _ _

theorem State.latchReservation_moves (s : State) (u : Nat) (r : TPkt) : ArbMoves s (s.latchReservation u r) := by
  simp only [State.latchReservation]
  refine .trans ?_ (State.arbitrate_moves ..)
  split
  · exact (ArbMoves.setTarget ..).trans (State.setChoice_moves ..)
  · exact .setTarget ..

theorem State.rechoose_moves (s : State) (u pl : Nat) : ArbMoves s (s.rechoose u pl) := by
  unfold State.rechoose
  split
  · exact .refl s
  · simp only
    split
    · exact .refl s
    · exact s.setChoice_moves ..

theorem State.withdraw_moves (s : State) (u : Nat) (pick : TPkt → Bool) : ArbMoves s (s.withdraw u pick) := by
  simp only [State.withdraw]
  exact (ArbMoves.setTarget ..).trans (.foldl _ (fun a pl => (a.rechoose_moves u pl).trans (State.arbitrate_moves ..)) _ _)

/-- An answered request gives its slot back: nothing but the arbiter moves. -/
theorem State.pathDone_moves (s : State) (v : Nat) : ArbMoves s (s.pathDone v) := by
  simp only [State.pathDone]
  exact ((ArbMoves.setTarget ..).trans (.tries ..)).trans (State.withdraw_moves ..)

/-- A request that asks for its slot: nothing but the arbiter moves. -/
theorem State.pathAsk_moves (s : State) (v : Nat) : ArbMoves s (s.pathAsk v) := by
  simp only [State.pathAsk]
  split
  · exact .refl s
  · exact s.latchReservation_moves ..

/-! ## The dictionary's answer -/

@[simp] theorem State.obj_ibi (s : State) (b : Byte) (k : Nat) : (s.ibi b).obj k = s.obj k := by
  unfold State.ibi; split <;> rfl

theorem State.slotAnswer_moves (s : State) (u : Nat) (src : BitVec 16) (tag : BitVec 10) (gen : BitVec 4) (status : BitVec 3)
    (data : List (BitVec 1024)) : ArbMoves s (s.slotAnswer u src tag gen status data) := by
  simp only [State.slotAnswer]
  split
  · exact .refl s
  · split
    · exact .refl s
    · exact ((ArbMoves.txnFrom ..).trans (.setTarget ..)).trans (State.arbitrate_moves ..)

@[simp] theorem State.obj_ctlFrom (s : State) (u : Nat) (m : CtlMsg) (k : Nat) : (s.ctlFrom u m).obj k = s.obj k := by
  unfold State.ctlFrom
  split
  · unfold State.ctlSend; split <;> rfl
  · rfl

@[simp] theorem State.obj_hostVector (s : State) (p src : Nat) (vec : BitVec 11) (k : Nat) : (s.hostVector p src vec).obj k = s.obj k := by
  unfold State.hostVector; split <;> rfl

@[simp] theorem State.obj_setMailbox (s : State) (p : Nat) (m : Mailbox) (k : Nat) : (s.setMailbox p m).obj k = s.obj k := rfl

theorem State.answerSlot_obj (s : State) (p : Path) (unit : BitVec 16) (tag : BitVec 10) (bs : List Byte) (k : Nat)
    (h : k ≠ Obj.accessStat) : (s.answerSlot p unit tag bs).obj k = s.obj k := by
  unfold State.answerSlot
  split
  · exact (State.slotAnswer_moves ..).2.1 k h
  · rfl

/-- An answer leaves by its path, and no object but ACCESS_STAT changes, on any path. -/
theorem State.answer_obj (s : State) (acc : Access) (cmd i sub : Nat) (r : Reply) (k : Nat) (h : k ≠ Obj.accessStat) :
    (s.answer acc cmd i sub r).obj k = s.obj k := by
  unfold State.answer
  cases acc.path with
  | bus =>
    dsimp only
    split
    · simp only [State.mctpSend, State.obj_ibi, State.obj_emit]
      exact (State.pathDone_moves ..).2.1 k h
    · rfl
  | mailbox p =>
    refine ((State.pathDone_moves ..).2.1 k h).trans ?_
    simp only [State.answerMailbox]
    split <;> simp
  | inBand u w t => exact s.answerSlot_obj _ _ _ _ k h
  | peer d u t => exact s.answerSlot_obj _ _ _ _ k h
  | service src w x =>
    simp only [State.ctlReply, State.obj_ctlFrom, State.serviceNext]
    split
    · exact (State.pathDone_moves ..).2.1 k h
    · exact ((State.pathAsk_moves ..).2.1 k h).trans ((State.pathDone_moves ..).2.1 k h)
  | firmware => rfl

/-- A request that is answered changes no object but ACCESS_STAT. -/
theorem State.respond_obj (s : State) (acc : Access) (cmd i sub : Nat) (r : Reply) (k : Nat) (h : k ≠ Obj.accessStat) :
    (s.respond acc cmd i sub r).obj k = s.obj k := by
  have h1 : k ≠ Fld.accesses.key := h
  have h2 : k ≠ Fld.aborts.key := h
  unfold State.respond
  rw [State.answer_obj _ _ _ _ _ _ _ h]
  split
  · exact (State.obj_wr_ne _ _ _ _ h2).trans (s.obj_wr_ne _ _ _ h1)
  · exact s.obj_wr_ne _ _ _ h1

/-- A refused request changes no object but ACCESS_STAT. -/
theorem State.abortRequest_obj (s : State) (acc : Access) (cmd i sub : Nat) (xfer : BitVec 16) (a : Abort) (k : Nat)
    (h : k ≠ Obj.accessStat) : (s.abortRequest acc cmd i sub xfer a).obj k = s.obj k := s.respond_obj acc cmd i sub _ k h

end Sys2Proof.Machine
end

