-- ==== Sys2Proof/Laws/Serve.lean ====
section
/-! SUPPORT. The dictionary's writes: what a write does once its object takes it. -/

namespace Sys2Proof.Machine

/-- A write that its object takes, and whose owning chapter accepts it, has its effect and is answered. -/
theorem State.serveKey_next {s t : State} {acc : Access} {k : Nat} {r : ObjRow} {v : Val} {eff : Val → Effect}
    (h : s.MayWrite acc k r) (he : eff (s.value acc k r v) s = .ok t) :
    s.serveKey acc k v eff = t.written acc k r.ty := by
  obtain ⟨h1, h2⟩ := h
  unfold State.value at he
  simp [State.serveKey, h1, h2, he]

/-- A write that the owning chapter refuses changes nothing but what its answer changes. -/
theorem State.serveKey_refused {s : State} {acc : Access} {k : Nat} {r : ObjRow} {v : Val} {eff : Val → Effect} {a : Abort}
    (h : s.MayWrite acc k r) (he : eff (s.value acc k r v) s = .error a) :
    s.serveKey acc k v eff = s.abortRequest acc 2 (k / 256) (k % 256) 0 a := by
  obtain ⟨h1, h2⟩ := h
  unfold State.value at he
  simp [State.serveKey, h1, h2, he]

/-- A write that a check of R437 stops changes nothing but what its answer changes. -/
theorem State.serveKey_barred {s : State} {acc : Access} {k : Nat} {v : Val} {eff : Val → Effect} {a : Abort}
    (h1 : s.serves acc = true)
    (h2 : s.check acc (k / 256) (k % 256) .write (typeLen (s.typeOf (k / 256) (k % 256))) = .error a) :
    s.serveKey acc k v eff = s.abortRequest acc 2 (k / 256) (k % 256) 0 a := by
  simp [State.serveKey, h1, h2]

theorem State.serveThen_next {s t : State} {acc : Access} {k : Nat} {r : ObjRow} {v : Val} {eff : Val → Effect}
    {after : State → State} (h : s.MayWrite acc k r) (he : eff (s.value acc k r v) s = .ok t) :
    s.serveThen acc k v eff after = after (t.written acc k r.ty) := by
  obtain ⟨h1, h2⟩ := h
  unfold State.value at he
  simp [State.serveThen, h1, h2, he]

theorem State.serveLater_now {s t : State} {acc : Access} {k : Nat} {r : ObjRow} {v : Val}
    {eff : Val → State → Except Abort (State × Bool)} (h : s.MayWrite acc k r)
    (he : eff (s.value acc k r v) s = .ok (t, false)) : s.serveLater acc k v eff = t.written acc k r.ty := by
  obtain ⟨h1, h2⟩ := h
  unfold State.value at he
  simp [State.serveLater, h1, h2, he]

/-- The answer to a write changes no object but ACCESS_STAT. -/
theorem State.written_obj (s : State) (acc : Access) (k ty j : Nat) (h : j ≠ Obj.accessStat) :
    (s.written acc k ty).obj j = s.obj j := by
  unfold State.written
  rw [State.respond_obj _ _ _ _ _ _ _ h]
  rfl

end Sys2Proof.Machine
end

