-- ==== Sys2Proof/WellFormed.lean ====
section
/-! DEFINITION. Which commands name things the block can have: operands within the ranges that the address map, the
floorplans and the formats allow at most. A build may hold fewer; a command that names what it lacks changes nothing. -/

namespace Sys2Proof

/-- One to eight words (R43). -/
def wordsOk (ws : List (BitVec 32)) : Bool := decide (1 ≤ ws.length) && decide (ws.length ≤ 8)

/-- Positions within a code's item of `n` bits. -/
def flipsOk (n : Nat) (fs : List Nat) : Bool := fs.all (fun p => decide (p < n))

/-- A request brings as many strobes as beats of data, at most 32 (R244). -/
def TxnArgs.wf (r : TxnArgs) : Bool := decide (r.data.length = r.strb.length) && decide (r.data.length ≤ 32)

/-- A rail of one of eight regions, or VDD_AON (R63). -/
def Rail.wf : Rail → Bool
  | .aon => true
  | .reg k => decide (k < 8)

/-- A word the stores can have (R483). -/
def StoreWord.wf : StoreWord → Bool
  | .bank n _ l _ => decide (n < 120) && decide (l < 12)
  | .join n _ slot => decide (n < 120) && decide (slot < 16)
  | .tally n _ => decide (n < 120)
  | .socket n i => decide (n < 120) && decide (i < 4096)
  | .staging e c _ => decide (e < 4) && decide (c < 16)
  | .reduction g c _ _ => decide (g < 16) && decide (c < 32)
  | .gateBuf g _ _ _ _ => decide (g < 16)
  | .plat _ => true
  | .sram _ _ => true
  | .trace i => decide (i < 262144)

/-- The command is well formed. -/
def Instr.wf : Instr → Bool
  | .powerOnResetAssert _ _ => true
  | .resetRelease _ _ => true
  | .regionStartRelease k => decide (k < 8)
  | .bridgeTrainComplete b _ _ _ _ => decide (b < 4)
  | .fwImageStart => true
  | .firmwareRunning _ => true
  | .syncEdge => true
  | .timerefLoss => true
  | .timerefReturn => true
  | .oscillatorTrim => true
  | .adapterClockStop n _ => decide (n < 120)
  | .adapterClockStart n _ => decide (n < 120)
  | .adapterClockMeasure n _ _ => decide (n < 120)
  | .adapterResetAssert n _ => decide (n < 120)
  | .adapterResetRelease n _ => decide (n < 120)
  | .tensorInjectBeat n _ _ _ _ _ => decide (n < 120)
  | .tensorDeliverBeat n _ => decide (n < 120)
  | .coreWakeRequest n => decide (n < 120)
  | .controlSend n _ _ _ _ words => decide (n < 120) && wordsOk words
  | .nakDeliver n => decide (n < 120)
  | .socketPop n sock => decide (n < 120) && decide (sock < 32)
  | .txnRequestAccept unit rq => decide (unit < 0xC2) && rq.wf
  | .tokenBucketRelease unit => decide (unit < 0xC2)
  | .slotReservationArrive unit => decide (unit < 0xC2)
  | .leaseReturnArrive unit => decide (unit < 0xC2)
  | .slotGrantArrive unit => decide (unit < 0xC2)
  | .slotBackoffArrive unit => decide (unit < 0xC2)
  | .backoffExpire unit target _ => decide (unit < 0xC2) && decide (target < 0x320)
  | .txnFlitArrive n _ inp flips => decide (n < 120) && decide (inp < 8) && flipsOk 1100 flips
  | .txnPacketForward n _ out => decide (n < 120) && decide (out < 8)
  | .txnRequestArrive unit => decide (unit < 0xC2)
  | .txnResponseArrive unit => decide (unit < 0xC2)
  | .txnDataArrive unit => decide (unit < 0xC2)
  | .txnTimeoutExpire unit _ => decide (unit < 0xC2)
  | .tagQuarantineExpire unit _ => decide (unit < 0xC2)
  | .targetSlotTimeout unit _ _ => decide (unit < 0xC2)
  | .snoopReplyArrive unit src _ _ _ => decide (unit < 0xC2) && decide (src < 512)
  | .snoopTimeout unit _ => decide (unit < 0xC2)
  | .coreTargetAnswer n _ _ data => decide (n < 120) && decide (data.length ≤ 32)
  | .maCommandIssue a => decide (a < 16)
  | .maReadData a _ _ _ => decide (a < 16)
  | .maWriteCompletion a _ _ => decide (a < 16)
  | .hostInboundRequest p _ _ rq => decide (p < 2) && rq.wf
  | .hostCompletionArrive p _ _ data => decide (p < 2) && decide (data.length ≤ 32)
  | .hostSnoopArrive p _ _ _ => decide (p < 2)
  | .hostIrqMessage p => decide (p < 2)
  | .hostIrqDeliver p => decide (p < 2)
  | .cohWindowWrite _ p i _ => decide (p < 2) && decide (i < 16)
  | .cohWindowInvalidateComplete p i => decide (p < 2) && decide (i < 16)
  | .arbRenumber _ a _ => decide (a < 16)
  | .poolSizeWrite _ a _ => decide (a < 16)
  | .i3cCcc _ => true
  | .mctpMessageReceive _ _ _ body => decide (body.length ≤ 4224)
  | .mctpControlMessage _ body => decide (body.length ≤ 4224)
  | .tensorFlitArrive n inp flips => decide (n < 120) && decide (inp < 6) && flipsOk 4224 flips
  | .paceGaugeWindow k _ => decide (k < 8)
  | .outputPassFlit n out flips => decide (n < 120) && decide (out < 6) && flipsOk 39 flips
  | .wakeHoldExpire k => decide (k < 8)
  | .schedLoadChecksComplete _ => true
  | .epochArm _ _ => true
  | .epochArmCheckComplete _ => true
  | .epochCancel _ _ => true
  | .forceStaged _ _ => true
  | .forceNull _ _ => true
  | .epochTargetSet _ _ => true
  | .epochTargetArrive n => decide (n < 120)
  | .epochMarkerArrive n inp => decide (n < 120) && decide (inp < 6)
  | .epochSwapComplete _ => true
  | .forcedMarkerArrive n => decide (n < 120)
  | .forcedSwapComplete _ => true
  | .reductionJoinFlit n _ => decide (n < 120)
  | .tallyCaptureFlit n => decide (n < 120)
  | .tapCtrlWrite _ n _ => decide (n < 120)
  | .controlFlitArrive n inp flips => decide (n < 120) && decide (inp < 8) && flipsOk 80 flips
  | .controlMessageForward n out => decide (n < 120) && decide (out < 8)
  | .controlMessageDeliver ep => decide (ep < 0x178)
  | .combineContribution ep => decide (ep < 0x178)
  | .combinerReleaseSend n => decide (n < 120)
  | .releaseDeliver n => decide (n < 120)
  | .tripIncrement ep => decide (ep < 0x178)
  | .pstateRequest => true
  | .serviceMessageReceive => true
  | .sockCfgWrite _ n sock _ => decide (n < 120) && decide (sock < 32)
  | .sockStatClear _ n sock => decide (n < 120) && decide (sock < 32)
  | .channelEntryWrite _ _ entry _ => decide (entry < 64)
  | .channelRankReply _ entry _ => decide (entry < 64)
  | .channelCheckTimeout _ entry => decide (entry < 64)
  | .rankWrite _ _ _ => true
  | .dmaStart _ e c => decide (e < 4) && decide (c < 16)
  | .dmaStop _ e c => decide (e < 4) && decide (c < 16)
  | .dmaAbort _ e c => decide (e < 4) && decide (c < 16)
  | .dmaClear _ e c => decide (e < 4) && decide (c < 16)
  | .dmaDescriptorFetch e c => decide (e < 4) && decide (c < 16)
  | .dmaMoverStep e => decide (e < 4)
  | .dmaWritebackComplete e c => decide (e < 4) && decide (c < 16)
  | .dmaNakArrive e => decide (e < 4)
  | .chStatClear _ e c => decide (e < 4) && decide (c < 16)
  | .bridgeFlitReceive b g _ => decide (b < 4) && decide (g < 8)
  | .bridgeRetrainComplete b _ _ => decide (b < 4)
  | .bridgeLinkDown b => decide (b < 4)
  | .bridgeCfgWrite _ b _ => decide (b < 4)
  | .bridgeErrClear _ b => decide (b < 4)
  | .enumReceive b _ _ _ _ => decide (b < 4)
  | .enumQuietExpire found => decide (found.length < 64)
  | .enumAssignReceive _ _ _ _ _ _ => true
  | .enumWaitExpire => true
  | .pkgNumberWrite _ _ => true
  | .timeReqReceive b => decide (b < 4)
  | .timeRespReceive b => decide (b < 4)
  | .tbPeriodExpire => true
  | .tbGenWrite _ _ => true
  | .pkgLoadCheckComplete _ _ => true
  | .pkgArm _ _ => true
  | .pkgCancel _ _ => true
  | .pkgDieReport _ _ _ => true
  | .gateRequestAccept g flips => decide (g < 16) && flipsOk 1100 flips
  | .gateCtlAccept g _ flits => decide (g < 16) && decide (1 ≤ flits.length) && decide (flits.length ≤ 5)
  | .gateEgressSend g => decide (g < 16)
  | .fabricPacketReceive g _ => decide (g < 16)
  | .ackDelayExpire g _ _ => decide (g < 16)
  | .retxTimeoutExpire g _ _ _ => decide (g < 16)
  | .connectionIdleExpire g _ => decide (g < 16)
  | .platInsert _ _ => true
  | .platRemove _ _ => true
  | .platQuery _ _ => true
  | .gateCfgWrite _ g _ => decide (g < 16)
  | .gateErrClear _ g => decide (g < 16)
  | .gateLineDown g => decide (g < 16)
  | .gateLineUp g => decide (g < 16)
  | .collStart _ g c => decide (g < 16) && decide (c < 32)
  | .collStop _ g c => decide (g < 16) && decide (c < 32)
  | .collAbort _ g c => decide (g < 16) && decide (c < 32)
  | .collClear _ g c => decide (g < 16) && decide (c < 32)
  | .collRecordFetch g c => decide (g < 16) && decide (c < 32)
  | .collInputFlit g c => decide (g < 16) && decide (c < 32)
  | .collArriveReceive g => decide (g < 16)
  | .collReadyReceive g => decide (g < 16)
  | .collAbortReceive g => decide (g < 16)
  | .tallyUpReceive g => decide (g < 16)
  | .tallyDownReceive g => decide (g < 16)
  | .dataUpReceive g => decide (g < 16)
  | .dataDownReceive g => decide (g < 16)
  | .swContribReceive g => decide (g < 16)
  | .swCapacityReceive g => decide (g < 16)
  | .swResultReceive g => decide (g < 16)
  | .swRefuseReceive g => decide (g < 16)
  | .swRetryBackoffExpire g c _ => decide (g < 16) && decide (c < 32)
  | .swAttemptTimeout g c _ => decide (g < 16) && decide (c < 32)
  | .swCapExpire g j => decide (g < 16) && decide (j < 64)
  | .storeAllocGrant g => decide (g < 16)
  | .arriveResendExpire g c => decide (g < 16) && decide (c < 32)
  | .collWritebackComplete g c => decide (g < 16) && decide (c < 32)
  | .collStatClear _ g c => decide (g < 16) && decide (c < 32)
  | .wardForm _ _ => true
  | .wardActivate _ _ => true
  | .wardReset _ _ => true
  | .wardRevoke _ _ => true
  | .wardDrainComplete _ => true
  | .wardDrainLimitExpire _ => true
  | .wardScrubComplete _ => true
  | .wardJunctionsWrite _ _ _ => true
  | .wardRefusalsClear _ => true
  | .watchdogExpire => true
  | .coreResetHoldExpire => true
  | .coreSelWrite _ _ => true
  | .read _ _ _ => true
  | .write _ _ _ len _ => decide (len ≤ 8)
  | .initUpload _ _ _ => true
  | .initDownload _ _ _ _ => true
  | .segment _ _ _ _ _ _ => true
  | .transferAbort _ _ _ _ _ => true
  | .describe _ _ _ => true
  | .transferTimeoutExpire _ => true
  | .mailboxRequestWrite p offset _ => decide (p < 2) && decide (offset < 4096)
  | .mailboxDoorbell p => decide (p < 2)
  | .accessStatClear _ => true
  | .getVersion => true
  | .getCapabilities => true
  | .negotiateAlgorithms _ _ _ => true
  | .getDigests => true
  | .getCertificate _ _ _ => true
  | .challenge _ _ _ => true
  | .getMeasurements _ _ => true
  | .fwStart _ => true
  | .fwHold _ => true
  | .fuseCaps _ _ => true
  | .debugDisable _ _ => true
  | .lifecycleAdvance _ _ => true
  | .dieReset _ _ => true
  | .pkgReset _ _ => true
  | .pkgResetReceive => true
  | .regionGate _ k => decide (k < 8)
  | .regionWake _ k => decide (k < 8)
  | .regionReset _ k => decide (k < 8)
  | .regionResetRelease k => decide (k < 8)
  | .regionWakeComplete k => decide (k < 8)
  | .autoGateIdleExpire k => decide (k < 8)
  | .railTargetWrite _ k _ => decide (k < 8)
  | .railAppliedWrite _ k _ => decide (k < 8)
  | .railRequestTimeout k => decide (k < 8)
  | .supplyWarnEnter rail => rail.wf
  | .supplyWarnExit rail => rail.wf
  | .supplyResetCross rail => rail.wf
  | .supplyStatClear _ => true
  | .collectorCompareMismatch _ _ _ => true
  | .faultClear _ _ => true
  | .faultSevWrite _ src _ => decide (src < 512)
  | .faultThresholdWrite _ _ => true
  | .inject _ _ => true
  | .testPortInjectAccess _ => true
  | .wdtKick _ _ => true
  | .patrolScrubRead store flips => store.wf && flipsOk 80 flips
  | .storeCorrClear _ => true
  | .recordWriteComplete _ => true
  | .recorderScanComplete => true
  | .operatingHourTick => true
  | .retireCol _ _ => true
  | .retireRow _ _ => true
  | .retirementResume => true
  | .steerWire _ _ _ _ => true
  | .wireSteerStage n point _ => decide (n < 120) && decide (point < 4)
  | .steerLane _ _ _ => true
  | .marginMeasure n point _ => decide (n < 120) && decide (point < 4)
  | .paceDriftMeasure k _ => decide (k < 8)
  | .suspectHourExpire => true
  | .autoBridgeCheck b => decide (b < 4)
  | .counterGather => true
  | .cntCfgWrite _ k _ => decide (k < 64)
  | .wardEvtEnWrite _ _ _ => true
  | .traceRecordStore n => decide (n < 120)
  | .traceTrigger _ => true
  | .traceRestart _ => true
  | .traceCtrlWrite _ _ => true
  | .hallRefWrite _ _ => true
  | .hallTimeRespReceive _ _ _ _ _ => true
  | .hallMeasureTimeout => true
  | .progressWatchExamine => true
  | .waitGraphComplete => true
  | .freeze _ => true
  | .freezeComplete => true
  | .release _ => true
  | .releaseComplete => true
  | .capture _ => true
  | .captureComplete => true
  | .hangStatusClear _ => true
  | .paceMinClear _ k => decide (k < 8)
  | .tlinkCorrClear _ n => decide (n < 120)
  | .bPortStatusClear _ n => decide (n < 120)
  | .rnStatusClear _ n => decide (n < 120)
  | .txnStatClear _ n => decide (n < 120)
  | .probeCountClear _ n => decide (n < 120)
  | .cnHandshake n => decide (n < 120)
  | .trResponseBeat unit => decide (unit < 0xC2)

end Sys2Proof
end

