-- ==== Sys2Proof/Tests/Slice0.lean ====
section
/-! SUPPORT. Tests: ill-formed commands, steps on small states, and states that meet the hypotheses of the statements. -/

namespace Sys2Proof.Tests

set_option Elab.async false

open Sys2Proof.Machine

/-! ## Small states -/

/-- A state with fields at values. -/
def put (s : State) (l : List (Fld × Nat)) : State := l.foldl (fun a p => a.wr p.1 p.2) s

/-- A state with objects at values. -/
def store (s : State) (l : List (Nat × Val)) : State := l.foldl (fun a p => a.setObj p.1 p.2) s

/-- The reference die 5 ms after its start, firmware running and both regions ACTIVE. -/
def up : State :=
  put { State.reset with
    now := 5000000
    pin := { PinState.reset with inReset := false }
    boot := { BootState.reset with romOk := true } } [(.coreState, 1), (.regionSt 0, 2), (.regionSt 1, 2)]

/-- Requests of the local core, and on the bus. -/
def fw (level : BitVec 2) : Access := ⟨.firmware, level, 7⟩
def onBus (level : BitVec 2) : Access := ⟨.bus, level, 7⟩

/-- The object takes a write now. -/
def takes (s : State) (acc : Access) (k : Nat) : Bool :=
  s.serves acc && match s.check acc (k / 256) (k % 256) .write (typeLen (s.typeOf (k / 256) (k % 256))) with
    | .ok _ => true
    | .error _ => false

/-- `takes` is the hypothesis of the statements. -/
theorem takes_mayWrite {s : State} {acc : Access} {k : Nat} (h : takes s acc k = true) : ∃ r, s.MayWrite acc k r := by
  unfold takes at h
  cases hc : s.check acc (k / 256) (k % 256) .write (typeLen (s.typeOf (k / 256) (k % 256))) with
  | error a => simp [hc] at h
  | ok r => exact ⟨r, by simpa [hc] using h, hc⟩

/-- The row by which an object takes a write, for the values that reach its chapter. -/
def given (s : State) (acc : Access) (k : Nat) (v : Val) : Val :=
  match s.check acc (k / 256) (k % 256) .write (typeLen (s.typeOf (k / 256) (k % 256))) with
  | .ok r => s.value acc k r v
  | .error _ => 0

/-- The abort of a check that fails, and whether it passes. -/
def err {α : Type} : Except Abort α → Option Abort
  | .ok _ => none
  | .error a => some a

def passes {α : Type} (r : Except Abort α) : Bool := (err r).isNone

/-! ## Ill-formed commands: one term for each check of WellFormed, which refuses it -/

theorem test_illFormed_1 : ([
    .regionStartRelease 8, .bridgeTrainComplete 4 false 0 0 none, .adapterClockStop 120 .a, .adapterClockStart 120 .a,
    .adapterClockMeasure 120 .a 0, .adapterResetAssert 120 .a, .adapterResetRelease 120 .a, .tensorInjectBeat 120 .a 0 0 none false,
    .tensorDeliverBeat 120 .a, .coreWakeRequest 120, .controlSend 120 0 0 0 0 [0], .controlSend 0 0 0 0 0 [],
    .controlSend 0 0 0 0 0 (List.replicate 9 0), .nakDeliver 120, .socketPop 120 0, .socketPop 0 32,
    .txnRequestAccept 194 ⟨0, 0, 0, 0, 0, [], []⟩, .txnRequestAccept 0 ⟨0, 0, 0, 0, 0, [0], []⟩, .tokenBucketRelease 194,
    .slotReservationArrive 194, .leaseReturnArrive 194, .slotGrantArrive 194, .slotBackoffArrive 194, .backoffExpire 194 0 0,
    .backoffExpire 0 800 0, .txnFlitArrive 120 .request 0 [], .txnFlitArrive 0 .request 8 [], .txnFlitArrive 0 .request 0 [1100],
    .txnPacketForward 120 .request 0, .txnPacketForward 0 .request 8, .txnRequestArrive 194, .txnResponseArrive 194] : List Instr).all (fun i => !i.wf) = true := by decide +kernel

theorem test_illFormed_2 : ([
    .txnDataArrive 194, .txnTimeoutExpire 194 0, .tagQuarantineExpire 194 0, .targetSlotTimeout 194 0 0,
    .snoopReplyArrive 194 0 0 0 none, .snoopReplyArrive 0 512 0 0 none, .snoopTimeout 194 0, .coreTargetAnswer 120 0 0 [],
    .coreTargetAnswer 0 0 0 (List.replicate 33 0), .maCommandIssue 16, .maReadData 16 0 0 0, .maWriteCompletion 16 0 0,
    .hostInboundRequest 2 0 false ⟨0, 0, 0, 0, 0, [], []⟩, .hostInboundRequest 0 0 false ⟨0, 0, 0, 0, 0, [0], []⟩,
    .hostCompletionArrive 2 0 0 [], .hostCompletionArrive 0 0 0 (List.replicate 33 0), .hostSnoopArrive 2 0 0 0, .hostIrqMessage 2,
    .hostIrqDeliver 2, .cohWindowWrite (fw 3) 2 0 0, .cohWindowWrite (fw 3) 0 16 0, .cohWindowInvalidateComplete 2 0,
    .cohWindowInvalidateComplete 0 16, .arbRenumber (fw 3) 16 0, .poolSizeWrite (fw 3) 16 0,
    .mctpMessageReceive 0 0 0 (List.replicate 4225 0), .mctpControlMessage 0 (List.replicate 4225 0), .tensorFlitArrive 120 0 [],
    .tensorFlitArrive 0 6 [], .tensorFlitArrive 0 0 [4224], .paceGaugeWindow 8 0, .outputPassFlit 120 0 []] : List Instr).all (fun i => !i.wf) = true := by decide +kernel

theorem test_illFormed_3 : ([
    .outputPassFlit 0 6 [], .outputPassFlit 0 0 [39], .wakeHoldExpire 8, .epochTargetArrive 120, .epochMarkerArrive 120 0,
    .epochMarkerArrive 0 6, .forcedMarkerArrive 120, .reductionJoinFlit 120 none, .tallyCaptureFlit 120, .tapCtrlWrite (fw 3) 120 0,
    .controlFlitArrive 120 0 [], .controlFlitArrive 0 8 [], .controlFlitArrive 0 0 [80], .controlMessageForward 120 0,
    .controlMessageForward 0 8, .controlMessageDeliver 376, .combineContribution 376, .combinerReleaseSend 120, .releaseDeliver 120,
    .tripIncrement 376, .sockCfgWrite (fw 3) 120 0 0, .sockCfgWrite (fw 3) 0 32 0, .sockStatClear (fw 3) 120 0,
    .sockStatClear (fw 3) 0 32, .channelEntryWrite (fw 3) 0 64 0, .channelRankReply 0 64 (.received .noEndpoint), .channelRankReply 0 64 (.given 0 0 0), .channelRankReply 0 64 .withdrawn, .channelCheckTimeout 0 64,
    .dmaStart (fw 3) 4 0, .dmaStart (fw 3) 0 16, .dmaStop (fw 3) 4 0, .dmaStop (fw 3) 0 16, .dmaAbort (fw 3) 4 0] : List Instr).all (fun i => !i.wf) = true := by decide +kernel

theorem test_illFormed_4 : ([
    .dmaAbort (fw 3) 0 16, .dmaClear (fw 3) 4 0, .dmaClear (fw 3) 0 16, .dmaDescriptorFetch 4 0, .dmaDescriptorFetch 0 16,
    .dmaMoverStep 4, .dmaWritebackComplete 4 0, .dmaWritebackComplete 0 16, .dmaNakArrive 4, .chStatClear (fw 3) 4 0,
    .chStatClear (fw 3) 0 16, .bridgeFlitReceive 4 0 0, .bridgeFlitReceive 0 8 0, .bridgeRetrainComplete 4 0 0, .bridgeLinkDown 4,
    .bridgeCfgWrite (fw 3) 4 0, .bridgeErrClear (fw 3) 4, .enumReceive 4 0 0 0 0, .enumQuietExpire (List.replicate 64 (0, 0)),
    .timeReqReceive 4, .timeRespReceive 4, .gateRequestAccept 16 [], .gateRequestAccept 0 [1100], .gateCtlAccept 16 0 [],
    .gateCtlAccept 0 0 [], .gateCtlAccept 0 0 (List.replicate 6 0), .gateEgressSend 16, .fabricPacketReceive 16 [],
    .ackDelayExpire 16 0 0, .retxTimeoutExpire 16 0 0 0, .connectionIdleExpire 16 0, .gateCfgWrite (fw 3) 16 0] : List Instr).all (fun i => !i.wf) = true := by decide +kernel

theorem test_illFormed_5 : ([
    .gateErrClear (fw 3) 16, .gateLineDown 16, .gateLineUp 16, .collStart (fw 3) 16 0, .collStart (fw 3) 0 32, .collStop (fw 3) 16 0,
    .collStop (fw 3) 0 32, .collAbort (fw 3) 16 0, .collAbort (fw 3) 0 32, .collClear (fw 3) 16 0, .collClear (fw 3) 0 32,
    .collRecordFetch 16 0, .collRecordFetch 0 32, .collInputFlit 16 0, .collInputFlit 0 32, .collArriveReceive 16,
    .collReadyReceive 16, .collAbortReceive 16, .tallyUpReceive 16, .tallyDownReceive 16, .dataUpReceive 16, .dataDownReceive 16,
    .swContribReceive 16, .swCapacityReceive 16, .swResultReceive 16, .swRefuseReceive 16, .swRetryBackoffExpire 16 0 0,
    .swRetryBackoffExpire 0 32 0, .swAttemptTimeout 16 0 0, .swAttemptTimeout 0 32 0, .swCapExpire 16 0, .swCapExpire 0 64] : List Instr).all (fun i => !i.wf) = true := by decide +kernel

theorem test_illFormed_6 : ([
    .storeAllocGrant 16, .arriveResendExpire 16 0, .arriveResendExpire 0 32, .collWritebackComplete 16 0, .collWritebackComplete 0 32,
    .collStatClear (fw 3) 16 0, .collStatClear (fw 3) 0 32, .write (fw 3) 0 0 9 0, .mailboxRequestWrite 2 0 [],
    .mailboxRequestWrite 0 4096 [], .mailboxDoorbell 2, .regionGate (fw 3) 8, .regionWake (fw 3) 8, .regionReset (fw 3) 8,
    .regionResetRelease 8, .regionWakeComplete 8, .autoGateIdleExpire 8, .railTargetWrite (fw 3) 8 0, .railAppliedWrite (fw 3) 8 0,
    .railRequestTimeout 8, .supplyWarnEnter (.reg 8), .supplyWarnExit (.reg 8), .supplyResetCross (.reg 8),
    .faultSevWrite (fw 3) 512 0, .patrolScrubRead (.bank 120 false 0 0) [], .patrolScrubRead (.bank 0 false 12 0) [],
    .patrolScrubRead (.join 120 false 0) [], .patrolScrubRead (.join 0 false 16) [], .patrolScrubRead (.tally 120 0) [],
    .patrolScrubRead (.socket 120 0) [], .patrolScrubRead (.socket 0 4096) [], .patrolScrubRead (.staging 4 0 0) []] : List Instr).all (fun i => !i.wf) = true := by decide +kernel

theorem test_illFormed_7 : ([
    .patrolScrubRead (.staging 0 16 0) [], .patrolScrubRead (.reduction 16 0 0 0) [], .patrolScrubRead (.reduction 0 32 0 0) [],
    .patrolScrubRead (.gateBuf 16 0 0 0 false) [], .patrolScrubRead (.trace 262144) [], .patrolScrubRead (.plat 0) [80],
    .wireSteerStage 120 0 false, .wireSteerStage 0 4 false, .marginMeasure 120 0 0, .marginMeasure 0 4 0, .paceDriftMeasure 8 0,
    .autoBridgeCheck 4, .cntCfgWrite (fw 3) 64 0, .traceRecordStore 120, .paceMinClear (fw 3) 8, .tlinkCorrClear (fw 3) 120,
    .bPortStatusClear (fw 3) 120, .rnStatusClear (fw 3) 120, .txnStatClear (fw 3) 120, .probeCountClear (fw 3) 120, .cnHandshake 120,
    .trResponseBeat 194] : List Instr).all (fun i => !i.wf) = true := by decide +kernel

/-! ## Witnesses: the whole machine -/

/-- The step went on. -/
def nexts (o : Host.Outcome State Fault Refusal) : Bool := match o with
  | .next _ => true
  | _ => false

theorem witness_EmptyQueueLetsOneNanosecondPass :
    up.pending = [] ∧ up.running = true ∧ State.reset.pending = [] ∧ State.reset.running = false := by decide +kernel

theorem witness_EveryStepKeepsTheFloorplan : up.sound = true ∧ nexts (step { up with pending := [.syncEdge] }) = true := by decide +kernel

theorem witness_EveryStepKeepsTheCanonicalForm : up.canonical = true ∧ nexts (step { up with pending := [.syncEdge] }) = true := by
  decide +kernel

/-! ## Steps on small states, as the spec's examples give them -/

/-- What a command sends out. -/
def sends (s : State) (c : Instr) : List Emission := match step { s with pending := [c] } with
  | .next t => t.out
  | _ => []

/-- An answer on the firmware path to a request named 7. -/
def fwAnswer (b : List Byte) : List Emission := [.answer .firmware b]

/-- READ 1101:0A and 1000:02 answer the values of the 48-junction build (chapters 1 and 17). -/
theorem test_read_mgmt_port :
    sends up (.read (fw 0) 0x1101 0x0A) =
      fwAnswer [0x01, 0x00, 0x01, 0x11, 0x0A, 2, 0, 0, 2, 0, 0, 0, 7, 0, 0, 0, 0x80, 0x10] := by decide +kernel

theorem test_read_identity :
    sends up (.read (fw 0) 0x1101 1) =
      fwAnswer [0x01, 0x00, 0x01, 0x11, 0x01, 2, 0, 0, 2, 0, 0, 0, 7, 0, 0, 0, 0x40, 0x00] := by decide +kernel

/-- The packages of a group along axis 1 of a 6 by 4 hall (chapter 11). -/
theorem test_group_packages :
    grpPackages (hallExtents 0x0001000100040006) 0xC804001000815000 14 = [12, 13, 14, 15, 16, 17] := by decide +kernel

/-- The two trees of six members (chapter 11). -/
theorem test_tree_a : treeRoot false 6 = 3 ∧ (List.range 6).map (treeChildren false 6) = [[], [0, 2], [], [1, 5], [], [4]] := by
  decide +kernel

theorem test_tree_b : treeRoot true 6 = 2 ∧ (List.range 6).map (treeChildren true 6) = [[1, 5], [], [0, 4], [], [3], []] := by
  decide +kernel

/-- An exact join of three FP32 values on a tally grid (chapter 5). -/
theorem test_exact_join :
    (gridElem (TallyEntry.ofWord 0x0000040000030002) 64 1 [(1, 0x40D00000), (1, 0xBDCCCCCD), (1, 0x2D800001)]).code = 0x40CCCCCD := by
  decide +kernel

/-- Four values placed on the grid of a hall total (chapter 11). -/
theorem test_hall_places :
    [FVal.fin false 13 (-2), .fin true 3 (-1), .fin false 900719925474099 (-53), .fin true 11 (-2)].map
        (fun v => (BitVec.ofNat 32 (hallPlace 6 ⟨some 10, some 8, false⟩ v)).toInt) = [425984, -196608, 13107, -360448] := by
  decide +kernel

/-- The input numbers of the arbiter of attachment 2 (chapter 7). -/
theorem test_arbiter_numbers : [0x19, 0x1A, 0x07, 0x2F].map (State.reset.arbNumber 0xA2) = [255, 252, 189, 191] := by decide +kernel

/-- Two time exchanges (chapter 9). -/
theorem test_time_exchange : exchangeOffset 1000000 1000357 1000400 1000083 = 337 ∧
    exchangeOffset 2000000 1999968 2000011 2000083 = -52 ∧ exchangeTrip 2000000 1999968 2000011 2000083 = 40 := by decide +kernel

/-- The pass entry and the intake entry of the schedule example (chapter 4). -/
theorem test_pass_entry : isPass 0x28083FFF = true ∧ outSrc 0x28083FFF = 5 ∧ outFlow 0x28083FFF = 16 ∧ outCount 0x28083FFF = 16384 := by
  decide +kernel

theorem test_intake_entry : inFlow 0x0102E00000003FFF = 16 ∧ inTakers 0x0102E00000003FFF = 0x17 ∧ inFlits 0x0102E00000003FFF = 16384 := by
  decide +kernel

/-- The header of the REQ of chapter 10's example. -/
theorem test_req_header :
    (FPkt.head ⟨0, 2, false, true, false, 16, 7, 0, 0x5A3C7, 3, 0x04425, 0x00C54, 0x2F41, 0, 0, List.replicate 24 0⟩ true).take 24 =
      [0x10901070, 0x5A3C7003, 0x01109400, 0x00315000, 0x00002F41, 0x00180000].flatMap (leBytes 4) := by decide +kernel

/-- The check values of the codes over "123456789". -/
theorem test_check_values : (let d := (List.range 9).map (fun i => BitVec.ofNat 8 (0x31 + i)); crc32c d = 0xE3069283 ∧
    crc64 d = 0x6C40DF5F0B497347 ∧ crc8 d = 0xDF) := by decide +kernel

/-- Retiring column 2 steers it to the spare column (chapter 16). -/
theorem test_retire_column :
    (match step { up with pending := [.retireCol (fw 3) 2] } with
      | .next t => t.obj Obj.sisterCtrl
      | _ => 0) = 0x4010000000020000 := by decide +kernel

/-- Ward 3 ACTIVE, owning junctions 9 to 11. -/
def warded : State :=
  put up [(.wardSt 3, 2), (.owned 9, 1), (.owner 9, 3), (.owned 10, 1), (.owner 10, 3), (.owned 11, 1), (.owner 11, 3)]

/-- A request of a ward at L1 in band. -/
def inBand (ward : BitVec 4) : Access := ⟨.inBand 10 ward 1, 1, 0⟩

/-! ## Witnesses: the dictionary -/

theorem witness_RequestsAreAnswered :
    (fw 3).path = .firmware ∧ (onBus 2).path = .bus ∧
    ({ up with dict := { up.dict with bus := some (5, []) } } : State).dict.bus = some (5, []) ∧
    ({ up with txn := { up.txn with targets := [(0xC1, { TTarget.zero with slots := [⟨9, 0, some { TPkt.blank with tag := 5, gen := 2 },
      none, none, 0⟩] })] } } : State).tileSlot 9 5 = some 2 := by decide +kernel

theorem witness_ReadAndDescribeAnswer :
    up.serves (fw 3) = true ∧ (up.check (fw 3) 0x2200 1 .read 0).toOption.isSome = true ∧
    err (up.check (fw 1) 0x2200 0x77 .read 0) = some .noSubindex ∧ (up.checkHead (fw 3) 0x2200 1).toOption.isSome = true := by decide +kernel

theorem witness_AccessBelowItsLevelIsRefused :
    up.serves (fw 1) = true ∧ isPeer (fw 1).path = false ∧ up.pathLimit (fw 1).path ≠ 7 ∧ up.bootRuns = false ∧
    (up.find 0x2130 3).toOption.isSome = true ∧ up.presence 0x2130 3 = .here ∧ (up.find 0x2130 3).toOption.map (·.wr) = some 2 ∧
    up.pathLimit (onBus 3).path < (onBus 3).level.toNat := by decide +kernel

theorem witness_StoppedRequestsDoNothing :
    err (up.check (fw 3) 0x9000 0 .write 4) = some .noObject ∧ err (up.check (fw 3) 0x2200 1 .upload 0) = some .length ∧
    servicePath (fw 3).path = false ∧ err (up.check (fw 3) 0x2200 1 .download 0) = some .length ∧ up.firmwareRuns = true ∧
    (up.find 0x1411 1).toOption.isSome = true ∧ up.presence 0x1411 1 = .here := by decide +kernel

theorem witness_PlainObjectsAreStored :
    [Obj.coreBudget, Obj.faultNotify, Obj.recPolicy, Obj.traceMatch, Obj.watchCfg, Obj.wardPolicy 3, Obj.probeMatch 5,
      Obj.probeMask 5, Obj.service 2, Obj.mirrorAll 1].all (takes up (fw 3)) = true := by decide +kernel

theorem witness_InitOpensATransfer :
    up.dict.transfers.length < 8 ∧ (up.check (fw 3) 0x1E03 4 .upload 0).toOption.isSome = true ∧
    (up.check (fw 3) 0x1E03 4 .download 0).toOption.map (fun r => decide (16 ≤ r.maxLen)) = some true ∧
    objKey 0x1E03 4 ≠ Obj.fwImage ∧ (rowOf (objKey 0x1E03 4)).map (fun r => (up.bytesOf r 0x1E03 4).length) = some 16 := by decide +kernel

/-- An upload of WARD_JUNCTIONS and a download of it are open. -/
def transferring : State := { up with dict := { up.dict with transfers :=
  [⟨1, .firmware, objKey 0x1E03 4, true, List.replicate 1500 0, 1500, 0, [], 5000000⟩,
   ⟨2, .firmware, objKey 0x1E03 5, false, [], 16, 0, [], 5000000⟩] } }

theorem witness_SegmentsMoveTransfers :
    transferring.serves (fw 3) = true ∧ (transferring.checkHead (fw 3) 0x1E03 4).toOption.isSome = true ∧
    (transferring.transferOf (fw 3) 0x1E03 4 1).map (fun t => (t.upload, t.next, decide (1024 * (t.next + 1) < t.size))) =
      some (true, 0, true) ∧
    (transferring.transferOf (fw 3) 0x1E03 5 2).map (fun t => (t.upload, t.next, t.size)) = some (false, 0, 16) ∧
    (rowOf (objKey 0x1E03 4)).map (fun r => (transferring.checkRest (fw 3) 0x1E03 4 .upload 0 r).toOption.isSome) = some true ∧
    (rowOf (objKey 0x1E03 5)).map (fun r => (transferring.checkRest (fw 3) 0x1E03 5 .download 0 r).toOption.isSome) = some true := by
  decide +kernel

/-- The last bytes of a download of WARD_JUNCTIONS, which its object takes. -/
theorem witness_SegmentsMoveTransfers_last :
    ((Objects.take 0x1E03 5 (List.replicate 16 0) (put { transferring with dict := { transferring.dict with transfers := [] } }
      [(.wardSt 4, 1)])).toOption.isSome) = true ∧ (BitVec.ofNat 32 (2 ^ 31 + 65536 * 16)).getLsbD 31 = true ∧
    (BitVec.ofNat 32 (2 ^ 31 + 65536 * 16)).toNat / 65536 % 2048 = 16 := by decide +kernel

/-- The bound of each clause on the data of a SEGMENT: one byte, and 1,024. -/
theorem witness_segment_lengths : (BitVec.ofNat 32 (65536 * 1)).toNat / 65536 % 2048 = 1 ∧
    (BitVec.ofNat 32 (65536 * 1024)).toNat / 65536 % 2048 = 1024 ∧ (BitVec.ofNat 32 (65536 * 1024)).getLsbD 31 = false := by decide

/-! ## Witnesses: counters that a write clears -/

theorem witness_ClearsSetTheirCountersToZero :
    [Obj.paceMin 1, Obj.tlinkCorr 9, Obj.bPortStatus 9, Obj.rnStatus 9, Obj.txnStat 9, Obj.probeCount 9, Obj.chStat (16 * 3 + 15),
      Obj.sockStat 9 31, Obj.bridgeErr 3, Obj.gateErr 7, Obj.collStat (32 * 7 + 31), Obj.wardRefusals, Obj.accessStat,
      Obj.supplyStat, Obj.storeCorr, Obj.hangStatus].all (takes up (fw 3)) = true ∧ 31 < up.cfg.sockets 9 := by decide +kernel

/-! ## Witnesses: supply regions and rails -/

theorem witness_RegionCommandsAct :
    takes up (fw 3) (Obj.regionCtrl 1) = true ∧ up.regionStateOf 1 = 2 ∧ up.gateRefusal 1 = 0 ∧
    (put up [(.regionSt 1, 3)]).regionStateOf 1 = 3 ∧ (put up [(.regionSt 1, 3)]).gateRefusal 1 = 7 ∧
    takes (put up [(.regionSt 1, 4)]) (fw 3) (Obj.regionCtrl 1) = true ∧ (put up [(.regionSt 1, 4)]).regionStateOf 1 = 4 ∧
    (put up [(.regionSt 1, 4)]).frozen = false ∧ (put up [(.regionSt 1, 1)]).regionStateOf 1 ≤ 1 := by decide +kernel

theorem witness_RegionsComeAndGoByThemselves :
    up.running = true ∧ 1 < up.cfg.regions ∧ (put up [(.regionSt 1, 1)]).regionStateOf 1 = 1 ∧
    up.pwr.unstarted.contains 1 = false ∧ up.pwr.below.contains 1 = false ∧ up.pwr.down.contains 1 = false ∧
    (put up [(.autoGate 1, 1), (.idleUs 1, 5)]).rd (.autoGate 1) = 1 ∧ up.warn = false ∧ up.safe = false ∧
    ((put up [(.autoGate 1, 1), (.idleUs 1, 5)]).advanceTo 5000000).gateRefusal 1 = 0 ∧
    (({ up with pwr := { up.pwr with wakeHold := [(1, 9000000)] } } : State).advanceTo 5000000).gateRefusal 1 = 7 := by decide +kernel

theorem witness_RailsAreAskedForAndWatched :
    takes up (fw 3) (Obj.railTarget 1) = true ∧ given up (fw 3) (Obj.railTarget 1) 650 = 650 ∧
    given up (fw 3) (Obj.railTarget 1) 850 = 850 ∧ given up (fw 3) (Obj.railTarget 1) 649 = 649 ∧
    given up (fw 3) (Obj.railTarget 1) 851 = 851 ∧ takes up (fw 3) (Obj.railApplied 1) = true ∧
    Tbl.get 0 ({ up with pwr := { up.pwr with railDiff := [(1, 5)] } } : State).pwr.railDiff 1 = 4 + 1 := by decide +kernel

/-- The rail of region 1 has been below warning for 4 ms. -/
def dipped : State := { up with pwr := { up.pwr with below := [1], dips := [(1, some (1000000, 2))] } }

theorem witness_SupplyDipsAreMetAndCounted :
    up.monitor (.reg 1) = some 1 ∧ up.monitor .aon = some 8 ∧ up.pwr.below.contains 8 = false ∧ up.coreRuns = true ∧
    dipped.warn = true ∧ dipped.pwr.below.contains 1 = true ∧ Tbl.get none dipped.pwr.dips 1 = some (1000000, 2) ∧
    dipped.pwr.down.contains 1 = false ∧ 2 ≤ dipped.regionStateOf 1 ∧ (put dipped [(.regionSt 1, 1)]).regionStateOf 1 = 1 := by
  decide +kernel

/-! ## Witnesses: the control plane -/

/-- Junction 9 has the channel to socket 2 of the core port at 11; a message, a NAK, a contribution and a release have arrived. -/
def calling : State := store warded [(Obj.portChan 9 0, 0x8002000B)]

def msg (kind : BitVec 2) (sock : BitVec 5) (src dest : BitVec 16) (words : List (BitVec 32)) : CtlMsg :=
  (⟨false, 3, kind, 0, 0, 0, sock, src, dest, 0, words⟩ : CtlMsg).sealed

/-- What arrives at local endpoint `u`. -/
def arriving (s : State) (u : Nat) (m : CtlMsg) : State := { s with ctl := { s.ctl with arrived := [(u, [m])] } }

theorem witness_MessagesCarryTheStampOfTheirPort :
    calling.cfg.sockets 9 ≠ 0 ∧ calling.adapterLive 9 .a = true ∧ calling.moves 9 = true ∧ calling.inputRoom (8 * 9 + 4) = true ∧
    calling.sendRefusal 9 11 2 0 = none := by decide +kernel

theorem witness_RefusedSendsAreAnsweredLocally :
    calling.sendRefusal 9 11 3 0 = some Nak.noChannel ∧ calling.sendRefusal 9 11 2 3 = some Nak.malformed ∧
    (Tbl.get [] calling.ctl.naks 9).length < 32 := by decide +kernel

/-- The first flit of a message on a wire, and a whole message in the buffer of an input. -/
def sent : State := { calling with ctl := { calling.ctl with
  wire := [(8 * 10 + 3, (msg 0 2 9 11 [5]).flits.map ctlEncode)], buf := [(8 * 9 + 4, [msg 0 2 9 11 [5]])] } }

def there : State := { calling with ctl := { calling.ctl with buf := [(8 * 11 + 3, [msg 0 2 9 11 [5]])] } }

/-- The input across the link of that message has its two messages. -/
def jammed : State := { sent with ctl := { sent.ctl with
  buf := [(8 * 9 + 4, [msg 0 2 9 11 [5]]), (8 * 10 + 3, List.replicate 2 (msg 0 2 9 11 [5]))] } }

/-- The die is number 8, and a message for die 0 stands at the junction of bridge 0, whose control group carries. -/
def leaving : State := put (store { warded with ctl := { warded.ctl with buf := [(8 * 4 + 4, [msg 0 2 9 11 [5]])] } }
  [(Obj.dieNumber, 8), (Obj.bridgeCfg 0, 1)]) [(.bridgeState 0, 2), (⟨Obj.bridgeStatus 0, 14, 1⟩, 1)]

theorem witness_ControlMessagesTravel_full :
    jammed.ctlPick 9 1 = some (4, msg 0 2 9 11 [5]) ∧ jammed.ctlRouteOf 9 (msg 0 2 9 11 [5]) = .mesh 1 ∧
    jammed.inputRoom (8 * 10 + facing 1) = false ∧ jammed.junctionActive 10 = true ∧ jammed.junctionLost 10 = false ∧
    leaving.moves 4 = true ∧ leaving.ctlPick 4 5 = some (4, msg 0 2 9 11 [5]) ∧
    leaving.ctlRouteOf 4 (msg 0 2 9 11 [5]) = .here 5 (0xB0 + 0) ∧ leaving.groupCarries 0 3 = true ∧ leaving.groupRoom 0 3 = true ∧
    takesNaks 11 = true ∧ (msg 0 2 9 11 [5]).nak = false := by decide +kernel

theorem witness_ControlMessagesTravel :
    sent.moves 10 = true ∧ (Tbl.get [] sent.ctl.wire (8 * 10 + 3)).length = 2 ∧ sent.injectedAt 0x04 10 (min 3 6) 0x3F = false ∧
    sent.ctlPick 9 1 = some (4, msg 0 2 9 11 [5]) ∧ sent.ctlRouteOf 9 (msg 0 2 9 11 [5]) = .mesh 1 ∧
    sent.cfg.neighbour 9 1 = some 10 ∧ sent.junctionActive 10 = true ∧ sent.inputRoom (8 * 10 + facing 1) = true ∧
    there.ctlPick 11 4 = some (3, msg 0 2 9 11 [5]) ∧ there.ctlRouteOf 11 (msg 0 2 9 11 [5]) = .here 4 11 := by decide +kernel

theorem witness_RoutesComeNearer : 0 < Integration.reference.cols ∧ 0 < Integration.reference.njs ∧
    47 < Integration.reference.njs := by decide

def withSock (s : State) (n k : Nat) (x : Sock) : State := { s with ctl := { s.ctl with socks := [(sockKey n k, x)] } }

theorem witness_CorePortsTakeMessages :
    (arriving calling 11 (msg 0 2 9 11 [5])).arrivedAt 11 = some (msg 0 2 9 11 [5]) ∧
    calling.cfg.endpointJunction 11 = some 11 ∧ calling.portRefusal 11 (msg 0 2 9 11 [5]) = none ∧
    calling.injectedAt 0x05 11 4 0x3F = false ∧
    ((calling.sock 11 2).store (calling.sockCfg 11 2) 9 [5]).toOption.isSome = true ∧
    (store calling [(Obj.sockCfg 11 2, 0)]).portRefusal 11 (msg 0 2 9 11 [5]) = some Nak.noSocket ∧
    (arriving calling 9 { msg 0 2 9 11 [5] with nak := true, words := [] }).moves 9 = true ∧ calling.adapterHeld 9 .a = false ∧
    (withSock calling 11 2 ⟨[.msg 0 9 [5, 6] 0], Acc.zero, none⟩).storeInjected 11 2 = false ∧
    (withSock calling 11 2 ⟨[.msg 0 9 [5, 6] 0], Acc.zero, none⟩).sock 11 2 = ⟨[.msg 0 9 [5, 6] 0], Acc.zero, none⟩ ∧
    (withSock calling 11 2 ⟨[.msg 0 9 [5, 6] 1], Acc.zero, none⟩).sock 11 2 = ⟨[.msg 0 9 [5, 6] 1], Acc.zero, none⟩ ∧
    calling.adapterLive 11 .a = true ∧ calling.junctionActive 11 = true ∧ calling.running = true ∧ calling.frozen = false ∧
    2 < calling.cfg.sockets 11 ∧ (Tbl.get [] calling.ctl.naks 11).length < 32 := by decide +kernel

/-- Socket 2 of junction 11 combines two contributions, and combiner 11 is enabled. -/
def combining : State := store calling [(Obj.sockCfg 11 2, 0x8400100201000200), (Obj.combCfg 11, 0x81000002),
  (Obj.sockCfg 11 31, 0xC000000000000000)]

theorem witness_ContributionsCombineAndRelease :
    combining.contribRefusal 11 11 (msg 1 2 9 11 [5]) = none ∧ combining.cfg.endpointJunction 11 = some 11 ∧
    combining.cfg.endpointJunction 0x10B = some 11 ∧ combining.contribRefusal 0x10B 11 (msg 1 0 9 0x10B [5]) = none ∧
    combining.injectedAt 0x05 11 6 0x3F = false ∧ (combining.sock 11 2).acc.count + 1 < sockExpect (combining.sockCfg 11 2) ∧
    sockExpect (combining.sockCfg 11 2) ≤ ((withSock combining 11 2 ⟨[], ⟨[5], 1, false⟩, none⟩).sock 11 2).acc.count + 1 ∧
    combining.releaseBarred 11 11 = false ∧ combining.releaseBarred 11 10 = true ∧
    (msg 0 31 0x10B 11 [5]).isRelease = true ∧ combining.outerFails 11 4 (msg 0 31 0x10B 11 [5]) = false ∧
    sockKind (combining.sockCfg 11 31) = 3 ∧ combining.endpointWard 11 11 3 = true ∧
    combining.endpointUnready 11 11 3 = false ∧
    ((combining.setComb 11 { combining.comb 11 with releases := [(11, [5]), (10, [5])] }).comb 11).releases = [(11, [5]), (10, [5])] ∧
    (arriving combining 11 (msg 0 31 0x10B 11 [5])).arrivedAt 11 = some (msg 0 31 0x10B 11 [5]) := by decide +kernel

/-- Counter 2 of engine 0 and of gate 0 belongs to ward 3, which may use host port 0, where an interrupt waits. -/
def counting : State := store { warded with ctl := { warded.ctl with irq := [(0, { IrqState.zero with queue := [(5, 3)] })] } }
  [(Obj.dmaTripWard 0 2, 0x83), (Obj.collTripWard 0 2, 0x83), (Obj.hostWardMask 0, 0xFFFF)]

theorem witness_InterruptsAndIncrementsArrive :
    counting.moves 8 = true ∧ counting.cfg.endpointJunction 0x90 = some 8 ∧ counting.outerFails 8 6 (msg 0 0 9 0x90 [5]) = false ∧
    (arriving counting 0x90 (msg 0 0 9 0x90 [5])).arrivedAt (0x90 + 0) = some (msg 0 0 9 0x90 [5]) ∧
    counting.endpointWard 0x90 8 3 = true ∧ counting.endpointUnready 0x90 8 3 = false ∧ counting.cfg.unitAt 3 0 = some 8 ∧
    (Tbl.get IrqState.zero counting.ctl.irq 0).queue = [(5, 3)] ∧ (Tbl.get IrqState.zero counting.ctl.irq 0).waiting = [] ∧
    counting.adapterLive 8 .b = true ∧ counting.junctionActive 8 = true ∧ counting.running = true ∧ counting.frozen = false := by
  decide +kernel

theorem witness_InterruptsAndIncrementsArrive_increments :
    counting.cfg.endpointJunction 0x98 = some 9 ∧ counting.moves 9 = true ∧ counting.outerFails 9 6 (msg 2 2 9 0x98 [5]) = false ∧
    fget (counting.obj (Obj.dmaTripWard 0 2)) 7 1 = 1 ∧ fget (counting.obj (Obj.dmaTripWard 0 2)) 0 4 = 3 ∧
    counting.cfg.endpointJunction 0x80 = some 3 ∧ counting.moves 3 = true ∧ counting.outerFails 3 5 (msg 2 2 9 0x80 [5]) = false ∧
    fget (counting.obj (Obj.collTripWard 0 2)) 7 1 = 1 ∧ fget (counting.obj (Obj.collTripWard 0 2)) 0 4 = 3 ∧
    counting.junctionLost 9 = false ∧ counting.junctionLost 3 = false ∧ counting.wardReclaiming 3 = false ∧
    (put counting [(.wardSt 3, 3)]).wardReclaiming 3 = true ∧ fget (counting.obj (Obj.dmaTripWard 0 1)) 7 1 = 0 ∧
    counting.outerFails 9 6 { msg 2 2 9 0x98 [5] with outer := (msg 2 2 9 0x98 [5]).outer + 1 } = true ∧ (msg 2 2 9 0x98 [5, 6]).words.length ≠ 1 ∧
    counting.injectedAt 0x05 9 5 0x3F = false ∧ counting.injectedAt 0x05 9 6 0x3F = false ∧ (4 : BitVec 4).toNat ≠ 3 := by decide +kernel

/-- Ranks rise from junction 9 to 11, and the write of a channel to another die waits. -/
def ranked : State := store { warded with ctl := { warded.ctl with checks := [⟨0x1689, 1, 0x8002040B, 4000000, fw 3⟩] } }
  [(Obj.portRank 9, 1), (Obj.portRank 10, 0), (Obj.portRank 11, 2), (Obj.dieMap, 3)]

theorem witness_SocketsChannelsAndRanksAreSetUp :
    takes ranked (fw 3) (Obj.sockCfg 9 31) = true ∧ 31 < ranked.cfg.sockets 9 ∧ (ranked.sock 9 31).busy = false ∧
    ranked.sockCfgBad 9 31 (given ranked (fw 3) (Obj.sockCfg 9 31) 0 &&& 0xFFFFFFFFFFFFFF00) = false ∧
    ((withSock ranked 9 31 ⟨[.msg 0 9 [5, 6] 0], Acc.zero, none⟩).sock 9 31).busy = true ∧
    ranked.sockCfgBad 9 30 0xC000000000000000 = true ∧ chanTable 0x1689 = some (9, Obj.portChan 9 0) ∧
    (ranked.cfg.endpointJunction 9).isSome = true ∧ takes ranked (fw 3) (chanKey 0x1689 63) = true ∧
    given ranked (fw 3) (chanKey 0x1689 63) 0x8002000B = 0x8002000B ∧
    ranked.chanWardClash 9 (Obj.portChan 9 0 + 63) 0x8002000B (askerOf (fw 3)) = none ∧ ranked.chanBad 9 0x8002000B = none ∧
    ranked.localRank 9 = some 1 ∧ ranked.localRank 11 = some 2 ∧ ranked.localRank 10 = some 0 ∧ ranked.chanBad 9 0x8002040B = none ∧
    (ranked.takeCheck 0x1689 1).isSome = true ∧ rankTable 0x1689 = some (9, Obj.portRank 9) ∧
    takes ranked (fw 3) (Obj.portRank 9) = true ∧ rankTable 0x1635 = some (0x91, Obj.hostRank 1) ∧ chanTable 0x1635 = none ∧
    (ranked.cfg.endpointJunction 0x90).isSome = true ∧ takes ranked (fw 3) (Obj.hostRank 0) = true ∧
    ranked.chanWardClash 9 (Obj.portChan 9 0 + 1) ((0x8002040B : BitVec 32).setWidth 64) (askerOf (fw 3)) = none ∧
    (store ranked [(Obj.gateChan 0 1, 0x8082000B)]).chanWardClash 0x80 (Obj.gateChan 0 0 + 1) ((0x8062040B : BitVec 32).setWidth 64)
      (askerOf (fw 3)) = some .inUse ∧ ranked.firmwareRuns = true ∧ ranked.rankAnswerOf 11 3 = .rank 2 := by decide +kernel

/-- A channel of rank 5 enters junction 9 from another die. -/
theorem witness_SocketsChannelsAndRanksAreSetUp_incoming : ∀ s : State, s.ctl.incoming = [⟨0x0409, 0, s.ep 9, 5⟩] → s.risesTo 9 1 = false := by
  intro s h
  unfold State.risesTo
  rw [h]
  simp

/-- No channel of `ranked` is listed. -/
theorem ranked_unlisted : (ranked.objs.all (fun p => decide (p.1 < 0x162000) || (decide (0x163400 ≤ p.1) && decide (p.1 < 0x168041)) ||
    p.1 % 256 == 0x81 || decide (0x168041 + 256 * 0x78 ≤ p.1))) = true ∧ ranked.cfg.njs = 48 := by decide +kernel

theorem ranked_chan {k : Nat} (h : (0x168041 ≤ k ∧ k < 0x168041 + 256 * 0x78 ∧ 0x41 ≤ k % 256 ∧ k % 256 ≤ 0x80) ∨
    (0x162000 ≤ k ∧ k < 0x163000 ∧ 1 ≤ k % 256 ∧ k % 256 ≤ 0x40) ∨ (0x163000 ≤ k ∧ k < 0x163400 ∧ 1 ≤ k % 256 ∧ k % 256 ≤ 0x40)) :
    ranked.obj k = 0 := by
  rw [State.obj_of_unlisted, Obj.dflt_chan h]
  intro p hp
  have := List.all_eq_true.mp ranked_unlisted.1 p hp
  simp only [Bool.or_eq_true, Bool.and_eq_true, decide_eq_true_eq, beq_iff_eq] at this
  omega

theorem witness_SocketsChannelsAndRanksAreSetUp_rises : ranked.risesTo 9 1 = true ∧ ranked.risesFrom 9 (Obj.portChan 9 0) 1 = true := by
  constructor
  · unfold State.risesTo
    rw [Bool.and_eq_true, ranked_unlisted.2]
    refine ⟨?_, by decide +kernel⟩
    simp only [List.all_eq_true, List.mem_append, List.mem_map, List.mem_range]
    intro p hp i hi
    have hz : ranked.obj (p.2 + i) = 0 := by
      apply ranked_chan
      rcases hp with (⟨n, hn, rfl⟩ | ⟨n, hn, rfl⟩) | ⟨n, hn, rfl⟩ <;>
        simp only [Obj.portChan, Obj.gateChan, Obj.dmaChan] <;> omega
    simp [hz, fget]
  · unfold State.risesFrom
    simp only [List.all_eq_true, List.mem_range]
    intro i hi
    have hz : ranked.obj (Obj.portChan 9 0 + i) = 0 := ranked_chan (by simp only [Obj.portChan]; omega)
    simp [hz, fget]

/-! ## Witnesses: crossing schedules -/

/-- The bytes of a list of 16-bit words. -/
def halves (l : List Nat) : List Byte := l.flatMap (fun x => leBytes 2 x)

/-- An image for ward 3 with the empty record of junction 9 (R130 to R135): the digest is that of no flows, SHA-384 of nothing. -/
def emptyImage : List Byte :=
  halves [1, 0x80, 360, 0, 0xABCD, 0, 0x3003, 0, 0, 0, 0, 1, 0, 0, 128, 0, 128, 0, 160, 0, 160, 0] ++ List.replicate 36 0 ++
    beBytes 48 0x38b060a751ac96384cd9327eb1b1e36a21fdb71114be07434c0cc7bf63f6e1da274edebfe76f65fbd51ad2f14898b95b ++
    halves [9, 0, 0, 0, 0, 0, 0, 0, 0, 0, 0, 0, 0, 0, 0x16c8, 0x5fed] ++ List.replicate 200 0

/-- The load of ward 3 is checked, with an image. -/
def loading : State := put { warded with ten := { warded.ten with scheds := [(3, { SchedState.zero with image := emptyImage })] } }
  [(.ldState 3, 2)]

/-- The image fails its first check, and the owner's. -/
theorem witness_LoadsEndCheckedOrFailed :
    loading.rd (.ldState 3) = 2 ∧ loading.frozen = false ∧ loading.firmwareRuns = true ∧ State.reset.firmwareRuns = false ∧ (loading.sched 3).image = emptyImage ∧
    (parseImage emptyImage).toOption.map (loading.imageFail 3 (loading.sched 3).package) = some none ∧
    (parseImage (emptyImage.drop 1)).toOption.isNone = true ∧
    ((parseImage emptyImage).toOption.bind (up.imageFail 3 false)).isSome = true := by decide +kernel

/-- The states of ward 3: CHECKED, ARMED, SWAPPING. -/
def checkedW : State := put loading [(.ldState 3, 3)]
def armedW : State := put loading [(.ldState 3, 4)]
def swappingW (target forced : List Nat) : State := put { loading with ten := { loading.ten with
  scheds := [(3, { SchedState.zero with target := target, forced := forced, forcing := target.isEmpty })] } }
  [(.ldState 3, 5), (.swapBits 9, 8191), (.swapBits 10, 8191), (.swapBits 11, 8191)]
def pendingW (image : List Byte) (damaged : List Nat) : State := put { checkedW with ten := { checkedW.ten with
  damaged := damaged, scheds := [(3, { SchedState.zero with armPending := true, image := image })] } } []

theorem witness_EpochsAreArmedAndSwapped :
    takes checkedW (fw 3) (Obj.epochCtrl 3) = true ∧ checkedW.rd (.ldState 3) = 3 ∧ (checkedW.sched 3).armPending = false ∧
    ((pendingW emptyImage []).sched 3).armPending = true ∧ (pendingW emptyImage []).frozen = false ∧
    (pendingW emptyImage []).stagedGen 3 = (pendingW emptyImage []).obj Obj.distGen ∧
    (pendingW emptyImage []).stagedDamaged 3 = none ∧ ((pendingW emptyImage []).stagedDamaged 3 = none) ∧
    (pendingW emptyImage [18 + (pendingW emptyImage []).stagedSel 9]).stagedDamaged 3 = some 9 ∧
    (pendingW (List.replicate 20 1) []).stagedGen 3 ≠ (pendingW (List.replicate 20 1) []).obj Obj.distGen ∧
    armedW.rd (.ldState 3) = 4 ∧ armedW.allStopped 3 = true ∧ armedW.frozen = false ∧
    (swappingW [9] []).wardOf 9 = some 3 ∧ ((swappingW [9] []).sched 3).target.contains 9 = true ∧
    (swappingW [9] []).rd (.ldState 3) = 5 ∧ (swappingW [9] []).moves 9 = true ∧
    ((swappingW [] []).wardJunctions 3).all (swappingW [] []).swapped = true := by decide +kernel

/-- A command of the block that has come to junction 9. -/
def commanded (s : State) (c : BitVec 5) : State := arriving s 0x209 (msg 3 c 0xC1 0x109 [0])

theorem witness_EpochsAreArmedAndSwapped_commands :
    (commanded (swappingW [9] []) Cmd.target).commandAt 9 = some (msg 3 Cmd.target 0xC1 0x109 [0]) ∧
    (commanded (swappingW [9] []) Cmd.target).commandDue 9 (msg 3 Cmd.target 0xC1 0x109 [0]) = true ∧
    (commanded (swappingW [] []) Cmd.target).commandDue 9 (msg 3 Cmd.target 0xC1 0x109 [0]) = false ∧
    (commanded (swappingW [9] []) Cmd.target).moves 9 = true ∧ (msg 3 Cmd.target 0xC1 0x109 [0]).ward = 3 ∧
    (msg 3 Cmd.target 0xC1 0x109 [0]).sock = Cmd.target ∧ (commanded (swappingW [] [9]) Cmd.forceNull).junctionLost 9 = false ∧
    (commanded (swappingW [] [9]) Cmd.forceNull).commandAt 9 = some (msg 3 Cmd.forceNull 0xC1 0x109 [0]) ∧
    (commanded (swappingW [] [9]) Cmd.forceNull).moves 9 = true ∧
    (put (swappingW [] [9]) [(.regionSt 0, 1)]).junctionLost 9 = true ∧ (put (swappingW [] [9]) [(.regionSt 0, 1)]).frozen = false ∧
    (msg 3 Cmd.release 0xC1 0x109 []).sock = Cmd.release ∧ checkedW.rd (.ldState 3) ≠ 4 ∧
    ({ SchedState.zero with package := true } : SchedState).package = true := by decide +kernel

/-- A flit on a link that is a marker. -/
theorem witness_EpochsAreArmedAndSwapped_marker : (⟨0, 0x80, 0⟩ : TFlit).isMarker = true ∨ (⟨0, 2, 0⟩ : TFlit).isMarker = true ∨
    (⟨0, 8, 0⟩ : TFlit).isMarker = true := by decide +kernel

theorem witness_CancelLeavesTheLoadIdle : takes checkedW (fw 3) (Obj.epochCtrl 3) = true ∧ checkedW.rd (.ldState 3) = 3 ∧
    checkedW.wardJunctions 3 = [9, 10, 11] ∧ takes armedW (fw 3) (Obj.epochCtrl 3) = true ∧ armedW.rd (.ldState 3) = 4 ∧
    takes (swappingW [] []) (fw 3) (Obj.epochCtrl 3) = true ∧ (swappingW [] []).rd (.ldState 3) = 5 := by decide +kernel

theorem witness_ForcedSwapsRun : takes checkedW (fw 2) (Obj.epochCtrl 3) = true ∧ checkedW.rd (.ldState 3) = 3 ∧
    takes (store checkedW [(Obj.pathCap, 0xDB)]) (inBand 3) (Obj.epochCtrl 3) = true ∧ (swappingW [] [9]).wardOf 9 = some 3 ∧
    ((swappingW [] [9]).sched 3).forced.contains 9 = true ∧ (swappingW [] [9]).frozen = false ∧
    (swappingW [] [9]).regionStateOf ((swappingW [] [9]).regionOf 9) ≤ 2 ∧ ((swappingW [] []).sched 3).forcing = true ∧
    ((swappingW [] []).sched 3).forced = [] := by decide +kernel

/-! ## Witnesses: transactions -/

theorem witness_RenumberingSwapsTwoNumbers :
    takes up (fw 3) (Obj.arbRenumber 0) = true ∧
    given up (fw 3) (Obj.arbRenumber 0) 0x00090005 = 0x00090005 ∧ up.cfg.initiators.contains 9 = true ∧
    up.cfg.initiators.contains 0x300 = false ∧ up.arbNumber 0xA0 9 ≠ 5 ∧ up.ep 9 = BitVec.ofNat 16 (fget (0x00090005 : Val) 16 16) ∧
    up.ep 9 ≠ BitVec.ofNat 16 (fget (0x04090005 : Val) 16 16) := by decide +kernel

/-- Window 7 of host port 0 is valid; a new value waits for its lines, of which none is left, or one. -/
def waiting (next stop : Nat) : CohWait := ⟨0, 7, 0, some (fw 3), next, stop, 1, [], 4000000, false⟩

def windowed (waits : List CohWait) : State := store { warded with txn := { warded.txn with cohWaits := waits } }
  [(Obj.cohWindow 0 7, 0x8C00000000000000)]

theorem witness_PlaneObjectsAreWritten :
    takes up (fw 3) (Obj.tapCtrl 9) = true ∧ takes up (fw 3) (Obj.poolSize 0) = true ∧
    given up (fw 3) (Obj.poolSize 0) 0x10101010 = 0x10101010 ∧ given up (fw 3) (Obj.poolSize 0) 0x3D010101 = 0x3D010101 ∧
    given up (fw 3) (Obj.poolSize 0) 0x3E010100 = 0x3E010100 ∧ up.cfg.hsnp.getD 0 false = true ∧
    takes (windowed []) (fw 3) (Obj.cohWindow 0 7) = true ∧ (windowed []).cohBad 0 7 (given (windowed []) (fw 3) (Obj.cohWindow 0 7) 0) = false ∧
    fget (given (windowed []) (fw 3) (Obj.cohWindow 0 7) 0) 63 1 = 0 ∧ fget ((windowed []).obj (Obj.cohWindow 0 7)) 63 1 = 1 ∧
    (windowed []).obj (Obj.cohWindow 0 7) ≠ 0 ∧ fget ((windowed []).obj (Obj.cohWindow 0 6)) 63 1 = 0 ∧
    (windowed []).cohBad 0 6 (given (windowed []) (fw 3) (Obj.cohWindow 0 6) 0x8C00000000000000) = true ∧
    ({ up.cfg with hsnp := [false] } : Integration).hsnp.getD 0 false = false ∧
    (windowed [waiting 4 4]).txn.cohWaits.find? (fun c => c.port == 0 && c.index == 7) = some (waiting 4 4) ∧
    (windowed [waiting 4 4]).windowReady (waiting 4 4) = true ∧ (windowed [waiting 3 4]).windowReady (waiting 3 4) = false ∧
    (windowed [{ waiting 4 4 with acc := none }]).windowReady { waiting 4 4 with acc := none } = true := by decide +kernel

/-- A packet with its end-to-end code. -/
def coded (p : TPkt) : TPkt := { p with outer := p.code_ }

/-- Packets between junction 9 and memory attachment 0, at junction 9 as well. -/
def pkt (kind : TKind) (src dest : BitVec 16) : TPkt := coded { TPkt.blank with kind := kind, ward := 3, tag := 5, src := src, dest := dest }

/-- A packet that a network has brought to unit `u`. -/
def brought (s : State) (u : Nat) (p : TPkt) : State := { s with txn := { s.txn with arrived := [(arriveKey p.kind.net u, [p])] } }

/-- A transaction of ward 3 with attachment 0, at a stage. -/
def openTo (stage : Nat) (op : BitVec 4) : OpenTxn := ⟨op, 0x1000, 0, 5, 0, 0, 3, [], [], 0xA0, 4000000, stage, 1, false, .port⟩

def withInit (s : State) (u : Nat) (x : TInit) : State := { s with txn := { s.txn with inits := [(u, x)] } }
def withTarget (s : State) (u : Nat) (x : TTarget) : State := { s with txn := { s.txn with targets := [(u, x)] } }

/-- A slot held for junction 9, with a request being served or not. -/
def slotOf (rq : Option TPkt) (since : Option Nat) : Slot := ⟨9, 0, rq, none, since, 6⟩

/-- The four slots of level 0 of core port 11 are used. -/
def crowded : State := withTarget warded 11 { TTarget.zero with slots := List.replicate 4 (slotOf none none) }

theorem witness_SlotsAreReservedGrantedAndReturned :
    ((brought warded 11 (pkt .reserve 9 11)).takeKind .reserve 11).toOption.map Prod.fst = some (pkt .reserve 9 11) ∧
    arbited 11 = false ∧ ((brought warded 11 (pkt .reserve 9 11)).target 11).latches = [] ∧
    ((brought warded 11 (pkt .reserve 9 11)).target 11).used 11 0 < (brought warded 11 (pkt .reserve 9 11)).poolSize 11 0 ∧
    (brought crowded 11 (pkt .reserve 9 11)).poolSize 11 0 ≤ ((brought crowded 11 (pkt .reserve 9 11)).target 11).used 11 0 ∧
    ((brought crowded 11 (pkt .giveBack 9 11)).takeKind .giveBack 11).toOption.isSome = true ∧
    ((brought crowded 11 (pkt .giveBack 9 11)).target 11).slots.find? (fun x => x.src == 9 && poolOf 11 x.level == 0 && x.rq.isNone) =
      some (slotOf none none) ∧
    ((brought warded 9 (pkt .grant 0xA0 9)).takeKind .grant 9).toOption.isSome = true ∧
    ((withInit warded 9 { TInit.zero with open_ := [openTo 1 0] }).tinit 9).waiting (claimKey 0xA0 0) = [openTo 1 0] ∧
    ((brought warded 9 (pkt .backoff 0xA0 9)).takeKind .backoff 9).toOption.isSome = true ∧
    (Tbl.get Claim.zero ((withInit warded 9 { TInit.zero with claims := [(claimKey 0xA0 0, ⟨false, 6000001⟩)] }).tinit 9).claims
      (4 * (0xA0 % 1024) + poolOf (0xA0 % 1024) 0)).retryAt = 6000000 + 1 ∧ (warded.waitDue 6000000).isSome = true ∧
    (0x3F0 : Nat) ≤ 0x3F1 ∧ Tbl.get 0 ({ warded.dict with tries := [(0x3F1, 6000001)] } : DictState).tries 0x3F1 = 6000000 + 1 ∧
    (warded.target 11).latches = [] := by decide +kernel

/-- The head packet of a link, and packets in the buffers of junction 9: for the router to the east, and for unit A. -/
def linked (net : Net) (p : TPkt) : State := { warded with txn := { warded.txn with links := [(tKey net 9 0, { TLink.zero with queue := [p] })] } }

def buffered (net : Net) (p : TPkt) : State := { warded with txn := { warded.txn with bufs := [(tKey net 9 0, [p])] } }

theorem witness_TransactionPacketsTravel :
    (linked .request (pkt .request 11 9)).moves 9 = true ∧
    ((linked .request (pkt .request 11 9)).tlink (tKey .request 9 0)).queue = [pkt .request 11 9] ∧
    Tbl.get [] (linked .request (pkt .request 11 9)).txn.bufs (tKey .request 9 0) = [] ∧
    (linked .request (pkt .request 11 9)).txnInjected .request 9 0 = false ∧ 0 < (netWidth .request).1 + (netWidth .request).2 + 1 ∧
    ((linked .data (pkt .data 11 9)).tlink (tKey .data 9 0)).pos = 0 ∧ (linked .data (pkt .data 11 9)).txnInjected .data 9 0 = false ∧
    (buffered .request (pkt .request 9 11)).txnPick .request 9 1 = some (0, pkt .request 9 11) ∧
    warded.cfg.neighbour 9 1 = some 10 ∧ warded.regionStateOf (warded.regionOf 10) = 2 ∧ warded.junctionLost 10 = false ∧
    (buffered .request (pkt .request 11 9)).txnPick .request 9 4 = some (0, pkt .request 11 9) ∧
    (buffered .snoop (pkt .snoop 0x90 9)).txnPick .snoop 9 4 = some (0, pkt .snoop 0x90 9) ∧
    (buffered .snoop (pkt .snoop 0x90 9)).txnOuterFails 9 9 (pkt .snoop 0x90 9) = false ∧
    (buffered .snoop (pkt .snoop 0x90 9)).txnOuterFails 9 9 { pkt .snoop 0x90 9 with outer := 0 } = true ∧
    (buffered .snoop (pkt .snoop 0x90 9)).drives 9 .a = true ∧ (buffered .snoop (pkt .snoop 0x90 9)).txn.snoops = [] ∧
    (pkt .snoop 0x90 9).dest.toNat % 1024 = 9 ∧ ((buffered .request (pkt .request 9 11)).tlink (tKey .request 10 (facing 1))).queue.length < 2 ∧
    2 ≤ ({ TLink.zero with queue := List.replicate 2 (pkt .request 9 11) } : TLink).queue.length ∧
    (put warded [(.regionSt 0, 1)]).junctionLost 10 = true := by decide +kernel

/-- The head of a data packet, with its kind. -/
def dataPkt (src dest : BitVec 16) (dkind : BitVec 2) : TPkt :=
  coded { TPkt.blank with kind := .data, ward := 3, tag := 5, src := src, dest := dest, dkind := dkind }

theorem witness_RequestsAndAnswersArrive :
    ((brought warded 11 (pkt .request 9 11)).takeKind .request 11).toOption.isSome = true ∧
    ((brought crowded 11 (pkt .request 9 11)).target 11).slots.find? (fun x => x.src == 9 && poolOf 11 x.level == poolOf 11 0 && x.rq.isNone) =
      some (slotOf none none) ∧ ((brought crowded 11 (pkt .request 9 11)).target 11).early = [] ∧
    ((brought warded 9 (pkt .completion 0xA0 9)).takeKind .completion 9).toOption.isSome = true ∧
    ((withInit warded 9 { TInit.zero with open_ := [openTo 2 1] }).tinit 9).open_.find? (fun o => o.stage == 2 && o.tag == 5 && o.gen == 0) =
      some (openTo 2 1) ∧ warded.cfg.unitJunction 9 = some 9 ∧ warded.moves 9 = true ∧
    ((brought warded 9 (dataPkt 0xA0 9 1)).takeArrived .data 9 (fun p => p.dkind != 2)).isSome = true ∧
    warded.txnOuterFails 9 9 (dataPkt 0xA0 9 1) = false ∧ warded.txnOuterFails 9 9 { dataPkt 0xA0 9 1 with outer := 0 } = true ∧
    warded.txnOuterFails 9 11 (dataPkt 9 11 0) = false ∧ warded.txnOuterFails 9 11 { dataPkt 9 11 0 with outer := 0 } = true := by
  decide +kernel

/-- What a core asks for: a read of 128 bytes at an address, under tag 5. -/
def asks (op : BitVec 4) (addr : BitVec 64) : TxnArgs := ⟨op, addr, 0, 5, 0, [], []⟩
def shape (op : BitVec 4) (addr : BitVec 64) : TAsk := ⟨op, addr, 0, warded.levelOf 3 0, 3, [], []⟩

theorem witness_TransactionsAreAcceptedAnsweredAndTimed :
    warded.cfg.corePort 9 = true ∧ warded.adapterLive 9 .a = true ∧ warded.moves 9 = true ∧ (warded.tinit 9).tagFree 5 = true ∧
    (warded.tinit 9).open_.length + (warded.tinit 9).ready.length < warded.cfg.outstanding 9 ∧ warded.portClosed 9 = false ∧
    (warded.wardOf 9).getD 0 = 3 ∧ warded.breaksRules 9 (shape 0 1).shaped = true ∧ warded.breaksRules 9 (shape 0 0).shaped = false ∧
    warded.breaksRules 9 (shape 6 0).shaped = false ∧ up.portClosed 9 = true ∧ (warded.tinit 0xC1).tagFree 5 = true ∧
    ((withInit warded 9 { TInit.zero with open_ := [openTo 0 0] }).tinit 9).open_.find? (fun o => o.stage == 0) = some (openTo 0 0) ∧
    ((withInit warded 9 { TInit.zero with ready := [⟨5, 0, [1, 2]⟩] }).tinit 9).ready = [⟨5, 0, [1, 2]⟩] ∧
    ((withInit warded 9 { TInit.zero with ready := [⟨5, 0, [1]⟩] }).tinit 9).ready = [⟨5, 0, [1]⟩] ∧
    warded.regionStateOf (warded.regionOf 9) ≠ 4 ∧
    ((withInit warded 9 { TInit.zero with open_ := [openTo 2 0] }).txnDue (4000000 + (warded.obj (Obj.txnTimeout 3)).toNat)).isSome = true ∧
    ((withInit warded 9 { TInit.zero with quarantine := [(openTo 2 0, 6000000)] }).txnDue 6000000).isSome = true ∧
    ((withInit warded 9 { TInit.zero with quarantine := [(openTo 2 0, 6000000)] }).tinit 9).quarantine.find? (fun q => q.1.tag == 5) =
      some (openTo 2 0, 6000000) := by decide +kernel

/-- Where the requests of junction 9 go: no unit, and the attachment that holds their address. -/
theorem witness_TransactionsAreAcceptedAnsweredAndTimed_routes :
    warded.routeOf 9 (shape 0 (1 <<< 60)).shaped = .none Status.noTarget ∧ Status.noTarget ≠ Status.wardRefused ∧ Status.noTarget ≠ 0 ∧
    warded.routeOf 9 (shape 0 0).shaped = .unit 0xA0 := by decide +kernel

def hostWard : State := store warded [(Obj.hostWardMask 0, 0xFFF7)]

/-- A command of attachment 0, and one of its own in progress. -/
def ma (write : Bool) (issued : Option (BitVec 10)) (beats : List (BitVec 4096)) : MaCmd :=
  ⟨9, 5, 0, false, write, 0, 1024, issued, beats, [], 0, 0, 1024, 0⟩

def withMas (s : State) (l : List MaCmd) : State := { s with txn := { s.txn with mas := [(0, l)] } }

/-- Slots whose request is being served since 4 ms. -/
def serving (u : Nat) : State := withTarget warded u { TTarget.zero with slots := [slotOf (some (pkt .request 9 11)) (some 4000000)] }

theorem witness_TargetsAnswerTheirSlots :
    up.cfg.unitAt 3 0 = some 8 ∧ up.moves 8 = true ∧ up.adapterLive 8 .b = true ∧ (up.tinit 0x90).tagFree 5 = true ∧
    (hostWard.obj (Obj.hostWardMask 0)).getLsbD (3 : BitVec 4).toNat = false ∧
    (hostWard.obj (Obj.hostWardMask 0)).getLsbD (2 : BitVec 4).toNat = true ∧ hostWard.wardReclaiming 2 = false ∧
    (serving 11).moves 11 = true ∧ (serving 11).cfg.corePort 11 = true ∧ (serving 11).adapterLive 11 .a = true ∧
    (serving 11).slotBehind 11 (5 : BitVec 8).toNat = some (pkt .request 9 11) ∧ up.cfg.unitAt 1 0 = some 9 ∧
    nextCmd [] ((withMas up [ma true none []]).masOf 0) = some (ma true none []) ∧
    ((List.range (up.cfg.maTags.getD 0 0)).map (BitVec.ofNat 10)).find?
      (fun t => !((withMas up [ma true none []]).masOf 0).any (fun x => x.issued == some t) &&
        !(withMas up [ma true none []]).owes (0xA0 + 0) t) = some 0 ∧
    readReserved ((withMas up [ma false none []]).masOf 0) + (ma false none []).size ≤ (up.obj Obj.maReadBuffer).toNat ∧
    ((withMas up [ma false (some 0) []]).masOf 0).find? (fun c => c.issued == some 0 && !c.write) = some (ma false (some 0) []) ∧
    (ma false (some 0) []).beats.length + 1 < blockBeats 1024 ∧ blockBeats 1024 ≤ (ma false (some 0) [7]).beats.length + 1 ∧
    ((withMas up [ma true (some 0) []]).masOf 0).find? (fun c => c.issued == some 0 && c.write) = some (ma true (some 0) []) ∧
    up.pin.inReset = false ∧ up.junctionLost 9 = false ∧ up.adapterLive 9 .b = true ∧ up.drives 8 .b = true ∧
    (serving 11).slotBehind 11 4 = none ∧
    (serving 0x90).slotBehind 0x90 (5 : BitVec 10).toNat = some (pkt .request 9 11) ∧
    ((serving 11).target 11).slots.find? (fun x => x.src == 9 && (x.rq.map (·.tag)) == some 5 && x.waitsBehind 11) =
      some (slotOf (some (pkt .request 9 11)) (some 4000000)) ∧
    ((serving 11).txnDue (4000000 + 2 * ((serving 11).obj (Obj.txnTimeout (pkt .request 9 11).ward.toNat)).toNat)).isSome = true := by
  decide +kernel

/-- Only junction 9 is the ward's; a home transaction, a snoop of the agent of host port 0 or a window write waits for it, in a coherent
window, and its port has been asked. -/
def snooping (f : TxnState → TxnState) : State :=
  store (put { up with txn := f up.txn } [(.wardSt 3, 2), (.owned 9, 1), (.owner 9, 3)]) [(Obj.cohWindow 0 7, 0x8C00000000000000)]

def homeTxn : HomeTxn := ⟨9, 5, 3, [4], 1, [9], 4000000, [], false, false, false⟩
def agentSnoop : AgentSnoop := ⟨0, 2, 1, 4, [9], 4000000, 0, none⟩
def windowWait : CohWait := { waiting 4 5 with waits := [9] }
def asked : CoreSnoop := ⟨9, 0x90, 1, 4, 0, 3, true⟩

/-- The reply of junction 9, with or without a line, and its line. -/
def replyPkt (hasData : Bool) : TPkt :=
  coded { TPkt.blank with kind := .snoopReply, ward := 3, tag := 1, code := 2, hasData := hasData, src := 9, dest := 0x90 }
def linePkt : TPkt := coded { TPkt.blank with kind := .data, dkind := 2, ward := 3, tag := 1, src := 9, dest := 0x90 }

def replied (hasData : Bool) : State := snooping (fun x => { x with
  homes := [(0, homeTxn)], arrived := [(arriveKey .snoop 0x90, [replyPkt hasData]), (arriveKey .data 0x90, [linePkt])] })

theorem witness_SnoopsAreSentAndCombined :
    (snooping id).cfg.unitAt 3 0 = some 8 ∧ (snooping id).moves 8 = true ∧ (snooping id).drives 8 .b = true ∧
    (snooping id).drives 9 .a = true ∧ (snooping (fun x => { x with snoops := [asked] })).txn.snoops.find?
      (fun x => x.core == 9 && x.home.toNat == 0x90 + 0 && x.stag == 1 && x.driven) = some asked ∧
    (snooping (fun x => { x with homes := [(0, homeTxn)] })).txn.homes.find? (fun h => h.1 == 0 && h.2.stag == 1 && h.2.waits.contains 9) =
      some (0, homeTxn) ∧
    (snooping (fun x => { x with agents := [agentSnoop] })).txn.homes.find? (fun h => h.1 == 0 && h.2.stag == 1 && h.2.waits.contains 9) =
      none ∧
    (snooping (fun x => { x with agents := [agentSnoop] })).txn.agents.find? (fun g => g.port == 0 && g.stag == 1 && g.waits.contains 9) =
      some agentSnoop ∧ agentSnoop.waits = [9] := by decide +kernel

theorem witness_SnoopsAreSentAndCombined_replies :
    ((replied false).takeArrived .snoop (0x90 + 0) (fun p => p.kind == .snoopReply && p.src.toNat == 9 && p.tag == (1 : BitVec 8).setWidth 10)).map
      Prod.fst = some (replyPkt false) ∧ (replyPkt false).hasData = false ∧ (replied false).txnOuterFails 8 0x90 (replyPkt false) = false ∧
    ((replied true).takeArrived .snoop (0x90 + 0) (fun p => p.kind == .snoopReply && p.src.toNat == 9 && p.tag == (1 : BitVec 8).setWidth 10)).map
      (fun x => (x.1 == replyPkt true, (x.2.takeArrived .data (0x90 + 0) (fun d => d.dkind == 2 && d.src.toNat % 1024 == 9 &&
        d.tag == (1 : BitVec 8).setWidth 10)).map (fun y => (y.1 == linePkt, y.2.txnOuterFails 8 0x90 y.1)))) =
      some (true, some (true, false)) ∧ (replied true).txnOuterFails 8 0x90 (replyPkt true) = false := by decide +kernel

theorem witness_SnoopsAreSentAndCombined_timeouts :
    (snooping (fun x => { x with homes := [(0, homeTxn)] })).txn.homes.find? (fun h => h.1 == 0 && h.2.stag == 1 && !h.2.waits.isEmpty) =
      some (0, homeTxn) ∧
    ((snooping id).txnDue (4000000 + ((snooping id).obj (Obj.txnTimeout 3)).toNat)).isSome = true ∧
    (snooping (fun x => { x with agents := [agentSnoop] })).txn.agents.find? (fun g => g.port == 0 && g.stag == 1 && !g.waits.isEmpty) =
      some agentSnoop ∧
    (snooping (fun x => { x with cohWaits := [windowWait] })).txn.agents.find? (fun g => g.port == 0 && g.stag == 1 && !g.waits.isEmpty) =
      none ∧
    (snooping (fun x => { x with cohWaits := [windowWait] })).txn.cohWaits.find? (fun c => c.port == 0 && c.stag == 1 && !c.waits.isEmpty) =
      some windowWait ∧ (snooping id).lineWard windowWait.next = some 3 ∧
    (snooping id).cfg.hsnp.getD 0 false = true ∧ up.lineWard (4 : BitVec 35).toNat = none ∧
    (snooping id).lineWard (4 : BitVec 35).toNat = some 3 ∧ (snooping id).snoopers 3 0x3FF = [9] := by decide +kernel

/-! ## Witnesses: services, mailboxes and the management bus -/

/-- Power granted to one endpoint, and a budget. -/
def powered (budget : Nat) : State := store { warded with pwr := { warded.pwr with grants := [(10, { Grant.zero with power := 100 })] } }
  [(Obj.coreBudget, BitVec.ofNat 64 budget)]

theorem witness_ServicesTakeTheirMessages :
    (arriving (powered 200) 0xC0 (msg 0 0 9 0xC0 [2, 100, 7])).arrivedAt 0xC0 = some (msg 0 0 9 0xC0 [2, 100, 7]) ∧
    (powered 200).running = true ∧ (powered 200).frozen = false ∧ (powered 200).outerFails up.cfg.mgmtAt 6 (msg 0 0 9 0xC0 [2, 100, 7]) = false ∧
    (powered 200).coreRuns = true ∧ ((powered 200).obj Obj.coreBudget).toNat ≠ 0xFFFF ∧
    (powered 200).grantedBut 9 + 100 ≤ ((powered 200).obj Obj.coreBudget).toNat ∧
    ((powered 199).obj Obj.coreBudget).toNat < (powered 199).grantedBut 9 + 100 ∧ (powered 200).warn = false ∧
    (arriving warded 0xC1 (msg 0 0 9 0xC1 [1, 2, 3])).arrivedAt 0xC1 = some (msg 0 0 9 0xC1 [1, 2, 3]) ∧ warded.dict.service.length < 16 ∧
    16 ≤ ({ warded.dict with service := List.replicate 16 ⟨9, 3, [1, 2, 3]⟩ }).service.length ∧ up.mailboxLive 0 = true ∧
    (up.mailbox 0).busy = false ∧ listedCmd (leAt (padTo 1152 [1]) 0 1) = true ∧
    (powered 200).outerFails up.cfg.mgmtAt 6 { msg 0 0 9 0xC0 [2, 100, 7] with outer := 0 } = true ∧
    (put (powered 200) [(.coreState, 3)]).coreRuns = false ∧ (msg 0 1 9 0xC0 [2, 100, 7]).sock ≠ 0 ∧
    ({ powered 200 with pwr := dipped.pwr } : State).warn = true ∧ ((powered 200).obj Obj.throttlePstate).toNat ≤ 15 ∧
    ({ (powered 200).grant 9 with sock := BitVec.ofNat 5 (2 / 65536), ward := 3 } : Grant).ward = 3 := by decide +kernel

theorem witness_ServicesTakeTheirMessages_turns :
    (let acc : Access := ⟨.service 9 3 0, 0, 3⟩; warded.servesNow acc) = true ∧
    (let acc : Access := ⟨.service 9 3 0, 0, 3⟩; (put warded [(.coreState, 3)]).servesNow acc) = false ∧
    listedCmd (leAt (padTo 1152 [9]) 0 1) = false ∧ up.servesNow ⟨.mailbox 0, 0, 0⟩ = true ∧
    (up.setMailbox 0 { up.mailbox 0 with busy := true }).mailboxLive 0 = true ∧
    ((up.setMailbox 0 { up.mailbox 0 with busy := true }).mailbox 0).busy = true := by decide +kernel

theorem witness_TheManagementBusIsServed :
    up.running = true ∧ up.pin.dynAddr = none ∧ up.busServed = true ∧ (0 : BitVec 32).setWidth 64 = up.obj Obj.mctpIana ∧
    up.dict.bus = none ∧ listedCmd (leAt ((1 : Byte) :: List.replicate 15 0) 0 1) = true ∧ (0x81 : Byte).getLsbD 7 = true ∧
    ({ up with boot := { up.boot with provFused := true, certFused := true, negotiated := true } } : State).busServed = true ∧
    (0 : BitVec 16).toNat ≤ up.certChain.length ∧ up.busBytes (16 + 4) ≤ 4096 ∧ 4096 < up.busBytes (4224 + 4) ∧
    State.reset.busServed = false ∧ up.servesNow ⟨.bus, 3, 0⟩ = true ∧ listedCmd 9 = false ∧
    ({ up with dict := { up.dict with bus := some (5, []) } } : State).dict.bus.isSome = true ∧
    ({ up with pin := { up.pin with dynAddr := some 8 } } : State).pin.dynAddr = some 8 ∧ (1 : BitVec 8).getLsbD 0 = true := by decide +kernel

/-! ## Witnesses: the tensor plane -/

/-- The schedule of junction 9: runs of flow 5 of three flits enter at A and N; N is passed to E and to a join with S, whose tally
comes in by W. -/
def entry (flow takers : Nat) : BitVec 64 := BitVec.ofNat 64 (flow * 2 ^ 52 + takers * 2 ^ 45 + 2)

def join9 (tally : Nat) : List Byte := halves [0x0200, 0x0005, 0x4006, 0x0000, 7, 0, 0, 0, 0x0020, tally, 0, 4] ++ List.replicate 8 0

def bank9 (tally : Nat) : Bank := ⟨[[], [0x00028000], [], [], [], []],
  [[entry 5 0x42], [], [entry 6 0x40], [entry 8 0x40], [entry 5 2], [entry 5 2]], [join9 tally]⟩

def flit6 : TFlit := ⟨8, 1, 0x00600000⟩
def flit (payload : BitVec 4096) (frame : BitVec 8) : TFlit := ⟨payload, frame, 0x00500000⟩

def tens (f : TensorState → TensorState) : State := { warded with ten := f { warded.ten with banks := [(18, bank9 0)] } }

def ingAt (x : Ingress) : State := tens (fun t => { t with ings := [(76, x)] })

/-- Junctions 9's ingresses are ward 3's, and a release finds them. -/
theorem witness_CancelLeavesTheLoadIdle_release : (9, 4) ∈ (tens id).wardIngresses 3 ∧ (9, 5) ∈ (tens id).wardIngresses 3 ∧
    (tens id).wardOf 9 = some 3 ∧ (tens id).rd (.ldState 3) ≠ 4 := by decide +kernel

theorem witness_TensorBeatsEnterAndLeave :
    warded.running = true ∧ (tens id).beatPort 9 .a = true ∧ (tens id).beatPort 9 .b = true ∧ (tens id).adapterLive 9 .a = true ∧
    (tens id).adapterLive 9 .b = true ∧ (tens id).tMoves 9 = true ∧ (tens id).portClosed 9 = false ∧
    (tens id).ingOpen 9 (sidePort .a) = true ∧ (tens id).ingOpen 9 (sidePort .b) = true ∧ (tens id).ingNext 9 4 = some 5 ∧
    (tens id).ingNext 9 5 = some 5 ∧ (tens id).cfg.adapterAt 9 / 2 % 2 = 1 ∧ ((tens id).ing 9 4).flow = 0 ∧
    ((tens id).ing 9 4).discard = false ∧ ((ingAt { Ingress.zero with refused := true }).ing 9 4).refused = true ∧
    (ingAt { Ingress.zero with flow := 6, taken := 1, flits := 3 }).ing 9 4 = { Ingress.zero with flow := 6, taken := 1, flits := 3 } ∧
    ((tens (fun t => { t with dlvs := [(77, ⟨[(5, flit 7 1)], []⟩)] })).dlvTake 9 (sidePort .b)).isSome = true ∧
    warded.cfg.corePort 9 = true ∧ warded.adapterHeld 9 .a = false ∧ warded.regionStateOf (warded.regionOf 9) ≠ 4 ∧
    (put up [(.regionSt 0, 4)]).regionStateOf (up.regionOf 9) = 4 ∧
    Tbl.get 0 ({ up with pwr := { up.pwr with wakeHold := [(1, 9000000)] } } : State).pwr.wakeHold 1 ≠ 0 ∧
    1 < up.cfg.regions ∧ 1 ≤ up.regionStateOf 1 ∧ up.regionStateOf 1 ≠ 4 ∧ up.pwr.down.contains 1 = false := by decide +kernel

/-- Flits at the inputs of junction 9: on the wire of N, or of S; and held at N, with the operands of N, S and W at the node. -/
def wired : State := tens (fun t => { t with ins := [(72, { TIn.zero with wire := [flit 7 1] }), (74, { TIn.zero with wire := [flit6] })] })
def heldFlits (tally : Nat) : State := { warded with ten := { warded.ten with
  banks := [(18, bank9 tally)]
  ins := [(72, { TIn.zero with held := some (flit 7 1), passed := 1 })]
  nodes := [(9, { TNode.zero with ops := [(0, some ⟨5, flit 7 1, 3⟩), (2, some ⟨6, flit 8 1, 3⟩), (3, some ⟨8, flit 9 1, 3⟩)] })] } }

theorem witness_TensorFlitsArePassedOn :
    wired.tMoves 9 = true ∧ (wired.tin 9 0).wire = [flit 7 1] ∧ wired.latchFree 9 0 = true ∧ wired.inReads 9 0 = false ∧
    wired.markerDue 9 0 = false ∧ [0, 1, 2, 3, 4, 0x3F].all (fun j => !wired.injectedAt 0x01 9 0 j) = true ∧ (flit 7 1).kind ≤ 1 ∧
    (wired.inList 9 0)[(wired.tin 9 0).entry]? = some (entry 5 0x42) ∧ (wired.tin 9 0).skip = 0 ∧
    (wired.cfg.tensorGroup 9 0).isNone = true ∧ ((flit 7 1).first = true → (flit 7 1).flow = inFlow (entry 5 0x42)) ∧
    (wired.tin 9 0).passed + 1 < inFlits (entry 5 0x42) ∧ (flit 7 1).last = false ∧ (flit 7 1).err = false ∧
    (inTakers (entry 5 2)).testBit 6 = false ∧ inTakers (entry 5 2) ≠ 0 ∧ (wired.tin 9 0).err = false ∧
    (flit 7 3).last = true ∧ (flit 7 3).err = false ∧ inFlits (entry 5 0x42) = 3 ∧ 5 < 6 := by decide +kernel

/-- The run of flow 6 goes to the node alone. -/
theorem witness_TensorFlitsArePassedOn_operand :
    (wired.tin 9 2).wire = [flit6] ∧ (wired.inList 9 2)[(wired.tin 9 2).entry]? = some (entry 6 0x40) ∧ inTakers (entry 6 0x40) = 64 ∧
    flit6.first = true ∧ flit6.flow = inFlow (entry 6 0x40) ∧ flit6.last = false ∧ (wired.node 9).stuck = false ∧
    (wired.node 9).drain.contains 2 = false ∧ wired.opLatch 9 2 = none ∧ wired.inSel 9 2 = wired.rnSel 9 ∧
    [0, 1, 2, 3, 4, 0x3F].all (fun j => !wired.injectedAt 0x01 9 2 j) = true ∧ (wired.cfg.tensorGroup 9 2).isNone = true ∧
    (wired.tin 9 2).skip = 0 ∧ (wired.tin 9 2).passed + 1 < inFlits (entry 6 0x40) := by decide +kernel

/-- A check of a store of junction 9 is spoilt; and its ward swaps with a flit on the wire of E. -/
def injecting (s : State) (sub : Nat) : State :=
  store s [(Obj.inject, BitVec.ofNat 64 (2 ^ 63 + 2 ^ 62 + 8 * 2 ^ 48 + 9 * 2 ^ 41 + 6 * 2 ^ 38 + sub * 2 ^ 32))]
def swapWire : State := put (tens (fun t => { t with ins := [(73, { TIn.zero with wire := [flit 7 1] })] })) [(.ldState 3, 5)]

theorem witness_TensorFlitsArePassedOn_faults :
    (injecting wired 0).inReads 9 0 = true ∧ ((injecting wired 0).storeDecode 9 0 64 7 []).bad = true ∧
    (injecting (heldFlits 0) 1).storeInjected 9 1 = true ∧ ((injecting (heldFlits 0) 1).node 9).flit = 0 ∧
    ((injecting (heldFlits 0) 1).storeDecode 9 1 64 7 []).bad = true ∧
    ((put (injecting (heldFlits 0) 1) [(.injAll, 0)]).storeDecode 9 1 64 7 []).bad = false ∧
    ((injecting (heldFlits 0) 0).storeDecode 9 0 32 6 []).bad = true ∧ ((heldFlits 0).storeDecode 9 0 32 6 []).bad = false ∧
    swapWire.markerDue 9 1 = true ∧ swapWire.inReads 9 1 = false ∧ swapWire.latchFree 9 1 = true ∧ (swapWire.tin 9 1).skip = 0 ∧
    (swapWire.tin 9 1).wire = [flit 7 1] ∧ (flit 7 1).isMarker = false ∧ swapWire.tMoves 9 = true := by decide +kernel

theorem witness_TensorFlitsArePassedOn_outputs :
    (((heldFlits 0).settleOut 9 1).tout 9 1).stuck = false ∧ ((heldFlits 0).settleOut 9 1).outRoom 9 1 = true ∧
    ((heldFlits 0).settleOut 9 1).swapGo 9 = false ∧
    (((heldFlits 0).settleOut 9 1).outList 9 1)[(((heldFlits 0).settleOut 9 1).tout 9 1).entry]? = some 0x00028000 ∧
    isPass 0x00028000 = true ∧ ((heldFlits 0).settleOut 9 1).entryFlit 9 1 0x00028000 = some (flit 7 1, 0) ∧
    ((heldFlits 0).settleOut 9 1).storeInjected 9 0 = false ∧ ((heldFlits 0).node 9).stuck = false ∧
    ((heldFlits 0).node 9).latch = none ∧ (heldFlits 0).nodeWaits 9 = false ∧
    ((heldFlits 0).joinList 9)[((heldFlits 0).node 9).join]? = some (join9 0) ∧ joinTallied (join9 0) = false ∧
    (heldFlits 0).operandFlits 9 (join9 0) = some [flit 7 1, flit 8 1] ∧ (heldFlits 0).storeInjected 9 1 = false ∧
    (heldFlits 0x7008).tallyFlit 9 = some (3, 8, flit 9 1) ∧ 64 * ((heldFlits 0x7008).cap 9 (joinSlot (join9 0x7008))).flits + 3 <
      joinBlocks (join9 0x7008) := by decide +kernel

/-! ## Witnesses: DMA engines -/

/-- Channel 15 of engine 0 (and its ring's channel number) belongs to ward 3, in a state. -/
def dma (st : Nat) : State := put (store warded [(Obj.chCfg 15, 0xFFFFFFFF)]) [(.chOwned 15, 1), (.chState 15, st)]

theorem witness_DmaCommandsFollowTheTable :
    [0, 1, 2, 3, 4, 5].all (fun st => takes (dma st) (fw 3) (Obj.chCtrl 15) && (dma st).rd (.chState 15) == st && (dma st).rd (.chOwned 15) == 1)
      = true ∧ (dma 0).warn = false ∧ ({ dma 0 with pwr := dipped.pwr } : State).warn = true ∧
    (put (dma 0) [(.chOwned 15, 0)]).rd (.chOwned 15) = 0 := by decide +kernel

/-- A done read of a descriptor, and a write-back's completion, of channel 1 of engine 0. -/
def finished (phase : DmaPhase) (x : DmaChan) (what : Nat) : State :=
  { dma 1 with
    dma := { (dma 1).dma with chans := [(1, { x with phase := phase })] }
    txn := { (dma 1).txn with dones := [⟨0x98, .engine 1 what 0, 0, 0, [1]⟩] } }

/-- A descriptor of one row of 128 bytes, and a channel that moves it. -/
def desc (bad : Byte) : List Byte := List.replicate 16 0 ++ [128] ++ List.replicate 20 0 ++ [0, bad] ++ List.replicate 24 0 ++ [128]
def moving (data : Option (List (BitVec 1024))) : State := { dma 1 with dma := { (dma 1).dma with
  chans := [(1, { DmaChan.zero with
    phase := .move, desc := desc 0, readRow := if data.isSome then 1 else 0
    reads := if data.isSome then [⟨0, 0, 1, 0, 0, 128, 0, data⟩] else [] })] } }

theorem witness_DmaEnginesWorkThroughTheirRings :
    (dma 1).engineMoves 0 = true ∧ (dma 1).cfg.dmaAt 0 = some 9 ∧
    (((finished .fetch { DmaChan.zero with fetching := some 0 } askFetch).engineSettle 0).chan 1).phase = .fetch ∧
    (((finished .fetch { DmaChan.zero with fetching := some 0 } askFetch).engineSettle 0).takeDone 0x98 (fun j what info => j == 1 &&
      (what == askFetch || what == askExt) &&
      !((finished .fetch { DmaChan.zero with fetching := some 0 } askFetch).engineSettle 0).staleFetch 1 what info)).isSome = true ∧
    (dma 1).rd (.chState 15) ≠ 3 ∧ descOwn (slotOfBeat 0 0) = false ∧ (dma 1).rd (.chPending 1) = 0 ∧
    (put (dma 1) [(.chPending 1, 1)]).rd (.chPending 1) = 1 ∧ (dma 1).descBad 1 (desc 1) [] = true ∧
    (((finished .writeBack DmaChan.zero askBack).engineSettle 0).takeDone 0x98 (fun j what _ => j == 1 && what == askBack)).map
      (fun x => (x.1.status, (x.2.2.2.2.chan 1).phase)) = some (0, .writeBack) ∧
    (((finished .haltBack { DmaChan.zero with fail := some ⟨3, 0, 1, 0, true⟩ } askBack).engineSettle 0).takeDone 0x98
      (fun j what _ => j == 1 && what == askBack)).map (fun x => ((x.2.2.2.2.chan 1).phase, (x.2.2.2.2.chan 1).fail)) =
      some (.haltBack, some ⟨3, 0, 1, 0, true⟩) ∧
    (store (dma 1) [(Obj.chCfg 1, 0xFFFFFFFF)]).mayRetry 1 Status.timeout 0 = true ∧ (dma 1).mayRetry 1 Status.noTarget 0 = false ∧
    ((dma 0).engineSettle 0).moverPick 0 = none ∧
    (Tbl.get [] (arriving warded 0x98 { msg 0 0 9 0x98 [] with nak := true, tag := 1 }).ctl.arrived 0x98).find? (fun m => m.nak) =
      some { msg 0 0 9 0x98 [] with nak := true, tag := 1 } := by decide +kernel

theorem witness_DmaEnginesWorkThroughTheirRings_mover :
    ((moving none).engineSettle 0).moverPick 0 = some 1 ∧ ((moving none).engineSettle 0).canRead 1 = true ∧
    (((moving none).engineSettle 0).chan 1).nextRead.isSome = true ∧
    ((moving (some [7])).engineSettle 0).moverPick 0 = some 1 ∧ ((moving (some [7])).engineSettle 0).canRead 1 = false ∧
    (((moving (some [7])).engineSettle 0).chan 1).nextBeat.isSome = true := by decide +kernel

/-! ## Witnesses: bridges and the package -/

/-- Bridge 0 in a state, its CTL group up or down. -/
def bridged (st group : Nat) : State := put (store warded [(Obj.bridgeCfg 0, 1)]) [(.bridgeState 0, st), (⟨Obj.bridgeStatus 0, 14, 1⟩, group)]

def replayed : State := { bridged 2 1 with brg := { (bridged 2 1).brg with groups := [(3, { BGroup.zero with again := 8 })] } }

theorem witness_BridgesTrainCarryAndFall :
    (bridged 0 0).running = true ∧ (bridged 0 0).cfg.unitAt 4 0 = some 4 ∧ (bridged 0 0).safeStart = false ∧
    (bridged 0 0).rd (.bridgeState 0) = 0 ∧ ((bridged 0 0).obj (Obj.bridgeCfg 0)).getLsbD 0 = true ∧ (bridged 0 0).junctionLost 4 = false ∧
    (bridged 0 0).bonded 0 0 = true ∧ rolesFilled 0xFF = false ∧ rolesFilled 0x40 = true ∧ (bridged 2 1).rd (.bridgeState 0) = 2 ∧
    (bridged 2 1).groupState 0 3 ≠ 0 ∧ (bridged 2 1).injectedAt 0x09 4 5 3 = false ∧
    8 ≤ ((replayed.bridgeDiscard 0 3).bgroup 0 3).again ∧ (((bridged 2 1).bridgeDiscard 0 3).bgroup 0 3).again < 8 ∧
    (bridged 2 1).groupRuns 0 3 = true ∧ (modulesOut 0xC0 0).testBit 6 = true ∧ rolesFilled (modulesOut 0x40 0x50) = true ∧
    modulesOut 0 0x50 = 1 ∧ rolesFilled (modulesOut 0xFF 0) = false ∧ rolesFilled ((bridged 3 1).badModules 0 ||| (modulesOut 0x40 0 &&& 0xFF)) = true ∧
    (bridged 1 1).rd (.bridgeState 0) = 1 ∧ (bridged 4 1).rd (.bridgeState 0) = 4 ∧
    ((bridged 2 1).setBgroup 0 3 { BGroup.zero with replay := [(0, [])] }).bgroup 0 3 = { BGroup.zero with replay := [(0, [])] } ∧
    (store (bridged 2 1) [(Obj.inject, 0x8009094300000000)]).injectedAt 0x09 4 5 3 = true ∧
    (bridged 3 1).rd (.bridgeState 0) = 3 ∧ takes (bridged 2 1) (fw 3) (Obj.bridgeCfg 0) = true ∧
    (given (bridged 2 1) (fw 3) (Obj.bridgeCfg 0) 1).getLsbD 0 = true ∧
    (given (bridged 2 1) (fw 3) (Obj.bridgeCfg 0) 0).getLsbD 0 = false := by decide +kernel

/-- The register of CRC-32C after 228 zero bytes. -/
theorem zeros_crc : crcRun (0x1EDC6F41 : BitVec 32) 0xFFFFFFFF (List.replicate 1824 false) = 0x6a36aceb := by
  have h : ∀ a b : BitVec 32, ∀ k, crcRun 0x1EDC6F41 a (List.replicate 228 false) = b →
      crcRun (0x1EDC6F41 : BitVec 32) a (List.replicate (228 + k) false) = crcRun 0x1EDC6F41 b (List.replicate k false) := by
    intro a b k hab
    have hf : (List.replicate 228 false).foldl (crcBit 0x1EDC6F41) a = b := hab
    rw [← List.replicate_append_replicate, crcRun, List.foldl_append, hf, crcRun]
  rw [h 0xFFFFFFFF 0xd70fa286 1596 (by decide +kernel), h _ 0x2a15e2c9 1368 (by decide +kernel), h _ 0xf42c7fa4 1140 (by decide +kernel),
    h _ 0xc6426aa3 912 (by decide +kernel), h _ 0x2bb67ad1 684 (by decide +kernel), h _ 0xa3645d82 456 (by decide +kernel),
    h _ 0xc3989de2 228 (by decide +kernel)]
  decide +kernel

/-- A flit of zeros fails its CRC. -/
theorem zeros_flit : flitCheck 0 = none := by
  have h1 : fecDecode (leBytes 256 (0 : BitVec 2048).toNat) = some (List.replicate 232 0, false) := by decide +kernel
  have h2 : ((List.replicate 232 (0 : Byte)).take 228).flatMap lsbBits = List.replicate 1824 false := by decide +kernel
  have h3 : leAt (List.replicate 232 0) 228 4 = 0 := by decide +kernel
  unfold flitCheck
  rw [h1]
  simp only [crc32c, crc32cReg, h2, zeros_crc, h3]
  decide +kernel

theorem bridgeTake_none {s : State} {b g : Nat} {flit : BitVec 2048} (h : flitCheck flit = none) :
    s.bridgeTake b g flit = s.bridgeDiscard b g := by
  unfold State.bridgeTake
  rw [h]

theorem witness_BridgesTrainCarryAndFall_flit : 8 ≤ ((replayed.bridgeTake 0 3 0).bgroup 0 3).again ∧
    (((bridged 2 1).bridgeTake 0 3 0).bgroup 0 3).again < 8 := by
  rw [bridgeTake_none zeros_flit, bridgeTake_none zeros_flit]
  decide +kernel

/-- The die is, or is not, the master; positions, waits and bridge 3's record of time. -/
def dieOfPkg (master : Bool) (f : BridgeState → BridgeState) : State :=
  put (store { bridged 2 1 with brg := f (bridged 2 1).brg } [(Obj.strapLatch, if master then 2 else 0)]) [(.enumParent, 0)]

theorem witness_EnumerationNumbersTheDies :
    (dieOfPkg false id).firmwareRuns = true ∧ (dieOfPkg false id).bridgeTrained 0 = true ∧ (dieOfPkg false id).rd .enumSt < 2 ∧
    (dieOfPkg false id).enumCauseOf 0 (0, 1) 7 (BitVec.ofNat 2 (facing ((dieOfPkg false id).cfg.bridgeFacing.getD 0 0))).toNat = none ∧
    (dieOfPkg false id).enumCauseOf 0 (0, 8) 7 (BitVec.ofNat 2 (facing ((dieOfPkg false id).cfg.bridgeFacing.getD 0 0))).toNat = some 4 ∧
    (dieOfPkg false id).brg.pos = none ∧
    (dieOfPkg false (fun b => { b with pos := some (0, 1) })).enumCauseOf 0 (0, 1) 7
      (BitVec.ofNat 2 (facing ((dieOfPkg false id).cfg.bridgeFacing.getD 0 0))).toNat = none ∧
    (dieOfPkg true (fun b => { b with quietFrom := some 5000000 })).brg.quietFrom = some 5000000 ∧ (dieOfPkg true id).isMaster = true ∧
    (mostOf [0, 7] - leastOf [0, 7]).toNat ≤ 7 ∧ 7 < (mostOf [0, 8] - leastOf [0, 8]).toNat ∧ (dieOfPkg false id).isMaster = false ∧
    (put (dieOfPkg false id) [(.enumSt, 1)]).rd .enumSt = 1 ∧ (put (dieOfPkg true id) [(.enumSt, 2)]).rd .enumSt = 2 ∧
    (dieOfPkg true id).provisionalId ≠ 7 ∧ (dieOfPkg false (fun b => { b with waitUntil := some 6000000 })).brg.waitUntil = some 6000000 ∧
    (List.range 64).all (fun d => !((0 : Val).getLsbD d)) = true ∧ (dieOfPkg false id).rd .enumSt = 0 ∧
    takes (dieOfPkg true id) (fw 3) Obj.pkgNumber = true ∧ (given (dieOfPkg true id) (fw 3) Obj.pkgNumber 4095).toNat ≤ 4095 ∧
    (dieOfPkg true id).anyOwned = true ∧ (store up [(Obj.strapLatch, 2)]).anyOwned = false ∧
    takes (store up [(Obj.strapLatch, 2)]) (fw 3) Obj.pkgNumber = true ∧ isPeer (fw 3).path = false := by decide +kernel

theorem witness_EnumerationNumbersTheDies_master : takes (dieOfPkg false id) (fw 3) Obj.pkgNumber = true ∧
    (dieOfPkg false id).isMaster = false := by decide +kernel

/-- A TIME_REQ of exchange 3, and the TIME_RESP of an exchange, at bridge 0. -/
def timed (rec : List Byte) (made : Nat) : State :=
  dieOfPkg false (fun b => { b with times := [(0, rec, 4999000)], trials := [(0, { TimeTrial.zero with made := made, sent := 77 })], tbDue := some 6000000 })

def timeResp (made : Byte) : List Byte := 3 :: (leBytes 8 77 ++ leBytes 8 4000000 ++ leBytes 8 4000100 ++ [made])

theorem witness_TheTimeBaseIsMeasured :
    (timed (2 :: leBytes 8 5 ++ [3]) 0).frozen = false ∧ (timed (2 :: leBytes 8 5 ++ [3]) 0).running = true ∧
    ((timed (2 :: leBytes 8 5 ++ [3]) 0).takeTime 0 2).isSome = true ∧
    ((timed (2 :: leBytes 8 5 ++ [3]) 0).takeTime 0 2).map (fun x => x.2.2.parent) = some (some 0) ∧
    (put (timed (2 :: leBytes 8 5 ++ [3]) 0) [(.enumParent, 7)]).parent ≠ some 0 ∧
    ((timed (timeResp 6) 6).takeTime 0 3).map (fun x => (leAt x.1 1 8, leAt x.1 25 1, (x.2.2.trial 0).made)) = some (77, 6, 6) ∧
    ((timed (timeResp 7) 7).takeTime 0 3).map (fun x => (leAt x.1 1 8, leAt x.1 25 1, (x.2.2.trial 0).made)) = some (77, 7, 7) ∧
    (timed (timeResp 7) 7).brg.tbDue = some 6000000 ∧ (timed (timeResp 7) 7).firmwareRuns = true ∧
    takes (timed (timeResp 7) 7) (fw 3) Obj.tbGen = true := by decide +kernel

/-- An image of ward 3 with the lists of one port of junction `n`, and flow 0xF00 of one run of three flits. -/
def portImage (n port : Nat) (outs : List (BitVec 32)) (ins : List (BitVec 64)) : List Byte :=
  let one := fun (k : Nat) => (List.range 6).flatMap (fun i => leBytes 2 (if i = port then k else 0))
  let body := BitVec.ofNat 8 n :: List.replicate 3 0 ++ one outs.length ++ one ins.length ++ leBytes 4 0 ++
    outs.flatMap (fun e => leBytes 4 e.toNat) ++ ins.flatMap (fun e => leBytes 8 e.toNat)
  halves [1, 0x80, 344 + body.length, 0, 0xABCD, 0, 0x3003, 0, 0, 0, 1, 1, 0, 0, 128, 0, 144, 0, 144 + body.length, 0, 144 + body.length, 0] ++
    List.replicate 84 0 ++ halves [0xF00, 0, 0, 1, 3, 0, 0, 0] ++ body ++ List.replicate 200 0

/-- A container of sections for dies 0 and 1. -/
def container (a b : List Byte) : List Byte :=
  halves [1, 0x203, 0xABCD, 0, 0, 0, 0, 0, 0, 0, 40, 0, a.length, 0, 1, 0, 40 + a.length, 0, b.length, 0] ++ a ++ b

/-- The master with a load of ward 3 in a state; the load of its own section ended in another. -/
def pkgAt (image : List Byte) (st die0 waiting : Nat) : State :=
  put (store { dieOfPkg true id with brg := { (dieOfPkg true id).brg with
    pkgs := [(3, ⟨image, [0, 1], if waiting = 9 then [] else [waiting], 0, []⟩)] } } [(Obj.dieMap, 3)]) [(.pkgState 3, st), (.ldState 3, die0)]

/-- What die 0 sends over bridge 1, and what die 1 takes over bridge 3. -/
def outF00 : BitVec 32 := 0x07800002
def inF00 : BitVec 64 := 0xF000400000000002
def quiet : List Byte := container (portImage 23 5 [] []) (portImage 24 5 [] [])
def crossing : List Byte := container (portImage 23 5 [outF00] []) (portImage 24 5 [] [inF00])
def broken : List Byte := container (portImage 23 5 [outF00] []) (portImage 24 5 [] [])

theorem witness_PackageImagesAreCheckedArmedAndSwapped_checks :
    (pkgAt quiet 2 3 9).rd (.pkgState 3) = 2 ∧ (pkgAt quiet 2 3 9).firmwareRuns = true ∧ (pkgAt quiet 2 3 9).frozen = false ∧
    (pkgAt quiet 2 3 9).containerBad 3 [] = true ∧ (pkgAt quiet 2 3 9).containerBad 3 quiet = false ∧
    ((pkgAt quiet 2 3 9).dieLoad 3 [⟨1, 0x60000000, [0, 0, 0, 0]⟩] 0).map loadSt = some 3 ∧
    ((pkgAt quiet 2 3 9).dieLoad 3 [⟨1, 0x60000000, [0, 0, 0, 0]⟩] 1).map loadSt = some 3 ∧
    ((pkgAt quiet 2 7 9).dieLoad 3 [⟨1, 0x60000000, [0, 0, 0, 0]⟩] 0).map loadSt = some 7 ∧
    (pkgAt quiet 2 3 9).pkgGroupDown [⟨1, 0x60000000, [0, 0, 0, 0]⟩] (pkgSections quiet) = none := by decide +kernel

/-- The section of die 1 is on its way, or an answer to it has come. -/
def sending (dones : List TDone) : State :=
  let s := pkgAt quiet 2 3 9
  { s with
    brg := { s.brg with pkgs := [(3, ⟨quiet, [0, 1], [], 0, [⟨1, [1, 2], 2, none, 0, true, 4000000⟩]⟩)] }
    txn := { s.txn with dones := dones } }

theorem witness_PackageImagesAreCheckedArmedAndSwapped_sections :
    ((pkgAt quiet 2 3 9).sectionsGo 3).2 = none ∧ (((pkgAt quiet 2 3 9).sectionsGo 3).1.pkg 3).sends = [] ∧
    ((sending []).sectionsGo 3).2 = none ∧ (((sending []).sectionsGo 3).1.pkg 3).sends ≠ [] ∧
    ((sending [⟨0xC1, .engine 3 1 4000000, 5, Status.timeout, []⟩]).sectionsGo 3).2 = some 1 ∧ (pkgAt quiet 4 4 0).dieBits = 0 ∧
    (pkgAt quiet 4 4 0).rd (.ldState 3) = 4 ∧ (pkgAt quiet 4 4 0).allStopped 3 = true ∧ ((pkgAt quiet 4 4 0).pkg 3).waiting = [0] ∧
    loadSt (0xF0000000 : BitVec 32).toNat = 7 ∧ loadCode (0xF0000000 : BitVec 32).toNat = 0x10 := by decide +kernel

theorem witness_PackageImagesAreCheckedArmedAndSwapped_crossings :
    (pkgAt crossing 2 3 9).containerBad 3 crossing = false ∧ (pkgAt broken 2 3 9).containerBad 3 broken = false ∧
    (pkgAt crossing 2 3 9).pkgGroupDown [⟨1, 0x60000000, [0, 0, 0, 0]⟩] (pkgSections crossing) = some 0 := by decide +kernel

theorem witness_PackageImagesAreCheckedArmedAndSwapped_links :
    pkgLinkFail (pkgSections quiet) up.cfg = none ∧ pkgLinkFail (pkgSections crossing) up.cfg = none ∧
    pkgLinkFail (pkgSections broken) up.cfg = some 0 := by decide +kernel

theorem witness_PackageImagesAreCheckedArmedAndSwapped :
    takes (pkgAt quiet 3 3 9) (fw 3) (Obj.pkgCtrl 3) = true ∧ (pkgAt quiet 3 3 9).rd (.pkgState 3) = 3 ∧
    ((pkgAt quiet 3 3 9).pkg 3).dies.contains (pkgAt quiet 3 3 9).dieBits = true ∧
    passes (Sched.arm 3 (pkgAt quiet 3 3 9)) = true ∧
    takes (pkgAt quiet 4 4 1) (fw 3) (Obj.pkgCtrl 3) = true ∧ (pkgAt quiet 4 4 1).rd (.pkgState 3) = 4 ∧
    takes (pkgAt quiet 5 5 1) (fw 3) (Obj.pkgCtrl 3) = true ∧ (pkgAt quiet 5 5 1).rd (.pkgState 3) = 5 ∧
    (1 : BitVec 6).toNat ≠ (pkgAt quiet 4 4 1).dieBits ∧ ((pkgAt quiet 4 4 1).pkg 3).waiting.contains 1 = true ∧
    (((pkgAt quiet 4 4 1).pkg 3).waiting.erase 1).isEmpty = true ∧ ([0, 1].erase 1).isEmpty = false ∧
    ((pkgAt quiet 5 5 1).pkg 3).dies.contains (1 : BitVec 6).toNat = true ∧ ((pkgAt quiet 5 5 1).pkg 3).waiting = [1] ∧
    loadSt (0xC0000000 : BitVec 32).toNat = 6 ∧ loadSt (0xE0000000 : BitVec 32).toNat = 7 := by decide +kernel

/-! ## Witnesses: fabric gates -/

/-- The first GiB of package 1 by gate 0 of its die 0, for ward 3 with every right; the same mirrored. -/
def platEntry : BitVec 64 := 0x800080000CF80001
def platMirror : BitVec 64 := platEntry ||| 0x20000

/-- A plat with an entry in the four ways of its set. -/
def plat (s : State) (v : BitVec 64) : State :=
  { s with gat := { s.gat with plat := (List.range 4).map (fun w => (4 * platSet (platFirst v) (platSize v) + w, v)) } }

/-- The ways of the set of the entry. -/
def ways : List Nat := (List.range 4).map (fun w => 4 * platSet (platFirst platEntry) (platSize platEntry) + w)

theorem witness_ThePlatMapsSegments :
    takes warded (fw 2) Obj.platInsert = true ∧ takes warded (fw 3) Obj.platInsert = true ∧ fget platEntry 17 1 = 0 ∧
    fget platMirror 17 1 = 1 ∧ platSize platEntry = 0 ∧ platFirst platEntry % 2 ^ (30 + platSize platEntry) = 0 ∧
    fget platEntry 0 16 ≠ 0 ∧ platFirst platEntry / 2 ^ 47 ≠ (warded.obj Obj.pkgNumber).toNat ∧
    warded.platOverlaps (platFirst platEntry) (platSize platEntry) = false ∧ warded.wardTakes (fget platEntry 26 4) = true ∧
    (ways.find? (fun i => fget (warded.platAt i) 63 1 == 0)).isSome = true := by decide +kernel

/-- The set of the entry is full of others; only their VALID counts here. -/
theorem witness_ThePlatMapsSegments_full :
    ways.find? (fun i => fget (({ warded with gat := { warded.gat with plat := ways.map (fun w => (w, 0x8000800000000001)) } } : State).platAt i)
      63 1 == 0) = none := by decide +kernel

theorem witness_ThePlatMapsSegments_ways :
    takes warded (fw 2) Obj.platRemove = true ∧ ((plat warded platEntry).platWay (platFirst platEntry) 0).isSome = true ∧
    warded.platWay (platFirst platEntry) 0 = none ∧ takes warded (fw 2) Obj.platQuery = true ∧ 8 < platSize 0x4800000000000000 ∧
    (plat warded platEntry).platOverlaps (platFirst platEntry) 0 = true := by decide +kernel

/-- The slot of gate 0 holds a request of a ward for package 1. -/
def gateReq (ward : BitVec 4) : TPkt := { pkt .request 9 0x80 with ward := ward, addr := 2 ^ 47 }

def gated (s : State) (ward : BitVec 4) : State := withTarget s 0x80 { TTarget.zero with slots := [slotOf (some (gateReq ward)) none] }

def readOnlyNo : BitVec 64 := 0x800080000CD80001

/-- Gate 0 up and enabled, with a packet queued for gate 0 of package 1, die 0. -/
def toPeer : FPkt := { FPkt.zero with dst := 1024, cls := 1 }

def lined (x : Gate) : State := put { warded with gat := { warded.gat with gates := [(0, x)] } } [(.gateLinkUp 0, 1), (.gateEnable 0, 1)]

def conn (c : GClass) : GConn := ⟨1024, some 5, some 6, 0, 1000, [(1, c)]⟩

theorem witness_RequestsLeaveAsPackets :
    warded.cfg.unitAt 2 0 = some 3 ∧ warded.moves 3 = true ∧
    nextSlot ((gated warded 3).target (0x80 + 0)).slots [] = some (slotOf (some (gateReq 3)) none) ∧
    (gated warded 3).platLookup (gateReq 3).addr.toNat = none ∧
    (gated (store (plat warded platEntry) [(Obj.platSizes, 1)]) 3).platLookup (gateReq 3).addr.toNat ≠ none ∧ warded.storeInjected 3 6 = false ∧
    warded.fromTile (gateReq 3) = false ∧ fget platEntry 26 4 ≠ (gateReq 4).ward.toNat ∧ fget platEntry 26 4 = (gateReq 3).ward.toNat ∧
    warded.wardReclaiming 3 = false ∧ isCoherentOp (gateReq 3).op = false ∧ fget platEntry (platRight (gateReq 3).op) 1 = 1 ∧
    fget readOnlyNo (platRight (gateReq 3).op) 1 = 0 ∧ (warded.tinit (0x180 + 0)).freeTag 1024 ≠ none := by decide +kernel

theorem witness_RequestsLeaveAsPackets_scheduler :
    (BitVec.ofNat 72 (2 ^ 71 + 3 * 2 ^ 64)).extractLsb' 70 2 = (2 : BitVec 2) ∧ (BitVec.ofNat 72 (2 ^ 71 + 3 * 2 ^ 64)).extractLsb' 64 2 = (3 : BitVec 2) ∧
    (warded.gate 0).ctlWaiting < 64 ∧ 64 ≤ ({ Gate.zero with queue := List.replicate 64 ⟨FPkt.zero, false⟩ } : Gate).ctlWaiting ∧
    (lined { Gate.zero with queue := [⟨toPeer, false⟩] }).gateSends 0 3 = true ∧
    ((lined { Gate.zero with queue := [⟨toPeer, false⟩] }).gateClass 0).map Prod.fst = some 1 ∧
    ((lined { Gate.zero with queue := [⟨toPeer, false⟩] }).gatePick 0 1).isSome = true ∧
    ((lined { Gate.zero with conns := [conn GClass.zero] }).gate 0).conn toPeer.dst = some (conn GClass.zero) ∧
    (conn GClass.zero).mine = some 5 := by decide +kernel

/-- A fragment of a collective is the next packet. -/
def fragmented : State := lined { Gate.zero with conns := [conn GClass.zero], queue := [⟨{ toPeer with cls := 3 }, false⟩] }

theorem witness_RequestsLeaveAsPackets_fragment :
    fragmented.gateSends 0 3 = true ∧ (fragmented.gateClass 0).map Prod.fst = some 3 ∧
    (fragmented.gatePick 0 3).map (fun x => match x.1 with | .fresh _ => true | _ => false) = some true ∧
    (fragmented.collChoice 0 (fragmented.gate 0)).isSome = true := by decide +kernel

/-- Packets that gate 0 receives: one for it, one for gate 1 and one with a wrong code. -/
def fromPeer (dst : BitVec 22) : FPkt := { FPkt.zero with ty := 1, dst := dst, src := 1024, conn := 6, cls := 1, body := List.replicate 4 0 }

theorem witness_PacketsAreCheckedAcknowledgedAndRepeated :
    (lined Gate.zero).running = true ∧ (lined Gate.zero).junctionLost 3 = false ∧ (lined Gate.zero).rd (.gateLinkUp 0) = 1 ∧
    (lined Gate.zero).rd (.gateEnable 0) = 1 ∧ (lined Gate.zero).adapterHeld 3 .b = false ∧
    (lined Gate.zero).injectedAt 0x0A 3 5 0x3F = false ∧ (lined Gate.zero).regionStateOf ((lined Gate.zero).regionOf 3) ≠ 4 ∧
    fabricCodes [1, 2, 3] = false ∧ (lined Gate.zero).gateName 0 = 0 := by decide +kernel

theorem witness_PacketsAreCheckedAcknowledgedAndRepeated_codes :
    fabricCodes (fromPeer 0).bytes = true ∧ fabricForm (fromPeer 0).bytes = true := by decide +kernel

theorem witness_PacketsAreCheckedAcknowledgedAndRepeated_fields :
    (FPkt.ofBytes (fromPeer 0).bytes).dst = 0 ∧ (FPkt.ofBytes (fromPeer 1).bytes).dst = 1 ∧
    ((lined Gate.zero).takePacket 0 (fromPeer 0)).2 = false := by decide +kernel

/-- A first packet of connection 7 opens afresh what was connection 6. -/
theorem witness_PacketsAreCheckedAcknowledgedAndRepeated_reopened :
    ((lined { Gate.zero with conns := [conn GClass.zero] }).gate 0).conn { fromPeer 0 with conn := 7 }.src = some (conn GClass.zero) ∧
    ({ fromPeer 0 with conn := 7 } : FPkt).seq = 0 ∧ (conn GClass.zero).theirs = some 6 ∧ (6 : BitVec 16) ≠ 7 ∧ newerConn 7 6 = true ∧
    ({ lined Gate.zero with pin := { (lined Gate.zero).pin with held := [7] } } : State).adapterHeld 3 .b = true := by decide +kernel

theorem witness_PacketsAreCheckedAcknowledgedAndRepeated_connections :
    (fromPeer 0).ty ≠ 3 ∧ ((lined { Gate.zero with conns := [conn GClass.zero] }).gate 0).conn (fromPeer 0).src = some (conn GClass.zero) ∧
    (conn GClass.zero).theirs = some (fromPeer 0).conn ∧ (((fromPeer 0).seq - ((conn GClass.zero).cls 1).want).toNat < 4096) ∧
    ((conn GClass.zero).cls 1).held.any (fun q => q.seq == (fromPeer 0).seq) = false ∧
    ((lined { Gate.zero with conns := [conn GClass.zero] }).gate 0).heldBytes (fromPeer 0).cls + (fromPeer 0).size ≤ classShare (fromPeer 0).cls ∧
    ((conn { GClass.zero with ackDue := some 6000000 }).cls (1 : BitVec 2).toNat).ackDue = some 6000000 ∧
    ((lined Gate.zero).gateDue 6000000).isSome = true ∧
    ((conn { GClass.zero with sent := [⟨toPeer, 1, 6000000, 0, false⟩] }).cls 1).sent.find? (fun e => e.pkt.seq == 0) =
      some ⟨toPeer, 1, 6000000, 0, false⟩ ∧ 1 ≤ (lined Gate.zero).rd (.retxLimit 0) ∧ (lined Gate.zero).rd (.retxLimit 0) < 255 + 1 ∧
    [0, 1, 2, 3].all (fun c => ((conn GClass.zero).cls c).sent.isEmpty && ((conn GClass.zero).cls c).ackDue.isNone &&
      !((conn GClass.zero).cls c).ackNow) = true ∧ takes (lined Gate.zero) (fw 3) (Obj.gateCfg 0) = true ∧
    fget (given (lined Gate.zero) (fw 3) (Obj.gateCfg 0) 0) 16 8 = 0 ∧ fget (given (lined Gate.zero) (fw 3) (Obj.gateCfg 0) 0x80400000) 16 8 ≠ 0 ∧
    fget (given (lined Gate.zero) (fw 3) (Obj.gateCfg 0) 0x80400000) 31 1 = 1 ∧
    fget (given (lined Gate.zero) (fw 3) (Obj.gateCfg 0) 0x00400000) 31 1 = 0 ∧ warded.rd (.gateLinkUp 0) = 0 := by decide +kernel

/-! ## Witnesses: collectives -/

/-- A hall of three packages along axis 0, of which this is package `r`; channel 0 of gate 0 and its group and counter are ward 3's. -/
def hall (r st : Nat) (x : CollChan) (gate : Gate) : State :=
  put (store { warded with gat := { warded.gat with gates := [(0, gate)] }, col := { warded.col with chans := [(0, x)] } }
    [(Obj.hallTopo, 0x0001000100010003), (Obj.pkgNumber, BitVec.ofNat 64 r), (Obj.group 0 0, 0xCC00001000000000), (Obj.collCfg 0, 0x38201000),
     (Obj.collTripWard 0 0, 0x83)]) [(.gateLinkUp 0, 1), (.gateEnable 0, 1), (.coState 0, st)]

/-- A record of operation 7: MAX of FP32 from flow 0xF20 to memory, 4,096 elements. -/
def rec7 : List Byte := leBytes 4 7 ++ [1, 1, 0, 2, 1, 1, 0, 1] ++ leBytes 4 0 ++ leBytes 4 4096 ++ leBytes 4 4096 ++ [0x20, 0x0F] ++ List.replicate 100 0 ++ [0, 128]

def op7 (r : Nat) (f : CollOp → CollOp) : CollOp := f ⟨[0, 1024, 2048], r, 0, true, 64, false, [], false, [], [], false, none, [], 0, false, false, [],
  [], 0, none, 0, none, false, false, 0⟩

def run7 (r : Nat) (f : CollOp → CollOp) : CollChan :=
  { CollChan.zero with phase := .run, record := rec7, op := some (op7 r f) }

/-- A control record and a fragment that have reached gate 0. -/
def crec (rtype rank arg : Nat) : FPkt :=
  let m := msg 0 0 0 0 [BitVec.ofNat 32 (rtype * 2 ^ 28 + rank), 7, BitVec.ofNat 32 arg, 0]
  { FPkt.zero with cls := 0, ward := 3, body := m.flits.flatMap (fun f => leBytes 9 f.toNat) }

def frag7 (ckind rank block chunk : Nat) (data : List Byte) : FPkt :=
  { FPkt.zero with ty := 4, cls := 3, ward := 3, body := (⟨7, ckind, false, 0, 0, block, chunk, rank, 3, 0, 0, data⟩ : Frag).bytes }

def head7 (redOp : Nat) : List Byte := ({ (op7 0 id).ownHead rec7 with redOp := redOp } : THead).bytes

def idle7 : CollChan := CollChan.zero

/-- Channel 0 waits for a memory answer, which has come with a status. -/
def answered (phase : CollPhase) (what : Nat) (status : BitVec 3) : State :=
  let s := hall 1 1 { CollChan.zero with phase := phase, record := rec7, io := some ⟨2 ^ 47, 128, [], [], 3, some 4⟩ } Gate.zero
  { s with txn := { s.txn with dones := [⟨0x80, .engine 0 what 4, 0, status, [5]⟩] } }

def tookBack (s : State) (phase : CollPhase) (what : Nat) (ok whole : Bool) : Bool :=
  match (s.collSettle 0).takeDone 0x80 (fun j w info => j == 0 && w == what && (((s.collSettle 0).coll 0).io.bind (·.serial)) == some info) with
  | some (d, _, _, _, s1) => (s1.coll 0).phase == phase && match (s1.coll 0).io with
    | some i => (match i.answered d with
      | some y => ok && y.whole == whole
      | none => !ok)
    | none => false
  | none => false

theorem witness_CollectiveChannelsRunTheirRings :
    [0, 1, 2, 3, 4, 5].all (fun st => takes (hall 1 st idle7 Gate.zero) (fw 3) (Obj.collCtrl 0) &&
      (hall 1 st idle7 Gate.zero).rd (.coState 0) == st && (hall 1 st idle7 Gate.zero).rd (.coOwned 0) == 1) = true ∧
    (hall 1 0 idle7 Gate.zero).warn = false ∧ ({ hall 1 0 idle7 Gate.zero with pwr := dipped.pwr } : State).warn = true ∧
    up.rd (.coOwned 0) = 0 ∧ ((hall 1 1 (run7 1 id) Gate.zero).coll 0).phase = .run ∧ idle7.phase ≠ .run ∧ idle7.phase ≠ .back ∧
    (hall 1 1 idle7 Gate.zero).gateMoves 0 = true ∧ recOwn (List.replicate 128 0) = false ∧
    (hall 1 1 idle7 Gate.zero).rd (.coPending 0) = 0 ∧ (put (hall 1 1 idle7 Gate.zero) [(.coPending 0, 1)]).rd (.coPending 0) = 1 := by
  decide +kernel

theorem witness_CollectiveChannelsRunTheirRings_memory :
    tookBack (answered .fetch collFetchAsk 0) .fetch collFetchAsk true true = true ∧
    tookBack (answered .fetch collFetchAsk 1) .fetch collFetchAsk false true = true ∧
    tookBack (answered .back collBackAsk 0) .back collBackAsk true true = true ∧
    tookBack (answered .haltBack collBackAsk 0) .haltBack collBackAsk true true = true := by decide +kernel

/-- A flit of the contribution at the gate's port, and a request for a chunk's cells. -/
def feeding (x : CollChan) : State :=
  let s := hall 1 1 x Gate.zero
  { s with ten := { s.ten with dlvs := [(8 * 3 + 5, ⟨[(0xF20, flit 7 1)], []⟩)] } }

def agreed7 (f : CollOp → CollOp) : CollChan :=
  run7 1 (fun o => f { o with final := some ⟨o.ownHead rec7, []⟩, chunks := [CollChunk.fresh 0 false true], next := 1 })

theorem witness_CollectiveChannelsRunTheirRings_input :
    (((feeding (agreed7 id)).collSettle 0).dlvTake (((feeding (agreed7 id)).collSettle 0).gateAt 0) 5).isSome = true ∧
    (((feeding (agreed7 id)).collSettle 0).coll 0).wants = some 0xF20 ∧ (((feeding (agreed7 id)).collSettle 0).coll 0).drain = [] ∧
    (((feeding (agreed7 id)).collSettle 0).coll 0).op.isSome = true ∧ recIn rec7 ≠ Fmt.grid64 ∧
    ((((feeding (agreed7 id)).collSettle 0).coll 0).op.bind CollOp.filling).isSome = true ∧
    (((feeding { agreed7 id with drain := [⟨0xF20, false, 4, 128⟩] }).collSettle 0).coll 0).wants = some 0xF20 ∧
    (((feeding { agreed7 id with drain := [⟨0xF20, false, 4, 128⟩] }).collSettle 0).coll 0).drain = [⟨0xF20, false, 4, 128⟩] := by decide +kernel

theorem witness_CollectiveChannelsRunTheirRings_store :
    ({ CollStore.zero with choice := some 0 } : CollStore).choice = some 0 ∧ ((hall 1 1 (agreed7 id) Gate.zero).coll 0).op.isSome = true ∧
    (hall 1 1 (agreed7 id) Gate.zero).poolUsed 0 + 8 ≤ (hall 1 1 (agreed7 id) Gate.zero).poolCells 0 ∧
    (hall 1 1 (agreed7 id) Gate.zero).poolCells 0 < 8193 ∧
    ((hall 1 1 (agreed7 id) Gate.zero).coll 0).op.map (fun o => ((hall 1 1 (agreed7 id) Gate.zero).wantsCells 0 o, o.tallied)) =
      some (true, true) ∧
    ((hall 1 1 (run7 1 (fun o => { o with tallied := false })) Gate.zero).coll 0).op.map (fun o =>
      ((hall 1 1 (run7 1 (fun o => { o with tallied := false })) Gate.zero).wantsCells 0 o, o.tallied)) = some (true, false) := by decide +kernel

/-- A record of a type for channel 0 is taken, with the channel running or late. -/
def takesRecord (x : CollChan) (rtype : Nat) (late : Bool) : Bool :=
  match ((((hall 1 1 x { Gate.zero with records := [crec rtype 0 0] }).collSettle 0).dropReserved 0)).takeRecord 0 rtype with
  | some (k, r, s1) => decide (k < 512) && (s1.coll k).late r.tag == late && ((s1.coll k).op.isSome || late)
  | none => false

/-- A fragment of the running operation is taken. -/
def takesFrag (r ckind : Nat) (x : CollChan) (p : FPkt) (good : Frag → CollOp → Bool) : Bool :=
  match ((hall r 1 x { Gate.zero with chunks := [p] }).collSettle 0).takeFrag 0 ckind with
  | some (k, f, s1) => (s1.coll k).runs f.tag && (match (s1.coll k).op with
    | some o => f.size == o.size && good f o
    | none => false)
  | none => false

theorem witness_CollectivePacketsActOnTheirOperation_records :
    [arriveType, readyType, abortType].all (fun t => takesRecord (run7 1 id) t false &&
      takesRecord { CollChan.zero with lastTag := some 7 } t true) = true := by decide +kernel

theorem witness_CollectivePacketsActOnTheirOperation_tallies :
    takesFrag 1 1 (run7 1 id) (frag7 1 0 0xFFFFFFFF 0xFFFFFFFF (head7 1)) (fun f o => (o.children false).contains f.rank &&
      (match HTally.take (Tbl.get none o.kids f.rank) f with
        | some t => (o.ownHead rec7).agrees t.head
        | none => false)) = true ∧
    takesFrag 1 1 (run7 1 id) (frag7 1 0 0xFFFFFFFF 0xFFFFFFFF (head7 2)) (fun f o => (o.children false).contains f.rank &&
      (match HTally.take (Tbl.get none o.kids f.rank) f with
        | some t => !(o.ownHead rec7).agrees t.head
        | none => false)) = true ∧
    takesFrag 0 2 (run7 0 id) (frag7 2 1 0xFFFFFFFF 0xFFFFFFFF (head7 1)) (fun f o => o.parent false == some f.rank && !o.agreed &&
      ({ o with final := HTally.take o.final f } : CollOp).agreed) = true := by decide +kernel

theorem witness_CollectivePacketsActOnTheirOperation_chunks :
    takesFrag 1 3 (agreed7 id) (frag7 3 0 0 0 []) (fun f o => (o.chunks.find? (fun x => x.index == f.chunk)).isSome) = true ∧
    takesFrag 0 4 (run7 0 (fun o => { o with final := some ⟨o.ownHead rec7, []⟩, chunks := [CollChunk.fresh 0 false true], next := 1 }))
      (frag7 4 1 0 0 []) (fun f o => (o.chunks.find? (fun x => x.index == f.chunk)).isSome && o.parent (f.chunk % 2 == 1) == some f.rank) = true := by
  decide +kernel

/-- Channel 0 has sent chunk 0 on the switch path, with SW_TAG 0; the switch answers. -/
def switched (f : CollChunk → CollChunk) (p : FPkt) : State :=
  hall 1 1 (run7 1 (fun o => { o with chunks := [f { CollChunk.fresh 0 false false with sends := 1 }] })) { Gate.zero with chunks := [p] }

def swPkt (ty : Nat) (kind attempt : Byte) (body : List Byte) : FPkt :=
  { FPkt.zero with ty := ty, cls := 3, ward := 3, body := [kind, attempt, 0, 0, 7, 0, 0, 0, 0, 0, 0, 0, 0, 0, 0, 0, 0, 0, attempt] ++ body }

theorem witness_CollectivePacketsActOnTheirOperation_switch :
    ((switched id { FPkt.zero with ty := 4, body := [0, 0, 0, 0, 5] }).takeSwitched 0 FPkt.switched).isSome = true ∧
    ((switched id (swPkt 5 1 0 [])).takeSwitched 0 (fun p => p.ty == 5 && p.body.headD 0 == 1)).isSome = true ∧
    ((switched id (swPkt 5 2 0 [])).takeSwitched 0 (fun p => p.ty == 5 && p.body.headD 0 == 2)).map
      (fun x => (x.2.switchChunk 0 (leAt x.1.body 2 2) (leAt x.1.body 4 4) (leAt x.1.body 8 4) (leAt x.1.body 18 1)).isSome) = some true ∧
    ((switched id (swPkt 6 0 0 [])).takeSwitched 0 (fun p => p.ty == 6)).map (fun x => ((x.2.bump (.coRefusals 0) 1).switchChunk 0
      (leAt x.1.body 2 2) (leAt x.1.body 4 4) (leAt x.1.body 8 4) (leAt x.1.body 1 1)).isSome) = some true ∧ recTries rec7 = 1 ∧
    ((switched id (swPkt 6 0 0 [])).runChunk 0 (0 : BitVec 32).toNat).map (fun x => (x.2.tree, x.2.downSent, decide (x.2.sends ≤ 8))) =
      some (false, false, true) ∧ (switched id (swPkt 6 0 0 [])).rd (.retxLimit 0) = 8 ∧
    ((switched (fun c => { c with wait := some 6000000 }) (swPkt 6 0 0 [])).runChunk 0 0).map (fun x => x.2.wait) = some (some 6000000) ∧
    ((switched id (swPkt 6 0 0 [])).gateDue 6000000).isSome = true ∧
    ((hall 0 1 (run7 0 id) Gate.zero).coll 0).phase = .run ∧ (op7 0 id).isRoot false = false ∧ (op7 0 id).final = none ∧
    (64 * 0 + 63 : Nat) = 63 ∧ Tbl.get 0 ({ warded with col := { warded.col with capEnds := [(63, 6000001)] } } : State).col.capEnds (64 * 0 + 63) =
      6000000 + 1 := by decide +kernel

/-! ## Witnesses: wards -/

def wardIn (st phase : Nat) (q : Option WardSeq) : State :=
  put { warded with wards := match q with
    | some x => [(3, some x)]
    | none => [] } [(.wardSt 3, st), (.wardPhase 3, phase)]

def seq3 (revoke : Bool) : WardSeq := ⟨revoke, 4000000, 0, 4000000, false⟩

theorem witness_WardsFormActivateAndEnd :
    [0, 1, 2, 3, 4].all (fun st => takes (wardIn st 0 none) (fw 2) (Obj.wardCtrl 3) && (wardIn st 0 none).rd (.wardSt 3) == st) = true ∧
    takes (store warded [(Obj.pathCap, 0xDB)]) (inBand 3) (Obj.wardCtrl 3) = true ∧ (fw 2).level.toNat = 2 ∧ up.safeStart = false ∧
    up.retired = false ∧ (wardIn 1 0 none).wardJunctions 3 = [9, 10, 11] ∧ (put up [(.wardSt 3, 1)]).wardJunctions 3 = [] ∧
    (wardIn 1 0 none).serviceTier = 2 ∧ (wardIn 3 3 (some (seq3 true))).rd (.wardPhase 3) = 3 ∧
    (wardIn 3 3 (some (seq3 true))).frozen = false ∧ (wardIn 3 3 (some (seq3 true))).wardTxns 3 = [] ∧
    (withInit (wardIn 3 3 (some (seq3 true))) 9 { TInit.zero with open_ := [openTo 2 0] }).wardTxns 3 = [(9, openTo 2 0)] ∧
    Tbl.get none (wardIn 3 3 (some (seq3 true))).wards (3 : BitVec 4).toNat = some (seq3 true) ∧
    ((wardIn 3 3 (some (seq3 true))).gateDue (4000000 - 0 + 1000000)).isSome = true ∧ (wardIn 3 5 (some (seq3 true))).rd (.wardPhase 3) = 5 ∧
    (wardIn 3 5 (some (seq3 true))).firmwareRuns = true := by decide +kernel

/-- A state lists no channel of an engine or a gate. -/
def noChannels (s : State) : Bool := s.objs.all (fun p => decide (p.1 < 0x181000) || (decide (0x185000 ≤ p.1) &&
    decide (p.1 < 0x1C0000)) || decide (0x1E0000 ≤ p.1))

/-- A ward owns no channels there. -/
theorem noChannels_wards {s : State} (h : noChannels s = true) (w : BitVec 4) : s.wardChans w = [] ∧ s.wardColls w = [] := by
  have hu := List.all_eq_true.mp h
  constructor
  · simp only [State.wardChans, List.filter_eq_nil_iff, List.mem_range]
    intro k hk
    rw [State.obj_of_unlisted, Obj.dflt_chCfg hk]
    · exact fun e => nomatch e
    · intro p hp
      have := hu p hp
      simp only [Bool.or_eq_true, Bool.and_eq_true, decide_eq_true_eq] at this
      simp only [Obj.chCfg]
      omega
  · simp only [State.wardColls, List.filter_eq_nil_iff, List.mem_range]
    intro k hk
    rw [State.obj_of_unlisted, Obj.dflt_collCfg hk]
    · exact fun e => nomatch e
    · intro p hp
      have := hu p hp
      simp only [Bool.or_eq_true, Bool.and_eq_true, decide_eq_true_eq] at this
      simp only [Obj.collCfg]
      omega

theorem witness_WardsFormActivateAndEnd_scrub :
    (wardIn 3 3 (some (seq3 true))).wardMessages 3 = false ∧ (wardIn 3 3 (some (seq3 true))).drainOver 3 = true ∧
    (arriving (wardIn 3 3 (some { seq3 true with drainFrom := 4500000 })) 9 (msg 0 2 9 11 [5])).wardMessages 3 = true ∧
    (arriving (wardIn 3 3 (some { seq3 true with drainFrom := 4500000 })) 9 (msg 0 2 9 11 [5])).drainOver 3 = false ∧
    ((wardIn 3 5 (some (seq3 true))).closeWindows 3).wardWindows 3 = [] ∧
    ((store (wardIn 3 5 (some (seq3 true))) [(Obj.cohWindow 0 7, 0x8C00000000000000)]).closeWindows 3).wardWindows 3 = [7] ∧
    (seq3 true).revoke = true ∧ (seq3 false).revoke = false := by decide +kernel

theorem witness_WardsFormActivateAndEnd_aborts :
    (wardIn 3 3 (some (seq3 true))).wardAborts 3 = wardIn 3 3 (some (seq3 true)) := by
  have h := noChannels_wards (s := wardIn 3 3 (some (seq3 true))) (by decide +kernel) 3
  simp only [State.wardAborts, h.1, h.2, List.foldl_nil]

theorem witness_WardsFormActivateAndEnd_regions :
    (wardIn 3 5 (some (seq3 true))).wardRegions 3 = [0] ∧ (wardIn 3 5 (some (seq3 true))).regionStateOf 0 = 2 ∧
    (put (wardIn 3 5 (some (seq3 true))) [(.regionSt 0, 4)]).wardRegions 3 = [0] ∧
    (put (wardIn 3 5 (some (seq3 true))) [(.regionSt 0, 4)]).regionStateOf 0 = 4 := by
  have h := noChannels_wards (s := wardIn 3 5 (some (seq3 true))) (by decide +kernel) 3
  have g := noChannels_wards (s := put (wardIn 3 5 (some (seq3 true))) [(.regionSt 0, 4)]) (by decide +kernel) 3
  simp only [State.wardRegions, h.1, h.2, g.1, g.2, List.filterMap_nil, List.append_nil]
  decide +kernel

theorem witness_WardsFormActivateAndEnd_junctions :
    passes (warded.check (fw 3) (Obj.wardJunctions 3 / 256) (Obj.wardJunctions 3 % 256) .download 16) = true ∧ warded.cfg.njs ≤ 120 ∧
    (0xE00 : BitVec 128).toNat < 2 ^ warded.cfg.njs ∧ warded.wardJunctions 3 = [9, 10, 11] ∧ (0xE00 : BitVec 128).getLsbD 9 = true ∧
    2 ^ warded.cfg.njs ≤ (0x1000000000000 : BitVec 128).toNat ∧ warded.wardOf 9 = some 3 ∧ up.wardOf 47 = none ∧
    passes (up.check (fw 3) (Obj.wardJunctions 4 / 256) (Obj.wardJunctions 4 % 256) .download 16) = true ∧ up.rd (.wardSt 4) = 0 ∧
    ((store warded [(Obj.pathCap, 0xDB)]).check (inBand 3) (Obj.tapCtrl 9 / 256) (Obj.tapCtrl 9 % 256) .write 4).toOption.map (·.wr) =
      some 1 := by decide +kernel

/-! ## Witnesses: start-up and resets -/

/-- The reference die held in reset, and in the boot ROM with an image. -/
def held : State := State.reset
def booting (image : List Byte) : State :=
  { State.reset with
    now := 5000
    pin := { PinState.reset with inReset := false }
    boot := { BootState.reset with romOk := true, image := image } }

theorem witness_StartUpReachesFirmware :
    up.pin.inReset = false ∧ up.canonical = true ∧ held.pin.inReset = true ∧ held.pwr.below.contains 8 = false ∧
    held.pwr.down.contains 8 = false ∧ ({ up with pwr := { up.pwr with unstarted := [1] } } : State).pwr.unstarted.head? = some 1 ∧
    up.pwr.below.contains 1 = false ∧ up.pwr.down.contains 1 = false ∧ (booting [1]).bootRuns = true ∧ (booting [1]).boot.image ≠ [] ∧
    (booting [1]).factoryMode = false ∧ (booting [1]).boot.holdAsked = false ∧ (booting [1]).safeStart = false ∧
    (put up [(.coreState, 4)]).rd .coreState = 4 ∧ ({ up with boot := { up.boot with wdt := some 6000000 } } : State).boot.wdt = some 6000000 ∧
    takes (store (booting [1]) [(Obj.pathCap, 0xDB)]) (onBus 3) Obj.fwCtrl = true ∧ takes up (fw 3) Obj.fwCtrl = true ∧ up.bootRuns = false ∧
    takes up (fw 3) Obj.coreSel = true ∧ fget (given up (fw 3) Obj.coreSel 0) 0 1 = 0 ∧ fget (given up (fw 3) Obj.coreSel 1) 0 1 = 1 ∧
    up.rd .coreSpare = 0 ∧ (put up [(.coreSpare, 1)]).rd .coreSpare = 1 ∧ takes up (fw 3) Obj.wdtKick = true ∧
    given up (fw 3) Obj.wdtKick 0x5A = 0x5A := by decide +kernel

theorem witness_StartUpReachesFirmware_straps :
    ((up.advanceTo 6000000).bump .coreExpiries 1).coreDown.boot.expired = false ∧
    (((({ up with boot := { up.boot with expired := true } } : State).advanceTo 6000000).bump .coreExpiries 1).raise (Cause.plain 0x001)).coreDown.boot.expired
      = true ∧ (((({ held with
        pin := { held.pin with inReset := false, rstN := true, pwrOk := true, sync := (1 : BitVec 4).getLsbD 1 }
        flt := { held.flt with scanning := true }
        boot := { held.boot with romOk := true } } : State).latchStraps 1).sense).holdRegions).factoryMode = true ∧
    (((({ held with
        pin := { held.pin with inReset := false, rstN := true, pwrOk := true, sync := (0 : BitVec 4).getLsbD 1 }
        flt := { held.flt with scanning := true }
        boot := { held.boot with romOk := true } } : State).latchStraps 0).sense).holdRegions).factoryMode = false := by decide +kernel

def lifeAt (l : Nat) (caps prov cert key : Bool) : State :=
  store { up with boot := { up.boot with capsFused := caps, provFused := prov, certFused := cert, keyFused := key, lifecycle := l } }
    [(Obj.lifecycle, BitVec.ofNat 64 l)]

theorem witness_ResetsRestoreAndFusesHold :
    takes up (fw 3) Obj.dieReset = true ∧ given up (fw 3) Obj.dieReset 0xD1 = 0xD1 ∧ given up (fw 3) Obj.dieReset 0 ≠ 0xD1 ∧
    takes (store up [(Obj.strapLatch, 2)]) (fw 3) Obj.pkgReset = true ∧
    given (store up [(Obj.strapLatch, 2)]) (fw 3) Obj.pkgReset 0xA5 = 0xA5 ∧ up.running = true ∧ up.canonical = true ∧
    up.flt.split = [] ∧ takes (lifeAt 0 false false false false) (fw 3) Obj.fuseCaps = true ∧
    fget (given up (fw 3) Obj.fuseCaps 0x1FF) 0 3 = 7 ∧ fget (given up (fw 3) Obj.fuseCaps 0x1DB) 0 3 ≤ 3 ∧
    fget (given up (fw 3) Obj.fuseCaps 0x1DB) 3 3 ≤ 3 ∧ fget (given up (fw 3) Obj.fuseCaps 0x1DB) 6 3 = 7 ∧
    takes (lifeAt 1 false true false false) (fw 3) Obj.fuseCaps = true ∧ (lifeAt 1 false true false false).lifecycle ≠ 0 ∧
    takes up (fw 3) Obj.debugDisable = true := by decide +kernel

theorem witness_ResetsRestoreAndFusesHold_lifecycle :
    [0, 1, 2, 3].all (fun l => takes (lifeAt l true true true true) (fw 3) Obj.lifecycleAdvance &&
      (given (lifeAt l true true true true) (fw 3) Obj.lifecycleAdvance (BitVec.ofNat 64 (l + 1))).toNat == l + 1 &&
      (lifeAt l true true true true).lifecycle == l) = true ∧ (lifeAt 0 false true true true).boot.capsFused = false ∧
    (lifeAt 1 true true true false).boot.keyFused = false := by decide +kernel

/-! ## Witnesses: pins and adapters -/

theorem witness_PinsClocksAndAdapterResetsAct :
    up.running = true ∧ up.factoryMode = false ∧ (put up [(.syncFreeze, 1)]).rd .syncFreeze = 1 ∧ up.frozen = false ∧
    up.rd .syncFreeze ≠ 1 ∧ up.pin.timerefOk = true ∧ (dieOfPkg true id).isMaster = true ∧ (dieOfPkg false id).isMaster = false ∧
    (store up [(Obj.dieNumber, 1)]).enumerated = true ∧ up.enumerated = false ∧ up.cfg.hasAdapter 9 .a = true ∧
    up.cfg.hasAdapter 9 .b = true ∧ up.clockStopped 9 .a = false ∧
    ({ up with pin := { up.pin with stopped := [18] } } : State).clockStopped 9 .a = true ∧ up.adapterHeld 9 .a = false ∧
    ({ up with pin := { up.pin with held := [19] } } : State).adapterHeld 9 .b = true ∧ 31 < up.cfg.sockets 9 := by decide +kernel

/-! ## Witnesses: faults and the event recorder -/

def factory : State := store up [(Obj.bootStatus, 0x20000000)]

theorem witness_FaultsAreClearedInjectedAndRecorded :
    takes up (fw 3) Obj.faultClear = true ∧ given up (fw 3) Obj.faultClear 0xFFFF = 0xFFFF ∧ up.sourcePresent 0x03F = false ∧
    up.sourcePresent 0x001 = true ∧ up.causeActive 0x001 = false ∧ up.sourcePresent 0x005 = true ∧
    ({ up with pin := { up.pin with timerefOk := false } } : State).causeActive 0x005 = true ∧
    (put up [(.freezeState, 4), (.stSev 1, 3)]).safe = true ∧ (put up [(.freezeState, 4), (.stSev 1, 3)]).rd (.stSev 1) = 3 ∧
    up.safe = false ∧ takes up (fw 3) (Obj.faultSev 0) = true ∧ takes up (fw 3) (Obj.faultSev 0x045) = true ∧
    fget (given up (fw 3) (Obj.faultSev 0x001) 2) 0 2 = 2 ∧ Fault.hasWard 0x001 = false ∧ Fault.hasWard 0x045 = true ∧
    takes up (fw 3) Obj.faultThreshold = true ∧ given up (fw 3) Obj.faultThreshold 3 = 3 ∧ given up (fw 3) Obj.faultThreshold 4 = 4 ∧
    given up (fw 3) Obj.faultThreshold 1 = 1 ∧ given up (fw 3) Obj.faultThreshold 0 = 0 := by decide +kernel

theorem witness_FaultsAreClearedInjectedAndRecorded_inject :
    takes up (fw 3) Obj.inject = true ∧ takes factory (fw 3) Obj.inject = true ∧ factory.factoryMode = true ∧
    given factory (fw 3) Obj.inject 0x800B000000000000 = 0x800B000000000000 ∧ factory.checkerPresent 0x0B 0 0 0 = true ∧
    given up (fw 3) Obj.inject 0x8005120000000000 = 0x8005120000000000 ∧ up.checkerPresent 5 9 0 0 = true ∧
    up.checkerPresent 5 120 0 0 = false ∧ (put up [(.injArm, 1)]).rd .injArm = 1 ∧ up.rd .injArm = 0 ∧
    fget (given up (fw 3) Obj.inject 0xA005120000000000) 61 1 = 1 ∧ factory.running = true ∧ collectorKey Obj.faultThreshold = true ∧
    ((none : Option (BitVec 64)) = none ∨ (none : Option (BitVec 64)) ≠ none) := by decide +kernel

def recorded (reserved : Nat) : State := { up with flt := { up.flt with queue := [⟨reserved, 0, 0, 5000000, 0, 0⟩] } }
def scanning : State := { up with flt := { up.flt with scanning := true } }

theorem witness_FaultsAreClearedInjectedAndRecorded_stores :
    up.wordAt (.tally 9 0) = some (1, 9, 64, 7) ∧ up.obj Obj.scrubPeriod ≠ 0 ∧ up.junctionActive 9 = true ∧
    (up.storeDecode 9 1 64 7 []).bad = false ∧ (up.storeDecode 9 1 64 7 []).corrected = none ∧
    (up.storeDecode 9 1 64 7 [3]).corrected.isSome = true ∧ (up.storeDecode 9 1 64 7 [3]).bad = false ∧
    (up.storeDecode 9 1 64 7 [3, 4]).bad = true := by decide +kernel

theorem witness_FaultsAreClearedInjectedAndRecorded_recorder :
    (recorded 0x0050).flt.queue = [⟨0x0050, 0, 0, 5000000, 0, 0⟩] ∧ (recorded 0x0050).flt.scanning = false ∧
    (recorded 0x0050).pwr.below.contains 8 = false ∧ slotUsed ((recorded 0x0050).slotBytes 0) = false ∧ (recorded 0x0050).rd .recNext = 0 ∧
    scanning.flt.scanning = true ∧ scanning.flt.slots = [] ∧ up.pin.pwrOk = true ∧
    ((up.bump ⟨Obj.opHours, 0, 32⟩ 1).obj Obj.opHours).toNat % 16 ≠ 0 ∧
    (((store up [(Obj.opHours, 15)]).bump ⟨Obj.opHours, 0, 32⟩ 1).obj Obj.opHours).toNat % 16 = 0 := by decide +kernel

/-! ## Witnesses: spares -/

/-- SISTER_CTRL holds a command in a state, and ward 3 is in a state of its load. -/
def sister (cmd unit point wire phys st ld : Nat) : State :=
  put (store warded [(Obj.sisterCtrl, sisterWord cmd unit point wire phys)]) [(.sisterState, st), (.ldState 3, ld)]

def steering (stage : Nat) : State := { warded with sp := { warded.sp with steering := [⟨9, 1, 7, 0, stage⟩] } }

theorem witness_SparesAreTakenAndWearIsWatched :
    [0, 1, 4].all (fun st => takes (sister 1 0 0 0 0 st 0) (fw 3) Obj.sisterCtrl && (sister 1 0 0 0 0 st 0).rd .sisterState == st) = true ∧
    up.sisterFits (given up (fw 3) Obj.sisterCtrl (sisterWord 1 0 0 0 8)) = true ∧
    up.sisterFits (given up (fw 3) Obj.sisterCtrl (sisterWord 1 0 0 0 255)) = false ∧
    up.sisterFits (given up (fw 3) Obj.sisterCtrl (sisterWord 3 9 1 4223 0)) = true ∧
    up.sisterFits (given up (fw 3) Obj.sisterCtrl (sisterWord 3 9 1 4224 0)) = false ∧
    (steering 0).moves 9 = true ∧ (steering 0).sp.steering.find? (fun x => x.n == 9 && x.point == 1) = some ⟨9, 1, 7, 0, 0⟩ ∧
    (steering 1).sp.steering.find? (fun x => x.n == 9 && x.point == 1) = some ⟨9, 1, 7, 0, 1⟩ ∧
    (sister 1 0 0 0 1 1 0).rd .sisterCmd = 1 ∧ (sister 1 0 0 0 1 1 0).firmwareRuns = true ∧ (sister 1 0 0 0 1 1 0).frozen = false := by
  decide +kernel

theorem witness_SparesAreTakenAndWearIsWatched_retirement :
    (sister 1 0 0 0 1 1 0).retireBar = none ∧ (sister 1 0 0 0 1 1 0).spanSwaps = false ∧
    (sister 1 0 0 0 1 1 5).spanSwaps = true ∧ (sister 1 0 0 0 0 1 0).retireBar = some 3 := by decide +kernel

/-- The east point of junction 9 has spent its spares, and AUTO_RETIRE is set. -/
def worn : State := (put up [(.autoRetire, 1)]).setWear 9 1 (wearOf 0 0 1 0)

theorem witness_SparesAreTakenAndWearIsWatched_autoRetire :
    worn.rd .autoRetire = 1 ∧ up.rd .autoRetire = 0 ∧ worn.firmwareRuns = true ∧ worn.frozen = false ∧ worn.rd .sisterState ≠ 1 ∧
    worn.rd .sisterState ≠ 4 ∧ worn.retireNext.isSome = true ∧ up.retireNext = none := by decide +kernel

theorem witness_SparesAreTakenAndWearIsWatched_wear :
    up.running = true ∧ up.junctionActive 9 = true ∧ (up.cfg.neighbour 9 1).isSome = true ∧ up.rd .marginMin = 10 ∧
    (up.setWear 9 1 (wearOf 0 0 0 0)).suspectsSteered 9 1 = true ∧
    (steering 0).suspectsSteered 9 1 = false ∧ up.regionStateOf 1 = 2 ∧
    (up.setObj (Obj.paceDrift 1) 0x0FFF).drifted 1 = true ∧ (up.setObj (Obj.paceDrift 1) 0).drifted 1 = false ∧
    (put (bridged 2 1) [(.autoBridge, 1), (.fecCount 0, 2 ^ 20 + 1)]).rd .autoBridge = 1 ∧
    2 ^ 20 < (put (bridged 2 1) [(.autoBridge, 1), (.fecCount 0, 2 ^ 20 + 1)]).rd (.fecCount 0) -
      Tbl.get 0 (put (bridged 2 1) [(.autoBridge, 1), (.fecCount 0, 2 ^ 20 + 1)]).sp.fecBase 0 := by decide +kernel

/-! ## Witnesses: observation -/

def record : TraceRec := ⟨5000000, 1, 2, 9, 0, some 3, 0, 0, 0, 0⟩

def traced (st : Nat) (hall : List (Int × Nat × Nat)) : State :=
  put { dieOfPkg true id with obs := { (dieOfPkg true id).obs with queues := [(29, [record])], hall := hall, hallFrom := some 4000000 } }
    [(.traceState, st)]

theorem witness_CountersTraceAndHallTimeAct :
    up.running = true ∧ takes up (fw 3) (Obj.cntCfg 63) = true ∧ eventListed (fget (given up (fw 3) (Obj.cntCfg 63) 0x11) 0 8) = true ∧
    eventListed (fget (given up (fw 3) (Obj.cntCfg 63) 0x10) 0 8) = false ∧
    passes (warded.check (fw 3) (Obj.wardEvtEn 3 / 256) (Obj.wardEvtEn 3 % 256) .download 16) = true ∧
    eventListed 0x11 = true ∧ eventListed 0x7F = false ∧ Tbl.get [] (traced 0 []).obs.queues (3 * 9 + 2) = [record] ∧
    Tbl.get [] (traced 0 []).obs.queues (3 * 9 + 0) = [] ∧ Tbl.get [] (traced 0 []).obs.queues (3 * 9 + 1) = [] ∧
    takes up (fw 3) Obj.traceCmd = true ∧ given up (fw 3) Obj.traceCmd 1 = 1 ∧ given up (fw 3) Obj.traceCmd 2 = 2 ∧
    [0, 1, 2, 3].all (fun st => takes (traced st []) (fw 3) Obj.traceCtrl && (traced st []).rd .traceState == st) = true ∧
    (given up (fw 3) Obj.traceCtrl 0x80000000).getLsbD 31 = true ∧ (given up (fw 3) Obj.traceCtrl 0).getLsbD 31 = false := by
  decide +kernel

theorem witness_CountersTraceAndHallTimeAct_hall :
    takes (traced 0 []) (fw 3) Obj.hallRef = true ∧ (traced 0 []).isMaster = true ∧ takes (dieOfPkg false id) (fw 3) Obj.hallRef = true ∧
    (given (traced 0 []) (fw 3) Obj.hallRef 0x80000000).getLsbD 31 = true ∧
    fget (given (traced 0 []) (fw 3) Obj.hallRef 0x80000000) 16 12 = ((traced 0 []).obj Obj.pkgNumber).toNat ∧
    fget (given (traced 0 []) (fw 3) Obj.hallRef 0x80010000) 16 12 ≠ ((traced 0 []).obj Obj.pkgNumber).toNat ∧
    (traced 0 []).obs.hallFrom = some 4000000 ∧ (traced 0 (List.replicate 6 (5, 7, 9))).obs.hall.length < 7 ∧
    7 ≤ (traced 0 (List.replicate 7 (5, 7, 9))).obs.hall.length ∧ (traced 0 [(5, 7, 9)]).obs.hall ≠ [] := by decide +kernel

/-- The die in a state of its freeze. -/
def ice (st : Nat) (capturing : Bool) : State :=
  put { warded with obs := { warded.obs with capturing := capturing, graphFrom := some 4000000, graphSeeds := [⟨1, 9, 0, 0, 0⟩] } } [(.freezeState, st)]

/-- A tensor output that waits, watched. -/
def stalled (counted : Bool) : State :=
  let s := put (heldFlits 0) [(⟨Obj.watchCfg, 28, 1⟩, 1)]
  { s with obs := { s.obs with stalls := s.stalledNow.map (fun x => ⟨x.1, x.2.1, x.2.2.1, x.2.2.2, 0, counted⟩) } }

theorem witness_TheDieIsFrozenDumpedAndWatched :
    [0, 1, 2, 3].all (fun st => takes (ice st false) (fw 3) Obj.freezeCtrl && (ice st false).rd .freezeState == st) = true ∧
    fget (given (ice 0 false) (fw 3) Obj.freezeCtrl ((ice 0 false).freezeWord 1)) 0 4 = 1 ∧
    fget (given (ice 0 false) (fw 3) Obj.freezeCtrl ((ice 0 false).freezeWord 2)) 0 4 = 2 ∧ (ice 2 false).frozen = true ∧
    (ice 0 false).frozen = false ∧ (ice 4 false).safe = true ∧ (ice 4 false).serves (fw 3) = true ∧
    err ((ice 4 false).check (fw 3) (Obj.freezeCtrl / 256) (Obj.freezeCtrl % 256) .write
        (typeLen ((ice 4 false).typeOf (Obj.freezeCtrl / 256) (Obj.freezeCtrl % 256)))) = some .badState ∧ (ice 2 true).obs.capturing = true ∧
    takes (ice 2 false) (fw 3) Obj.dumpCtrl = true ∧ given (ice 2 false) (fw 3) Obj.dumpCtrl 1 = 1 ∧ (ice 2 true).firmwareRuns = true ∧
    (ice 0 false).timersStopped = false ∧ (ice 0 false).obs.graphFrom ≠ none := by decide +kernel

/-- What has stalled for its window is due, and what was counted is not. -/
theorem witness_TheDieIsFrozenDumpedAndWatched_stalls :
    (stalled false).timersStopped = false ∧ (((stalled false).stalledNow.map (stalled false).stallOf).find? (fun x =>
      !x.counted && decide ((stalled false).watchWindow x.cls ≤ (stalled false).txnNow - x.since))).isSome = true ∧
    (((stalled true).stalledNow.map (stalled true).stallOf).find? (fun x =>
      !x.counted && decide ((stalled true).watchWindow x.cls ≤ (stalled true).txnNow - x.since))) = none := by decide +kernel

end Sys2Proof.Tests
end

section
/-! PROOFS. Sending from a core port: the message is stamped, and its flits go on the wire of the port's router input
(R43, R44, R206). -/

namespace Sys2Proof.Machine

/-! ## The wires of the control routers -/

theorem Tbl.get_upd_same {α : Type} [DecidableEq α] (d : α) (t : Tbl α) (i : Nat) (f : α → α) :
    Tbl.get d (Tbl.upd d t i f) i = f (Tbl.get d t i) :=
  Tbl.get_set_same d t i _

theorem Tbl.get_upd_ne {α : Type} [DecidableEq α] (d d' : α) (t : Tbl α) {i j : Nat} (f : α → α) (h : j ≠ i) :
    Tbl.get d' (Tbl.upd d t i f) j = Tbl.get d' t j :=
  Tbl.get_set_ne d d' t _ h

@[simp] theorem State.ctlWire_objs (s : State) (k : Nat) (m : CtlMsg) : (s.ctlWire k m).objs = s.objs := rfl
@[simp] theorem State.ctlWire_out (s : State) (k : Nat) (m : CtlMsg) : (s.ctlWire k m).out = s.out := rfl

@[simp] theorem State.ctlWire_wire_same (s : State) (k : Nat) (m : CtlMsg) :
    Tbl.get [] (s.ctlWire k m).ctl.wire k = Tbl.get [] s.ctl.wire k ++ m.flits.map ctlEncode :=
  Tbl.get_upd_same [] s.ctl.wire k (· ++ m.flits.map ctlEncode)

theorem State.ctlWire_wire_ne (s : State) {k j : Nat} (m : CtlMsg) (h : j ≠ k) :
    Tbl.get [] (s.ctlWire k m).ctl.wire j = Tbl.get [] s.ctl.wire j :=
  Tbl.get_upd_ne [] [] s.ctl.wire (· ++ m.flits.map ctlEncode) h

/-- An input with room takes the message on its wire at once (R206). -/
theorem State.ctlSend_of_room {s : State} {n i : Nat} (m : CtlMsg) (h : s.inputRoom (8 * n + i) = true) :
    s.ctlSend n i m = s.ctlWire (8 * n + i) m :=
  if_pos h

@[simp] theorem State.touch_ctl (s : State) (n : Nat) : (s.touch n).ctl = s.ctl := rfl
@[simp] theorem State.touch_objs (s : State) (n : Nat) : (s.touch n).objs = s.objs := rfl
@[simp] theorem State.touch_out (s : State) (n : Nat) : (s.touch n).out = s.out := rfl

/-! ## A junction at which handshakes pass -/

theorem State.moves_iff (s : State) (n : Nat) :
    s.moves n = true ↔ s.running = true ∧ s.regionStateOf (s.regionOf n) = 2 ∧ s.frozen = false := by
  simp [State.moves, State.junctionActive, and_assoc]

/-! ## CONTROL_SEND -/

/-- The message a core's offer becomes at the port of `n`: source, rank and ward are the port's own (R44), and OUTER covers them. -/
def State.stampedMessage (s : State) (n : Nat) (dest : BitVec 16) (sock : BitVec 5) (kind : BitVec 2) (tag : BitVec 8)
    (words : List (BitVec 32)) : CtlMsg :=
  CtlMsg.sealed ⟨false, (s.wardOf n).getD 0, kind, 0, BitVec.ofNat 8 (s.obj (Obj.portRank n)).toNat, tag, sock, s.ep n, dest, 0, words⟩

/-- OUTER is no part of what OUTER covers, so a sealed message carries its own code (R203). -/
theorem CtlMsg.sealed_outer (m : CtlMsg) : m.sealed.outer = crc8 m.sealed.covered := rfl

theorem exec_controlSend (n : Nat) (dest : BitVec 16) (sock : BitVec 5) (kind : BitVec 2) (tag : BitVec 8)
    (words : List (BitVec 32)) (s : State) :
    exec (.controlSend n dest sock kind tag words) s = .next (Control.send n dest sock kind tag words s) := rfl

/-- An offer that can move and is not refused puts the stamped message on the wire of the port's router input. -/
theorem exec_controlSend_accepted {s : State} {n : Nat} {dest : BitVec 16} {sock : BitVec 5} {kind : BitVec 2} (tag : BitVec 8)
    (words : List (BitVec 32)) (hport : s.cfg.sockets n ≠ 0) (hlive : s.adapterLive n .a = true) (hmoves : s.moves n = true)
    (hroom : s.inputRoom (8 * n + 4) = true) (hrefusal : s.sendRefusal n dest sock kind = none) :
    exec (.controlSend n dest sock kind tag words) s =
      .next ((s.ctlWire (8 * n + 4) (s.stampedMessage n dest sock kind tag words)).touch n) := by
  obtain ⟨hrun, hactive, -⟩ := (s.moves_iff n).mp hmoves
  have hungated : s.regionStateOf (s.regionOf n) ≠ 4 := by omega
  rw [exec_controlSend, ← State.ctlSend_of_room _ hroom]
  simp [Control.send, State.stampedMessage, hport, hlive, hrun, hungated, hmoves, hroom, hrefusal]

/-- Settles O18: an accepted offer leaves the stamped message on the one wire and changes nothing else the statement names. -/
theorem messagesCarryTheStampOfTheirPort : Obligations.MessagesCarryTheStampOfTheirPort := by
  unfold Obligations.MessagesCarryTheStampOfTheirPort
  intro s n dest sock kind tag words hport hlive hmoves hroom hrefusal
  refine ⟨_, s.stampedMessage n dest sock kind tag words,
    exec_controlSend_accepted tag words hport hlive hmoves hroom hrefusal,
    rfl, rfl, rfl, rfl, rfl, rfl, rfl, rfl, rfl, CtlMsg.sealed_outer _, ?wire, ?otherWires, ?objs, ?out⟩
  case wire => rw [State.touch_ctl, State.ctlWire_wire_same]
  case otherWires =>
    intro k hk
    rw [State.touch_ctl, State.ctlWire_wire_ne s _ hk]
  case objs => rw [State.touch_objs, State.ctlWire_objs]
  case out => rw [State.touch_out, State.ctlWire_out]

end Sys2Proof.Machine
end

section
/-! PROOFS. CANCEL of EPOCH_CTRL, and the release at an ingress (R147). -/

namespace Sys2Proof.Machine

/-! ## Passes over the junctions of a ward -/

/-- A pass over a list does its work at every entry, when no step undoes the work of another; `I` holds all along. -/
theorem foldl_holds_of_mem {α σ : Type} {f : σ → α → σ} {I : σ → Prop} {P : σ → α → Prop} {l : List α}
    (inv : ∀ t, ∀ a ∈ l, I t → I (f t a)) (make : ∀ t, ∀ a ∈ l, I t → P (f t a) a)
    (keep : ∀ t, ∀ a ∈ l, ∀ b, I t → P t b → P (f t a) b) {t : σ} (hI : I t) {b : α} (hb : b ∈ l ∨ P t b) : P (l.foldl f t) b := by
  induction l generalizing t with
  | nil => simpa using hb
  | cons a l ih =>
    have ha : a ∈ a :: l := List.mem_cons_self
    have hl : ∀ c ∈ l, c ∈ a :: l := fun c hc => List.mem_cons_of_mem a hc
    refine ih (fun u c hc => inv u c (hl c hc)) (fun u c hc => make u c (hl c hc)) (fun u c hc => keep u c (hl c hc)) (inv t a ha hI) ?_
    rw [List.mem_cons] at hb
    obtain (rfl | hmem) | hP := hb
    · exact .inr (make t b ha hI)
    · exact .inl hmem
    · exact .inr (keep t a ha b hI hP)

/-! ## What the pieces of CANCEL change and what they leave -/

theorem State.rd_congr {s t : State} (h : s.objs = t.objs) (f : Fld) : s.rd f = t.rd f := by
  rw [State.rd, State.rd, State.obj_congr h]

theorem State.wardOf_congr {s t : State} (h : s.objs = t.objs) (n : Nat) : s.wardOf n = t.wardOf n := by
  simp only [State.wardOf, State.rd_congr h]

@[simp] theorem State.rd_setBank (s : State) (n sel : Nat) (b : Bank) (f : Fld) : (s.setBank n sel b).rd f = s.rd f := rfl
@[simp] theorem State.bank_wr (s : State) (f : Fld) (x n sel : Nat) : (s.wr f x).bank n sel = s.bank n sel := rfl

theorem State.bank_setBank (s : State) (n sel m k : Nat) (b : Bank) :
    (s.setBank n sel b).bank m k = if 2 * m + k = 2 * n + sel then b else s.bank m k := by
  split
  case isTrue h => rw [State.bank, h]; exact Tbl.get_set_same ..
  case isFalse h => exact Tbl.get_set_ne _ _ _ _ h

/-- STAGED of one junction is written: the others keep theirs. -/
theorem State.rd_staged_wr (s : State) (n m v : Nat) :
    (s.wr (.staged n) v).rd (.staged m) = if m = n then v % 8 else s.rd (.staged m) := by
  split
  case isTrue h => rw [h]; exact s.rd_wr_same _ _ (by simp [Fld.fits, Fld.staged])
  case isFalse h => exact s.rd_wr_obj_ne _ _ _ (by simp [Fld.staged, Obj.bankState, h])

/-- LIVE_SEL stands beside STAGED. -/
@[simp] theorem State.rd_liveSel_wr_staged (s : State) (n m v : Nat) : (s.wr (.staged n) v).rd (.liveSel m) = s.rd (.liveSel m) :=
  s.rd_wr_apart _ _ _ (by simp [Fld.fits, Fld.staged]) (by simp [Fld.fits, Fld.liveSel]) (by simp [Fld.staged, Fld.liveSel])

theorem State.stagedSel_congr {s t : State} {n : Nat} (h : t.rd (.liveSel n) = s.rd (.liveSel n)) : t.stagedSel n = s.stagedSel n := by
  rw [State.stagedSel, h, State.stagedSel]

@[simp] theorem State.rd_liveSel_emptyStaged (s : State) (w : BitVec 4) (v n : Nat) :
    (s.emptyStaged w v).rd (.liveSel n) = s.rd (.liveSel n) :=
  List.foldlRecOn (motive := fun t : State => t.rd (.liveSel n) = s.rd (.liveSel n)) _ _ rfl (fun t ht m _ => by simpa using ht)

/-- Every junction of the ward has an empty staged bank and STAGED as given. -/
theorem State.emptyStaged_at (s : State) (w : BitVec 4) (v : Nat) {n : Nat} (hn : n ∈ s.wardJunctions w) :
    (s.emptyStaged w v).rd (.staged n) = v % 8 ∧ (s.emptyStaged w v).bank n (s.stagedSel n) = Bank.null := by
  refine foldl_holds_of_mem (I := fun t : State => ∀ m, t.rd (.liveSel m) = s.rd (.liveSel m))
    (P := fun (t : State) m => t.rd (.staged m) = v % 8 ∧ t.bank m (s.stagedSel m) = Bank.null)
    ?inv ?make ?keep (fun _ => rfl) (.inl hn)
  case inv => intro t m _ hI; simpa using hI
  case make =>
    intro t m _ hI
    simp [State.rd_staged_wr, State.bank_setBank, State.stagedSel_congr (hI m)]
  case keep =>
    intro t m _ b _ ⟨hstaged, hbank⟩
    simp [State.rd_staged_wr, State.bank_setBank, hstaged, hbank]

@[simp] theorem State.markStaged_ctl (s : State) (w : BitVec 4) (v : Nat) : (s.markStaged w v).ctl = s.ctl :=
  List.foldlRecOn (motive := fun t : State => t.ctl = s.ctl) _ _ rfl (fun _ ht _ _ => ht)

@[simp] theorem State.rd_liveSel_markStaged (s : State) (w : BitVec 4) (v n : Nat) :
    (s.markStaged w v).rd (.liveSel n) = s.rd (.liveSel n) :=
  List.foldlRecOn (motive := fun t : State => t.rd (.liveSel n) = s.rd (.liveSel n)) _ _ rfl (fun t ht m _ => by simpa using ht)

theorem State.rd_staged_markStaged (s : State) (w : BitVec 4) (v : Nat) {n : Nat} (hn : n ∈ s.wardJunctions w) :
    (s.markStaged w v).rd (.staged n) = v % 8 := by
  refine foldl_holds_of_mem (I := fun _ : State => True) (P := fun (t : State) m => t.rd (.staged m) = v % 8)
    (fun _ _ _ _ => trivial) ?make ?keep trivial (.inl hn)
  case make => intro t m _ _; simp [State.rd_staged_wr]
  case keep => intro t m _ b _ hb; simp [State.rd_staged_wr, hb]

/-! ## The release leaves by the control network only -/

theorem State.ctlFrom_eq (s : State) (u : Nat) (m : CtlMsg) : s.ctlFrom u m = { s with ctl := (s.ctlFrom u m).ctl } := by
  unfold State.ctlFrom
  split
  · unfold State.ctlSend; split <;> rfl
  · rfl

theorem State.sequence_eq (s : State) (w : BitVec 4) (cmd : BitVec 5) (arg : Nat) (ns : List Nat) :
    s.sequence w cmd arg ns = { s with ctl := (s.sequence w cmd arg ns).ctl } := by
  refine List.foldlRecOn (motive := fun t : State => t = { s with ctl := t.ctl }) ns _ rfl ?_
  intro t ht n _
  rw [State.sendCommand, State.ctlFrom_eq, ht]

@[simp] theorem State.rd_releaseIngresses (s : State) (w : BitVec 4) (f : Fld) : (s.releaseIngresses w).rd f = s.rd f := by
  rw [State.releaseIngresses, State.sequence_eq]
  rfl

@[simp] theorem State.wardJunctions_releaseIngresses (s : State) (w x : BitVec 4) :
    (s.releaseIngresses w).wardJunctions x = s.wardJunctions x := by
  rw [State.releaseIngresses, State.sequence_eq]
  rfl

/-! ## CANCEL -/

/-- What CANCEL does in CHECKED and in ARMED: no arm is pending, LOAD_STATUS is IDLE with code 0x11, CMD reads CANCEL. -/
def State.loadCancelled (s : State) (w : BitVec 4) : State :=
  ((s.setSched w.toNat { s.sched w.toNat with armPending := false }).enterLoad w.toNat 0 0x11).wr (.epochCmd w.toNat) 2

theorem Sched.cancel_checked {s : State} {w : BitVec 4} (h : s.rd (.ldState w.toNat) = 3) :
    Sched.cancel w s = .ok ((s.emptyStaged w 0).loadCancelled w) := by
  simp [Sched.cancel, State.loadCancelled, h]

theorem Sched.cancel_armed {s : State} {w : BitVec 4} (h : s.rd (.ldState w.toNat) = 4) :
    Sched.cancel w s = .ok (((s.releaseIngresses w).markStaged w 2).loadCancelled w) := by
  simp [Sched.cancel, State.loadCancelled, h]

theorem Sched.cancel_refused {s : State} {w : BitVec 4} (h3 : s.rd (.ldState w.toNat) ≠ 3) (h4 : s.rd (.ldState w.toNat) ≠ 4) :
    Sched.cancel w s = .error .badState := by
  simp [Sched.cancel, h3, h4]

theorem exec_epochCancel (acc : Access) (w : BitVec 4) (s : State) :
    exec (.epochCancel acc w) s = .next (s.serveKey acc (Obj.epochCtrl w.toNat) 2 (fun _ => Sched.cancel w)) := rfl

theorem exec_epochCancel_accepted {s t : State} {acc : Access} {w : BitVec 4} {r : ObjRow} (hmay : s.MayWrite acc (Obj.epochCtrl w.toNat) r)
    (h : Sched.cancel w s = .ok t) : exec (.epochCancel acc w) s = .next (t.written acc (Obj.epochCtrl w.toNat) r.ty) := by
  rw [exec_epochCancel, State.serveKey_next hmay h]

theorem exec_epochCancel_refused {s : State} {acc : Access} {w : BitVec 4} {r : ObjRow} {a : Abort}
    (hmay : s.MayWrite acc (Obj.epochCtrl w.toNat) r) (h : Sched.cancel w s = .error a) :
    exec (.epochCancel acc w) s = .next (s.abortRequest acc 2 (Obj.epochCtrl w.toNat / 256) (Obj.epochCtrl w.toNat % 256) 0 a) := by
  rw [exec_epochCancel, State.serveKey_refused hmay h]

@[simp] theorem State.loadCancelled_ctl (s : State) (w : BitVec 4) : (s.loadCancelled w).ctl = s.ctl := rfl
@[simp] theorem State.bank_loadCancelled (s : State) (w : BitVec 4) (n sel : Nat) : (s.loadCancelled w).bank n sel = s.bank n sel := rfl

theorem State.armPending_loadCancelled (s : State) (w : BitVec 4) : ((s.loadCancelled w).sched w.toNat).armPending = false :=
  congrArg SchedState.armPending (Tbl.get_set_same ..)

theorem State.obj_loadStatus_loadCancelled (s : State) (w : BitVec 4) :
    (s.loadCancelled w).obj (Obj.loadStatus w.toNat) = BitVec.ofNat 64 (0x11 * 2 ^ 24 + 0x7F * 2 ^ 17 + 0xF * 2 ^ 13 + 0x1FFF) := by
  rw [State.loadCancelled, State.obj_wr_ne _ _ _ _ (by simp only [Obj.loadStatus, Fld.epochCmd, Obj.epochCtrl]; omega)]
  exact State.obj_setObj_same ..

theorem State.rd_ldState_loadCancelled (s : State) (w : BitVec 4) : (s.loadCancelled w).rd (.ldState w.toNat) = 0 := by
  simp only [State.rd, Fld.ldState, State.obj_loadStatus_loadCancelled]
  decide

theorem State.rd_ldCode_loadCancelled (s : State) (w : BitVec 4) : (s.loadCancelled w).rd (.ldCode w.toNat) = 0x11 := by
  simp only [State.rd, Fld.ldCode, State.obj_loadStatus_loadCancelled]
  decide

/-- BANK_STATE lies above the objects of the load. -/
theorem State.rd_loadCancelled (s : State) (w : BitVec 4) {f : Fld} {n : Nat} (h : f.key = Obj.bankState n) :
    (s.loadCancelled w).rd f = s.rd f := by
  have hw := w.isLt
  have hcmd : f.key ≠ (Fld.epochCmd w.toNat).key := by simp only [h, Obj.bankState, Fld.epochCmd, Obj.epochCtrl]; omega
  have hload : f.key ≠ Obj.loadStatus w.toNat := by simp only [h, Obj.bankState, Obj.loadStatus]; omega
  exact (State.rd_wr_obj_ne _ _ _ _ hcmd).trans (State.rd_setObj_ne _ _ _ _ hload)

@[simp] theorem State.rd_staged_loadCancelled (s : State) (w : BitVec 4) (n : Nat) :
    (s.loadCancelled w).rd (.staged n) = s.rd (.staged n) := s.rd_loadCancelled w rfl

@[simp] theorem State.rd_liveSel_loadCancelled (s : State) (w : BitVec 4) (n : Nat) :
    (s.loadCancelled w).rd (.liveSel n) = s.rd (.liveSel n) := s.rd_loadCancelled w rfl

/-! ## The release at an ingress -/

theorem State.ing_setIng (s : State) (n i m j : Nat) (x : Ingress) :
    (s.setIng n i x).ing m j = if 8 * m + j = 8 * n + i then x else s.ing m j := by
  split
  case isTrue h => rw [State.ing, h]; exact Tbl.get_set_same ..
  case isFalse h => exact Tbl.get_set_ne _ _ _ _ h

/-- An ingress that is written as not stopped is not, and no other becomes so. -/
theorem State.stopped_setIng {s : State} {n i m j : Nat} {x : Ingress} (hx : x.stopped = false)
    (h : (m = n ∧ j = i) ∨ (s.ing m j).stopped = false) : ((s.setIng n i x).ing m j).stopped = false := by
  rw [State.ing_setIng]
  split
  case isTrue => exact hx
  case isFalse hne =>
    obtain ⟨rfl, rfl⟩ | hmj := h
    · exact absurd rfl hne
    · exact hmj

@[simp] theorem State.ingBoundary_objs (s : State) (n i : Nat) : (s.ingBoundary n i).objs = s.objs := by
  simp only [State.ingBoundary]
  split
  · rfl
  · split
    · rfl
    · split
      · rfl
      · split <;> rfl

/-- Outside ARMED a boundary stops no ingress: it inserts the marker, or does nothing (R141, R142). -/
theorem State.stopped_ingBoundary {s : State} {w : BitVec 4} {n : Nat} (i : Nat) {m j : Nat} (hw : s.wardOf n = some w)
    (h4 : s.rd (.ldState w.toNat) ≠ 4) (h : (s.ing m j).stopped = false) : ((s.ingBoundary n i).ing m j).stopped = false := by
  simp only [State.ingBoundary, hw, h4, false_and, if_false]
  split
  · exact h
  · split
    · exact State.stopped_setIng rfl (.inr h)
    · exact h

/-- A release acts on one ingress (R147). -/
def State.releaseAt (s : State) (n i : Nat) : State := (s.setIng n i { s.ing n i with stopped := false }).ingBoundary n i

@[simp] theorem State.releaseAt_objs (s : State) (n i : Nat) : (s.releaseAt n i).objs = s.objs :=
  State.ingBoundary_objs ..

theorem State.stopped_releaseAt {s : State} {w : BitVec 4} {n i m j : Nat} (hw : s.wardOf n = some w) (h4 : s.rd (.ldState w.toNat) ≠ 4)
    (h : (m = n ∧ j = i) ∨ (s.ing m j).stopped = false) : ((s.releaseAt n i).ing m j).stopped = false :=
  State.stopped_ingBoundary i hw h4 (State.stopped_setIng rfl h)

/-- A release that reaches a junction of its ward acts on each of the ward's ingresses there. -/
theorem State.armOrRelease_release {s : State} {m : CtlMsg} {n : Nat} (hw : s.wardOf n = some m.ward) (hsock : m.sock = Cmd.release)
    (h4 : s.rd (.ldState m.ward.toNat) ≠ 4) :
    s.armOrRelease n m = ((s.wardIngresses m.ward).filter (fun p => p.1 == n)).foldl (fun a p => a.releaseAt p.1 p.2) s := by
  have hcmd : Cmd.release ≠ Cmd.arm := by decide
  simp only [State.armOrRelease, hw, hsock, hcmd, h4, ne_eq, not_true_eq_false, not_false_eq_true, and_self, if_false, if_true]
  rfl

/-- A release that reaches a junction of its ward leaves none of the ward's ingresses there stopped. -/
theorem State.armOrRelease_released {s : State} {m : CtlMsg} {p : Nat × Nat} (hp : p ∈ s.wardIngresses m.ward)
    (hw : s.wardOf p.1 = some m.ward) (hsock : m.sock = Cmd.release) (h4 : s.rd (.ldState m.ward.toNat) ≠ 4) :
    ((s.armOrRelease p.1 m).ing p.1 p.2).stopped = false := by
  have hstep : ∀ t : State, ∀ q ∈ (s.wardIngresses m.ward).filter (fun q => q.1 == p.1), t.objs = s.objs → ∀ b : Nat × Nat,
      (b.1 = q.1 ∧ b.2 = q.2) ∨ (t.ing b.1 b.2).stopped = false → ((t.releaseAt q.1 q.2).ing b.1 b.2).stopped = false := by
    intro t q hq ht b
    have hqp : q.1 = p.1 := eq_of_beq (List.mem_filter.mp hq).2
    have hward : t.wardOf q.1 = some m.ward := by rw [State.wardOf_congr ht, hqp, hw]
    exact State.stopped_releaseAt hward (by rwa [State.rd_congr ht])
  rw [State.armOrRelease_release hw hsock h4]
  exact foldl_holds_of_mem (I := fun t : State => t.objs = s.objs) (P := fun t q => (t.ing q.1 q.2).stopped = false)
    (fun t q _ ht => (t.releaseAt_objs q.1 q.2).trans ht) (fun t q hq ht => hstep t q hq ht q (.inl ⟨rfl, rfl⟩))
    (fun t q hq b ht hb => hstep t q hq ht b (.inr hb)) rfl (.inl (List.mem_filter.mpr ⟨hp, beq_self_eq_true p.1⟩))

/-- Settles O28: in CHECKED and in ARMED, CANCEL is `loadCancelled` after the banks are emptied or the release is sent; a release stops
no ingress. That STAGED is 2 after a CANCEL in ARMED is the model's choice (log 85). -/
theorem cancelLeavesTheLoadIdle : Obligations.CancelLeavesTheLoadIdle := by
  unfold Obligations.CancelLeavesTheLoadIdle
  intro s acc w r hmay
  refine ⟨?accepted, ?refused, ?released⟩
  case accepted =>
    rintro (hchecked | harmed)
    · refine ⟨_, exec_epochCancel_accepted hmay (Sched.cancel_checked hchecked), State.rd_ldState_loadCancelled ..,
        State.rd_ldCode_loadCancelled .., State.armPending_loadCancelled .., fun _ n hn => ?emptied,
        fun h => absurd h (by omega), fun n => by simp⟩
      case emptied => simpa using s.emptyStaged_at w 0 hn
    · refine ⟨_, exec_epochCancel_accepted hmay (Sched.cancel_armed harmed), State.rd_ldState_loadCancelled ..,
        State.rd_ldCode_loadCancelled .., State.armPending_loadCancelled .., fun h => absurd h (by omega),
        fun _ => ⟨?sent, fun n hn => ?staged⟩, fun n => by simp⟩
      case sent => simp
      case staged => simp [State.rd_staged_markStaged, hn]
  case refused => exact fun hswapping => exec_epochCancel_refused hmay (Sched.cancel_refused (by omega) (by omega))
  case released =>
    rintro m p hp hw rfl hsock h4
    exact State.armOrRelease_released hp hw hsock h4

end Sys2Proof.Machine
end

section
/-! PROOFS. The input numbers of a memory attachment's arbiter, and the write that swaps two of them (R256, R257). -/

namespace Sys2Proof.Machine

/-! ## The table of input numbers -/

/-- The input number that an attachment's table gives an initiator; 0 stands for the number by proximity (R256). -/
def Integration.tableNumber (c : Integration) (a : Nat) (m : Tbl Nat) (v : Nat) : Nat :=
  match Tbl.get 0 m v with
  | 0 => c.proximity a v
  | x => x - 1

/-- The table in which initiator `v` has the number `k`. -/
def Integration.setNumber (c : Integration) (a : Nat) (m : Tbl Nat) (v k : Nat) : Tbl Nat :=
  Tbl.set 0 m v (if k = c.proximity a v then 0 else k + 1)

@[simp] theorem Integration.tableNumber_setNumber (c : Integration) (a : Nat) (m : Tbl Nat) (v k y : Nat) :
    c.tableNumber a (c.setNumber a m v k) y = if y = v then k else c.tableNumber a m y := by
  by_cases hy : y = v
  · rw [if_pos hy, hy, tableNumber, setNumber, Tbl.get_set_same]
    by_cases hk : k = c.proximity a v
    · rw [if_pos hk]; exact hk.symm
    · rw [if_neg hk]; rfl
  · rw [if_neg hy, tableNumber, setNumber, Tbl.get_set_ne 0 0 m _ hy, tableNumber]

theorem State.arbNumber_attachment (s : State) {a : Nat} (ha : a < 16) (v : Nat) :
    s.arbNumber (0xA0 + a) v = s.cfg.tableNumber a (s.target (0xA0 + a)).numbers v := by
  unfold State.arbNumber
  rw [if_neg (by omega), Nat.add_sub_cancel_left]
  rfl

theorem State.arbNumber_setTarget (s : State) {a : Nat} (ha : a < 16) (x : TTarget) (v : Nat) :
    (s.setTarget (0xA0 + a) x).arbNumber (0xA0 + a) v = s.cfg.tableNumber a x.numbers v := by
  have htarget : (s.setTarget (0xA0 + a) x).target (0xA0 + a) = x := Tbl.get_set_same ..
  rw [State.arbNumber_attachment _ ha, htarget]
  rfl

/-! ## ARB_RENUMBER -/

/-- The initiator other than `u` that gives its number `k` up. -/
def State.numberHolder (s : State) (a u k : Nat) : Option Nat :=
  s.cfg.initiators.find? (fun x => x != u && s.arbNumber (0xA0 + a) x == k)

/-- The numbers of attachment `a` once `u` has `k`, and the holder of `k` the number of `u`. -/
def State.swappedNumbers (s : State) (a u k : Nat) : Tbl Nat :=
  s.cfg.setNumber a
    ((s.numberHolder a u k).elim (s.target (0xA0 + a)).numbers
      (fun x => s.cfg.setNumber a (s.target (0xA0 + a)).numbers x (s.arbNumber (0xA0 + a) u))) u k

/-- The state after an accepted ARB_RENUMBER. -/
def State.renumbered (s : State) (a u k : Nat) : State :=
  s.setTarget (0xA0 + a) { s.target (0xA0 + a) with numbers := s.swappedNumbers a u k }

theorem Txn.renumber_refused {s : State} {a : Nat} {v : Val}
    (h : s.cfg.initiators.contains (fget v 16 16 % 1024) = false ∨ s.ep (fget v 16 16 % 1024) ≠ BitVec.ofNat 16 (fget v 16 16)) :
    Txn.renumber a v s = .error .outOfRange :=
  if_pos (h.imp_left fun h => by rw [h, Bool.not_false])

theorem Txn.renumber_accepted {s : State} {a : Nat} {v : Val} (hin : s.cfg.initiators.contains (fget v 16 16 % 1024) = true)
    (hep : s.ep (fget v 16 16 % 1024) = BitVec.ofNat 16 (fget v 16 16)) :
    Txn.renumber a v s = .ok (s.renumbered a (fget v 16 16 % 1024) (fget v 0 8)) := by
  unfold Txn.renumber
  rw [if_neg (by simpa [hep] using hin)]
  unfold State.renumbered State.swappedNumbers State.numberHolder
  cases s.cfg.initiators.find? _ <;> rfl

theorem exec_arbRenumber (acc : Access) (a : Nat) (v : BitVec 32) (s : State) :
    exec (.arbRenumber acc a v) s = .next (s.serveKey acc (Obj.arbRenumber a) (v.setWidth 64) (Txn.renumber a)) := rfl

/-! ## Who holds which number afterwards -/

theorem State.numberHolder_some {s : State} {a u k x : Nat} (h : s.numberHolder a u k = some x) :
    x ∈ s.cfg.initiators ∧ x ≠ u ∧ s.arbNumber (0xA0 + a) x = k :=
  ⟨List.mem_of_find?_eq_some h, by simpa using List.find?_some h⟩

theorem State.numberHolder_none {s : State} {a u k y : Nat} (h : s.numberHolder a u k = none) (hy : y ∈ s.cfg.initiators)
    (hyu : y ≠ u) : s.arbNumber (0xA0 + a) y ≠ k := by
  simpa [hyu] using List.find?_eq_none.mp h y hy

/-- An initiator that alone holds the number is the one that gives it up. -/
theorem State.numberHolder_of_unique {s : State} {a u k y : Nat} (hy : y ∈ s.cfg.initiators) (hyu : y ≠ u)
    (hk : s.arbNumber (0xA0 + a) y = k)
    (honly : ∀ z ∈ s.cfg.initiators, z ≠ u → s.arbNumber (0xA0 + a) z = k → z = y) : s.numberHolder a u k = some y := by
  cases hx : s.numberHolder a u k with
  | none => exact absurd hk (State.numberHolder_none hx hy hyu)
  | some x =>
    obtain ⟨hin, hxu, hxk⟩ := State.numberHolder_some hx
    rw [honly x hin hxu hxk]

/-- Initiators of attachment `a` that have one number are one. -/
def State.NumbersDiffer (s : State) (a : Nat) : Prop :=
  ∀ y ∈ s.cfg.initiators, ∀ z ∈ s.cfg.initiators, s.arbNumber (0xA0 + a) y = s.arbNumber (0xA0 + a) z → y = z

section
variable {s : State} {a : Nat} (ha : a < 16) {u k : Nat}
include ha

/-- The unit has `k`, the holder of `k` the number of the unit, and every other unit its own. -/
theorem State.arbNumber_renumbered (y : Nat) : (s.renumbered a u k).arbNumber (0xA0 + a) y =
    if y = u then k else if s.numberHolder a u k = some y then s.arbNumber (0xA0 + a) u else s.arbNumber (0xA0 + a) y := by
  rw [State.renumbered, State.arbNumber_setTarget s ha, State.swappedNumbers, Integration.tableNumber_setNumber]
  cases s.numberHolder a u k with
  | none => rw [Option.elim_none, State.arbNumber_attachment s ha y, if_neg (Option.some_ne_none y).symm]
  | some x =>
    rw [Option.elim_some, Integration.tableNumber_setNumber, State.arbNumber_attachment s ha y]
    simp only [Option.some.injEq, eq_comm (a := x)]

theorem State.arbNumber_renumbered_self : (s.renumbered a u k).arbNumber (0xA0 + a) u = k := by
  rw [State.arbNumber_renumbered ha, if_pos rfl]

theorem State.arbNumber_renumbered_holder {y : Nat} (hyu : y ≠ u) (h : s.numberHolder a u k = some y) :
    (s.renumbered a u k).arbNumber (0xA0 + a) y = s.arbNumber (0xA0 + a) u := by
  rw [State.arbNumber_renumbered ha, if_neg hyu, if_pos h]

theorem State.arbNumber_renumbered_other {y : Nat} (hyu : y ≠ u) (h : s.numberHolder a u k ≠ some y) :
    (s.renumbered a u k).arbNumber (0xA0 + a) y = s.arbNumber (0xA0 + a) y := by
  rw [State.arbNumber_renumbered ha, if_neg hyu, if_neg h]

/-- Where numbers differ, the unit alone has `k` afterwards: who held it has the number of the unit, which was another. -/
theorem State.arbNumber_renumbered_ne {y : Nat} (hdiffer : s.NumbersDiffer a) (hu : u ∈ s.cfg.initiators)
    (hy : y ∈ s.cfg.initiators) (hyu : y ≠ u) : (s.renumbered a u k).arbNumber (0xA0 + a) y ≠ k := by
  intro hk
  by_cases hholds : s.numberHolder a u k = some y
  · obtain ⟨-, -, hyk⟩ := State.numberHolder_some hholds
    rw [State.arbNumber_renumbered_holder ha hyu hholds] at hk
    exact hyu (hdiffer y hy u hu (hyk.trans hk.symm))
  · rw [State.arbNumber_renumbered_other ha hyu hholds] at hk
    exact hholds (State.numberHolder_of_unique hy hyu hk (fun z hz _ hzk => hdiffer z hz y hy (hzk.trans hk.symm)))

/-- Numbers that differ differ afterwards. -/
theorem State.numbersDiffer_renumbered (hdiffer : s.NumbersDiffer a) (hu : u ∈ s.cfg.initiators) :
    (s.renumbered a u k).NumbersDiffer a := by
  intro y hy z hz heq
  by_cases hyu : y = u
  · by_cases hzu : z = u
    · exact hyu.trans hzu.symm
    · rw [hyu, State.arbNumber_renumbered_self ha] at heq
      exact absurd heq.symm (State.arbNumber_renumbered_ne ha hdiffer hu hz hzu)
  by_cases hzu : z = u
  · rw [hzu, State.arbNumber_renumbered_self ha] at heq
    exact absurd heq (State.arbNumber_renumbered_ne ha hdiffer hu hy hyu)
  by_cases hyholds : s.numberHolder a u k = some y <;> by_cases hzholds : s.numberHolder a u k = some z
  · exact Option.some.inj (hyholds.symm.trans hzholds)
  · rw [State.arbNumber_renumbered_holder ha hyu hyholds, State.arbNumber_renumbered_other ha hzu hzholds] at heq
    exact absurd (hdiffer u hu z hz heq).symm hzu
  · rw [State.arbNumber_renumbered_other ha hyu hyholds, State.arbNumber_renumbered_holder ha hzu hzholds] at heq
    exact absurd (hdiffer y hy u hu heq) hyu
  · rw [State.arbNumber_renumbered_other ha hyu hyholds, State.arbNumber_renumbered_other ha hzu hzholds] at heq
    exact hdiffer y hy z hz heq

end

/-- Settles O30: an accepted ARB_RENUMBER leaves `renumbered`, in which the numbers of the unit and of the holder are swapped. -/
theorem renumberingSwapsTwoNumbers : Obligations.RenumberingSwapsTwoNumbers := by
  unfold Obligations.RenumberingSwapsTwoNumbers
  rintro s acc a v r _ _ _ _ ha rfl hmay rfl rfl rfl
  rw [exec_arbRenumber]
  refine ⟨fun hbad => ?refused, fun hin hep => ⟨s.renumbered a _ _, s.swappedNumbers a _ _, rfl, ?accepted,
    State.arbNumber_renumbered_self ha, fun y hy hyu hyk honly => ?holder, fun y _ hyu hyk => ?others, fun hdiffer => ?different⟩⟩
  case refused => rw [State.serveKey_refused hmay (Txn.renumber_refused hbad)]
  case accepted => rw [State.serveKey_next hmay (Txn.renumber_accepted hin hep)]
  case holder => exact State.arbNumber_renumbered_holder ha hyu (State.numberHolder_of_unique hy hyu hyk honly)
  case others =>
    refine State.arbNumber_renumbered_other ha hyu (fun hholds => ?_)
    obtain ⟨-, -, hholder⟩ := State.numberHolder_some hholds
    exact hyk hholder
  case different => exact State.numbersDiffer_renumbered ha hdiffer (List.contains_iff_mem.mp hin)

end Sys2Proof.Machine
end

section
/-! PROOFS. The floorplan and the canonical form: every operation of the model keeps both. One lemma per operation, in the model's
order; each follows the cases of its operation. -/

namespace Sys2Proof.Machine.State

/-- What every operation keeps of a state `s` it makes `t` of: the floorplan, and the canonical form of the table of values. -/
structure Kept (s t : State) : Prop where
  cfg : t.cfg = s.cfg
  canonical : s.canonical = true → t.canonical = true

/-- The same of an effect: of the state it leaves, where it is not refused. -/
def Keeps (s : State) (x : Except Abort State) : Prop := ∀ t, x = .ok t → s.Kept t

variable {s₀ s t : State}

theorem Kept.refl (s : State) : s.Kept s := ⟨rfl, id⟩

/-- An update of any other part of the state. -/
theorem Kept.update {pending : List Instr} {now stoppedFor frozenFor drawn : Nat} {out : List Emission} {doms : Tbl (Option (List Byte))}
    {pin : PinState} {pwr : PowerState} {boot : BootState} {flt : FaultState} {wards : Tbl (Option WardSeq)} {dict : DictState}
    {sp : SpareState} {obs : ObsState} {ctl : CtlState} {ten : TensorState} {txn : TxnState} {brg : BridgeState} {dma : DmaState}
    {gat : GateState} {col : CollState} (h : s₀.Kept s) :
    s₀.Kept ⟨s.cfg, pending, now, stoppedFor, frozenFor, drawn, out, s.objs, doms, pin, pwr, boot, flt, wards, dict, sp, obs, ctl, ten,
      txn, brg, dma, gat, col⟩ :=
  ⟨h.cfg, h.canonical⟩

theorem Kept.setObj {k : Nat} {v : Val} (h : s₀.Kept s) : s₀.Kept (s.setObj k v) where
  cfg := h.cfg
  canonical hc := s.setObj_wf k v (h.canonical hc)

theorem Kept.ite {c : Prop} [Decidable c] (h : s₀.Kept s) (h' : s₀.Kept t) : s₀.Kept (if c then s else t) := by
  split
  · exact h
  · exact h'

theorem Kept.ite_fst {α : Type} {c : Prop} [Decidable c] {x y : State × α} (hx : s₀.Kept x.1) (hy : s₀.Kept y.1) :
    s₀.Kept (if c then x else y).1 := by
  split
  · exact hx
  · exact hy

theorem Kept.of_fst {α : Type} {x : State × α} {a : α} (h : s₀.Kept x.1) (hx : x = (t, a)) : s₀.Kept t := by
  subst hx
  exact h

theorem Kept.foldl {α : Type} {f : State → α → State} {l : List α} (h : s₀.Kept s)
    (hf : ∀ {t a}, s₀.Kept t → s₀.Kept (f t a)) : s₀.Kept (l.foldl f s) :=
  List.foldlRecOn l f h (fun _ ht _ _ => hf ht)

theorem Keeps.ok (h : s₀.Kept s) : s₀.Keeps (.ok s) := by
  rintro t ⟨⟩
  exact h

theorem Keeps.error {a : Abort} : s₀.Keeps (.error a) := by
  intro t ht
  cases ht

theorem Keeps.ite {c : Prop} [Decidable c] {x y : Except Abort State} (hx : s₀.Keeps x) (hy : s₀.Keeps y) :
    s₀.Keeps (if c then x else y) := by
  split
  · exact hx
  · exact hy

/-- An effect that is chosen before it is applied. -/
theorem Keeps.ite_apply {c : Prop} [Decidable c] {f g : Effect} (hf : s₀.Keeps (f s)) (hg : s₀.Keeps (g s)) :
    s₀.Keeps ((if c then f else g) s) := by
  split
  · exact hf
  · exact hg

/-! ## Machine/Ops -/

theorem Kept.wr {f : Fld} {x : Nat} (h : s₀.Kept s) : s₀.Kept (s.wr f x) := h.setObj

theorem Kept.bump {f : Fld} {n : Nat} (h : s₀.Kept s) : s₀.Kept (s.bump f n) := h.wr

theorem Kept.bumpWrap {f : Fld} {n : Nat} (h : s₀.Kept s) : s₀.Kept (s.bumpWrap f n) := h.wr

theorem Kept.setDom {k : Nat} {bs : List Byte} (h : s₀.Kept s) : s₀.Kept (s.setDom k bs) := h.update

theorem Kept.clearDom {k : Nat} (h : s₀.Kept s) : s₀.Kept (s.clearDom k) := h.update

theorem Kept.draw (h : s₀.Kept s) : s₀.Kept s.draw := h.update

theorem Kept.emit {e : Emission} (h : s₀.Kept s) : s₀.Kept (s.emit e) := h.update

theorem Kept.ibi {b : Byte} (h : s₀.Kept s) : s₀.Kept (s.ibi b) := .ite h h.emit

theorem Kept.mctpSend {ty : Byte} {mtag : BitVec 3} {body : List Byte} (h : s₀.Kept s) : s₀.Kept (s.mctpSend ty mtag body) := h.emit.ibi

theorem Kept.advance {d : Nat} (h : s₀.Kept s) : s₀.Kept (s.advance d) := h.update

theorem Kept.advanceTo {t : Nat} (h : s₀.Kept s) : s₀.Kept (s.advanceTo t) := h.update

theorem Kept.touch {n : Nat} (h : s₀.Kept s) : s₀.Kept (s.touch n) := h.update

theorem Kept.wake {k : Nat} (h : s₀.Kept s) : s₀.Kept (s.wake k) := .ite h (.ite h.update h.update.wr.bumpWrap)

theorem Kept.wakeAt {n : Nat} (h : s₀.Kept s) : s₀.Kept (s.wakeAt n) := h.wake

theorem Kept.hostVector {p src : Nat} {vec : BitVec 11} (h : s₀.Kept s) : s₀.Kept (s.hostVector p src vec) := .ite h h.update

theorem Kept.traceStoreAt {i : Nat} {r : TraceRec} (h : s₀.Kept s) : s₀.Kept (s.traceStoreAt i r) := h.update

theorem Kept.traceAdvance {i : Nat} (h : s₀.Kept s) : s₀.Kept (s.traceAdvance i) := .ite h.bumpWrap.wr h.bumpWrap

theorem Kept.traceCountDown (h : s₀.Kept s) : s₀.Kept s.traceCountDown := .ite h.update.wr h.update

theorem Kept.traceWrite {r : TraceRec} (h : s₀.Kept s) : s₀.Kept (s.traceWrite r) := by
  simp only [State.traceWrite]
  refine .ite h ?_
  refine .ite h.bump ?_
  refine .ite (.traceCountDown (.traceAdvance (.traceStoreAt (.ite h.bump h)))) ?_
  exact .traceAdvance (.traceStoreAt (.ite h.bump h))

theorem Kept.traceFire {arg0 : Nat} (h : s₀.Kept s) : s₀.Kept (s.traceFire arg0) := .ite h (.ite h.traceWrite h.wr.wr.update.traceWrite)

theorem Kept.traceQueue {n place : Nat} {r : TraceRec} (h : s₀.Kept s) : s₀.Kept (s.traceQueue n place r) :=
  .ite h (.ite h.bump h.update)

theorem Kept.countEv {ev n : Nat} {w : Option (BitVec 4)} {c : Nat} (h : s₀.Kept s) : s₀.Kept (s.countEv ev n w c) := .ite h.update h

theorem Kept.queueRecord {r : EventRec} (h : s₀.Kept s) : s₀.Kept (s.queueRecord r) := h.update

theorem Kept.setLoad {w st code j list entry : Nat} (h : s₀.Kept s) : s₀.Kept (s.setLoad w st code j list entry) := h.setObj

theorem Kept.reportLoad {w : Nat} (h : s₀.Kept s) : s₀.Kept (s.reportLoad w) := .ite h.emit h

theorem Kept.traceEpoch {w evt : Nat} (h : s₀.Kept s) : s₀.Kept (s.traceEpoch w evt) := h.traceQueue

theorem Kept.loadFails {w code j list entry : Nat} (h : s₀.Kept s) : s₀.Kept (s.loadFails w code j list entry) :=
  h.setLoad.traceEpoch.reportLoad

theorem Kept.markStaged {w : BitVec 4} {v : Nat} (h : s₀.Kept s) : s₀.Kept (s.markStaged w v) := h.foldl fun h' => h'.wr

theorem Kept.imageLost {t : Transfer} (h : s₀.Kept s) : s₀.Kept (s.imageLost t) := .ite h h.markStaged.loadFails

theorem Kept.wardBegin {w : BitVec 4} {revoke : Bool} (h : s₀.Kept s) : s₀.Kept (s.wardBegin w revoke) :=
  (h.foldl fun h' => h'.imageLost).wr.wr.update

theorem Kept.freezeBegin {state cause : Nat} (h : s₀.Kept s) : s₀.Kept (s.freezeBegin state cause) := by
  simp only [State.freezeBegin]
  refine .ite h.wr.wr ?_
  refine .ite (.draw (.traceFire (.ite h.wr.wr.update.traceWrite h.wr.wr.update))) ?_
  exact .ite h.wr.wr.update.traceWrite h.wr.wr.update

theorem Kept.actOn {put : State → EventRec → Bool → State} {c : Cause} {sev : Nat} (h : s₀.Kept s)
    (hput : ∀ {t r b}, s₀.Kept t → s₀.Kept (put t r b)) : s₀.Kept (State.actOn put s c sev) := by
  unfold State.actOn
  extract_lets note s1 s2 s3 s4
  have h1 : s₀.Kept s1 := .ite h.ibi h
  have h2 : s₀.Kept s2 := .ite h1.hostVector h1
  have h3 : s₀.Kept s3 := .ite (hput h2) h2
  have h4 : s₀.Kept s4 := .ite h3.traceFire h3
  refine .ite ?_ (.ite (.ite h4 (hput h4.freezeBegin)) h4)
  split
  · exact .ite h4.wardBegin h4
  · exact h4

theorem Kept.recordLast {r : EventRec} {reserve : Bool} (h : s₀.Kept s) : s₀.Kept (s.recordLast r reserve) :=
  .ite h.queueRecord h.bump.bump

theorem Kept.raiseRecorder (h : s₀.Kept s) : s₀.Kept s.raiseRecorder := .ite h.bump (h.setObj.actOn fun h' => h'.recordLast)

theorem Kept.record {r : EventRec} {reserve : Bool} (h : s₀.Kept s) : s₀.Kept (s.record r reserve) :=
  .ite h.queueRecord h.bump.raiseRecorder

theorem Kept.recordEvent {code d0 d1 : Nat} {reserve : Bool} (h : s₀.Kept s) : s₀.Kept (s.recordEvent code d0 d1 reserve) := h.record

theorem Kept.applySeverity {c : Cause} {sev : Nat} (h : s₀.Kept s) : s₀.Kept (s.applySeverity c sev) := h.actOn fun h' => h'.record

theorem Kept.raise {c : Cause} (h : s₀.Kept s) : s₀.Kept (s.raise c) := .ite h (.ite h.bump h.setObj.applySeverity)

theorem Kept.injectFired (h : s₀.Kept s) : s₀.Kept s.injectFired := .ite h h.wr

theorem Kept.ctlWire {k : Nat} {m : CtlMsg} (h : s₀.Kept s) : s₀.Kept (s.ctlWire k m) := h.update

theorem Kept.ctlSend {n i : Nat} {m : CtlMsg} (h : s₀.Kept s) : s₀.Kept (s.ctlSend n i m) := .ite h.ctlWire h.update

theorem Kept.ctlRefill {k : Nat} (h : s₀.Kept s) : s₀.Kept (s.ctlRefill k) := by
  simp only [State.ctlRefill]
  split
  · exact h
  · exact .ite h.update.ctlWire h

theorem Kept.ctlFrom {u : Nat} {m : CtlMsg} (h : s₀.Kept s) : s₀.Kept (s.ctlFrom u m) := by
  unfold State.ctlFrom
  split
  · exact h.ctlSend
  · exact h

theorem Kept.ctlReply {u : Nat} {dest : BitVec 16} {ward : BitVec 4} {sock : BitVec 5} {words : List (BitVec 32)} (h : s₀.Kept s) :
    s₀.Kept (s.ctlReply u dest ward sock words) :=
  h.ctlFrom

theorem Kept.ctlNak {n i : Nat} {m : CtlMsg} {reason : BitVec 4} (h : s₀.Kept s) : s₀.Kept (s.ctlNak n i m reason) := h.ctlSend

theorem Kept.sendCommand {fromUnit u : Nat} {ward : BitVec 4} {cmd : BitVec 5} {arg : Nat} (h : s₀.Kept s) :
    s₀.Kept (s.sendCommand fromUnit u ward cmd arg) :=
  h.ctlFrom

theorem Kept.sequence {ward : BitVec 4} {cmd : BitVec 5} {arg : Nat} {ns : List Nat} (h : s₀.Kept s) :
    s₀.Kept (s.sequence ward cmd arg ns) :=
  h.foldl fun h' => h'.sendCommand

theorem Kept.offer {ch : Nat} (h : s₀.Kept s) (ht : s.offer ch = some t) : s₀.Kept t := by
  unfold State.offer at ht
  split at ht
  · cases ht; exact h
  split at ht <;> cases ht
  exact h.update

/-! ## Machine/BridgeLink -/

theorem Kept.setBgroup {b g : Nat} {x : BGroup} (h : s₀.Kept s) : s₀.Kept (s.setBgroup b g x) := h.update

theorem Kept.bridgeDrive {b g : Nat} {idle : Bool} {seq : BitVec 8} {payload : List Byte} (h : s₀.Kept s) :
    s₀.Kept (s.bridgeDrive b g idle seq payload) :=
  h.update

theorem Kept.bridgeSendNew {b g fuel : Nat} (h : s₀.Kept s) : s₀.Kept (s.bridgeSendNew b g fuel) := by
  induction fuel generalizing s with
  | zero => exact h
  | succ fuel ih =>
    simp only [State.bridgeSendNew]
    exact .ite h (ih h.setBgroup.bridgeDrive)

theorem Kept.bridgePump {b g : Nat} (h : s₀.Kept s) : s₀.Kept (s.bridgePump b g) := h.bridgeSendNew

theorem Kept.bridgeRecord {b g : Nat} {rec_ : List Byte} (h : s₀.Kept s) : s₀.Kept (s.bridgeRecord b g rec_) :=
  .ite h h.setBgroup.bridgePump

theorem Kept.bridgeStamped {b g : Nat} {rec_ : List Byte} {off : Nat} (h : s₀.Kept s) : s₀.Kept (s.bridgeStamped b g rec_ off) :=
  .ite h.setBgroup.bridgeRecord h

theorem Kept.bridgeReplay {b g : Nat} (h : s₀.Kept s) : s₀.Kept (s.bridgeReplay b g) := h.setBgroup.foldl fun h' => h'.bump.bridgeDrive

theorem Kept.bridgeDiscard {b g : Nat} (h : s₀.Kept s) : s₀.Kept (s.bridgeDiscard b g) := h.update

theorem Kept.bridgeKeep {b g : Nat} {rs : List (List Byte)} {part : List Byte} (h : s₀.Kept s) : s₀.Kept (s.bridgeKeep b g rs part) :=
  .ite h.setBgroup.update h.setBgroup

theorem Kept.fecNote {b g : Nat} (h : s₀.Kept s) : s₀.Kept (s.fecNote b g) := h.bump.update

theorem Kept.bridgeTake {b g : Nat} {flit : BitVec 2048} (h : s₀.Kept s) : s₀.Kept (s.bridgeTake b g flit) := by
  simp only [State.bridgeTake]
  split
  · exact h.bridgeDiscard
  split
  · exact h.bridgeDiscard
  refine .ite (.ite (.bridgeReplay (.setBgroup (.ite h.fecNote h))) (.setBgroup (.ite h.fecNote h))) ?_
  refine .ite (.bridgeKeep (.ite (.bridgeReplay (.setBgroup (.ite h.fecNote h))) (.setBgroup (.ite h.fecNote h)))) ?_
  exact .bridgeDiscard (.ite (.bridgeReplay (.setBgroup (.ite h.fecNote h))) (.setBgroup (.ite h.fecNote h)))

theorem Kept.bridgeFree {b g : Nat} {left : List (List Byte)} (h : s₀.Kept s) : s₀.Kept (s.bridgeFree b g left) := h.update

theorem Kept.bridgeIdle {b g : Nat} (h : s₀.Kept s) : s₀.Kept (s.bridgeIdle b g) := .ite h.bridgeDrive h

theorem Kept.bridgeTell {b g : Nat} (h : s₀.Kept s) : s₀.Kept (s.bridgeTell b g) := .ite h.bridgeIdle h

theorem Kept.bridgeTensor {b g : Nat} {f : TFlit} (h : s₀.Kept s) : s₀.Kept (s.bridgeTensor b g f) :=
  .ite h.setBgroup h.setBgroup.bridgeRecord

theorem Kept.groupDown {b g : Nat} (h : s₀.Kept s) : s₀.Kept (s.groupDown b g) := h.update

/-! ## Machine/Wear -/

theorem Kept.setWear {n i v : Nat} (h : s₀.Kept s) : s₀.Kept (s.setWear n i v) := h.update

theorem Kept.candidate {n : Nat} (h : s₀.Kept s) : s₀.Kept (s.candidate n) := h.foldl fun h' => h'.setWear

theorem Kept.spareRecord {kind unit point sub index d1 : Nat} (h : s₀.Kept s) : s₀.Kept (s.spareRecord kind unit point sub index d1) :=
  h.recordEvent

theorem Kept.sisterEnd {st reason : Nat} (h : s₀.Kept s) : s₀.Kept (s.sisterEnd st reason) := h.wr.wr

theorem Kept.withRetired (h : s₀.Kept s) : s₀.Kept s.withRetired := .ite h.update h.update

theorem Kept.sisterDone {cmd n : Nat} {rest : Bool} (h : s₀.Kept s) : s₀.Kept (s.sisterDone cmd n rest) := .ite h.sisterEnd h

theorem Kept.steerBegin {n i wire : Nat} (h : s₀.Kept s) : s₀.Kept (s.steerBegin n i wire) := .ite h (.ite h.candidate h.update.wr)

theorem Kept.repairDue {r : Repair} {now : State → State} (h : s₀.Kept s) (hnow : ∀ {t}, s₀.Kept t → s₀.Kept (now t)) :
    s₀.Kept (s.repairDue r now) :=
  .ite (hnow h) h.update

theorem Kept.noteWire {n i wire : Nat} (h : s₀.Kept s) : s₀.Kept (s.noteWire n i wire) :=
  .ite (h.setWear.repairDue fun h' => h'.steerBegin) h.setWear

theorem Kept.laneBegin {n lane : Nat} (h : s₀.Kept s) : s₀.Kept (s.laneBegin n lane) := .ite h.wr.candidate h.update.wr

theorem Kept.noteResidue {n lane : Nat} (h : s₀.Kept s) : s₀.Kept (s.noteResidue n lane) :=
  .ite (h.update.repairDue fun h' => h'.laneBegin) h.update

theorem Kept.laneTurn {n : Nat} (h : s₀.Kept s) : s₀.Kept (s.laneTurn n) := .ite h h.update.spareRecord.sisterDone

theorem Kept.remapRow {n k : Nat} {w : StoreWord} (h : s₀.Kept s) : s₀.Kept (s.remapRow n k w) :=
  .ite h (.spareRecord (.ite h.update.bump.bump h.update.bump))

theorem Kept.rowBad {n k : Nat} {w : StoreWord} (h : s₀.Kept s) : s₀.Kept (s.rowBad n k w) :=
  .ite (.repairDue (.ite h.candidate h) fun h' => h'.remapRow) (.ite h.candidate h)

theorem Kept.repairsBegin (h : s₀.Kept s) : s₀.Kept s.repairsBegin := by
  simp only [State.repairsBegin]
  refine h.update.foldl fun h' => ?_
  split
  · exact h'.steerBegin
  · exact h'.laneBegin
  · exact h'.remapRow

/-! ## Machine/Stores -/

theorem Kept.storeCorrected {n k : Nat} {injected : Bool} (h : s₀.Kept s) : s₀.Kept (s.storeCorrected n k injected) := h.bump.raise

theorem Kept.storeRead {n k d c : Nat} {flips : List Nat} (h : s₀.Kept s) : s₀.Kept (s.storeRead n k d c flips) :=
  .ite (.storeCorrected (.ite h.injectFired h)) (.ite h.injectFired h)

theorem Kept.storeRaise {src n point k : Nat} {w : Option (BitVec 4)} {injected : Bool} (h : s₀.Kept s) :
    s₀.Kept (s.storeRaise src n point k w injected) :=
  h.raise

/-! ## Machine/Control -/

theorem Kept.queueNak {n : Nat} {m : CtlMsg} (h : s₀.Kept s) : s₀.Kept (s.queueNak n m) := .ite h.update h.bump

theorem Kept.refuse {n i : Nat} {m : CtlMsg} {reason : BitVec 4} (h : s₀.Kept s) : s₀.Kept (s.refuse n i m reason) := h.ctlNak.countEv

theorem Kept.controlSend {n : Nat} {dest : BitVec 16} {sock : BitVec 5} {kind : BitVec 2} {tag : BitVec 8} {words : List (BitVec 32)}
    (h : s₀.Kept s) : s₀.Kept (Control.send n dest sock kind tag words s) := by
  simp only [Control.send]
  refine .ite h ?_
  refine .ite h.wakeAt ?_
  refine .ite h ?_
  split
  · exact h.queueNak.countEv.touch
  · exact h.ctlSend.touch

theorem Kept.bufferMsg {k : Nat} {m : CtlMsg} (h : s₀.Kept s) : s₀.Kept (s.bufferMsg k m) := h.update

theorem Kept.setSkip {k : Nat} {on : Bool} (h : s₀.Kept s) : s₀.Kept (s.setSkip k on) := h.update

theorem Kept.takeCtlFlit {k : Nat} {f : BitVec 72} (h : s₀.Kept s) : s₀.Kept (s.takeCtlFlit k f) := by
  simp only [State.takeCtlFlit]
  refine .ite h.setSkip.bufferMsg ?_
  refine .ite h.setSkip.update ?_
  refine .ite h ?_
  split
  · exact h
  · exact .ite h.bufferMsg h.update

theorem Kept.loseCtlFlit {n i : Nat} {injected : Bool} (h : s₀.Kept s) : s₀.Kept (s.loseCtlFlit n i injected) := by
  simp only [State.loseCtlFlit]
  split
  · exact h.raise.setSkip.bufferMsg
  · exact .ite h.raise.setSkip h.raise.setSkip.countEv

theorem Kept.controlFlitArrive {n i : Nat} {flips : List Nat} (h : s₀.Kept s) : s₀.Kept (Control.flitArrive n i flips s) := by
  simp only [Control.flitArrive]
  split
  · exact h
  refine .ite h.wakeAt ?_
  refine .ite h ?_
  refine .ctlRefill ?_
  refine .ite (.loseCtlFlit (.touch (.ite h.update.injectFired h.update))) ?_
  exact .takeCtlFlit (.touch (.ite h.update.injectFired h.update))

theorem Kept.ctlTake {n o i : Nat} {m : CtlMsg} (h : s₀.Kept s) : s₀.Kept (s.ctlTake n o i m) := h.update.ctlRefill

theorem Kept.ctlArrive {num : Nat} {m : CtlMsg} (h : s₀.Kept s) : s₀.Kept (s.ctlArrive num m) := .ite h h.update

theorem Kept.ctlTurnBack {n i : Nat} {m : CtlMsg} {reason : BitVec 4} (h : s₀.Kept s) : s₀.Kept (s.ctlTurnBack n i m reason) :=
  .ite h h.refuse

theorem Kept.ctlPass {n o i : Nat} {m : CtlMsg} (h : s₀.Kept s) : s₀.Kept (s.ctlPass n o i m) := by
  simp only [State.ctlPass]
  split
  · exact h.ctlTake.ctlTurnBack
  · refine .ite ?_ h.ctlTake.touch.ctlArrive
    refine .ite h.ctlTake.touch.ctlTurnBack ?_
    exact .ite (h.ctlTake.touch.foldl fun h' => h'.bridgeRecord) h
  split
  · exact h
  · exact .ite h.ctlTake.ctlTurnBack (.ite h.wakeAt (.ite h.ctlTake.ctlSend.touch h))

theorem Kept.landCtlFrom {b n fuel : Nat} (h : s₀.Kept s) : s₀.Kept (s.landCtlFrom b n fuel) := by
  induction fuel generalizing s with
  | zero => exact h
  | succ fuel ih =>
    simp only [State.landCtlFrom]
    split
    · exact h
    · exact .ite (.ite h (ih h.update.bridgeFree)) (ih h.bridgeFree)

theorem Kept.landCtl {b : Nat} (h : s₀.Kept s) : s₀.Kept (s.landCtl b) := by
  unfold State.landCtl
  split
  · exact .ite h h.landCtlFrom.bridgeTell
  · exact h

theorem Kept.controlForward {n o : Nat} (h : s₀.Kept s) : s₀.Kept (Control.forward n o s) := by
  simp only [Control.forward]
  refine .ite h ?_
  split
  · exact .ite h.ctlPass.landCtl h.ctlPass
  · exact h

theorem Kept.setSock {n k : Nat} {x : Sock} (h : s₀.Kept s) : s₀.Kept (s.setSock n k x) := h.update

theorem Kept.noteHigh {n k : Nat} (h : s₀.Kept s) : s₀.Kept (s.noteHigh n k) := .ite h.wr h

theorem Kept.dropAt {n k : Nat} (h : s₀.Kept s) : s₀.Kept (s.dropAt n k) := h.bump

theorem Kept.retryHeld {n k : Nat} (h : s₀.Kept s) : s₀.Kept (s.retryHeld n k) := by
  simp only [State.retryHeld]
  split
  · exact h
  split
  · exact h.setSock.countEv.noteHigh
  · exact h

theorem Kept.socketDamaged {n k : Nat} {rest : List RingItem} {injected : Bool} (h : s₀.Kept s) :
    s₀.Kept (s.socketDamaged n k rest injected) :=
  h.setSock.dropAt.storeRaise.retryHeld.touch

theorem Kept.controlPop {n k : Nat} (h : s₀.Kept s) : s₀.Kept (Control.pop n k s) := by
  simp only [Control.pop]
  refine .ite h ?_
  split
  · split
    · exact h
    refine .ite ((h.offer ‹_›).storeRead.socketDamaged.rowBad) ?_
    exact (h.offer ‹_›).storeRead.setSock.emit.retryHeld.touch
  · exact h

theorem Kept.arrivedDone {num : Nat} (h : s₀.Kept s) : s₀.Kept (s.arrivedDone num) := h.update

theorem Kept.afterOuter {n point : Nat} (h : s₀.Kept s) : s₀.Kept (s.afterOuter n point) := .ite h.injectFired h

theorem Kept.wardRefusal (h : s₀.Kept s) : s₀.Kept s.wardRefusal := h.bump

theorem Kept.portRefuse {n : Nat} {m : CtlMsg} {r : BitVec 4} (h : s₀.Kept s) : s₀.Kept (s.portRefuse n m r) := by
  simp only [State.portRefuse]
  refine .ite (.ite (.dropAt (.ite h.wardRefusal h)) (.ite h.wardRefusal h)) ?_
  exact .refuse (.ite (.dropAt (.ite h.wardRefusal h)) (.ite h.wardRefusal h))

theorem Kept.portStore {n : Nat} {m : CtlMsg} (h : s₀.Kept s) : s₀.Kept (s.portStore n m) := by
  simp only [State.portStore]
  split
  · exact h.setSock.countEv.noteHigh
  · exact h.portRefuse

theorem Kept.portDeliver {n : Nat} {m : CtlMsg} (h : s₀.Kept s) : s₀.Kept (s.portDeliver n m) := by
  simp only [State.portDeliver]
  split
  · exact h.arrivedDone.afterOuter.portRefuse
  · exact h.arrivedDone.afterOuter.portStore

theorem Kept.controlDeliver {u : Nat} (h : s₀.Kept s) : s₀.Kept (Control.deliver u s) := by
  simp only [Control.deliver]
  split
  · refine .ite h ?_
    refine .ite (.ite h h.portDeliver.touch) ?_
    refine .ite h ?_
    exact .refuse (.ite h.arrivedDone.afterOuter.touch.wardRefusal h.arrivedDone.afterOuter.touch)
  · exact h

theorem Kept.controlNakDeliver {n : Nat} (h : s₀.Kept s) : s₀.Kept (Control.nakDeliver n s) := by
  unfold Control.nakDeliver
  split
  · exact .ite h (.ite h.arrivedDone h.arrivedDone.queueNak.touch)
  · exact h

theorem Kept.controlCnHandshake {n : Nat} (h : s₀.Kept s) : s₀.Kept (Control.cnHandshake n s) := by
  simp only [Control.cnHandshake]
  split
  · refine .ite h ?_
    split
    · exact h
    · exact (h.offer ‹_›).update.emit.touch
  · exact h

theorem Kept.sockCombine {n k : Nat} {ws : List (BitVec 32)} (h : s₀.Kept s) : s₀.Kept (s.sockCombine n k ws) :=
  .ite h.setSock h.setSock.countEv.retryHeld

theorem Kept.setComb {n : Nat} {x : Combiner} (h : s₀.Kept s) : s₀.Kept (s.setComb n x) := h.update

theorem Kept.combCombine {n : Nat} {ws : List (BitVec 32)} (h : s₀.Kept s) : s₀.Kept (s.combCombine n ws) :=
  .ite h.setComb.wr h.setComb.wr.bumpWrap.countEv

theorem Kept.controlCombine {u : Nat} (h : s₀.Kept s) : s₀.Kept (Control.combine u s) := by
  simp only [Control.combine]
  split
  · refine .ite h ?_
    split
    · refine .ite h.arrivedDone.afterOuter.touch.portRefuse ?_
      exact .refuse (.ite h.arrivedDone.afterOuter.touch.wardRefusal h.arrivedDone.afterOuter.touch)
    refine .ite h.arrivedDone.afterOuter.touch.countEv.sockCombine ?_
    exact h.arrivedDone.afterOuter.touch.countEv.combCombine
  · exact h

theorem Kept.controlReleaseSend {n : Nat} (h : s₀.Kept s) : s₀.Kept (Control.releaseSend n s) := by
  simp only [Control.releaseSend]
  split
  · exact h
  · exact .ite h (.ite h.setComb.touch.bump h.setComb.touch.ctlFrom)

theorem Kept.controlReleaseDeliver {n : Nat} (h : s₀.Kept s) : s₀.Kept (Control.releaseDeliver n s) := by
  simp only [Control.releaseDeliver]
  split
  · refine .ite h ?_
    refine .ite h.arrivedDone.afterOuter.touch.dropAt ?_
    exact .noteHigh (.countEv (.setSock (.ite h.arrivedDone.afterOuter.touch h.arrivedDone.afterOuter.touch.dropAt)))
  · exact h

theorem Kept.controlHostIrq {p : Nat} (h : s₀.Kept s) : s₀.Kept (Control.hostIrq p s) := by
  simp only [Control.hostIrq]
  split
  · refine .ite h ?_
    refine .ite h.arrivedDone.afterOuter.touch.refuse ?_
    refine .ite h.arrivedDone.afterOuter.touch.wardRefusal.refuse ?_
    refine .ite h.arrivedDone.afterOuter.touch.refuse ?_
    exact .ite h.arrivedDone.afterOuter.touch.refuse h.arrivedDone.afterOuter.touch.update
  · exact h

theorem Kept.controlIrqDeliver {p : Nat} (h : s₀.Kept s) : s₀.Kept (Control.irqDeliver p s) := by
  simp only [Control.irqDeliver]
  split
  · refine .ite h ?_
    split
    · exact h
    · exact (h.offer ‹_›).update.emit.touch
  · exact h

theorem Kept.controlWriteSockCfg {n k : Nat} {v : BitVec 64} (h : s₀.Kept s) : s₀.Keeps (Control.writeSockCfg n k v s) :=
  .ite .error (.ite .error (.ite .error (.ok h.setObj)))

theorem Kept.controlClearSockStat {n k : Nat} (h : s₀.Kept s) : s₀.Keeps (Control.clearSockStat n k s) := .ite .error (.ok h.wr.wr)

theorem Kept.controlWriteCombCfg {n : Nat} {v : BitVec 64} (h : s₀.Kept s) : s₀.Keeps (Control.writeCombCfg n v s) :=
  .ite .error (.ite .error (.ok h.setObj))

theorem Kept.controlWriteReleaseMap {n : Nat} {bs : List Byte} (h : s₀.Kept s) : s₀.Keeps (Control.writeReleaseMap n bs s) :=
  .ite .error (.ok h.setDom)

theorem Kept.askRank {u i : Nat} {v : Val} (h : s₀.Kept s) : s₀.Kept (s.askRank u i v) := h.update

theorem Kept.setEntry {u i key : Nat} {v : Val} (h : s₀.Kept s) : s₀.Kept (s.setEntry u i key v) := .ite h.setObj.emit h.setObj

theorem Kept.controlWriteChan {t i : Nat} {v : BitVec 32} {acc : Access} {asker : Option (BitVec 4)} (h : s₀.Kept s) :
    s₀.Keeps (Control.writeChan t i v acc asker s) := by
  simp only [Control.writeChan]
  split
  · exact .error
  refine .ite .error ?_
  split
  · exact .error
  refine .ite (.ok h.setEntry) ?_
  split
  · exact .error
  refine .ite (.ok h.update.askRank) ?_
  split
  · exact .ite (.ok h.setEntry) .error
  · exact .error

theorem Kept.takeCheck {i k : Nat} {c : ChanCheck} (h : s₀.Kept s) (ht : s.takeCheck i k = some (c, t)) : s₀.Kept t := by
  obtain ⟨_, _, ⟨⟩⟩ := Option.map_eq_some_iff.mp ht
  exact h.update

theorem Kept.tellRanks {u k0 : Nat} (h : s₀.Kept s) : s₀.Kept (s.tellRanks u k0) := h.foldl fun h' => .ite h'.askRank h'

theorem Kept.controlWriteRank {t : Nat} {v : BitVec 8} (h : s₀.Kept s) : s₀.Keeps (Control.writeRank t v s) := by
  simp only [Control.writeRank]
  split
  · exact .error
  refine .ite .error ?_
  refine .ite ?_ .error
  refine .ok ?_
  split
  · exact h.setObj.tellRanks
  · exact h.setObj

/-! ## Machine/TxnNet -/

theorem Kept.setTlink {k : Nat} {l : TLink} (h : s₀.Kept s) : s₀.Kept (s.setTlink k l) := h.update

theorem Kept.txnSend {n i : Nat} {p : TPkt} (h : s₀.Kept s) : s₀.Kept (s.txnSend n i p) := h.update

theorem Kept.txnFrom {u : Nat} {p : TPkt} (h : s₀.Kept s) : s₀.Kept (s.txnFrom u p) := by
  unfold State.txnFrom
  split
  · exact h.txnSend
  · exact h

theorem Kept.probe {n i : Nat} {p : TPkt} (h : s₀.Kept s) : s₀.Kept (s.probe n i p) := .ite h (.ite h.bump.bump.traceQueue h.bump.bump)

theorem Kept.txnBuffer {net : Net} {n i : Nat} {p : TPkt} (h : s₀.Kept s) : s₀.Kept (s.txnBuffer net n i p) := h.update.probe

theorem Kept.txnUncorr {net : Net} {n i : Nat} {injected : Bool} (h : s₀.Kept s) : s₀.Kept (s.txnUncorr net n i injected) := h.raise

theorem Kept.txnFirst {net : Net} {n i : Nat} {flips : List Nat} {p : TPkt} {rest : List TPkt} (h : s₀.Kept s) :
    s₀.Kept (s.txnFirst net n i flips p rest) := by
  simp only [State.txnFirst]
  refine .ite (.ite (.txnUncorr (.setTlink (.ite h.injectFired h))) (.setTlink (.ite h.injectFired h))) ?_
  refine .ite (.txnUncorr (.setTlink (.ite h.injectFired h))) ?_
  exact .txnBuffer (.setTlink (.ite h.injectFired h))

theorem Kept.txnLater {n i : Nat} {flips : List Nat} {p : TPkt} {rest : List TPkt} (h : s₀.Kept s) :
    s₀.Kept (s.txnLater n i flips p rest) := by
  simp only [State.txnLater]
  split
  · exact h.setTlink
  · exact .ite (.txnBuffer (.setTlink (.ite h.txnUncorr h))) (.setTlink (.ite h.txnUncorr h))

theorem Kept.txnFlitArrive {n : Nat} {net : Net} {i : Nat} {flips : List Nat} (h : s₀.Kept s) :
    s₀.Kept (Txn.flitArrive n net i flips s) := by
  simp only [Txn.flitArrive]
  split
  · exact h
  · exact .ite h.wakeAt (.ite h (.ite h.txnLater.touch h.txnFirst.touch))

theorem Kept.txnTake {net : Net} {n o i : Nat} (h : s₀.Kept s) : s₀.Kept (s.txnTake net n o i) := h.update

theorem Kept.txnArrive {p : TPkt} (h : s₀.Kept s) : s₀.Kept (s.txnArrive p) := h.update

theorem Kept.txnOuterRaise {n u : Nat} {p : TPkt} (h : s₀.Kept s) : s₀.Kept (s.txnOuterRaise n u p) := .raise (.ite h.injectFired h)

theorem Kept.snoopsGo {n : Nat} (h : s₀.Kept s) : s₀.Kept (s.snoopsGo n) := .ite h (h.update.foldl fun h' => h'.emit)

theorem Kept.snoopCore {n u : Nat} {p : TPkt} (h : s₀.Kept s) : s₀.Kept (s.snoopCore n u p) := .ite h.txnOuterRaise h.update.snoopsGo

theorem Kept.txnForward {n : Nat} {net : Net} {o : Nat} (h : s₀.Kept s) : s₀.Kept (Txn.forward n net o s) := by
  simp only [Txn.forward]
  refine .ite h ?_
  split
  · exact h
  refine .ite h.txnTake.touch ?_
  refine .ite ?_ (.ite h.txnTake.touch.snoopCore h.txnTake.touch.txnArrive)
  split
  · exact h
  refine .ite h.txnTake.touch ?_
  exact .ite (.touch (.txnSend (.txnTake (.ite h.wakeAt h)))) (.ite h.wakeAt h)

/-! ## Machine/GateLink -/

theorem Kept.setGate {g : Nat} {x : Gate} (h : s₀.Kept s) : s₀.Kept (s.setGate g x) := h.update

theorem Kept.gateQueue {g : Nat} {p : FPkt} {free : Bool} (h : s₀.Kept s) : s₀.Kept (s.gateQueue g p free) := h.update

theorem Kept.gateAnswer {g : Nat} {tag : BitVec 10} {status : BitVec 3} {data : List (BitVec 1024)} (h : s₀.Kept s) :
    s₀.Kept (s.gateAnswer g tag status data) := by
  simp only [State.gateAnswer]
  split
  · exact h
  · exact h.setGate.gateQueue

/-! ## Machine/TensorBase -/

theorem Kept.setBank {n sel : Nat} {b : Bank} (h : s₀.Kept s) : s₀.Kept (s.setBank n sel b) := h.update

theorem Kept.setIng {n i : Nat} {x : Ingress} (h : s₀.Kept s) : s₀.Kept (s.setIng n i x) := h.update

theorem Kept.setTin {n i : Nat} {x : TIn} (h : s₀.Kept s) : s₀.Kept (s.setTin n i x) := h.update

theorem Kept.setTout {n o : Nat} {x : TOut} (h : s₀.Kept s) : s₀.Kept (s.setTout n o x) := h.update

theorem Kept.setDlv {n o : Nat} {x : TDlv} (h : s₀.Kept s) : s₀.Kept (s.setDlv n o x) := h.update

theorem Kept.setNode {n : Nat} {x : TNode} (h : s₀.Kept s) : s₀.Kept (s.setNode n x) := h.update

theorem Kept.setSched {w : Nat} {x : SchedState} (h : s₀.Kept s) : s₀.Kept (s.setSched w x) := h.update

theorem Kept.settleIn {n i : Nat} (h : s₀.Kept s) : s₀.Kept (s.settleIn n i) := by
  simp only [State.settleIn]
  split
  · exact h
  · exact .ite h (.ite h.setTin h)

theorem Kept.takeIn {n i t : Nat} (h : s₀.Kept s) : s₀.Kept (s.takeIn n i t) := h.setTin.settleIn

theorem Kept.settleNode {n : Nat} (h : s₀.Kept s) : s₀.Kept (s.settleNode n) := .ite h.setNode h

theorem Kept.takeNode {n t : Nat} (h : s₀.Kept s) : s₀.Kept (s.takeNode n t) := h.setNode.settleNode

theorem Kept.feedNode {n i : Nat} (h : s₀.Kept s) : s₀.Kept (s.feedNode n i) := by
  simp only [State.feedNode]
  split
  · exact .ite h (.ite (.takeIn (.ite h.setNode h)) (.ite h h.setNode.takeIn))
  · exact h

theorem Kept.feedNodes {n : Nat} (h : s₀.Kept s) : s₀.Kept (s.feedNodes n) := h.foldl fun h' => h'.feedNode

theorem Kept.emptyOp {n i : Nat} (h : s₀.Kept s) : s₀.Kept (s.emptyOp n i) := h.setNode.feedNode

theorem Kept.wakeAhead {k : Nat} (h : s₀.Kept s) : s₀.Kept (s.wakeAhead k) := h.update.wake

theorem Kept.askWakes {n mask : Nat} (h : s₀.Kept s) : s₀.Kept (s.askWakes n mask) := h.foldl fun h' => .ite h'.sendCommand h'

theorem Kept.settleOut {n o : Nat} (h : s₀.Kept s) : s₀.Kept (s.settleOut n o) := .ite h h.setTout.askWakes

theorem Kept.sendFlit {n i : Nat} {f : TFlit} (h : s₀.Kept s) : s₀.Kept (s.sendFlit n i f) := h.update

theorem Kept.bridgeFeedFrom {b g n i fuel : Nat} (h : s₀.Kept s) : s₀.Kept (s.bridgeFeedFrom b g n i fuel) := by
  induction fuel generalizing s with
  | zero => exact h
  | succ fuel ih =>
    simp only [State.bridgeFeedFrom]
    split
    · exact h
    · exact .ite (ih h.sendFlit.bridgeFree) h

theorem Kept.bridgeFeed {b g : Nat} (h : s₀.Kept s) : s₀.Kept (s.bridgeFeed b g) := by
  unfold State.bridgeFeed
  refine .ite h ?_
  split
  · exact h.bridgeFeedFrom.bridgeTell
  · exact h

theorem Kept.refillFromBridge {n i : Nat} (h : s₀.Kept s) : s₀.Kept (s.refillFromBridge n i) := by
  unfold State.refillFromBridge
  split
  · exact .ite h h.bridgeFeed
  · exact h

theorem Kept.swapNode {n : Nat} (h : s₀.Kept s) : s₀.Kept (s.swapNode n) := .ite h (.ite h.setNode.wr.feedNodes h)

theorem Kept.swapOut {n o : Nat} (h : s₀.Kept s) : s₀.Kept (s.swapOut n o) := by
  simp only [State.swapOut]
  refine .ite h ?_
  split
  · exact .ite h.setTout.wr (.ite h.setTout.wr.bridgeRecord h)
  refine .ite h.setTout.wr ?_
  split
  · exact .ite h.setTout.wr.sendFlit h
  · exact h.setTout.wr

theorem Kept.swapIn {n i : Nat} (h : s₀.Kept s) : s₀.Kept (s.swapIn n i) := .ite h (.ite (.ite h.setTin.wr.setIng h.setTin.wr) h)

theorem Kept.swapTry {n : Nat} (h : s₀.Kept s) : s₀.Kept (s.swapTry n) :=
  .ite h ((h.swapNode.foldl fun h' => h'.swapOut).foldl fun h' => h'.swapIn)

theorem Kept.swapBehind {n i : Nat} (h : s₀.Kept s) : s₀.Kept (s.swapBehind n i) := by
  unfold State.swapBehind
  refine .ite ?_ h
  split
  · exact .ite h.swapTry h
  · exact h

theorem Kept.leaveSwap {w : BitVec 4} (h : s₀.Kept s) : s₀.Kept (s.leaveSwap w) :=
  .ite h (h.foldl fun h' => .wr (.update (.ite h'.wr h')))

/-! ## Machine/Taps -/

theorem Kept.setTap {n : Nat} {x : TapState} (h : s₀.Kept s) : s₀.Kept (s.setTap n x) := h.update

theorem Kept.tapSee {n o flow : Nat} {f : TFlit} (h : s₀.Kept s) : s₀.Kept (s.tapSee n o flow f) := by
  simp only [State.tapSee]
  split
  · exact .ite h.setTap h
  · exact .ite (.ite h.setTap.setDom.wr h.setTap.setDom) h.setTap

/-! ## Machine/Reduction -/

theorem Kept.setCap {n slot : Nat} {c : TCap} (h : s₀.Kept s) : s₀.Kept (s.setCap n slot c) := h.update

theorem Kept.takeOperands {n : Nat} {r : List Byte} (h : s₀.Kept s) : s₀.Kept (s.takeOperands n r) := h.foldl fun h' => h'.emptyOp

theorem Kept.haltNode {n : Nat} {injected : Bool} (h : s₀.Kept s) : s₀.Kept (s.haltNode n injected) := h.setNode.wr.storeRaise.rowBad

theorem Kept.joinReads {n : Nat} (h : s₀.Kept s) : s₀.Kept (s.joinReads n) := h.storeRead

theorem Kept.joinFaults {n flow : Nat} {short : Bool} {viol : Nat} {residue : Option (BitVec 3)} {injected : Bool} (h : s₀.Kept s) :
    s₀.Kept (s.joinFaults n flow short viol residue injected) := by
  simp only [State.joinFaults]
  split
  · refine .noteResidue ?_
    refine .ite (.raise (.bump (.foldl (.ite h.bump.raise h) fun h' => h'.bump.raise))) ?_
    exact .foldl (.ite h.bump.raise h) fun h' => h'.bump.raise
  refine .ite (.raise (.bump (.foldl (.ite h.bump.raise h) fun h' => h'.bump.raise))) ?_
  exact .foldl (.ite h.bump.raise h) fun h' => h'.bump.raise

theorem Kept.latchJoin {n : Nat} {r : List Byte} {j : JFlit} {fs : List TFlit} {err last : Bool} (h : s₀.Kept s) :
    s₀.Kept (s.latchJoin n r j fs err last) :=
  h.setNode.tapSee.countEv

theorem Kept.joinForward {n : Nat} {r : List Byte} {last : Bool} (h : s₀.Kept s) : s₀.Kept (s.joinForward n r last) :=
  .ite h.setNode.setCap h.setNode

theorem Kept.joinAt {n : Nat} {r : List Byte} {fs : List TFlit} {residue : Option (BitVec 3)} (h : s₀.Kept s) :
    s₀.Kept (s.joinAt n r fs residue) := by
  simp only [State.joinAt]
  refine .swapTry ?_
  refine .settleNode ?_
  refine .takeOperands ?_
  refine .joinForward ?_
  refine .ite ?_ ?_
  · refine .laneTurn ?_
    refine .ite ?_ ?_
    · refine .setNode ?_
      refine .latchJoin ?_
      refine .joinFaults ?_
      refine .ite (.storeRaise (.ite (.injectFired (.ite h.joinReads h)) (.ite h.joinReads h))) ?_
      exact .ite (.injectFired (.ite h.joinReads h)) (.ite h.joinReads h)
    · refine .latchJoin ?_
      refine .joinFaults ?_
      refine .ite (.storeRaise (.ite (.injectFired (.ite h.joinReads h)) (.ite h.joinReads h))) ?_
      exact .ite (.injectFired (.ite h.joinReads h)) (.ite h.joinReads h)
  · refine .ite ?_ ?_
    · refine .setNode ?_
      refine .latchJoin ?_
      refine .joinFaults ?_
      refine .ite (.storeRaise (.ite (.injectFired (.ite h.joinReads h)) (.ite h.joinReads h))) ?_
      exact .ite (.injectFired (.ite h.joinReads h)) (.ite h.joinReads h)
    · refine .latchJoin ?_
      refine .joinFaults ?_
      refine .ite (.storeRaise (.ite (.injectFired (.ite h.joinReads h)) (.ite h.joinReads h))) ?_
      exact .ite (.injectFired (.ite h.joinReads h)) (.ite h.joinReads h)

theorem Kept.reductionStep {n : Nat} {residueBad : Option (BitVec 3)} (h : s₀.Kept s) : s₀.Kept (Reduction.step n residueBad s) := by
  simp only [Reduction.step]
  refine .ite h ?_
  split
  · exact h
  refine .ite h ?_
  split
  · exact h
  · exact .ite (.ite h.joinReads.haltNode h.joinReads.joinAt.touch) h.joinAt.touch

theorem Kept.captureInto {n flow : Nat} {r : List Byte} {f : TFlit} (h : s₀.Kept s) : s₀.Kept (s.captureInto n flow r f) := h.update

theorem Kept.reductionCapture {n : Nat} (h : s₀.Kept s) : s₀.Kept (Reduction.capture n s) := by
  simp only [Reduction.capture]
  refine .ite h ?_
  split
  · exact h
  refine .touch ?_
  refine .swapTry ?_
  refine .ite ((h.foldl fun h' => h'.captureInto).takeNode) ?_
  exact (h.foldl fun h' => h'.captureInto).emptyOp

/-! ## Machine/Txn -/

theorem Kept.setTarget {u : Nat} {x : TTarget} (h : s₀.Kept s) : s₀.Kept (s.setTarget u x) := h.update

theorem Kept.grantSlot {u : Nat} {r : TPkt} (h : s₀.Kept s) : s₀.Kept (s.grantSlot u r) := .ite h.setTarget h.setTarget.txnFrom

theorem Kept.backOff {u : Nat} {r : TPkt} (h : s₀.Kept s) : s₀.Kept (s.backOff u r) :=
  .ite (.update (.setTarget (.ite h.bump h))) (.txnFrom (.setTarget (.ite h.bump h)))

theorem Kept.setChoice {u pl : Nat} {c : Option (BitVec 16)} (h : s₀.Kept s) : s₀.Kept (s.setChoice u pl c) := h.update

theorem Kept.arbGrant {u pl : Nat} (h : s₀.Kept s) : s₀.Kept (s.arbGrant u pl) := by
  simp only [State.arbGrant]
  split
  · exact h
  split
  · exact h.setChoice
  · exact (h.grantSlot.setChoice.foldl fun h' => h'.backOff)

theorem Kept.arbStep {u pl : Nat} (h : s₀.Kept s) : s₀.Kept (s.arbStep u pl) := by
  unfold State.arbStep
  refine .ite h ?_
  refine .ite h.arbGrant ?_
  split
  · exact h.grantSlot
  · exact h

theorem Kept.arbitrate {u pl : Nat} (h : s₀.Kept s) : s₀.Kept (s.arbitrate u pl) := h.foldl fun h' => h'.arbStep

theorem Kept.latchReservation {u : Nat} {r : TPkt} (h : s₀.Kept s) : s₀.Kept (s.latchReservation u r) :=
  .arbitrate (.ite h.setTarget.setChoice h.setTarget)

theorem Kept.takeReturn {u : Nat} {r : TPkt} (h : s₀.Kept s) : s₀.Kept (s.takeReturn u r) := by
  simp only [State.takeReturn]
  split
  · exact h.setTarget.arbitrate
  · exact h

theorem Kept.rechoose {u pl : Nat} (h : s₀.Kept s) : s₀.Kept (s.rechoose u pl) := by
  simp only [State.rechoose]
  split
  · exact h
  · exact .ite h h.setChoice

theorem Kept.withdraw {u : Nat} {pick : TPkt → Bool} (h : s₀.Kept s) : s₀.Kept (s.withdraw u pick) :=
  h.setTarget.foldl fun h' => h'.rechoose.arbitrate

theorem Kept.slotAnswer {u : Nat} {src : BitVec 16} {tag : BitVec 10} {gen : BitVec 4} {status : BitVec 3} {data : List (BitVec 1024)}
    (h : s₀.Kept s) : s₀.Kept (s.slotAnswer u src tag gen status data) := by
  simp only [State.slotAnswer]
  split
  · exact h
  split
  · exact h
  · exact h.txnFrom.setTarget.arbitrate

theorem Kept.setTinit {u : Nat} {x : TInit} (h : s₀.Kept s) : s₀.Kept (s.setTinit u x) := h.update

theorem Kept.setClaim {u k : Nat} {c : Claim} (h : s₀.Kept s) : s₀.Kept (s.setClaim u k c) := h.update

theorem Kept.reserveFor {u k : Nat} (h : s₀.Kept s) : s₀.Kept (s.reserveFor u k) := by
  simp only [State.reserveFor]
  split
  · exact h
  · exact .ite h h.setClaim.txnFrom

theorem Kept.reservePools {u : Nat} {tgt : BitVec 16} {level : BitVec 2} (h : s₀.Kept s) : s₀.Kept (s.reservePools u tgt level) :=
  .ite (h.foldl fun h' => h'.reserveFor) h.reserveFor

theorem Kept.sendTxn {u : Nat} {o : OpenTxn} {carried : Nat} (h : s₀.Kept s) : s₀.Kept (s.sendTxn u o carried) :=
  .ite h.setTinit.txnFrom.txnFrom.countEv h.setTinit.txnFrom

theorem Kept.useSlot {u : Nat} {tgt : BitVec 16} {level : BitVec 2} {ward : BitVec 4} {carried : Nat} (h : s₀.Kept s) :
    s₀.Kept (s.useSlot u tgt level ward carried) := by
  simp only [State.useSlot]
  split
  · exact h.sendTxn.reservePools
  · exact h.txnFrom

theorem Kept.sendAcross {b : Nat} {p : TPkt} (h : s₀.Kept s) : s₀.Kept (s.sendAcross b p) := h.foldl fun h' => h'.bridgeRecord

theorem Kept.answerAcross {b : Nat} {dest : BitVec 16} {ward : BitVec 4} {level : BitVec 2} {tag : BitVec 10} {gen : BitVec 4} {status
    : BitVec 3} {data : List (BitVec 1024)}
    (h : s₀.Kept s) : s₀.Kept (s.answerAcross b dest ward level tag gen status data) :=
  h.sendAcross

theorem Kept.answerOwner {u : Nat} {o : OpenTxn} {status : BitVec 3} {data : List (BitVec 1024)} (h : s₀.Kept s) :
    s₀.Kept (s.answerOwner u o status data) := by
  simp only [State.answerOwner]
  split
  · refine .ite (.bump (.ite (.countEv (.ite h.bump h)) (.ite h.bump h))) ?_
    exact .setTinit (.ite (.countEv (.ite h.bump h)) (.ite h.bump h))
  · refine .ite (.bump (.ite (.countEv (.ite h.bump h)) (.ite h.bump h))) ?_
    refine .ite (.emit (.ite (.countEv (.ite h.bump h)) (.ite h.bump h))) ?_
    exact .setTinit (.ite (.countEv (.ite h.bump h)) (.ite h.bump h))
  · refine .ite (.bump (.ite (.countEv (.ite h.bump h)) (.ite h.bump h))) ?_
    exact .bump (.ite (.countEv (.ite h.bump h)) (.ite h.bump h))
  · exact .ite (.countEv (.ite h.bump h)) (.ite h.bump h)
  · refine .ite (.answerAcross (.ite (.countEv (.ite h.bump h)) (.ite h.bump h))) ?_
    refine .ite (.gateAnswer (.ite (.countEv (.ite h.bump h)) (.ite h.bump h))) ?_
    exact .slotAnswer (.ite (.countEv (.ite h.bump h)) (.ite h.bump h))
  · exact .update (.ite (.countEv (.ite h.bump h)) (.ite h.bump h))

theorem Kept.endTxn {u : Nat} {o : OpenTxn} {status : BitVec 3} {data : List (BitVec 1024)} (h : s₀.Kept s) :
    s₀.Kept (s.endTxn u o status data) :=
  .ite h.setTinit.answerOwner.useSlot h.setTinit.answerOwner

theorem Kept.settleTokens {u : Nat} {old new : Val} (h : s₀.Kept s) : s₀.Kept (s.settleTokens u old new) := h.update

theorem Kept.txnPump {u fuel : Nat} (h : s₀.Kept s) : s₀.Kept (s.txnPump u fuel) := by
  induction fuel generalizing s with
  | zero => exact h
  | succ fuel ih =>
    simp only [State.txnPump]
    split
    · exact (ih h.setTinit.endTxn)
    split
    · exact h
    · exact (ih h.setTinit.reserveFor)

theorem Kept.txnGo {u : Nat} (h : s₀.Kept s) : s₀.Kept (s.txnGo u) := h.txnPump

theorem Kept.finishTxn {u : Nat} {o : OpenTxn} {status : BitVec 3} {data : List (BitVec 1024)} (h : s₀.Kept s) :
    s₀.Kept (s.finishTxn u o status data) :=
  h.endTxn.txnGo

theorem Kept.openTxn {u : Nat} {a : TAsk} {tgt : BitVec 16} {tag : BitVec 10} {gen : BitVec 4} {owner : TxnOwner} (h : s₀.Kept s) :
    s₀.Kept (s.openTxn u a tgt tag gen owner) :=
  h.setTinit.txnGo

theorem Kept.acceptTxn {u : Nat} {a0 : TAsk} {tag : BitVec 10} {owner : TxnOwner} (h : s₀.Kept s) :
    s₀.Kept (s.acceptTxn u a0 tag owner) := by
  simp only [State.acceptTxn]
  refine .ite h.setTinit.answerOwner ?_
  refine .ite h.setTinit.openTxn ?_
  split
  · exact h.setTinit.openTxn
  · exact h.setTinit.answerOwner

theorem Kept.txnAcceptCore {n : Nat} {rq : TxnArgs} (h : s₀.Kept s) : s₀.Kept (Txn.acceptCore n rq s) :=
  .ite h (.ite h.wakeAt (.ite h (.ite h.answerOwner.touch h.acceptTxn.touch)))

theorem Kept.txnAccept {u : Nat} {rq : TxnArgs} (h : s₀.Kept s) : s₀.Kept (Txn.accept u rq s) :=
  .ite h.txnAcceptCore (.ite h.acceptTxn h)

theorem Kept.txnDue {n : Nat} (h : s₀.Kept s) (ht : s.txnDue n = some t) : s₀.Kept t := by
  unfold State.txnDue at ht
  split at ht <;> cases ht
  exact h.advance

theorem Kept.txnTokens {u : Nat} (h : s₀.Kept s) : s₀.Kept (Txn.tokens u s) := by
  unfold Txn.tokens
  split
  · exact h
  · exact .ite h h.advance.txnGo

theorem Kept.takeArrived {net : Net} {u : Nat} {pick : TPkt → Bool} {p : TPkt} (h : s₀.Kept s)
    (ht : s.takeArrived net u pick = some (p, t)) : s₀.Kept t := by
  unfold State.takeArrived at ht
  split at ht <;> cases ht
  exact h.update

/-- The packet taken leaves the state without it, and so does one that is discarded. -/
theorem Kept.takeKind {k : TKind} {u : Nat} {p : TPkt} (h : s₀.Kept s) (ht : s.takeKind k u = .ok (p, t)) : s₀.Kept t := by
  unfold State.takeKind at ht
  split at ht
  · cases ht
  split at ht
  · cases ht
  split at ht
  · cases ht
  split at ht <;> cases ht
  exact h.takeArrived ‹_›

theorem Kept.takeKindError {k : TKind} {u : Nat} (h : s₀.Kept s) (ht : s.takeKind k u = .error t) : s₀.Kept t := by
  unfold State.takeKind at ht
  split at ht
  · cases ht; exact h
  split at ht
  · cases ht; exact h
  split at ht
  · cases ht; exact h
  split at ht <;> cases ht
  exact (h.takeArrived ‹_›).txnOuterRaise

theorem Kept.txnReservationArrive {u : Nat} (h : s₀.Kept s) : s₀.Kept (Txn.reservationArrive u s) := by
  unfold Txn.reservationArrive
  split
  · exact (h.takeKindError ‹_›)
  · exact (h.takeKind ‹_›).latchReservation

theorem Kept.txnLeaseArrive {u : Nat} (h : s₀.Kept s) : s₀.Kept (Txn.leaseArrive u s) := by
  unfold Txn.leaseArrive
  split
  · exact (h.takeKindError ‹_›)
  · exact (h.takeKind ‹_›).takeReturn

theorem Kept.txnGrantArrive {u : Nat} (h : s₀.Kept s) : s₀.Kept (Txn.grantArrive u s) := by
  unfold Txn.grantArrive
  split
  · exact (h.takeKindError ‹_›)
  · exact (h.takeKind ‹_›).setClaim.useSlot

theorem Kept.txnBackoffArrive {u : Nat} (h : s₀.Kept s) : s₀.Kept (Txn.backoffArrive u s) := by
  unfold Txn.backoffArrive
  split
  · exact (h.takeKindError ‹_›)
  · exact (h.takeKind ‹_›).setClaim

theorem Kept.waitDue {n : Nat} (h : s₀.Kept s) (ht : s.waitDue n = some t) : s₀.Kept t := by
  unfold State.waitDue at ht
  split at ht <;> cases ht
  exact h.advance

theorem Kept.pathAsk {v : Nat} (h : s₀.Kept s) : s₀.Kept (s.pathAsk v) := .ite h h.latchReservation

theorem Kept.pathDone {v : Nat} (h : s₀.Kept s) : s₀.Kept (s.pathDone v) := by
  simp only [State.pathDone]
  exact h.setTarget.update.withdraw

theorem Kept.pathRetry {v : Nat} (h : s₀.Kept s) : s₀.Kept (s.pathRetry v) := by
  simp only [State.pathRetry]
  split
  · exact h
  split
  · exact h
  · exact (h.waitDue ‹_›).update.pathAsk

theorem Kept.txnBackoffExpire {u target : Nat} {level : BitVec 2} (h : s₀.Kept s) : s₀.Kept (Txn.backoffExpire u target level s) := by
  simp only [Txn.backoffExpire]
  split
  · exact h
  split
  · exact h
  · exact (h.waitDue ‹_›).setClaim.reserveFor

theorem Kept.lateAnswer {u : Nat} {tag : BitVec 10} {gen : BitVec 4} (h : s₀.Kept s) : s₀.Kept (s.lateAnswer u tag gen) := by
  simp only [State.lateAnswer]
  split
  · exact h
  · exact .ite (.useSlot (.ite h.setTinit.bump h.setTinit)) (.ite h.setTinit.bump h.setTinit)

theorem Kept.answerArrives {u : Nat} {p : TPkt} {status : BitVec 3} {data : List (BitVec 1024)} (h : s₀.Kept s) :
    s₀.Kept (s.answerArrives u p status data) := by
  unfold State.answerArrives
  split
  · exact h.finishTxn
  · exact h.lateAnswer

theorem Kept.txnResponseArrive {u : Nat} (h : s₀.Kept s) : s₀.Kept (Txn.responseArrive u s) := by
  unfold Txn.responseArrive
  split
  · exact (h.takeKindError ‹_›)
  · exact (h.takeKind ‹_›).answerArrives

theorem Kept.readDataArrives {n u : Nat} {p : TPkt} (h : s₀.Kept s) : s₀.Kept (s.readDataArrives n u p) :=
  .ite h.txnOuterRaise.answerArrives h.answerArrives

theorem Kept.timeoutTxn {u : Nat} {o : OpenTxn} (h : s₀.Kept s) : s₀.Kept (s.timeoutTxn u o) := by
  simp only [State.timeoutTxn]
  refine .ite ?_ ?_
  · refine .reservePools ?_
    refine .ite (.setClaim (.finishTxn (.ite h.setTinit.bump h.setTinit))) ?_
    exact .finishTxn (.ite h.setTinit.bump h.setTinit)
  · refine .ite (.setClaim (.finishTxn (.ite h.setTinit.bump h.setTinit))) ?_
    exact .finishTxn (.ite h.setTinit.bump h.setTinit)

theorem Kept.txnTimeout {u : Nat} {tag : BitVec 10} (h : s₀.Kept s) : s₀.Kept (Txn.timeout u tag s) := by
  unfold Txn.timeout
  split
  · exact h
  split
  · exact h
  · exact (h.txnDue ‹_›).timeoutTxn

theorem Kept.txnQuarantineExpire {u : Nat} {tag : BitVec 10} (h : s₀.Kept s) : s₀.Kept (Txn.quarantineExpire u tag s) := by
  simp only [Txn.quarantineExpire]
  split
  · exact h
  split
  · exact h
  · exact (h.txnDue ‹_›).setTinit

theorem Kept.txnResponseBeat {u : Nat} (h : s₀.Kept s) : s₀.Kept (Txn.responseBeat u s) := by
  simp only [Txn.responseBeat]
  split
  · exact h
  refine .ite h ?_
  split
  · exact h
  · exact (h.offer ‹_›).setTinit.emit

theorem Kept.txnAdapterReset {u : Nat} (h : s₀.Kept s) : s₀.Kept (s.txnAdapterReset u) :=
  .foldl (.foldl (.ite h.setTinit.bump h.setTinit.bump) fun h' => h'.withdraw) fun h' => .ite h'.setClaim h'

/-! ## Machine/Dict -/

theorem Kept.answerSlot {p : Path} {unit : BitVec 16} {tag : BitVec 10} {bs : List Byte} (h : s₀.Kept s) :
    s₀.Kept (s.answerSlot p unit tag bs) := by
  unfold State.answerSlot
  split
  · exact h.slotAnswer
  · exact h.emit

theorem Kept.setMailbox {p : Nat} {m : Mailbox} (h : s₀.Kept s) : s₀.Kept (s.setMailbox p m) := h.update

theorem Kept.answerMailbox {p : Nat} {bs : List Byte} (h : s₀.Kept s) : s₀.Kept (s.answerMailbox p bs) :=
  .ite h.setMailbox.hostVector h.setMailbox

theorem Kept.serviceNext (h : s₀.Kept s) : s₀.Kept s.serviceNext := by
  simp only [State.serviceNext]
  exact .ite h.pathDone h.pathDone.pathAsk

theorem Kept.answer {acc : Access} {cmd i sub : Nat} {r : Reply} (h : s₀.Kept s) : s₀.Kept (s.answer acc cmd i sub r) := by
  simp only [State.answer]
  split
  · split
    · exact h.update.pathDone.mctpSend
    · exact h.emit
  · exact h.answerMailbox.pathDone
  · exact h.answerSlot
  · exact h.answerSlot
  · exact h.update.serviceNext.ctlReply
  · exact h.emit

theorem Kept.respond {acc : Access} {cmd i sub : Nat} {r : Reply} (h : s₀.Kept s) : s₀.Kept (s.respond acc cmd i sub r) :=
  .answer (.ite h.bump.bump h.bump)

theorem Kept.abortRequest {acc : Access} {cmd i sub : Nat} {xfer : BitVec 16} {a : Abort} (h : s₀.Kept s) :
    s₀.Kept (s.abortRequest acc cmd i sub xfer a) :=
  h.respond

theorem Kept.refuseNow {acc : Access} {cmd i sub : Nat} {xfer : BitVec 16} {a : Abort} (h : s₀.Kept s) :
    s₀.Kept (s.refuseNow acc cmd i sub xfer a) :=
  h.abortRequest

theorem Kept.tileRefuse {x : Slot} (h : s₀.Kept s) : s₀.Kept (s.tileRefuse x) := by
  simp only [State.tileRefuse]
  split
  · refine .ite h.slotAnswer ?_
    split
    · exact .ite h h.refuseNow
    · exact h
  · exact h

theorem Kept.serveTile (h : s₀.Kept s) : s₀.Kept s.serveTile := h.foldl fun h' => h'.tileRefuse

theorem Kept.unspoilt {k : Nat} (h : s₀.Kept s) : s₀.Kept (s.unspoilt k) := h.update

theorem Kept.written {acc : Access} {k ty : Nat} (h : s₀.Kept s) : s₀.Kept (s.written acc k ty) := h.unspoilt.respond

theorem Kept.serveKey {acc : Access} {k : Nat} {v : Val} {eff : Val → Effect}
    (h : s₀.Kept s) (heff : ∀ {x0 t}, s₀.Kept t → s₀.Keeps (eff x0 t)) : s₀.Kept (s.serveKey acc k v eff) := by
  unfold State.serveKey
  refine .ite h ?_
  split
  · exact h.abortRequest
  split
  · exact h.abortRequest
  · exact (heff h _ ‹_›).written

theorem Kept.serveThen {acc : Access} {k : Nat} {v : Val} {eff : Val → Effect} {after : State → State}
    (h : s₀.Kept s) (heff : ∀ {x0 t}, s₀.Kept t → s₀.Keeps (eff x0 t)) (hafter : ∀ {t}, s₀.Kept t → s₀.Kept (after t)) :
    s₀.Kept (s.serveThen acc k v eff after) := by
  simp only [State.serveThen]
  refine .ite h ?_
  split
  · exact h.abortRequest
  split
  · exact h.abortRequest
  · exact (hafter ((heff h _ ‹_›).written))

theorem Kept.storeVal {k : Nat} {v : Val} (h : s₀.Kept s) : s₀.Keeps (storeVal k v s) := .ok h.setObj

theorem Kept.peerAsk {die beats : Nat} {q : ReqPdu} {owner : TxnOwner} (h : s₀.Kept s) : s₀.Kept (s.peerAsk die q beats owner).1 := by
  unfold State.peerAsk
  split
  · exact h
  · exact h.acceptTxn

theorem Kept.peerWrite {die i sub : Nat} {bs : List Byte} (h : s₀.Kept s) : s₀.Kept (s.peerWrite die i sub bs) := h.peerAsk

/-! ## Machine/Tensor -/

theorem Kept.ingBoundary {n i : Nat} (h : s₀.Kept s) : s₀.Kept (s.ingBoundary n i) := by
  simp only [State.ingBoundary]
  split
  · exact h
  · exact .ite h (.ite h.setIng (.ite h.setIng.sendFlit h))

theorem Kept.ingBegin {n i : Nat} (h : s₀.Kept s) : s₀.Kept (s.ingBegin n i) := by
  simp only [State.ingBegin]
  split
  · exact h
  · exact h.setIng

theorem Kept.ingEnd {n i : Nat} (h : s₀.Kept s) : s₀.Kept (s.ingEnd n i) := h.setIng.ingBoundary

theorem Kept.ingFlit {n i : Nat} {p : BitVec 4096} {flags : Nat} {err last : Bool} (h : s₀.Kept s) :
    s₀.Kept (s.ingFlit n i p flags err last) :=
  .ite h.setIng.sendFlit.ingEnd h.setIng.sendFlit

theorem Kept.ingLength {n i src : Nat} (h : s₀.Kept s) : s₀.Kept (s.ingLength n i src) := h.raise

theorem Kept.ingTakeAs {n i : Nat} {p : BitVec 4096} {flags : Nat} {err last : Bool} (h : s₀.Kept s) :
    s₀.Kept (s.ingTakeAs n i p flags err last) := by
  simp only [State.ingTakeAs]
  refine .ite (.ite h.setIng h) ?_
  refine .ite ?_ (.ite (.ingFlit (.ingLength (.ite h.ingBegin h))) (.ingFlit (.ite h.ingBegin h)))
  refine .ite (.ingFlit (.ingLength (.ite h.ingBegin h))) ?_
  exact .setIng (.ingFlit (.ingLength (.ite h.ingBegin h)))

theorem Kept.ingTake {n i : Nat} {p : BitVec 4096} {last : Bool} (h : s₀.Kept s) : s₀.Kept (s.ingTake n i p last) := h.ingTakeAs

theorem Kept.tensorInject {n : Nat} {side : Side} {flow : BitVec 12} {lower : BitVec 4096} {upper : Option (BitVec 4096)} {last : Bool}
    (h : s₀.Kept s) : s₀.Kept (Tensor.inject n side flow lower upper last s) := by
  simp only [Tensor.inject]
  refine .ite h.bump ?_
  refine .ite h ?_
  refine .ite h.wakeAt ?_
  refine .ite h ?_
  refine .ite (.ite h h.setIng.raise) ?_
  split
  · exact h.setIng.ingTake.touch
  · exact h.setIng.ingTake.ingTake.touch

theorem Kept.ingCut {n i : Nat} (h : s₀.Kept s) : s₀.Kept (s.ingCut n i) := .ite h.setIng.ingFlit h.setIng

theorem Kept.ingAbort {n i : Nat} {rest : Bool} (h : s₀.Kept s) : s₀.Kept (s.ingAbort n i rest) := .ite h.setIng h.setIng.ingCut

theorem Kept.ingGoes {n i : Nat} (h : s₀.Kept s) : s₀.Kept (s.ingGoes n i) := .ite h (.ite h.ingCut h.ingBoundary)

theorem Kept.noteCorrection {n i j bit : Nat} {injected : Bool} (h : s₀.Kept s) : s₀.Kept (s.noteCorrection n i j bit injected) :=
  .ite h h.bump.raise.noteWire

theorem Kept.noteLanes {n i : Nat} {flips : List Nat} (h : s₀.Kept s) : s₀.Kept (s.noteLanes n i flips) := by
  simp only [State.noteLanes]
  refine h.foldl fun h' => ?_
  split
  · exact .ite (.ite h'.injectFired h') (.noteCorrection (.ite h'.injectFired h'))
  · exact .ite h'.injectFired h'

theorem Kept.holdFlit {n i : Nat} {f : TFlit} {err : Bool} (h : s₀.Kept s) : s₀.Kept (s.holdFlit n i f err) :=
  h.setTin.settleIn.feedNode

theorem Kept.raiseLength {n i flow : Nat} {own : Bool} (h : s₀.Kept s) : s₀.Kept (s.raiseLength n i flow own) := .ite h h.raise

theorem Kept.passIn {n i : Nat} {e : BitVec 64} {f : TFlit} {lost : Bool} (h : s₀.Kept s) : s₀.Kept (s.passIn n i e f lost) := by
  simp only [State.passIn]
  refine .ite (.holdFlit (.raiseLength (.ite h.raise h))) ?_
  exact .ite (.holdFlit (.setTin (.raiseLength (.ite h.raise h)))) (.holdFlit (.ite h.raise h))

theorem Kept.discardFlit {n i : Nat} (h : s₀.Kept s) : s₀.Kept (s.discardFlit n i) := .ite h.bump h

theorem Kept.strayFlit {n i : Nat} {f : TFlit} (h : s₀.Kept s) : s₀.Kept (s.strayFlit n i f) :=
  .ite h.discardFlit (.ite h.setTin.raise (.ite h.setTin h))

theorem Kept.frameLost {n i : Nat} {injected : Bool} (h : s₀.Kept s) : s₀.Kept (s.frameLost n i injected) := by
  simp only [State.frameLost]
  refine .ite h.discardFlit ?_
  split
  · exact .ite h.setTin.raise h.setTin.raise.raise
  · exact h.raise.setTin.passIn

theorem Kept.inRead {n i : Nat} (h : s₀.Kept s) : s₀.Kept (s.inRead n i) := .ite h.storeRead.setTin.wr.storeRaise.rowBad h.storeRead

theorem Kept.markerFault {n i : Nat} (h : s₀.Kept s) : s₀.Kept (s.markerFault n i) := by
  simp only [State.markerFault]
  refine .raise ?_
  split
  · refine .loadFails ?_
    refine .markStaged ?_
    refine .leaveSwap ?_
    refine .ite ((h.setTin.foldl fun h' => .ite h'.setTout h').setNode) ?_
    exact (h.setTin.foldl fun h' => .ite h'.setTout h')
  refine .ite ((h.setTin.foldl fun h' => .ite h'.setTout h').setNode) ?_
  exact (h.setTin.foldl fun h' => .ite h'.setTout h')

theorem Kept.takeMarker {n i : Nat} {f : TFlit} (h : s₀.Kept s) : s₀.Kept (s.takeMarker n i f) := .ite h.setTin.swapTry h.markerFault

theorem Kept.takeFlit {n i : Nat} {f : TFlit} (h : s₀.Kept s) : s₀.Kept (s.takeFlit n i f) := by
  simp only [State.takeFlit]
  refine .ite h.takeMarker ?_
  split
  · exact h.strayFlit
  · exact .ite h.discardFlit h.setTin.passIn

theorem Kept.laneRaise {n i j flow : Nat} (h : s₀.Kept s) : s₀.Kept (s.laneRaise n i j flow) := h.raise

theorem Kept.latchFlit {n i : Nat} {flips : List Nat} {f : TFlit} {rest : List TFlit} (h : s₀.Kept s) :
    s₀.Kept (s.latchFlit n i flips f rest) := by
  simp only [State.latchFlit]
  refine .ite ?_ ?_
  · refine .frameLost ?_
    split
    · exact h.setTin.noteLanes.laneRaise
    · exact .ite h.setTin.noteLanes.laneRaise h.setTin.noteLanes
  · refine .takeFlit ?_
    split
    · exact h.setTin.noteLanes.laneRaise
    · exact .ite h.setTin.noteLanes.laneRaise h.setTin.noteLanes

theorem Kept.tensorArrive {n i : Nat} {flips : List Nat} (h : s₀.Kept s) : s₀.Kept (Tensor.arrive n i flips s) := by
  simp only [Tensor.arrive]
  split
  · exact h
  refine .ite h ?_
  refine .ite h.wakeAt ?_
  refine .ite h ?_
  refine .ite h.inRead ?_
  refine .ite (.markerFault (.ite h.inRead h)) ?_
  exact .touch (.swapBehind (.swapTry (.ingGoes (.refillFromBridge (.latchFlit (.ite h.inRead h))))))

theorem Kept.tensorMarkerArrive {n i : Nat} (h : s₀.Kept s) : s₀.Kept (Tensor.markerArrive n i s) := by
  unfold Tensor.markerArrive
  split
  · exact .ite h.tensorArrive h
  · exact h

theorem Kept.countRun {n o flow : Nat} {f : TFlit} (h : s₀.Kept s) : s₀.Kept (s.countRun n o flow f) := .ite h (.ite h.countEv h)

theorem Kept.deliverFlit {n o flow : Nat} {f : TFlit} (h : s₀.Kept s) : s₀.Kept (s.deliverFlit n o flow f) :=
  .ite h.setDlv (.ite h h.update.setDlv)

theorem Kept.noteOpen {n o flow : Nat} {last : Bool} (h : s₀.Kept s) : s₀.Kept (s.noteOpen n o flow last) := .ite h h.setDlv

theorem Kept.driveOut {n o flow : Nat} {f : TFlit} (h : s₀.Kept s) : s₀.Kept (s.driveOut n o flow f) := by
  simp only [State.driveOut]
  split
  · exact h.countRun.bridgeTensor.noteOpen
  refine .ite (.ite h.update h) ?_
  refine .ite ?_ h.countRun.deliverFlit
  split
  · exact .sendFlit (.ite h.wakeAt h)
  · exact h

theorem Kept.passOut {n o : Nat} {e : BitVec 32} {f : TFlit} {skip : Nat} (h : s₀.Kept s) : s₀.Kept (s.passOut n o e f skip) :=
  .touch (.swapTry (.settleOut (.ite h.setTout.tapSee.driveOut.takeNode h.setTout.tapSee.driveOut.takeIn)))

theorem Kept.haltOut {n o : Nat} (h : s₀.Kept s) : s₀.Kept (s.haltOut n o) := h.setTout.wr.storeRaise.rowBad

theorem Kept.outWord {n o k : Nat} {wrong : List Nat} (h : s₀.Kept s) : s₀.Kept (s.outWord n o k wrong) := .ite h h.setBank

theorem Kept.tensorPass {n o : Nat} {flips : List Nat} (h : s₀.Kept s) : s₀.Kept (Tensor.pass n o flips s) := by
  simp only [Tensor.pass]
  refine .ite h ?_
  refine .ite h ?_
  split
  · exact h
  refine .ite h.settleOut ?_
  refine .ite h.settleOut.storeRead.haltOut ?_
  split
  · exact h.settleOut.storeRead.outWord
  refine .ite h.settleOut.storeRead.outWord ?_
  split
  · exact h.settleOut.storeRead.outWord.passOut
  · exact h.settleOut.storeRead.outWord

theorem Kept.dlvTake {n o : Nat} {flow : BitVec 12} {f : TFlit} {flags : BitVec 4} (h : s₀.Kept s)
    (ht : s.dlvTake n o = some (flow, f, flags, t)) : s₀.Kept t := by
  unfold State.dlvTake at ht
  dsimp only at ht
  split at ht <;> cases ht
  refine .ite (.countEv ?_) ?_ <;> exact .ite h.setDlv.injectFired h.setDlv

theorem Kept.drive {n : Nat} {side : Side} {flow : BitVec 12} {lower : BitVec 4096} {upper : Option (BitVec 4096)} {last : Bool} {flags
    : BitVec 4}
    (h : s₀.Kept s) : s₀.Kept (s.drive n side flow lower upper last flags) :=
  h.update

theorem Kept.tensorDeliver {n : Nat} {side : Side} (h : s₀.Kept s) : s₀.Kept (Tensor.deliver n side s) := by
  simp only [Tensor.deliver]
  refine .ite h ?_
  split
  · exact h
  split
  · exact h
  refine .ite ?_ (((h.offer ‹_›).dlvTake ‹_›).drive.touch)
  split
  · exact (((h.offer ‹_›).dlvTake ‹_›).dlvTake ‹_›).drive.touch
  · exact ((h.offer ‹_›).dlvTake ‹_›).drive.touch

theorem Kept.tensorCoreWake {n : Nat} (h : s₀.Kept s) : s₀.Kept (Tensor.coreWake n s) := .ite h.wakeAt h

theorem Kept.tensorHoldExpire {k : Nat} (h : s₀.Kept s) : s₀.Kept (Tensor.holdExpire k s) := .ite h h.advanceTo.update

theorem Kept.tensorGauge {k : Nat} {rate : BitVec 16} (h : s₀.Kept s) : s₀.Kept (Tensor.gauge k rate s) :=
  .ite h (.ite h.setObj (.ite h.setObj.setObj h.setObj))

/-! ## Machine/TxnTarget -/

theorem Kept.refuseSlot {u : Nat} {p : TPkt} (h : s₀.Kept s) : s₀.Kept (s.refuseSlot u p) := h.wardRefusal.slotAnswer

theorem Kept.fillSlot {u : Nat} {p : TPkt} (h : s₀.Kept s) : s₀.Kept (s.fillSlot u p) := by
  simp only [State.fillSlot]
  split
  · exact h
  · exact h.setTarget

theorem Kept.fillData {u : Nat} {d : TPkt} (h : s₀.Kept s) : s₀.Kept (s.fillData u d) := by
  simp only [State.fillData]
  split <;> exact h.setTarget

theorem Kept.setSlot {u : Nat} {x y : Slot} (h : s₀.Kept s) : s₀.Kept (s.setSlot u x y) := h.update

theorem Kept.setMas {a : Nat} {l : List MaCmd} (h : s₀.Kept s) : s₀.Kept (s.setMas a l) := h.update

theorem Kept.serveMemory {a : Nat} {p : TPkt} {d : Option TPkt} (h : s₀.Kept s) : s₀.Kept (s.serveMemory a p d) :=
  .ite h.refuseSlot h.setMas

theorem Kept.addOwed {u : Nat} {counted : Bool} {tags : List (BitVec 10 × Nat)} (h : s₀.Kept s) : s₀.Kept (s.addOwed u counted tags) :=
  h.update

theorem Kept.dropOwed {u : Nat} {tag : BitVec 10} (h : s₀.Kept s) : s₀.Kept (s.dropOwed u tag) := by
  simp only [State.dropOwed]
  split
  · exact h
  · exact h.update

theorem Kept.takeOwed {u n : Nat} {tag : BitVec 10} (h : s₀.Kept s) : s₀.Kept (s.takeOwed u n tag) := by
  unfold State.takeOwed
  split
  · exact h
  · exact .ite h.dropOwed.bump h.dropOwed

theorem Kept.txnMaIssue {a : Nat} (h : s₀.Kept s) : s₀.Kept (Txn.maIssue a s) := by
  simp only [Txn.maIssue]
  split
  · exact h
  split
  · exact h
  refine .ite h ?_
  split
  · exact h
  · exact h.setMas.emit.touch

theorem Kept.maRaise {n : Nat} {w : Option (BitVec 4)} {st : BitVec 2} (h : s₀.Kept s) : s₀.Kept (s.maRaise n w st) := .ite h h.raise

theorem Kept.maFinish {a : Nat} {c : MaCmd} {status : BitVec 3} {data : List (BitVec 1024)} (h : s₀.Kept s) :
    s₀.Kept (s.maFinish a c status data) := by
  simp only [State.maFinish]
  split
  · exact h.setMas.slotAnswer
  · exact h.setMas

theorem Kept.readDone {a : Nat} {c : MaCmd} (h : s₀.Kept s) : s₀.Kept (s.readDone a c) := by
  simp only [State.readDone]
  split
  · exact h.maFinish
  · exact .ite h.maFinish (.ite h.setMas h.maFinish)

theorem Kept.maDiscard {a n : Nat} {tag : BitVec 10} (h : s₀.Kept s) : s₀.Kept (s.maDiscard a n tag) := .ite h.dropOwed.bump h.dropOwed

theorem Kept.streamBeat {a n : Nat} {tag : BitVec 10} {status : BitVec 2} (h : s₀.Kept s) : s₀.Kept (s.streamBeat a n tag status) :=
  .ite h.takeOwed (.ite h h.ingAbort.raise)

theorem Kept.txnMaRead {a : Nat} {tag : BitVec 10} {data : BitVec 4096} {status : BitVec 2} (h : s₀.Kept s) :
    s₀.Kept (Txn.maRead a tag data status s) := by
  simp only [Txn.maRead]
  split
  · exact h
  refine .ite h.maDiscard ?_
  refine .ite h ?_
  split
  · exact h.streamBeat
  · exact .ite h.setMas.maRaise.readDone h.setMas.maRaise

theorem Kept.txnMaWritten {a : Nat} {tag : BitVec 10} {status : BitVec 2} (h : s₀.Kept s) : s₀.Kept (Txn.maWritten a tag status s) := by
  unfold Txn.maWritten
  split
  · exact h
  refine .ite h.maDiscard ?_
  refine .ite h ?_
  split
  · exact h.takeOwed
  · exact h.maRaise.maFinish

theorem Kept.serveCore {n : Nat} {x : Slot} {p : TPkt} (h : s₀.Kept s) : s₀.Kept (s.serveCore n x p) := by
  unfold State.serveCore
  refine .ite h.refuseSlot ?_
  refine .ite h ?_
  split
  · exact h
  · exact h.setSlot.emit

theorem Kept.serveWindow {pt : Nat} {x : Slot} {p : TPkt} (h : s₀.Kept s) : s₀.Kept (s.serveWindow pt x p) := by
  simp only [State.serveWindow]
  refine .ite h.refuseSlot ?_
  refine .ite h.slotAnswer ?_
  refine .ite h.refuseSlot ?_
  refine .ite h.slotAnswer ?_
  refine .ite h ?_
  split
  · exact h
  · exact h.setSlot.emit

theorem Kept.sendSnoop {pt : Nat} {w : BitVec 4} {ty : BitVec 2} {stag : BitVec 8} {line core : Nat} (h : s₀.Kept s) :
    s₀.Kept (s.sendSnoop pt w ty stag line core) :=
  h.txnFrom

theorem Kept.setHome {pt : Nat} {h' h'' : HomeTxn} (h : s₀.Kept s) : s₀.Kept (s.setHome pt h' h'') := h.update

theorem Kept.dropHome {pt : Nat} {h' : HomeTxn} (h : s₀.Kept s) : s₀.Kept (s.dropHome pt h') := h.update

theorem Kept.homeAsk {pt : Nat} {p : TPkt} {op : BitVec 4} {addr : Nat} {data : List (BitVec 1024)} {strb : List (BitVec 128)}
    {owner : TxnOwner} (h : s₀.Kept s) : s₀.Kept (s.homeAsk pt p op addr data strb owner) := by
  unfold State.homeAsk
  extract_lets u
  split
  · extract_lets x gen len
    exact h.setTinit.openTxn
  · exact h.slotAnswer

theorem Kept.homeWriteDirty {pt : Nat} {p : TPkt} {h' : HomeTxn} (h : s₀.Kept s) : s₀.Kept (s.homeWriteDirty pt p h') :=
  .ite h h.homeAsk

theorem Kept.homeMemory {pt : Nat} {h' : HomeTxn} {p : TPkt} {x : Slot} (h : s₀.Kept s) : s₀.Kept (s.homeMemory pt h' p x) := by
  simp only [State.homeMemory]
  refine .ite h.dropHome.homeWriteDirty.slotAnswer ?_
  refine .ite h.dropHome.homeWriteDirty.slotAnswer ?_
  refine .ite h.dropHome.slotAnswer ?_
  exact .ite h.dropHome.homeAsk (.ite h.dropHome.homeAsk h.dropHome.homeWriteDirty.homeAsk)

theorem Kept.snoopLine {pt : Nat} {w : BitVec 4} {ty : BitVec 2} {stag : BitVec 8} {l : Nat} {cores : List Nat} {ask : Bool}
    (h : s₀.Kept s) : s₀.Kept (s.snoopLine pt w ty stag l cores ask) :=
  .ite ((h.foldl fun h' => h'.sendSnoop).emit) (h.foldl fun h' => h'.sendSnoop)

theorem Kept.homeNext {pt : Nat} {p : TPkt} {x : Slot} {fuel : Nat} {home : HomeTxn} (h : s₀.Kept s) :
    s₀.Kept (s.homeNext pt p x fuel home) := by
  induction fuel generalizing s home with
  | zero => exact h
  | succ fuel ih =>
    simp only [State.homeNext]
    split
    · exact .ite (ih h.setHome) h.setHome.snoopLine
    · exact h.homeMemory

theorem Kept.serveHome {pt : Nat} {x : Slot} {p : TPkt} {w : Val} (h : s₀.Kept s) : s₀.Kept (s.serveHome pt x p w) :=
  .ite h.refuseSlot (.ite h h.setSlot.update.homeNext)

theorem Kept.serveHost {pt : Nat} {x : Slot} {p : TPkt} (h : s₀.Kept s) : s₀.Kept (s.serveHost pt x p) := by
  unfold State.serveHost
  split
  · exact .ite h.serveHome h.serveWindow
  · exact h.serveWindow

theorem Kept.serveBridge {b : Nat} {x : Slot} {p : TPkt} (h : s₀.Kept s) : s₀.Kept (s.serveBridge b x p) := by
  simp only [State.serveBridge]
  refine .ite h.slotAnswer ?_
  split
  · exact h
  split
  · exact h.setSlot.setTinit.sendAcross.sendAcross
  · exact h.setSlot.setTinit.sendAcross

theorem Kept.serveSlotGo {u : Nat} {x : Slot} {p : TPkt} (h : s₀.Kept s) : s₀.Kept (State.serveSlot.go s u x p) :=
  .ite h.serveCore (.ite h.serveHost (.ite h.setSlot.serveMemory (.ite h.serveBridge h)))

theorem Kept.serveSlot {u : Nat} {x : Slot} (h : s₀.Kept s) : s₀.Kept (s.serveSlot u x) := by
  unfold State.serveSlot
  split
  · exact h
  split
  · exact .ite h.serveSlotGo h.slotAnswer
  · exact h.serveSlotGo

theorem Kept.serveFrom {u fuel : Nat} (h : s₀.Kept s) : s₀.Kept (s.serveFrom u fuel) := by
  induction fuel generalizing s with
  | zero => exact h
  | succ fuel ih =>
    simp only [State.serveFrom]
    split
    · exact h
    · exact .ite h (ih h.serveSlot)

theorem Kept.serve {u : Nat} (h : s₀.Kept s) : s₀.Kept (s.serve u) := .ite h.serveTile (.ite h h.serveFrom)

theorem Kept.txnRequestArrive {u : Nat} (h : s₀.Kept s) : s₀.Kept (Txn.requestArrive u s) := by
  unfold Txn.requestArrive
  split
  · exact (h.takeKindError ‹_›)
  · exact (h.takeKind ‹_›).fillSlot.serve

theorem Kept.txnDataArrive {u : Nat} (h : s₀.Kept s) : s₀.Kept (Txn.dataArrive u s) := by
  unfold Txn.dataArrive
  split
  · exact h
  refine .ite h ?_
  split
  · exact h
  refine .ite ((h.takeArrived ‹_›).readDataArrives) ?_
  refine .ite (h.takeArrived ‹_›) ?_
  refine .ite ((h.takeArrived ‹_›).txnOuterRaise.fillData.serve) ?_
  exact (h.takeArrived ‹_›).fillData.serve

theorem Kept.txnCoreAnswer {n : Nat} {tag : BitVec 10} {status : BitVec 3} {data : List (BitVec 1024)} (h : s₀.Kept s) :
    s₀.Kept (Txn.coreAnswer n tag status data s) := by
  unfold Txn.coreAnswer
  refine .ite h ?_
  split
  · exact h.dropOwed
  · exact h.slotAnswer.serve.touch

theorem Kept.txnHostCompletion {pt : Nat} {tag : BitVec 10} {status : BitVec 3} {data : List (BitVec 1024)} (h : s₀.Kept s) :
    s₀.Kept (Txn.hostCompletion pt tag status data s) := by
  unfold Txn.hostCompletion
  split
  · exact h
  refine .ite h.dropOwed.bump ?_
  refine .ite h ?_
  split
  · exact h.takeOwed
  · exact h.slotAnswer.serve.touch

theorem Kept.giveUp {u : Nat} {x : Slot} {counted : Bool} (h : s₀.Kept s) : s₀.Kept (s.giveUp u x counted) :=
  .ite h.addOwed.setMas (.ite h h.addOwed)

theorem Kept.txnSlotTimeout {u : Nat} {src : BitVec 16} {tag : BitVec 10} (h : s₀.Kept s) : s₀.Kept (Txn.slotTimeout u src tag s) := by
  simp only [Txn.slotTimeout]
  split
  · exact h
  split
  · split
    · exact h
    · exact (h.txnDue ‹_›).giveUp.setTarget.raise.arbitrate.serve
  · exact h

theorem Kept.agentNext {g : AgentSnoop} (h : s₀.Kept s) : s₀.Kept (s.agentNext g) := .ite h.update.emit h.update

theorem Kept.homeWent {pt : Nat} {h' h'' : HomeTxn} (h : s₀.Kept s) : s₀.Kept (s.homeWent pt h' h'') := by
  simp only [State.homeWent]
  refine .ite h.setHome ?_
  split
  · exact h.setHome.dropHome
  · exact h.setHome.setHome.homeNext.serve

theorem Kept.setWindow {c c' : CohWait} (h : s₀.Kept s) : s₀.Kept (s.setWindow c c') := h.update

theorem Kept.windowNext {c c0 : CohWait} (h : s₀.Kept s) : s₀.Kept (s.windowNext c c0) := .ite h.setWindow h.setWindow.snoopLine

theorem Kept.windowWent {c c' : CohWait} {dirty : Option (BitVec 512)} (h : s₀.Kept s) : s₀.Kept (s.windowWent c c' dirty) :=
  .ite (.windowNext (.ite h.homeAsk h)) (.setWindow (.ite h.homeAsk h))

theorem Kept.combineReply {pt src : Nat} {stag : BitVec 8} {resp : BitVec 2} {line : Option (BitVec 512)} {spoilt : Bool}
    (h : s₀.Kept s) : s₀.Kept (s.combineReply pt src stag resp line spoilt) := by
  simp only [State.combineReply]
  split
  · exact h.homeWent
  split
  · exact h.agentNext
  split
  · exact h.windowWent
  · exact h

theorem Kept.coreReplies {u home : Nat} {stag : BitVec 8} {resp : BitVec 2} {line : Option (BitVec 512)} (h : s₀.Kept s) :
    s₀.Kept (s.coreReplies u home stag resp line) := by
  simp only [State.coreReplies]
  split
  · exact h
  refine .touch ?_
  split
  · exact h.update.txnFrom.txnFrom
  · exact h.update.txnFrom

theorem Kept.replyArrives {pt n src : Nat} {stag : BitVec 8} (h : s₀.Kept s) : s₀.Kept (s.replyArrives pt n src stag) := by
  simp only [State.replyArrives]
  split
  · exact h
  refine .ite ((h.takeArrived ‹_›).txnOuterRaise) ?_
  refine .ite ((h.takeArrived ‹_›).combineReply.touch) ?_
  split
  · exact h
  refine .touch ?_
  refine .combineReply ?_
  refine .ite (((h.takeArrived ‹_›).takeArrived ‹_›).txnOuterRaise) ?_
  exact ((h.takeArrived ‹_›).takeArrived ‹_›)

theorem Kept.txnSnoopReply {u src : Nat} {stag : BitVec 8} {resp : BitVec 2} {line : Option (BitVec 512)} (h : s₀.Kept s) :
    s₀.Kept (Txn.snoopReply u src stag resp line s) := by
  unfold Txn.snoopReply
  refine .ite (.ite h.coreReplies h) ?_
  split
  · exact h
  · exact .ite h (.ite (.ite h.combineReply.touch h) h.replyArrives)

theorem Kept.snoopRaise {n : Nat} {w : Option (BitVec 4)} (h : s₀.Kept s) : s₀.Kept (s.snoopRaise n w) := h.raise

theorem Kept.snoopDue {n : Nat} {w : Option (BitVec 4)} (h : s₀.Kept s) (ht : s.snoopDue n w = some t) : s₀.Kept t := h.txnDue ht

theorem Kept.txnSnoopTimeout {u : Nat} {stag : BitVec 8} (h : s₀.Kept s) : s₀.Kept (Txn.snoopTimeout u stag s) := by
  simp only [Txn.snoopTimeout]
  split
  · exact h
  split
  · split
    · exact h
    · exact (h.snoopDue ‹_›).snoopRaise.homeWent
  split
  · split
    · exact h
    · exact (h.snoopDue ‹_›).snoopRaise.agentNext
  split
  · exact h
  split
  · exact h
  · exact (h.snoopDue ‹_›).snoopRaise.windowWent

theorem Kept.txnHostSnoop {pt : Nat} {line : BitVec 35} {ty : BitVec 2} {tag : BitVec 8} (h : s₀.Kept s) :
    s₀.Kept (Txn.hostSnoop pt line ty tag s) := by
  simp only [Txn.hostSnoop]
  split
  · exact h
  · exact .ite h (.ite h.wakeAt (.ite h h.snoopLine.update.agentNext.touch))

theorem Kept.hostGoes {pt : Nat} (h : s₀.Kept s) : s₀.Kept (s.hostGoes pt) := by
  simp only [State.hostGoes]
  refine .ite h ?_
  refine .foldl ?_ fun h' => h'.agentNext
  refine .foldl ?_ fun h' => h'.setWindow.snoopLine
  refine (h.foldl fun h' => h'.emit).setTinit.foldl fun h' => ?_
  split
  · exact h'.setHome.snoopLine
  · exact h'

theorem Kept.unitGoes {u : Nat} (h : s₀.Kept s) : s₀.Kept (s.unitGoes u) := .serve (.ite h.snoopsGo (.ite h.hostGoes h))

theorem Kept.targetAdapterReset {u : Nat} (h : s₀.Kept s) : s₀.Kept (s.targetAdapterReset u) := by
  simp only [State.targetAdapterReset]
  refine .ite ?_ ?_
  · refine .foldl ?_ fun h' => h'.windowWent
    refine .foldl ?_ fun h' => h'.homeWent
    refine .update ?_
    refine (h.foldl fun h' => h'.giveUp).foldl fun h' => ?_
    split
    · exact h'.slotAnswer
    · exact h'
  · refine (h.foldl fun h' => h'.giveUp).foldl fun h' => ?_
    split
    · exact h'.slotAnswer
    · exact h'

theorem Kept.snoopAdapterReset {n : Nat} (h : s₀.Kept s) : s₀.Kept (s.snoopAdapterReset n) := h.update

theorem Kept.txnWritePoolSize {a : Nat} {v : BitVec 64} (h : s₀.Kept s) : s₀.Keeps (Txn.writePoolSize a v s) :=
  .ite .error (.ok (h.setObj.foldl fun h' => h'.arbitrate))

theorem Kept.txnRenumber {a : Nat} {v : BitVec 64} (h : s₀.Kept s) : s₀.Keeps (Txn.renumber a v s) := .ite .error (.ok h.setTarget)

theorem Kept.windowChange {p i : Nat} {v : Val} {acc : Option Access} (h : s₀.Kept s) : s₀.Kept (s.windowChange p i v acc) :=
  .ite h.update h.update.windowNext

theorem Kept.txnWriteWindow {p i : Nat} {v : Val} {acc : Access} {b : Bool} (h : s₀.Kept s)
    (ht : Txn.writeWindow p i v acc s = .ok (t, b)) : s₀.Kept t := by
  unfold Txn.writeWindow at ht
  dsimp only at ht
  split at ht
  · cases ht
  split at ht
  · cases ht
  split at ht
  · cases ht
  split at ht <;> cases ht
  · exact h.windowChange
  · exact h.setObj

theorem Kept.txnWindowDone {p i : Nat} (h : s₀.Kept s) : s₀.Kept (Txn.windowDone p i s) := by
  simp only [Txn.windowDone]
  split
  · exact h
  · exact .ite h h.update.setObj.serve

theorem Kept.txnWriteReg {side n k : Nat} {v : Val} (h : s₀.Kept s) : s₀.Keeps (Txn.writeReg side n k v s) :=
  .ite .error (.ok h.settleTokens.setObj)

theorem Kept.txnClearStat {n : Nat} (h : s₀.Kept s) : s₀.Keeps (Txn.clearStat n s) := .ok h.setObj

theorem Kept.txnClearProbe {n : Nat} (h : s₀.Kept s) : s₀.Keeps (Txn.clearProbe n s) := .ok h.setObj

theorem Kept.settleClaims (h : s₀.Kept s) : s₀.Kept s.settleClaims := h.foldl fun h' => (h'.foldl fun h'' => .ite h''.setClaim h'')

theorem Kept.wardWithdraw {w : BitVec 4} (h : s₀.Kept s) : s₀.Kept (s.wardWithdraw w) := (h.foldl fun h' => h'.withdraw).settleClaims

theorem Kept.wardForget {un : Nat → Bool} (h : s₀.Kept s) : s₀.Kept (s.wardForget un) :=
  h.foldl fun h' => (h'.setTarget.foldl fun h'' => h''.arbitrate)

/-! ## Machine/Dma -/

theorem Kept.setChan {k : Nat} {x : DmaChan} (h : s₀.Kept s) : s₀.Kept (s.setChan k x) := h.update

theorem Kept.heldSend {h' : DmaHeld} {tag : BitVec 10} (h : s₀.Kept s) : s₀.Kept (s.heldSend h' tag) := h.acceptTxn

theorem Kept.chanAsk {k : Nat} {op : BitVec 4} {addr beats : Nat} {data : List (BitVec 1024)} {strb : List (BitVec 128)} {what info :
    Nat}
    (h : s₀.Kept s) : s₀.Kept (s.chanAsk k op addr beats data strb what info) := by
  simp only [State.chanAsk]
  split
  · exact h.update
  · exact h.heldSend

theorem Kept.heldGo {e fuel : Nat} (h : s₀.Kept s) : s₀.Kept (s.heldGo e fuel) := by
  induction fuel generalizing s with
  | zero => exact h
  | succ fuel ih =>
    simp only [State.heldGo]
    split
    · exact h
    split
    · exact h
    · exact (ih h.update.heldSend)

theorem Kept.takeDone {u k what info : Nat} {pick : Nat → Nat → Nat → Bool} {d : TDone} (h : s₀.Kept s)
    (ht : s.takeDone u pick = some (d, k, what, info, t)) : s₀.Kept t := by
  unfold State.takeDone at ht
  dsimp only at ht
  split at ht
  · cases ht
  split at ht <;> cases ht
  exact h.update

theorem Kept.chanIdle {k : Nat} (h : s₀.Kept s) : s₀.Kept (s.chanIdle k) := h.update.setChan.wr

theorem Kept.chanWithdraw {k : Nat} (h : s₀.Kept s) : s₀.Kept (s.chanWithdraw k) := h.update

theorem Kept.chanFail {k : Nat} {f : DmaFail} (h : s₀.Kept s) : s₀.Kept (s.chanFail k f) := h.update

theorem Kept.chanHalted {k : Nat} {f : DmaFail} (h : s₀.Kept s) : s₀.Kept (s.chanHalted k f) := h.setObj.setChan.wr.raise

theorem Kept.dropDones {u k : Nat} (h : s₀.Kept s) : s₀.Kept (s.dropDones u k) := h.update

theorem Kept.slotWrite {k slot lo len value what info : Nat} (h : s₀.Kept s) : s₀.Kept (s.slotWrite k slot lo len value what info) :=
  h.chanAsk

theorem Kept.clearOwn {k slot tries : Nat} (h : s₀.Kept s) : s₀.Kept (s.clearOwn k slot tries) := h.slotWrite

theorem Kept.writeBack {k status tries : Nat} (h : s₀.Kept s) : s₀.Kept (s.writeBack k status tries) := h.slotWrite

theorem Kept.chanTrace {k evt status tries : Nat} (h : s₀.Kept s) : s₀.Kept (s.chanTrace k evt status tries) := .ite h h.traceQueue

theorem Kept.chanNaked {k : Nat} (h : s₀.Kept s) : s₀.Kept (s.chanNaked k) := h.bump.wr

theorem Kept.chanTell {k : Nat} {kind : BitVec 2} {dest : BitVec 16} {sock : Nat} {words : List (BitVec 32)} (h : s₀.Kept s) :
    s₀.Kept (s.chanTell k kind dest sock words) :=
  .ite h.countEv.chanNaked h.ctlFrom

theorem Kept.chanNotify {k : Nat} {d : List Byte} (h : s₀.Kept s) : s₀.Kept (s.chanNotify k d) := .ite h h.chanTell

theorem Kept.ringEvent {k slot : Nat} {half full : Bool} (h : s₀.Kept s) : s₀.Kept (s.ringEvent k slot half full) := .ite h h.chanTell

theorem Kept.chanFetchAs {k slot what : Nat} (h : s₀.Kept s) : s₀.Kept (s.chanFetchAs k slot what) := h.setChan.chanAsk

theorem Kept.chanFetch {k slot : Nat} (h : s₀.Kept s) : s₀.Kept (s.chanFetch k slot) := h.chanFetchAs

theorem Kept.chanPrefetch {k : Nat} (h : s₀.Kept s) : s₀.Kept (s.chanPrefetch k) := .ite h h.chanFetch

theorem Kept.chanBack {k : Nat} (h : s₀.Kept s) : s₀.Kept (s.chanBack k) := h.setChan.chanTrace.writeBack

theorem Kept.chanGo {k : Nat} (h : s₀.Kept s) : s₀.Kept (s.chanGo k) :=
  .ite h.wr.wr.chanTrace.chanPrefetch.chanBack h.wr.wr.chanTrace.setChan

theorem Kept.chanRelease {k : Nat} (h : s₀.Kept s) : s₀.Kept (s.chanRelease k) := .ite h h.setObj.chanGo

theorem Kept.tripExamine {e c : Nat} (h : s₀.Kept s) : s₀.Kept (s.tripExamine e c) := h.foldl fun h' => .ite h'.chanRelease h'

theorem Kept.tripAdd {e c : Nat} {v : BitVec 32} (h : s₀.Kept s) : s₀.Kept (s.tripAdd e c v) := h.bump.tripExamine

theorem Kept.chanCheck {k : Nat} {d ext : List Byte} (h : s₀.Kept s) : s₀.Kept (s.chanCheck k d ext) := by
  simp only [State.chanCheck]
  refine .ite h.setChan.chanFail ?_
  refine .ite h.setChan.clearOwn.wr.ringEvent.setChan.chanFetch ?_
  refine .ite (.ite h.setChan.setChan.chanRelease.chanIdle h.setChan.setChan.chanRelease) ?_
  exact .ite h.setChan.setChan.wr.wr.chanRelease h.setChan.chanGo

theorem Kept.chanExamine {k slot : Nat} {b : BitVec 1024} (h : s₀.Kept s) : s₀.Kept (s.chanExamine k slot b) := by
  simp only [State.chanExamine]
  refine .ite h.chanIdle ?_
  refine .ite (.ite h.wr.chanFetch h.chanIdle) ?_
  refine .ite h.setChan.wr.setChan.chanFail ?_
  exact .ite h.setChan.wr.setChan.chanFetchAs h.setChan.wr.chanCheck

theorem Kept.chanFetched {k what id : Nat} {d : TDone} (h : s₀.Kept s) : s₀.Kept (s.chanFetched k what id d) := by
  simp only [State.chanFetched]
  refine .ite h ?_
  exact .ite (.ite h.chanExamine h.setChan.chanCheck) (.ite h.setChan.bump.chanAsk h.chanFail)

theorem Kept.chanRead {k : Nat} {r : DmaRead} (h : s₀.Kept s) : s₀.Kept (s.chanRead k r) := h.setChan.chanAsk

theorem Kept.chanMove {k : Nat} {bs : List Byte} (h : s₀.Kept s) : s₀.Kept (s.chanMove k bs) :=
  .ite h.setChan.countEv.setChan.chanAsk h.setChan.countEv

theorem Kept.readAnswer {k id : Nat} {d : TDone} (h : s₀.Kept s) : s₀.Kept (s.readAnswer k id d) := by
  simp only [State.readAnswer]
  split
  · exact h
  · exact .ite h.setChan (.ite h.setChan.bump.chanAsk h.chanFail)

theorem Kept.writeAnswer {k id : Nat} {d : TDone} (h : s₀.Kept s) : s₀.Kept (s.writeAnswer k id d) := by
  simp only [State.writeAnswer]
  split
  · exact h
  refine .ite h.setChan ?_
  refine .ite h.setChan.bump.chanAsk ?_
  exact .ite h.chanWithdraw.setChan (.ite h.chanHalted h.chanFail)

theorem Kept.ownAnswer {k info : Nat} {d : TDone} (h : s₀.Kept s) : s₀.Kept (s.ownAnswer k info d) :=
  .ite h (.ite h.bump.clearOwn (.ite h (.ite h.chanHalted h.chanFail)))

theorem Kept.engineAnswers {e fuel : Nat} (h : s₀.Kept s) : s₀.Kept (s.engineAnswers e fuel) := by
  induction fuel generalizing s with
  | zero => exact h
  | succ fuel ih =>
    simp only [State.engineAnswers]
    split
    · exact h
    refine ih ?_
    refine .ite ((h.takeDone ‹_›).readAnswer) ?_
    exact .ite ((h.takeDone ‹_›).writeAnswer) (.ite ((h.takeDone ‹_›).ownAnswer) (h.takeDone ‹_›))

theorem Kept.chanSettle {k : Nat} (h : s₀.Kept s) : s₀.Kept (s.chanSettle k) := by
  simp only [State.chanSettle]
  refine .ite (.ite h.chanPrefetch h.chanPrefetch.chanBack) ?_
  refine .ite ?_ (.ite h.dropDones.chanIdle h)
  split
  · exact h
  · exact .ite h.dropDones.setChan.chanTrace.writeBack h.dropDones.chanHalted

theorem Kept.chanAbort {k : Nat} (h : s₀.Kept s) : s₀.Kept (s.chanAbort k) := .ite h.wr h.chanWithdraw.setChan.wr.wr

theorem Kept.chansClose {e : Nat} (h : s₀.Kept s) : s₀.Kept (s.chansClose e) := by
  unfold State.chansClose
  refine h.foldl fun h' => ?_
  split
  · exact .ite h'.chanAbort h'
  · exact h'

theorem Kept.engineSettle {e : Nat} (h : s₀.Kept s) : s₀.Kept (s.engineSettle e) :=
  h.chansClose.heldGo.engineAnswers.foldl fun h' => h'.chanSettle

theorem Kept.dmaFetchDone {e c : Nat} (h : s₀.Kept s) : s₀.Kept (Dma.fetchDone e c s) := by
  simp only [Dma.fetchDone]
  refine .ite h ?_
  refine .ite h.engineSettle ?_
  split
  · exact h.engineSettle
  · exact (h.engineSettle.takeDone ‹_›).chanFetched.chanSettle.touch

theorem Kept.moverTurn {e c : Nat} (h : s₀.Kept s) : s₀.Kept (s.moverTurn e c) := h.update

theorem Kept.dmaMoverStep {e : Nat} (h : s₀.Kept s) : s₀.Kept (Dma.moverStep e s) := by
  simp only [Dma.moverStep]
  refine .ite h ?_
  split
  · exact h.engineSettle
  refine .touch ?_
  refine .chanSettle ?_
  split
  · exact h.engineSettle.chanRead
  · exact h.engineSettle.chanMove.moverTurn
  · exact h.engineSettle

theorem Kept.chanAdvance {k : Nat} (h : s₀.Kept s) : s₀.Kept (s.chanAdvance k) := by
  simp only [State.chanAdvance]
  refine .ite h.clearOwn.bumpWrap.wr.countEv.chanNotify.ringEvent.chanIdle ?_
  refine .ite h.clearOwn.bumpWrap.wr.countEv.chanNotify.ringEvent.setChan ?_
  exact h.clearOwn.bumpWrap.wr.countEv.chanNotify.ringEvent.setChan.chanFetch

theorem Kept.dmaBackDone {e c : Nat} (h : s₀.Kept s) : s₀.Kept (Dma.backDone e c s) := by
  unfold Dma.backDone
  extract_lets k s0
  have h0 : s₀.Kept s0 := h.engineSettle
  refine .ite h ?_
  split
  · exact h0
  have h1 := h0.takeDone ‹_›
  extract_lets x tries st
  refine .ite h1 (.ite (.ite h1.chanAdvance.touch ?_) (.ite (.writeBack (.bump (.setChan h1))) ?_))
  · split
    · have h2 {j : Nat} : s₀.Kept ((State.clearOwn _ k x.slot 0).countEv 0x41 j (some (s.chanWard k)) 1) := h1.clearOwn.countEv
      exact .ite h2.chanHalted (.touch (.chanSettle (.setChan h2)))
    · exact h1
  · split
    · exact h1.chanHalted
    · exact h1.chanFail.chanSettle

theorem Kept.chanStart {k : Nat} (h : s₀.Kept s) : s₀.Kept (s.chanStart k) := h.wr.wr.wr.setObj.setChan.chanFetch

theorem Kept.chanCmd {k cmd : Nat} (h : s₀.Kept s) : s₀.Kept (s.chanCmd k cmd) := h.setObj

theorem Kept.dmaControl {k cmd : Nat} (h : s₀.Kept s) : s₀.Keeps (Dma.control k cmd s) := by
  simp only [Dma.control]
  split
  · exact .ite .error (.ite (.ok h.chanCmd.wr) (.ok h.chanCmd.chanStart))
  · exact .ite (.ok h.chanCmd) (.ite (.ok h.chanCmd.wr) (.ite (.ok h.chanCmd.chanIdle) .error))
  · refine .ite (.ok h.chanCmd) ?_
    refine .ite (.ok h.chanCmd.chanIdle) ?_
    exact .ite .error (.ok h.chanCmd.chanWithdraw.setChan.wr.chanSettle)
  · exact .ite (.ok h.chanCmd.wr) .error
  · exact .error

theorem Kept.dmaWriteIdle {k key : Nat} {v : Val} (h : s₀.Kept s) : s₀.Keeps (Dma.writeIdle k key v s) :=
  .ite .error (.ite .error (.ite .error (.ok h.setObj)))

theorem Kept.dmaWriteTrip {e c : Nat} {v : Val} (h : s₀.Kept s) : s₀.Keeps (Dma.writeTrip e c v s) := .ok h.setObj.tripExamine

theorem Kept.dmaWriteTripWard {e c : Nat} {v : Val} (h : s₀.Kept s) : s₀.Keeps (Dma.writeTripWard e c v s) := .ite .error (.ok h.setObj)

theorem Kept.dmaClearStat {k : Nat} (h : s₀.Kept s) : s₀.Keeps (Dma.clearStat k s) := .ok h.setObj

theorem Kept.dmaNakArrive {e : Nat} (h : s₀.Kept s) : s₀.Kept (Dma.nakArrive e s) := by
  simp only [Dma.nakArrive]
  split
  · exact .ite h h.update.chanNaked.touch
  · exact h

theorem Kept.dmaIncrement {e n : Nat} {m : CtlMsg} (h : s₀.Kept s) : s₀.Kept (Dma.increment e n m s).1 := by
  simp only [Dma.increment]
  split
  · exact h
  split
  · exact h
  split
  · exact h
  split
  · exact h
  split
  · exact h
  · dsimp only
    exact h.countEv.tripAdd

theorem Kept.heldStarts (h : s₀.Kept s) : s₀.Kept s.heldStarts := h.foldl fun h' => .ite h'.chanStart h'

theorem Kept.engineRegionReset {e : Nat} (h : s₀.Kept s) : s₀.Kept (s.engineRegionReset e) :=
  h.foldl fun h' => .ite h'.chanWithdraw.dropDones.setChan h'.chanWithdraw.dropDones.chanHalted

/-! ## Machine/Gate -/

theorem Kept.setPlat {i : Nat} {v : BitVec 64} (h : s₀.Kept s) : s₀.Kept (s.setPlat i v) := h.update

theorem Kept.platCount (h : s₀.Kept s) : s₀.Kept s.platCount := h.setObj.setObj

theorem Kept.gateInsert {level : BitVec 2} {v : Val} (h : s₀.Kept s) : s₀.Keeps (Gate.insert level v s) := by
  simp only [Gate.insert]
  refine .ite .error ?_
  refine .ite .error ?_
  refine .ite .error ?_
  split
  · exact .error
  · exact .ok h.setPlat.platCount

theorem Kept.gateRemove {v : Val} (h : s₀.Kept s) : s₀.Keeps (Gate.remove v s) := by
  unfold Gate.remove
  split
  · exact .error
  · exact .ok h.setPlat.platCount

theorem Kept.sendRequest {g : Nat} {v : BitVec 64} {x : Slot} {p : TPkt} (h : s₀.Kept s) : s₀.Kept (s.sendRequest g v x p) := by
  unfold State.sendRequest
  extract_lets line i
  split
  · exact h
  · exact .gateQueue (.setTinit (.setSlot h))

theorem Kept.judgeRequest {g : Nat} {v : BitVec 64} {x : Slot} {p : TPkt} (h : s₀.Kept s) : s₀.Kept (s.judgeRequest g v x p) :=
  .ite h.refuseSlot (.ite h.slotAnswer (.ite h.refuseSlot h.sendRequest))

theorem Kept.lookupRequest {g n : Nat} {flips : List Nat} {x : Slot} {p : TPkt} (h : s₀.Kept s) :
    s₀.Kept (s.lookupRequest g n flips x p) := by
  simp only [State.lookupRequest]
  split
  · exact h.slotAnswer
  · exact .ite h.storeRead.storeRaise.rowBad.slotAnswer h.storeRead.judgeRequest

theorem Kept.gateRequestAccept {g : Nat} {flips : List Nat} (h : s₀.Kept s) : s₀.Kept (Gate.requestAccept g flips s) := by
  simp only [Gate.requestAccept]
  split
  · exact h
  refine .ite h ?_
  split
  · exact h
  split
  · exact h
  · exact .ite h.slotAnswer h.lookupRequest.touch

theorem Kept.gateCtlAccept {g : Nat} {peer : BitVec 22} {flits : List (BitVec 72)} (h : s₀.Kept s) :
    s₀.Kept (Gate.ctlAccept g peer flits s) := by
  unfold Gate.ctlAccept
  split
  · exact .ite h (.ite h.refuse h.gateQueue.touch)
  · exact h

theorem Kept.sendFresh {g : Nat} {q : GQueued} (h : s₀.Kept s) : s₀.Kept (s.sendFresh g q) := .ite h.setGate.emit h.setGate.setGate.emit

theorem Kept.sendAck {g c : Nat} {peer : BitVec 22} (h : s₀.Kept s) : s₀.Kept (s.sendAck g c peer) := by
  simp only [State.sendAck]
  split
  · exact h
  · exact h.setGate.emit

theorem Kept.sendAgain {g n c : Nat} {peer : BitVec 22} {seq : BitVec 32} (h : s₀.Kept s) : s₀.Kept (s.sendAgain g n c peer seq) := by
  simp only [State.sendAgain]
  split
  · exact h
  split
  · exact h
  · exact .ite h.storeRead.setGate.bump.storeRaise.rowBad h.storeRead.setGate.bump.emit

theorem Kept.gateEgressSend {g : Nat} (h : s₀.Kept s) : s₀.Kept (Gate.egressSend g s) := by
  simp only [Gate.egressSend]
  split
  · exact h
  refine .ite h ?_
  split
  · exact h
  split
  · exact h
  refine .touch ?_
  split
  · exact h.setGate.sendAgain
  · exact h.setGate.sendAck
  · exact h.setGate.sendFresh

theorem Kept.deliverReq {g : Nat} {p : FPkt} (h : s₀.Kept s) (ht : s.deliverReq g p = some t) : s₀.Kept t := by
  unfold State.deliverReq at ht
  dsimp only at ht
  split at ht
  · cases ht; exact h.gateQueue
  split at ht <;> cases ht
  exact h.setGate.acceptTxn

theorem Kept.deliverRsp {g : Nat} {p : FPkt} (h : s₀.Kept s) : s₀.Kept (s.deliverRsp g p) := h.answerArrives

theorem Kept.takeChunk {g : Nat} {p : FPkt} (h : s₀.Kept s) : s₀.Kept (s.takeChunk g p) := .ite h.setGate h.bump

theorem Kept.deliverPkt {g : Nat} {p : FPkt} (h : s₀.Kept s) (ht : s.deliverPkt g p = some t) : s₀.Kept t := by
  unfold State.deliverPkt at ht
  split at ht
  · exact h.deliverReq ht
  split at ht
  · cases ht; exact h.deliverRsp
  split at ht <;> cases ht
  · exact h.setGate
  · exact h.takeChunk

theorem Kept.deliverClass {g c : Nat} {peer : BitVec 22} {fuel : Nat} (h : s₀.Kept s) : s₀.Kept (s.deliverClass g c peer fuel) := by
  induction fuel generalizing s with
  | zero => exact h
  | succ fuel ih =>
    simp only [State.deliverClass]
    split
    · exact h
    split
    · exact h
    split
    · exact h
    · exact (ih (h.setGate.deliverPkt ‹_›))

theorem Kept.gateDeliver {g : Nat} (h : s₀.Kept s) : s₀.Kept (s.gateDeliver g) := by
  unfold State.gateDeliver
  split
  · exact h
  · exact .ite h (h.foldl fun h' => (h'.foldl fun h'' => h''.deliverClass))

theorem Kept.reorder {g : Nat} {k : GConn} {p : FPkt} (h : s₀.Kept s) : s₀.Kept (s.reorder g k p) :=
  .ite h.setGate (.ite h.bump h.setGate)

theorem Kept.openedBy {g : Nat} {k : GConn} {p : FPkt} (h : s₀.Kept s) : s₀.Kept (s.openedBy g k p) := h.setGate.reorder

theorem Kept.takeSeq {g : Nat} {p : FPkt} (h : s₀.Kept s) : s₀.Kept (s.takeSeq g p) := by
  simp only [State.takeSeq]
  split
  · exact .ite h.bump (.ite h.bump h.openedBy)
  split
  · exact .ite h.reorder (.ite h.openedBy h.bump)
  · exact .ite h.openedBy h.bump

theorem Kept.peerLost {g : Nat} {peer : BitVec 22} (h : s₀.Kept s) : s₀.Kept (s.peerLost g peer) := h.setGate.bump.raise

theorem Kept.takeAck {g : Nat} {p : FPkt} (h : s₀.Kept s) : s₀.Kept (s.takeAck g p).1 := by
  simp only [State.takeAck]
  split
  · exact h.bump
  split
  · exact h.bump
  split
  · exact h.peerLost
  · exact h.setGate

theorem Kept.takeSwitch {g : Nat} {p : FPkt} (h : s₀.Kept s) : s₀.Kept (s.takeSwitch g p) := .ite h.setGate h.takeChunk

theorem Kept.takePacket {g : Nat} {p : FPkt} (h : s₀.Kept s) : s₀.Kept (s.takePacket g p).1 := by
  unfold State.takePacket
  split
  · exact h.takeAck
  split
  · exact h.takeSwitch
  · exact h.takeSeq

theorem Kept.gatePacketReceive {g : Nat} {bs : List Byte} (h : s₀.Kept s) : s₀.Kept (Gate.packetReceive g bs s).1 := by
  unfold Gate.packetReceive
  split
  · exact h
  split
  · exact h
  split
  · exact h.bump
  extract_lets inj s0 s1 p r
  have h0 : s₀.Kept s0 := .ite h.injectFired h
  have h1 : s₀.Kept s1 := .ite h0.wakeAt h0
  split
  · exact h1.bump
  split
  · exact h1.bump.raise
  · exact h1.takePacket.gateDeliver.touch

theorem Kept.gateDue {n : Nat} (h : s₀.Kept s) (ht : s.gateDue n = some t) : s₀.Kept t := by
  unfold State.gateDue at ht
  split at ht <;> cases ht
  exact h.advance

theorem Kept.gateAckDelay {g : Nat} {peer : BitVec 22} {c : Nat} (h : s₀.Kept s) : s₀.Kept (Gate.ackDelay g peer c s) := by
  simp only [Gate.ackDelay]
  split
  · exact h
  split
  · exact h
  split
  · exact h
  · exact (h.gateDue ‹_›).setGate

theorem Kept.gateRetxTimeout {g c : Nat} {peer : BitVec 22} {seq : BitVec 32} (h : s₀.Kept s) :
    s₀.Kept (Gate.retxTimeout g peer c seq s).1 := by
  simp only [Gate.retxTimeout]
  split
  · exact h
  split
  · exact h
  split
  · exact h
  split
  · exact h
  split
  · exact (h.gateDue ‹_›).peerLost
  · exact (h.gateDue ‹_›).setGate

theorem Kept.gateIdleExpire {g : Nat} {peer : BitVec 22} (h : s₀.Kept s) : s₀.Kept (Gate.idleExpire g peer s) := by
  unfold Gate.idleExpire
  split
  · exact h
  refine .ite h ?_
  split
  · exact h
  · exact (h.gateDue ‹_›).setGate

theorem Kept.gateLineDown {g : Nat} (h : s₀.Kept s) : s₀.Kept (Gate.lineDown g s) := .ite h h.wr

theorem Kept.gateLineUp {g : Nat} (h : s₀.Kept s) : s₀.Kept (Gate.lineUp g s) := .ite h h.setGate.wr

theorem Kept.gateWriteCfg {g : Nat} {v : Val} (h : s₀.Kept s) : s₀.Keeps (Gate.writeCfg g v s) :=
  .ite .error (.ok (.ite h.setObj.setGate h.setObj))

/-! ## Machine/Collective -/

theorem Kept.setColl {k : Nat} {x : CollChan} (h : s₀.Kept s) : s₀.Kept (s.setColl k x) := h.update

theorem Kept.setOp {k : Nat} {o : CollOp} (h : s₀.Kept s) : s₀.Kept (s.setOp k o) := h.update

theorem Kept.setCollStore {g : Nat} {x : CollStore} (h : s₀.Kept s) : s₀.Kept (s.setCollStore g x) := h.update

theorem Kept.collAsk {k what : Nat} {i : CollIo} (h : s₀.Kept s) : s₀.Kept (s.collAsk k what i).1 := by
  simp only [State.collAsk]
  split
  · exact h.setColl.acceptTxn
  · exact h

theorem Kept.collSend {k : Nat} {peer : BitVec 22} {f : Frag} (h : s₀.Kept s) : s₀.Kept (s.collSend k peer f) := h.update

theorem Kept.outboxGo {g fuel : Nat} (h : s₀.Kept s) : s₀.Kept (s.outboxGo g fuel) := by
  induction fuel generalizing s with
  | zero => exact h
  | succ fuel ih =>
    simp only [State.outboxGo]
    split
    · exact h
    · exact .ite h (ih h.update.gateQueue)

theorem Kept.collTell {k : Nat} {peer : BitVec 22} {words : List (BitVec 32)} (h : s₀.Kept s) : s₀.Kept (s.collTell k peer words) :=
  h.update.outboxGo

theorem Kept.collRecord {k rtype : Nat} {o : CollOp} {tree : Bool} {arg r : Nat} (h : s₀.Kept s) :
    s₀.Kept (s.collRecord k rtype o tree arg r) :=
  h.collTell

theorem Kept.collReady {k : Nat} {o : CollOp} {tree : Bool} {arg : Nat} (h : s₀.Kept s) : s₀.Kept (s.collReady k o tree arg) :=
  h.foldl fun h' => h'.collRecord

theorem Kept.sendTally {k : Nat} {o : CollOp} {ckind r : Nat} {t : HTally} (h : s₀.Kept s) : s₀.Kept (s.sendTally k o ckind r t) :=
  h.collSend.foldl fun h' => h'.collSend

theorem Kept.sendBlocks {k : Nat} {o : CollOp} {ckind : Nat} {c : CollChunk} {first r : Nat} {bs : List CBlock} (h : s₀.Kept s) :
    s₀.Kept (s.sendBlocks k o ckind c first r bs) :=
  h.foldl fun h' => h'.collSend

theorem Kept.startChunk {k : Nat} {o : CollOp} {reserved : Bool} (h : s₀.Kept s) : s₀.Kept (s.startChunk k o reserved) := h.update

theorem Kept.storeAsk {k : Nat} (h : s₀.Kept s) : s₀.Kept (s.storeAsk k) := by
  simp only [State.storeAsk]
  split
  · exact .ite h.startChunk (.ite h h.setCollStore)
  · exact h

theorem Kept.storeChoose {g : Nat} (h : s₀.Kept s) : s₀.Kept (s.storeChoose g) := .ite h h.setCollStore

theorem Kept.storeLeave {k : Nat} (h : s₀.Kept s) : s₀.Kept (s.storeLeave k) := h.update

theorem Kept.storeBackOff {g c : Nat} (h : s₀.Kept s) : s₀.Kept (s.storeBackOff g c) := h.update

theorem Kept.tallyBegin {k : Nat} {o : CollOp} (h : s₀.Kept s) : s₀.Kept (s.tallyBegin k o) := h.setOp.wr.collReady

theorem Kept.storeGrant {g : Nat} (h : s₀.Kept s) : s₀.Kept (s.storeGrant g) := by
  simp only [State.storeGrant]
  split
  · exact h
  split
  · exact h
  refine .ite h.storeLeave ?_
  refine .ite h ?_
  exact .foldl (.ite h.setCollStore.startChunk h.setCollStore.tallyBegin) fun h' => h'.storeBackOff

theorem Kept.collForget {k : Nat} (h : s₀.Kept s) : s₀.Kept (s.collForget k) := h.update

theorem Kept.collIdle {k : Nat} (h : s₀.Kept s) : s₀.Kept (s.collIdle k) := h.setColl.wr.wr

theorem Kept.abortEnds {k : Nat} (h : s₀.Kept s) : s₀.Kept (s.abortEnds k) := .ite h.collIdle h

theorem Kept.collCancel {k : Nat} (h : s₀.Kept s) : s₀.Kept (s.collCancel k) := h.setColl.wr.abortEnds

theorem Kept.collHalted {k status : Nat} (h : s₀.Kept s) : s₀.Kept (s.collHalted k status) := h.collIdle.wr.raise

theorem Kept.collTrace {k evt status : Nat} (h : s₀.Kept s) : s₀.Kept (s.collTrace k evt status) := .ite h h.traceQueue

theorem Kept.collWriteBack {k status : Nat} {phase : CollPhase} (h : s₀.Kept s) : s₀.Kept (s.collWriteBack k status phase) :=
  h.setColl.collTrace.wr.collAsk.setColl

theorem Kept.collAbort {k status : Nat} (h : s₀.Kept s) : s₀.Kept (s.collAbort k status) := by
  simp only [State.collAbort]
  split
  · exact (h.foldl fun h' => h'.collRecord).wr.bump.collWriteBack.setColl.collForget
  · exact h

theorem Kept.collPeerLost {g : Nat} {peer : BitVec 22} (h : s₀.Kept s) : s₀.Kept (s.collPeerLost g peer) := by
  unfold State.collPeerLost
  refine h.foldl fun h' => ?_
  split
  · exact .ite h'.collAbort h'
  · exact h'

theorem Kept.lagUpdate {k : Nat} (h : s₀.Kept s) : s₀.Kept (s.lagUpdate k) := by
  simp only [State.lagUpdate]
  split
  · exact h
  split
  · exact h
  · exact h.setColl

theorem Kept.collStamp {k : Nat} {tag : BitVec 32} {rank : Nat} (h : s₀.Kept s) : s₀.Kept (s.collStamp k tag rank) := by
  simp only [State.collStamp]
  split
  · exact .ite h h.setColl.lagUpdate
  · exact .ite h.setColl.lagUpdate h

theorem Kept.arrivalHere {k : Nat} {o : CollOp} (h : s₀.Kept s) : s₀.Kept (s.arrivalHere k o) :=
  .ite h.setColl.collStamp.lagUpdate h.setColl.collRecord

theorem Kept.collFire {k : Nat} (h : s₀.Kept s) : s₀.Kept (s.collFire k) := by
  simp only [State.collFire]
  refine .ite h.setColl.wr.wr.collTrace.arrivalHere.tallyBegin ?_
  exact h.setColl.wr.wr.collTrace.arrivalHere

theorem Kept.collRelease {k : Nat} (h : s₀.Kept s) : s₀.Kept (s.collRelease k) := .ite h h.setObj.collFire

theorem Kept.collExamine {g c : Nat} (h : s₀.Kept s) : s₀.Kept (s.collExamine g c) := h.foldl fun h' => .ite h'.collRelease h'

theorem Kept.collAgree {k : Nat} {o : CollOp} (h : s₀.Kept s) : s₀.Kept (s.collAgree k o) := by
  unfold State.collAgree
  split
  · exact (h.foldl fun h' => h'.sendTally).wr
  · exact h

theorem Kept.collFix {k : Nat} {o : CollOp} (h : s₀.Kept s) : s₀.Kept (s.collFix k o) := by
  simp only [State.collFix]
  split
  · exact h
  · exact .ite h h.setColl.collAgree

theorem Kept.tallyGo {k : Nat} {o : CollOp} (h : s₀.Kept s) : s₀.Kept (s.tallyGo k o) := by
  unfold State.tallyGo
  refine .ite h ?_
  split
  · exact h.collFix
  · exact .ite h h.setOp.sendTally

theorem Kept.collPlace {k : Nat} {o : CollOp} {c : CollChunk} {i : Nat} {codes : List Nat} (h : s₀.Kept s) :
    s₀.Kept (s.collPlace k o c i codes) :=
  h.update

theorem Kept.fillGo {k : Nat} {o : CollOp} (h : s₀.Kept s) : s₀.Kept (s.fillGo k o) := by
  simp only [State.fillGo]
  refine .ite h ?_
  split
  · exact h
  · exact .ite h.collPlace (.ite h h.collAsk.setOp)

theorem Kept.readWhole {k : Nat} {o : CollOp} {got : List Byte} (h : s₀.Kept s) : s₀.Kept (s.readWhole k o got) := by
  simp only [State.readWhole]
  refine .ite h.setOp ?_
  split
  · exact h.setOp
  · exact h.collPlace

theorem Kept.chunkUp {k : Nat} {o : CollOp} {c : CollChunk} (h : s₀.Kept s) : s₀.Kept (s.chunkUp k o c) := by
  simp only [State.chunkUp]
  refine .ite h ?_
  refine .ite (.ite (.ite h.setOp (.ite h h.setOp.sendBlocks)) (.ite (.ite h.setOp h) h.setOp)) ?_
  refine .ite h ?_
  split
  · exact h.setOp
  · exact .ite h h.setOp.sendBlocks

theorem Kept.chunkReady {k : Nat} {o : CollOp} {c : CollChunk} (h : s₀.Kept s) : s₀.Kept (s.chunkReady k o c) :=
  .ite h h.setOp.collReady

theorem Kept.swSend {k : Nat} {o : CollOp} {c : CollChunk} (h : s₀.Kept s) : s₀.Kept (s.swSend k o c) := h.setOp.sendBlocks

theorem Kept.chunkDown {k : Nat} {o : CollOp} {c : CollChunk} (h : s₀.Kept s) : s₀.Kept (s.chunkDown k o c) := by
  simp only [State.chunkDown]
  refine .ite h ?_
  exact .ite (.ite h (h.setOp.foldl fun h' => h'.sendBlocks)) (.ite h h.setOp.collSend)

theorem Kept.chunkFree {k : Nat} {o : CollOp} {c : CollChunk} (h : s₀.Kept s) : s₀.Kept (s.chunkFree k o c) :=
  .ite h (.ite h.setOp.countEv.bump h.setOp.countEv)

theorem Kept.chunkGo {k i : Nat} (h : s₀.Kept s) : s₀.Kept (s.chunkGo k i) := by
  refine List.foldlRecOn _ _ h fun t ht act hmem => ?_
  have hact (o : CollOp) (c : CollChunk) : s₀.Kept (act t o c) := by
    simp only [List.mem_cons, List.not_mem_nil, or_false] at hmem
    rcases hmem with rfl | rfl | rfl | rfl | rfl
    · exact ht.chunkReady
    · exact .ite ht ht.swSend
    · exact ht.chunkUp
    · exact ht.chunkDown
    · exact ht.chunkFree
  split
  · exact ht
  split
  · exact ht
  · exact hact _ _

theorem Kept.outWrite {k : Nat} {o : CollOp} (h : s₀.Kept s) : s₀.Kept (s.outWrite k o) := by
  simp only [State.outWrite]
  refine .ite h ?_
  split
  · exact h
  · exact h.collAsk.setOp

theorem Kept.outInject {k : Nat} (h : s₀.Kept s) : s₀.Kept (s.outInject k) := by
  simp only [State.outInject]
  split
  · exact .ite h h.ingTakeAs.setColl
  split
  · exact h
  refine .ite h ?_
  split
  · exact h
  · exact h.ingTakeAs.setOp

theorem Kept.collReissue {k : Nat} (h : s₀.Kept s) : s₀.Kept (s.collReissue k) := by
  unfold State.collReissue
  extract_lets s1 s2
  have h1 : s₀.Kept s1 := by
    dsimp only [s1]
    split
    · exact h.collAsk.setColl
    · exact h
  have h2 : s₀.Kept s2 := h1.foldl fun h' => by
    split
    · exact h'
    · exact h'.collAsk.setColl
  split
  · exact h2
  extract_lets s3
  have h3 : s₀.Kept s3 := by
    dsimp only [s3]
    split
    · exact h2.collAsk.setOp
    · exact h2
  split
  · exact h3
  split
  · exact h3.collAsk.setOp
  · exact h3

/-- Steps of a running operation, one after the other. -/
theorem Kept.collSteps {k : Nat} {acts : List (State → CollOp → State)} (h : s₀.Kept s)
    (hacts : ∀ act ∈ acts, ∀ {t o}, s₀.Kept t → s₀.Kept (act t o)) :
    s₀.Kept (acts.foldl (fun a act => match (a.coll k).phase, (a.coll k).op with
      | .run, some o => act a o
      | _, _ => a) s) := by
  refine List.foldlRecOn _ _ h fun t ht act hmem => ?_
  split
  · exact hacts act hmem ht
  · exact ht

theorem Kept.collGo {k : Nat} (h : s₀.Kept s) : s₀.Kept (s.collGo k) := by
  unfold State.collGo
  refine .collSteps (.foldl (.collSteps h.collReissue fun act hmem t o ht => ?before) fun ht => ht.chunkGo) fun act hmem t o ht => ?after
  case before =>
    simp only [List.mem_cons, List.not_mem_nil, or_false] at hmem
    rcases hmem with rfl | rfl | rfl | rfl
    · exact .ite ht ht.collAsk.setOp
    · exact ht.tallyGo
    · exact ht.storeAsk
    · exact ht.fillGo
  case after =>
    simp only [List.mem_cons, List.not_mem_nil, or_false] at hmem
    rcases hmem with rfl | rfl
    · exact ht.outWrite
    · exact .ite ht.setColl.collWriteBack.collForget (.ite ht.wr ht)

theorem Kept.collAnswer {k : Nat} {wr : Bool} {info : Nat} {d : TDone} (h : s₀.Kept s) : s₀.Kept (s.collAnswer k wr info d) := by
  simp only [State.collAnswer]
  split
  · split
    · exact h
    refine .ite h ?_
    split
    · exact h.collAbort
    · exact .ite h.setOp (.ite h.readWhole h.setOp)
  · exact h

theorem Kept.collOwned {k info : Nat} {d : TDone} (h : s₀.Kept s) : s₀.Kept (s.collOwned k info d) := by
  simp only [State.collOwned]
  split
  · exact h
  refine .ite h.setColl.abortEnds ?_
  exact .ite h.setColl (.ite h.setColl.collAbort (.ite h.setColl h.setColl.collHalted))

theorem Kept.collDropped {k info : Nat} (h : s₀.Kept s) : s₀.Kept (s.collDropped k info) := .ite h.setColl.abortEnds h

theorem Kept.collAnswers {g fuel : Nat} (h : s₀.Kept s) : s₀.Kept (s.collAnswers g fuel) := by
  induction fuel generalizing s with
  | zero => exact h
  | succ fuel ih =>
    simp only [State.collAnswers]
    split
    · exact h
    refine ih ?_
    refine .ite ((h.takeDone ‹_›).collOwned) ?_
    exact .ite ((h.takeDone ‹_›).collDropped) ((h.takeDone ‹_›).collAnswer)

theorem Kept.gateFeed {g : Nat} (h : s₀.Kept s) : s₀.Kept (s.gateFeed g) := h.foldl fun h' => (h'.foldl fun h'' => h''.outInject)

theorem Kept.collClose {k : Nat} (h : s₀.Kept s) : s₀.Kept (s.collClose k) := by
  unfold State.collClose
  split
  · exact h.collAbort
  · exact h.collIdle
  · exact h.collCancel
  · exact h.collCancel
  · exact h

theorem Kept.collsClose {g : Nat} (h : s₀.Kept s) : s₀.Kept (s.collsClose g) := by
  unfold State.collsClose
  refine h.foldl fun h' => ?_
  split
  · exact .ite h'.collClose h'
  · exact h'

theorem Kept.collSettle {g : Nat} (h : s₀.Kept s) : s₀.Kept (s.collSettle g) := by
  simp only [State.collSettle]
  refine .ite h ?_
  exact (h.collsClose.foldl fun h' => (h'.outboxGo.collAnswers.foldl fun h'' => h''.collGo).gateFeed).storeChoose

/-! ## Machine/CollSteps -/

theorem Kept.collFetch {k slot : Nat} (h : s₀.Kept s) : s₀.Kept (s.collFetch k slot) := h.setColl.collAsk.setColl

theorem Kept.collStart {k : Nat} (h : s₀.Kept s) : s₀.Kept (s.collStart k) := h.wr.wr.collFetch.collSettle

theorem Kept.collControl {k cmd : Nat} (h : s₀.Kept s) : s₀.Keeps (Coll.control k cmd s) := by
  simp only [Coll.control]
  split
  · exact .ite .error (.ite (.ok h.setObj.wr) (.ok h.setObj.collStart))
  · exact .ite (.ok h.setObj) (.ite (.ok h.setObj.wr) (.ite (.ok h.setObj.collIdle) .error))
  · refine .ite (.ok h.setObj) ?_
    refine .ite .error ?_
    refine .ite (.ok h.setObj.collIdle) ?_
    exact .ite (.ok h.setObj.collAbort.collSettle) (.ok h.setObj.collCancel)
  · exact .ite (.ok h.setObj.wr) .error
  · exact .error

theorem Kept.collHeldStarts (h : s₀.Kept s) : s₀.Kept s.collHeldStarts := h.foldl fun h' => .ite h'.collStart h'

theorem Kept.collRead {k : Nat} {b : List Byte} (h : s₀.Kept s) : s₀.Kept (s.collRead k b) := by
  simp only [State.collRead]
  refine .ite h.collIdle ?_
  refine .ite (.ite h.wr.collFetch h.collIdle) ?_
  exact .ite h.setColl.wr.collWriteBack h.setColl.wr.setColl.wr.collRelease

theorem Kept.collRecordFetch {g c : Nat} (h : s₀.Kept s) : s₀.Kept (Coll.recordFetch g c s) := by
  simp only [Coll.recordFetch]
  refine .ite h ?_
  split
  · exact h.collSettle
  split
  · refine .touch ?_
    refine .collSettle ?_
    split
    · exact (h.collSettle.takeDone ‹_›).collHalted
    · exact .ite ((h.collSettle.takeDone ‹_›).collRead) ((h.collSettle.takeDone ‹_›).setColl)
  · exact (h.collSettle.takeDone ‹_›)

theorem Kept.collNotify {k : Nat} (h : s₀.Kept s) : s₀.Kept (s.collNotify k) := .ite h (.ite h.countEv h.ctlFrom)

theorem Kept.collClearOwn {k : Nat} (h : s₀.Kept s) : s₀.Kept (s.collClearOwn k) := h.collAsk.setColl

theorem Kept.collAdvance {k : Nat} (h : s₀.Kept s) : s₀.Kept (s.collAdvance k) := by
  simp only [State.collAdvance]
  refine .ite h.collClearOwn.bumpWrap.collNotify.wr.collIdle ?_
  exact h.collClearOwn.bumpWrap.collNotify.wr.wr.collFetch

theorem Kept.collBackDone {g c : Nat} (h : s₀.Kept s) : s₀.Kept (Coll.backDone g c s) := by
  simp only [Coll.backDone]
  refine .ite h ?_
  split
  · exact h.collSettle
  split
  · exact (h.collSettle.takeDone ‹_›)
  refine .ite (h.collSettle.takeDone ‹_›) ?_
  refine .touch ?_
  refine .collSettle ?_
  split
  · exact (h.collSettle.takeDone ‹_›).collHalted
  refine .ite ((h.collSettle.takeDone ‹_›).setColl) ?_
  refine .ite ((h.collSettle.takeDone ‹_›).countEv.collAdvance) ?_
  exact (h.collSettle.takeDone ‹_›).countEv.collClearOwn.collHalted

theorem Kept.inputTally {k : Nat} {o : CollOp} {f : TFlit} {err : Bool} (h : s₀.Kept s) : s₀.Kept (s.inputTally k o f err) := h.update

theorem Kept.inputData {k : Nat} {o : CollOp} {c : CollChunk} {i : Nat} {f : TFlit} {err : Bool} (h : s₀.Kept s) :
    s₀.Kept (s.inputData k o c i f err) :=
  .ite h.setOp h.collPlace

theorem Kept.collInputFlit {g c : Nat} (h : s₀.Kept s) : s₀.Kept (Coll.inputFlit g c s) := by
  simp only [Coll.inputFlit]
  refine .ite h ?_
  refine .ite h.collSettle ?_
  split
  · exact h.collSettle
  refine .touch ?_
  refine .collSettle ?_
  split
  · exact (h.collSettle.dlvTake ‹_›).setColl
  split
  · exact (h.collSettle.dlvTake ‹_›)
  refine .ite ((h.collSettle.dlvTake ‹_›).inputTally) ?_
  split
  · exact (h.collSettle.dlvTake ‹_›).inputData
  · exact (h.collSettle.dlvTake ‹_›)

theorem Kept.takeRecord {g rtype k : Nat} {r : CRecord} (h : s₀.Kept s) (ht : s.takeRecord g rtype = some (k, r, t)) : s₀.Kept t := by
  unfold State.takeRecord at ht
  dsimp only at ht
  split at ht
  · cases ht
  split at ht <;> cases ht
  · exact h.setGate.bump
  · exact h.setGate

theorem Kept.dropReserved {g : Nat} (h : s₀.Kept s) : s₀.Kept (s.dropReserved g) := h.update

theorem Kept.onRecord {g rtype : Nat} {f : State → Nat → CRecord → State}
    (h : s₀.Kept s) (hf : ∀ {t x1 x2}, s₀.Kept t → s₀.Kept (f t x1 x2)) : s₀.Kept (s.onRecord g rtype f) := by
  simp only [State.onRecord]
  refine .ite h ?_
  split
  · exact h.collSettle.dropReserved
  refine .touch ?_
  refine .collSettle ?_
  refine .ite (h.collSettle.dropReserved.takeRecord ‹_›) ?_
  exact (hf (h.collSettle.dropReserved.takeRecord ‹_›))

theorem Kept.collArriveReceive {g : Nat} (h : s₀.Kept s) : s₀.Kept (Coll.arriveReceive g s) := h.onRecord fun h' => h'.collStamp

theorem Kept.collReadyReceive {g : Nat} (h : s₀.Kept s) : s₀.Kept (Coll.readyReceive g s) := by
  unfold Coll.readyReceive
  refine h.onRecord fun h' => ?_
  split
  · exact h'.setOp
  · exact h'

theorem Kept.collAbortReceive {g : Nat} (h : s₀.Kept s) : s₀.Kept (Coll.abortReceive g s) := h.onRecord fun h' => h'.collAbort

theorem Kept.collArriveResend {g c : Nat} (h : s₀.Kept s) : s₀.Kept (Coll.arriveResend g c s) := by
  simp only [Coll.arriveResend]
  split
  · refine .ite h ?_
    split
    · exact h
    · exact (h.gateDue ‹_›).setOp.collRecord.collSettle
  · exact h

theorem Kept.takeFrag {g ckind k : Nat} {f : Frag} (h : s₀.Kept s) (ht : s.takeFrag g ckind = some (k, f, t)) : s₀.Kept t := by
  unfold State.takeFrag at ht
  dsimp only at ht
  split at ht <;> cases ht
  exact h.setGate

theorem Kept.onFrag {g ckind : Nat} {act : State → Nat → CollOp → Frag → State}
    (h : s₀.Kept s) (hact : ∀ {t x1 x2 x3}, s₀.Kept t → s₀.Kept (act t x1 x2 x3)) : s₀.Kept (s.onFrag g ckind act) := by
  simp only [State.onFrag]
  refine .ite h ?_
  split
  · exact h.collSettle
  refine .touch ?_
  refine .collSettle ?_
  split
  · exact .ite (hact (h.collSettle.takeFrag ‹_›)) (h.collSettle.takeFrag ‹_›)
  · exact (h.collSettle.takeFrag ‹_›)

theorem Kept.collTallyUp {g : Nat} (h : s₀.Kept s) : s₀.Kept (Coll.tallyUp g s) := by
  unfold Coll.tallyUp
  refine h.onFrag fun h' => ?_
  refine .ite h' ?_
  split
  · exact h'
  · exact .ite h'.collAbort h'.setOp

theorem Kept.collTallyDown {g : Nat} (h : s₀.Kept s) : s₀.Kept (Coll.tallyDown g s) :=
  h.onFrag fun h' => .ite h' (.ite h'.setOp.collAgree h'.setOp)

theorem Kept.collDataUp {g : Nat} (h : s₀.Kept s) : s₀.Kept (Coll.dataUp g s) := by
  unfold Coll.dataUp
  refine h.onFrag fun h' => ?_
  split
  · exact h'.setOp
  · exact h'

theorem Kept.collDataDown {g : Nat} (h : s₀.Kept s) : s₀.Kept (Coll.dataDown g s) := by
  unfold Coll.dataDown
  refine h.onFrag fun h' => ?_
  split
  · exact .ite h'.setOp h'
  · exact h'

theorem Kept.takeSwitched {g : Nat} {pick : FPkt → Bool} {p : FPkt} (h : s₀.Kept s) (ht : s.takeSwitched g pick = some (p, t)) :
    s₀.Kept t := by
  unfold State.takeSwitched at ht
  split at ht <;> cases ht
  exact h.setGate

theorem Kept.collContribReceive {g : Nat} (h : s₀.Kept s) : s₀.Kept (Coll.contribReceive g s) := by
  unfold Coll.contribReceive
  refine .ite h ?_
  split
  · exact (h.takeSwitched ‹_›)
  · exact h

theorem Kept.collCapacityReceive {g : Nat} (h : s₀.Kept s) : s₀.Kept (Coll.capacityReceive g s) := by
  simp only [Coll.capacityReceive]
  refine .ite h ?_
  split
  · exact h
  · exact ((h.takeSwitched ‹_›).foldl fun h' => .ite h'.setObj.update h')

theorem Kept.collCapExpire {g j : Nat} (h : s₀.Kept s) : s₀.Kept (Coll.capExpire g j s) := by
  simp only [Coll.capExpire]
  split
  · exact h
  · exact .ite h h.advanceTo.setObj.update

theorem Kept.collResultReceive {g : Nat} (h : s₀.Kept s) : s₀.Kept (Coll.resultReceive g s) := by
  simp only [Coll.resultReceive]
  refine .ite h ?_
  split
  · exact h
  split
  · exact (h.takeSwitched ‹_›)
  · exact (h.takeSwitched ‹_›).setOp.collSettle.touch

theorem Kept.collRefuseReceive {g : Nat} (h : s₀.Kept s) : s₀.Kept (Coll.refuseReceive g s) := by
  simp only [Coll.refuseReceive]
  refine .ite h ?_
  split
  · exact h
  split
  · exact (h.takeSwitched ‹_›).bump
  · exact .ite ((h.takeSwitched ‹_›).bump.setOp) ((h.takeSwitched ‹_›).bump.setOp.collSettle.touch)

theorem Kept.collRetryExpire {g c chunk : Nat} (h : s₀.Kept s) : s₀.Kept (Coll.retryExpire g c chunk s) := by
  simp only [Coll.retryExpire]
  split
  · exact h
  split
  · exact h
  refine .ite h ?_
  split
  · exact h
  · exact (h.gateDue ‹_›).swSend.collSettle

theorem Kept.collAttemptTimeout {g c chunk : Nat} (h : s₀.Kept s) : s₀.Kept (Coll.attemptTimeout g c chunk s) := by
  simp only [Coll.attemptTimeout]
  split
  · exact h
  refine .ite h ?_
  split
  · exact h
  · exact .collSettle (.ite ((h.gateDue ‹_›).collAbort) ((h.gateDue ‹_›).swSend))

theorem Kept.collAllocGrant {g : Nat} (h : s₀.Kept s) : s₀.Kept (Coll.allocGrant g s) := .ite h h.collSettle.storeGrant.collSettle.touch

theorem Kept.storeRetry {g c : Nat} (h : s₀.Kept s) : s₀.Kept (s.storeRetry g c) := by
  simp only [State.storeRetry]
  split
  · exact h
  split
  · exact h
  · exact (h.gateDue ‹_›).setCollStore.collSettle

theorem Kept.collWriteTopo {gates : Nat} {v : Val} (h : s₀.Kept s) : s₀.Keeps (Coll.writeTopo gates v s) :=
  .ite .error (.ite .error (.ok h.setObj))

theorem Kept.collWriteStore {g : Nat} {v : Val} (h : s₀.Kept s) : s₀.Keeps (Coll.writeStore g v s) :=
  .ite .error (.ite .error (.ok h.setObj))

theorem Kept.collWriteGroup {g j : Nat} {v : Val} (h : s₀.Kept s) : s₀.Keeps (Coll.writeGroup g j v s) := by
  simp only [Coll.writeGroup]
  refine .ite .error ?_
  exact .ite .error (.ite (.ite .error (.ok h.setObj)) (.ite .error (.ok h.setObj)))

theorem Kept.collWriteTrip {g c : Nat} {v : Val} (h : s₀.Kept s) : s₀.Keeps (Coll.writeTrip g c v s) :=
  .ok h.setObj.collExamine.collSettle

theorem Kept.collWriteTripWard {g c : Nat} {v : Val} (h : s₀.Kept s) : s₀.Keeps (Coll.writeTripWard g c v s) :=
  .ite .error (.ok h.setObj)

theorem Kept.collWriteCfg {k : Nat} {v : Val} (h : s₀.Kept s) : s₀.Keeps (Coll.writeCfg k v s) :=
  .ite .error (.ite .error (.ok h.setObj))

theorem Kept.collWriteRing {spans : List (Nat × Nat)} {k key : Nat} {v : Val} (h : s₀.Kept s) :
    s₀.Keeps (Coll.writeRing spans k key v s) :=
  .ite .error (.ite .error (.ite .error (.ite .error (.ok h.setObj))))

theorem Kept.collClearStat {k : Nat} (h : s₀.Kept s) : s₀.Keeps (Coll.clearStat k s) := .ok h.setObj

theorem Kept.collIncrement {g n : Nat} {m : CtlMsg} (h : s₀.Kept s) : s₀.Kept (Coll.increment g n m s).1 := by
  simp only [Coll.increment]
  split
  · exact h
  split
  · exact h
  split
  · exact h
  split
  · exact h
  split
  · exact h
  · dsimp only
    exact h.countEv.bump.collExamine.collSettle

/-! ## Machine/GateHooks -/

theorem Kept.settleUnit {u : Nat} (h : s₀.Kept s) : s₀.Kept (s.settleUnit u) := .ite h.collSettle h

theorem Kept.gateFabricReceive {g : Nat} {bs : List Byte} (h : s₀.Kept s) : s₀.Kept (Gate.fabricReceive g bs s) := by
  simp only [Gate.fabricReceive]
  split
  · exact h.gatePacketReceive.collPeerLost.collSettle
  · exact h.gatePacketReceive.collSettle

theorem Kept.gateRetxExpire {g : Nat} {peer : BitVec 22} {c : Nat} {seq : BitVec 32} (h : s₀.Kept s) :
    s₀.Kept (Gate.retxExpire g peer c seq s) :=
  .ite h.gateRetxTimeout.collPeerLost.collSettle h.gateRetxTimeout

theorem Kept.gateSetCfg {g : Nat} {v : Val} (h : s₀.Kept s) : s₀.Keeps (Gate.setCfg g v s) := by
  simp only [Gate.setCfg]
  split
  · exact .error
  · exact .ok (((h.gateWriteCfg _ ‹_›).foldl fun h' => h'.collPeerLost).collSettle)

theorem Kept.txnBackoffEnd {u target : Nat} {level : BitVec 2} (h : s₀.Kept s) : s₀.Kept (Txn.backoffEnd u target level s) :=
  .ite h.storeRetry (.ite h.pathRetry h.txnBackoffExpire)

theorem Kept.tensorFlitArrive {n inp : Nat} {flips : List Nat} (h : s₀.Kept s) : s₀.Kept (Tensor.flitArrive n inp flips s) :=
  .ite h.tensorArrive.collSettle h.tensorArrive

/-! ## Machine/Schedule -/

theorem Kept.enterLoad {w st code : Nat} (h : s₀.Kept s) : s₀.Kept (s.enterLoad w st code) := h.setLoad

theorem Kept.emptyStaged {w : BitVec 4} {v : Nat} (h : s₀.Kept s) : s₀.Kept (s.emptyStaged w v) := h.foldl fun h' => h'.setBank.wr

theorem Kept.failLoad {w : BitVec 4} {f : ImgFail} (h : s₀.Kept s) : s₀.Kept (s.failLoad w f) := h.markStaged.loadFails

theorem Kept.undamaged {n sel : Nat} (h : s₀.Kept s) : s₀.Kept (s.undamaged n sel) := h.update

theorem Kept.loadAfresh {n : Nat} (h : s₀.Kept s) : s₀.Kept (s.loadAfresh n) := h.update

theorem Kept.schedBegin {w : BitVec 4} {master : Bool} (h : s₀.Kept s) : s₀.Keeps (Sched.begin w master s) :=
  .ite .error (.ok ((h.emptyStaged.enterLoad.foldl fun h' => h'.loadAfresh).setSched))

theorem Kept.schedLoaded {w : BitVec 4} {image : List Byte} (h : s₀.Kept s) : s₀.Kept (Sched.loaded w image s) :=
  h.setSched.enterLoad.foldl fun h' => h'.wakeAt

theorem Kept.stageImage {w : BitVec 4} {m : Img} (h : s₀.Kept s) : s₀.Kept (s.stageImage w m) := h.foldl fun h' => h'.setBank.undamaged

theorem Kept.schedChecked {w : BitVec 4} (h : s₀.Kept s) : s₀.Kept (Sched.checked w s) := by
  simp only [Sched.checked]
  refine .ite h ?_
  split
  · exact h.failLoad
  split
  · exact h.stageImage.setSched.failLoad
  · exact h.stageImage.setSched.markStaged.enterLoad.reportLoad

theorem Kept.schedArm {w : BitVec 4} (h : s₀.Kept s) : s₀.Keeps (Sched.arm w s) := .ite .error (.ok h.setSched.wr)

theorem Kept.ingressesAct {w : BitVec 4} {n : Nat} {f : Ingress → Ingress} (h : s₀.Kept s) : s₀.Kept (s.ingressesAct w n f) :=
  h.foldl fun h' => h'.setIng.ingBoundary

theorem Kept.releaseIngresses {w : BitVec 4} (h : s₀.Kept s) : s₀.Kept (s.releaseIngresses w) := h.sequence

theorem Kept.sendTarget {w : BitVec 4} {t : Nat} (h : s₀.Kept s) : s₀.Kept (s.sendTarget w t) :=
  h.wr.enterLoad.traceEpoch.setSched.sequence.releaseIngresses

theorem Kept.schedArmChecked {w : BitVec 4} (h : s₀.Kept s) : s₀.Kept (Sched.armChecked w s) := by
  simp only [Sched.armChecked]
  refine .ite h ?_
  refine .ite h.setSched.failLoad ?_
  split
  · exact h.setSched.failLoad
  refine .ite h.setSched.markStaged.enterLoad.traceEpoch.setSched.sendTarget ?_
  exact h.setSched.markStaged.enterLoad.traceEpoch.setSched.sequence

theorem Kept.schedTargetSet {w : BitVec 4} {t : Option (BitVec 32)} (h : s₀.Kept s) : s₀.Kept (Sched.targetSet w t s) := by
  unfold Sched.targetSet
  refine .ite h ?_
  refine .ite ?_ h.sendTarget
  split
  · exact h.sendTarget
  · exact .ite h h.emit

theorem Kept.schedCancel {w : BitVec 4} (h : s₀.Kept s) : s₀.Keeps (Sched.cancel w s) := by
  simp only [Sched.cancel]
  refine .ite (.ok h.emptyStaged.setSched.enterLoad.wr) ?_
  exact .ite (.ok h.releaseIngresses.markStaged.setSched.enterLoad.wr) .error

theorem Kept.armOrRelease {n : Nat} {m : CtlMsg} (h : s₀.Kept s) : s₀.Kept (s.armOrRelease n m) :=
  .ite h (.ite h.setSched.ingressesAct (.ite h.ingressesAct h))

theorem Kept.commandsAct {n fuel : Nat} (h : s₀.Kept s) : s₀.Kept (s.commandsAct n fuel) := by
  induction fuel generalizing s with
  | zero => exact h
  | succ fuel ih =>
    simp only [State.commandsAct]
    split
    · exact h
    · exact .ite (ih h.arrivedDone.afterOuter.refuse) (.ite h (ih h.arrivedDone.armOrRelease))

theorem Kept.takeCommands {n : Nat} (h : s₀.Kept s) : s₀.Kept (s.takeCommands n) := h.commandsAct

theorem Kept.resend {w : BitVec 4} {n : Nat} (h : s₀.Kept s) : s₀.Kept (s.resend w n) := by
  simp only [State.resend]
  refine .ite h.sequence ?_
  exact .ite (.ite h h.sequence) (.ite (.sequence (.ite h.sequence h)) (.ite h.sequence h))

theorem Kept.resendAll (h : s₀.Kept s) : s₀.Kept s.resendAll := h.foldl fun h' => .ite (h'.foldl fun h'' => .ite h''.resend h'') h'

theorem Kept.commandRefused {m : CtlMsg} (h : s₀.Kept s) : s₀.Kept (s.commandRefused m) := .ite h h.resend

theorem Kept.tileCommands (h : s₀.Kept s) : s₀.Kept s.tileCommands := by
  simp only [State.tileCommands]
  refine .ite h ?_
  exact ((h.update.foldl fun h' => .ite h'.afterOuter.refuse (.ite h'.afterOuter.wakeAhead h'.afterOuter)).foldl fun h' =>
    h'.commandRefused)

theorem Kept.schedTargetArrive {n : Nat} (h : s₀.Kept s) : s₀.Kept (Sched.targetArrive n s) := by
  simp only [Sched.targetArrive]
  split
  · exact h
  · exact .ite h (.takeCommands (.ite h.arrivedDone.setSched.swapTry.touch h.arrivedDone))

theorem Kept.showLive {w : Nat} {f : ImageFacts} (h : s₀.Kept s) : s₀.Kept (s.showLive w f) := h.setObj.setDom.setDom

theorem Kept.goLive {w : BitVec 4} {code : Nat} {f : ImageFacts} (h : s₀.Kept s) : s₀.Kept (s.goLive w code f) :=
  (h.bumpWrap.showLive.enterLoad.foldl fun h' => h'.wr).traceQueue.setSched.countEv.reportLoad

theorem Kept.flipBank {n : Nat} (h : s₀.Kept s) : s₀.Kept (s.flipBank n) := h.setBank.wr.wr.wr

theorem Kept.schedSwapComplete {w : BitVec 4} (h : s₀.Kept s) : s₀.Kept (Sched.swapComplete w s) :=
  .ite h ((h.foldl fun h' => h'.flipBank).goLive.setSched)

theorem Kept.forceBegin {w : BitVec 4} {staged : Bool} (h : s₀.Kept s) : s₀.Kept (s.forceBegin w staged) := h.setSched.sequence

theorem Kept.schedForceNull {w : BitVec 4} (h : s₀.Kept s) : s₀.Keeps (Sched.forceNull w s) := .ok h.forceBegin.wr

theorem Kept.schedForceStaged {w : BitVec 4} (h : s₀.Kept s) : s₀.Keeps (Sched.forceStaged w s) := .ite (.ok h.forceBegin.wr) .error

theorem Kept.schedWriteCtrl {w : BitVec 4} {v : BitVec 64} {l2 : Bool} (h : s₀.Kept s) : s₀.Keeps (Sched.writeCtrl w v l2 s) := by
  unfold Sched.writeCtrl
  split
  · exact h.schedArm
  · exact h.schedCancel
  · exact .ite h.schedForceStaged .error
  · exact .ite h.schedForceNull .error
  · exact .error

theorem Kept.endRun {n o : Nat} {flow : BitVec 12} (h : s₀.Kept s) : s₀.Kept (s.endRun n o flow) := by
  simp only [State.endRun]
  split
  · exact h.tapSee.bridgeRecord.noteOpen
  · exact h.tapSee.setDlv

theorem Kept.endRuns {n : Nat} (h : s₀.Kept s) : s₀.Kept (s.endRuns n) := h.foldl fun h' => (h'.foldl fun h'' => h''.endRun)

theorem Kept.clearLatches {n : Nat} (h : s₀.Kept s) : s₀.Kept (s.clearLatches n) :=
  ((h.setTap.foldl fun h' => h'.setTin.setTout).foldl fun h' => h'.setIng).setNode

theorem Kept.clearSwap {n : Nat} (h : s₀.Kept s) : s₀.Kept (s.clearSwap n) := h.update.wr.wr

theorem Kept.forceBank {n : Nat} {staged : Bool} (h : s₀.Kept s) : s₀.Kept (s.forceBank n staged) :=
  .ite h.setBank.clearSwap (.ite h.setBank.wr.clearSwap h.flipBank.clearSwap)

theorem Kept.forcedSwap {n : Nat} {w : BitVec 4} (h : s₀.Kept s) : s₀.Kept (s.forcedSwap n w) :=
  h.setSched.endRuns.clearLatches.forceBank.touch

theorem Kept.schedForcedArrive {n : Nat} (h : s₀.Kept s) : s₀.Kept (Sched.forcedArrive n s) := by
  simp only [Sched.forcedArrive]
  refine .ite ?_ ?_
  · split
    · exact .ite h.forcedSwap h
    · exact h
  · split
    · exact h
    · exact .ite h (.takeCommands (.ite h.arrivedDone.forcedSwap h.arrivedDone))

theorem Kept.schedForcedComplete {w : BitVec 4} (h : s₀.Kept s) : s₀.Kept (Sched.forcedComplete w s) :=
  .ite h (.ite (.wr (.ite h.goLive.setSched h.goLive)) (.ite h.goLive.setSched h.goLive))

/-! ## Machine/PlaneWrites -/

theorem Kept.paceClearMin {acc : Access} {k : Nat} (h : s₀.Kept s) : s₀.Kept (Pace.clearMin acc k s) := h.serveKey fun h' => h'.storeVal

theorem Kept.serveClear {acc : Access} {k : Nat} (h : s₀.Kept s) : s₀.Kept (s.serveClear acc k) := h.serveKey fun h' => h'.storeVal

theorem Kept.tapWrite {n : Nat} {v : Val} (h : s₀.Kept s) : s₀.Keeps (Tap.write n v s) := .ok (.setObj (.ite h.setTap h))

theorem Kept.serveLater {acc : Access} {k : Nat} {v : Val} {eff : Val → State → Except Abort (State × Bool)} (h : s₀.Kept s)
    (heff : ∀ {x t b}, eff x s = .ok (t, b) → s₀.Kept t) : s₀.Kept (s.serveLater acc k v eff) := by
  unfold State.serveLater
  refine .ite h ?_
  split
  · exact h.abortRequest
  split
  · exact h.abortRequest
  · exact heff ‹_›
  · exact (heff ‹_›).written

theorem Kept.controlChanLater {n i : Nat} {acc : Access} {v : Val} {b : Bool} (h : s₀.Kept s)
    (ht : Control.chanLater n i acc v s = .ok (t, b)) : s₀.Kept t := by
  unfold Control.chanLater at ht
  split at ht <;> cases ht
  exact h.controlWriteChan _ ‹_›

theorem Kept.controlEntryWrite {acc : Access} {n i : Nat} {v : BitVec 32} (h : s₀.Kept s) : s₀.Kept (Control.entryWrite acc n i v s) :=
  h.serveLater h.controlChanLater

theorem Kept.endCheck {c : ChanCheck} {r : Except Abort Unit} (h : s₀.Kept s) : s₀.Kept (s.endCheck c r) := by
  simp only [State.endCheck]
  split
  · exact h.abortRequest
  · exact h.written

theorem Kept.controlRankReceived {t i : Nat} {answer : RankAnswer} (h : s₀.Kept s) : s₀.Kept (Control.rankReceived t i answer s) := by
  simp only [Control.rankReceived]
  split
  · split
    · exact (h.takeCheck ‹_›).endCheck
    · split
      · exact (h.takeCheck ‹_›).endCheck
      · exact .ite ((h.takeCheck ‹_›).setEntry.update.endCheck) ((h.takeCheck ‹_›).endCheck)
    · exact (h.takeCheck ‹_›).endCheck
  · exact h

theorem Kept.dropIncoming {src : BitVec 16} {entry : Nat} (h : s₀.Kept s) : s₀.Kept (s.dropIncoming src entry) := h.update

theorem Kept.controlRankGiven {src : BitVec 16} {entry : Nat} {dest : BitVec 16} {ward : BitVec 4} {rank : BitVec 8} (h : s₀.Kept s) :
    s₀.Kept (Control.rankGiven src entry dest ward rank s) := by
  simp only [Control.rankGiven]
  refine .ite h ?_
  refine .emit ?_
  split
  · exact .ite h.dropIncoming.update h
  · exact h

theorem Kept.controlRankReply {t : BitVec 16} {i : Nat} {r : RankReply} (h : s₀.Kept s) : s₀.Kept (Control.rankReply t i r s) := by
  unfold Control.rankReply
  split
  · exact h.controlRankReceived
  · exact h.controlRankGiven
  · exact h.dropIncoming

theorem Kept.dropChecks {w : BitVec 4} (h : s₀.Kept s) : s₀.Kept (s.dropChecks w) := h.update.foldl fun h' => h'.endCheck

theorem Kept.controlCheckTimeout {t i : Nat} (h : s₀.Kept s) : s₀.Kept (Control.checkTimeout t i s) := by
  unfold Control.checkTimeout
  split
  · exact h
  · exact (h.takeCheck ‹_›).advanceTo.endCheck

theorem Kept.controlRankWrite {acc : Access} {t : Nat} {v : BitVec 8} (h : s₀.Kept s) : s₀.Kept (Control.rankWrite acc t v s) := by
  simp only [Control.rankWrite]
  exact (h.serveKey fun h' => h'.controlWriteRank)

theorem Kept.txnWindowComplete {p i : Nat} (h : s₀.Kept s) : s₀.Kept (Txn.windowComplete p i s) := by
  unfold Txn.windowComplete
  split
  · exact h
  refine .ite h ?_
  split
  · exact h.txnWindowDone.written
  · exact h.txnWindowDone

/-! ## Machine/Bridge -/

theorem Kept.showModules {b st bad : Nat} {repair : BitVec 64} (h : s₀.Kept s) : s₀.Kept (s.showModules b st bad repair) :=
  h.setObj.setObj.setObj.update

theorem Kept.repairRecords {b n : Nat} {before : Val} (h : s₀.Kept s) : s₀.Kept (s.repairRecords b n before) :=
  h.foldl fun h' => .ite h' (.ite (.ite h' h'.spareRecord) (.ite h' h'.spareRecord))

theorem Kept.bridgeReqs {b k : Nat} (h : s₀.Kept s) : s₀.Kept (s.bridgeReqs b k) := by
  induction k generalizing s with
  | zero => exact h
  | succ k ih =>
    conv => arg 2; whnf
    split
    · exact h
    refine .ite h ?_
    split
    · exact h
    refine ih ?_
    dsimp only
    split
    · exact .ite (.answerAcross h.update) (.acceptTxn h.update)
    · exact .acceptTxn h.update

theorem Kept.landReq {b n : Nat} {r : List Byte} (h : s₀.Kept s) : s₀.Kept (s.landReq b n r) :=
  .ite h (.ite h.txnOuterRaise h.update.bridgeReqs)

theorem Kept.landRsp {b n : Nat} {r : List Byte} (h : s₀.Kept s) : s₀.Kept (s.landRsp b n r) :=
  .ite h (.ite h.txnOuterRaise h.answerArrives)

theorem Kept.landDat {b n : Nat} {p : TPkt} (h : s₀.Kept s) : s₀.Kept (s.landDat b n p) := by
  simp only [State.landDat]
  refine .ite (.answerArrives (.ite h.txnOuterRaise h)) ?_
  exact .ite (.ite h.txnOuterRaise h) (.bridgeReqs (.update (.ite h.txnOuterRaise h)))

theorem Kept.landTxn {b g n fuel : Nat} (h : s₀.Kept s) : s₀.Kept (s.landTxn b g n fuel) := by
  induction fuel generalizing s with
  | zero => exact h
  | succ fuel ih =>
    simp only [State.landTxn]
    split
    · exact h
    refine .ite (ih h.bridgeFree.landReq) ?_
    refine .ite (ih h.bridgeFree.landRsp) ?_
    exact .ite (ih h.bridgeFree) (.ite h (ih h.bridgeFree.landDat))

theorem Kept.bridgeLand {b g : Nat} (h : s₀.Kept s) : s₀.Kept (s.bridgeLand b g) := by
  unfold State.bridgeLand
  split
  · exact h
  · exact .ite h.bridgeFeed (.ite h (.ite h.landCtl h.landTxn.bridgeTell.touch))

theorem Kept.bridgesLand (h : s₀.Kept s) : s₀.Kept s.bridgesLand := h.foldl fun h' => .ite h'.bridgePump h'.bridgePump.bridgeLand

theorem Kept.dropGroups {b : Nat} (h : s₀.Kept s) : s₀.Kept (s.dropGroups b) := h.foldl fun h' => .ite h'.groupDown h'

theorem Kept.abandonSection {w : Nat} (h : s₀.Kept s) : s₀.Kept (s.abandonSection w) := .ite h.leaveSwap.markStaged.loadFails h

theorem Kept.setPkg {w : Nat} {x : PkgSeq} (h : s₀.Kept s) : s₀.Kept (s.setPkg w x) := h.update

theorem Kept.pkgEnter {w st code die : Nat} (h : s₀.Kept s) : s₀.Kept (s.pkgEnter w st code die) :=
  h.setObj.foldl fun h' => h'.peerWrite

theorem Kept.abandonPackage {w die : Nat} (h : s₀.Kept s) : s₀.Kept (s.abandonPackage w die) := h.abandonSection.pkgEnter

theorem Kept.abandonPackages (h : s₀.Kept s) : s₀.Kept s.abandonPackages := h.foldl fun h' => .ite h'.abandonPackage h'.abandonSection

theorem Kept.pkgCopyStatus {w : Nat} {v : Val} (h : s₀.Kept s) : s₀.Keeps (Pkg.copyStatus w v s) :=
  .ok (.ite h.setObj.abandonSection h.setObj)

theorem Kept.bridgeFall {b st : Nat} (h : s₀.Kept s) : s₀.Kept (s.bridgeFall b st) := by
  simp only [State.bridgeFall]
  split
  · exact h
  · exact ((h.foldl fun h' => h'.groupDown).setObj.raise.abandonPackages.serve.foldl fun h' => h'.bridgeFeed)

theorem Kept.trainBegin {b : Nat} (h : s₀.Kept s) : s₀.Kept (s.trainBegin b) := .ite h.wr h

theorem Kept.bridgeTrained {b : Nat} {slow : Bool} {bad : BitVec 8} {repair : BitVec 64} {partner : Option (BitVec 6)} (h : s₀.Kept s) :
    s₀.Kept (Bridge.trained b slow bad repair partner s) := by
  simp only [Bridge.trained]
  split
  · exact h
  refine .ite h ?_
  refine .ite h.showModules.repairRecords ?_
  exact (h.foldl fun h' => h'.setBgroup).showModules.repairRecords.setObj.update

theorem Kept.bridgeRetrain {b mods : Nat} (h : s₀.Kept s) : s₀.Kept (s.bridgeRetrain b mods) := by
  simp only [State.bridgeRetrain]
  split
  · exact h
  · exact h.update.wr.bump.raise

theorem Kept.groupResumes {b g : Nat} {again : Bool} (h : s₀.Kept s) : s₀.Kept (s.groupResumes b g again) :=
  .bridgePump (.setBgroup (.ite h.bridgeReplay h))

theorem Kept.bridgeRetrained {b : Nat} {bad : BitVec 8} {repair : BitVec 64} (h : s₀.Kept s) :
    s₀.Kept (Bridge.retrained b bad repair s) := by
  simp only [Bridge.retrained]
  refine .ite h ?_
  refine .ite h.showModules.repairRecords.bridgeFall ?_
  exact (h.showModules.repairRecords.dropGroups.foldl fun h' => h'.groupResumes)

theorem Kept.bridgeLinkDown {b : Nat} (h : s₀.Kept s) : s₀.Kept (Bridge.linkDown b s) := .ite h h.bridgeFall

theorem Kept.groupRetry {b g : Nat} (h : s₀.Kept s) : s₀.Kept (s.groupRetry b g) := by
  unfold State.groupRetry
  refine .ite h ?_
  split
  · exact .ite h.swapTry h
  · exact h

theorem Kept.bridgeFlitReceive {b g : Nat} {flit : BitVec 2048} (h : s₀.Kept s) : s₀.Kept (Bridge.flitReceive b g flit s) := by
  simp only [Bridge.flitReceive]
  split
  · exact h
  refine .ite h ?_
  refine .ite (.bridgeRetrain (.ite h.injectFired.bridgeDiscard h.bridgeTake)) ?_
  refine .ite (.bridgeIdle (.bridgeLand (.groupRetry (.bridgePump (.ite h.injectFired.bridgeDiscard h.bridgeTake))))) ?_
  exact .bridgeTell (.bridgeLand (.groupRetry (.bridgePump (.ite h.injectFired.bridgeDiscard h.bridgeTake))))

theorem Kept.bridgeWriteCfg {b : Nat} {v : Val} (h : s₀.Kept s) : s₀.Keeps (Bridge.writeCfg b v s) :=
  .ok (.ite h.setObj.trainBegin (.ite h.setObj.bridgeFall (.ite h.setObj.wr h.setObj)))

/-! ## Machine/Package -/

theorem Kept.peerCopy {i sub : Nat} {bs : List Byte} (h : s₀.Kept s) : s₀.Kept (s.peerCopy i sub bs) := h.foldl fun h' => h'.peerWrite

theorem Kept.forwardEnum {p : Int × Int} {master : BitVec 48} {from_ : Option Nat} (h : s₀.Kept s) :
    s₀.Kept (s.forwardEnum p master from_) :=
  h.foldl fun h' => h'.emit

theorem Kept.enumStart (h : s₀.Kept s) : s₀.Kept s.enumStart := .ite h (.ite h.update.wr.forwardEnum h.update)

theorem Kept.enumFailFrom {cause : Nat} {from_ : Option Nat} (h : s₀.Kept s) : s₀.Kept (s.enumFailFrom cause from_) :=
  h.update.wr.wr.setObj.setObj.raise.foldl fun h' => h'.emit

theorem Kept.enumFail {cause : Nat} (h : s₀.Kept s) : s₀.Kept (s.enumFail cause) := h.enumFailFrom

theorem Kept.pkgEnumReceive {b : Nat} {p : Int × Int} {master : BitVec 48} {facing_ : Nat} (h : s₀.Kept s) :
    s₀.Kept (Pkg.enumReceive b p master facing_ s) := by
  simp only [Pkg.enumReceive]
  refine .ite h ?_
  refine .ite (.ite h.enumFail h) ?_
  split
  · exact h.enumFail
  · exact .ite h h.update.wr.wr.forwardEnum

theorem Kept.showPartners (h : s₀.Kept s) : s₀.Kept s.showPartners := by
  simp only [State.showPartners]
  refine h.foldl fun h' => ?_
  split
  · exact .ite h'.setObj h'
  · exact h'

theorem Kept.takeNumber {die cols rows master parent : Nat} {map : BitVec 64} (h : s₀.Kept s) :
    s₀.Kept (s.takeNumber die cols rows master parent map) :=
  h.setObj.setObj.setObj.update.showPartners

theorem Kept.forwardAssign {o : Int × Int} {cols rows master : Nat} {map : BitVec 64} {from_ : Option Nat} (h : s₀.Kept s) :
    s₀.Kept (s.forwardAssign o cols rows master map from_) :=
  h.foldl fun h' => h'.emit

theorem Kept.setTrial {b : Nat} {x : TimeTrial} (h : s₀.Kept s) : s₀.Kept (s.setTrial b x) := h.update

theorem Kept.sendTimeReq {b : Nat} (h : s₀.Kept s) : s₀.Kept (s.sendTimeReq b) := h.setTrial.bridgeStamped

theorem Kept.timeChildren (h : s₀.Kept s) : s₀.Kept s.timeChildren := h.foldl fun h' => h'.setTrial.sendTimeReq

theorem Kept.measured (h : s₀.Kept s) : s₀.Kept s.measured := h.bumpWrap.timeChildren

theorem Kept.measureAgain (h : s₀.Kept s) : s₀.Kept s.measureAgain := by
  unfold State.measureAgain
  split
  · split
    · exact h.peerWrite
    · exact h.measured
  · exact h.measured

theorem Kept.hallSet {offset : Int} {err : Nat} (h : s₀.Kept s) : s₀.Kept (s.hallSet offset err) := h.setObj.setObj.peerCopy.peerCopy

theorem Kept.hallBegin (h : s₀.Kept s) : s₀.Kept s.hallBegin := .ite h (.ite h.update.hallSet h.update)

theorem Kept.pkgQuietExpire {found : List (Int × Int)} (h : s₀.Kept s) : s₀.Kept (Pkg.quietExpire found s) := by
  simp only [Pkg.quietExpire]
  split
  · exact h
  refine .ite h ?_
  refine .ite h.advanceTo.enumFail ?_
  exact h.advanceTo.takeNumber.forwardAssign.setObj.setObj.measured.hallBegin

theorem Kept.pkgAssignReceive {o : Int × Int} {cols rows : BitVec 3} {master : BitVec 6} {body : AssignBody} (h : s₀.Kept s) :
    s₀.Kept (Pkg.assignReceive o cols rows master body s) := by
  simp only [Pkg.assignReceive]
  split
  · exact h
  · exact .ite h.enumFail h
  · exact .ite h h.takeNumber.forwardAssign

theorem Kept.pkgWaitExpire (h : s₀.Kept s) : s₀.Kept (Pkg.waitExpire s) := by
  unfold Pkg.waitExpire
  split
  · exact h
  · exact .ite h h.advanceTo.enumFail

theorem Kept.pkgWriteNumber {path : Path} {v : Val} (h : s₀.Kept s) : s₀.Keeps (Pkg.writeNumber path v s) :=
  .ite (.ok h.setObj) (.ite .error (.ite .error (.ite .error (.ok h.setObj.peerCopy))))

theorem Kept.takeTime {b k : Nat} {lead : Byte} {bs : List Byte} (h : s₀.Kept s) (ht : s.takeTime b lead = some (bs, k, t)) :
    s₀.Kept t := by
  unfold State.takeTime at ht
  split at ht <;> cases ht
  exact h.update

theorem Kept.pkgTimeReq {b : Nat} (h : s₀.Kept s) : s₀.Kept (Pkg.timeReq b s) := by
  unfold Pkg.timeReq
  refine .ite h ?_
  split
  · exact h
  · exact .ite (h.takeTime ‹_›) ((h.takeTime ‹_›).bridgeStamped)

theorem Kept.timeDone {b : Nat} {offset : Int} (h : s₀.Kept s) : s₀.Kept (s.timeDone b offset) := by
  simp only [State.timeDone]
  split
  · exact h
  · exact h.peerWrite.peerWrite

theorem Kept.pkgTimeResp {b : Nat} (h : s₀.Kept s) : s₀.Kept (Pkg.timeResp b s) := by
  simp only [Pkg.timeResp]
  refine .ite h ?_
  split
  · exact h
  refine .ite (h.takeTime ‹_›) ?_
  refine .ite ((h.takeTime ‹_›).setTrial.sendTimeReq) ?_
  split
  · exact (h.takeTime ‹_›).setTrial.timeDone
  · exact (h.takeTime ‹_›)

theorem Kept.tbPeriodFrom (h : s₀.Kept s) : s₀.Kept s.tbPeriodFrom := h.update

theorem Kept.pkgPeriodExpire (h : s₀.Kept s) : s₀.Kept (Pkg.periodExpire s) := by
  unfold Pkg.periodExpire
  split
  · exact h
  · exact .ite h h.advanceTo.tbPeriodFrom.measureAgain.hallBegin

theorem Kept.pkgWritePeriod {v : Val} (h : s₀.Kept s) : s₀.Keeps (Pkg.writePeriod v s) := .ok h.setObj.tbPeriodFrom

theorem Kept.pkgWriteGen {path : Path} (h : s₀.Kept s) : s₀.Keeps (Pkg.writeGen path s) := .ok (.ite h.timeChildren h.measureAgain)

theorem Kept.pkgWriteError {v : Val} (h : s₀.Kept s) : s₀.Keeps (Pkg.writeError v s) := .ok h.setObj.measured

theorem Kept.sectionAsk {w : Nat} {x : PkgSend} (h : s₀.Kept s) : s₀.Kept (s.sectionAsk w x) := .ite h (.ite h.peerAsk.setPkg h)

theorem Kept.sectionAnswers {w k : Nat} (h : s₀.Kept s) : s₀.Kept (s.sectionAnswers w k).1 := by
  induction k generalizing s with
  | zero => exact h
  | succ k ih =>
    rw [State.sectionAnswers]
    extract_lets mine
    split
    · exact h
    extract_lets s1 from_ x reply
    have h1 : s₀.Kept s1 := h.update
    split
    · exact ih h1
    split
    · exact h1
    · exact ih h1.setPkg

theorem Kept.sectionsGo {w : Nat} (h : s₀.Kept s) : s₀.Kept (s.sectionsGo w).1 := h.sectionAnswers.foldl fun ht => ht.sectionAsk

theorem Kept.pkgBegin {w : BitVec 4} (h : s₀.Kept s) : s₀.Keeps (Pkg.begin w s) := .ite .error (.ok h.pkgEnter)

theorem Kept.pkgBroken {w : BitVec 4} (h : s₀.Kept s) : s₀.Kept (Pkg.broken w s) := .ite h.pkgEnter h

theorem Kept.transferLost {t : Transfer} (h : s₀.Kept s) : s₀.Kept (s.transferLost t) := .ite h.pkgBroken h.imageLost

theorem Kept.pkgLoaded {w : BitVec 4} {image : List Byte} (h : s₀.Kept s) : s₀.Kept (Pkg.loaded w image s) := by
  simp only [Pkg.loaded]
  refine .ite h.setPkg.pkgEnter ?_
  split
  · exact h.setPkg.pkgEnter.sectionsGo
  split
  · exact (h.setPkg.pkgEnter.sectionsGo.schedBegin _ ‹_›).schedLoaded
  · exact h.setPkg.pkgEnter.sectionsGo.pkgEnter

theorem Kept.pkgJudge {k : Nat} {results : List DieResult} (h : s₀.Kept s) : s₀.Kept (Pkg.judge k results s) := by
  simp only [Pkg.judge]
  refine .ite h ?_
  split
  · exact h.pkgEnter
  split
  · exact h.pkgEnter
  · split <;> exact h.pkgEnter

theorem Kept.pkgChecked {w : BitVec 4} {results : List DieResult} (h : s₀.Kept s) : s₀.Kept (Pkg.checked w results s) := by
  simp only [Pkg.checked]
  refine .ite h ?_
  refine .ite h.pkgEnter ?_
  split
  · exact h.sectionsGo.pkgEnter
  · exact .ite h.sectionsGo h.sectionsGo.pkgJudge

theorem Kept.pkgCommand {w : Nat} {cmd : Byte} (h : s₀.Kept s) : s₀.Kept (s.pkgCommand w cmd) := h.foldl fun h' => h'.peerWrite

theorem Kept.pkgArm {w : BitVec 4} (h : s₀.Kept s) : s₀.Keeps (Pkg.arm w s) := by
  simp only [Pkg.arm]
  refine .ite .error ?_
  refine .ite ?_ (.ok h.setPkg.pkgEnter.pkgCommand.setObj)
  split
  · exact .error
  · exact .ok ((h.schedArm _ ‹_›).setPkg.pkgEnter.pkgCommand.setObj)

theorem Kept.pkgCancelAll {w : BitVec 4} (h : s₀.Kept s) : s₀.Kept (s.pkgCancelAll w) := by
  simp only [State.pkgCancelAll]
  refine .pkgCommand ?_
  refine .ite ?_ h
  split
  · exact (h.schedCancel _ ‹_›)
  · exact h

theorem Kept.pkgCancel {w : BitVec 4} (h : s₀.Kept s) : s₀.Keeps (Pkg.cancel w s) := .ite (.ok h.pkgCancelAll.pkgEnter.setObj) .error

theorem Kept.pkgWriteCtrl {w : BitVec 4} {v : Val} (h : s₀.Kept s) : s₀.Keeps (Pkg.writeCtrl w v s) := by
  unfold Pkg.writeCtrl
  generalize v.toNat % 16 = cmd
  match cmd with
  | 1 => exact h.pkgArm
  | 2 => exact h.pkgCancel
  | 0 | _ + 3 => exact .error

theorem Kept.pkgTarget {w : BitVec 4} {t : Nat} (h : s₀.Kept s) : s₀.Kept (s.pkgTarget w t) :=
  .pkgEnter (.setPkg (.foldl (.ite h.schedTargetSet h) fun h' => h'.peerWrite))

theorem Kept.pkgCount {w : BitVec 4} {die t : Nat} (h : s₀.Kept s) : s₀.Kept (s.pkgCount w die t) :=
  .ite h (.ite h.setPkg.pkgTarget h.setPkg)

theorem Kept.pkgShows {w : BitVec 4} {die v : Nat} (h : s₀.Kept s) : s₀.Kept (s.pkgShows w die v) := by
  simp only [State.pkgShows]
  refine .ite h ?_
  refine .ite h.abandonPackage ?_
  exact .ite (.pkgEnter (.ite h.pkgCancelAll h)) (.ite (.ite h.setPkg.pkgEnter h.setPkg) h)

theorem Kept.pkgReport {w : BitVec 4} {die : Nat} {r : DieReport} (h : s₀.Kept s) : s₀.Kept (Pkg.report w die r s) := by
  unfold Pkg.report
  refine .ite h ?_
  refine .ite ?_ ?_
  · split
    · exact h.pkgCount
    · exact h.pkgShows
  · split
    · exact .ite h.pkgCount h
    · exact h.pkgShows

/-! ## Machine/Services -/

theorem Kept.controlTripIncrement {u : Nat} (h : s₀.Kept s) : s₀.Kept (Control.tripIncrement u s) := by
  simp only [Control.tripIncrement]
  split
  · refine .ite h ?_
    split
    · exact .refuse (.ite (.wardRefusal (.touch (.afterOuter (.ite_fst h.arrivedDone.collIncrement h.arrivedDone.dmaIncrement))))
        (.touch (.afterOuter (.ite_fst h.arrivedDone.collIncrement h.arrivedDone.dmaIncrement))))
    · exact .touch (.afterOuter (.ite_fst h.arrivedDone.collIncrement h.arrivedDone.dmaIncrement))
  · exact h

theorem Kept.setGrant {src : BitVec 16} {g : Grant} (h : s₀.Kept s) : s₀.Kept (s.setGrant src g) := h.update

theorem Kept.pstateReply {src : BitVec 16} {status : Nat} {reqId : BitVec 32} {g : Grant} (h : s₀.Kept s) :
    s₀.Kept (s.pstateReply src status reqId g) :=
  h.ctlReply

theorem Kept.pstateServe {m : CtlMsg} (h : s₀.Kept s) : s₀.Kept (s.pstateServe m) := .ite h.pstateReply h.setGrant.pstateReply

theorem Kept.powerPstateRequest (h : s₀.Kept s) : s₀.Kept (Power.pstateRequest s) := by
  simp only [Power.pstateRequest]
  split
  · exact h
  refine .ite h ?_
  refine .ite h.arrivedDone.afterOuter.refuse ?_
  exact .ite h.arrivedDone.afterOuter.refuse h.arrivedDone.afterOuter.pstateServe

theorem Kept.throttle (h : s₀.Kept s) : s₀.Kept s.throttle := h.foldl fun h' => .ite h' h'.setGrant.pstateReply

theorem Kept.serviceRefuse {m : ServiceMsg} (h : s₀.Kept s) : s₀.Kept (s.serviceRefuse m) :=
  .ite h (.ite h.refuseNow (.ite h.refuseNow h))

theorem Kept.serveService (h : s₀.Kept s) : s₀.Kept s.serveService := h.foldl fun h' => h'.serviceRefuse

theorem Kept.serviceReceive (h : s₀.Kept s) : s₀.Kept (Service.receive s) := by
  simp only [Service.receive]
  split
  · exact h
  refine .ite h ?_
  refine .ite h.arrivedDone.afterOuter.refuse ?_
  refine .ite h.arrivedDone.afterOuter.refuse ?_
  refine .ite h.arrivedDone.afterOuter.refuse ?_
  refine .ite h.arrivedDone.afterOuter.update.serviceRefuse ?_
  exact h.arrivedDone.afterOuter.update.serviceRefuse.pathAsk

theorem Kept.mailboxRefuse {p : Nat} (h : s₀.Kept s) : s₀.Kept (s.mailboxRefuse p) := .ite h h.refuseNow

theorem Kept.post {p : Nat} (h : s₀.Kept s) : s₀.Kept (s.post p) :=
  .ite h.setMailbox (.ite h.setMailbox.mailboxRefuse.pathAsk h.setMailbox.mailboxRefuse)

theorem Kept.mboxWrite {p off : Nat} {bs : List Byte} (h : s₀.Kept s) : s₀.Kept (Mbox.write p off bs s) := .ite h h.setMailbox

theorem Kept.mboxDoorbell {p : Nat} (h : s₀.Kept s) : s₀.Kept (Mbox.doorbell p s) := .ite h h.post

theorem Kept.hostPortMailbox {p : Nat} {rq : TxnArgs} (h : s₀.Kept s) : s₀.Kept (HostPort.mailbox p rq s) :=
  .ite h (.ite h.emit (.ite (.emit (.ite h.setMailbox.post h.setMailbox)) h.emit))

theorem Kept.hostPortInbound {p : Nat} {w : BitVec 4} {mbx : Bool} {rq : TxnArgs} (h : s₀.Kept s) :
    s₀.Kept (HostPort.inbound p w mbx rq s) := by
  simp only [HostPort.inbound]
  split
  · exact h
  refine .ite h ?_
  exact .ite h.wakeAt (.ite h.hostPortMailbox (.ite h (.ite h.emit.touch h.acceptTxn.touch)))

theorem Kept.busRefuse (h : s₀.Kept s) : s₀.Kept s.busRefuse := by
  simp only [State.busRefuse]
  split
  · exact h
  · exact .ite h h.refuseNow

theorem Kept.busBusy {mtag : BitVec 3} {bs : List Byte} (h : s₀.Kept s) : s₀.Kept (s.busBusy mtag bs) := h.bump.mctpSend

theorem Kept.mctpReceive {ty : Byte} {iana : BitVec 32} {mtag : BitVec 3} {body : List Byte} (h : s₀.Kept s) :
    s₀.Kept (Mctp.receive ty iana mtag body s) := by
  simp only [Mctp.receive]
  refine .ite h ?_
  refine .ite h.emit ?_
  refine .ite h.update ?_
  exact .ite h (.ite h.busBusy (.ite h.update.busRefuse.pathAsk h.update.busRefuse))

theorem Kept.mctpControl {mtag : BitVec 3} {body : List Byte} (h : s₀.Kept s) : s₀.Kept (Mctp.control mtag body s) :=
  .ite h (.ite h.emit (.ite h h.update.mctpSend))

theorem Kept.spdmSend {bs : List Byte} (h : s₀.Kept s) : s₀.Kept (s.spdmSend bs) := h.mctpSend

theorem Kept.spdmError {version code data : Byte} (h : s₀.Kept s) : s₀.Kept (s.spdmError version code data) := h.spdmSend

theorem Kept.spdmAnswer {request : Byte} {f : State → State} (h : s₀.Kept s) (hf : ∀ {t}, s₀.Kept t → s₀.Kept (f t)) :
    s₀.Kept (s.spdmAnswer request f) :=
  .ite h (.ite h.spdmError (hf h))

theorem Kept.spdmAgreed {request : Byte} {f : State → State} (h : s₀.Kept s) (hf : ∀ {t}, s₀.Kept t → s₀.Kept (f t)) :
    s₀.Kept (s.spdmAgreed request f) :=
  h.spdmAnswer fun h' => .ite (hf h') h'.spdmError

theorem Kept.spdmVersion (h : s₀.Kept s) : s₀.Kept (Spdm.version s) := h.spdmAnswer fun h' => h'.update.spdmSend

theorem Kept.spdmCapabilities (h : s₀.Kept s) : s₀.Kept (Spdm.capabilities s) := h.spdmAnswer fun h' => h'.spdmSend.draw

theorem Kept.spdmNegotiate {asym hash : BitVec 32} {measSpec : BitVec 8} (h : s₀.Kept s) :
    s₀.Kept (Spdm.negotiate asym hash measSpec s) :=
  h.spdmAnswer fun h' => h'.update.spdmSend

theorem Kept.spdmDigests (h : s₀.Kept s) : s₀.Kept (Spdm.digests s) := h.spdmAgreed fun h' => h'.spdmSend

theorem Kept.spdmCertificate {slot : BitVec 4} {offset len : BitVec 16} (h : s₀.Kept s) :
    s₀.Kept (Spdm.certificate slot offset len s) :=
  h.spdmAgreed fun h' => .ite h'.spdmError h'.spdmSend

theorem Kept.signed {nonce : BitVec 256} {body : List Byte} (h : s₀.Kept s) : s₀.Kept (s.signed nonce body) := h.spdmSend.draw

theorem Kept.spdmChallenge {slot : BitVec 4} {nonce : BitVec 256} {measHash : BitVec 8} (h : s₀.Kept s) :
    s₀.Kept (Spdm.challenge slot nonce measHash s) :=
  h.spdmAgreed fun h' => .ite h'.spdmError h'.spdmSend.draw

theorem Kept.spdmMeasurements {index : BitVec 8} {nonce : BitVec 256} (h : s₀.Kept s) : s₀.Kept (Spdm.measurements index nonce s) :=
  h.spdmAgreed fun h' => .ite h'.spdmError h'.signed

theorem Kept.i3cCcc {c : Ccc} (h : s₀.Kept s) : s₀.Kept (I3c.ccc c s) := by
  simp only [I3c.ccc]
  refine .ite h ?_
  split
  · exact .ite h h.update.emit.draw
  · exact .ite h.update h
  · exact h.update
  · exact .ite h.emit h
  · exact .ite h.update h
  · exact .ite h.update h
  · exact .ite h.emit.draw h
  · exact .ite h.emit.draw h
  · exact .ite h.emit.draw h
  · exact h

/-! ## Machine/Wards -/

theorem Kept.wardAborts {w : BitVec 4} (h : s₀.Kept s) : s₀.Kept (s.wardAborts w) :=
  (h.foldl fun h' => h'.chanAbort).foldl fun h' => h'.collClose

theorem Kept.wardClose {w : BitVec 4} {revoke : Bool} (h : s₀.Kept s) : s₀.Kept (s.wardClose w revoke) :=
  .ite h.wardBegin.wardAborts.wardWithdraw h.wardBegin.wardAborts

theorem Kept.wardForm {w : BitVec 4} (h : s₀.Kept s) : s₀.Keeps (Ward.form w s) := .ite .error (.ok h.wr)

theorem Kept.wardActivate {w : BitVec 4} (h : s₀.Kept s) : s₀.Keeps (Ward.activate w s) := .ite .error (.ok h.wr)

theorem Kept.wardReset {w : BitVec 4} (h : s₀.Kept s) : s₀.Keeps (Ward.reset w s) := .ite .error (.ok h.wardClose)

theorem Kept.wardRevoke {w : BitVec 4} (h : s₀.Kept s) : s₀.Keeps (Ward.revoke w s) := by
  simp only [Ward.revoke]
  split
  · exact .ok h.wardClose
  · exact .ok h.wardClose
  · exact .ok h.wr.update.wardWithdraw
  · exact .ok h
  · exact .error

theorem Kept.wardControl {w : BitVec 4} {level : BitVec 2} {cmd : Nat} (h : s₀.Kept s) : s₀.Keeps (Ward.control w level cmd s) := by
  unfold Ward.control
  extract_lets r
  have hr : s₀.Keeps r := by
    refine .ite .error ?_
    split
    · exact h.wardForm
    · exact h.wardActivate
    · exact h.wardReset
    · exact h.wardRevoke
    · exact .error
  clear_value r
  cases r with
  | error a => exact .error
  | ok t => exact .ok (hr t rfl).wr

theorem Kept.wardCommand {acc : Access} {w : BitVec 4} {cmd : Nat} (h : s₀.Kept s) : s₀.Kept (Ward.command acc w cmd s) :=
  h.serveKey fun h' => h'.wardControl

theorem Kept.wardDrained {w : BitVec 4} (h : s₀.Kept s) : s₀.Kept (Ward.drained w s) :=
  .ite h (.ite h.wardAborts h.wardAborts.forceBegin.emptyStaged.wr)

theorem Kept.wardDrainLimit {w : BitVec 4} (h : s₀.Kept s) : s₀.Kept (Ward.drainLimit w s) := by
  unfold Ward.drainLimit
  split
  · exact h
  refine .ite h ?_
  split
  · exact h
  refine (h.gateDue ‹_›).foldl fun h' => ?_
  split
  · exact h'.timeoutTxn
  · exact h'

theorem Kept.scrubObjects {w : BitVec 4} (h : s₀.Kept s) : s₀.Kept (s.scrubObjects w) :=
  (h.foldl fun h' => h'.setObj).foldl fun h' => h'.clearDom

theorem Kept.clearStores {n : Nat} (h : s₀.Kept s) : s₀.Kept (s.clearStores n) := h.update

theorem Kept.clearChannels {w : BitVec 4} (h : s₀.Kept s) : s₀.Kept (s.clearChannels w) :=
  ((h.foldl fun h' => h'.storeLeave).foldl fun h' => h'.dropDones).update

theorem Kept.clearFabric {w : BitVec 4} (h : s₀.Kept s) : s₀.Kept (s.clearFabric w) := h.foldl fun h' => h'.setGate.update

theorem Kept.clearCounts {w : BitVec 4} (h : s₀.Kept s) : s₀.Kept (s.clearCounts w) := h.update

theorem Kept.settleDefaults {w : BitVec 4} (h : s₀.Kept s) : s₀.Kept (s.settleDefaults w) := h.foldl fun h' => h'.settleTokens

theorem Kept.scrub {w : BitVec 4} (h : s₀.Kept s) : s₀.Kept (s.scrub w) :=
  (h.dropChecks.foldl fun h' => h'.clearStores).clearChannels.clearFabric.clearCounts.settleDefaults.scrubObjects

theorem Kept.closeWindows {w : BitVec 4} (h : s₀.Kept s) : s₀.Kept (s.closeWindows w) :=
  h.foldl fun h' => .txnWindowDone (.ite h' h'.windowChange)

theorem Kept.unassign {w : BitVec 4} (h : s₀.Kept s) : s₀.Kept (s.unassign w) :=
  (((h.foldl fun h' => h'.setObj).foldl fun h' => h'.setObj).foldl fun h' => h'.setPlat).platCount

theorem Kept.reclaimRecord {w : BitVec 4} {q : WardSeq} (h : s₀.Kept s) : s₀.Kept (s.reclaimRecord w q) := h.record

theorem Kept.wardEnd {w : BitVec 4} {q : WardSeq} (h : s₀.Kept s) : s₀.Kept (s.wardEnd w q) := h.wr.wr.bump.wr.update

theorem Kept.wardScrubbed {w : BitVec 4} (h : s₀.Kept s) : s₀.Kept (Ward.scrubbed w s) := by
  simp only [Ward.scrubbed]
  split
  · exact h
  refine .ite h ?_
  refine .ite (h.foldl fun h' => h'.wake) ?_
  refine .ite (.ite h.closeWindows h) ?_
  refine .wardEnd ?_
  refine .reclaimRecord ?_
  refine .ite (.unassign (.wardForget (.scrub (.ite h.closeWindows h)))) ?_
  exact .scrub (.ite h.closeWindows h)

theorem Kept.freshJunction {n : Nat} (h : s₀.Kept s) : s₀.Kept (s.freshJunction n) :=
  (h.clearStores.foldl fun h' => h'.setObj).foldl fun h' => h'.clearDom

theorem Kept.setOwner {n : Nat} {w : Option (BitVec 4)} (h : s₀.Kept s) : s₀.Kept (s.setOwner n w) := by
  unfold State.setOwner
  split <;> exact h.wr.wr

theorem Kept.wardWriteJunctions {w : BitVec 4} {bs : List Byte} (h : s₀.Kept s) : s₀.Keeps (Ward.writeJunctions w bs s) := by
  simp only [Ward.writeJunctions]
  refine .ite .error ?_
  refine .ite .error ?_
  refine .ite .error ?_
  refine .ite .error ?_
  exact .ok ((h.foldl fun h' => h'.setOwner).foldl fun h' => h'.freshJunction.setOwner)

theorem Kept.serveDomain {acc : Access} {k : Nat} {bs : List Byte} {eff : List Byte → Effect}
    (h : s₀.Kept s) (heff : ∀ {x0 t}, s₀.Kept t → s₀.Keeps (eff x0 t)) : s₀.Kept (s.serveDomain acc k bs eff) := by
  simp only [State.serveDomain]
  refine .ite h ?_
  split
  · exact h.abortRequest
  split
  · exact h.abortRequest
  · exact (heff h _ ‹_›).respond

theorem Kept.wardWriteRange {i : Nat} {v : Val} (h : s₀.Kept s) : s₀.Keeps (Ward.writeRange i v s) :=
  .ite .error (.ite .error (.ok h.setObj))

/-! ## Machine/Pins -/

theorem Kept.tierFell {before : Nat} (h : s₀.Kept s) : s₀.Kept (s.tierFell before) := .ite h.raise h

theorem Kept.pinSyncEdge (h : s₀.Kept s) : s₀.Kept (Pin.syncEdge s) :=
  .ite h (.ite h.update.setObj.bumpWrap.freezeBegin h.update.setObj.bumpWrap)

theorem Kept.pinTimerefLoss (h : s₀.Kept s) : s₀.Kept (Pin.timerefLoss s) := .ite h h.update.bump.raise.tierFell

theorem Kept.pinTimerefReturn (h : s₀.Kept s) : s₀.Kept (Pin.timerefReturn s) := by
  simp only [Pin.timerefReturn]
  refine .ite h ?_
  refine .ite (.ite h.update.setObj.hallBegin.measureAgain h.update.setObj.hallBegin) ?_
  exact .ite h.update.setObj.measureAgain h.update.setObj

theorem Kept.pinTrim (h : s₀.Kept s) : s₀.Kept (Pin.trim s) := .ite h h.advanceTo.update

theorem Kept.pinClockStop {n : Nat} {side : Side} (h : s₀.Kept s) : s₀.Kept (Pin.clockStop n side s) := .ite h h.update.setObj

theorem Kept.adapterResumes {n : Nat} {side : Side} (h : s₀.Kept s) : s₀.Kept (s.adapterResumes n side) := by
  unfold State.adapterResumes
  split
  · exact .ite h.unitGoes h
  · exact h

theorem Kept.pinClockStart {n : Nat} {side : Side} (h : s₀.Kept s) : s₀.Kept (Pin.clockStart n side s) := .ite h h.update.adapterResumes

theorem Kept.pinClockMeasure {n : Nat} {side : Side} {mhz : BitVec 16} (h : s₀.Kept s) : s₀.Kept (Pin.clockMeasure n side mhz s) :=
  .ite h h.setObj

theorem Kept.endInjection {n : Nat} {side : Side} (h : s₀.Kept s) : s₀.Kept (s.endInjection n side) := .ite h.ingAbort h.ingAbort.raise

theorem Kept.loseDelivery {n : Nat} {side : Side} (h : s₀.Kept s) : s₀.Kept (s.loseDelivery n side) := h.update

theorem Kept.emptySockets {n : Nat} (h : s₀.Kept s) : s₀.Kept (s.emptySockets n) := h.foldl fun h' => h'.bump.setSock

theorem Kept.portReset {n : Nat} {side : Side} (h : s₀.Kept s) : s₀.Kept (s.portReset n side) := by
  simp only [State.portReset]
  split
  · exact h.endInjection.loseDelivery.bump.emptySockets.txnAdapterReset.snoopAdapterReset
  split
  · exact h.endInjection.loseDelivery.bump.targetAdapterReset
  · exact h.endInjection.loseDelivery.bump.txnAdapterReset.targetAdapterReset
  · exact h.endInjection.loseDelivery.bump

theorem Kept.pinAdapterReset {n : Nat} {side : Side} (h : s₀.Kept s) : s₀.Kept (Pin.adapterReset n side s) :=
  .ite h (.ite h.update.portReset h.update)

theorem Kept.pinAdapterRelease {n : Nat} {side : Side} (h : s₀.Kept s) : s₀.Kept (Pin.adapterRelease n side s) :=
  .ite h h.update.adapterResumes

/-! ## Machine/Boot -/

theorem Kept.settleSplit (h : s₀.Kept s) : s₀.Kept s.settleSplit := (h.foldl fun h' => h'.setObj).update

/-- The objects after a reset stand in a table that is written entry by entry. -/
theorem keptObjs_wf (s : State) (c : Cls) : Tbl.wf Obj.dflt (s.keptObjs c) = true :=
  List.foldlRecOn (motive := fun t => Tbl.wf Obj.dflt t = true) _ _ rfl (fun _ ht _ _ => Tbl.wf_set Obj.dflt _ _ _ ht)

theorem Kept.resetTo {c : Cls} (h : s₀.Kept s) : s₀.Kept (s.resetTo c) := ⟨h.cfg, fun _ => s.keptObjs_wf c⟩

theorem Kept.powerOnReset {source : Nat} (h : s₀.Kept s) : s₀.Kept (s.powerOnReset source) := h.resetTo.update.wr

theorem Kept.bootAssert {pin : ResetPin} {ns : Nat} (h : s₀.Kept s) : s₀.Kept (Boot.assert pin ns s) :=
  .ite h (.ite h.update h.update.powerOnReset)

theorem Kept.sense (h : s₀.Kept s) : s₀.Kept s.sense := .ite h.setObj.setObj.update.draw h.setObj.setObj

theorem Kept.holdRegions (h : s₀.Kept s) : s₀.Kept s.holdRegions := (h.foldl fun h' => h'.wr).update

theorem Kept.latchStraps {straps : BitVec 4} (h : s₀.Kept s) : s₀.Kept (s.latchStraps straps) := h.setObj.setObj

theorem Kept.bootRelease {straps : BitVec 4} {romOk : Bool} (h : s₀.Kept s) : s₀.Kept (Boot.release straps romOk s) := by
  simp only [Boot.release]
  refine .ite h ?_
  refine .ite ?_ ?_
  · refine .ite h.update.latchStraps.sense.holdRegions.recordEvent ?_
    exact h.update.latchStraps.sense.holdRegions
  · refine .raise ?_
    refine .ite h.update.latchStraps.sense.holdRegions.recordEvent ?_
    exact h.update.latchStraps.sense.holdRegions

theorem Kept.bootRegionStart {k : Nat} (h : s₀.Kept s) : s₀.Kept (Boot.regionStart k s) :=
  .ite h (h.update.wr.foldl fun h' => h'.trainBegin)

theorem Kept.bootWriteImage {bs : List Byte} (h : s₀.Kept s) : s₀.Keeps (Boot.writeImage bs s) :=
  .ite .error (.ite (.ok h.update.wr.wr) (.ok h.update.wr.wr))

theorem Kept.armWatchdog (h : s₀.Kept s) : s₀.Kept s.armWatchdog := h.update

theorem Kept.bootImageStart (h : s₀.Kept s) : s₀.Kept (Boot.imageStart s) := .ite h h.setDom.bump.update.wr.armWatchdog

theorem Kept.bootStart (h : s₀.Kept s) : s₀.Keeps (Boot.start s) := .ite .error (.ok h.update.setObj)

theorem Kept.coreDown (h : s₀.Kept s) : s₀.Kept s.coreDown := (h.bump.foldl fun h' => h'.transferLost).setObj.update

theorem Kept.selectSpare (h : s₀.Kept s) : s₀.Kept s.selectSpare := h.wr.wr.bump.setObj.update.recordEvent

theorem Kept.stopCores (h : s₀.Kept s) : s₀.Kept s.stopCores := h.wr.wr.update.raise

theorem Kept.bootWatchdog (h : s₀.Kept s) : s₀.Kept (Boot.watchdog s) := by
  simp only [Boot.watchdog]
  split
  · exact h
  refine .ite h ?_
  refine .ite h.advanceTo.bump.raise.coreDown.wr.update ?_
  refine .ite h.advanceTo.bump.raise.coreDown.selectSpare ?_
  exact h.advanceTo.bump.raise.coreDown.stopCores.tierFell

theorem Kept.bootCoreHeld (h : s₀.Kept s) : s₀.Kept (Boot.coreHeld s) := by
  simp only [Boot.coreHeld]
  split
  · exact h
  · exact h.advanceTo.wr.bump.update

theorem Kept.bootSelectMay {v : Val} (h : s₀.Kept s) : s₀.Keeps (Boot.selectMay v s) := .ite .error (.ok h)

theorem Kept.bootCoreSel {acc : Access} {v : BitVec 8} (h : s₀.Kept s) : s₀.Kept (Boot.coreSel acc v s) :=
  h.serveThen (fun h' => h'.bootSelectMay) (fun h' => .ite h'.coreDown.selectSpare h')

theorem Kept.holdCore (h : s₀.Kept s) : s₀.Kept s.holdCore := .ite h.update.coreDown.wr.bump.update h.update

theorem Kept.answerHeld (h : s₀.Kept s) : s₀.Kept s.answerHeld := h.update.foldl fun h' => h'.abortRequest

theorem Kept.servePaths (h : s₀.Kept s) : s₀.Kept s.servePaths := h.serveTile.serveService.busRefuse.mailboxRefuse.mailboxRefuse

theorem Kept.firmwareBegins (h : s₀.Kept s) : s₀.Kept s.firmwareBegins := by
  simp only [State.firmwareBegins]
  refine .ite ?_ (.enumStart (.repairsBegin (.ite h.update.recordEvent h)))
  refine .ite (.measureAgain (.update (.enumStart (.repairsBegin (.ite h.update.recordEvent h))))) ?_
  exact .update (.enumStart (.repairsBegin (.ite h.update.recordEvent h)))

theorem Kept.bootFirmwareRunning {rel : BitVec 32} (h : s₀.Kept s) : s₀.Kept (Boot.firmwareRunning rel s) :=
  .ite h h.wr.setObj.update.answerHeld.servePaths.firmwareBegins

theorem Kept.bootKick {v : Val} (h : s₀.Kept s) : s₀.Keeps (Boot.kick v s) := .ite .error (.ok (.ite h.armWatchdog h))

theorem Kept.restartDie (h : s₀.Kept s) : s₀.Kept s.restartDie := by
  simp only [State.restartDie]
  refine .ite (.ibi (.tbPeriodFrom (.holdRegions (.sense (.setObj (.ite h.settleSplit.resetTo.update
    h.settleSplit.resetTo.update.wr)))))) ?_
  exact .tbPeriodFrom (.holdRegions (.sense (.setObj (.ite h.settleSplit.resetTo.update h.settleSplit.resetTo.update.wr))))

theorem Kept.noteReset {kind source : Nat} (h : s₀.Kept s) : s₀.Kept (s.noteReset kind source) := h.wr.wr.bump

theorem Kept.dieReset (h : s₀.Kept s) : s₀.Kept s.dieReset := h.noteReset.recordEvent.restartDie

theorem Kept.bootResetMay {good v : Val} (h : s₀.Kept s) : s₀.Keeps (Boot.resetMay good v s) := .ite (.ok h) .error

theorem Kept.packageReset {source : Nat} (h : s₀.Kept s) : s₀.Kept (s.packageReset source) := by
  unfold State.packageReset
  extract_lets s1 s2 s3 s4
  have h3 : s₀.Kept s3 := h.noteReset.bump.recordEvent.foldl fun ht => ht.emit
  have h4 : s₀.Kept s4 := .restartDie ⟨h3.cfg, fun _ => s3.keptObjs_wf .k⟩
  exact h4.update

theorem Kept.bootPackageReset (h : s₀.Kept s) : s₀.Kept (Boot.packageReset s) := .ite h.packageReset h

theorem Kept.fuseWriteCaps {v : Val} (h : s₀.Kept s) : s₀.Keeps (Fuse.writeCaps v s) :=
  .ite .error (.ite .error (.ite .error (.ok h.update.setObj)))

theorem Kept.fuseWriteProvision {bs : List Byte} (h : s₀.Kept s) : s₀.Keeps (Fuse.writeProvision bs s) :=
  .ite .error (.ite .error (.ite .error (.ok h.update.setObj.setObj.setDom.setDom.draw)))

theorem Kept.fuseWriteChain {bs : List Byte} (h : s₀.Kept s) : s₀.Keeps (Fuse.writeChain bs s) :=
  .ite .error (.ite .error (.ok h.update.setDom))

theorem Kept.fuseWriteKeyHash {bs : List Byte} (h : s₀.Kept s) : s₀.Keeps (Fuse.writeKeyHash bs s) :=
  .ite .error (.ite .error (.ite .error (.ok h.update.setDom)))

theorem Kept.fuseWriteDebug {v : Val} (h : s₀.Kept s) : s₀.Keeps (Fuse.writeDebug v s) := .ok h.setObj

theorem Kept.fuseAdvance {v : Val} (h : s₀.Kept s) : s₀.Keeps (Fuse.advance v s) := by
  simp only [Fuse.advance]
  refine .ite .error ?_
  exact .ite .error (.ite .error (.ok (.recordEvent (.ite h.update.setObj h.update))))

/-! ## Machine/Counters -/

theorem Kept.slotAdd {c j : Nat} (h : s₀.Kept s) : s₀.Kept (s.slotAdd c j) := h.bump

theorem Kept.gatherOne {p : Nat × Nat} (h : s₀.Kept s) : s₀.Kept (s.gatherOne p) :=
  .ite ((h.foldl fun h' => h'.slotAdd).update) (h.foldl fun h' => h'.slotAdd)

theorem Kept.gatherAt {pick : Nat → Bool} (h : s₀.Kept s) : s₀.Kept (s.gatherAt pick) := (h.foldl fun h' => h'.gatherOne).update

theorem Kept.gather (h : s₀.Kept s) : s₀.Kept s.gather := h.gatherAt.update.setObj

theorem Kept.traceArrive {r : TraceRec} (h : s₀.Kept s) : s₀.Kept (s.traceArrive r) := .ite h.traceWrite.traceFire.draw h.traceWrite

theorem Kept.traceDrain {k : Nat} (h : s₀.Kept s) : s₀.Kept (s.traceDrain k) := h.update.foldl fun h' => h'.traceArrive

/-! ## Machine/Power -/

theorem Kept.seamTensor {n p m : Nat} (h : s₀.Kept s) : s₀.Kept (s.seamTensor n p m) := .setTin (.ite h.update h)

theorem Kept.seamControl {p m : Nat} (h : s₀.Kept s) : s₀.Kept (s.seamControl p m) := by
  simp only [State.seamControl]
  refine .update ?_
  refine .setSkip ?_
  split
  · exact h.bufferMsg
  · exact h

theorem Kept.seamTxn {p m : Nat} (h : s₀.Kept s) : s₀.Kept (s.seamTxn p m) := h.foldl fun h' => h'.setTlink

theorem Kept.isolate {e : Nat × Nat × Nat} (h : s₀.Kept s) : s₀.Kept (s.isolate e) := h.seamTensor.seamControl.seamTxn.raise

theorem Kept.dropTensor {r : Nat → Bool} (h : s₀.Kept s) : s₀.Kept (s.dropTensor r) := h.update

theorem Kept.dropControl {r un : Nat → Bool} (h : s₀.Kept s) : s₀.Kept (s.dropControl r un) := h.update

theorem Kept.dropTxn {r un : Nat → Bool} (h : s₀.Kept s) : s₀.Kept (s.dropTxn r un) := h.update

theorem Kept.dropCounts {r : Nat → Bool} (h : s₀.Kept s) : s₀.Kept (s.dropCounts r) := h.update

theorem Kept.dropGate {g : Nat} (h : s₀.Kept s) : s₀.Kept (s.dropGate g) := h.update

theorem Kept.failWards {r : Nat → Bool} (h : s₀.Kept s) : s₀.Kept (s.failWards r) := by
  simp only [State.failWards]
  refine h.foldl fun h' => ?_
  split
  · exact .ite h' (.loadFails (.ite h'.leaveSwap.setSched.markStaged h'.leaveSwap.setSched))
  · exact h'

theorem Kept.clearRegionTimes {k : Nat} {reset : Option Nat} (h : s₀.Kept s) : s₀.Kept (s.clearRegionTimes k reset) := h.update

theorem Kept.regionFall {k : Nat} {ends : Option Nat} (h : s₀.Kept s) : s₀.Kept (s.regionFall k ends) :=
  ((((h.foldl fun h' => h'.isolate).failWards.foldl fun h' => h'.bridgeFall).foldl fun h' => h'.engineRegionReset).foldl fun h' =>
    h'.dropGate).dropTensor.dropControl.dropTxn.dropCounts.clearRegionTimes.wr.setObj.raise.bump.tierFell

theorem Kept.regionReset {k : Nat} (h : s₀.Kept s) : s₀.Keeps (Region.reset k s) := .ok (.ite h.setObj h.setObj.regionFall)

theorem Kept.regionWake {k : Nat} (h : s₀.Kept s) : s₀.Keeps (Region.wake k s) := .ok h.setObj.wake

theorem Kept.defaultsOf {held : Nat → Bool} {c : Cls} (h : s₀.Kept s) : s₀.Kept (s.defaultsOf held c) :=
  (h.foldl fun h' => h'.setObj).foldl fun h' => h'.clearDom

theorem Kept.regionDefaults {k : Nat} {c : Cls} (h : s₀.Kept s) : s₀.Kept (s.regionDefaults k c) := h.defaultsOf

theorem Kept.countLost {ns : List Nat} (h : s₀.Kept s) : s₀.Kept (s.countLost ns) := h.foldl fun h' => h'.bump

theorem Kept.unitsGo {un : Nat → Bool} (h : s₀.Kept s) : s₀.Kept (s.unitsGo un) := h.foldl fun h' => .txnGo (.ite h'.unitGoes h')

theorem Kept.regionGoes {k : Nat} (h : s₀.Kept s) : s₀.Kept (s.regionGoes k) := by
  simp only [State.regionGoes]
  refine .ite ((h.unitsGo.foldl fun h' => (h'.landCtl.foldl fun h'' => h''.bridgeFeed)).foldl fun h' => h'.gateDeliver.collSettle) ?_
  exact ((h.unitsGo.foldl fun h' => (h'.landCtl.foldl fun h'' => h''.bridgeFeed)).foldl fun h' => h'.gateDeliver.collSettle).bridgesLand

theorem Kept.regionActive {k : Nat} (h : s₀.Kept s) : s₀.Kept (s.regionActive k) :=
  (h.update.wr.foldl fun h' => h'.trainBegin).resendAll.regionGoes

theorem Kept.regionRelease {k : Nat} (h : s₀.Kept s) : s₀.Kept (Region.release k s) :=
  .ite h h.advanceTo.regionDefaults.countLost.regionActive

theorem Kept.regionSleep {k : Nat} (h : s₀.Kept s) : s₀.Kept (s.regionSleep k) :=
  (h.gatherAt.foldl fun h' => h'.traceDrain.traceDrain).defaultsOf.setObj.wr

theorem Kept.regionGate {k : Nat} (h : s₀.Kept s) : s₀.Keeps (Region.gate k s) :=
  .ite (.ok h.setObj) (.ite .error (.ok h.setObj.regionSleep))

theorem Kept.noteRefusal {k : Nat} (h : s₀.Kept s) : s₀.Kept (s.noteRefusal k) := .ite h.wr h

theorem Kept.regionGateWrite {acc : Access} {k : Nat} (h : s₀.Kept s) : s₀.Kept (Region.gateWrite acc k s) :=
  .ite ((h.serveKey fun h' => h'.regionGate).wr) (h.serveKey fun h' => h'.regionGate)

theorem Kept.regionAutoGate {k : Nat} (h : s₀.Kept s) : s₀.Kept (Region.autoGate k s) :=
  .ite h (.ite h.advanceTo.regionSleep h.advanceTo.noteRefusal)

theorem Kept.regionWakeComplete {k : Nat} (h : s₀.Kept s) : s₀.Kept (Region.wakeComplete k s) := .ite h h.regionActive

theorem Kept.railNote {k : Nat} (h : s₀.Kept s) : s₀.Kept (s.railNote k) := h.update

theorem Kept.railSetTarget {k : Nat} {v : Val} (h : s₀.Kept s) : s₀.Keeps (Rail.setTarget k v s) :=
  .ite .error (.ok h.setObj.railNote.ibi)

theorem Kept.railSetApplied {k : Nat} {v : Val} (h : s₀.Kept s) : s₀.Keeps (Rail.setApplied k v s) := .ok h.setObj.railNote

theorem Kept.railTimeout {k : Nat} (h : s₀.Kept s) : s₀.Kept (Rail.timeout k s) := by
  simp only [Rail.timeout]
  split
  · exact h
  · exact .ite h h.advanceTo.raise.update

theorem Kept.supplyWarnEnter {rail : Rail} (h : s₀.Kept s) : s₀.Kept (Supply.warnEnter rail s) := by
  simp only [Supply.warnEnter]
  split
  · exact h
  · exact .ite h (.ite h.update.update.throttle h.update.update)

theorem Kept.countDip {q : Nat × Nat} (h : s₀.Kept s) : s₀.Kept (s.countDip q) := .ite h.bump.wr.bump.recordEvent h.bump.wr

theorem Kept.railBack {i : Nat} (h : s₀.Kept s) : s₀.Kept (s.railBack i) := .ite h.update.wr.update h.update

theorem Kept.warnFalls (h : s₀.Kept s) : s₀.Kept s.warnFalls := .ite h h.heldStarts.collHeldStarts

theorem Kept.supplyWarnExit {rail : Rail} (h : s₀.Kept s) : s₀.Kept (Supply.warnExit rail s) := by
  simp only [Supply.warnExit]
  split
  · exact h
  · exact .ite h (.warnFalls (.railBack (.ite h.update.countDip h.update)))

theorem Kept.supplyResetCross {rail : Rail} (h : s₀.Kept s) : s₀.Kept (Supply.resetCross rail s) := by
  simp only [Supply.resetCross]
  split
  · exact h
  refine .ite h ?_
  refine .ite h.supplyWarnEnter.update ?_
  refine .ite h.supplyWarnEnter.update.powerOnReset ?_
  refine .ite h.supplyWarnEnter.update.clearRegionTimes.wr.setObj ?_
  exact h.supplyWarnEnter.update.regionFall

/-! ## Machine/Faults -/

theorem Kept.clearStatus {i : Nat} (h : s₀.Kept s) : s₀.Kept (s.clearStatus i) := h.update.setObj

theorem Kept.faultsClear {v : Val} (h : s₀.Kept s) : s₀.Keeps (Faults.clear v s) := by
  unfold Faults.clear
  refine .ite (.ok (h.foldl fun h' => h'.clearStatus)) ?_
  split
  · exact .error
  · exact .ok h.clearStatus

theorem Kept.faultsSetSev {src : Nat} {v : Val} (h : s₀.Kept s) : s₀.Keeps (Faults.setSev src v s) := .ite .error (.ok h.setObj)

theorem Kept.faultsSetThreshold {v : Val} (h : s₀.Kept s) : s₀.Keeps (Faults.setThreshold v s) := .ite .error (.ok h.setObj)

theorem Kept.collectorFails {injected : Bool} (h : s₀.Kept s) : s₀.Kept (s.collectorFails injected) := by
  simp only [State.collectorFails]
  refine .ite (.ite h.bump h.setObj.applySeverity) ?_
  exact .record (.freezeBegin (.ite h.bump h.setObj.applySeverity))

theorem Kept.faultsMismatch {key : Nat} {a b : Option (BitVec 64)} (h : s₀.Kept s) : s₀.Kept (Faults.mismatch key a b s) :=
  .ite h h.update.collectorFails

theorem Kept.faultsArm {v : Val} (h : s₀.Kept s) : s₀.Keeps (Faults.arm v s) := by
  simp only [Faults.arm]
  refine .ite .error ?_
  exact .ite .error (.ite .error (.ok (.ite h.setObj.injectFired.collectorFails h.setObj)))

theorem Kept.faultsTestPort {v : BitVec 64} (h : s₀.Kept s) : s₀.Kept (Faults.testPort v s) := by
  unfold Faults.testPort
  refine .ite h ?_
  split
  · exact (h.faultsArm _ ‹_›)
  · exact h

theorem Kept.bankDamaged {n sel : Nat} (h : s₀.Kept s) : s₀.Kept (s.bankDamaged n sel) := .ite h h.update

theorem Kept.bankWordBad {n sel l : Nat} {injected : Bool} (h : s₀.Kept s) : s₀.Kept (s.bankWordBad n sel l injected) :=
  .ite h.setTout.wr.storeRaise (.ite h.setTin.wr.storeRaise h.bankDamaged.storeRaise)

theorem Kept.joinWordBad {n sel : Nat} {injected : Bool} (h : s₀.Kept s) : s₀.Kept (s.joinWordBad n sel injected) :=
  .ite h.setNode.wr.storeRaise h.bankDamaged.storeRaise

theorem Kept.socketWordBad {n i : Nat} {injected : Bool} (h : s₀.Kept s) : s₀.Kept (s.socketWordBad n i injected) := by
  simp only [State.socketWordBad]
  split
  · exact h.storeRaise
  · exact h.setSock.dropAt.storeRaise.retryHeld

theorem Kept.stagingBad {e n k i : Nat} {injected : Bool} (h : s₀.Kept s) : s₀.Kept (s.stagingBad e n k i injected) := by
  simp only [State.stagingBad]
  split
  · exact h.storeRaise
  · exact h.storeRaise.setChan.readAnswer.engineSettle

theorem Kept.reductionBad {g n c chunk i : Nat} {injected : Bool} (h : s₀.Kept s) :
    s₀.Kept (s.reductionBad g n c chunk i injected) := by
  simp only [State.reductionBad]
  split
  · exact h.storeRaise
  · exact h.storeRaise.setColl

theorem Kept.gateBufBad {g n : Nat} {peer : BitVec 22} {c : Nat} {seq : BitVec 32} {rx injected : Bool} (h : s₀.Kept s) :
    s₀.Kept (s.gateBufBad g n peer c seq rx injected) := by
  simp only [State.gateBufBad]
  split
  · exact h.bump.storeRaise
  · exact h.bump.storeRaise.setGate

theorem Kept.wordBad {n : Nat} {w : StoreWord} {injected : Bool} (h : s₀.Kept s) : s₀.Kept (s.wordBad n w injected) := by
  simp only [State.wordBad]
  split
  · exact h.bankWordBad
  · exact h.joinWordBad
  · exact h.setNode.storeRaise
  · exact h.socketWordBad
  · exact h.stagingBad
  · exact h.reductionBad
  · exact h.gateBufBad
  · exact h.storeRaise
  · exact .ite h.storeRaise.update h.storeRaise
  · exact h.storeRaise.update

theorem Kept.wordWrong {n : Nat} {w : StoreWord} {bits : List Nat} (h : s₀.Kept s) : s₀.Kept (s.wordWrong n w bits) := by
  simp only [State.wordWrong]
  refine .ite h ?_
  split
  · exact h.setBank.bankDamaged
  · exact h.setBank.bankDamaged
  · exact h.setNode
  · exact h.setPlat
  · exact .ite h.setObj h
  · exact h

theorem Kept.scrubNote {n kind : Nat} {w : StoreWord} (h : s₀.Kept s) : s₀.Kept (s.scrubNote n kind w) :=
  .ite (h.update.repairDue fun h' => h'.remapRow) h.update

theorem Kept.faultsPatrol {w : StoreWord} {flips : List Nat} (h : s₀.Kept s) : s₀.Kept (Faults.patrol w flips s) := by
  simp only [Faults.patrol]
  split
  · exact h
  refine .ite h ?_
  refine .ite h.storeRead.wordBad.rowBad ?_
  exact .ite h.storeRead.wordWrong.scrubNote h.storeRead.wordWrong

theorem Kept.recordAt {i : Nat} (h : s₀.Kept s) : s₀.Kept (s.recordAt i) := .ite h.wr h.wr.bump.update.raiseRecorder

theorem Kept.recordDone (h : s₀.Kept s) : s₀.Kept s.recordDone := h.update

theorem Kept.recorderWrite {verified : Bool} (h : s₀.Kept s) : s₀.Kept (Recorder.write verified s) := by
  simp only [Recorder.write]
  split
  · exact h
  refine .ite h ?_
  refine .ite h.recordAt ?_
  refine .ite h.recordDone.wr.bump.raiseRecorder ?_
  exact .ite h.recordDone.update.recordAt h.update.draw.raiseRecorder.recordAt

theorem Kept.recorderScan (h : s₀.Kept s) : s₀.Kept (Recorder.scan s) := by
  simp only [Recorder.scan]
  refine .ite h ?_
  exact .recordEvent (.ite h.setObj.setObj.update.wr h.setObj.setObj.update.wr.raiseRecorder)

theorem Kept.recorderHour (h : s₀.Kept s) : s₀.Kept (Recorder.hour s) := .ite h (.ite h.bump.recordEvent h.bump)

/-! ## Machine/Spares -/

theorem Kept.spanWake {k : Nat} (h : s₀.Kept s) : s₀.Kept (s.spanWake k) := .ite h.bumpWrap.regionActive (.ite h.regionActive h)

theorem Kept.dropBonds {b : Nat} (h : s₀.Kept s) : s₀.Kept (s.dropBonds b) :=
  .ite h (.ite h.bridgeFall (h.foldl fun h' => .ite h' h'.wr.groupDown))

theorem Kept.retireSteps (h : s₀.Kept s) : s₀.Kept s.retireSteps :=
  ((((h.foldl fun h' => h'.spanWake).foldl fun h' => h'.isolate).failWards.dropTensor.dropControl.dropTxn.dropCounts.foldl fun h' =>
    h'.raise.bump).withRetired.foldl fun h' => h'.dropBonds).defaultsOf.countLost.unitsGo.bumpWrap.spareRecord.sisterEnd

theorem Kept.retire (h : s₀.Kept s) : s₀.Kept s.retire := by
  unfold State.retire
  refine .ite h ?_
  split
  · exact h.sisterEnd
  · exact .ite h.sisterEnd h.wr.retireSteps

theorem Kept.sisterStart (h : s₀.Kept s) : s₀.Kept s.sisterStart := by
  simp only [State.sisterStart]
  split
  · exact .ite h.candidate.sisterEnd h.steerBegin
  · exact .ite h.laneBegin.sisterEnd h.laneBegin
  · exact h.retire

theorem Kept.sparesControl {v : Val} (h : s₀.Kept s) : s₀.Keeps (Spares.control v s) :=
  .ite .error (.ite .error (.ok h.setObj.sisterEnd.sisterStart))

theorem Kept.autoRetire (h : s₀.Kept s) : s₀.Kept s.autoRetire := by
  unfold State.autoRetire
  refine .ite h ?_
  split
  · exact h.setObj.sisterEnd.retire
  · exact h

theorem Kept.sparesResume (h : s₀.Kept s) : s₀.Kept (Spares.resume s) := .ite h.retire h.autoRetire

theorem Kept.steerAgain {x : Steer} (h : s₀.Kept s) : s₀.Kept (s.steerAgain x) :=
  .ite h.update.steerBegin (.ite h.update.steerBegin.sisterEnd h.update.steerBegin)

theorem Kept.steerOn {x : Steer} (h : s₀.Kept s) : s₀.Kept (s.steerOn x) := .ite h.update h.update.spareRecord.sisterDone

theorem Kept.sparesStage {n point : Nat} {spareOk : Bool} (h : s₀.Kept s) : s₀.Kept (Spares.stage n point spareOk s) := by
  unfold Spares.stage
  refine .ite h ?_
  split
  · exact h
  · exact .ite h.steerOn h.steerAgain

theorem Kept.sparesMargin {n point : Nat} {steps : BitVec 8} (h : s₀.Kept s) : s₀.Kept (Spares.margin n point steps s) :=
  .ite h (.autoRetire (.ite h.setWear.candidate h.setWear))

theorem Kept.sparesDrift {k : Nat} {drift : BitVec 16} (h : s₀.Kept s) : s₀.Kept (Spares.drift k drift s) :=
  .ite h (.ite h.setObj.raise h.setObj)

theorem Kept.sparesHour (h : s₀.Kept s) : s₀.Kept (Spares.hour s) := by
  simp only [Spares.hour]
  refine .ite h ?_
  exact (h.foldl fun h' => .ite h' (h'.foldl fun h'' => h''.setWear)).update.autoRetire

theorem Kept.sparesAutoBridge {b : Nat} (h : s₀.Kept s) : s₀.Kept (Spares.autoBridge b s) := .ite h.bridgeRetrain h

/-! ## Machine/Observe -/

theorem Kept.observeGather (h : s₀.Kept s) : s₀.Kept (Observe.gather s) := .ite h.gather h

theorem Kept.observeSetSlot {k : Nat} {v : Val} (h : s₀.Kept s) : s₀.Keeps (Observe.setSlot k v s) :=
  .ite .error (.ok h.setObj.setObj.update)

theorem Kept.observeSetEvents {w : Nat} {bs : List Byte} (h : s₀.Kept s) : s₀.Keeps (Observe.setEvents w bs s) :=
  .ite .error (.ite .error (.ok h.setDom))

theorem Kept.observeStore {n : Nat} (h : s₀.Kept s) : s₀.Kept (Observe.store n s) := by
  simp only [Observe.store]
  split
  · exact h
  split
  · exact h
  · exact h.update.traceArrive

theorem Kept.traceRestart (h : s₀.Kept s) : s₀.Kept s.traceRestart := h.setObj.setObj.update.traceWrite

theorem Kept.observeTraceCommand {v : Val} (h : s₀.Kept s) : s₀.Keeps (Observe.traceCommand v s) := by
  unfold Observe.traceCommand
  split
  · exact .ok h.traceFire.draw
  · exact .ok h.traceRestart
  · exact .error

theorem Kept.observeTraceControl {v : Val} (h : s₀.Kept s) : s₀.Keeps (Observe.traceControl v s) :=
  .ite .error (.ok (.ite h.setObj.wr (.ite h.setObj.wr h.setObj)))

theorem Kept.observeHallRef {v : Val} (h : s₀.Kept s) : s₀.Keeps (Observe.hallRef v s) :=
  .ite .error (.ok (.ite (.hallBegin (.ite h.setObj.setObj h.setObj)) h.setObj))

theorem Kept.hallDone (h : s₀.Kept s) : s₀.Kept s.hallDone := by
  simp only [State.hallDone]
  split
  · exact h
  · exact h.update.hallSet

theorem Kept.observeHallResp {t1 t2 t3 t4 : Int} {refError : Nat} (h : s₀.Kept s) : s₀.Kept (Observe.hallResp t1 t2 t3 t4 refError s) :=
  .ite h (.ite h.update.hallDone h.update)

theorem Kept.observeHallTimeout (h : s₀.Kept s) : s₀.Kept (Observe.hallTimeout s) := by
  simp only [Observe.hallTimeout]
  split
  · exact h
  · exact h.advanceTo.hallDone.update

theorem Kept.thaw (h : s₀.Kept s) : s₀.Kept s.thaw := (h.update.foldl fun h' => h'.wake).foldl fun h' => .ite h'.regionGoes h'

theorem Kept.releaseBegin (h : s₀.Kept s) : s₀.Kept s.releaseBegin := .thaw (.ite h.wr.traceWrite h.wr)

theorem Kept.observeFreezeControl {v : Val} (h : s₀.Kept s) : s₀.Keeps (Observe.freezeControl v s) := by
  simp only [Observe.freezeControl]
  split
  · exact .ok h.setObj
  · exact .ok (.ite h.setObj h.setObj.freezeBegin)
  · exact .ite .error (.ite .error (.ok (.ite h.setObj.releaseBegin h.setObj)))
  · exact .error

theorem Kept.observeFreezeDone (h : s₀.Kept s) : s₀.Kept (Observe.freezeDone s) := .ite h.wr h

theorem Kept.observeReleaseDone (h : s₀.Kept s) : s₀.Kept (Observe.releaseDone s) := .ite h.wr.wr h

theorem Kept.observeCapture {v : Val} (h : s₀.Kept s) : s₀.Keeps (Observe.capture v s) := .ite .error (.ite .error (.ok h.update))

theorem Kept.observeCaptureDone (h : s₀.Kept s) : s₀.Kept (Observe.captureDone s) := .ite h h.setDom.update.recordEvent

/-! ## Machine/Watch -/

theorem Kept.hangNote {x : Stall} (h : s₀.Kept s) : s₀.Kept (s.hangNote x) := .bump (.ite h h.setObj)

theorem Kept.hangTrace (h : s₀.Kept s) : s₀.Kept s.hangTrace := .ite (.traceFire (.ite h.traceWrite h)) (.ite h.traceWrite h)

theorem Kept.hangSignals (h : s₀.Kept s) : s₀.Kept s.hangSignals := .ite (.hostVector (.ite h.ibi h)) (.ite h.ibi h)

theorem Kept.detect {x : Stall} (h : s₀.Kept s) : s₀.Kept (s.detect x) := by
  simp only [State.detect]
  refine .ite (.freezeBegin (.ite h.hangNote.hangTrace.hangSignals h.hangNote.hangTrace.hangSignals.update)) ?_
  exact .ite h.hangNote.hangTrace.hangSignals h.hangNote.hangTrace.hangSignals.update

theorem Kept.watchExamine (h : s₀.Kept s) : s₀.Kept (Watch.examine s) := by
  simp only [Watch.examine]
  refine .ite h ?_
  split
  · exact h.update
  · exact h.update.detect

theorem Kept.watchGraphDone (h : s₀.Kept s) : s₀.Kept (Watch.graphDone s) := .ite h h.setDom.update

/-! ## Machine/Objects -/

theorem Kept.storeIf {ok : Bool} {k : Nat} {v : Val} (h : s₀.Kept s) : s₀.Keeps (storeIf ok k v s) := .ite_apply h.storeVal .error

theorem Kept.owning {old new : Option (BitVec 4)} {eff : Effect} (h : s₀.Kept s) (heff : ∀ {t}, s₀.Kept t → s₀.Keeps (eff t)) :
    s₀.Keeps (owning old new eff s) :=
  .ite .error (.ite .error (heff h))

theorem Kept.assigning {old new : Option (BitVec 4)} {eff : Effect} (h : s₀.Kept s) (heff : ∀ {t}, s₀.Kept t → s₀.Keeps (eff t)) :
    s₀.Keeps (assigning old new eff s) :=
  .ite (heff h) .error

theorem Kept.txnWriteHostMask {p : Nat} {v : Val} (h : s₀.Kept s) : s₀.Keeps (Txn.writeHostMask p v s) := .ite .error (.ok h.setObj)

theorem Kept.gateWriteWard {w : Nat} {v : Val} (h : s₀.Kept s) : s₀.Keeps (Gate.writeWard w v s) := .ite .error (.ok h.setObj)

theorem Kept.objectsLow {acc : Access} {i sub : Nat} {v : Val} (h : s₀.Kept s) : s₀.Keeps (Objects.low acc i sub v s) := by
  simp only [Objects.low]
  refine .ite_apply h.storeVal ?_
  refine .ite_apply h.txnWriteHostMask ?_
  refine .ite_apply h.storeVal ?_
  refine .ite_apply h.schedWriteCtrl ?_
  refine .ite_apply (.ok h.schedTargetSet) ?_
  refine .ite_apply h.tapWrite ?_
  refine .ite_apply h.controlWriteRank ?_
  refine .ite_apply h.controlWriteSockCfg ?_
  exact .ite_apply h.controlClearSockStat (.ite_apply h.controlWriteCombCfg h.storeVal)

theorem Kept.objectsMid {acc : Access} {i sub : Nat} {v : Val} (h : s₀.Kept s) : s₀.Keeps (Objects.mid acc i sub v s) := by
  simp only [Objects.mid]
  refine .ite_apply h.storeIf ?_
  refine .ite_apply h.txnWritePoolSize ?_
  refine .ite_apply h.txnRenumber ?_
  refine .ite_apply (h.assigning fun h' => h'.storeVal) ?_
  refine .ite_apply h.txnWriteReg ?_
  refine .ite_apply h.txnClearStat ?_
  refine .ite_apply h.txnClearProbe ?_
  refine .ite_apply ?_ ?_
  · refine .ite_apply (h.owning fun h' => h'.dmaWriteIdle) ?_
    exact .ite_apply h.dmaWriteIdle (.ite_apply h.dmaControl (.ite_apply h.dmaClearStat h.storeVal))
  · refine .ite_apply h.dmaWriteTrip ?_
    refine .ite_apply (h.owning fun h' => h'.dmaWriteTripWard) ?_
    refine .ite_apply h.pkgWriteNumber ?_
    refine .ite_apply h.pkgWritePeriod ?_
    refine .ite_apply h.pkgWriteGen ?_
    refine .ite_apply h.pkgWriteError ?_
    refine .ite_apply (.ite_apply h.bridgeWriteCfg h.storeVal) ?_
    exact .ite_apply h.pkgCopyStatus (.ite_apply h.pkgWriteCtrl h.storeVal)

theorem Kept.objectsHall {acc : Access} {i sub : Nat} {v : Val} (h : s₀.Kept s) : s₀.Keeps (Objects.hall acc i sub v s) := by
  simp only [Objects.hall]
  refine .ite_apply h.gateInsert ?_
  refine .ite_apply h.gateRemove ?_
  refine .ite_apply h.gateWriteWard ?_
  refine .ite_apply ?_ ?_
  · refine .ite_apply h.gateSetCfg ?_
    exact .ite_apply h.storeIf (.ite_apply h.storeIf (.ite_apply h.storeVal h.storeVal))
  · refine .ite_apply h.collWriteTopo ?_
    refine .ite_apply h.collWriteStore ?_
    refine .ite_apply (h.owning fun h' => h'.collWriteGroup) ?_
    refine .ite_apply h.collWriteTrip ?_
    refine .ite_apply (h.owning fun h' => h'.collWriteTripWard) ?_
    refine .ite_apply ?_ (.ite_apply h.storeVal (.ite_apply h.wardControl (.ite_apply h.wardWriteRange h.storeVal)))
    refine .ite_apply (h.owning fun h' => h'.collWriteCfg) ?_
    exact .ite_apply h.collWriteRing (.ite_apply h.collControl h.collClearStat)

theorem Kept.objectsHigh {i sub : Nat} {v : Val} (h : s₀.Kept s) : s₀.Keeps (Objects.high i sub v s) := by
  simp only [Objects.high]
  refine .ite_apply h.storeVal ?_
  refine .ite_apply h.fuseAdvance ?_
  refine .ite_apply h.fuseWriteCaps ?_
  refine .ite_apply h.fuseWriteDebug ?_
  refine .ite_apply (.ite_apply h.bootStart .error) ?_
  refine .ite_apply (.ite_apply h.regionWake (.ite_apply h.regionReset .error)) ?_
  refine .ite_apply h.storeIf ?_
  refine .ite_apply h.railSetTarget ?_
  refine .ite_apply h.railSetApplied ?_
  refine .ite_apply h.storeIf ?_
  refine .ite_apply h.faultsSetThreshold ?_
  refine .ite_apply h.faultsClear ?_
  refine .ite_apply h.faultsArm ?_
  refine .ite_apply h.storeIf ?_
  refine .ite_apply h.bootKick ?_
  refine .ite_apply h.storeIf ?_
  refine .ite_apply h.faultsSetSev ?_
  refine .ite_apply h.sparesControl ?_
  refine .ite_apply h.storeIf ?_
  refine .ite_apply h.observeTraceControl ?_
  refine .ite_apply h.observeTraceCommand ?_
  refine .ite_apply h.storeIf ?_
  refine .ite_apply h.observeHallRef ?_
  refine .ite_apply h.observeSetSlot ?_
  refine .ite_apply h.storeIf ?_
  exact .ite_apply h.observeFreezeControl (.ite_apply h.observeCapture h.storeVal)

theorem Kept.objectsEffect {acc : Access} {i sub : Nat} {v : Val} (h : s₀.Kept s) : s₀.Keeps (Objects.effect acc i sub v s) :=
  .ite_apply h.objectsLow (.ite_apply h.objectsMid (.ite_apply h.objectsHall h.objectsHigh))

theorem Kept.objectsWrite {acc : Access} {i sub len : Nat} {v : Val} (h : s₀.Kept s) : s₀.Kept (Objects.write acc i sub len v s) := by
  simp only [Objects.write]
  refine .ite ?_ ?_
  · refine .ite h ?_
    split <;> exact h.abortRequest
  · refine .ite (h.serveKey fun h' => h'.objectsEffect) ?_
    split
    · exact h.controlEntryWrite
    refine .ite (h.serveLater h.txnWriteWindow) ?_
    refine .ite h.bootCoreSel ?_
    refine .ite (h.serveThen (fun h' => h'.storeVal) (fun h' => h'.holdCore)) ?_
    refine .ite (h.serveThen (fun h' => h'.bootResetMay) (fun h' => h'.dieReset)) ?_
    refine .ite (h.serveThen (fun h' => h'.bootResetMay) (fun h' => h'.packageReset)) ?_
    exact .ite h.regionGateWrite (h.serveKey fun h' => h'.objectsEffect)

theorem Kept.serveReply {acc : Access} {cmd i sub : Nat} {xfer : BitVec 16} {r : Except Abort Reply} (h : s₀.Kept s) :
    s₀.Kept (s.serveReply acc cmd i sub xfer r) := by
  unfold State.serveReply
  split
  · exact h.abortRequest
  · exact h.respond

theorem Kept.objectsRead {acc : Access} {i sub : Nat} (h : s₀.Kept s) : s₀.Kept (Objects.read acc i sub s) := .ite h h.serveReply

theorem Kept.objectsDescribe {acc : Access} {i sub : Nat} (h : s₀.Kept s) : s₀.Kept (Objects.describe acc i sub s) :=
  .ite h h.serveReply

theorem Kept.openTransfer {acc : Access} {cmd i sub : Nat} {upload : Bool} {bs : List Byte} {size arg : Nat} (h : s₀.Kept s) :
    s₀.Kept (s.openTransfer acc cmd i sub upload bs size arg) :=
  h.update.respond

theorem Kept.objectsInitUpload {acc : Access} {i sub : Nat} (h : s₀.Kept s) : s₀.Kept (Objects.initUpload acc i sub s) := by
  simp only [Objects.initUpload]
  refine .ite h ?_
  refine .ite h.refuseNow ?_
  split
  · exact h.abortRequest
  · exact .ite h.abortRequest h.openTransfer

theorem Kept.objectsBeginDownload {acc : Access} {i sub : Nat} (h : s₀.Kept s) : s₀.Keeps (Objects.beginDownload acc i sub s) := by
  simp only [Objects.beginDownload]
  refine .ite h.schedBegin ?_
  refine .ite h.pkgBegin ?_
  refine .ite ?_ (.ok h)
  split
  · exact .error
  · exact .ok h

theorem Kept.objectsInitDownload {acc : Access} {i sub size : Nat} (h : s₀.Kept s) :
    s₀.Kept (Objects.initDownload acc i sub size s) := by
  simp only [Objects.initDownload]
  refine .ite h ?_
  refine .ite h.refuseNow ?_
  split
  · exact h.abortRequest
  refine .ite h.abortRequest ?_
  refine .ite h.abortRequest ?_
  refine .ite h.abortRequest ?_
  split
  · exact h.abortRequest
  · exact (h.objectsBeginDownload _ ‹_›).openTransfer

theorem Kept.objectsTake {i sub : Nat} {bs : List Byte} (h : s₀.Kept s) : s₀.Keeps (Objects.take i sub bs s) := by
  simp only [Objects.take]
  refine .ite (.ite (.ok h.schedLoaded) .error) ?_
  refine .ite (.ite (.ok h.pkgLoaded) .error) ?_
  refine .ite h.controlWriteReleaseMap ?_
  refine .ite h.wardWriteJunctions ?_
  refine .ite h.observeSetEvents ?_
  refine .ite h.fuseWriteProvision ?_
  exact .ite h.fuseWriteChain (.ite h.fuseWriteKeyHash h.bootWriteImage)

theorem Kept.closeTransfer {t : Transfer} (h : s₀.Kept s) : s₀.Kept (s.closeTransfer t) := h.update

theorem Kept.endTransfer {t : Transfer} {a : Abort} (h : s₀.Kept s) : s₀.Kept (s.endTransfer t a) := h.closeTransfer.transferLost.update

theorem Kept.setTransfer {t : Transfer} (h : s₀.Kept s) : s₀.Kept (s.setTransfer t) := h.update

theorem Kept.uploadNext {acc : Access} {i sub seq : Nat} {t : Transfer} (h : s₀.Kept s) : s₀.Kept (s.uploadNext acc i sub seq t) :=
  .respond (.ite h.closeTransfer h.setTransfer)

theorem Kept.downloadNext {acc : Access} {i sub seq : Nat} {last : Bool} {data : List Byte} {t : Transfer} (h : s₀.Kept s) :
    s₀.Kept (s.downloadNext acc i sub seq last data t) := by
  simp only [State.downloadNext]
  refine .ite h.abortRequest ?_
  refine .ite h.endTransfer.abortRequest ?_
  refine .ite ?_ h.setTransfer.respond
  split
  · exact h.endTransfer.abortRequest
  · exact (h.closeTransfer.objectsTake _ ‹_›).unspoilt.respond

theorem Kept.objectsSegment {acc : Access} {i sub : Nat} {xfer : BitVec 16} {arg : BitVec 32} {data : List Byte} (h : s₀.Kept s) :
    s₀.Kept (Objects.segment acc i sub xfer arg data s) := by
  simp only [Objects.segment]
  refine .ite h ?_
  refine .ite h.refuseNow ?_
  split
  · exact h.abortRequest
  split
  · exact h.abortRequest
  split
  · exact h.abortRequest
  refine .ite (.ite h.uploadNext (.ite h.abortRequest h.downloadNext)) ?_
  exact .ite h.setTransfer.respond h.endTransfer.abortRequest

theorem Kept.objectsAbortTransfer {acc : Access} {i sub : Nat} {xfer : BitVec 16} (h : s₀.Kept s) :
    s₀.Kept (Objects.abortTransfer acc i sub xfer s) := by
  unfold Objects.abortTransfer
  refine .ite h ?_
  refine .ite h.refuseNow ?_
  split
  · exact h.abortRequest
  split
  · exact h.abortRequest
  · exact h.endTransfer.respond

theorem Kept.objectsTransferExpire {xfer : BitVec 16} (h : s₀.Kept s) : s₀.Kept (Objects.transferExpire xfer s) := by
  unfold Objects.transferExpire
  split
  · exact h
  · exact .ite h h.advanceTo.bump.endTransfer

/-! ## The commands -/

/-- Every command ends in a next state, which keeps the floorplan and the canonical form. -/
theorem exec_kept (c : Instr) (s : State) : ∃ t, exec c s = .next t ∧ s.Kept t := by
  have h := Kept.refl s
  cases c with
  | powerOnResetAssert => exact ⟨_, rfl, h.bootAssert⟩
  | resetRelease => exact ⟨_, rfl, h.bootRelease⟩
  | regionStartRelease => exact ⟨_, rfl, h.bootRegionStart⟩
  | bridgeTrainComplete => exact ⟨_, rfl, h.bridgeTrained⟩
  | fwImageStart => exact ⟨_, rfl, h.bootImageStart⟩
  | firmwareRunning => exact ⟨_, rfl, h.bootFirmwareRunning⟩
  | syncEdge => exact ⟨_, rfl, h.pinSyncEdge⟩
  | timerefLoss => exact ⟨_, rfl, h.pinTimerefLoss⟩
  | timerefReturn => exact ⟨_, rfl, h.pinTimerefReturn⟩
  | oscillatorTrim => exact ⟨_, rfl, h.pinTrim⟩
  | adapterClockStop => exact ⟨_, rfl, h.pinClockStop⟩
  | adapterClockStart => exact ⟨_, rfl, h.pinClockStart⟩
  | adapterClockMeasure => exact ⟨_, rfl, h.pinClockMeasure⟩
  | adapterResetAssert => exact ⟨_, rfl, h.pinAdapterReset⟩
  | adapterResetRelease => exact ⟨_, rfl, h.pinAdapterRelease⟩
  | tensorInjectBeat => exact ⟨_, rfl, h.tensorInject⟩
  | tensorDeliverBeat => exact ⟨_, rfl, h.tensorDeliver⟩
  | coreWakeRequest => exact ⟨_, rfl, h.tensorCoreWake⟩
  | controlSend => exact ⟨_, rfl, h.controlSend⟩
  | nakDeliver => exact ⟨_, rfl, h.controlNakDeliver⟩
  | socketPop => exact ⟨_, rfl, h.controlPop⟩
  | txnRequestAccept => exact ⟨_, rfl, h.txnAccept⟩
  | tokenBucketRelease => exact ⟨_, rfl, h.txnTokens⟩
  | slotReservationArrive => exact ⟨_, rfl, h.txnReservationArrive⟩
  | leaseReturnArrive => exact ⟨_, rfl, h.txnLeaseArrive⟩
  | slotGrantArrive => exact ⟨_, rfl, h.txnGrantArrive⟩
  | slotBackoffArrive => exact ⟨_, rfl, h.txnBackoffArrive⟩
  | backoffExpire => exact ⟨_, rfl, h.txnBackoffEnd⟩
  | txnFlitArrive => exact ⟨_, rfl, h.txnFlitArrive⟩
  | txnPacketForward => exact ⟨_, rfl, h.txnForward⟩
  | txnRequestArrive => exact ⟨_, rfl, h.txnRequestArrive⟩
  | txnResponseArrive => exact ⟨_, rfl, h.txnResponseArrive.settleUnit⟩
  | txnDataArrive => exact ⟨_, rfl, h.txnDataArrive.settleUnit⟩
  | txnTimeoutExpire => exact ⟨_, rfl, h.txnTimeout⟩
  | tagQuarantineExpire => exact ⟨_, rfl, h.txnQuarantineExpire⟩
  | targetSlotTimeout => exact ⟨_, rfl, h.txnSlotTimeout⟩
  | snoopReplyArrive => exact ⟨_, rfl, h.txnSnoopReply⟩
  | snoopTimeout => exact ⟨_, rfl, h.txnSnoopTimeout⟩
  | coreTargetAnswer => exact ⟨_, rfl, h.txnCoreAnswer⟩
  | maCommandIssue => exact ⟨_, rfl, h.txnMaIssue⟩
  | maReadData => exact ⟨_, rfl, h.txnMaRead⟩
  | maWriteCompletion => exact ⟨_, rfl, h.txnMaWritten⟩
  | hostInboundRequest => exact ⟨_, rfl, h.hostPortInbound⟩
  | hostCompletionArrive => exact ⟨_, rfl, h.txnHostCompletion⟩
  | hostSnoopArrive => exact ⟨_, rfl, h.txnHostSnoop⟩
  | hostIrqMessage => exact ⟨_, rfl, h.controlHostIrq⟩
  | hostIrqDeliver => exact ⟨_, rfl, h.controlIrqDeliver⟩
  | cohWindowWrite => exact ⟨_, rfl, h.serveLater h.txnWriteWindow⟩
  | cohWindowInvalidateComplete => exact ⟨_, rfl, h.txnWindowComplete⟩
  | arbRenumber => exact ⟨_, rfl, h.serveKey fun h' => h'.txnRenumber⟩
  | poolSizeWrite => exact ⟨_, rfl, h.serveKey fun h' => h'.txnWritePoolSize⟩
  | i3cCcc => exact ⟨_, rfl, h.i3cCcc⟩
  | mctpMessageReceive => exact ⟨_, rfl, h.mctpReceive⟩
  | mctpControlMessage => exact ⟨_, rfl, h.mctpControl⟩
  | tensorFlitArrive => exact ⟨_, rfl, h.tensorFlitArrive⟩
  | paceGaugeWindow => exact ⟨_, rfl, h.tensorGauge⟩
  | outputPassFlit => exact ⟨_, rfl, h.tensorPass⟩
  | wakeHoldExpire => exact ⟨_, rfl, h.tensorHoldExpire⟩
  | schedLoadChecksComplete => exact ⟨_, rfl, h.schedChecked⟩
  | epochArm => exact ⟨_, rfl, h.serveKey fun h' => h'.schedWriteCtrl⟩
  | epochArmCheckComplete => exact ⟨_, rfl, h.schedArmChecked⟩
  | epochCancel => exact ⟨_, rfl, h.serveKey fun h' => h'.schedWriteCtrl⟩
  | forceStaged => exact ⟨_, rfl, h.serveKey fun h' => h'.schedWriteCtrl⟩
  | forceNull => exact ⟨_, rfl, h.serveKey fun h' => h'.schedWriteCtrl⟩
  | epochTargetSet => exact ⟨_, rfl, h.schedTargetSet⟩
  | epochTargetArrive => exact ⟨_, rfl, h.schedTargetArrive⟩
  | epochMarkerArrive => exact ⟨_, rfl, h.tensorMarkerArrive⟩
  | epochSwapComplete => exact ⟨_, rfl, h.schedSwapComplete⟩
  | forcedMarkerArrive => exact ⟨_, rfl, h.schedForcedArrive⟩
  | forcedSwapComplete => exact ⟨_, rfl, h.schedForcedComplete⟩
  | reductionJoinFlit => exact ⟨_, rfl, h.reductionStep⟩
  | tallyCaptureFlit => exact ⟨_, rfl, h.reductionCapture⟩
  | tapCtrlWrite => exact ⟨_, rfl, h.serveKey fun h' => h'.tapWrite⟩
  | controlFlitArrive => exact ⟨_, rfl, h.controlFlitArrive⟩
  | controlMessageForward => exact ⟨_, rfl, h.controlForward.takeCommands.tileCommands⟩
  | controlMessageDeliver => exact ⟨_, rfl, h.controlDeliver⟩
  | combineContribution => exact ⟨_, rfl, h.controlCombine⟩
  | combinerReleaseSend => exact ⟨_, rfl, h.controlReleaseSend⟩
  | releaseDeliver => exact ⟨_, rfl, h.controlReleaseDeliver⟩
  | tripIncrement => exact ⟨_, rfl, h.controlTripIncrement⟩
  | pstateRequest => exact ⟨_, rfl, h.powerPstateRequest⟩
  | serviceMessageReceive => exact ⟨_, rfl, h.serviceReceive⟩
  | sockCfgWrite => exact ⟨_, rfl, h.serveKey fun h' => h'.controlWriteSockCfg⟩
  | sockStatClear => exact ⟨_, rfl, h.serveKey fun h' => h'.controlClearSockStat⟩
  | channelEntryWrite => exact ⟨_, rfl, h.controlEntryWrite⟩
  | channelRankReply => exact ⟨_, rfl, h.controlRankReply⟩
  | channelCheckTimeout => exact ⟨_, rfl, h.controlCheckTimeout⟩
  | rankWrite => exact ⟨_, rfl, h.controlRankWrite⟩
  | dmaStart => exact ⟨_, rfl, h.serveKey fun h' => h'.dmaControl⟩
  | dmaStop => exact ⟨_, rfl, h.serveKey fun h' => h'.dmaControl⟩
  | dmaAbort => exact ⟨_, rfl, h.serveKey fun h' => h'.dmaControl⟩
  | dmaClear => exact ⟨_, rfl, h.serveKey fun h' => h'.dmaControl⟩
  | dmaDescriptorFetch => exact ⟨_, rfl, h.dmaFetchDone⟩
  | dmaMoverStep => exact ⟨_, rfl, h.dmaMoverStep⟩
  | dmaWritebackComplete => exact ⟨_, rfl, h.dmaBackDone⟩
  | dmaNakArrive => exact ⟨_, rfl, h.dmaNakArrive⟩
  | chStatClear => exact ⟨_, rfl, h.serveKey fun h' => h'.dmaClearStat⟩
  | bridgeFlitReceive => exact ⟨_, rfl, h.bridgeFlitReceive⟩
  | bridgeRetrainComplete => exact ⟨_, rfl, h.bridgeRetrained⟩
  | bridgeLinkDown => exact ⟨_, rfl, h.bridgeLinkDown⟩
  | bridgeCfgWrite => exact ⟨_, rfl, h.serveKey fun h' => h'.bridgeWriteCfg⟩
  | bridgeErrClear => exact ⟨_, rfl, h.serveClear⟩
  | enumReceive => exact ⟨_, rfl, h.pkgEnumReceive⟩
  | enumQuietExpire => exact ⟨_, rfl, h.pkgQuietExpire⟩
  | enumAssignReceive => exact ⟨_, rfl, h.pkgAssignReceive⟩
  | enumWaitExpire => exact ⟨_, rfl, h.pkgWaitExpire⟩
  | pkgNumberWrite => exact ⟨_, rfl, h.serveKey fun h' => h'.pkgWriteNumber⟩
  | timeReqReceive => exact ⟨_, rfl, h.pkgTimeReq⟩
  | timeRespReceive => exact ⟨_, rfl, h.pkgTimeResp⟩
  | tbPeriodExpire => exact ⟨_, rfl, h.pkgPeriodExpire⟩
  | tbGenWrite => exact ⟨_, rfl, h.serveKey fun h' => h'.pkgWriteGen⟩
  | pkgLoadCheckComplete => exact ⟨_, rfl, h.pkgChecked⟩
  | pkgArm => exact ⟨_, rfl, h.serveKey fun h' => h'.pkgArm⟩
  | pkgCancel => exact ⟨_, rfl, h.serveKey fun h' => h'.pkgCancel⟩
  | pkgDieReport => exact ⟨_, rfl, h.pkgReport⟩
  | gateRequestAccept => exact ⟨_, rfl, h.gateRequestAccept⟩
  | gateCtlAccept => exact ⟨_, rfl, h.gateCtlAccept⟩
  | gateEgressSend => exact ⟨_, rfl, h.gateEgressSend.collSettle⟩
  | fabricPacketReceive => exact ⟨_, rfl, h.gateFabricReceive⟩
  | ackDelayExpire => exact ⟨_, rfl, h.gateAckDelay⟩
  | retxTimeoutExpire => exact ⟨_, rfl, h.gateRetxExpire⟩
  | connectionIdleExpire => exact ⟨_, rfl, h.gateIdleExpire⟩
  | platInsert => exact ⟨_, rfl, h.serveKey fun h' => h'.gateInsert⟩
  | platRemove => exact ⟨_, rfl, h.serveKey fun h' => h'.gateRemove⟩
  | platQuery => exact ⟨_, rfl, h.serveKey fun h' => h'.storeVal⟩
  | gateCfgWrite => exact ⟨_, rfl, h.serveKey fun h' => h'.gateSetCfg⟩
  | gateErrClear => exact ⟨_, rfl, h.serveKey fun h' => h'.storeVal⟩
  | gateLineDown => exact ⟨_, rfl, h.gateLineDown⟩
  | gateLineUp => exact ⟨_, rfl, h.gateLineUp⟩
  | collStart => exact ⟨_, rfl, h.serveKey fun h' => h'.collControl⟩
  | collStop => exact ⟨_, rfl, h.serveKey fun h' => h'.collControl⟩
  | collAbort => exact ⟨_, rfl, h.serveKey fun h' => h'.collControl⟩
  | collClear => exact ⟨_, rfl, h.serveKey fun h' => h'.collControl⟩
  | collRecordFetch => exact ⟨_, rfl, h.collRecordFetch⟩
  | collInputFlit => exact ⟨_, rfl, h.collInputFlit⟩
  | collArriveReceive => exact ⟨_, rfl, h.collArriveReceive⟩
  | collReadyReceive => exact ⟨_, rfl, h.collReadyReceive⟩
  | collAbortReceive => exact ⟨_, rfl, h.collAbortReceive⟩
  | tallyUpReceive => exact ⟨_, rfl, h.collTallyUp⟩
  | tallyDownReceive => exact ⟨_, rfl, h.collTallyDown⟩
  | dataUpReceive => exact ⟨_, rfl, h.collDataUp⟩
  | dataDownReceive => exact ⟨_, rfl, h.collDataDown⟩
  | swContribReceive => exact ⟨_, rfl, h.collContribReceive⟩
  | swCapacityReceive => exact ⟨_, rfl, h.collCapacityReceive⟩
  | swResultReceive => exact ⟨_, rfl, h.collResultReceive⟩
  | swRefuseReceive => exact ⟨_, rfl, h.collRefuseReceive⟩
  | swRetryBackoffExpire => exact ⟨_, rfl, h.collRetryExpire⟩
  | swAttemptTimeout => exact ⟨_, rfl, h.collAttemptTimeout⟩
  | swCapExpire => exact ⟨_, rfl, h.collCapExpire⟩
  | storeAllocGrant => exact ⟨_, rfl, h.collAllocGrant⟩
  | arriveResendExpire => exact ⟨_, rfl, h.collArriveResend⟩
  | collWritebackComplete => exact ⟨_, rfl, h.collBackDone⟩
  | collStatClear => exact ⟨_, rfl, h.serveKey fun h' => h'.collClearStat⟩
  | wardForm => exact ⟨_, rfl, h.wardCommand⟩
  | wardActivate => exact ⟨_, rfl, h.wardCommand⟩
  | wardReset => exact ⟨_, rfl, h.wardCommand⟩
  | wardRevoke => exact ⟨_, rfl, h.wardCommand⟩
  | wardDrainComplete => exact ⟨_, rfl, h.wardDrained⟩
  | wardDrainLimitExpire => exact ⟨_, rfl, h.wardDrainLimit⟩
  | wardScrubComplete => exact ⟨_, rfl, h.wardScrubbed⟩
  | wardJunctionsWrite => exact ⟨_, rfl, h.serveDomain fun h' => h'.wardWriteJunctions⟩
  | wardRefusalsClear => exact ⟨_, rfl, h.serveClear⟩
  | watchdogExpire => exact ⟨_, rfl, h.bootWatchdog⟩
  | coreResetHoldExpire => exact ⟨_, rfl, h.bootCoreHeld⟩
  | coreSelWrite => exact ⟨_, rfl, h.bootCoreSel⟩
  | read => exact ⟨_, rfl, h.objectsRead⟩
  | write => exact ⟨_, rfl, h.objectsWrite⟩
  | initUpload => exact ⟨_, rfl, h.objectsInitUpload⟩
  | initDownload => exact ⟨_, rfl, h.objectsInitDownload⟩
  | segment => exact ⟨_, rfl, h.objectsSegment⟩
  | transferAbort => exact ⟨_, rfl, h.objectsAbortTransfer⟩
  | describe => exact ⟨_, rfl, h.objectsDescribe⟩
  | transferTimeoutExpire => exact ⟨_, rfl, h.objectsTransferExpire⟩
  | mailboxRequestWrite => exact ⟨_, rfl, h.mboxWrite⟩
  | mailboxDoorbell => exact ⟨_, rfl, h.mboxDoorbell⟩
  | accessStatClear => exact ⟨_, rfl, h.serveClear⟩
  | getVersion => exact ⟨_, rfl, h.spdmVersion⟩
  | getCapabilities => exact ⟨_, rfl, h.spdmCapabilities⟩
  | negotiateAlgorithms => exact ⟨_, rfl, h.spdmNegotiate⟩
  | getDigests => exact ⟨_, rfl, h.spdmDigests⟩
  | getCertificate => exact ⟨_, rfl, h.spdmCertificate⟩
  | challenge => exact ⟨_, rfl, h.spdmChallenge⟩
  | getMeasurements => exact ⟨_, rfl, h.spdmMeasurements⟩
  | fwStart => exact ⟨_, rfl, h.serveKey fun h' => h'.bootStart⟩
  | fwHold => exact ⟨_, rfl, h.serveThen (fun h' => h'.storeVal) (fun h' => h'.holdCore)⟩
  | fuseCaps => exact ⟨_, rfl, h.serveKey fun h' => h'.fuseWriteCaps⟩
  | debugDisable => exact ⟨_, rfl, h.serveKey fun h' => h'.fuseWriteDebug⟩
  | lifecycleAdvance => exact ⟨_, rfl, h.serveKey fun h' => h'.fuseAdvance⟩
  | dieReset => exact ⟨_, rfl, h.serveThen (fun h' => h'.bootResetMay) (fun h' => h'.dieReset)⟩
  | pkgReset => exact ⟨_, rfl, h.serveThen (fun h' => h'.bootResetMay) (fun h' => h'.packageReset)⟩
  | pkgResetReceive => exact ⟨_, rfl, h.bootPackageReset⟩
  | regionGate => exact ⟨_, rfl, h.regionGateWrite⟩
  | regionWake => exact ⟨_, rfl, h.serveKey fun h' => h'.regionWake⟩
  | regionReset => exact ⟨_, rfl, h.serveKey fun h' => h'.regionReset⟩
  | regionResetRelease => exact ⟨_, rfl, h.regionRelease⟩
  | regionWakeComplete => exact ⟨_, rfl, h.regionWakeComplete⟩
  | autoGateIdleExpire => exact ⟨_, rfl, h.regionAutoGate⟩
  | railTargetWrite => exact ⟨_, rfl, h.serveKey fun h' => h'.railSetTarget⟩
  | railAppliedWrite => exact ⟨_, rfl, h.serveKey fun h' => h'.railSetApplied⟩
  | railRequestTimeout => exact ⟨_, rfl, h.railTimeout⟩
  | supplyWarnEnter => exact ⟨_, rfl, h.supplyWarnEnter⟩
  | supplyWarnExit => exact ⟨_, rfl, h.supplyWarnExit⟩
  | supplyResetCross => exact ⟨_, rfl, h.supplyResetCross⟩
  | supplyStatClear => exact ⟨_, rfl, h.serveClear⟩
  | collectorCompareMismatch => exact ⟨_, rfl, h.faultsMismatch⟩
  | faultClear => exact ⟨_, rfl, h.serveKey fun h' => h'.faultsClear⟩
  | faultSevWrite => exact ⟨_, rfl, h.serveKey fun h' => h'.faultsSetSev⟩
  | faultThresholdWrite => exact ⟨_, rfl, h.serveKey fun h' => h'.faultsSetThreshold⟩
  | inject => exact ⟨_, rfl, h.serveKey fun h' => h'.faultsArm⟩
  | testPortInjectAccess => exact ⟨_, rfl, h.faultsTestPort⟩
  | wdtKick => exact ⟨_, rfl, h.serveKey fun h' => h'.bootKick⟩
  | patrolScrubRead => exact ⟨_, rfl, h.faultsPatrol⟩
  | storeCorrClear => exact ⟨_, rfl, h.serveClear⟩
  | recordWriteComplete => exact ⟨_, rfl, h.recorderWrite⟩
  | recorderScanComplete => exact ⟨_, rfl, h.recorderScan⟩
  | operatingHourTick => exact ⟨_, rfl, h.recorderHour⟩
  | retireCol => exact ⟨_, rfl, h.serveKey fun h' => h'.sparesControl⟩
  | retireRow => exact ⟨_, rfl, h.serveKey fun h' => h'.sparesControl⟩
  | retirementResume => exact ⟨_, rfl, h.sparesResume⟩
  | steerWire => exact ⟨_, rfl, h.serveKey fun h' => h'.sparesControl⟩
  | wireSteerStage => exact ⟨_, rfl, h.sparesStage⟩
  | steerLane => exact ⟨_, rfl, h.serveKey fun h' => h'.sparesControl⟩
  | marginMeasure => exact ⟨_, rfl, h.sparesMargin⟩
  | paceDriftMeasure => exact ⟨_, rfl, h.sparesDrift⟩
  | suspectHourExpire => exact ⟨_, rfl, h.sparesHour⟩
  | autoBridgeCheck => exact ⟨_, rfl, h.sparesAutoBridge⟩
  | counterGather => exact ⟨_, rfl, h.observeGather⟩
  | cntCfgWrite => exact ⟨_, rfl, h.serveKey fun h' => h'.observeSetSlot⟩
  | wardEvtEnWrite => exact ⟨_, rfl, h.serveDomain fun h' => h'.observeSetEvents⟩
  | traceRecordStore => exact ⟨_, rfl, h.observeStore⟩
  | traceTrigger => exact ⟨_, rfl, h.serveKey fun h' => h'.observeTraceCommand⟩
  | traceRestart => exact ⟨_, rfl, h.serveKey fun h' => h'.observeTraceCommand⟩
  | traceCtrlWrite => exact ⟨_, rfl, h.serveKey fun h' => h'.observeTraceControl⟩
  | hallRefWrite => exact ⟨_, rfl, h.serveKey fun h' => h'.observeHallRef⟩
  | hallTimeRespReceive => exact ⟨_, rfl, h.observeHallResp⟩
  | hallMeasureTimeout => exact ⟨_, rfl, h.observeHallTimeout⟩
  | progressWatchExamine => exact ⟨_, rfl, h.watchExamine⟩
  | waitGraphComplete => exact ⟨_, rfl, h.watchGraphDone⟩
  | freeze => exact ⟨_, rfl, h.serveKey fun h' => h'.observeFreezeControl⟩
  | freezeComplete => exact ⟨_, rfl, h.observeFreezeDone⟩
  | release => exact ⟨_, rfl, h.serveKey fun h' => h'.observeFreezeControl⟩
  | releaseComplete => exact ⟨_, rfl, h.observeReleaseDone⟩
  | capture => exact ⟨_, rfl, h.serveKey fun h' => h'.observeCapture⟩
  | captureComplete => exact ⟨_, rfl, h.observeCaptureDone⟩
  | hangStatusClear => exact ⟨_, rfl, h.serveClear⟩
  | paceMinClear => exact ⟨_, rfl, h.paceClearMin⟩
  | tlinkCorrClear => exact ⟨_, rfl, h.serveClear⟩
  | bPortStatusClear => exact ⟨_, rfl, h.serveClear⟩
  | rnStatusClear => exact ⟨_, rfl, h.serveClear⟩
  | txnStatClear => exact ⟨_, rfl, h.serveKey fun h' => h'.txnClearStat⟩
  | probeCountClear => exact ⟨_, rfl, h.serveKey fun h' => h'.txnClearProbe⟩
  | cnHandshake => exact ⟨_, rfl, h.controlCnHandshake⟩
  | trResponseBeat => exact ⟨_, rfl, h.txnResponseBeat⟩

theorem step_kept {s t : State} (h : step s = .next t) : s.Kept t := by
  unfold step at h
  split at h
  · cases h
    exact .ite (Kept.refl s).advance (.refl s)
  · next c rest _ =>
    obtain ⟨u, hu, hkept⟩ := exec_kept c { s with pending := rest }
    rw [hu] at h
    cases h
    exact ⟨hkept.cfg, hkept.canonical⟩

end Sys2Proof.Machine.State

namespace Sys2Proof.Machine

/-- Settles O4: every command keeps the floorplan, and soundness speaks of the floorplan alone. -/
theorem everyStepKeepsTheFloorplan : Obligations.EveryStepKeepsTheFloorplan := by
  unfold Obligations.EveryStepKeepsTheFloorplan
  intro s t h
  have hcfg := (State.step_kept h).cfg
  refine ⟨hcfg, fun hsound => ?_⟩
  rwa [State.sound, hcfg]

/-- Settles O5: objects are written through `setObj`, and resets build the table of what they keep entry by entry. -/
theorem everyStepKeepsTheCanonicalForm : Obligations.EveryStepKeepsTheCanonicalForm := by
  unfold Obligations.EveryStepKeepsTheCanonicalForm
  intro s t hcanonical h
  exact (State.step_kept h).canonical hcanonical

end Sys2Proof.Machine
end

section
/-! PROOFS. The step, the state after reset, and the dictionary's answers (R434 to R449). -/

namespace Sys2Proof.Machine

/-- Settles O1: by the definition of the step. -/
theorem stepRunsTheFrontCommand : Obligations.StepRunsTheFrontCommand := by
  unfold Obligations.StepRunsTheFrontCommand
  intro c rest s
  rfl

theorem step_of_empty {s : State} (hempty : s.pending = []) : step s = .next (if s.running then s.advance 1 else s) := by
  unfold step
  rw [hempty]

/-- Settles O2: with nothing pending the step is `advance 1`, or nothing. That it takes one nanosecond is the model's choice (log 1). -/
theorem emptyQueueLetsOneNanosecondPass : Obligations.EmptyQueueLetsOneNanosecondPass := by
  unfold Obligations.EmptyQueueLetsOneNanosecondPass
  intro s hempty
  rw [step_of_empty hempty]
  refine ⟨fun hrun => ?_, fun hstill => ?_⟩
  · rw [if_pos hrun]
    rfl
  · rw [if_neg (by simp [hstill])]

/-- Below the sockets every object's default is that of its row. -/
theorem Obj.dflt_of_row {k : Nat} {r : ObjRow} (hr : rowOf k = some r) (hk : k < objKey 0x1680 0) :
    Obj.dflt k = BitVec.ofNat 64 r.dflt := by
  simp only [objKey] at hk
  unfold Obj.dflt
  simp only
  rw [if_neg (by omega), if_neg (by omega), if_neg (by omega), if_neg (by omega), if_neg (by omega), hr]

theorem State.reset_sound : State.reset.sound = true := by decide +kernel

theorem State.obj_reset (k : Nat) : State.reset.obj k = Obj.dflt k := rfl

/-- Settles O3: nothing is stored in the reset state, so every object reads its default. The integration, the blank part and the pins
are the model's choices (log 2, 10, 11, 12). -/
theorem resetLeavesEveryObjectAtItsDefault : Obligations.ResetLeavesEveryObjectAtItsDefault := by
  unfold Obligations.ResetLeavesEveryObjectAtItsDefault
  refine ⟨State.reset_sound, rfl, rfl, rfl, rfl, rfl, State.obj_reset, fun _ => rfl, fun r _ k hr hk => ?_, rfl, rfl, rfl, rfl, ?_⟩
  · rw [State.obj_reset, Obj.dflt_of_row hr hk]
  · decide +kernel


/-! ## Reads, and requests that a check stops -/

theorem objKey_div (i : Nat) (sub : BitVec 8) : objKey i sub.toNat / 256 = i := by
  have := sub.isLt
  simp only [objKey]
  omega

theorem objKey_mod (i : Nat) (sub : BitVec 8) : objKey i sub.toNat % 256 = sub.toNat := by
  have := sub.isLt
  simp only [objKey]
  omega

theorem exec_read_ok {s : State} {acc : Access} {index : BitVec 16} {sub : BitVec 8} {r : ObjRow} (hserves : s.serves acc = true)
    (hcheck : s.check acc index.toNat sub.toNat .read 0 = .ok r) :
    exec (.read acc index sub) s = .next (s.respond acc 1 index.toNat sub.toNat
      (Reply.done r.ty 0 (typeLen r.ty) (leBytes (typeLen r.ty) (s.valueOf acc.level index.toNat sub.toNat).toNat))) := by
  simp [exec, execRead, Objects.read, State.serveReply, hserves, hcheck]

theorem exec_read_stopped {s : State} {acc : Access} {index : BitVec 16} {sub : BitVec 8} {a : Abort} (hserves : s.serves acc = true)
    (hcheck : s.check acc index.toNat sub.toNat .read 0 = .error a) :
    exec (.read acc index sub) s = .next (s.abortRequest acc 1 index.toNat sub.toNat 0 a) := by
  simp [exec, execRead, Objects.read, State.serveReply, hserves, hcheck]

/-- Settles O7: the answers are the model's, by the check that each request passes. -/
theorem readAndDescribeAnswer : Obligations.ReadAndDescribeAnswer := by
  unfold Obligations.ReadAndDescribeAnswer
  intro s acc index sub r hserves
  refine ⟨exec_read_ok hserves, fun a hcheck => exec_read_stopped hserves hcheck, fun hhead => ?describe⟩
  case describe => simp [exec, execDescribe, Objects.describe, State.serveReply, hserves, hhead]

theorem State.serveThen_barred {s : State} {acc : Access} {k : Nat} {v : Val} {eff : Val → Effect} {after : State → State} {a : Abort}
    (hserves : s.serves acc = true)
    (hcheck : s.check acc (k / 256) (k % 256) .write (typeLen (s.typeOf (k / 256) (k % 256))) = .error a) :
    s.serveThen acc k v eff after = s.abortRequest acc 2 (k / 256) (k % 256) 0 a := by
  simp [State.serveThen, hserves, hcheck]

theorem State.serveLater_barred {s : State} {acc : Access} {k : Nat} {v : Val} {eff : Val → State → Except Abort (State × Bool)}
    {a : Abort} (hserves : s.serves acc = true)
    (hcheck : s.check acc (k / 256) (k % 256) .write (typeLen (s.typeOf (k / 256) (k % 256))) = .error a) :
    s.serveLater acc k v eff = s.abortRequest acc 2 (k / 256) (k % 256) 0 a := by
  simp [State.serveLater, hserves, hcheck]

/-- An entry of a channel table has the key of its index and subindex. -/
theorem chanKey_of_chanEntry {i sub e : Nat} (h : chanEntry i sub = some e) : chanKey i e = objKey i sub := by
  unfold chanEntry at h
  split at h
  case isTrue hlow =>
    cases h
    rw [chanKey, if_neg (by omega)]
    congr 1
    omega
  case isFalse =>
    split at h
    case isTrue hport =>
      cases h
      rw [chanKey, if_pos (by omega)]
      congr 1
      omega
    case isFalse => cases h

/-- GATE of REGION_CTRL records a refusal only where the request passes its checks. -/
theorem Region.gateWrite_barred {s : State} {acc : Access} {k : Nat} {a : Abort} (hserves : s.serves acc = true)
    (hcheck : s.check acc (Obj.regionCtrl k / 256) (Obj.regionCtrl k % 256) .write
      (typeLen (s.typeOf (Obj.regionCtrl k / 256) (Obj.regionCtrl k % 256))) = .error a) :
    Region.gateWrite acc k s = s.abortRequest acc 2 (Obj.regionCtrl k / 256) (Obj.regionCtrl k % 256) 0 a := by
  have haccepts : s.accepts acc (Obj.regionCtrl k) = false := by simp [State.accepts, hcheck]
  simp [Region.gateWrite, State.serveKey_barred hserves hcheck, haccepts]

/-- A WRITE that a check stops is answered with its abort code, whatever step its object's writes take. -/
theorem Objects.write_barred {s : State} {acc : Access} {i : Nat} {sub : BitVec 8} {len : Nat} (v : Val) {a : Abort}
    (hserves : s.serves acc = true) (hcheck : s.check acc i sub.toNat .write len = .error a) :
    Objects.write acc i sub.toNat len v s = s.abortRequest acc 2 i sub.toNat 0 a := by
  unfold Objects.write
  by_cases hlen : len = typeLen (s.typeOf i sub.toNat)
  case neg => simp [hlen, hserves, hcheck]
  subst hlen
  have hkey {k : Nat} (hk : k = objKey i sub.toNat) :
      s.check acc (k / 256) (k % 256) .write (typeLen (s.typeOf (k / 256) (k % 256))) = .error a := by
    rw [hk, objKey_div, objKey_mod, hcheck]
  have habort {k : Nat} (hk : k = objKey i sub.toNat) :
      s.abortRequest acc 2 (k / 256) (k % 256) 0 a = s.abortRequest acc 2 i sub.toNat 0 a := by
    rw [hk, objKey_div, objKey_mod]
  rw [if_neg (by simp)]
  split
  · rw [State.serveKey_barred hserves (hkey rfl), habort rfl]
  split
  case h_1 e he =>
    have hchan := chanKey_of_chanEntry he
    rw [Control.entryWrite, State.serveLater_barred hserves (hkey hchan), habort hchan]
  case h_2 =>
    split
    · rw [State.serveLater_barred hserves (hkey rfl), habort rfl]
    split
    case isTrue hsel => rw [Boot.coreSel, State.serveThen_barred hserves (hkey hsel.symm), habort hsel.symm]
    split
    · rw [State.serveThen_barred hserves (hkey rfl), habort rfl]
    split
    · rw [State.serveThen_barred hserves (hkey rfl), habort rfl]
    split
    · rw [State.serveThen_barred hserves (hkey rfl), habort rfl]
    split
    case isTrue hgate =>
      obtain ⟨hi, hsub, -⟩ := hgate
      have hregion : Obj.regionCtrl (sub.toNat - 1) = objKey i sub.toNat := by
        simp only [Obj.regionCtrl, objKey]
        omega
      rw [Region.gateWrite_barred hserves (hkey hregion), habort hregion]
    case isFalse => rw [State.serveKey_barred hserves (hkey rfl), habort rfl]

theorem exec_write_stopped {s : State} {acc : Access} {index : BitVec 16} {sub : BitVec 8} {len : Nat} {v : BitVec 64} {a : Abort}
    (hserves : s.serves acc = true) (hcheck : s.check acc index.toNat sub.toNat .write len = .error a) :
    exec (.write acc index sub len v) s = .next (s.abortRequest acc 2 index.toNat sub.toNat 0 a) := by
  simp only [exec, execWrite, Objects.write_barred _ hserves hcheck]

theorem exec_initDownload_stopped {s : State} {acc : Access} {index : BitVec 16} {sub : BitVec 8} {size : BitVec 32} {a : Abort}
    (hserves : s.serves acc = true) (hpath : servicePath acc.path = false)
    (hcheck : s.check acc index.toNat sub.toNat .download 0 = .error a) :
    exec (.initDownload acc index sub size) s = .next (s.abortRequest acc 4 index.toNat sub.toNat 0 a) := by
  simp [exec, execInitDownload, Objects.initDownload, hserves, hpath, hcheck]

/-- LIVE_BANK is written by nobody (R138). -/
theorem State.wr_of_find_liveBank {s : State} {sub : BitVec 8} {r : ObjRow} (hfind : s.find 0x1411 sub.toNat = .ok r) : r.wr = 15 := by
  have hsub := sub.isLt
  have hrow : ∀ r ∈ catalogue, r.ilo ≤ 0x1411 → 0x1411 ≤ r.ihi → r.wr = 15 := by decide +kernel
  unfold State.find at hfind
  split at hfind
  · cases hfind
  dsimp only at hfind
  split at hfind
  · cases hfind; rfl
  split at hfind
  · cases hfind
  split at hfind <;> cases hfind
  rename_i hr
  have hhas := List.find?_some hr
  simp only [ObjRow.has, Bool.and_eq_true, decide_eq_true_eq] at hhas
  simp only [objKey] at hhas
  exact hrow r (List.mem_of_find?_eq_some hr) (by omega) (by omega)

/-- On the firmware path nothing is barred while firmware runs. -/
theorem State.checkPath_firmware {s : State} {acc : Access} {i sub : Nat} {writes : Bool} {r : ObjRow} (hpath : acc.path = .firmware)
    (hfw : s.firmwareRuns = true) (hfind : s.find i sub = .ok r) (hhere : s.presence i sub = .here) :
    s.checkPath acc i sub writes = .ok r := by
  have hboot : s.bootRuns = false := by
    simp only [State.firmwareRuns, Bool.and_eq_true, beq_iff_eq] at hfw
    simp [State.bootRuns, hfw.2]
  have hlevel := acc.level.isLt
  simp [State.checkPath, hpath, State.pathLimit, hfind, hhere, hboot]
  omega

theorem State.check_liveBank {s : State} {acc : Access} {sub : BitVec 8} {r : ObjRow} (hpath : acc.path = .firmware)
    (hfw : s.firmwareRuns = true) (hfind : s.find 0x1411 sub.toNat = .ok r) (hhere : s.presence 0x1411 sub.toNat = .here) :
    s.check acc 0x1411 sub.toNat .download 0 = .error .liveBank := by
  simp [State.check, inBandPath, hpath, State.checkPath_firmware hpath hfw hfind hhere, State.checkRest, isPeer, Doing.writes,
    State.wr_of_find_liveBank hfind]

/-- Settles O9: each request ends at the check that stops it; LIVE_BANK has no level at which it may be written. -/
theorem stoppedRequestsDoNothing : Obligations.StoppedRequestsDoNothing := by
  unfold Obligations.StoppedRequestsDoNothing
  intro s acc index sub a hserves
  refine ⟨fun len v hcheck => exec_write_stopped hserves hcheck, fun hpath hcheck => ?upload,
    fun hpath hcheck size => exec_initDownload_stopped hserves hpath hcheck, ?liveBank⟩
  case upload => simp [exec, execInitUpload, Objects.initUpload, hserves, hpath, hcheck]
  case liveBank =>
    rintro r hpath hfw rfl hfind _ hhere size
    exact exec_initDownload_stopped hserves (by simp [servicePath, hpath]) (State.check_liveBank hpath hfw hfind hhere)

/-! ## Levels -/

/-- The checks of a path that is neither barred nor the boot ROM's, for an object that is there. -/
theorem State.checkPath_here {s : State} {acc : Access} {i sub : Nat} {writes : Bool} {r : ObjRow} (hlimit : s.pathLimit acc.path ≠ 7)
    (hboot : s.bootRuns = false ∨ objKey i sub ≠ Obj.fwImage) (hfind : s.find i sub = .ok r) (hhere : s.presence i sub = .here) :
    s.checkPath acc i sub writes = if s.pathLimit acc.path < acc.level.toNat then .error .pathBarred else .ok r := by
  have hrom : ¬ (s.bootRuns ∧ objKey i sub = Obj.fwImage ∧ !s.bootPath acc.path) := by
    rintro ⟨hruns, hkey, -⟩
    rcases hboot with hoff | hother
    · simp [hoff] at hruns
    · exact hother hkey
  simp only [State.checkPath, hlimit, hfind, hhere, hrom]
  simp

theorem State.holds_below {s : State} {acc : Access} {i sub need : Nat} {writes : Bool} (h : acc.level.toNat < need) :
    s.holds acc i sub need writes = false := by
  simp [State.holds, Nat.not_le.mpr h]

theorem State.checkRest_below {s : State} {acc : Access} {i sub len : Nat} {d : Doing} {r : ObjRow} (hpeer : isPeer acc.path = false)
    (hopen : (if d.writes then r.wr else r.rd) ≠ 15) (hbelow : acc.level.toNat < if d.writes then r.wr else r.rd) :
    s.checkRest acc i sub d len r = .error .level := by
  simp [State.checkRest, hpeer, hopen, State.holds_below hbelow]

/-- Settles O8: a level above the path's limit is barred with PATH_BARRED, one below the object's stops at LEVEL. -/
theorem accessBelowItsLevelIsRefused : Obligations.AccessBelowItsLevelIsRefused := by
  unfold Obligations.AccessBelowItsLevelIsRefused
  intro s acc index sub len v r hserves hpeer hlimit hboot hfind hhere
  have hrom : ¬ (inBandPath acc.path ∧ s.bootRuns ∧ s.pathLimit acc.path ≠ 7) := by
    rintro ⟨hin, hruns, -⟩
    rcases hboot with hoff | ⟨hout, -⟩
    · simp [hoff] at hruns
    · simp [hout] at hin
  have hpath (writes : Bool) := State.checkPath_here (acc := acc) (writes := writes) hlimit (hboot.imp_right And.right) hfind hhere
  have hlevel {d : Doing} {n : Nat} (hreach : acc.level.toNat ≤ s.pathLimit acc.path) (hopen : (if d.writes then r.wr else r.rd) ≠ 15)
      (hbelow : acc.level.toNat < if d.writes then r.wr else r.rd) : s.check acc index.toNat sub.toNat d n = .error .level := by
    rw [State.check, if_neg hrom, hpath, if_neg (by omega)]
    simp only [State.checkRest_below hpeer hopen hbelow]
  have hbarred {d : Doing} {n : Nat} (habove : s.pathLimit acc.path < acc.level.toNat) :
      s.check acc index.toNat sub.toNat d n = .error .pathBarred := by
    rw [State.check, if_neg hrom, hpath, if_pos habove]
  refine ⟨fun hreach hopen hbelow => exec_write_stopped hserves (hlevel hreach hopen hbelow),
    fun hreach hopen hbelow => exec_read_stopped hserves (hlevel hreach hopen hbelow),
    fun habove => ⟨exec_write_stopped hserves (hbarred habove), exec_read_stopped hserves (hbarred habove)⟩,
    fun cmd a k hk => State.abortRequest_obj _ _ _ _ _ _ _ _ hk⟩

end Sys2Proof.Machine
end

section
/-! PROOFS. Answers, transfers and clears (R440 to R446, R453). -/

namespace Sys2Proof.Machine

/-! ## Answers -/

/-- The request is counted, an abort among the aborts too (R453). -/
def State.counted (s : State) (r : Reply) : State := if r.status = 1 then (s.bump .accesses 1).bump .aborts 1 else s.bump .accesses 1

theorem State.respond_eq (s : State) (acc : Access) (cmd i sub : Nat) (r : Reply) :
    s.respond acc cmd i sub r = (s.counted r).answer acc cmd i sub r := rfl

theorem State.counted_eq (s : State) (r : Reply) : s.counted r = { s with objs := (s.counted r).objs } := by
  unfold State.counted
  split <;> rfl

theorem State.obj_counted_ne {s : State} {r : Reply} {k : Nat} (hk : k ≠ Obj.accessStat) : (s.counted r).obj k = s.obj k := by
  have haborts : k ≠ Fld.aborts.key := hk
  have haccesses : k ≠ Fld.accesses.key := hk
  unfold State.counted
  split
  · exact (State.obj_wr_ne _ _ _ _ haborts).trans (s.obj_wr_ne _ _ _ haccesses)
  · exact s.obj_wr_ne _ _ _ haccesses

theorem State.rd_accesses_counted (s : State) (r : Reply) : (s.counted r).rd .accesses = min (s.rd .accesses + 1) (2 ^ 24 - 1) := by
  unfold State.counted
  split
  · exact (State.rd_wr_apart _ _ _ _ (by decide) (by decide) (by decide)).trans (s.rd_bump_same .accesses 1 (by decide))
  · exact s.rd_bump_same .accesses 1 (by decide)

theorem State.rd_aborts_counted (s : State) (r : Reply) :
    (s.counted r).rd .aborts = if r.status = 1 then min (s.rd .aborts + 1) (2 ^ 16 - 1) else s.rd .aborts := by
  have hfirst : (s.bump .accesses 1).rd .aborts = s.rd .aborts := s.rd_wr_apart _ _ _ (by decide) (by decide) (by decide)
  unfold State.counted
  split
  · rw [State.rd_bump_same _ .aborts 1 (by decide), hfirst]
    rfl
  · exact hfirst

/-- What the arbiter moves is neither the answer nor the paths' requests. -/
theorem ArbMoves.eq {s t : State} (h : ArbMoves s t) :
    t.out = s.out ∧ t.pin = s.pin ∧ t.dict.bus = s.dict.bus ∧ t.dict.mailboxes = s.dict.mailboxes := by
  obtain ⟨⟨txn, tries, ht⟩, -⟩ := h
  rw [ht]
  exact ⟨rfl, rfl, rfl, rfl⟩

theorem ArbMoves.mailbox {s t : State} (h : ArbMoves s t) (p : Nat) : t.mailbox p = s.mailbox p := by
  obtain ⟨-, -, -, hmail⟩ := h.eq
  rw [State.mailbox, State.mailbox, hmail]

@[simp] theorem State.ibi_objs (s : State) (b : Byte) : (s.ibi b).objs = s.objs := by unfold State.ibi; split <;> rfl
@[simp] theorem State.ibi_dict (s : State) (b : Byte) : (s.ibi b).dict = s.dict := by unfold State.ibi; split <;> rfl

theorem State.out_ibi (s : State) (b : Byte) : (s.ibi b).out = s.out ++ if s.pin.ibiOff then [] else [.ibi b] := by
  unfold State.ibi
  split <;> simp

/-- A message that awaits reading is driven, and announced unless in-band interrupts are disabled. -/
theorem State.out_mctpSend (s : State) (ty : Byte) (mtag : BitVec 3) (body : List Byte) :
    (s.mctpSend ty mtag body).out = s.out ++ [.mctp ty mtag body] ++ if s.pin.ibiOff then [] else [.ibi 0xAE] := by
  rw [State.mctpSend, State.out_ibi]
  rfl

@[simp] theorem State.mctpSend_objs (s : State) (ty : Byte) (mtag : BitVec 3) (body : List Byte) : (s.mctpSend ty mtag body).objs = s.objs :=
  State.ibi_objs ..

@[simp] theorem State.mctpSend_dict (s : State) (ty : Byte) (mtag : BitVec 3) (body : List Byte) : (s.mctpSend ty mtag body).dict = s.dict :=
  State.ibi_dict ..

/-- The answer stands in RESPONSE, and nothing the dictionary counts changes. -/
theorem State.answerMailbox_spec (s : State) (p : Nat) (bs : List Byte) :
    (s.answerMailbox p bs).mailbox p = { s.mailbox p with response := bs, busy := false, done := true, answered := (s.mailbox p).answered + 1 } ∧
      (s.answerMailbox p bs).objs = s.objs := by
  have hset : (s.setMailbox p { s.mailbox p with response := bs, busy := false, done := true, answered := (s.mailbox p).answered + 1 }).mailbox p =
      { s.mailbox p with response := bs, busy := false, done := true, answered := (s.mailbox p).answered + 1 } := Tbl.get_set_same ..
  simp only [State.answerMailbox]
  split
  · rw [State.hostVector]
    split <;> exact ⟨hset, rfl⟩
  · exact ⟨hset, rfl⟩

theorem State.respond_bus {s : State} {acc : Access} {cmd i sub : Nat} {r : Reply} {mtag : BitVec 3} {body : List Byte}
    (hpath : acc.path = .bus) (hbus : s.dict.bus = some (mtag, body)) :
    s.respond acc cmd i sub r = (({ s.counted r with dict := { (s.counted r).dict with bus := none } } : State).pathDone pathUnitBase).mctpSend
      0x7F mtag (ianaBytes (s.obj Obj.mctpIana).toNat ++ r.bytes cmd i sub acc.reqId) := by
  have hstill : (s.counted r).dict.bus = some (mtag, body) := by rw [State.counted_eq]; exact hbus
  have hiana : (s.counted r).obj Obj.mctpIana = s.obj Obj.mctpIana := State.obj_counted_ne (by decide)
  rw [State.respond_eq, State.answer, hpath]
  simp only [hstill, hiana]

theorem State.respond_mailbox {s : State} {acc : Access} {cmd i sub p : Nat} {r : Reply} (hpath : acc.path = .mailbox p) :
    s.respond acc cmd i sub r = ((s.counted r).answerMailbox p (r.bytes cmd i sub acc.reqId)).pathDone (pathUnitBase + 1 + p) := by
  rw [State.respond_eq, State.answer, hpath]

/-- Settles O6: a request is counted and its answer leaves by its path. The interrupt's data byte 0xAE is that of DSP0233 (log 165). -/
theorem requestsAreAnswered : Obligations.RequestsAreAnswered := by
  unfold Obligations.RequestsAreAnswered
  intro s acc cmd i sub r
  refine ⟨fun hpath => ⟨_, rfl, ?firmware⟩, fun hpath mtag body hbus => ⟨_, rfl, ?bus⟩, fun p hpath => ⟨_, rfl, ?mailbox⟩,
    fun a unit tag gen hpath hslot ha => ?slot, fun a src w k hpath ha => ?service, fun k hk => State.respond_obj _ _ _ _ _ _ _ hk⟩
  case firmware =>
    have heq : s.respond acc cmd i sub r = (s.counted r).emit (.answer .firmware (r.bytes cmd i sub acc.reqId)) := by
      rw [State.respond_eq, State.answer, hpath]
    have hout : (s.counted r).out = s.out := by rw [State.counted_eq]
    rw [heq]
    refine ⟨by rw [State.emit_out, hout], s.rd_accesses_counted r, s.rd_aborts_counted r, fun k hk => State.obj_counted_ne hk, ?_⟩
    rw [State.counted_eq]
    rfl
  case bus =>
    rw [State.respond_bus hpath hbus]
    have hmoves := State.pathDone_moves ({ s.counted r with dict := { (s.counted r).dict with bus := none } } : State) pathUnitBase
    obtain ⟨hout, hpin, hdict, -⟩ := hmoves.eq
    obtain ⟨-, -, haccesses, haborts, -⟩ := hmoves
    have hcounted : (s.counted r).out = s.out ∧ (s.counted r).pin = s.pin := by rw [State.counted_eq]; exact ⟨rfl, rfl⟩
    refine ⟨?_, ?_, ?_, ?_⟩
    · rw [State.out_mctpSend, hout, hpin]
      simp only [hcounted]
    · rw [State.mctpSend_dict, hdict]
    · rw [State.rd_congr (State.mctpSend_objs ..), haccesses]
      exact s.rd_accesses_counted r
    · rw [State.rd_congr (State.mctpSend_objs ..), haborts]
      exact s.rd_aborts_counted r
  case mailbox =>
    rw [State.respond_mailbox hpath]
    have hmoves := State.pathDone_moves ((s.counted r).answerMailbox p (r.bytes cmd i sub acc.reqId)) (pathUnitBase + 1 + p)
    obtain ⟨hmail, hobjs⟩ := (s.counted r).answerMailbox_spec p (r.bytes cmd i sub acc.reqId)
    have hbox : (s.counted r).mailbox p = s.mailbox p := by rw [State.counted_eq]; rfl
    rw [hmoves.mailbox, hmail, hbox]
    obtain ⟨-, -, haccesses, haborts, -⟩ := hmoves
    refine ⟨rfl, rfl, rfl, rfl, ?_, ?_⟩
    · rw [haccesses, State.rd_congr hobjs, State.rd_accesses_counted]
    · rw [haborts, State.rd_congr hobjs, State.rd_aborts_counted]
  case slot =>
    have hstill : a.tileSlot unit tag = some gen := by
      rw [← hslot, ha]
      split <;> rfl
    have hcounted : s.counted r = a := ha.symm
    rw [State.respond_eq, hcounted]
    rcases hpath with ⟨w, hpath⟩ | ⟨d, hpath⟩ <;> simp only [State.answer, hpath, State.answerSlot, hstill]
  case service =>
    have hcounted : s.counted r = a := ha.symm
    have hdict : a.dict = s.dict := by
      rw [← hcounted, State.counted_eq]
    rw [State.respond_eq, hcounted, State.answer, hpath, hdict]

/-! ## Transfers -/

theorem State.freeHandle_le (s : State) : s.freeHandle ≤ 65535 ∧ 1 ≤ s.freeHandle := by
  unfold State.freeHandle
  cases hfind : List.find? _ _ with
  | none => simp
  | some h =>
    have hmem := List.mem_of_find?_eq_some hfind
    simp only [List.mem_map] at hmem
    obtain ⟨j, -, rfl⟩ := hmem
    simp only [Option.getD_some]
    omega

/-- Nine handles in a row are more than eight open transfers can have. -/
theorem State.freeHandle_free {s : State} (hroom : s.dict.transfers.length < 8) : ∀ x ∈ s.dict.transfers, x.handle.toNat ≠ s.freeHandle := by
  have hnodup : ((List.range 9).map (fun j => (s.dict.nextHandle - 1 + j) % 65535 + 1)).Nodup := by
    refine List.pairwise_map.mpr (List.Pairwise.imp_of_mem (fun {j k} hj hk hne heq => hne ?_) List.nodup_range)
    rw [List.mem_range] at hj hk
    omega
  intro x hx hsame
  unfold State.freeHandle at hsame
  cases hfind : List.find? (fun h => !s.dict.transfers.any (fun t => t.handle.toNat == h))
      ((List.range 9).map (fun j => (s.dict.nextHandle - 1 + j) % 65535 + 1)) with
  | some h =>
    have hfree := List.find?_some hfind
    simp only [hfind, Option.getD_some] at hsame
    simp only [Bool.not_eq_true', List.any_eq_false, beq_iff_eq] at hfree
    exact hfree x hx hsame
  | none =>
    have htaken : ∀ h ∈ (List.range 9).map (fun j => (s.dict.nextHandle - 1 + j) % 65535 + 1),
        h ∈ s.dict.transfers.map (fun t => t.handle.toNat) := by
      intro h hh
      have := List.find?_eq_none.mp hfind h hh
      simpa using this
    have hlen := hnodup.length_le_of_subset htaken
    simp only [List.length_map, List.length_range] at hlen
    omega

theorem State.freeHandle_ne_zero (s : State) : BitVec.ofNat 16 s.freeHandle ≠ 0 := by
  obtain ⟨hle, hpos⟩ := s.freeHandle_le
  intro hzero
  have := congrArg BitVec.toNat hzero
  rw [BitVec.toNat_ofNat, Nat.mod_eq_of_lt (by omega)] at this
  simp at this
  omega

theorem State.handle_ne_freeHandle {s : State} (hroom : s.dict.transfers.length < 8) {x : Transfer} (hx : x ∈ s.dict.transfers) :
    x.handle ≠ BitVec.ofNat 16 s.freeHandle := by
  obtain ⟨hle, -⟩ := s.freeHandle_le
  rintro hsame
  refine State.freeHandle_free hroom x hx ?_
  rw [hsame, BitVec.toNat_ofNat, Nat.mod_eq_of_lt (by omega)]

/-- Settles O11: the handle is `freeHandle`. -/
theorem initOpensATransfer : Obligations.InitOpensATransfer := by
  unfold Obligations.InitOpensATransfer
  intro s acc index sub r hserves hpath hroom
  refine ⟨fun hcheck hpool => ?upload, fun size hcheck hsize hother hsched hpkg hfw => ?download⟩
  case upload =>
    refine ⟨BitVec.ofNat 16 s.freeHandle, s.freeHandle % 65535 + 1, s.freeHandle_ne_zero, fun x hx => State.handle_ne_freeHandle hroom hx, ?_⟩
    have hfits : ¬ (8 ≤ s.dict.transfers.length ∨ snapshotPool < ((s.dict.transfers.filter (fun t => t.upload)).map (fun t => t.size)).sum +
        (s.bytesOf r index.toNat sub.toNat).length) := by
      simp only [snapshotPool]
      omega
    simp only [exec, execInitUpload, Objects.initUpload, hserves, hpath, hcheck]
    rw [if_neg (by simp), if_neg (by simp), if_neg hfits]
    rfl
  case download =>
    refine ⟨BitVec.ofNat 16 s.freeHandle, s.freeHandle % 65535 + 1, s.freeHandle_ne_zero, fun x hx => State.handle_ne_freeHandle hroom hx, ?_⟩
    have hnone : s.dict.transfers.any (fun t => !t.upload && t.key == objKey index.toNat sub.toNat) = false := by
      rw [List.any_eq_false]
      intro x hx
      rcases hother x hx with hup | hkey
      · simp [hup]
      · simp [hkey]
    have hplain : Objects.beginDownload acc index.toNat sub.toNat s = .ok s := by
      have hsched' : index.toNat ≠ 0x1401 := fun h => hsched (BitVec.eq_of_toNat_eq h)
      have hpkg' : index.toNat ≠ 0x1920 := fun h => hpkg (BitVec.eq_of_toNat_eq h)
      simp [Objects.beginDownload, hsched', hpkg', hfw]
    simp only [exec, execInitDownload, Objects.initDownload, hserves, hpath, hcheck, hnone, hplain]
    rw [if_neg (by simp), if_neg (by simp), if_neg (by omega), if_neg (by simp), if_neg (by omega)]
    rfl

/-! ## Segments -/

theorem State.handle_of_transferOf {s : State} {acc : Access} {i sub : Nat} {xfer : BitVec 16} {t : Transfer}
    (h : s.transferOf acc i sub xfer = some t) : t.handle = xfer := by
  have := List.find?_some h
  simp only [Bool.and_eq_true, beq_iff_eq] at this
  exact this.1.1

section
variable {s : State} {acc : Access} {index : BitVec 16} {sub : BitVec 8} {xfer : BitVec 16} {arg : BitVec 32} {data : List Byte}
  {r : ObjRow} {t : Transfer}

/-- A segment that names an open transfer of its requester, with the rights it needs. -/
structure MovesTransfer (s : State) (acc : Access) (index : BitVec 16) (sub : BitVec 8) (xfer : BitVec 16) (r : ObjRow) (t : Transfer) : Prop where
  serves : s.serves acc = true
  path : servicePath acc.path = false
  head : s.checkHead acc index.toNat sub.toNat = .ok r
  names : s.transferOf acc index.toNat sub.toNat xfer = some t
  rest : s.checkRest acc index.toNat sub.toNat (if t.upload then .upload else .download) 0 r = .ok ()

theorem exec_segment (h : MovesTransfer s acc index sub xfer r t) : exec (.segment acc index sub xfer arg data) s = .next (
    if arg.toNat % 65536 = t.next % 65536 then
      (if t.upload then s.uploadNext acc index.toNat sub.toNat (arg.toNat % 65536) t
       else if data.length < arg.toNat / 65536 % 2048 then s.abortRequest acc 5 index.toNat sub.toNat xfer .length
       else s.downloadNext acc index.toNat sub.toNat (arg.toNat % 65536) (arg.getLsbD 31) (data.take (arg.toNat / 65536 % 2048)) t)
    else if t.next ≠ 0 ∧ arg.toNat % 65536 = (t.next - 1) % 65536 then
      (s.setTransfer { t with at_ := s.now }).respond acc 5 index.toNat sub.toNat (Reply.done 9 xfer (leAt t.last 0 4) (t.last.drop 4))
    else (s.endTransfer t .sequence).abortRequest acc 5 index.toNat sub.toNat xfer .sequence) := by
  simp only [exec, execSegment, Objects.segment, h.serves, h.path, h.head, h.names, h.rest]
  rw [if_neg (by simp), if_neg (by simp)]

/-- The next segment of an upload. -/
theorem exec_segment_upload (h : MovesTransfer s acc index sub xfer r t) (hup : t.upload = true) (hseq : arg.toNat % 65536 = t.next)
    (_hnext : t.next < 65536) :
    exec (.segment acc index sub xfer arg data) s = .next (s.uploadNext acc index.toNat sub.toNat t.next t) := by
  rw [exec_segment h, if_pos (by omega), if_pos hup, hseq]

/-- The next segment of a download that brings all of its bytes. -/
theorem exec_segment_download (h : MovesTransfer s acc index sub xfer r t) (hup : t.upload = false) (hseq : arg.toNat % 65536 = t.next)
    (_hnext : t.next < 65536) (hdata : arg.toNat / 65536 % 2048 ≤ data.length) :
    exec (.segment acc index sub xfer arg data) s = .next (s.downloadNext acc index.toNat sub.toNat t.next (arg.getLsbD 31)
      (data.take (arg.toNat / 65536 % 2048)) t) := by
  rw [exec_segment h, if_pos (by omega), if_neg (by simp [hup]), if_neg (by omega), hseq]

theorem State.downloadNext_of_size {i sub seq : Nat} {last : Bool} {bs : List Byte} (hsome : 0 < bs.length) (hmost : bs.length ≤ 1024) :
    s.downloadNext acc i sub seq last bs t =
      if t.size < (t.bytes ++ bs).length ∨ (last ∧ (t.bytes ++ bs).length ≠ t.size) then
        (s.endTransfer t .length).abortRequest acc 5 i sub t.handle .length
      else if last then
        match Objects.take i sub (t.bytes ++ bs) (s.closeTransfer t) with
        | .error a => (s.endTransfer t a).abortRequest acc 5 i sub t.handle a
        | .ok s1 => (s1.unspoilt (objKey i sub)).respond acc 5 i sub (Reply.done 9 t.handle (segmentArg seq 0 last) [])
      else (s.setTransfer { t with bytes := t.bytes ++ bs, next := t.next + 1, last := leBytes 4 (segmentArg seq 0 last), at_ := s.now }).respond
        acc 5 i sub (Reply.done 9 t.handle (segmentArg seq 0 last) []) := by
  have hbytes : ¬ (bs.isEmpty ∨ 1024 < bs.length) := by
    simp only [List.isEmpty_iff_length_eq_zero]
    omega
  simp only [State.downloadNext]
  rw [if_neg hbytes] <;> rfl

end

/-- Of a transfer that ends nothing stays but the cause; an upload has no load that fails with it (R445, R446). -/
theorem State.endTransfer_upload {s : State} {t : Transfer} (a : Abort) (hup : t.upload = true) : s.endTransfer t a =
    { s with dict := { s.dict with transfers := s.dict.transfers.filter (fun x => x.handle != t.handle)
                                   ended := some (t.handle, BitVec.ofNat 32 a.code) } } := by
  simp [State.endTransfer, State.transferLost, State.imageLost, hup, State.closeTransfer]

/-- Settles O12: each clause is a branch of SEGMENT, of ABORT, or of the timeout. -/
theorem segmentsMoveTransfers : Obligations.SegmentsMoveTransfers := by
  unfold Obligations.SegmentsMoveTransfers
  intro s acc index sub xfer arg data r t hserves hpath hhead hnames hrest
  have h : MovesTransfer s acc index sub xfer r t := ⟨hserves, hpath, hhead, hnames, hrest⟩
  obtain rfl := State.handle_of_transferOf hnames
  refine ⟨fun hup hseq hnext hmore => ?uploadMore, fun hup hseq hnext hend => ?uploadLast,
    fun hup hseq hnext hmore hsome hmost hdata hfits => ?downloadMore, fun hup hseq hnext hlast hsome hmost hdata => ?downloadLast,
    fun hnext hrepeat => ?repeated, fun hnext hne hne' => ?outOfSequence, fun code => ?abort, fun hfind => ?timeout,
    fun a hup => State.endTransfer_upload a hup⟩
  case uploadMore =>
    rw [exec_segment_upload h hup hseq hnext]
    simp only [State.uploadNext, decide_eq_false (Nat.not_le.mpr hmore)]
    rfl
  case uploadLast =>
    rw [exec_segment_upload h hup hseq hnext]
    simp only [State.uploadNext, decide_eq_true hend]
    rfl
  case downloadMore =>
    have hlen : (data.take (arg.toNat / 65536 % 2048)).length = arg.toNat / 65536 % 2048 := by simp [hdata]
    have harg : segmentArg t.next 0 false = t.next := by simp [segmentArg]
    rw [exec_segment_download h hup hseq hnext hdata, State.downloadNext_of_size (by omega) (by omega), hmore, harg,
      if_neg (by simp only [List.length_append, hlen]; simp; omega), if_neg (by simp)]
  case downloadLast =>
    have hlen : (data.take (arg.toNat / 65536 % 2048)).length = arg.toNat / 65536 % 2048 := by simp [hdata]
    rw [exec_segment_download h hup hseq hnext hdata, State.downloadNext_of_size (by omega) (by omega), hlast]
    refine ⟨fun hsize u htake => ?_, fun hsize => ?_⟩
    · rw [if_neg (by simp only [List.length_append, hlen]; simp; omega), if_pos rfl, htake]
    · rw [if_pos (by simp only [List.length_append, hlen]; simp; omega)]
  case repeated => rw [exec_segment h, if_neg (by omega), if_pos (by omega)]
  case outOfSequence => rw [exec_segment h, if_neg (by omega), if_neg (by omega)]
  case abort =>
    simp only [exec, execTransferAbort, Objects.abortTransfer, hserves, hpath, hhead, hnames]
    rfl
  case timeout =>
    have hruns : (s.bootRuns || s.firmwareRuns) = true := by
      simp only [State.serves, State.servesNow, State.servesPath, Bool.and_eq_true] at hserves
      exact hserves.1.1.1
    simp [exec, execTransferTimeoutExpire, Objects.transferExpire, hfind, hruns]

/-! ## Clears -/

/-- A write that its object takes, of an effect that stores one value whatever was written. -/
theorem State.serveKey_stores {s t : State} {acc : Access} {k : Nat} {r : ObjRow} {v : Val} {eff : Effect} (hmay : s.MayWrite acc k r)
    (heff : eff s = .ok t) : s.serveKey acc k v (fun _ => eff) = t.written acc k r.ty :=
  State.serveKey_next hmay heff

/-- Settles O13: each clear is a write whose effect stores the value that clears. -/
theorem clearsSetTheirCountersToZero : Obligations.ClearsSetTheirCountersToZero := by
  unfold Obligations.ClearsSetTheirCountersToZero
  intro s acc n m r
  have hclear {k : Nat} (hmay : s.MayWrite acc k r) : s.serveClear acc k = (s.setObj k 0).written acc k r.ty :=
    State.serveKey_stores hmay rfl
  have hnext {t u : State} (h : t = u) : (Host.Outcome.next t : Host.Outcome State Fault Refusal) = .next u := congrArg _ h
  refine ⟨fun h => hnext (State.serveKey_stores h rfl), fun h => hnext (hclear h), fun h => hnext (hclear h), fun h => hnext (hclear h),
    fun h => hnext (hclear h), fun h => hnext (hclear h), fun h => hnext (hclear h), fun h hsock => hnext ?sockStat,
    fun h => hnext (hclear h), fun h => hnext (hclear h), fun h => hnext (hclear h), fun h => hnext (hclear h),
    fun h => hnext (hclear h), fun h => hnext (hclear h), fun h => hnext (hclear h), fun h => hnext (hclear h)⟩
  have hpresent : ¬ s.cfg.sockets n ≤ m := by omega
  exact State.serveKey_stores h (by simp [Control.clearSockStat, hpresent])

end Sys2Proof.Machine
end

section
/-! PROOFS. Regions, rails and the supply (R463 to R472, R476). -/

namespace Sys2Proof.Machine

/-! ## Regions -/

theorem State.regionStateOf_wr (s : State) (k x : Nat) : (s.wr (.regionSt k) x).regionStateOf k = x % 8 :=
  State.rd_wr_same s (.regionSt k) x (by simp [Fld.regionSt])

/-- A region that is put to sleep is GATED. -/
theorem State.regionStateOf_regionSleep (s : State) (k : Nat) : (s.regionSleep k).regionStateOf k = 4 := by
  unfold State.regionSleep
  exact State.regionStateOf_wr _ k 4

section
variable {s : State} {acc : Access} {k : Nat} {r : ObjRow}

theorem State.accepts_of_mayWrite (h : s.MayWrite acc k r) : s.accepts acc k = true := by
  obtain ⟨hserves, hcheck⟩ := h
  simp [State.accepts, hserves, hcheck]

theorem exec_regionGate_asleep (h : s.MayWrite acc (Obj.regionCtrl k) r) (hactive : s.regionStateOf k = 2) (hmay : s.gateRefusal k = 0) :
    exec (.regionGate acc k) s = .next (((s.setObj (Obj.regionCtrl k) 1).regionSleep k).written acc (Obj.regionCtrl k) r.ty) := by
  have hgate : Region.gate k s = .ok ((s.setObj (Obj.regionCtrl k) 1).regionSleep k) := by simp [Region.gate, hactive, hmay]
  simp [exec, execRegionGate, Region.gateWrite, State.serveKey_next (eff := fun _ => Region.gate k) h hgate, hmay]

theorem exec_regionGate_refused (h : s.MayWrite acc (Obj.regionCtrl k) r) (hawake : s.regionStateOf k = 2 ∨ s.regionStateOf k = 3)
    (hmay : s.gateRefusal k ≠ 0) :
    exec (.regionGate acc k) s = .next ((s.abortRequest acc 2 (Obj.regionCtrl k / 256) (Obj.regionCtrl k % 256) 0 .inUse).wr
      (.regionRefuse k) (s.gateRefusal k)) := by
  have hgate : Region.gate k s = .error .inUse := by
    have hawake' : s.regionStateOf k ≠ 4 := by omega
    simp [Region.gate, hawake', hmay]
  simp [exec, execRegionGate, Region.gateWrite, State.serveKey_refused (eff := fun _ => Region.gate k) h hgate, State.accepts_of_mayWrite h, hmay, hawake]

theorem exec_regionWake (h : s.MayWrite acc (Obj.regionCtrl k) r) :
    exec (.regionWake acc k) s = .next (((s.setObj (Obj.regionCtrl k) 2).wake k).written acc (Obj.regionCtrl k) r.ty) :=
  congrArg Host.Outcome.next (State.serveKey_next h rfl)

theorem exec_regionReset (h : s.MayWrite acc (Obj.regionCtrl k) r) :
    exec (.regionReset acc k) s = .next ((if s.regionStateOf k ≤ 1 then s.setObj (Obj.regionCtrl k) 3
      else (s.setObj (Obj.regionCtrl k) 3).regionFall k (some (s.now + 10000))).written acc (Obj.regionCtrl k) r.ty) :=
  congrArg Host.Outcome.next (State.serveKey_next h rfl)
end

theorem State.regionStateOf_setObj_regionCtrl (s : State) (k : Nat) (v : Val) :
    (s.setObj (Obj.regionCtrl k) v).regionStateOf k = s.regionStateOf k :=
  State.rd_setObj_ne s _ _ v (by simp [Fld.regionSt, Obj.regionState, Obj.regionCtrl])

/-- A wake of a gated region is counted and begins. -/
theorem State.wake_of_gated {s : State} {k : Nat} (hgated : s.regionStateOf k = 4) (hfree : s.frozen = false) :
    (s.wake k).regionStateOf k = 3 ∧ (s.wake k).rd (.regionWakes k) = (s.rd (.regionWakes k) + 1) % 65536 ∧
    ∀ j, j ≠ Obj.regionState k → (s.wake k).obj j = s.obj j := by
  simp only [State.wake, hgated, hfree]
  refine ⟨?_, ?_, fun j hj => ?_⟩
  · exact (State.rd_wr_apart _ (.regionWakes k) (.regionSt k) _ (by simp [Fld.regionWakes]) (by simp [Fld.regionSt])
      (by simp [Fld.regionWakes, Fld.regionSt])).trans (State.regionStateOf_wr _ k 3)
  · refine (State.rd_wr_same _ (.regionWakes k) _ (by simp [Fld.regionWakes])).trans ?_
    rw [State.rd_wr_apart _ (.regionSt k) (.regionWakes k) _ (by simp [Fld.regionSt]) (by simp [Fld.regionWakes])
      (by simp [Fld.regionWakes, Fld.regionSt])]
    exact Nat.mod_mod _ _
  · exact (State.obj_wr_ne _ (.regionWakes k) _ j hj).trans (State.obj_wr_ne _ (.regionSt k) _ j hj)

/-- Settles O14: each command is a write that its object takes, and its effect goes by the region's state. That WAKE and RESET of a
region that is not in a state for them are taken without effect is the model's choice (log entry 50). -/
theorem regionCommandsAct : Obligations.RegionCommandsAct := by
  unfold Obligations.RegionCommandsAct
  intro s acc k r h
  refine ⟨fun hactive hmay => ⟨exec_regionGate_asleep h hactive hmay, State.regionStateOf_regionSleep _ k⟩,
    fun hawake hmay => exec_regionGate_refused h hawake hmay, fun hk hgated hfree => ⟨_, exec_regionWake h, ?wake⟩, fun hgated => ?noWake,
    fun hup => ?reset, fun hdown => ?noReset⟩
  case wake =>
    have hkey (j : Nat) (hj : j = Obj.regionCtrl k) : j ≠ Obj.regionState k := by simp only [Obj.regionCtrl, Obj.regionState] at *; omega
    have hfree' : (s.setObj (Obj.regionCtrl k) 2).frozen = false := by
      rw [← hfree]
      simp only [State.frozen]
      rw [State.rd_setObj_ne s _ _ _ (by simp only [Fld.freezeState, Obj.freezeState, Obj.regionCtrl]; omega)]
    obtain ⟨hst, hwakes, hobj⟩ := State.wake_of_gated ((State.regionStateOf_setObj_regionCtrl s k 2).trans hgated) hfree'
    refine ⟨hst, ?_, ?_, fun j hctrl hstate => ?_⟩
    · rw [hwakes, State.rd_setObj_ne _ _ _ _ (by simp [Fld.regionWakes, Obj.regionCtrl, Obj.regionState])]
    · rw [hobj _ (hkey _ rfl), State.obj_setObj_same]
    · rw [hobj j hstate, State.obj_setObj_ne _ _ hctrl]
  case noWake => rw [exec_regionWake h, State.wake, if_pos (fun h => hgated ((State.regionStateOf_setObj_regionCtrl s k 2).symm.trans h))]
  case reset => rw [exec_regionReset h, if_neg (by omega)]
  case noReset => rw [exec_regionReset h, if_pos hdown]

/-- Settles O15: each is the branch of its command that the hypotheses name. -/
theorem regionsComeAndGoByThemselves : Obligations.RegionsComeAndGoByThemselves := by
  unfold Obligations.RegionsComeAndGoByThemselves
  intro s k hrunning hk
  have hbuilt : ¬ s.cfg.regions ≤ k := by omega
  refine ⟨fun hreset hstarted hrail hup => ⟨_, rfl, ?release⟩, fun hwaking => ?wake, fun hactive hauto hwarn hsafe a ha => ?idle⟩
  case release =>
    have hheld : ¬ (s.pwr.railHeld.contains k = true ∧ s.pwr.below.contains k = true) := fun ⟨hheld, hbelow⟩ => by
      rw [hrail hheld] at hbelow
      cases hbelow
    simp only [exec, execRegionResetRelease, Region.release, hreset, hstarted, hheld, hup, hrunning, hbuilt]
    rfl
  case wake => simp [exec, execRegionWakeComplete, Region.wakeComplete, hwaking, hbuilt]
  case idle =>
    have hexec : exec (.autoGateIdleExpire k) s = .next (if a.gateRefusal k = 0 then a.regionSleep k else a.noteRefusal k) := by
      subst ha
      simp [exec, execAutoGateIdleExpire, Region.autoGate, hauto, hwarn, hsafe, hrunning, hactive, hbuilt]
    refine ⟨fun hmay => ⟨by rw [hexec, if_pos hmay], State.regionStateOf_regionSleep a k⟩, fun hmay hactive' => ?_⟩
    rw [hexec, if_neg hmay, State.noteRefusal, if_pos (Or.inl hactive')]

/-! ## Rails -/

theorem exec_railTargetWrite (acc : Access) (k : Nat) (v : BitVec 16) (s : State) :
    exec (.railTargetWrite acc k v) s = .next (s.serveKey acc (Obj.railTarget k) (v.setWidth 64) (Rail.setTarget k)) := rfl

theorem exec_railAppliedWrite (acc : Access) (k : Nat) (v : BitVec 16) (s : State) :
    exec (.railAppliedWrite acc k v) s = .next (s.serveKey acc (Obj.railApplied k) (v.setWidth 64) (Rail.setApplied k)) := rfl

/-- Settles O16: the writes are accepted or refused by their range, and the time of the difference is a cell of a table. -/
theorem railsAreAskedForAndWatched : Obligations.RailsAreAskedForAndWatched := by
  unfold Obligations.RailsAreAskedForAndWatched
  intro s acc k v r
  refine ⟨fun h hlow hhigh => ?inRange, fun h hout => ?outOfRange, fun h => ?applied, ?differ, fun since hsince hrunning => ?timeout⟩
  case inRange => rw [exec_railTargetWrite, State.serveKey_next h (if_neg (by omega))]
  case outOfRange => rw [exec_railTargetWrite, State.serveKey_refused h (if_pos hout)]
  case applied => rw [exec_railAppliedWrite, State.serveKey_next h rfl]
  case differ => simp [State.railNote]
  case timeout =>
    refine ⟨_, rfl, ?_, ?_⟩ <;> simp only [Rail.timeout, hsince, hrunning]
    · exact Tbl.get_set_same 0 _ k 0
    · rfl

/-! ## What a record changes -/

/-- The objects in which the recorder, the trace store and a freeze leave their marks. -/
def Obj.isNote (k : Nat) : Bool := [Obj.recLost, Obj.faultStatus 9, Obj.traceStatus, Obj.traceLoss, Obj.freezeState].contains k

section
variable {k : Nat} (hk : Obj.isNote k = false)
include hk

theorem State.obj_wr_note (s : State) {f : Fld} (x : Nat) (hf : Obj.isNote f.key = true) : (s.wr f x).obj k = s.obj k :=
  State.obj_wr_ne s f x k (by rintro rfl; rw [hf] at hk; cases hk)

theorem State.obj_setObj_note (s : State) {j : Nat} (v : Val) (hj : Obj.isNote j = true) : (s.setObj j v).obj k = s.obj k :=
  State.obj_setObj_ne s v (by rintro rfl; rw [hj] at hk; cases hk)

theorem State.obj_traceAdvance (s : State) (i : Nat) : (s.traceAdvance i).obj k = s.obj k := by
  unfold State.traceAdvance State.bumpWrap
  split
  · rw [State.obj_wr_note hk _ _ rfl, State.obj_wr_note hk _ _ rfl]
  · rw [State.obj_wr_note hk _ _ rfl]

theorem State.obj_traceCountDown (s : State) : s.traceCountDown.obj k = s.obj k := by
  unfold State.traceCountDown
  extract_lets s1
  split
  · rw [State.obj_wr_note hk _ _ rfl]; rfl
  · rfl

theorem State.obj_traceWrite (s : State) (r : TraceRec) : (s.traceWrite r).obj k = s.obj k := by
  unfold State.traceWrite
  extract_lets st i s1 s2
  have h1 : s1.obj k = s.obj k := by
    unfold s1
    split
    · exact State.obj_wr_note hk _ _ rfl
    · rfl
  have h2 : s2.obj k = s.obj k := (State.obj_traceAdvance hk _ i).trans h1
  split
  · rfl
  · split
    · exact State.obj_wr_note hk _ _ rfl
    · split
      · exact (State.obj_traceCountDown hk s2).trans h2
      · exact h2

theorem State.obj_traceFire (s : State) (arg0 : Nat) : (s.traceFire arg0).obj k = s.obj k := by
  unfold State.traceFire
  extract_lets st t s1 o s2
  have h1 : s1.obj k = s.obj k := (State.obj_wr_note hk _ _ rfl).trans (State.obj_wr_note hk _ _ rfl)
  split
  · rfl
  · split
    · exact State.obj_traceWrite hk _ _
    · exact (State.obj_traceWrite hk s2 _).trans h1

theorem State.obj_freezeBegin (s : State) (state cause : Nat) : (s.freezeBegin state cause).obj k = s.obj k := by
  unfold State.freezeBegin
  extract_lets s1 o s2 s3
  have h1 : s1.obj k = s.obj k := (State.obj_wr_note hk _ _ rfl).trans (State.obj_wr_note hk _ _ rfl)
  have h3 : s3.obj k = s.obj k := by
    unfold s3
    split
    · exact (State.obj_traceWrite hk _ _).trans h1
    · exact h1
  split
  · exact (State.obj_wr_note hk _ _ rfl).trans (State.obj_wr_note hk _ _ rfl)
  · split
    · exact (State.obj_traceFire hk _ _).trans h3
    · exact h3

/-- What the severity of a raise without a ward brings changes no other object. -/
theorem State.obj_actOn_wardless {put : State → EventRec → Bool → State} {c : Cause} (hward : c.ward = none)
    (hput : ∀ t r b, (put t r b).obj k = t.obj k) (s : State) (sev : Nat) : (State.actOn put s c sev).obj k = s.obj k := by
  unfold State.actOn
  extract_lets note s1 s2 s3 s4
  have h1 : s1.obj k = s.obj k := by unfold s1; split <;> simp
  have h2 : s2.obj k = s.obj k := by unfold s2; split <;> simp [h1]
  have h3 : s3.obj k = s.obj k := by unfold s3; split <;> simp [h2, hput]
  have h4 : s4.obj k = s.obj k := by unfold s4; split <;> simp [h3, State.obj_traceFire hk]
  rw [hward]
  split
  · exact h4
  · split
    · split
      · exact h4
      · rw [hput, State.obj_freezeBegin hk, h4]
    · exact h4

theorem State.obj_recordLast (s : State) (r : EventRec) (reserve : Bool) : (s.recordLast r reserve).obj k = s.obj k := by
  unfold State.recordLast
  split
  · rfl
  · exact (State.obj_wr_note hk _ _ rfl).trans (State.obj_wr_note hk _ _ rfl)

theorem State.obj_raiseRecorder (s : State) : s.raiseRecorder.obj k = s.obj k := by
  unfold State.raiseRecorder
  extract_lets c sev
  split
  · exact State.obj_wr_note hk _ _ rfl
  · exact (State.obj_actOn_wardless hk rfl (State.obj_recordLast hk) _ sev).trans (State.obj_setObj_note hk _ _ rfl)

/-- A record changes no object but those in which it is noted. -/
theorem State.obj_record (s : State) (r : EventRec) (reserve : Bool) : (s.record r reserve).obj k = s.obj k := by
  unfold State.record
  split
  · rfl
  · exact (State.obj_raiseRecorder hk _).trans (State.obj_wr_note hk _ _ rfl)
end

/-! ## The supply -/

/-- A recovered dip is counted, saturating. -/
theorem State.rd_dips_countDip (s : State) (q : Nat × Nat) : (s.countDip q).rd .dips = min (s.rd .dips + 1) 65535 := by
  unfold State.countDip
  extract_lets dwell s1
  have h1 : s1.rd .dips = min (s.rd .dips + 1) 65535 := by
    rw [State.rd_wr_apart _ .maxDwell .dips _ (by decide) (by decide) (by decide), State.rd_bump_same s .dips 1 (by decide)]
    rfl
  split
  · have hobj : ((s1.bump .longDips 1).recordEvent 0x0030 q.2 dwell false).obj Obj.supplyStat = (s1.bump .longDips 1).obj Obj.supplyStat :=
      State.obj_record (by decide) _ _ _
    have hrd := congrArg (fun v => fget v Fld.dips.lo Fld.dips.w) hobj
    exact hrd.trans ((State.rd_wr_apart s1 .longDips .dips _ (by decide) (by decide) (by decide)).trans h1)
  · exact h1

section
variable {s : State} {rail : Rail} {i : Nat} (h : s.monitor rail = some i)
include h

theorem Supply.warnEnter_of_below (hbelow : s.pwr.below.contains i = true) : Supply.warnEnter rail s = s := by
  simp only [Supply.warnEnter, h, hbelow, if_true]

theorem Supply.warnEnter_of_above (hbelow : s.pwr.below.contains i = false) {a : State}
    (ha : a = { s with pwr := { s.pwr with
      below := s.pwr.below ++ [i]
      dips := Tbl.set none s.pwr.dips i (some (s.now, ((s.pwr.below ++ [i]).map (2 ^ ·)).sum)) } }) :
    Supply.warnEnter rail s = if s.warn = false ∧ s.running = true ∧ a.coreRuns = true then a.throttle else a := by
  subst ha
  simp only [Supply.warnEnter, h, hbelow, Bool.false_eq_true, if_false, Bool.not_eq_true']
  rfl

theorem Supply.resetCross_eq (hup : s.pwr.down.contains i = false) (hbelow : s.pwr.below.contains i = true) (hrunning : s.running = true)
    {a : State} (ha : a = { s with pwr := { s.pwr with down := s.pwr.down ++ [i] } }) :
    Supply.resetCross rail s = if i = 8 then a.powerOnReset 2
      else if s.regionStateOf i ≤ 1 then ((a.clearRegionTimes i none).wr (.regionSt i) 0).setObj (Obj.paceRate i) 0
      else a.regionFall i none := by
  subst ha
  have hruns : (!({ s with pwr := { s.pwr with down := s.pwr.down ++ [i] } } : State).running) = false := by simpa [State.running] using hrunning
  simp only [Supply.resetCross, h, hup, Bool.false_eq_true, if_false, Supply.warnEnter_of_below h hbelow, hruns]
  rfl
end

theorem exec_supplyWarnEnter (rail : Rail) (s : State) : exec (.supplyWarnEnter rail) s = .next (Supply.warnEnter rail s) := rfl
theorem exec_supplyWarnExit (rail : Rail) (s : State) : exec (.supplyWarnExit rail) s = .next (Supply.warnExit rail s) := rfl
theorem exec_supplyResetCross (rail : Rail) (s : State) : exec (.supplyResetCross rail) s = .next (Supply.resetCross rail s) := rfl

/-- Settles O17. That a further warning does not throttle while WARN is high already is the model's choice (log entry 51). -/
theorem supplyDipsAreMetAndCounted : Obligations.SupplyDipsAreMetAndCounted := by
  unfold Obligations.SupplyDipsAreMetAndCounted
  intro s rail i h
  refine ⟨fun hbelow a ha => ⟨fun hwarn => ?further, fun hwarn hrunning hcore => ?first⟩,
    fun hbelow hrunning q a hq ha => ⟨?exit, ?count⟩,
    fun hup hbelow hrunning a ha => ⟨fun hdie => ?die, fun hregion hon => ?falls, fun hregion hoff => ?stays⟩⟩
  case further => rw [exec_supplyWarnEnter, Supply.warnEnter_of_above h hbelow ha, if_neg (by simp [hwarn])]
  case first => rw [exec_supplyWarnEnter, Supply.warnEnter_of_above h hbelow ha, if_pos ⟨hwarn, hrunning, hcore⟩]
  case exit =>
    have hruns : a.running = true := by rw [ha]; exact hrunning
    simp only [exec_supplyWarnExit, Supply.warnExit, h, hbelow, hq, Bool.not_true, Bool.false_eq_true, if_false, Option.getD_some, ← ha]
    rw [if_pos hruns]
  case count =>
    have hdips : a.rd .dips = s.rd .dips := State.rd_congr (by rw [ha]) .dips
    rw [State.rd_dips_countDip, hdips]
  case die => rw [exec_supplyResetCross, Supply.resetCross_eq h hup hbelow hrunning ha, if_pos hdie]
  case falls => rw [exec_supplyResetCross, Supply.resetCross_eq h hup hbelow hrunning ha, if_neg hregion, if_neg (by omega)]
  case stays => rw [exec_supplyResetCross, Supply.resetCross_eq h hup hbelow hrunning ha, if_neg hregion, if_pos hoff]

end Sys2Proof.Machine
end

section
/-! PROOFS. Control messages: refused sends, the routers, and what a core port takes (R45, R46, R204 to R217). -/

namespace Sys2Proof.Machine

/-! ## Refused sends -/

@[simp] theorem State.countEv_ctl (s : State) (ev n : Nat) (w : Option (BitVec 4)) (c : Nat) : (s.countEv ev n w c).ctl = s.ctl := by
  unfold State.countEv
  split <;> rfl

@[simp] theorem State.countEv_objs (s : State) (ev n : Nat) (w : Option (BitVec 4)) (c : Nat) : (s.countEv ev n w c).objs = s.objs := by
  unfold State.countEv
  split <;> rfl

/-- A NAK that the port's queue has room for. -/
theorem State.queueNak_of_room {s : State} {n : Nat} (m : CtlMsg) (hroom : (Tbl.get [] s.ctl.naks n).length < 32) :
    s.queueNak n m = { s with ctl := { s.ctl with naks := Tbl.set [] s.ctl.naks n (Tbl.get [] s.ctl.naks n ++ [m]) } } :=
  if_pos hroom

/-- The NAK with which the port of `n` answers an offer that it refuses (R216). -/
def State.localNak (s : State) (n : Nat) (dest : BitVec 16) (sock : BitVec 5) (kind : BitVec 2) (tag : BitVec 8) (words : List (BitVec 32))
    (r : BitVec 4) : CtlMsg :=
  ⟨true, (s.wardOf n).getD 0, kind, 0, BitVec.ofNat 8 (s.obj (Obj.portRank n)).toNat, tag, sock, s.ep n, dest, r, words⟩

/-- Settles O19: the NAK joins the port's queue, and the wires keep what they hold. -/
theorem refusedSendsAreAnsweredLocally : Obligations.RefusedSendsAreAnsweredLocally := by
  unfold Obligations.RefusedSendsAreAnsweredLocally
  intro s n dest sock kind tag words r hport hlive hmoves hinput hrefusal hroom
  obtain ⟨hrun, hactive, -⟩ := (s.moves_iff n).mp hmoves
  have hungated : s.regionStateOf (s.regionOf n) ≠ 4 := by omega
  have hexec : exec (.controlSend n dest sock kind tag words) s =
      .next (((s.queueNak n (s.localNak n dest sock kind tag words r)).countEv 0x31 n (s.wardOf n) 1).touch n) := by
    rw [exec_controlSend]
    simp [Control.send, hport, hlive, hrun, hungated, hmoves, hinput, hrefusal, State.localNak]
  refine ⟨_, s.localNak n dest sock kind tag words r, hexec, rfl, rfl, rfl, rfl, ?_, ?_, ?_⟩ <;> simp [State.queueNak_of_room _ hroom]

/-! ## The code of a control flit (R84, R204) -/

/-- The positions of the 72 data bits of a control flit differ from one another. -/
theorem Hamming.pos_inj {b c : Nat} (hb : b < 72) (hc : c < 72) (h : Hamming.pos 72 7 b = Hamming.pos 72 7 c) : b = c := by
  have hall : ∀ b < 72, ∀ c < 72, Hamming.pos 72 7 b = Hamming.pos 72 7 c → b = c := by decide +kernel
  exact hall b hb c hc h

theorem Hamming.decode_nil (d c : Nat) : Hamming.decode d c [] = ⟨false, none, []⟩ := rfl

/-- One wrong data bit of a control flit is corrected. -/
theorem Hamming.decode_one {b : Nat} (hb : b < 72) : Hamming.decode 72 7 [b] = ⟨false, some b, []⟩ := by
  have hall : ∀ b < 72, Hamming.decode 72 7 [b] = ⟨false, some b, []⟩ := by decide +kernel
  exact hall b hb

theorem eq_of_xor_eq_zero {x y : Nat} (h : x ^^^ y = 0) : x = y := by
  have hback := congrArg (· ^^^ y) h
  simpa [Nat.xor_assoc] using hback

/-- Two wrong bits at different positions make the syndrome not 0 and leave the parity even. -/
theorem Hamming.decode_two {d c a b : Nat} (hne : a ≠ b) (hpos : Hamming.pos d c a ≠ Hamming.pos d c b) :
    Hamming.decode d c [a, b] = ⟨true, none, []⟩ := by
  have hnet : [a, b].foldl (fun l b => toggle b l) [] = [b, a] := by simp [toggle, hne.symm]
  have hsyn : Hamming.pos d c b ^^^ Hamming.pos d c a ≠ 0 := fun h => hpos (eq_of_xor_eq_zero h).symm
  simp only [Hamming.decode, hnet]
  simp [hsyn]

/-! ## The routers -/

/-- A flit arrives at a junction where handshakes pass, with no injection armed at its checker. -/
theorem exec_controlFlitArrive {s : State} {n i : Nat} {w : BitVec 80} {rest : List (BitVec 80)} (flips : List Nat)
    (hmoves : s.moves n = true) (hwire : Tbl.get [] s.ctl.wire (8 * n + i) = w :: rest)
    (hinj : s.injectedAt 0x04 n (min i 6) 0x3F = false) :
    exec (.controlFlitArrive n i flips) s = .next (
      let t := ({ s with ctl := { s.ctl with wire := Tbl.set [] s.ctl.wire (8 * n + i) rest } } : State).touch n
      (if (Hamming.decode 72 7 flips).bad then t.loseCtlFlit n i false
       else t.takeCtlFlit (8 * n + i) (flipBits (w.extractLsb' 0 72) (Hamming.decode 72 7 flips).wrong)).ctlRefill (8 * n + i)) := by
  obtain ⟨-, hactive, -⟩ := (s.moves_iff n).mp hmoves
  have hungated : s.regionStateOf (s.regionOf n) ≠ 4 := by omega
  simp [exec, execControlFlitArrive, Control.flitArrive, hwire, hungated, hmoves, hinj]

/-- What follows the passing of a message from input `i`: a bridge's input takes what the bridge has brought, and the block's own
commands act. -/
def State.afterPass (s : State) (n i : Nat) (x : State) : State :=
  ((if i = 5 ∧ s.cfg.bKind n = 4 then x.landCtl (s.cfg.bIndex n) else x).takeCommands n).tileCommands

theorem exec_controlMessageForward {s : State} {n o i : Nat} {m : CtlMsg} (hmoves : s.moves n = true) (hpick : s.ctlPick n o = some (i, m)) :
    exec (.controlMessageForward n o) s = .next (s.afterPass n i (s.ctlPass n o i m)) := by
  simp [exec, execControlMessageForward, Control.forward, hmoves, hpick, State.afterPass]

section
variable {s : State} {n o i : Nat} {m : CtlMsg}

/-- A message bound for a router that is up goes there when the input has room, and stays otherwise. -/
theorem State.ctlPass_mesh {p n' : Nat} (hroute : s.ctlRouteOf n m = .mesh p) (hneighbour : s.cfg.neighbour n p = some n')
    (hactive : s.junctionActive n' = true) (hlost : s.junctionLost n' = false) :
    s.ctlPass n o i m =
      if s.inputRoom (8 * n' + facing p) then ((s.ctlTake n o i m).ctlSend n' (facing p) m).touch n else s := by
  simp [State.ctlPass, hroute, hneighbour, hactive, hlost]

/-- A message for a local number that is no bridge's arrives there. -/
theorem State.ctlPass_here {out num : Nat} (hroute : s.ctlRouteOf n m = .here out num) (hnum : num < 0xB0 ∨ 0xB4 ≤ num) :
    s.ctlPass n o i m = ((s.ctlTake n o i m).touch n).ctlArrive num m := by
  have hbridge : ¬ (0xB0 ≤ num ∧ num < 0xB4) := by omega
  simp only [State.ctlPass, hroute, if_neg hbridge]

/-- A message for a bridge goes into its control group flit by flit. -/
theorem State.ctlPass_bridge {out b : Nat} (hroute : s.ctlRouteOf n m = .here out (0xB0 + b)) (hb : b < 4)
    (hcarries : s.groupCarries b 3 = true) (hroom : s.groupRoom b 3 = true) :
    s.ctlPass n o i m = m.flits.foldl (fun (x : State) f => x.bridgeRecord b 3 ([1] ++ leBytes 9 f.toNat))
      ((s.ctlTake n o i m).touch n) := by
  have hbridge : 0xB0 ≤ 0xB0 + b ∧ 0xB0 + b < 0xB4 := by omega
  simp only [State.ctlPass, hroute, if_pos hbridge, Nat.add_sub_cancel_left, hcarries, hroom, Bool.not_true, Bool.false_eq_true, if_false,
    if_true]
end

/-- A message that its endpoint takes waits there after those that came before it. -/
theorem State.ctlArrive_taken {s : State} {num : Nat} {m : CtlMsg} (h : m.nak = false ∨ takesNaks num = true) :
    Tbl.get [] (s.ctlArrive num m).ctl.arrived num = Tbl.get [] s.ctl.arrived num ++ [m] ∧ (s.ctlArrive num m).objs = s.objs := by
  have htaken : ¬ (m.nak && !takesNaks num) = true := by rcases h with h | h <;> simp [h]
  rw [State.ctlArrive, if_neg htaken]
  exact ⟨Tbl.get_upd_same [] s.ctl.arrived num (· ++ [m]), rfl⟩

/-- Settles O20: a flit goes by what its decoder makes of the wrong bits, a message by the route of its destination. -/
theorem controlMessagesTravel : Obligations.ControlMessagesTravel := by
  unfold Obligations.ControlMessagesTravel
  intro s n hmoves
  refine ⟨fun i w rest hwire hinj => ?clean, fun i w rest b c hwire hinj hb hc hne => ⟨?corrected, ?lost⟩,
    fun after hafter => ⟨fun o i m p n' hpick hroute hneighbour hactive hlost => ⟨fun hroom => ?passed, fun hroom => ?stays⟩,
      fun o i m out num hpick hroute hnum => ?arrives, fun o i m out b hpick hroute hb hcarries hroom => ?bridge⟩,
    fun num m htaken => State.ctlArrive_taken htaken⟩
  case clean =>
    rw [exec_controlFlitArrive [] hmoves hwire hinj, Hamming.decode_nil]
    rfl
  case corrected => rw [exec_controlFlitArrive [b] hmoves hwire hinj, exec_controlFlitArrive [] hmoves hwire hinj, Hamming.decode_one hb,
      Hamming.decode_nil]
  case lost =>
    rw [exec_controlFlitArrive [b, c] hmoves hwire hinj, Hamming.decode_two hne (fun h => hne (Hamming.pos_inj hb hc h))]
    rfl
  case passed => rw [exec_controlMessageForward hmoves hpick, State.ctlPass_mesh hroute hneighbour hactive hlost, if_pos hroom, hafter]; rfl
  case stays =>
    rw [exec_controlMessageForward hmoves hpick, State.ctlPass_mesh hroute hneighbour hactive hlost, hroom, if_neg (by decide), hafter]
    rfl
  case arrives => rw [exec_controlMessageForward hmoves hpick, State.ctlPass_here hroute hnum, hafter]; rfl
  case bridge => rw [exec_controlMessageForward hmoves hpick, State.ctlPass_bridge hroute hb hcarries hroom, hafter]; rfl

/-! ## Routes -/

/-- The junction in row `q` and column `r`. -/
theorem Integration.place {c : Integration} {q r : Nat} (hq : q < c.rows) (hr : r < c.cols) :
    c.cols * q + r < c.njs ∧ (c.cols * q + r) / c.cols = q ∧ (c.cols * q + r) % c.cols = r := by
  have hrow : c.cols * q + c.cols ≤ c.njs := by
    simpa [Integration.njs, Nat.mul_add] using Nat.mul_le_mul_left c.cols (Nat.succ_le_of_lt hq)
  refine ⟨by omega, ?_, ?_⟩
  · rw [Nat.mul_add_div (by omega), Nat.div_eq_of_lt hr, Nat.add_zero]
  · rw [Nat.mul_add_mod, Nat.mod_eq_of_lt hr]

/-- Settles O21: one case for each direction; the order of the tests is the order of the route, row before column. -/
theorem routesComeNearer : Obligations.RoutesComeNearer := by
  unfold Obligations.RoutesComeNearer
  intro c n m hcols hn hm hne
  have hplace : c.cols * (n / c.cols) + n % c.cols = n := Nat.div_add_mod n c.cols
  have hplacem : c.cols * (m / c.cols) + m % c.cols = m := Nat.div_add_mod m c.cols
  have hrow : n / c.cols < c.rows := Nat.div_lt_of_lt_mul hn
  have hrowm : m / c.cols < c.rows := Nat.div_lt_of_lt_mul hm
  have hcol : n % c.cols < c.cols := Nat.mod_lt n hcols
  have hcolm : m % c.cols < c.cols := Nat.mod_lt m hcols
  by_cases heast : n % c.cols < m % c.cols
  · obtain ⟨hin, hdiv, hmod⟩ := Integration.place hrow (show n % c.cols + 1 < c.cols by omega)
    have hnext : c.cols * (n / c.cols) + (n % c.cols + 1) = n + 1 := by omega
    rw [hnext] at hin hdiv hmod
    refine ⟨1, n + 1, if_pos heast, if_pos (by omega), hin, ?_, fun _ => hdiv⟩
    simp only [← Int.natCast_emod, ← Int.natCast_ediv, hdiv, hmod]
    omega
  by_cases hwest : m % c.cols < n % c.cols
  · obtain ⟨hin, hdiv, hmod⟩ := Integration.place hrow (show n % c.cols - 1 < c.cols by omega)
    have hnext : c.cols * (n / c.cols) + (n % c.cols - 1) = n - 1 := by omega
    rw [hnext] at hin hdiv hmod
    refine ⟨3, n - 1, (if_neg heast).trans (if_pos hwest), if_pos (by omega), hin, ?_, fun _ => hdiv⟩
    simp only [← Int.natCast_emod, ← Int.natCast_ediv, hdiv, hmod]
    omega
  have hsame : n % c.cols = m % c.cols := by omega
  by_cases hsouth : n / c.cols < m / c.cols
  · obtain ⟨hin, hdiv, hmod⟩ := Integration.place (show n / c.cols + 1 < c.rows by omega) hcol
    have hnext : c.cols * (n / c.cols + 1) + n % c.cols = n + c.cols := by rw [Nat.mul_add]; omega
    rw [hnext] at hin hdiv hmod
    refine ⟨2, n + c.cols, (if_neg heast).trans ((if_neg hwest).trans (if_pos hsouth)), if_pos (by omega), hin, ?_, fun h => (h hsame).elim⟩
    simp only [← Int.natCast_emod, ← Int.natCast_ediv, hdiv, hmod]
    omega
  · have hnorth : m / c.cols < n / c.cols := by
      rcases Nat.lt_trichotomy (n / c.cols) (m / c.cols) with h | h | h
      · exact (hsouth h).elim
      · rw [← hplace, ← hplacem, h, hsame] at hne
        exact (hne rfl).elim
      · exact h
    obtain ⟨hin, hdiv, hmod⟩ := Integration.place (Nat.lt_of_le_of_lt (Nat.sub_le _ 1) hrow) hcol
    have hnext : c.cols * (n / c.cols - 1) + n % c.cols = n - c.cols := by
      have hpred : c.cols * (n / c.cols - 1) + c.cols = c.cols * (n / c.cols) := by
        rw [← Nat.mul_succ, Nat.succ_eq_add_one, Nat.sub_add_cancel (Nat.zero_lt_of_lt hnorth)]
      omega
    rw [hnext] at hin hdiv hmod
    refine ⟨0, n - c.cols, (if_neg heast).trans ((if_neg hwest).trans ((if_neg hsouth).trans (if_pos hnorth))), if_pos (Nat.zero_lt_of_lt hnorth), hin, ?_,
      fun h => (h hsame).elim⟩
    simp only [← Int.natCast_emod, ← Int.natCast_ediv, hdiv, hmod]
    generalize n / c.cols = q at hnorth ⊢
    generalize m / c.cols = p at hnorth ⊢
    omega

/-! ## Core ports -/

section
variable {s : State} {n : Nat}

/-- A step of a core port's adapter that offers a beat outside a freeze. -/
theorem State.offer_of_free (ch : Nat) (hfree : s.frozen = false) : s.offer ch = some s := by simp [State.offer, hfree]

/-- A message of KIND 0b00 that is no release at a core port of its own junction. -/
theorem exec_controlMessageDeliver {m : CtlMsg} (hmoves : s.moves n = true) (hn : n < 0x78) (harrived : s.arrivedAt n = some m)
    (hep : s.cfg.endpointJunction n = some n) (hnak : m.nak = false) (hkind : m.kind = 0) (hrelease : m.isRelease = false) :
    exec (.controlMessageDeliver n) s = .next ((s.portDeliver n m).touch n) := by
  have hlocal : ¬ 0x200 ≤ n := by omega
  simp [exec, execControlMessageDeliver, Control.deliver, harrived, hep, hmoves, hnak, hlocal, hn, hkind, hrelease]

theorem exec_nakDeliver {m : CtlMsg} (hmoves : s.moves n = true) (harrived : s.arrivedAt n = some m) (hnak : m.nak = true)
    (hheld : s.adapterHeld n .a = false) : exec (.nakDeliver n) s = .next (((s.arrivedDone n).queueNak n m).touch n) := by
  simp [exec, execNakDeliver, Control.nakDeliver, harrived, hnak, hmoves, hheld]

theorem exec_cnHandshake {m : CtlMsg} {rest : List CtlMsg} (hrunning : s.running = true) (hlive : s.adapterLive n .a = true)
    (hactive : s.junctionActive n = true) (hfree : s.frozen = false) (hnaks : Tbl.get [] s.ctl.naks n = m :: rest) :
    exec (.cnHandshake n) s = .next ((({ s with ctl := { s.ctl with naks := Tbl.set [] s.ctl.naks n rest } } : State).emit
      (.cn n m.tag m.dest m.reason)).touch n) := by
  simp [exec, execCnHandshake, Control.cnHandshake, hnaks, hrunning, hlive, hactive, State.offer_of_free _ hfree]

/-- The store of the socket reads its word without an error. -/
theorem State.storeDecode_clean {k d c : Nat} (hinj : s.storeInjected n k = false) : s.storeDecode n k d c [] = ⟨false, none, []⟩ := by
  simp [State.storeDecode, hinj, Hamming.decode_nil]

theorem State.storeRead_clean {k d c : Nat} (hinj : s.storeInjected n k = false) : s.storeRead n k d c [] = s := by
  simp [State.storeRead, hinj, State.storeDecode_clean hinj]

/-- The socket with the ring given. -/
def State.withRing (s : State) (n k : Nat) (ring : List RingItem) : State := s.setSock n k { s.sock n k with ring := ring }

theorem State.retryHeld_of_none {k : Nat} (hheld : (s.sock n k).held = none) : s.retryHeld n k = s := by simp [State.retryHeld, hheld]

theorem State.sock_setSock_same (k : Nat) (x : Sock) : (s.setSock n k x).sock n k = x := Tbl.get_set_same _ _ _ x

/-- The core pops a word of a message, whose damage nothing reports. -/
theorem exec_socketPop {k a popped : Nat} {src : BitVec 16} {ws : List (BitVec 32)} {rest : List RingItem} (hrunning : s.running = true)
    (hlive : s.adapterLive n .a = true) (hactive : s.junctionActive n = true) (hfree : s.frozen = false) (hk : k < s.cfg.sockets n)
    (hring : (s.sock n k).ring = .msg a src ws popped :: rest) (hinj : s.storeInjected n 2 = false) (hheld : (s.sock n k).held = none) :
    exec (.socketPop n k) s = .next (((s.withRing n k
      (if popped + 1 = ws.length then ringSkip rest else .msg a src ws (popped + 1) :: rest)).emit
        (.sk n k (ws.getD popped 0) (popped == 0) (popped + 1 = ws.length) src)).touch n) := by
  have hport : ¬ s.cfg.sockets n ≤ k := by omega
  have hkept (ring : List RingItem) (e : Emission) : ((s.withRing n k ring).emit e).retryHeld n k = (s.withRing n k ring).emit e :=
    State.retryHeld_of_none (by
      have hsock : ((s.withRing n k ring).emit e).sock n k = { s.sock n k with ring := ring } := State.sock_setSock_same k _
      rw [hsock, hheld])
  have hread : s.storeRead n 2 32 6 [] = s := State.storeRead_clean hinj
  have hring' : (if popped + 1 = ws.length then { s.sock n k with ring := ringSkip rest }
      else { s.sock n k with ring := .msg a src ws (popped + 1) :: rest } : Sock) =
      { s.sock n k with ring := if popped + 1 = ws.length then ringSkip rest else .msg a src ws (popped + 1) :: rest } := by
    split <;> rfl
  simp only [exec, execSocketPop, Control.pop, hrunning, hlive, hactive, hport, hring, State.offer_of_free _ hfree, hread,
    State.storeDecode_clean hinj]
  rw [← hkept, State.withRing, ← hring']
  rfl
end

/-- Settles O22: each clause is one step of the port, in the state its hypotheses name. -/
theorem corePortsTakeMessages : Obligations.CorePortsTakeMessages := by
  unfold Obligations.CorePortsTakeMessages
  intro s n
  refine ⟨fun m x hmoves hn harrived hep hnak hkind hrelease hrefusal hinj hstore => ?stored,
    fun m r hmoves hn harrived hep hnak hkind hrelease hrefusal => ?refused,
    fun m hmoves harrived hnak hheld hroom => ⟨_, exec_nakDeliver hmoves harrived hnak hheld, ?nak⟩,
    fun m rest hrunning hlive hactive hfree hnaks => ⟨_, exec_cnHandshake hrunning hlive hactive hfree hnaks, Tbl.get_set_same [] _ n rest,
      rfl, rfl⟩,
    fun k a src w ws popped rest hrunning hlive hactive hfree hk hring hpopped hinj hheld =>
      ⟨_, exec_socketPop hrunning hlive hactive hfree hk hring hinj hheld, ?popped⟩,
    fun k a src ws popped rest hrunning hlive hactive hfree hk hring hpopped hinj hheld =>
      ⟨_, exec_socketPop hrunning hlive hactive hfree hk hring hinj hheld, ?poppedLast⟩⟩
  case stored =>
    have hafter : (s.arrivedDone n).afterOuter n 4 = s.arrivedDone n := if_neg (by
      have hsame : (s.arrivedDone n).injectedAt 0x05 n 4 0x3F = s.injectedAt 0x05 n 4 0x3F := rfl
      rw [hsame, hinj]; decide)
    have hstore' : ((s.arrivedDone n).sock n m.sock.toNat).store ((s.arrivedDone n).sockCfg n m.sock.toNat) m.src m.words = .ok x := hstore
    rw [exec_controlMessageDeliver hmoves hn harrived hep hnak hkind hrelease]
    simp only [State.portDeliver, hafter, hrefusal, State.portStore, hstore']
  case refused =>
    rw [exec_controlMessageDeliver hmoves hn harrived hep hnak hkind hrelease]
    simp only [State.portDeliver, hrefusal]
  case nak =>
    have hroom' : (Tbl.get [] (s.arrivedDone n).ctl.naks n).length < 32 := hroom
    rw [State.queueNak_of_room m hroom']
    exact ⟨Tbl.get_set_same [] _ n _, rfl, rfl⟩
  case popped =>
    have hlast : ¬ popped + 1 = (w :: ws).length := by simp only [List.length_cons]; omega
    rw [if_neg hlast]
    refine ⟨congrArg Sock.ring (State.sock_setSock_same (s := s) k _), ?_, rfl⟩
    simp [show popped ≠ ws.length by omega, State.withRing, State.setSock]
  case poppedLast =>
    rw [if_pos hpopped]
    refine ⟨congrArg Sock.ring (State.sock_setSock_same (s := s) k _), ?_, rfl⟩
    simp [hpopped, State.withRing, State.setSock]

end Sys2Proof.Machine
end

section
/-! PROOFS. An injection that is not armed at a checker stays so while the transaction planes and the DMA channels go on: bits 63:32 of
INJECT, which arm it, are no part of a field that they write. One lemma per operation, each along the cases of its operation. -/

namespace Sys2Proof.Machine.State

/-- `t` has the bits of INJECT that arm an injection as `s` has them. -/
structure ArmKept (s t : State) : Prop where
  high : ∀ lo w, 32 ≤ lo → w ≤ 64 → fget (t.obj Obj.inject) lo w = fget (s.obj Obj.inject) lo w

variable {s₀ s t : State}

theorem ArmKept.refl (s : State) : s.ArmKept s := ⟨fun _ _ _ _ => rfl⟩

/-- What is armed at a checker is armed there still. -/
theorem ArmKept.injectedAt (h : s.ArmKept t) (kind unit point sub : Nat) : t.injectedAt kind unit point sub = s.injectedAt kind unit point sub := by
  simp only [State.injectedAt, h.high 63 1 (by decide) (by decide), h.high 48 8 (by decide) (by decide), h.high 41 7 (by decide) (by decide),
    h.high 38 3 (by decide) (by decide), h.high 32 6 (by decide) (by decide)]

/-- An update of any other part of the state. -/
theorem ArmKept.update {cfg : Integration} {pending : List Instr} {now stoppedFor frozenFor drawn : Nat} {out : List Emission}
    {doms : Tbl (Option (List Byte))} {pin : PinState} {pwr : PowerState} {boot : BootState} {flt : FaultState}
    {wards : Tbl (Option WardSeq)} {dict : DictState} {sp : SpareState} {obs : ObsState} {ctl : CtlState} {ten : TensorState}
    {txn : TxnState} {brg : BridgeState} {dma : DmaState} {gat : GateState} {col : CollState} (h : s₀.ArmKept s) :
    s₀.ArmKept ⟨cfg, pending, now, stoppedFor, frozenFor, drawn, out, s.objs, doms, pin, pwr, boot, flt, wards, dict, sp, obs, ctl, ten,
      txn, brg, dma, gat, col⟩ :=
  ⟨h.high⟩

/-- A write of another object. -/
theorem ArmKept.setObj {k : Nat} {v : Val} (hk : Obj.inject ≠ k) (h : s₀.ArmKept s) : s₀.ArmKept (s.setObj k v) where
  high lo w hlo hw := by rw [obj_setObj_ne s v hk, h.high lo w hlo hw]

/-- A write of a field in the lower half of its object, whichever that is. -/
theorem ArmKept.wr {f : Fld} {x : Nat} (h : s₀.ArmKept s) (hf : f.lo + f.w ≤ 32 := by exact Nat.le_of_ble_eq_true rfl) :
    s₀.ArmKept (s.wr f x) where
  high lo w hlo hw := by
    refine Eq.trans ?_ (h.high lo w hlo hw)
    by_cases hkey : Obj.inject = f.key
    · rw [State.wr, hkey, obj_setObj_same, fget_fset_apart _ _ _ _ _ _ (by omega) hw (by omega)]
    · rw [obj_wr_ne s f x _ hkey]

theorem ArmKept.bump {f : Fld} {n : Nat} (h : s₀.ArmKept s) (hf : f.lo + f.w ≤ 32 := by exact Nat.le_of_ble_eq_true rfl) :
    s₀.ArmKept (s.bump f n) :=
  h.wr hf

theorem ArmKept.ite {c : Prop} [Decidable c] (h : s₀.ArmKept s) (h' : s₀.ArmKept t) : s₀.ArmKept (if c then s else t) := by
  split
  · exact h
  · exact h'

theorem ArmKept.foldl {α : Type} {f : State → α → State} {l : List α} (h : s₀.ArmKept s)
    (hf : ∀ {t a}, s₀.ArmKept t → s₀.ArmKept (f t a)) : s₀.ArmKept (l.foldl f s) :=
  List.foldlRecOn l f h (fun _ ht _ _ => hf ht)

theorem ArmKept.emit {e : Emission} (h : s₀.ArmKept s) : s₀.ArmKept (s.emit e) := h.update

theorem ArmKept.traceQueue {n place : Nat} {r : TraceRec} (h : s₀.ArmKept s) : s₀.ArmKept (s.traceQueue n place r) :=
  .ite h (.ite h.bump h.update)

theorem ArmKept.countEv {ev n : Nat} {w : Option (BitVec 4)} {c : Nat} (h : s₀.ArmKept s) : s₀.ArmKept (s.countEv ev n w c) := .ite h.update h

theorem ArmKept.setBgroup {b g : Nat} {x : BGroup} (h : s₀.ArmKept s) : s₀.ArmKept (s.setBgroup b g x) := h.update

theorem ArmKept.bridgeDrive {b g : Nat} {idle : Bool} {seq : BitVec 8} {payload : List Byte} (h : s₀.ArmKept s) :
    s₀.ArmKept (s.bridgeDrive b g idle seq payload) :=
  h.update

theorem ArmKept.bridgeSendNew {b g fuel : Nat} (h : s₀.ArmKept s) : s₀.ArmKept (s.bridgeSendNew b g fuel) := by
  induction fuel generalizing s with
  | zero => exact h
  | succ fuel ih =>
    simp only [State.bridgeSendNew]
    exact .ite h (ih h.setBgroup.bridgeDrive)

theorem ArmKept.bridgePump {b g : Nat} (h : s₀.ArmKept s) : s₀.ArmKept (s.bridgePump b g) := h.bridgeSendNew

theorem ArmKept.bridgeRecord {b g : Nat} {rec_ : List Byte} (h : s₀.ArmKept s) : s₀.ArmKept (s.bridgeRecord b g rec_) :=
  .ite h h.setBgroup.bridgePump

theorem ArmKept.txnSend {n i : Nat} {p : TPkt} (h : s₀.ArmKept s) : s₀.ArmKept (s.txnSend n i p) := h.update

theorem ArmKept.txnFrom {u : Nat} {p : TPkt} (h : s₀.ArmKept s) : s₀.ArmKept (s.txnFrom u p) := by
  unfold State.txnFrom
  split
  · exact h.txnSend
  · exact h

theorem ArmKept.setGate {g : Nat} {x : Gate} (h : s₀.ArmKept s) : s₀.ArmKept (s.setGate g x) := h.update

theorem ArmKept.gateQueue {g : Nat} {p : FPkt} {free : Bool} (h : s₀.ArmKept s) : s₀.ArmKept (s.gateQueue g p free) := h.update

theorem ArmKept.gateAnswer {g : Nat} {tag : BitVec 10} {status : BitVec 3} {data : List (BitVec 1024)} (h : s₀.ArmKept s) :
    s₀.ArmKept (s.gateAnswer g tag status data) := by
  simp only [State.gateAnswer]
  split
  · exact h
  · exact h.setGate.gateQueue

theorem ArmKept.setTarget {u : Nat} {x : TTarget} (h : s₀.ArmKept s) : s₀.ArmKept (s.setTarget u x) := h.update

theorem ArmKept.grantSlot {u : Nat} {r : TPkt} (h : s₀.ArmKept s) : s₀.ArmKept (s.grantSlot u r) := .ite h.setTarget h.setTarget.txnFrom

theorem ArmKept.backOff {u : Nat} {r : TPkt} (h : s₀.ArmKept s) : s₀.ArmKept (s.backOff u r) :=
  .ite (.update (.setTarget (.ite h.bump h))) (.txnFrom (.setTarget (.ite h.bump h)))

theorem ArmKept.setChoice {u pl : Nat} {c : Option (BitVec 16)} (h : s₀.ArmKept s) : s₀.ArmKept (s.setChoice u pl c) := h.update

theorem ArmKept.arbGrant {u pl : Nat} (h : s₀.ArmKept s) : s₀.ArmKept (s.arbGrant u pl) := by
  simp only [State.arbGrant]
  split
  · exact h
  split
  · exact h.setChoice
  · exact (h.grantSlot.setChoice.foldl fun h' => h'.backOff)

theorem ArmKept.arbStep {u pl : Nat} (h : s₀.ArmKept s) : s₀.ArmKept (s.arbStep u pl) := by
  unfold State.arbStep
  refine .ite h ?_
  refine .ite h.arbGrant ?_
  split
  · exact h.grantSlot
  · exact h

theorem ArmKept.arbitrate {u pl : Nat} (h : s₀.ArmKept s) : s₀.ArmKept (s.arbitrate u pl) := h.foldl fun h' => h'.arbStep

theorem ArmKept.slotAnswer {u : Nat} {src : BitVec 16} {tag : BitVec 10} {gen : BitVec 4} {status : BitVec 3} {data : List (BitVec 1024)}
    (h : s₀.ArmKept s) : s₀.ArmKept (s.slotAnswer u src tag gen status data) := by
  simp only [State.slotAnswer]
  split
  · exact h
  split
  · exact h
  · exact h.txnFrom.setTarget.arbitrate

theorem ArmKept.setTinit {u : Nat} {x : TInit} (h : s₀.ArmKept s) : s₀.ArmKept (s.setTinit u x) := h.update

theorem ArmKept.setClaim {u k : Nat} {c : Claim} (h : s₀.ArmKept s) : s₀.ArmKept (s.setClaim u k c) := h.update

theorem ArmKept.reserveFor {u k : Nat} (h : s₀.ArmKept s) : s₀.ArmKept (s.reserveFor u k) := by
  simp only [State.reserveFor]
  split
  · exact h
  · exact .ite h h.setClaim.txnFrom

theorem ArmKept.reservePools {u : Nat} {tgt : BitVec 16} {level : BitVec 2} (h : s₀.ArmKept s) : s₀.ArmKept (s.reservePools u tgt level) :=
  .ite (h.foldl fun h' => h'.reserveFor) h.reserveFor

theorem ArmKept.sendTxn {u : Nat} {o : OpenTxn} {carried : Nat} (h : s₀.ArmKept s) : s₀.ArmKept (s.sendTxn u o carried) :=
  .ite h.setTinit.txnFrom.txnFrom.countEv h.setTinit.txnFrom

theorem ArmKept.useSlot {u : Nat} {tgt : BitVec 16} {level : BitVec 2} {ward : BitVec 4} {carried : Nat} (h : s₀.ArmKept s) :
    s₀.ArmKept (s.useSlot u tgt level ward carried) := by
  simp only [State.useSlot]
  split
  · exact h.sendTxn.reservePools
  · exact h.txnFrom

theorem ArmKept.sendAcross {b : Nat} {p : TPkt} (h : s₀.ArmKept s) : s₀.ArmKept (s.sendAcross b p) := h.foldl fun h' => h'.bridgeRecord

theorem ArmKept.answerAcross {b : Nat} {dest : BitVec 16} {ward : BitVec 4} {level : BitVec 2} {tag : BitVec 10} {gen : BitVec 4} {status
    : BitVec 3} {data : List (BitVec 1024)}
    (h : s₀.ArmKept s) : s₀.ArmKept (s.answerAcross b dest ward level tag gen status data) :=
  h.sendAcross

theorem ArmKept.answerOwner {u : Nat} {o : OpenTxn} {status : BitVec 3} {data : List (BitVec 1024)} (h : s₀.ArmKept s) :
    s₀.ArmKept (s.answerOwner u o status data) := by
  simp only [State.answerOwner]
  split
  · refine .ite (.bump (.ite (.countEv (.ite h.bump h)) (.ite h.bump h))) ?_
    exact .setTinit (.ite (.countEv (.ite h.bump h)) (.ite h.bump h))
  · refine .ite (.bump (.ite (.countEv (.ite h.bump h)) (.ite h.bump h))) ?_
    refine .ite (.emit (.ite (.countEv (.ite h.bump h)) (.ite h.bump h))) ?_
    exact .setTinit (.ite (.countEv (.ite h.bump h)) (.ite h.bump h))
  · refine .ite (.bump (.ite (.countEv (.ite h.bump h)) (.ite h.bump h))) ?_
    exact .bump (.ite (.countEv (.ite h.bump h)) (.ite h.bump h))
  · exact .ite (.countEv (.ite h.bump h)) (.ite h.bump h)
  · refine .ite (.answerAcross (.ite (.countEv (.ite h.bump h)) (.ite h.bump h))) ?_
    refine .ite (.gateAnswer (.ite (.countEv (.ite h.bump h)) (.ite h.bump h))) ?_
    exact .slotAnswer (.ite (.countEv (.ite h.bump h)) (.ite h.bump h))
  · exact .update (.ite (.countEv (.ite h.bump h)) (.ite h.bump h))

theorem ArmKept.endTxn {u : Nat} {o : OpenTxn} {status : BitVec 3} {data : List (BitVec 1024)} (h : s₀.ArmKept s) :
    s₀.ArmKept (s.endTxn u o status data) :=
  .ite h.setTinit.answerOwner.useSlot h.setTinit.answerOwner

theorem ArmKept.txnPump {u fuel : Nat} (h : s₀.ArmKept s) : s₀.ArmKept (s.txnPump u fuel) := by
  induction fuel generalizing s with
  | zero => exact h
  | succ fuel ih =>
    simp only [State.txnPump]
    split
    · exact (ih h.setTinit.endTxn)
    split
    · exact h
    · exact (ih h.setTinit.reserveFor)

theorem ArmKept.txnGo {u : Nat} (h : s₀.ArmKept s) : s₀.ArmKept (s.txnGo u) := h.txnPump

theorem ArmKept.openTxn {u : Nat} {a : TAsk} {tgt : BitVec 16} {tag : BitVec 10} {gen : BitVec 4} {owner : TxnOwner} (h : s₀.ArmKept s) :
    s₀.ArmKept (s.openTxn u a tgt tag gen owner) :=
  h.setTinit.txnGo

theorem ArmKept.acceptTxn {u : Nat} {a0 : TAsk} {tag : BitVec 10} {owner : TxnOwner} (h : s₀.ArmKept s) :
    s₀.ArmKept (s.acceptTxn u a0 tag owner) := by
  simp only [State.acceptTxn]
  refine .ite h.setTinit.answerOwner ?_
  refine .ite h.setTinit.openTxn ?_
  split
  · exact h.setTinit.openTxn
  · exact h.setTinit.answerOwner

theorem ArmKept.setChan {k : Nat} {x : DmaChan} (h : s₀.ArmKept s) : s₀.ArmKept (s.setChan k x) := h.update

theorem ArmKept.heldSend {h' : DmaHeld} {tag : BitVec 10} (h : s₀.ArmKept s) : s₀.ArmKept (s.heldSend h' tag) := h.acceptTxn

theorem ArmKept.chanAsk {k : Nat} {op : BitVec 4} {addr beats : Nat} {data : List (BitVec 1024)} {strb : List (BitVec 128)} {what info :
    Nat}
    (h : s₀.ArmKept s) : s₀.ArmKept (s.chanAsk k op addr beats data strb what info) := by
  simp only [State.chanAsk]
  split
  · exact h.update
  · exact h.heldSend

theorem ArmKept.slotWrite {k slot lo len value what info : Nat} (h : s₀.ArmKept s) : s₀.ArmKept (s.slotWrite k slot lo len value what info) :=
  h.chanAsk

theorem ArmKept.writeBack {k status tries : Nat} (h : s₀.ArmKept s) : s₀.ArmKept (s.writeBack k status tries) := h.slotWrite

theorem ArmKept.chanTrace {k evt status tries : Nat} (h : s₀.ArmKept s) : s₀.ArmKept (s.chanTrace k evt status tries) := .ite h h.traceQueue

theorem ArmKept.chanFetchAs {k slot what : Nat} (h : s₀.ArmKept s) : s₀.ArmKept (s.chanFetchAs k slot what) := h.setChan.chanAsk

theorem ArmKept.chanFetch {k slot : Nat} (h : s₀.ArmKept s) : s₀.ArmKept (s.chanFetch k slot) := h.chanFetchAs

theorem ArmKept.chanPrefetch {k : Nat} (h : s₀.ArmKept s) : s₀.ArmKept (s.chanPrefetch k) := .ite h h.chanFetch

theorem ArmKept.chanBack {k : Nat} (h : s₀.ArmKept s) : s₀.ArmKept (s.chanBack k) := h.setChan.chanTrace.writeBack

theorem ArmKept.chanGo {k : Nat} (h : s₀.ArmKept s) : s₀.ArmKept (s.chanGo k) :=
  .ite h.wr.wr.chanTrace.chanPrefetch.chanBack h.wr.wr.chanTrace.setChan

/-- The counters of the engines are no part of INJECT. -/
theorem inject_ne_dmaTrip {e : Nat} (d : List Byte) (he : e < 4) : Obj.inject ≠ Obj.dmaTrip e (descCtr d) := by
  have hc : descCtr d < 32 := Nat.mod_lt _ (by decide)
  simp only [Obj.inject, Obj.dmaTrip]
  omega

theorem ArmKept.chanRelease {k : Nat} (hk : k < 64) (h : s₀.ArmKept s) : s₀.ArmKept (s.chanRelease k) :=
  .ite h (h.setObj (inject_ne_dmaTrip _ (by omega))).chanGo

theorem ArmKept.tripExamine {e c : Nat} (he : e < 4) (h : s₀.ArmKept s) : s₀.ArmKept (s.tripExamine e c) := by
  refine List.foldlRecOn _ _ h (fun t ht i hi => ?_)
  have hi' : i < 16 := List.mem_range.mp hi
  exact .ite (ht.chanRelease (by omega)) ht

theorem ArmKept.tripAdd {e c : Nat} {v : BitVec 32} (he : e < 4) (h : s₀.ArmKept s) : s₀.ArmKept (s.tripAdd e c v) :=
  h.bump.tripExamine he

end Sys2Proof.Machine.State
end

section
/-! PROOFS. Combining, releases, interrupts and increments (R222 to R230, R291). -/

namespace Sys2Proof.Machine

/-! ## What arrives at an endpoint -/

@[simp] theorem State.arrivedDone_objs (s : State) (u : Nat) : (s.arrivedDone u).objs = s.objs := rfl

theorem State.afterOuter_of_quiet {s : State} {n point : Nat} (hinj : s.injectedAt 0x05 n point 0x3F = false) : s.afterOuter n point = s :=
  if_neg (by simp [hinj])

/-- A message whose OUTER holds has found no injection armed at the check. -/
theorem State.quiet_of_outer {s : State} {n point : Nat} {m : CtlMsg} (houter : s.outerFails n point m = false) :
    s.injectedAt 0x05 n point 0x3F = false := by
  simp only [State.outerFails, Bool.or_eq_false_iff] at houter
  exact houter.1

theorem State.arrivedDone_afterOuter {s : State} {n point : Nat} (u : Nat) (hinj : s.injectedAt 0x05 n point 0x3F = false) :
    (s.arrivedDone u).afterOuter n point = s.arrivedDone u :=
  State.afterOuter_of_quiet hinj

@[simp] theorem State.ctlSend_objs (s : State) (n i : Nat) (m : CtlMsg) : (s.ctlSend n i m).objs = s.objs := by
  unfold State.ctlSend
  split <;> rfl

@[simp] theorem State.refuse_objs (s : State) (n i : Nat) (m : CtlMsg) (r : BitVec 4) : (s.refuse n i m r).objs = s.objs := by
  unfold State.refuse
  rw [State.countEv_objs]
  exact State.ctlSend_objs _ _ _ _

/-! ## Combining -/

@[simp] theorem State.sock_countEv (s : State) (ev n : Nat) (w : Option (BitVec 4)) (c j k : Nat) : (s.countEv ev n w c).sock j k = s.sock j k :=
  congrArg (fun c : CtlState => Tbl.get Sock.zero c.socks (sockKey j k)) (State.countEv_ctl s ev n w c)

@[simp] theorem State.noteHigh_ctl (s : State) (n k : Nat) : (s.noteHigh n k).ctl = s.ctl := by
  unfold State.noteHigh
  extract_lets m
  split <;> rfl

theorem State.sock_noteHigh (s : State) (n k j i : Nat) : (s.noteHigh n k).sock j i = s.sock j i :=
  congrArg (fun c : CtlState => Tbl.get Sock.zero c.socks (sockKey j i)) (State.noteHigh_ctl s n k)

theorem Sock.store_acc {cfg : Val} {x y : Sock} {src : BitVec 16} {ws : List (BitVec 32)} (h : x.store cfg src ws = .ok y) : y.acc = x.acc := by
  unfold Sock.store at h
  split at h
  · cases h
  · split at h <;> cases h
    rfl

/-- Storing a held result leaves the accumulator. -/
theorem State.acc_retryHeld (s : State) (n k : Nat) : ((s.retryHeld n k).sock n k).acc = (s.sock n k).acc := by
  unfold State.retryHeld
  extract_lets x
  split
  · rfl
  · split
    case h_1 y hstore =>
      rw [State.sock_noteHigh, State.sock_countEv, State.sock_setSock_same]
      exact Sock.store_acc (y := y) hstore
    case h_2 => rfl

theorem State.sockCombine_adds {s : State} {n k : Nat} {ws : List (BitVec 32)} (h : (s.sock n k).acc.count + 1 < sockExpect (s.sockCfg n k)) :
    s.sockCombine n k ws = s.setSock n k { s.sock n k with
      acc := (s.sock n k).acc.add (sockFmt (s.sockCfg n k)) (sockLanes (s.sockCfg n k)) ws } :=
  if_pos h

/-- The contribution that completes a round clears the accumulator. -/
theorem State.acc_sockCombine_last {s : State} {n k : Nat} {ws : List (BitVec 32)}
    (h : sockExpect (s.sockCfg n k) ≤ (s.sock n k).acc.count + 1) : ((s.sockCombine n k ws).sock n k).acc = Acc.zero := by
  have hlast : ¬ (s.sock n k).acc.count + 1 < sockExpect (s.sockCfg n k) := by omega
  unfold State.sockCombine
  extract_lets v x acc s1
  have hlast' : ¬ acc.count < sockExpect v := hlast
  rw [if_neg hlast', State.acc_retryHeld, State.sock_countEv, State.sock_setSock_same]

section
variable {s : State} {u n : Nat} {m : CtlMsg}

theorem exec_combineContribution (hmoves : s.moves n = true) (harrived : s.arrivedAt u = some m)
    (hep : s.cfg.endpointJunction u = some n) (hnak : m.nak = false) (hkind : m.kind = 1) (hplace : u < 0x78 ∨ 0x100 ≤ u)
    (hrefusal : s.contribRefusal u n m = none) (hinj : s.injectedAt 0x05 n (if u < 0x78 then 4 else 6) 0x3F = false) :
    exec (.combineContribution u) s = .next (
      let t := ((s.arrivedDone u).touch n).countEv 0x32 n (some m.ward) 1
      if u < 0x78 then t.sockCombine n m.sock.toNat m.words else t.combCombine n m.words) := by
  have hplace' : ¬ (0x78 ≤ u ∧ u < 0x100) := by omega
  simp only [exec, execCombineContribution, Control.combine, harrived, hep, hmoves, hnak, hkind, hplace', hrefusal,
    State.arrivedDone_afterOuter u hinj]
  rfl

theorem exec_combinerReleaseSend {j : Nat} {ws : List (BitVec 32)} {rest : List (Nat × List (BitVec 32))} (hmoves : s.moves n = true)
    (hreleases : (s.comb n).releases = (j, ws) :: rest) :
    exec (.combinerReleaseSend n) s = .next (
      let t := (s.setComb n { s.comb n with releases := rest }).touch n
      if s.releaseBarred n j then t.bump (.combDiscarded n) 1
      else t.ctlFrom (0x100 + n) ⟨false, (s.wardOf n).getD 0, 0, 0, 255, 0, 31, 0, s.ep j, 0, ws⟩) := by
  simp only [exec, execCombinerReleaseSend, Control.releaseSend, hreleases, hmoves]
  rfl

/-- The state in which a release replaces what socket 31 of the port holds; a release not popped before is a drop. -/
def State.released (s : State) (n : Nat) (m : CtlMsg) : State :=
  let t := (s.arrivedDone n).touch n
  (((if (s.sock n 31).ring.isEmpty then t else t.dropAt n 31).setSock n 31 { s.sock n 31 with ring := [.msg 0 m.src m.words 0] }).countEv
    0x30 n (some m.ward) 1).noteHigh n 31

theorem exec_releaseDeliver (hmoves : s.moves n = true) (harrived : s.arrivedAt n = some m) (hrelease : m.isRelease = true)
    (houter : s.outerFails n 4 m = false) (hkind : sockKind (s.sockCfg n 31) = 3) (hward : s.endpointWard n n m.ward = true)
    (hready : s.endpointUnready n n m.ward = false) : exec (.releaseDeliver n) s = .next (s.released n m) := by
  simp only [exec, execReleaseDeliver, Control.releaseDeliver, harrived, hrelease, hmoves, houter, hkind, hward, hready,
    State.arrivedDone_afterOuter n (State.quiet_of_outer houter)]
  rfl

theorem State.released_ctl (s : State) (n : Nat) (m : CtlMsg) :
    (s.released n m).ctl = ((s.arrivedDone n).setSock n 31 { s.sock n 31 with ring := [.msg 0 m.src m.words 0] }).ctl := by
  unfold State.released
  extract_lets t
  rw [State.noteHigh_ctl, State.countEv_ctl]
  split <;> rfl
end

/-- Settles O23: each clause is a step of the endpoint, and an accumulator goes by its count. -/
theorem contributionsCombineAndRelease : Obligations.ContributionsCombineAndRelease := by
  unfold Obligations.ContributionsCombineAndRelease
  intro s u n m hmoves
  refine ⟨fun harrived hep hnak hkind hu hrefusal hinj => ?socket, fun harrived hep hnak hkind hu hrefusal hinj => ?combiner,
    fun k => ⟨fun hmore => ?adds, State.acc_sockCombine_last⟩, fun j ws rest hreleases hbarred => ?sent,
    fun j ws rest hreleases hbarred _ => ⟨_, exec_combinerReleaseSend hmoves hreleases, ?discarded⟩,
    fun harrived hrelease houter hkind hward hready => ⟨_, exec_releaseDeliver hmoves harrived hrelease houter hkind hward hready, ?release⟩⟩
  case socket =>
    rw [exec_combineContribution hmoves harrived hep hnak hkind (.inl hu) hrefusal (by rw [if_pos hu]; exact hinj)]
    exact congrArg _ (if_pos hu)
  case combiner =>
    have hu' : ¬ u < 0x78 := by omega
    rw [exec_combineContribution hmoves harrived hep hnak hkind (.inr hu) hrefusal (by rw [if_neg hu']; exact hinj)]
    exact congrArg _ (if_neg hu')
  case adds =>
    rw [State.sockCombine_adds hmore, State.sock_setSock_same]
    exact ⟨rfl, rfl, rfl⟩
  case sent =>
    rw [exec_combinerReleaseSend hmoves hreleases, hbarred]
    rfl
  case discarded =>
    rw [hbarred]
    exact ⟨congrArg Combiner.releases (Tbl.get_set_same Combiner.zero s.ctl.combs n _), State.rd_bump_same _ (.combDiscarded n) 1 (Nat.le_of_ble_eq_true rfl)⟩
  case release =>
    refine ⟨?_, ?_⟩
    · have hsock := congrArg (fun c : CtlState => Tbl.get Sock.zero c.socks (sockKey n 31)) (s.released_ctl n m)
      exact (congrArg Sock.ring hsock).trans (congrArg Sock.ring (State.sock_setSock_same 31 _))
    · have harrived' := congrArg (fun c : CtlState => (Tbl.get [] c.arrived n).head?) (s.released_ctl n m)
      exact harrived'.trans (congrArg List.head? (Tbl.get_upd_same [] s.ctl.arrived n List.tail))

/-! ## Interrupts -/

theorem exec_hostIrqMessage {s : State} {p n : Nat} {m : CtlMsg} (hp : p < 2) (hmoves : s.moves n = true)
    (harrived : s.arrivedAt (0x90 + p) = some m) (hep : s.cfg.endpointJunction (0x90 + p) = some n) (hnak : m.nak = false)
    (hkind : m.kind = 0) (houter : s.outerFails n 6 m = false) (hward : s.endpointWard (0x90 + p) n m.ward = true)
    (hready : s.endpointUnready (0x90 + p) n m.ward = false) (hroom : (Tbl.get IrqState.zero s.ctl.irq p).queue.length < 64) :
    exec (.hostIrqMessage p) s = .next (
      let t := (s.arrivedDone (0x90 + p)).touch n
      { t with ctl := { t.ctl with irq := Tbl.set IrqState.zero s.ctl.irq p { Tbl.get IrqState.zero s.ctl.irq p with
        queue := (Tbl.get IrqState.zero s.ctl.irq p).queue ++ [((m.words.getD 0 0).extractLsb' 0 11, m.ward)] } } }) := by
  have hp' : ¬ 2 ≤ p := by omega
  have hroom' : ¬ 64 ≤ (Tbl.get IrqState.zero s.ctl.irq p).queue.length := by omega
  simp only [exec, execHostIrqMessage, Control.hostIrq, harrived, hep, hmoves, hnak, hkind, hp', houter, hward, hready, hroom',
    State.arrivedDone_afterOuter _ (State.quiet_of_outer houter)]
  rfl

theorem exec_hostIrqDeliver {s : State} {p n : Nat} {v : BitVec 11} {w : BitVec 4} {rest : List (BitVec 11 × BitVec 4)}
    (hqueue : (Tbl.get IrqState.zero s.ctl.irq p).queue = (v, w) :: rest) (hunit : s.cfg.unitAt 3 p = some n)
    (hrunning : s.running = true) (hlive : s.adapterLive n .b = true) (hactive : s.junctionActive n = true) (hfree : s.frozen = false) :
    exec (.hostIrqDeliver p) s = .next (
      let q : IrqState := { Tbl.get IrqState.zero s.ctl.irq p with queue := rest }
      (({ s with ctl := { s.ctl with irq := Tbl.set IrqState.zero s.ctl.irq p q.refill } } : State).emit (.hiIrq p v w)).touch n) := by
  simp only [exec, execHostIrqDeliver, Control.irqDeliver, hqueue, hunit, hrunning, hlive, hactive, State.offer_of_free _ hfree]
  rfl

/-- With nothing waiting, the queue is what the delivery leaves. -/
theorem IrqState.refill_idle {q : IrqState} (h : q.waiting = []) : q.refill = q := by
  unfold IrqState.refill
  rw [h]
  split <;> rfl

/-! ## Increments -/

/-- The tag of an increment's counter, and the point at which its OUTER is checked: at engines 6, at gates 5. -/
def State.counterOf (s : State) (u c : Nat) : Val × Nat :=
  if 0x80 ≤ u ∧ u < 0x90 then (s.obj (Obj.collTripWard (u - 0x80) c), 5) else (s.obj (Obj.dmaTripWard (u - 0x98) c), 6)

/-- The cause for which a counter with the tag `v` refuses an increment (R216, R291, R292). -/
def State.counterRefusal (s : State) (n point : Nat) (m : CtlMsg) (v : Val) : Option (BitVec 4) :=
  if s.outerFails n point m then some Nak.corrupt
  else if fget v 7 1 = 0 then some Nak.noCounter
  else if fget v 0 4 ≠ m.ward.toNat then some Nak.ward
  else if s.junctionLost n ∨ s.wardReclaiming m.ward then some Nak.notReady
  else if m.words.length ≠ 1 then some Nak.malformed
  else none

theorem State.counterRefusal_none {s : State} {n point : Nat} {m : CtlMsg} {v : Val} (houter : s.outerFails n point m = false)
    (hvalid : fget v 7 1 = 1) (hward : fget v 0 4 = m.ward.toNat) (hlost : s.junctionLost n = false)
    (hreclaim : s.wardReclaiming m.ward = false) (hlen : m.words.length = 1) : s.counterRefusal n point m v = none := by
  simp [State.counterRefusal, houter, hvalid, hward, hlost, hreclaim, hlen]

/-- An increment at an engine's counter, by what the counter refuses. -/
theorem Dma.increment_eq (e n : Nat) (m : CtlMsg) (s : State) :
    Dma.increment e n m s = match s.counterRefusal n 6 m (s.obj (Obj.dmaTripWard e m.sock.toNat)) with
      | some r => (s, some r)
      | none => ((s.countEv 0x34 n (some m.ward) 1).tripAdd e m.sock.toNat (m.words.headD 0), none) := by
  by_cases houter : s.outerFails n 6 m = true
  · simp [Dma.increment, State.counterRefusal, houter]
  by_cases hvalid : fget (s.obj (Obj.dmaTripWard e m.sock.toNat)) 7 1 = 0
  · simp [Dma.increment, State.counterRefusal, houter, hvalid]
  by_cases hward : fget (s.obj (Obj.dmaTripWard e m.sock.toNat)) 0 4 ≠ m.ward.toNat
  · simp [Dma.increment, State.counterRefusal, houter, hvalid, hward]
  by_cases hready : s.junctionLost n = true ∨ s.wardReclaiming m.ward = true
  · simp only [Dma.increment, State.counterRefusal, if_neg houter, if_neg hvalid, if_neg hward, if_pos hready]
  by_cases hlen : m.words.length ≠ 1
  · simp only [Dma.increment, State.counterRefusal, if_neg houter, if_neg hvalid, if_neg hward, if_neg hready, if_pos hlen]
  · simp only [Dma.increment, State.counterRefusal, if_neg houter, if_neg hvalid, if_neg hward, if_neg hready, if_neg hlen]

/-- The counter of a gate with an increment added, and what waits for it examined. -/
def State.collTripAdd (s : State) (g n : Nat) (m : CtlMsg) : State :=
  (((s.countEv 0x34 n (some m.ward) 1).bump ⟨Obj.collTrip g m.sock.toNat, 0, 32⟩ (m.words.headD 0).toNat).collExamine g
    m.sock.toNat).collSettle g

theorem Coll.increment_eq (g n : Nat) (m : CtlMsg) (s : State) :
    Coll.increment g n m s = match s.counterRefusal n 5 m (s.obj (Obj.collTripWard g m.sock.toNat)) with
      | some r => (s, some r)
      | none => (s.collTripAdd g n m, none) := by
  by_cases houter : s.outerFails n 5 m = true
  · simp [Coll.increment, State.counterRefusal, houter]
  by_cases hvalid : fget (s.obj (Obj.collTripWard g m.sock.toNat)) 7 1 = 0
  · simp [Coll.increment, State.counterRefusal, houter, hvalid]
  by_cases hward : fget (s.obj (Obj.collTripWard g m.sock.toNat)) 0 4 ≠ m.ward.toNat
  · simp [Coll.increment, State.counterRefusal, houter, hvalid, hward]
  by_cases hready : s.junctionLost n = true ∨ s.wardReclaiming m.ward = true
  · simp only [Coll.increment, State.counterRefusal, if_neg houter, if_neg hvalid, if_neg hward, if_pos hready]
  by_cases hlen : m.words.length ≠ 1
  · simp only [Coll.increment, State.counterRefusal, if_neg houter, if_neg hvalid, if_neg hward, if_neg hready, if_pos hlen]
  · simp only [Coll.increment, State.counterRefusal, if_neg houter, if_neg hvalid, if_neg hward, if_neg hready, if_neg hlen]
    rfl

section
variable {s : State} {u n : Nat} {m : CtlMsg} (hmoves : s.moves n = true) (harrived : s.arrivedAt u = some m)
  (hep : s.cfg.endpointJunction u = some n) (hnak : m.nak = false) (hkind : m.kind = 2)
include hmoves harrived hep hnak hkind

theorem exec_tripIncrement_taken_engine (hu : 0x98 ≤ u ∧ u < 0x9C)
    (htaken : s.counterRefusal n 6 m (s.obj (Obj.dmaTripWard (u - 0x98) m.sock.toNat)) = none) :
    exec (.tripIncrement u) s = .next (((((s.arrivedDone u).countEv 0x34 n (some m.ward) 1).tripAdd (u - 0x98) m.sock.toNat
      (m.words.headD 0)).afterOuter n 6).touch n) := by
  have hgate : ¬ (0x80 ≤ u ∧ u < 0x90) := by omega
  have htaken' : (s.arrivedDone u).counterRefusal n 6 m ((s.arrivedDone u).obj (Obj.dmaTripWard (u - 0x98) m.sock.toNat)) = none := htaken
  simp [exec, execTripIncrement, Control.tripIncrement, harrived, hep, hmoves, hnak, hkind, hu, hgate, Dma.increment_eq, htaken']

theorem exec_tripIncrement_taken_gate (hu : 0x80 ≤ u ∧ u < 0x90)
    (htaken : s.counterRefusal n 5 m (s.obj (Obj.collTripWard (u - 0x80) m.sock.toNat)) = none) :
    exec (.tripIncrement u) s = .next ((((s.arrivedDone u).collTripAdd (u - 0x80) n m).afterOuter n 5).touch n) := by
  have htaken' : (s.arrivedDone u).counterRefusal n 5 m ((s.arrivedDone u).obj (Obj.collTripWard (u - 0x80) m.sock.toNat)) = none := htaken
  simp [exec, execTripIncrement, Control.tripIncrement, harrived, hep, hmoves, hnak, hkind, hu, Coll.increment_eq, htaken']

/-- A counter that refuses an increment takes nothing of it. -/
theorem exec_tripIncrement_refused {v : Val} {point : Nat} {r : BitVec 4}
    (hu : (0x98 ≤ u ∧ u < 0x9C ∧ v = s.obj (Obj.dmaTripWard (u - 0x98) m.sock.toNat) ∧ point = 6) ∨
      (0x80 ≤ u ∧ u < 0x90 ∧ v = s.obj (Obj.collTripWard (u - 0x80) m.sock.toNat) ∧ point = 5))
    (hinj : s.injectedAt 0x05 n point 0x3F = false) (hrefused : s.counterRefusal n point m v = some r) :
    exec (.tripIncrement u) s = .next (
      let t := (s.arrivedDone u).touch n
      (if r = Nak.ward then t.wardRefusal else t).refuse n (unitInput u) m r) := by
  have hrefused' : (s.arrivedDone u).counterRefusal n point m v = some r := hrefused
  rcases hu with ⟨hlow, hhigh, hv, rfl⟩ | ⟨hlow, hhigh, hv, rfl⟩
  · have hgate : ¬ (0x80 ≤ u ∧ u < 0x90) := by omega
    have hv' : (s.arrivedDone u).obj (Obj.dmaTripWard (u - 0x98) m.sock.toNat) = v := hv.symm
    simp [exec, execTripIncrement, Control.tripIncrement, harrived, hep, hmoves, hnak, hkind, hlow, hhigh, hgate, Dma.increment_eq, hv',
      hrefused', State.arrivedDone_afterOuter u hinj]
  · have hv' : (s.arrivedDone u).obj (Obj.collTripWard (u - 0x80) m.sock.toNat) = v := hv.symm
    simp [exec, execTripIncrement, Control.tripIncrement, harrived, hep, hmoves, hnak, hkind, hlow, hhigh, Coll.increment_eq, hv',
      hrefused', State.arrivedDone_afterOuter u hinj]
end

/-- Settles O24: a counter takes an increment or refuses it with the first cause; at an engine no injection is armed meanwhile. -/
theorem interruptsAndIncrementsArrive : Obligations.InterruptsAndIncrementsArrive := by
  unfold Obligations.InterruptsAndIncrementsArrive
  intro s
  refine ⟨fun p n m hp hmoves harrived hep hnak hkind houter hward hready hroom =>
      ⟨_, exec_hostIrqMessage hp hmoves harrived hep hnak hkind houter hward hready hroom, ?queued, rfl⟩,
    fun p n v w rest hqueue hunit hrunning hlive hactive hfree hwaiting =>
      ⟨_, exec_hostIrqDeliver hqueue hunit hrunning hlive hactive hfree, ?left, rfl, rfl⟩,
    fun e n m he hmoves harrived hep hnak hkind houter hvalid hward hlost hreclaim hlen => ?engine,
    fun g n m hg hmoves harrived hep hnak hkind houter hvalid hward hlost hreclaim hlen => ?gate,
    fun u n m v point hmoves harrived hep hnak hkind hu hinj5 hinj6 => ?refused,
    State.refuse_objs s, State.touch_objs s, State.arrivedDone_objs s⟩
  case queued => exact congrArg IrqState.queue (Tbl.get_set_same IrqState.zero s.ctl.irq p _)
  case left =>
    have hidle := IrqState.refill_idle (q := { Tbl.get IrqState.zero s.ctl.irq p with queue := rest }) hwaiting
    exact congrArg IrqState.queue ((Tbl.get_set_same IrqState.zero s.ctl.irq p _).trans hidle)
  case engine =>
    have hunit : 0x98 + e - 0x98 = e := by omega
    have htaken := State.counterRefusal_none houter hvalid hward hlost hreclaim hlen
    rw [exec_tripIncrement_taken_engine hmoves harrived hep hnak hkind ⟨by omega, by omega⟩ (by rw [hunit]; exact htaken), hunit]
    have hkept : s.ArmKept (((s.arrivedDone (0x98 + e)).countEv 0x34 n (some m.ward) 1).tripAdd e m.sock.toNat (m.words.headD 0)) :=
      .tripAdd he (.countEv (.update (.refl s)))
    rw [State.afterOuter_of_quiet ((hkept.injectedAt ..).trans (State.quiet_of_outer houter))]
  case gate =>
    have hunit : 0x80 + g - 0x80 = g := by omega
    have htaken := State.counterRefusal_none houter hvalid hward hlost hreclaim hlen
    rw [exec_tripIncrement_taken_gate hmoves harrived hep hnak hkind ⟨by omega, by omega⟩ (by rw [hunit]; exact htaken), hunit]
    rfl
  case refused =>
    have hinj : s.injectedAt 0x05 n point 0x3F = false := by
      rcases hu with ⟨-, -, -, rfl⟩ | ⟨-, -, -, rfl⟩
      · exact hinj6
      · exact hinj5
    refine ⟨fun r hr => ?_, fun houter hvalid hward => ?_⟩
    · have hrefused : s.counterRefusal n point m v = some r ∧ r ≠ Nak.ward := by
        unfold State.counterRefusal
        rcases hr with ⟨houter, rfl⟩ | ⟨houter, hvalid, rfl⟩ | ⟨houter, hvalid, hward, hreclaim, rfl⟩ |
          ⟨houter, hvalid, hward, hlost, hreclaim, hlen, rfl⟩
        · exact ⟨if_pos houter, by decide⟩
        · exact ⟨by simp [houter, hvalid], by decide⟩
        · exact ⟨by simp [houter, hvalid, hward, hreclaim], by decide⟩
        · exact ⟨by simp [houter, hvalid, hward, hlost, hreclaim, hlen], by decide⟩
      rw [exec_tripIncrement_refused hmoves harrived hep hnak hkind hu hinj hrefused.1]
      simp only [if_neg hrefused.2]
    · have hrefused : s.counterRefusal n point m v = some Nak.ward := by simp [State.counterRefusal, houter, hvalid, hward]
      rw [exec_tripIncrement_refused hmoves harrived hep hnak hkind hu hinj hrefused]
      rfl

end Sys2Proof.Machine
end

section
/-! PROOFS. Sockets, channels and ranks (R214, R218 to R220, R236). -/

namespace Sys2Proof.Machine

/-! ## Writes whose answer may wait -/

theorem State.serveLater_refused {s : State} {acc : Access} {k : Nat} {r : ObjRow} {v : Val} {a : Abort}
    {eff : Val → State → Except Abort (State × Bool)} (h : s.MayWrite acc k r) (he : eff (s.value acc k r v) s = .error a) :
    s.serveLater acc k v eff = s.abortRequest acc 2 (k / 256) (k % 256) 0 a := by
  obtain ⟨hserves, hcheck⟩ := h
  unfold State.value at he
  simp [State.serveLater, hserves, hcheck, he]

theorem State.serveLater_waits {s t : State} {acc : Access} {k : Nat} {r : ObjRow} {v : Val}
    {eff : Val → State → Except Abort (State × Bool)} (h : s.MayWrite acc k r) (he : eff (s.value acc k r v) s = .ok (t, true)) :
    s.serveLater acc k v eff = t := by
  obtain ⟨hserves, hcheck⟩ := h
  unfold State.value at he
  simp [State.serveLater, hserves, hcheck, he]

/-! ## SOCK_CFG -/

section
variable {s : State} {acc : Access} {n k : Nat} {r : ObjRow} {v : BitVec 64} {x : Val} (hx : x = s.value acc (Obj.sockCfg n k) r v &&& 0xFFFFFFFFFFFFFF00)
  (h : s.MayWrite acc (Obj.sockCfg n k) r) (hk : k < s.cfg.sockets n)

include h in
theorem exec_sockCfgWrite_refused {a : Abort} (ha : Control.writeSockCfg n k (s.value acc (Obj.sockCfg n k) r v) s = .error a) :
    exec (.sockCfgWrite acc n k v) s = .next (s.abortRequest acc 2 (Obj.sockCfg n k / 256) (Obj.sockCfg n k % 256) 0 a) :=
  congrArg Host.Outcome.next (State.serveKey_refused h ha)

include hx hk

theorem Control.writeSockCfg_eq : Control.writeSockCfg n k (s.value acc (Obj.sockCfg n k) r v) s =
    if (s.sock n k).busy then .error .inUse else if s.sockCfgBad n k x then .error .outOfRange else .ok (s.setObj (Obj.sockCfg n k) x) := by
  subst hx
  exact if_neg (by omega)

include h

theorem exec_sockCfgWrite_stored (hfree : (s.sock n k).busy = false) (hgood : s.sockCfgBad n k x = false) :
    exec (.sockCfgWrite acc n k v) s = .next ((s.setObj (Obj.sockCfg n k) x).written acc (Obj.sockCfg n k) r.ty) :=
  congrArg Host.Outcome.next (State.serveKey_next h (by rw [Control.writeSockCfg_eq hx hk, hfree, hgood]; rfl))
end

/-! ## Channel entries -/

@[simp] theorem State.setEntry_ctl (s : State) (u i key : Nat) (v : Val) : (s.setEntry u i key v).ctl = s.ctl := by
  unfold State.setEntry
  extract_lets old s1
  split <;> rfl

@[simp] theorem State.setEntry_objs (s : State) (u i key : Nat) (v : Val) : (s.setEntry u i key v).objs = (s.setObj key v).objs := by
  unfold State.setEntry
  extract_lets old s1
  split <;> rfl

section
variable {s : State} {acc : Access} {t : BitVec 16} {k u k0 : Nat} {v : BitVec 32} {x : Val} {r : ObjRow}

theorem exec_channelEntryWrite (acc : Access) (t : BitVec 16) (k : Nat) (v : BitVec 32) (s : State) :
    exec (.channelEntryWrite acc t k v) s =
      .next (s.serveLater acc (chanKey t.toNat k) (v.setWidth 64) (Control.chanLater t.toNat k acc)) := rfl

/-- A channel write that takes effect at once. -/
theorem exec_channelEntryWrite_stored {a : State} (h : s.MayWrite acc (chanKey t.toNat k) r)
    (heff : Control.writeChan t.toNat k ((s.value acc (chanKey t.toNat k) r (v.setWidth 64)).setWidth 32) acc (askerOf acc) s = .ok a)
    (hctl : a.ctl = s.ctl) : exec (.channelEntryWrite acc t k v) s = .next (a.written acc (chanKey t.toNat k) r.ty) := by
  rw [exec_channelEntryWrite, State.serveLater_now h (by simp only [Control.chanLater, heff, hctl, Nat.lt_irrefl]; rfl)]

/-- A channel write that is refused. -/
theorem exec_channelEntryWrite_refused {a : Abort} (h : s.MayWrite acc (chanKey t.toNat k) r)
    (heff : Control.writeChan t.toNat k ((s.value acc (chanKey t.toNat k) r (v.setWidth 64)).setWidth 32) acc (askerOf acc) s = .error a) :
    exec (.channelEntryWrite acc t k v) s = .next (s.abortRequest acc 2 (chanKey t.toNat k / 256) (chanKey t.toNat k % 256) 0 a) := by
  rw [exec_channelEntryWrite, State.serveLater_refused (a := a) h (by simp only [Control.chanLater, heff])]

/-- A channel write that waits for another die's answer. -/
theorem exec_channelEntryWrite_waits {a : State} (h : s.MayWrite acc (chanKey t.toNat k) r)
    (heff : Control.writeChan t.toNat k ((s.value acc (chanKey t.toNat k) r (v.setWidth 64)).setWidth 32) acc (askerOf acc) s = .ok a)
    (hchecks : s.ctl.checks.length < a.ctl.checks.length) : exec (.channelEntryWrite acc t k v) s = .next a := by
  rw [exec_channelEntryWrite, State.serveLater_waits h (by simp only [Control.chanLater, heff, hchecks]; rfl)]

variable {asker : Option (BitVec 4)} {w : BitVec 32} (htable : chanTable t.toNat = some (u, k0))
  (hhere : (s.cfg.endpointJunction u).isSome = true) (hx : x = chanMask u (BitVec.ofNat 64 w.toNat))
  (hward : s.chanWardClash u (k0 + k) x asker = none)
include htable hhere hx hward

theorem Control.writeChan_cleared (hvalid : fget x 31 1 = 0) :
    Control.writeChan t.toNat k w acc asker s = .ok (s.setEntry u k (k0 + k) x) := by
  subst hx
  have hnone : (s.cfg.endpointJunction u).isNone = false := by simpa [Option.isSome_iff_ne_none, Option.isNone_iff_eq_none] using hhere
  simp only [Control.writeChan, htable, hnone, hward, if_pos hvalid]
  rfl

/-- A valid entry that passes its checks: it waits for another die, or is stored where it rises on this one. -/
theorem Control.writeChan_valid (hvalid : fget x 31 1 = 1) (hgood : s.chanBad u x = none) :
    Control.writeChan t.toNat k w acc asker s =
      if fget x 0 16 / 1024 ≠ s.dieBits then .ok (({ s with ctl := { s.ctl with
        checks := s.ctl.checks ++ [⟨t.toNat, k, BitVec.ofNat 32 x.toNat, s.now, acc⟩] } } : State).askRank u k x)
      else match s.localRank u, s.localRank (fget x 0 16 % 1024) with
        | some a, some b => if a < b then .ok (s.setEntry u k (k0 + k) x) else .error .rankOrder
        | _, _ => .error .rankOrder := by
  have hdest : (BitVec.ofNat 16 (fget x 0 16)).toNat = fget x 0 16 := by
    rw [BitVec.toNat_ofNat, Nat.mod_eq_of_lt]
    rw [fget_mod _ _ _ (by decide)]
    exact Nat.mod_lt _ (by decide)
  subst hx
  have hnone : (s.cfg.endpointJunction u).isNone = false := by simpa [Option.isSome_iff_ne_none, Option.isNone_iff_eq_none] using hhere
  have hset : ¬ fget (chanMask u (BitVec.ofNat 64 w.toNat)) 31 1 = 0 := by omega
  simp only [Control.writeChan, htable, hnone, hward, if_neg hset, hgood, hdest]
  rfl
end

/-! ## Answers of another die -/

section
variable {s s1 : State} {t : BitVec 16} {c : ChanCheck} {k u k0 a : Nat} (hcheck : s.takeCheck t.toNat k = some (c, s1))
  (htable : chanTable t.toNat = some (u, k0)) (hrank : s.localRank u = some a)
include hcheck

theorem State.takeCheck_eq : s1 = { s with ctl := { s.ctl with checks := s.ctl.checks.erase c } } := by
  simp only [State.takeCheck, Option.map_eq_some_iff, Prod.mk.injEq] at hcheck
  obtain ⟨_, -, rfl, rfl⟩ := hcheck
  rfl

theorem exec_channelCheckTimeout : exec (.channelCheckTimeout t k) s =
    .next ((s1.advanceTo (c.since + 1000000)).endCheck c (.error .checkIncomplete)) := by
  simp only [exec, execChannelCheckTimeout, Control.checkTimeout, hcheck]

include htable

theorem exec_channelRankReply_noEndpoint :
    exec (.channelRankReply t k (.received .noEndpoint)) s = .next (s1.endCheck c (.error .outOfRange)) := by
  simp only [exec, execChannelRankReply, Control.rankReply, Control.rankReceived, hcheck, htable]

theorem exec_channelRankReply_otherWard :
    exec (.channelRankReply t k (.received .otherWard)) s = .next (s1.endCheck c (.error .rankOrder)) := by
  simp only [exec, execChannelRankReply, Control.rankReply, Control.rankReceived, hcheck, htable]

include hrank

/-- The state in which the entry has the value and the other die's rank is kept. -/
theorem exec_channelRankReply_rank (b : BitVec 8) :
    exec (.channelRankReply t k (.received (.rank b))) s = .next (match s.chanWardClash u (k0 + k) (c.value.setWidth 64) (askerOf c.acc) with
      | some e => s1.endCheck c (.error e)
      | none =>
        if a < b.toNat then
          let s2 := s1.setEntry u k (k0 + k) (c.value.setWidth 64)
          ({ s2 with ctl := { s2.ctl with
            ranks := Tbl.set none s2.ctl.ranks (fget (c.value.setWidth 64) 0 16) (some b) } } : State).endCheck c (.ok ())
        else s1.endCheck c (.error .rankOrder)) := by
  obtain rfl := State.takeCheck_eq hcheck
  have hrank' : ({ s with ctl := { s.ctl with checks := s.ctl.checks.erase c } } : State).localRank u = some a := hrank
  simp only [exec, execChannelRankReply, Control.rankReply, Control.rankReceived, hcheck, htable, hrank']
  rfl
end

/-! ## Questions of another die -/

theorem exec_channelRankReply_given {s : State} {src : BitVec 16} {k : Nat} {dest : BitVec 16} {ward : BitVec 4} {rank : BitVec 8}
    (hruns : s.firmwareRuns = true) : ∃ t : State, exec (.channelRankReply src k (.given dest ward rank)) s = .next t ∧
      t.out = s.out ++ [.rankAnswer src k (s.rankAnswerOf dest ward)] ∧ t.objs = s.objs ∧
      (∀ b : BitVec 8, s.rankAnswerOf dest ward = .rank b → rank.toNat < b.toNat → ⟨src, k, dest, rank⟩ ∈ t.ctl.incoming) := by
  have hexec : exec (.channelRankReply src k (.given dest ward rank)) s = .next (Control.rankGiven src k dest ward rank s) := rfl
  refine ⟨_, hexec, ?_⟩
  simp only [Control.rankGiven, hruns]
  cases hanswer : s.rankAnswerOf dest ward with
  | rank b =>
    by_cases hrises : rank.toNat < b.toNat
    · simp [hrises, State.dropIncoming]
    · refine ⟨by simp [hrises], by simp [hrises], fun b' hb hlt => ?_⟩
      cases hb
      exact (hrises hlt).elim
  | noEndpoint => exact ⟨rfl, rfl, fun b hb => by cases hb⟩
  | otherWard => exact ⟨rfl, rfl, fun b hb => by cases hb⟩

/-! ## Ranks -/

section
variable {s : State} {acc : Access} {t : BitVec 16} {v : BitVec 8} {u key : Nat} {x : BitVec 8} {r : ObjRow}
  (htable : rankTable t.toNat = some (u, key)) (hhere : (s.cfg.endpointJunction u).isSome = true) (h : s.MayWrite acc key r)
  (hx : x = (s.value acc key r (v.setWidth 64)).setWidth 8)
include htable

theorem exec_rankWrite : exec (.rankWrite acc t v) s =
    .next (s.serveKey acc key (v.setWidth 64) (fun y => Control.writeRank t.toNat (y.setWidth 8))) := by
  simp only [exec, execRankWrite, Control.rankWrite, htable]

include hhere

theorem Control.writeRank_refused (hto : s.risesTo u x.toNat = false) : Control.writeRank t.toNat x s = .error .rankOrder := by
  have hnone : (s.cfg.endpointJunction u).isNone = false := by simpa [Option.isSome_iff_ne_none, Option.isNone_iff_eq_none] using hhere
  simp [Control.writeRank, htable, hnone, hto]

theorem Control.writeRank_sender {u' k0 : Nat} (hto : s.risesTo u x.toNat = true) (hchan : chanTable t.toNat = some (u', k0))
    (hfrom : s.risesFrom u k0 x.toNat = true) :
    Control.writeRank t.toNat x s = .ok ((s.setObj key (BitVec.ofNat 64 x.toNat)).tellRanks u k0) := by
  have hnone : (s.cfg.endpointJunction u).isNone = false := by simpa [Option.isSome_iff_ne_none, Option.isNone_iff_eq_none] using hhere
  simp only [Control.writeRank, htable, hnone, hto, hchan, hfrom]
  rfl

theorem Control.writeRank_receiver (hto : s.risesTo u x.toNat = true) (hchan : chanTable t.toNat = none) :
    Control.writeRank t.toNat x s = .ok (s.setObj key (BitVec.ofNat 64 x.toNat)) := by
  have hnone : (s.cfg.endpointJunction u).isNone = false := by simpa [Option.isSome_iff_ne_none, Option.isNone_iff_eq_none] using hhere
  simp only [Control.writeRank, htable, hnone, hto, hchan]
  rfl
end

/-- Settles O25. The clauses of withdrawn channels and of telling another die when a rank or channel changes are the model's reading
(log entry 138). -/
theorem socketsChannelsAndRanksAreSetUp : Obligations.SocketsChannelsAndRanksAreSetUp := by
  unfold Obligations.SocketsChannelsAndRanksAreSetUp
  intro s acc n k r
  refine ⟨fun v x hx h hk => ⟨exec_sockCfgWrite_stored hx h hk, fun hbusy => ?busy, fun hfree hbad => ?bad⟩,
    fun t v u k0 x htable hhere h _ hx hward => ⟨fun hvalid => ?cleared, fun hvalid hgood hdie a b ha hb => ⟨fun hlt => ?rises, fun hle => ?falls⟩,
      fun hvalid hgood hdie => ?asks⟩,
    fun t c s1 u k0 a hcheck htable hrank => ⟨fun b hward hlt => ?answered, fun b hward hle => ?tooLow, fun b e hward => ?clash,
      exec_channelRankReply_noEndpoint hcheck htable, exec_channelRankReply_otherWard hcheck htable,
      exec_channelCheckTimeout hcheck⟩,
    fun src dest ward rank hruns => exec_channelRankReply_given hruns, fun src => rfl,
    fun t v u key x htable hhere h hx => ⟨fun hto hfrom => ⟨fun u' k0 hchan => ?sender, fun hchan => ?receiver⟩, fun hto => ?rankRefused⟩⟩
  case busy => exact exec_sockCfgWrite_refused h (by rw [Control.writeSockCfg_eq hx hk, hbusy]; rfl)
  case bad => exact exec_sockCfgWrite_refused h (by rw [Control.writeSockCfg_eq hx hk, hfree, hbad]; rfl)
  case cleared =>
    exact exec_channelEntryWrite_stored h (Control.writeChan_cleared htable hhere hx hward hvalid) (State.setEntry_ctl ..)
  case rises =>
    refine exec_channelEntryWrite_stored h ?_ (State.setEntry_ctl s u k (k0 + k) x)
    rw [Control.writeChan_valid htable hhere hx hward hvalid hgood, if_neg (Classical.not_not.mpr hdie), ha, hb]
    exact if_pos hlt
  case falls =>
    refine exec_channelEntryWrite_refused h ?_
    rw [Control.writeChan_valid htable hhere hx hward hvalid hgood, if_neg (Classical.not_not.mpr hdie), ha, hb]
    exact if_neg (by omega)
  case asks =>
    refine exec_channelEntryWrite_waits h ((Control.writeChan_valid htable hhere hx hward hvalid hgood).trans (if_pos hdie)) ?_
    simp [State.askRank]
  case answered =>
    have hs1 := State.takeCheck_eq hcheck
    let s2 := s1.setEntry u k (k0 + k) (c.value.setWidth 64)
    let t' : State := { s2 with ctl := { s2.ctl with ranks := Tbl.set none s2.ctl.ranks (fget (c.value.setWidth 64) 0 16) (some b) } }
    have hobj (j : Nat) : t'.obj j = (s.setObj (k0 + k) (c.value.setWidth 64)).obj j :=
      State.obj_congr ((State.setEntry_objs s1 u k (k0 + k) (c.value.setWidth 64)).trans (by rw [hs1]; rfl)) j
    refine ⟨t', ?_, ?_, fun j hj => ?_, ?_⟩
    · rw [exec_channelRankReply_rank hcheck htable hrank, hward]
      exact congrArg _ (if_pos hlt)
    · rw [hobj, State.obj_setObj_same]
    · rw [hobj, State.obj_setObj_ne _ _ hj]
    · exact (congrArg CtlState.checks (State.setEntry_ctl s1 u k (k0 + k) (c.value.setWidth 64))).trans (by rw [hs1])
  case tooLow =>
    rw [exec_channelRankReply_rank hcheck htable hrank, hward]
    exact congrArg _ (if_neg (by omega))
  case clash =>
    rw [exec_channelRankReply_rank hcheck htable hrank, hward]
    rfl
  case sender =>
    rw [exec_rankWrite htable, State.serveKey_next h (by rw [← hx]; exact Control.writeRank_sender htable hhere hto hchan (hfrom u' k0 hchan))]
  case receiver =>
    rw [exec_rankWrite htable, State.serveKey_next h (by rw [← hx]; exact Control.writeRank_receiver htable hhere hto hchan)]
  case rankRefused =>
    rw [exec_rankWrite htable, State.serveKey_refused h (by rw [← hx]; exact Control.writeRank_refused htable hhere hto)]

end Sys2Proof.Machine
end

section
/-! PROOFS. Schedule loads, epochs and forced swaps (R136 to R149, R153, R154). -/

namespace Sys2Proof.Machine

theorem State.rd_bumpWrap_same (s : State) (f : Fld) (n : Nat) (h : f.fits) : (s.bumpWrap f n).rd f = (s.rd f + n) % 2 ^ f.w := by
  rw [State.bumpWrap, State.rd_wr_same s f _ h, Nat.mod_mod]

/-! ## LOAD_STATUS -/

theorem State.obj_traceQueue {k : Nat} (hk : k ≠ Obj.traceLoss) (s : State) (n place : Nat) (r : TraceRec) :
    (s.traceQueue n place r).obj k = s.obj k := by
  unfold State.traceQueue
  generalize (if place = 0 then 16 else 64) = cap
  extract_lets key q
  split
  · rfl
  · split
    · exact State.obj_wr_ne s .dropped _ k hk
    · rfl

@[simp] theorem State.reportLoad_objs (s : State) (w : Nat) : (s.reportLoad w).objs = s.objs := by
  unfold State.reportLoad
  split <;> rfl

@[simp] theorem State.reportLoad_ten (s : State) (w : Nat) : (s.reportLoad w).ten = s.ten := by
  unfold State.reportLoad
  split <;> rfl

/-- What LOAD_STATUS shows of a state with a code, and of a failure's position. -/
theorem State.rd_setLoad (s : State) {w st code j list entry : Nat} (hst : st < 8) (hcode : code < 32) (hlist : list < 16)
    (hentry : entry < 8192) :
    (s.setLoad w st code j list entry).rd (.ldState w) = st ∧ (s.setLoad w st code j list entry).rd (.ldCode w) = code := by
  have hobj : (s.setLoad w st code j list entry).obj (Obj.loadStatus w) =
      BitVec.ofNat 64 (st * 2 ^ 29 + code * 2 ^ 24 + min j 127 * 2 ^ 17 + list * 2 ^ 13 + entry) := State.obj_setObj_same ..
  have hj : min j 127 < 128 := by omega
  simp only [State.rd, Fld.ldState, Fld.ldCode, hobj, fget_mod _ _ 3 (by decide), fget_mod _ _ 5 (by decide), BitVec.toNat_ofNat]
  generalize min j 127 = p at hj
  omega

theorem State.rd_loadStatus_congr {s t : State} {w : Nat} (h : t.obj (Obj.loadStatus w) = s.obj (Obj.loadStatus w)) :
    t.rd (.ldState w) = s.rd (.ldState w) ∧ t.rd (.ldCode w) = s.rd (.ldCode w) := by
  simp only [State.rd, Fld.ldState, Fld.ldCode, h, and_self]

/-- A failed load shows FAILED with its code. -/
theorem State.rd_failLoad (s : State) (w : BitVec 4) {f : ImgFail} (hcode : f.code < 32) (hlist : f.list < 16) (hentry : f.entry < 8192) :
    (s.failLoad w f).rd (.ldState w.toNat) = 7 ∧ (s.failLoad w f).rd (.ldCode w.toNat) = f.code := by
  have hkey : Obj.loadStatus w.toNat ≠ Obj.traceLoss := by
    have := w.isLt
    simp only [Obj.loadStatus, Obj.traceLoss]
    omega
  have hobj : (s.failLoad w f).obj (Obj.loadStatus w.toNat) =
      ((s.markStaged w 4).setLoad w.toNat 7 f.code f.junction f.list f.entry).obj (Obj.loadStatus w.toNat) :=
    (State.obj_congr (State.reportLoad_objs _ _) _).trans (State.obj_traceQueue hkey _ _ _ _)
  obtain ⟨hst, hcd⟩ := State.rd_loadStatus_congr hobj
  rw [hst, hcd]
  exact State.rd_setLoad _ (by decide) hcode hlist hentry

/-! ## The checks of a whole image -/

theorem exec_schedLoadChecksComplete {s : State} {w : BitVec 4} (hchecking : s.rd (.ldState w.toNat) = 2) (hfree : s.frozen = false)
    (hruns : s.firmwareRuns = true) :
    exec (.schedLoadChecksComplete w) s = .next (match parseImage (s.sched w.toNat).image with
      | .error f => s.failLoad w f
      | .ok m =>
        let s1 := (s.stageImage w m).setSched w.toNat { s.sched w.toNat with staged := m.facts }
        match s.imageFail w (s.sched w.toNat).package m with
        | some f => s1.failLoad w f
        | none => ((s1.markStaged w 2).enterLoad w.toNat 3 0).reportLoad w.toNat) := by
  simp only [exec, execSchedLoadChecksComplete, Sched.checked, hchecking, hfree, hruns]
  rfl

/-- Settles O26: the end of the checks goes by their first failure, and LOAD_STATUS shows the state it was given. -/
theorem loadsEndCheckedOrFailed : Obligations.LoadsEndCheckedOrFailed := by
  unfold Obligations.LoadsEndCheckedOrFailed
  intro s w
  refine ⟨fun hheld => ?held, fun hchecking hfree hruns => ⟨fun f hparse => ?unparsed, fun m f hparse hfail => ?failed, fun m hparse hgood => ?checked,
    fun t => ?shows, fun f hcode hlist _ hentry => State.rd_failLoad s w hcode hlist hentry⟩⟩
  case held =>
    have hheld' : s.rd (.ldState w.toNat) ≠ 2 ∨ s.frozen = true ∨ (!s.firmwareRuns) = true := by
      rcases hheld with h | h <;> simp [h]
    exact congrArg _ (if_pos hheld')
  case unparsed => rw [exec_schedLoadChecksComplete hchecking hfree hruns, hparse]
  case failed => simp only [exec_schedLoadChecksComplete hchecking hfree hruns, hparse, hfail]
  case checked => simp only [exec_schedLoadChecksComplete hchecking hfree hruns, hparse, hgood]
  case shows =>
    obtain ⟨hst, hcode⟩ := State.rd_loadStatus_congr (State.obj_congr (State.reportLoad_objs (t.enterLoad w.toNat 3 0) w.toNat) _)
    rw [hst, hcode]
    exact State.rd_setLoad t (by decide) (by decide) (by decide) (by decide)

/-! ## Going live -/

/-- LOAD_STATUS and EPOCH of a ward, by which a swap shows, are no object of a junction's bank, nor the trace's loss. -/
def Obj.isSwapShown (w : BitVec 4) (k : Nat) : Prop := k = Obj.loadStatus w.toNat ∨ k = Obj.epoch w.toNat

theorem Obj.isSwapShown.ne_bankState {w : BitVec 4} {k : Nat} (hk : Obj.isSwapShown w k) (n : Nat) : k ≠ Obj.bankState n := by
  have := w.isLt
  rcases hk with rfl | rfl <;> simp only [Obj.loadStatus, Obj.epoch, Obj.bankState] <;> omega

theorem Obj.isSwapShown.ne_traceLoss {w : BitVec 4} {k : Nat} (hk : Obj.isSwapShown w k) : k ≠ Obj.traceLoss := by
  have := w.isLt
  rcases hk with rfl | rfl <;> simp only [Obj.loadStatus, Obj.epoch, Obj.traceLoss] <;> omega

theorem State.obj_showLive {w : BitVec 4} {k : Nat} (hk : Obj.isSwapShown w k) (s : State) (f : ImageFacts) :
    (s.showLive w.toNat f).obj k = s.obj k := by
  have := w.isLt
  refine State.obj_setObj_ne s _ ?_
  rcases hk with rfl | rfl <;> simp only [Obj.loadStatus, Obj.epoch, Obj.liveImageId] <;> omega

theorem State.obj_flipBank {w : BitVec 4} {k : Nat} (hk : Obj.isSwapShown w k) (s : State) (n : Nat) : (s.flipBank n).obj k = s.obj k := by
  have hne := hk.ne_bankState n
  unfold State.flipBank
  extract_lets old s1
  exact (State.obj_wr_ne s1 (.swapBits n) 0 k hne).trans ((State.obj_wr_ne _ (.staged n) 0 k hne).trans (State.obj_wr_ne _ (.liveSel n) _ k hne))

theorem State.obj_flipBanks {w : BitVec 4} {k : Nat} (hk : Obj.isSwapShown w k) (s : State) (ns : List Nat) :
    (ns.foldl State.flipBank s).obj k = s.obj k :=
  List.foldlRecOn (motive := fun t : State => t.obj k = s.obj k) ns _ rfl (fun t ht n _ => (State.obj_flipBank hk t n).trans ht)

/-- The objects of a ward that goes live: EPOCH has risen and LOAD_STATUS shows LIVE with the code. -/
def State.liveShown (s : State) (w : BitVec 4) (code : Nat) (f : ImageFacts) : State :=
  ((s.bumpWrap (.epochOf w.toNat) 1).showLive w.toNat f).enterLoad w.toNat 6 code

@[simp] theorem State.liveShown_ten (s : State) (w : BitVec 4) (code : Nat) (f : ImageFacts) : (s.liveShown w code f).ten = s.ten :=
  (State.setObj_ten _ _ _).trans ((State.setDom_ten _ _ _).trans ((State.setDom_ten _ _ _).trans ((State.setObj_ten _ _ _).trans
    (State.bumpWrap_ten s _ _))))

theorem State.rd_epoch_liveShown (s : State) (w : BitVec 4) (code : Nat) (f : ImageFacts) :
    (s.liveShown w code f).rd (.epochOf w.toNat) = (s.rd (.epochOf w.toNat) + 1) % 2 ^ 32 := by
  have hload : Obj.epoch w.toNat ≠ Obj.loadStatus w.toNat := by simp only [Obj.epoch, Obj.loadStatus]; omega
  have hepoch : (s.liveShown w code f).obj (Obj.epoch w.toNat) = (s.bumpWrap (.epochOf w.toNat) 1).obj (Obj.epoch w.toNat) :=
    (State.obj_setObj_ne _ _ hload).trans (State.obj_showLive (.inr rfl) _ _)
  have hrd : (s.liveShown w code f).rd (.epochOf w.toNat) = (s.bumpWrap (.epochOf w.toNat) 1).rd (.epochOf w.toNat) :=
    congrArg (fun v => fget v 0 32) hepoch
  rw [hrd, State.rd_bumpWrap_same s (.epochOf w.toNat) 1 (Nat.le_of_ble_eq_true rfl)]
  rfl

/-- The swap bits of the ward's junctions are cleared. -/
def State.clearSwapBits (s : State) (w : BitVec 4) : State := (s.wardJunctions w).foldl (fun (a : State) n => a.wr (.swapBits n) 0) s

@[simp] theorem State.clearSwapBits_ten (s : State) (w : BitVec 4) : (s.clearSwapBits w).ten = s.ten :=
  List.foldlRecOn (motive := fun t : State => t.ten = s.ten) _ _ rfl (fun _ ht _ _ => ht)

theorem State.obj_clearSwapBits {w : BitVec 4} {k : Nat} (hk : Obj.isSwapShown w k) (s : State) : (s.clearSwapBits w).obj k = s.obj k :=
  List.foldlRecOn (motive := fun t : State => t.obj k = s.obj k) _ _ rfl
    (fun t ht n _ => (State.obj_wr_ne t (.swapBits n) 0 k (hk.ne_bankState n)).trans ht)

@[simp] theorem State.traceQueue_ten (s : State) (n place : Nat) (r : TraceRec) : (s.traceQueue n place r).ten = s.ten := by
  unfold State.traceQueue
  generalize (if place = 0 then 16 else 64) = cap
  extract_lets key q
  split
  · rfl
  · split <;> rfl

@[simp] theorem State.countEv_ten (s : State) (ev n : Nat) (w : Option (BitVec 4)) (c : Nat) : (s.countEv ev n w c).ten = s.ten := by
  unfold State.countEv
  split <;> rfl

theorem State.goLive_eq (s : State) (w : BitVec 4) (code : Nat) (f : ImageFacts) : s.goLive w code f =
    let s0 := (s.liveShown w code f).clearSwapBits w
    let s2 := s0.traceQueue s0.cfg.mgmtAt 2 ⟨s0.now, 4, 3, 0x00C1, 0, some w, 0, 0, BitVec.ofNat 32 (s0.rd (.epochOf w.toNat)), f.id⟩
    ((s2.setSched w.toNat { s2.sched w.toNat with live := f, target := [], forced := [], forcing := false }).countEv 0x70 s2.cfg.mgmtAt
      (some w) 1).reportLoad w.toNat := rfl

/-- Going live leaves LOAD_STATUS and EPOCH as they were shown. -/
theorem State.obj_goLive {w : BitVec 4} {k : Nat} (hk : Obj.isSwapShown w k) (s : State) (code : Nat) (f : ImageFacts) :
    (s.goLive w code f).obj k = (s.liveShown w code f).obj k := by
  rw [State.goLive_eq]
  extract_lets s0 s2
  rw [State.obj_congr ((State.reportLoad_objs _ _).trans (State.countEv_objs _ _ _ _ _))]
  exact (State.obj_traceQueue hk.ne_traceLoss s0 _ _ _).trans (State.obj_clearSwapBits hk _)

theorem State.sched_congr {s t : State} (h : t.ten = s.ten) (w : Nat) : t.sched w = s.sched w := by rw [State.sched, h, State.sched]

/-- A ward that goes live has the image's facts, and no command is outstanding. -/
theorem State.sched_goLive (s : State) (w : BitVec 4) (code : Nat) (f : ImageFacts) :
    (s.goLive w code f).sched w.toNat = { s.sched w.toNat with live := f, target := [], forced := [], forcing := false } := by
  rw [State.goLive_eq]
  extract_lets s0 s2
  have hsched2 : s2.sched w.toNat = s.sched w.toNat := State.sched_congr (by simp [s2, s0]) _
  rw [State.sched_congr ((State.reportLoad_ten _ _).trans (State.countEv_ten _ _ _ _ _))]
  exact (Tbl.get_set_same ..).trans
    (congrArg (fun x : SchedState => { x with live := f, target := [], forced := [], forcing := false }) hsched2)

theorem State.goLive_shows (s : State) (w : BitVec 4) {code : Nat} (f : ImageFacts) (hcode : code < 32) :
    (s.goLive w code f).rd (.ldState w.toNat) = 6 ∧ (s.goLive w code f).rd (.ldCode w.toNat) = code ∧
    (s.goLive w code f).rd (.epochOf w.toNat) = (s.rd (.epochOf w.toNat) + 1) % 2 ^ 32 := by
  obtain ⟨hst, hcd⟩ := State.rd_loadStatus_congr (State.obj_goLive (.inl rfl) s code f)
  obtain ⟨hst1, hcd1⟩ := State.rd_setLoad ((s.bumpWrap (.epochOf w.toNat) 1).showLive w.toNat f) (w := w.toNat) (st := 6) (j := 0x7F)
    (list := 0xF) (entry := 0x1FFF) (by decide) hcode (by decide) (by decide)
  have hepoch : (s.goLive w code f).rd (.epochOf w.toNat) = (s.liveShown w code f).rd (.epochOf w.toNat) :=
    congrArg (fun v => fget v 0 32) (State.obj_goLive (.inr rfl) s code f)
  exact ⟨hst.trans hst1, hcd.trans hcd1, hepoch.trans (s.rd_epoch_liveShown w code f)⟩

/-! ## Arming and swapping -/

section
variable {s : State} {w : BitVec 4}

theorem exec_epochArm {acc : Access} {r : ObjRow} (h : s.MayWrite acc (Obj.epochCtrl w.toNat) r) :
    exec (.epochArm acc w) s = .next (
      if s.rd (.ldState w.toNat) ≠ 3 ∨ (s.sched w.toNat).armPending then
        s.abortRequest acc 2 (Obj.epochCtrl w.toNat / 256) (Obj.epochCtrl w.toNat % 256) 0 .badState
      else ((s.setSched w.toNat { s.sched w.toNat with armPending := true }).wr (.epochCmd w.toNat) 1).written acc (Obj.epochCtrl w.toNat) r.ty) := by
  have hexec : exec (.epochArm acc w) s = .next (s.serveKey acc (Obj.epochCtrl w.toNat) 1 (fun _ => Sched.arm w)) := rfl
  rw [hexec]
  split
  case isTrue hbad => rw [State.serveKey_refused h (if_pos hbad)]
  case isFalse hgood => rw [State.serveKey_next h (if_neg hgood)]

theorem exec_epochArmCheckComplete (hpending : (s.sched w.toNat).armPending = true) (hchecked : s.rd (.ldState w.toNat) = 3)
    (hfree : s.frozen = false) {a : State} (ha : a = s.setSched w.toNat { s.sched w.toNat with armPending := false }) :
    exec (.epochArmCheckComplete w) s = .next (
      if s.stagedGen w.toNat ≠ s.obj Obj.distGen then a.failLoad w (.at_ 0x04)
      else match s.stagedDamaged w with
        | some n => a.failLoad w ⟨0x0E, n, 0xF, 0x1FFF⟩
        | none =>
          let s2 := ((a.markStaged w 3).enterLoad w.toNat 4 0).traceEpoch w.toNat 1
          let b := s2.setSched w.toNat { s2.sched w.toNat with armed := [] }
          if (b.wardIngresses w).isEmpty ∧ !(s.sched w.toNat).package then b.sendTarget w 0
          else b.sequence w Cmd.arm 0 (b.ingressJunctions w)) := by
  subst ha
  simp only [exec, execEpochArmCheckComplete, Sched.armChecked, hpending, hchecked, hfree]
  rfl

theorem exec_epochTargetSet (x : Option (BitVec 32)) (harmed : s.rd (.ldState w.toNat) = 4) (hstopped : s.allStopped w = true)
    (hfree : s.frozen = false) :
    exec (.epochTargetSet w x) s = .next (
      if (s.sched w.toNat).package then
        match x with
        | some t => s.sendTarget w t.toNat
        | none => if s.isMaster then s else s.emit (.dieReport w (.count (BitVec.ofNat 32 (s.largestCount w))))
      else s.sendTarget w (s.largestCount w)) := by
  simp only [exec, execEpochTargetSet, Sched.targetSet, harmed, hstopped, hfree]
  rfl

theorem exec_epochTargetArrive {n : Nat} {m : CtlMsg} (hcommand : s.commandAt n = some m) (hsock : m.sock = Cmd.target)
    (hmoves : s.moves n = true) : exec (.epochTargetArrive n) s = .next (
      let a := s.arrivedDone (0x200 + n)
      (if s.commandDue n m then
        ((a.setSched m.ward.toNat { s.sched m.ward.toNat with target := (s.sched m.ward.toNat).target.erase n }).swapTry n).touch n
      else a).takeCommands n) := by
  simp only [exec, execEpochTargetArrive, Sched.targetArrive, hcommand, hsock, hmoves]
  rfl

/-- T is due at a junction of its ward on the way to which it still is, while the ward swaps. -/
theorem State.commandDue_target {n : Nat} {m : CtlMsg} (hward : m.ward = w) (hsock : m.sock = Cmd.target) :
    s.commandDue n m = true ↔ s.wardOf n = some w ∧ (s.sched w.toNat).target.contains n = true ∧
      (s.sched w.toNat).forcing = false ∧ s.rd (.ldState w.toNat) = 5 := by
  subst hward
  simp [State.commandDue, hsock, and_assoc]

/-- The state in which every junction of the ward has swapped and the staged image is live. -/
def State.swapDone (s : State) (w : BitVec 4) : State :=
  let s1 := ((s.wardJunctions w).foldl State.flipBank s).goLive w 0 (s.sched w.toNat).staged
  s1.setSched w.toNat { s1.sched w.toNat with staged := ImageFacts.null, image := [] }

theorem exec_epochSwapComplete (hswapping : s.rd (.ldState w.toNat) = 5) (hall : (s.wardJunctions w).all s.swapped = true)
    (hfree : s.frozen = false) : exec (.epochSwapComplete w) s = .next (s.swapDone w) := by
  simp only [exec, execEpochSwapComplete, Sched.swapComplete, hswapping, hall, hfree]
  rfl

theorem State.swapDone_shows : (s.swapDone w).rd (.ldState w.toNat) = 6 ∧ (s.swapDone w).rd (.ldCode w.toNat) = 0 ∧
    ((s.swapDone w).sched w.toNat).live = (s.sched w.toNat).staged ∧ ((s.swapDone w).sched w.toNat).staged = ImageFacts.null ∧
    (s.swapDone w).rd (.epochOf w.toNat) = (s.rd (.epochOf w.toNat) + 1) % 2 ^ 32 := by
  unfold State.swapDone
  extract_lets s1
  obtain ⟨hst, hcode, hepoch⟩ := ((s.wardJunctions w).foldl State.flipBank s).goLive_shows w (s.sched w.toNat).staged
    (show 0 < 32 by decide)
  have hsched := State.sched_goLive ((s.wardJunctions w).foldl State.flipBank s) w 0 (s.sched w.toNat).staged
  have hflip : ((s.wardJunctions w).foldl State.flipBank s).rd (.epochOf w.toNat) = s.rd (.epochOf w.toNat) :=
    congrArg (fun v => fget v 0 32) (State.obj_flipBanks (.inr rfl) s _)
  rw [hflip] at hepoch
  have hset : (s1.setSched w.toNat { s1.sched w.toNat with staged := ImageFacts.null, image := [] }).sched w.toNat =
      { s1.sched w.toNat with staged := ImageFacts.null, image := [] } := Tbl.get_set_same ..
  refine ⟨hst, hcode, ?_, ?_, hepoch⟩
  · rw [hset]
    exact congrArg SchedState.live hsched
  · rw [hset]
end

/-- Settles O27: each clause is a step of the sequencer, and the end of the swap is what going live shows. -/
theorem epochsAreArmedAndSwapped : Obligations.EpochsAreArmedAndSwapped := by
  unfold Obligations.EpochsAreArmedAndSwapped
  intro s acc w r
  refine ⟨fun h => ⟨fun hchecked hfirst => ?arm, fun hbad => ?armRefused⟩,
    fun hpending hchecked hfree a ha => ⟨fun hgen => ?stale, fun hgen n hdamaged => ?damaged,
      fun hgen hsound b hb => ⟨fun hings => ?armed, fun hempty hown => ?noIngress⟩⟩,
    fun harmed hstopped hfree => ⟨fun hown x => ?ownTarget, fun hpackage x => ?packageTarget⟩,
    fun n m a hcommand hward hsock hmoves ha => ⟨fun hdue => ?due, fun hdue => ?outOfDate, State.commandDue_target hward hsock⟩,
    fun n i f rest hwire hmarker => ?marker,
    fun hswapping hall hfree => ⟨_, exec_epochSwapComplete hswapping hall hfree, State.swapDone_shows⟩⟩
  case arm => rw [exec_epochArm h, if_neg (by simp [hchecked, hfirst])]
  case armRefused => rw [exec_epochArm h, if_pos hbad]
  case stale => rw [exec_epochArmCheckComplete hpending hchecked hfree ha, if_pos hgen]
  case damaged => rw [exec_epochArmCheckComplete hpending hchecked hfree ha, if_neg (Classical.not_not.mpr hgen), hdamaged]
  case armed =>
    rw [exec_epochArmCheckComplete hpending hchecked hfree ha, if_neg (Classical.not_not.mpr hgen), hsound]
    simp only [← hb]
    rw [if_neg (by rcases hings with h | h <;> simp [h])]
  case noIngress =>
    rw [exec_epochArmCheckComplete hpending hchecked hfree ha, if_neg (Classical.not_not.mpr hgen), hsound]
    simp only [← hb]
    rw [if_pos (by simp [hempty, hown])]
  case ownTarget => rw [exec_epochTargetSet x harmed hstopped hfree, hown, if_neg (by decide)]
  case packageTarget => rw [exec_epochTargetSet (some x) harmed hstopped hfree, hpackage, if_pos rfl]
  case due =>
    subst ha hward
    rw [exec_epochTargetArrive hcommand hsock hmoves, hdue]
    rfl
  case outOfDate =>
    subst ha
    rw [exec_epochTargetArrive hcommand hsock hmoves, hdue]
    rfl
  case marker => simp only [exec, execEpochMarkerArrive, Tensor.markerArrive, hwire, hmarker, if_true]

end Sys2Proof.Machine
end

section
/-! PROOFS. Forced swaps (R148). -/

namespace Sys2Proof.Machine

section
variable {s : State} {acc : Access} {w : BitVec 4} {r : ObjRow}

/-- FORCE_NULL and FORCE_STAGED at L2 and above. -/
theorem exec_forceNull (h : s.MayWrite acc (Obj.epochCtrl w.toNat) r) (hlevel : 2 ≤ acc.level.toNat) :
    exec (.forceNull acc w) s = .next (((s.forceBegin w false).wr (.epochCmd w.toNat) 4).written acc (Obj.epochCtrl w.toNat) r.ty) := by
  have heff : Sched.writeCtrl w 4 (decide (2 ≤ acc.level.toNat)) s = .ok ((s.forceBegin w false).wr (.epochCmd w.toNat) 4) :=
    if_pos (decide_eq_true hlevel)
  exact congrArg _ (State.serveKey_next h heff)

theorem exec_forceStaged (h : s.MayWrite acc (Obj.epochCtrl w.toNat) r) (hlevel : 2 ≤ acc.level.toNat)
    (hstaged : s.rd (.ldState w.toNat) = 3 ∨ (s.rd (.ldState w.toNat) = 7 ∧ (s.rd (.ldCode w.toNat) = 0x0F ∨
      s.rd (.ldCode w.toNat) = 0x10 ∨ s.rd (.ldCode w.toNat) = 0x0D))) :
    exec (.forceStaged acc w) s = .next (((s.forceBegin w true).wr (.epochCmd w.toNat) 3).written acc (Obj.epochCtrl w.toNat) r.ty) := by
  have heff : Sched.writeCtrl w 3 (decide (2 ≤ acc.level.toNat)) s = .ok ((s.forceBegin w true).wr (.epochCmd w.toNat) 3) :=
    (if_pos (decide_eq_true hlevel)).trans (if_pos hstaged)
  exact congrArg _ (State.serveKey_next h heff)

/-- Both are refused below L2. -/
theorem exec_force_below (h : s.MayWrite acc (Obj.epochCtrl w.toNat) r) (hlevel : acc.level.toNat < 2) :
    exec (.forceNull acc w) s = .next (s.abortRequest acc 2 (Obj.epochCtrl w.toNat / 256) (Obj.epochCtrl w.toNat % 256) 0 .level) ∧
    exec (.forceStaged acc w) s = .next (s.abortRequest acc 2 (Obj.epochCtrl w.toNat / 256) (Obj.epochCtrl w.toNat % 256) 0 .level) := by
  have hbelow : ¬ decide (2 ≤ acc.level.toNat) = true := by simpa using hlevel
  have hnull : Sched.writeCtrl w 4 (decide (2 ≤ acc.level.toNat)) s = .error .level := if_neg hbelow
  have hstaged : Sched.writeCtrl w 3 (decide (2 ≤ acc.level.toNat)) s = .error .level := if_neg hbelow
  exact ⟨congrArg _ (State.serveKey_refused h hnull), congrArg _ (State.serveKey_refused h hstaged)⟩

/-- The forced markers are on their way to every junction of the ward. -/
theorem State.forced_forceBegin (s : State) (w : BitVec 4) (staged : Bool) :
    ((s.forceBegin w staged).sched w.toNat).forced = s.wardJunctions w := by
  unfold State.forceBegin
  rw [State.sequence_eq]
  exact congrArg SchedState.forced (Tbl.get_set_same ..)

/-- A junction whose region is lost takes the bank at once. -/
theorem exec_forcedMarkerArrive_lost {n : Nat} (hward : s.wardOf n = some w) (hforced : (s.sched w.toNat).forced.contains n = true)
    (hlost : s.junctionLost n = true) (hfree : s.frozen = false) : exec (.forcedMarkerArrive n) s = .next (s.forcedSwap n w) := by
  simp only [exec, execForcedMarkerArrive, Sched.forcedArrive, hlost, hward, hforced, hfree]
  rfl

/-- A forced marker that is due at its junction acts there. -/
theorem exec_forcedMarkerArrive_due {n : Nat} {m : CtlMsg} (hward : s.wardOf n = some w) (hforced : (s.sched w.toNat).forced.contains n = true)
    (hlost : s.junctionLost n = false) (hcommand : s.commandAt n = some m) (hmward : m.ward = w)
    (hsock : m.sock = Cmd.forceNull ∨ m.sock = Cmd.forceStaged) (hmoves : s.moves n = true) :
    exec (.forcedMarkerArrive n) s = .next (((s.arrivedDone (0x200 + n)).forcedSwap n w).takeCommands n) := by
  subst hmward
  have hnot : ¬ (m.sock ≠ Cmd.forceNull ∧ m.sock ≠ Cmd.forceStaged) := by rcases hsock with h | h <;> simp [h]
  have hdue : s.commandDue n m = true := by
    have htarget : m.sock ≠ Cmd.target := by rcases hsock with h | h <;> rw [h] <;> decide
    rw [State.commandDue, hward, if_neg htarget, hforced]
    rcases hsock with h | h <;> simp [h]
  have hact : ¬ ((m.sock ≠ Cmd.forceNull ∧ m.sock ≠ Cmd.forceStaged) ∨ (!s.moves n) = true) := not_or.mpr ⟨hnot, by simp [hmoves]⟩
  simp only [exec, execForcedMarkerArrive, Sched.forcedArrive, hlost, hcommand, if_neg hact, hdue]
  rfl

/-- The facts of the image that a forced swap of the ward makes live. -/
def SchedState.forcedFacts (x : SchedState) : ImageFacts := if x.forceStaged then x.staged else ImageFacts.null

/-- The state in which a forced swap is complete, up to the step of a reclaim that it ends. -/
def State.forcedDone (s : State) (w : BitVec 4) : State :=
  let s1 := s.goLive w 0x12 (s.sched w.toNat).forcedFacts
  if (s.sched w.toNat).forceStaged then s1.setSched w.toNat { s1.sched w.toNat with staged := ImageFacts.null, image := [] } else s1

theorem exec_forcedSwapComplete (hforcing : (s.sched w.toNat).forcing = true) (hall : (s.sched w.toNat).forced = [])
    (hfree : s.frozen = false) : exec (.forcedSwapComplete w) s = .next (
      if (s.forcedDone w).rd (.wardPhase w.toNat) = 4 then (s.forcedDone w).wr (.wardPhase w.toNat) 5 else s.forcedDone w) := by
  simp only [exec, execForcedSwapComplete, Sched.forcedComplete, hforcing, hall, hfree]
  rfl

theorem State.setSched_objs (s : State) (w : Nat) (x : SchedState) : (s.setSched w x).objs = s.objs := rfl

theorem State.forcedDone_objs (s : State) (w : BitVec 4) :
    (s.forcedDone w).objs = (s.goLive w 0x12 (s.sched w.toNat).forcedFacts).objs := by
  unfold State.forcedDone
  extract_lets s1
  split
  · exact State.setSched_objs s1 _ _
  · exact Eq.refl s1.objs

theorem State.sched_forcedDone (s : State) (w : BitVec 4) : ((s.forcedDone w).sched w.toNat).forcing = false ∧
    ((s.forcedDone w).sched w.toNat).live = (s.sched w.toNat).forcedFacts := by
  have hsched := State.sched_goLive s w 0x12 (s.sched w.toNat).forcedFacts
  unfold State.forcedDone
  extract_lets s1
  split
  · have hset : (s1.setSched w.toNat { s1.sched w.toNat with staged := ImageFacts.null, image := [] }).sched w.toNat =
        { s1.sched w.toNat with staged := ImageFacts.null, image := [] } := Tbl.get_set_same ..
    rw [hset]
    exact ⟨congrArg SchedState.forcing hsched, congrArg SchedState.live hsched⟩
  · exact ⟨congrArg SchedState.forcing hsched, congrArg SchedState.live hsched⟩

/-- What the completion shows, whether or not it ends a reclaim's step. -/
theorem State.forcedDone_shows {s t : State} {w : BitVec 4}
    (ht : t = if (s.forcedDone w).rd (.wardPhase w.toNat) = 4 then (s.forcedDone w).wr (.wardPhase w.toNat) 5 else s.forcedDone w) :
    t.rd (.ldState w.toNat) = 6 ∧ t.rd (.ldCode w.toNat) = 0x12 ∧
    t.rd (.epochOf w.toNat) = (s.rd (.epochOf w.toNat) + 1) % 2 ^ 32 ∧ (t.sched w.toNat).forcing = false ∧
    (t.sched w.toNat).live = (s.sched w.toNat).forcedFacts := by
  have hobj : ∀ k, Obj.isSwapShown w k → t.obj k = (s.forcedDone w).obj k := by
    intro k hk
    have hphase : k ≠ Obj.wardState w.toNat := by
      have := w.isLt
      rcases hk with rfl | rfl <;> simp only [Obj.loadStatus, Obj.epoch, Obj.wardState] <;> omega
    subst ht
    split
    · exact State.obj_wr_ne _ (.wardPhase w.toNat) 5 k hphase
    · rfl
  have hten : t.ten = (s.forcedDone w).ten := by
    subst ht
    split
    · exact State.wr_ten ..
    · rfl
  obtain ⟨hst, hcode, hepoch⟩ := s.goLive_shows w
    (s.sched w.toNat).forcedFacts (show 0x12 < 32 by decide)
  have hlive : ∀ k, Obj.isSwapShown w k → t.obj k = _ := fun k hk => (hobj k hk).trans (State.obj_congr (s.forcedDone_objs w) k)
  obtain ⟨hst', hcode'⟩ := State.rd_loadStatus_congr (hlive _ (.inl rfl))
  have hepoch' : t.rd (.epochOf w.toNat) = _ := congrArg (fun v => fget v 0 32) (hlive _ (.inr rfl))
  rw [State.sched_congr hten]
  exact ⟨hst'.trans hst, hcode'.trans hcode, hepoch'.trans hepoch, s.sched_forcedDone w⟩
end

/-- Settles O29. That a junction whose region is lost takes its bank without a marker is the model's choice (log entry 136). -/
theorem forcedSwapsRun : Obligations.ForcedSwapsRun := by
  unfold Obligations.ForcedSwapsRun
  intro s acc w r
  refine ⟨fun h => ⟨exec_forceNull h, exec_forceStaged h, exec_force_below h⟩, s.forced_forceBegin w false,
    fun n a hward hforced => ⟨fun hlost hfree ha => ?lost, fun m hlost hcommand hmward hsock hmoves ha => ?due⟩,
    fun hforcing hall hfree => ⟨_, exec_forcedSwapComplete hforcing hall hfree, State.forcedDone_shows rfl⟩⟩
  case lost =>
    subst ha
    exact exec_forcedMarkerArrive_lost hward hforced hlost hfree
  case due =>
    subst ha
    exact exec_forcedMarkerArrive_due hward hforced hlost hcommand hmward hsock hmoves

end Sys2Proof.Machine
end

section
/-! PROOFS. Tap, pools, coherent windows, and the slots of the transaction targets (R195, R251 to R255, R263, R272). -/

namespace Sys2Proof.Machine

/-! ## The transaction networks leave the objects -/

@[simp] theorem State.txnFrom_objs (s : State) (u : Nat) (p : TPkt) : (s.txnFrom u p).objs = s.objs := by
  unfold State.txnFrom
  split <;> rfl

@[simp] theorem State.txnFrom_cohWaits (s : State) (u : Nat) (p : TPkt) : (s.txnFrom u p).txn.cohWaits = s.txn.cohWaits := by
  unfold State.txnFrom
  split <;> rfl

@[simp] theorem State.target_txnFrom (s : State) (u v : Nat) (p : TPkt) : (s.txnFrom u p).target v = s.target v := by
  unfold State.txnFrom
  split <;> rfl

@[simp] theorem State.target_setTarget_same (s : State) (u : Nat) (x : TTarget) : (s.setTarget u x).target u = x :=
  Tbl.get_set_same ..

/-! ## TAP_CTRL -/

/-- The tap with the count of runs started again where a write of `x` sets ENABLE. -/
def State.tapStarted (s : State) (n : Nat) (x : Val) : State :=
  if s.rd ⟨Obj.tapCtrl n, 31, 1⟩ = 0 ∧ fget x 31 1 = 1 then s.setTap n { s.tap n with seen := 0 } else s

theorem State.tapStarted_objs (s : State) (n : Nat) (x : Val) : (s.tapStarted n x).objs = s.objs := by
  unfold State.tapStarted
  split <;> rfl

theorem State.tap_tapStarted_ne (s : State) {n m : Nat} (x : Val) (hm : m ≠ n) : (s.tapStarted n x).tap m = s.tap m := by
  unfold State.tapStarted
  split
  · exact Tbl.get_set_ne _ _ _ _ hm
  · rfl

theorem State.seen_tapStarted (s : State) (n : Nat) (x : Val) : ((s.tapStarted n x).tap n).seen =
    if fget (s.obj (Obj.tapCtrl n)) 31 1 = 0 ∧ fget x 31 1 = 1 then 0 else (s.tap n).seen := by
  unfold State.tapStarted State.rd
  split
  · exact congrArg TapState.seen (Tbl.get_set_same ..)
  · rfl

/-! ## POOL_SIZE -/

/-- The values that POOL_SIZE takes (R272). -/
def poolsFit (x : Val) : Prop :=
  (∀ l < 4, 1 ≤ fget x (8 * l) 8 ∧ fget x (8 * l) 8 ≤ 61) ∧ fget x 0 8 + fget x 8 8 + fget x 16 8 + fget x 24 8 ≤ 64

/-- What POOL_SIZE refuses is what does not fit. -/
theorem poolBad_iff (x : Val) :
    (((List.range 4).map (fun i => fget x (8 * i) 8)).any (fun y => y == 0 || decide (61 < y)) ||
      decide (64 < ((List.range 4).map (fun i => fget x (8 * i) 8)).sum)) = true ↔ ¬ poolsFit x := by
  have hsum : ((List.range 4).map (fun i => fget x (8 * i) 8)).sum = fget x 0 8 + fget x 8 8 + fget x 16 8 + fget x 24 8 := by
    simp [List.range_succ]
    omega
  rw [hsum]
  simp only [poolsFit, Classical.not_and_iff_not_or_not, Classical.not_forall, Bool.or_eq_true, List.any_map, List.any_eq_true, List.mem_range, Function.comp,
    decide_eq_true_eq, beq_iff_eq]
  refine or_congr ⟨fun ⟨l, hl, h⟩ => ⟨l, hl, by omega⟩, fun ⟨l, hl, h⟩ => ⟨l, hl, by omega⟩⟩ (by omega)

theorem Txn.writePoolSize_fits {s : State} {n : Nat} {x : Val} (h : poolsFit x) : Txn.writePoolSize n x s =
    .ok ((((((s.setObj (Obj.poolSize n) x).arbitrate (0xA0 + n) 0).arbitrate (0xA0 + n) 1).arbitrate (0xA0 + n) 2).arbitrate (0xA0 + n) 3)) := by
  unfold Txn.writePoolSize
  extract_lets f
  have hpools : List.range 4 = [0, 1, 2, 3] := rfl
  rw [if_neg (mt (poolBad_iff x).mp (Classical.not_not.mpr h)), hpools]
  simp only [List.foldl_cons, List.foldl_nil]

theorem Txn.writePoolSize_bad {s : State} {n : Nat} {x : Val} (h : ¬ poolsFit x) : Txn.writePoolSize n x s = .error .outOfRange := by
  unfold Txn.writePoolSize
  extract_lets f
  exact if_pos ((poolBad_iff x).mpr h)

/-! ## COH_WINDOW -/

@[simp] theorem State.sendSnoop_objs (s : State) (pt : Nat) (w : BitVec 4) (ty : BitVec 2) (stag : BitVec 8) (l c : Nat) :
    (s.sendSnoop pt w ty stag l c).objs = s.objs := State.txnFrom_objs ..

@[simp] theorem State.sendSnoop_cohWaits (s : State) (pt : Nat) (w : BitVec 4) (ty : BitVec 2) (stag : BitVec 8) (l c : Nat) :
    (s.sendSnoop pt w ty stag l c).txn.cohWaits = s.txn.cohWaits := State.txnFrom_cohWaits ..

/-- The snoops of a line leave the objects and the writes that wait. -/
theorem State.snoopLine_leaves (s : State) (pt : Nat) (w : BitVec 4) (ty : BitVec 2) (stag : BitVec 8) (l : Nat) (cores : List Nat) (ask : Bool) :
    (s.snoopLine pt w ty stag l cores ask).objs = s.objs ∧ (s.snoopLine pt w ty stag l cores ask).txn.cohWaits = s.txn.cohWaits := by
  have hcores : (cores.foldl (fun (a : State) c => a.sendSnoop pt w ty stag l c) s).objs = s.objs ∧
      (cores.foldl (fun (a : State) c => a.sendSnoop pt w ty stag l c) s).txn.cohWaits = s.txn.cohWaits :=
    List.foldlRecOn (motive := fun t : State => t.objs = s.objs ∧ t.txn.cohWaits = s.txn.cohWaits) cores _ ⟨rfl, rfl⟩
      (fun t ht c _ => ⟨(t.sendSnoop_objs ..).trans ht.1, (t.sendSnoop_cohWaits ..).trans ht.2⟩)
  unfold State.snoopLine
  extract_lets s1
  split
  · exact hcores
  · exact hcores

/-- The next line of a window's change leaves the objects, and what waits is the same change further on. -/
theorem State.windowNext_leaves (s : State) (c c0 : CohWait) : (s.windowNext c c0).objs = s.objs ∧
    ∃ c', c'.port = c.port ∧ c'.index = c.index ∧ c'.value = c.value ∧ c'.acc = c.acc ∧
      (s.windowNext c c0).txn.cohWaits = s.txn.cohWaits.map (fun x => if x = c0 then c' else x) := by
  unfold State.windowNext
  extract_lets w cores ask
  split
  · exact ⟨rfl, { c with next := c.stop, waits := [], asks := false }, rfl, rfl, rfl, rfl, rfl⟩
  · refine ⟨(State.snoopLine_leaves ..).1, { c with
      waits := cores ++ (if ask then [0x90 + c.port] else []), since := s.txnNow, asks := ask && !s.hostDrives c.port }, rfl, rfl, rfl, rfl, ?_⟩
    exact (State.snoopLine_leaves ..).2

/-- A changed window waits, with its new value and its request. -/
theorem State.windowChange_waits (s : State) (p i : Nat) (v : Val) (acc : Option Access) : (s.windowChange p i v acc).objs = s.objs ∧
    ∃ c ∈ (s.windowChange p i v acc).txn.cohWaits, c.port = p ∧ c.index = i ∧ c.value = v ∧ c.acc = acc := by
  unfold State.windowChange
  extract_lets old first stop c txn
  split
  · exact ⟨rfl, { c with next := stop }, List.mem_append_right _ (List.mem_singleton_self _), rfl, rfl, rfl, rfl⟩
  · obtain ⟨hobjs, c', hport, hindex, hvalue, hacc, hwaits⟩ :=
      ({ s with txn := { s.txn with cohWaits := s.txn.cohWaits ++ [c] } } : State).windowNext_leaves c c
    refine ⟨hobjs, c', ?_, hport, hindex, hvalue, hacc⟩
    rw [hwaits]
    exact List.mem_map.mpr ⟨c, List.mem_append_right _ (List.mem_singleton_self _), if_pos rfl⟩

theorem State.windowReady_iff (s : State) (c : CohWait) : s.windowReady c = true ↔
    c.waits = [] ∧ c.stop ≤ c.next ∧ ∀ o ∈ (s.tinit (0x90 + c.port)).open_, o.owner ≠ .nobody := by
  simp [State.windowReady, and_assoc]

section
variable {s : State} {acc : Access} {n i : Nat} {r : ObjRow} {v : BitVec 64} {x : Val}
  (h : s.MayWrite acc (Obj.cohWindow n i) r) (hx : x = s.value acc (Obj.cohWindow n i) r v)
include h

theorem exec_cohWindowWrite_absent (habsent : s.cfg.hsnp.getD n false = false) :
    exec (.cohWindowWrite acc n i v) s = .next (s.abortRequest acc 2 (Obj.cohWindow n i / 256) (Obj.cohWindow n i % 256) 0 .notPresent) :=
  congrArg Host.Outcome.next (State.serveLater_refused h (if_pos (by rw [habsent]; rfl)))

include hx
variable (hhere : s.cfg.hsnp.getD n false = true)
include hhere

theorem exec_cohWindowWrite_bad (hbad : s.cohBad n i x = true) :
    exec (.cohWindowWrite acc n i v) s = .next (s.abortRequest acc 2 (Obj.cohWindow n i / 256) (Obj.cohWindow n i % 256) 0 .outOfRange) := by
  subst hx
  have heff : Txn.writeWindow n i (s.value acc (Obj.cohWindow n i) r v) acc s = .error .outOfRange := by
    unfold Txn.writeWindow
    rw [hhere, hbad]
    rfl
  exact congrArg _ (State.serveLater_refused (eff := fun x => Txn.writeWindow n i x acc) h heff)

omit h in
/-- A window in range, of a ward that takes resources: stored at once, or waiting for the lines of the old one. -/
theorem Txn.writeWindow_good (hgood : s.cohBad n i x = false) (hward : fget x 63 1 = 0 ∨ s.wardTakes (fget x 58 4) = true) :
    Txn.writeWindow n i (s.value acc (Obj.cohWindow n i) r v) acc s =
      if fget (s.obj (Obj.cohWindow n i)) 63 1 = 1 ∧ s.obj (Obj.cohWindow n i) ≠ x then .ok (s.windowChange n i x (some acc), true)
      else .ok (s.setObj (Obj.cohWindow n i) x, false) := by
  subst hx
  have htakes : ¬ (fget (s.value acc (Obj.cohWindow n i) r v) 63 1 = 1 ∧
      (!s.wardTakes (fget (s.value acc (Obj.cohWindow n i) r v) 58 4)) = true) := by
    rcases hward with h | h <;> simp [h]
  unfold Txn.writeWindow
  rw [hhere, hgood]
  exact if_neg htakes

theorem exec_cohWindowWrite_stored (hgood : s.cohBad n i x = false) (hward : fget x 63 1 = 0 ∨ s.wardTakes (fget x 58 4) = true)
    (hsame : fget (s.obj (Obj.cohWindow n i)) 63 1 = 0 ∨ s.obj (Obj.cohWindow n i) = x) :
    exec (.cohWindowWrite acc n i v) s = .next ((s.setObj (Obj.cohWindow n i) x).written acc (Obj.cohWindow n i) r.ty) := by
  have hkeep : ¬ (fget (s.obj (Obj.cohWindow n i)) 63 1 = 1 ∧ s.obj (Obj.cohWindow n i) ≠ x) := by
    rcases hsame with h | h <;> simp [h]
  exact congrArg _ (State.serveLater_now (eff := fun x => Txn.writeWindow n i x acc) h
    ((Txn.writeWindow_good hx hhere hgood hward).trans (if_neg hkeep)))

theorem exec_cohWindowWrite_waits (hgood : s.cohBad n i x = false) (hward : fget x 63 1 = 0 ∨ s.wardTakes (fget x 58 4) = true)
    (hvalid : fget (s.obj (Obj.cohWindow n i)) 63 1 = 1) (hchanged : s.obj (Obj.cohWindow n i) ≠ x) :
    exec (.cohWindowWrite acc n i v) s = .next (s.windowChange n i x (some acc)) :=
  congrArg Host.Outcome.next (State.serveLater_waits (eff := fun x => Txn.writeWindow n i x acc) h
    ((Txn.writeWindow_good hx hhere hgood hward).trans (if_pos ⟨hvalid, hchanged⟩)))
end

section
variable {s a : State} {n i : Nat} {c : CohWait} (hfind : s.txn.cohWaits.find? (fun c => c.port == n && c.index == i) = some c)
include hfind

theorem exec_cohWindowInvalidateComplete_held (hready : s.windowReady c = false) :
    exec (.cohWindowInvalidateComplete n i) s = .next s := by
  simp [exec, execCohWindowInvalidateComplete, Txn.windowComplete, hfind, hready]

/-- A window whose lines are back takes its value, and its request is answered where there is one. -/
theorem exec_cohWindowInvalidateComplete_done (hready : s.windowReady c = true)
    (ha : a = ({ s with txn := { s.txn with cohWaits := s.txn.cohWaits.filter (fun x => x != c) } }.setObj (Obj.cohWindow n i) c.value).serve
      (0x90 + n)) :
    exec (.cohWindowInvalidateComplete n i) s = .next (match c.acc with
      | some acc => a.written acc (Obj.cohWindow n i) 4
      | none => a) := by
  have hdone : Txn.windowDone n i s = a := by
    rw [ha]
    simp only [Txn.windowDone, hfind, hready]
    rfl
  simp only [exec, execCohWindowInvalidateComplete, Txn.windowComplete, hfind, hready, hdone]
  rfl
end

/-- Settles O31. That the count of runs starts again when ENABLE rises is the model's reading (log entry 83). -/
theorem planeObjectsAreWritten : Obligations.PlaneObjectsAreWritten := by
  unfold Obligations.PlaneObjectsAreWritten
  intro s acc n i r
  refine ⟨fun v x h hx => ⟨(s.tapStarted n x).setObj (Obj.tapCtrl n) x, ?tap, State.obj_setObj_same .., fun k hk => ?others,
      s.seen_tapStarted n x, fun m hm => s.tap_tapStarted_ne x hm⟩,
    fun v x h hx => ⟨fun hpools hsum => ?fits, fun hbad => ?tooMany⟩,
    fun v x h hx hhere => ⟨exec_cohWindowWrite_bad h hx hhere, fun hgood hward =>
      ⟨exec_cohWindowWrite_stored h hx hhere hgood hward, fun hvalid hchanged =>
        ⟨exec_cohWindowWrite_waits h hx hhere hgood hward hvalid hchanged, s.windowChange_waits n i x (some acc)⟩⟩⟩,
    fun v h habsent => exec_cohWindowWrite_absent h habsent,
    fun c a hfind ha => ⟨fun hready acc' hacc => ?answered, fun hready hacc => ?silent, exec_cohWindowInvalidateComplete_held hfind,
      s.windowReady_iff c⟩⟩
  case tap =>
    subst hx
    exact congrArg _ (State.serveKey_next (eff := Tap.write n) h rfl)
  case others => exact (State.obj_setObj_ne _ _ hk).trans (State.obj_congr (s.tapStarted_objs n x) k)
  case fits =>
    subst hx
    exact congrArg _ (State.serveKey_next (eff := Txn.writePoolSize n) h (Txn.writePoolSize_fits ⟨hpools, hsum⟩))
  case tooMany =>
    subst hx
    have hnot : ¬ poolsFit (s.value acc (Obj.poolSize n) r (v.setWidth 64)) := by
      rintro ⟨hpools, hsum⟩
      rcases hbad with ⟨l, hl, hout⟩ | hover
      · have := hpools l hl
        omega
      · omega
    exact congrArg _ (State.serveKey_refused (eff := Txn.writePoolSize n) h (Txn.writePoolSize_bad hnot))
  case answered => rw [exec_cohWindowInvalidateComplete_done hfind hready ha, hacc]
  case silent => rw [exec_cohWindowInvalidateComplete_done hfind hready ha, hacc]

/-! ## Reservations -/

section
variable {s : State} {u : Nat} {p : TPkt}

/-- A reservation that waits alone is next in turn. -/
theorem TTarget.nextInTurn_alone {t : TTarget} (hlatches : t.latches = [p]) : t.nextInTurn u (poolOf u p.level) = some p := by
  have hlatched : t.latched u (poolOf u p.level) = [p] := by simp [TTarget.latched, hlatches]
  unfold TTarget.nextInTurn
  extract_lets rs last least
  have hrs : rs = [p] := hlatched
  rw [hrs]
  by_cases hturn : last ≤ p.src.toNat % 1024
  · simp [hturn, least]
  · simp [hturn, least]

theorem TTarget.nextInTurn_none {t : TTarget} (hlatches : t.latches = []) (pl : Nat) : t.nextInTurn u pl = none := by
  simp [TTarget.nextInTurn, TTarget.latched, hlatches]

/-- What a grant leaves of its target's slots and latches. -/
theorem State.target_grantSlot (s : State) (u : Nat) (p : TPkt) :
    ((s.grantSlot u p).target u).slots = (s.target u).slots ++ [⟨p.src, p.level, none, none, none, 0⟩] ∧
    ((s.grantSlot u p).target u).latches = (s.target u).latches.erase p := by
  unfold State.grantSlot
  extract_lets t s1
  split
  · exact ⟨congrArg TTarget.slots (State.target_setTarget_same ..), congrArg TTarget.latches (State.target_setTarget_same ..)⟩
  · rw [State.target_txnFrom]
    exact ⟨congrArg TTarget.slots (State.target_setTarget_same ..), congrArg TTarget.latches (State.target_setTarget_same ..)⟩

theorem State.arbStep_idle (harb : arbited u = false) (hlatches : (s.target u).latches = []) (pl : Nat) : s.arbStep u pl = s := by
  unfold State.arbStep
  rw [TTarget.nextInTurn_none hlatches, harb]
  split <;> rfl

theorem State.arbStep_full {pl : Nat} (hfull : s.poolSize u pl ≤ (s.target u).used u pl) : s.arbStep u pl = s := if_pos hfull

theorem State.arbitrate_full {pl : Nat} (hfull : s.poolSize u pl ≤ (s.target u).used u pl) : s.arbitrate u pl = s :=
  List.foldlRecOn (motive := fun t : State => t = s) _ _ rfl (fun t ht _ _ => by rw [ht]; exact State.arbStep_full hfull)

/-- A target without the standard arbiter grants the one reservation that waits when it has a slot. -/
theorem State.arbitrate_alone (harb : arbited u = false) (hlatches : (s.target u).latches = [p])
    (hroom : (s.target u).used u (poolOf u p.level) < s.poolSize u (poolOf u p.level)) :
    s.arbitrate u (poolOf u p.level) = s.grantSlot u p := by
  have hfirst : s.arbStep u (poolOf u p.level) = s.grantSlot u p := by
    unfold State.arbStep
    rw [if_neg (Nat.not_le.mpr hroom), harb, TTarget.nextInTurn_alone hlatches]
    rfl
  have hempty : ((s.grantSlot u p).target u).latches = [] := by rw [(s.target_grantSlot u p).2, hlatches]; simp
  have hsteps : List.range ((s.target u).latches.length + 1) = [0, 1] := by rw [hlatches]; rfl
  unfold State.arbitrate
  rw [hsteps]
  simp only [List.foldl_cons, List.foldl_nil, hfirst, State.arbStep_idle harb hempty]

/-- The reservation stands in its latch, before the pool's slots are granted. -/
def State.latched (s : State) (u : Nat) (p : TPkt) : State :=
  let t := s.target u
  let s1 := s.setTarget u { t with latches := t.latches.filter (fun x => x.src != p.src || poolOf u x.level != poolOf u p.level) ++ [p] }
  if arbited u ∧ Tbl.get none t.choices (poolOf u p.level) = none then s1.setChoice u (poolOf u p.level) (some p.src) else s1

theorem State.latchReservation_eq (s : State) (u : Nat) (p : TPkt) : s.latchReservation u p = (s.latched u p).arbitrate u (poolOf u p.level) := rfl

theorem State.target_latched (s : State) (u : Nat) (p : TPkt) : ((s.latched u p).target u).slots = (s.target u).slots ∧
    ((s.latched u p).target u).latches =
      (s.target u).latches.filter (fun x => x.src != p.src || poolOf u x.level != poolOf u p.level) ++ [p] := by
  unfold State.latched
  extract_lets t s1
  split
  · have hchoice : (s1.setChoice u (poolOf u p.level) (some p.src)).target u = _ := State.target_setTarget_same ..
    have hset : s1.target u = _ := State.target_setTarget_same ..
    rw [hchoice]
    exact ⟨(congrArg TTarget.slots hset :), (congrArg TTarget.latches hset :)⟩
  · have hset : s1.target u = _ := State.target_setTarget_same ..
    exact ⟨(congrArg TTarget.slots hset :), (congrArg TTarget.latches hset :)⟩

theorem State.poolSize_latched (s : State) (u : Nat) (p : TPkt) (pl : Nat) : (s.latched u p).poolSize u pl = s.poolSize u pl := by
  have hobjs : (s.latched u p).objs = s.objs := by
    unfold State.latched
    extract_lets t s1
    split <;> rfl
  simp only [State.poolSize, State.obj_congr hobjs]

theorem TTarget.used_congr {t t' : TTarget} (h : t.slots = t'.slots) (u pl : Nat) : t.used u pl = t'.used u pl := by
  rw [TTarget.used, h, TTarget.used]

/-- Where the pool has a slot and nobody waits, the reservation is granted one. -/
theorem State.latchReservation_granted (harb : arbited u = false) (hempty : (s.target u).latches = [])
    (hroom : (s.target u).used u (poolOf u p.level) < s.poolSize u (poolOf u p.level)) :
    ((s.latchReservation u p).target u).slots = (s.target u).slots ++ [⟨p.src, p.level, none, none, none, 0⟩] ∧
    ((s.latchReservation u p).target u).latches = [] := by
  obtain ⟨hslots, hlatches⟩ := s.target_latched u p
  rw [hempty] at hlatches
  have hroom' : ((s.latched u p).target u).used u (poolOf u p.level) < (s.latched u p).poolSize u (poolOf u p.level) := by
    rw [State.poolSize_latched, TTarget.used_congr hslots]
    exact hroom
  rw [State.latchReservation_eq, State.arbitrate_alone harb hlatches hroom', (State.target_grantSlot ..).1, (State.target_grantSlot ..).2,
    hslots, hlatches]
  exact ⟨rfl, by simp⟩

/-- Where the pool is full, the reservation waits in its latch. -/
theorem State.latchReservation_waits (hfull : s.poolSize u (poolOf u p.level) ≤ (s.target u).used u (poolOf u p.level)) :
    ((s.latchReservation u p).target u).slots = (s.target u).slots ∧ p ∈ ((s.latchReservation u p).target u).latches := by
  obtain ⟨hslots, hlatches⟩ := s.target_latched u p
  have hfull' : (s.latched u p).poolSize u (poolOf u p.level) ≤ ((s.latched u p).target u).used u (poolOf u p.level) := by
    rw [State.poolSize_latched, TTarget.used_congr hslots]
    exact hfull
  rw [State.latchReservation_eq, State.arbitrate_full hfull', hlatches]
  exact ⟨hslots, List.mem_append_right _ (List.mem_singleton_self p)⟩
end

/-! ## Grants and back-offs -/

theorem State.useSlot_waits {s : State} {u : Nat} {tgt : BitVec 16} {level : BitVec 2} {o : OpenTxn} {rest : List OpenTxn}
    (ward : BitVec 4) (carried : Nat) (hsend : (s.tinit u).sendable (claimKey tgt level) = o :: rest) :
    s.useSlot u tgt level ward carried = (s.sendTxn u o carried).reservePools u tgt level := by
  simp only [State.useSlot, hsend]

theorem State.useSlot_idle {s : State} {u : Nat} {tgt : BitVec 16} {level : BitVec 2} (ward : BitVec 4) (carried : Nat)
    (hsend : (s.tinit u).sendable (claimKey tgt level) = []) : s.useSlot u tgt level ward carried =
      s.txnFrom u { TPkt.blank with kind := .giveBack, level := level, ward := ward, src := s.ep u, dest := tgt } := by
  simp only [State.useSlot, hsend]

/-- What an initiator may send does not depend on its claims. -/
theorem State.sendable_setClaim (s : State) (u k j : Nat) (c : Claim) : ((s.setClaim u k c).tinit u).sendable j = (s.tinit u).sendable j := by
  have hset : (s.setClaim u k c).tinit u = { s.tinit u with claims := Tbl.set Claim.zero (s.tinit u).claims k c } := Tbl.get_set_same ..
  rw [hset]
  rfl

section
variable {s s1 : State} {u : Nat} {p : TPkt}

theorem exec_slotReservationArrive (h : s.takeKind .reserve u = .ok (p, s1)) :
    exec (.slotReservationArrive u) s = .next (s1.latchReservation u p) := by
  simp only [exec, execSlotReservationArrive, Txn.reservationArrive, h]

theorem exec_leaseReturnArrive (h : s.takeKind .giveBack u = .ok (p, s1)) : exec (.leaseReturnArrive u) s = .next (s1.takeReturn u p) := by
  simp only [exec, execLeaseReturnArrive, Txn.leaseArrive, h]

theorem exec_slotGrantArrive (h : s.takeKind .grant u = .ok (p, s1)) :
    exec (.slotGrantArrive u) s = .next ((s1.setClaim u (claimKey p.src p.level) Claim.zero).useSlot u p.src p.level p.ward 1) := by
  simp only [exec, execSlotGrantArrive, Txn.grantArrive, h]

theorem exec_slotBackoffArrive (h : s.takeKind .backoff u = .ok (p, s1)) : exec (.slotBackoffArrive u) s =
    .next (s1.setClaim u (claimKey p.src p.level) ⟨false, s1.waitNow + s1.backoffWait p.streak.toNat + 1⟩) := by
  simp only [exec, execSlotBackoffArrive, Txn.backoffArrive, h]

/-- The wait of an initiator towards a target ends. -/
theorem exec_backoffExpire_claim {tgt t k : Nat} {level : BitVec 2} (hk : k = 4 * (tgt % 1024) + poolOf (tgt % 1024) level)
    (htgt : tgt < 0x300) (hu : u < 0x3F0) (hretry : (Tbl.get Claim.zero (s.tinit u).claims k).retryAt = t + 1)
    (hdue : s.waitDue t = some s1) : exec (.backoffExpire u tgt level) s = .next ((s1.setClaim u k Claim.zero).reserveFor u k) := by
  subst hk
  have hgate : ¬ (0x80 ≤ u ∧ u < 0x90 ∧ 0x300 ≤ tgt ∧ tgt < 0x320) := by omega
  have hpath : ¬ pathUnitBase ≤ u := by simp only [pathUnitBase]; omega
  simp only [exec, execBackoffExpire, Txn.backoffEnd, if_neg hgate, if_neg hpath, Txn.backoffExpire, hretry, hdue]

/-- The wait of a path of the tile's own ends. -/
theorem exec_backoffExpire_path {tgt t : Nat} {level : BitVec 2} (hu : 0x3F0 ≤ u) (htries : Tbl.get 0 s.dict.tries u = t + 1)
    (hdue : s.waitDue t = some s1) : exec (.backoffExpire u tgt level) s =
      .next ({ s1 with dict := { s1.dict with tries := Tbl.set 0 s1.dict.tries u 0 } }.pathAsk u) := by
  have hgate : ¬ (0x80 ≤ u ∧ u < 0x90 ∧ 0x300 ≤ tgt ∧ tgt < 0x320) := by omega
  simp only [exec, execBackoffExpire, Txn.backoffEnd, if_neg hgate, if_pos (show pathUnitBase ≤ u from hu), State.pathRetry, htries, hdue]
end

/-- Settles O32. The clause of the tile's own paths, from unit 0x3F0, is the model's choice (log entry 141). -/
theorem slotsAreReservedGrantedAndReturned : Obligations.SlotsAreReservedGrantedAndReturned := by
  unfold Obligations.SlotsAreReservedGrantedAndReturned
  intro s s1 u p
  refine ⟨fun h => ⟨exec_slotReservationArrive h, State.latchReservation_granted, State.latchReservation_waits⟩,
    fun x h hfind => ?returned, fun a h ha => ⟨fun o rest hsend => ?used, fun hidle => ?givenBack⟩, exec_slotBackoffArrive,
    fun tgt level k t hk htgt hu hretry hdue => exec_backoffExpire_claim hk htgt hu hretry hdue,
    fun tgt level t hu htries hdue => exec_backoffExpire_path hu htries hdue⟩
  case returned =>
    rw [exec_leaseReturnArrive h]
    simp only [State.takeReturn, hfind]
  case used =>
    subst ha
    rw [exec_slotGrantArrive h, State.useSlot_waits p.ward 1 ((State.sendable_setClaim ..).trans hsend)]
  case givenBack =>
    subst ha
    rw [exec_slotGrantArrive h, State.useSlot_idle p.ward 1 ((State.sendable_setClaim ..).trans hidle)]
    rfl

end Sys2Proof.Machine
end

section
/-! PROOFS. The transaction networks: flits, packets, and what arrives at a unit (R240, R245 to R250, R260, R264). -/

namespace Sys2Proof.Machine

/-! ## Flits -/

/-- One wrong bit of the first flit of a packet, data or code, leaves no data bit wrong. -/
theorem Hamming.decode_one_clean {net : Net} (hnet : net ≠ .data) {b : Nat} (hb : b < (netWidth net).1 + (netWidth net).2 + 1) :
    (Hamming.decode (netWidth net).1 (netWidth net).2 [b]).bad = false ∧ (Hamming.decode (netWidth net).1 (netWidth net).2 [b]).wrong = [] := by
  have hwide : ∀ b < 192, (Hamming.decode 183 8 [b]).bad = false ∧ (Hamming.decode 183 8 [b]).wrong = [] := by decide +kernel
  have hnarrow : ∀ b < 96, (Hamming.decode 88 7 [b]).bad = false ∧ (Hamming.decode 88 7 [b]).wrong = [] := by decide +kernel
  cases net with
  | request => exact hwide b hb
  | response => exact hnarrow b hb
  | snoop => exact hnarrow b hb
  | data => exact (hnet rfl).elim

section
variable {s : State} {n i : Nat} {p : TPkt} {rest : List TPkt}

/-- The first flit of a packet arrives where handshakes pass and the input's buffer is free. -/
theorem exec_txnFlitArrive_first {net : Net} (flips : List Nat) (hmoves : s.moves n = true) (hqueue : (s.tlink (tKey net n i)).queue = p :: rest)
    (hfree : Tbl.get [] s.txn.bufs (tKey net n i) = []) (hfirst : net ≠ .data ∨ (s.tlink (tKey net n i)).pos = 0) :
    exec (.txnFlitArrive n net i flips) s = .next ((s.txnFirst net n i flips p rest).touch n) := by
  obtain ⟨-, hactive, -⟩ := (s.moves_iff n).mp hmoves
  have hungated : s.regionStateOf (s.regionOf n) ≠ 4 := by omega
  have hfirst' : ¬ (net = .data ∧ (s.tlink (tKey net n i)).pos ≠ 0) := fun ⟨hdata, hpos⟩ => hfirst.elim (fun h => h hdata) hpos
  simp only [exec, execTxnFlitArrive, Txn.flitArrive, hqueue, if_neg hungated, hmoves, hfree, if_neg hfirst']
  rfl

/-- A packet of one flit is taken whole, where the code finds nothing it cannot put right. -/
theorem State.txnFirst_whole {net : Net} (flips : List Nat) (hnet : net ≠ .data) (hinj : s.txnInjected net n i = false)
    (hgood : (Hamming.decode (netWidth net).1 (netWidth net).2 (flips.filter (fun b => decide (b < (netWidth net).1 + (netWidth net).2 + 1)))).bad = false)
    (hclean : (Hamming.decode (netWidth net).1 (netWidth net).2 (flips.filter (fun b => decide (b < (netWidth net).1 + (netWidth net).2 + 1)))).wrong = []) :
    s.txnFirst net n i flips p rest = (s.setTlink (tKey net n i) { s.tlink (tKey net n i) with queue := rest }).txnBuffer net n i p := by
  simp only [State.txnFirst, hinj, Bool.false_eq_true, if_false, List.append_nil, hgood, hclean, if_neg hnet, List.isEmpty_nil, if_true]

/-- The head of a data packet begins to be put together. -/
theorem State.txnFirst_head (hinj : s.txnInjected .data n i = false) : s.txnFirst .data n i [] p rest =
    s.setTlink (tKey .data n i) { s.tlink (tKey .data n i) with pos := 1, asm := some p, entries := [], lost := false } := by
  have hnil : Hamming.decode (netWidth .data).1 (netWidth .data).2 [] = ⟨false, none, []⟩ := Hamming.decode_nil _ _
  simp only [State.txnFirst, hinj, Bool.false_eq_true, if_false, List.filter_nil, List.append_nil, hnil, List.isEmpty_nil, if_true]
end

/-! ## Packets -/

section
variable {s : State} {n o i : Nat} {net : Net} {p : TPkt} (hmoves : s.moves n = true) (hpick : s.txnPick net n o = some (i, p))
include hmoves hpick

/-- A packet for a mesh port whose region is up passes when the next input has room, and stays otherwise. -/
theorem exec_txnPacketForward_mesh {m : Nat} (ho : o < 4) (hneighbour : s.cfg.neighbour n o = some m)
    (hup : s.regionStateOf (s.regionOf m) = 2 ∨ s.regionStateOf (s.regionOf m) = 3) :
    exec (.txnPacketForward n net o) s = .next (if (s.tlink (tKey net m (facing o))).queue.length < 2 then
      ((s.txnTake net n o i).txnSend m (facing o) p).touch n else s) := by
  have hmesh : o ≠ 7 := by omega
  have hungated : s.regionStateOf (s.regionOf m) ≠ 4 := by omega
  have hlost : s.junctionLost m = false := by simp only [State.junctionLost, decide_eq_false_iff_not]; omega
  simp only [exec, execTxnPacketForward, Txn.forward, hmoves, hpick, if_neg hmesh, if_pos ho, hneighbour, hlost, if_neg hungated]
  rfl

theorem exec_txnPacketForward_lost {m : Nat} (ho : o < 4) (hneighbour : s.cfg.neighbour n o = some m) (hlost : s.junctionLost m = true) :
    exec (.txnPacketForward n net o) s = .next ((s.txnTake net n o i).touch n) := by
  have hmesh : o ≠ 7 := by omega
  simp only [exec, execTxnPacketForward, Txn.forward, hmoves, hpick, if_neg hmesh, if_pos ho, hneighbour, hlost]
  rfl

/-- At the end of its way a packet reaches its unit, a snoop its core. -/
theorem exec_txnPacketForward_unit (hlow : 4 ≤ o) (hhigh : o < 7) {a : State} (ha : a = (s.txnTake net n o i).touch n) :
    exec (.txnPacketForward n net o) s = .next (if p.kind = .snoop ∧ p.dest.toNat % 1024 < 0x78 then a.snoopCore n (p.dest.toNat % 1024) p
      else a.txnArrive p) := by
  subst ha
  have hmesh : o ≠ 7 := by omega
  have hlocal : ¬ o < 4 := by omega
  simp only [exec, execTxnPacketForward, Txn.forward, hmoves, hpick, if_neg hmesh, if_neg hlocal]
  rfl
end

/-- A snoop that alone waits for its core is driven at once, where the adapter can. -/
theorem State.snoopsGo_alone {a : State} {n : Nat} {x : CoreSnoop} (hcore : x.core = n) (hnew : x.driven = false) (hdrives : a.drives n .a = true)
    (hold : ∀ y ∈ a.txn.snoops, y.core = n → y.driven = true) :
    (({ a with txn := { a.txn with snoops := a.txn.snoops ++ [x] } } : State).snoopsGo n).out = a.out ++ [.sq n x.line x.ty x.stag] ∧
    (({ a with txn := { a.txn with snoops := a.txn.snoops ++ [x] } } : State).snoopsGo n).objs = a.objs := by
  have hmine : (a.txn.snoops ++ [x]).filter (fun y => y.core == n && !y.driven) = [x] := by
    have hnone : a.txn.snoops.filter (fun y => y.core == n && !y.driven) = [] := by
      rw [List.filter_eq_nil_iff]
      intro y hy
      by_cases hyn : y.core = n <;> simp [hyn, hold y hy]
    rw [List.filter_append, hnone]
    simp [hcore, hnew]
  have hdrives' : ({ a with txn := { a.txn with snoops := a.txn.snoops ++ [x] } } : State).drives n .a = true := hdrives
  simp only [State.snoopsGo, hdrives', hmine]
  exact ⟨rfl, rfl⟩

/-- Settles O33. That a link holds at most two packets, and passes them whole, is the model's choice (log entry 94). -/
theorem transactionPacketsTravel : Obligations.TransactionPacketsTravel := by
  unfold Obligations.TransactionPacketsTravel
  intro s n hmoves
  refine ⟨fun net i p rest b hqueue hnet hfree hinj hb => ⟨?clean, ?corrected⟩, fun i p rest hqueue hfree hpos hinj => ?head,
    fun net o i p m hpick ho hneighbour => ⟨fun hup => ⟨fun hroom => ?passed, fun hfull => ?stays⟩,
      exec_txnPacketForward_lost hmoves hpick ho hneighbour⟩,
    fun net o i p a hpick hlow hhigh ha => ⟨fun hunit => ?unit, fun c hc hsnoop hcore => ⟨fun hbad => ?spoilt, fun hgood t ht =>
      ⟨?snooped, fun hdrives hold => ?driven⟩⟩⟩⟩
  case clean => rw [exec_txnFlitArrive_first [] hmoves hqueue hfree (.inl hnet), State.txnFirst_whole [] hnet hinj rfl rfl]
  case corrected =>
    obtain ⟨hgood, hclean⟩ := Hamming.decode_one_clean hnet hb
    have hown : [b].filter (fun b => decide (b < (netWidth net).1 + (netWidth net).2 + 1)) = [b] := by
      exact List.filter_eq_self.mpr fun x hx => by rw [List.mem_singleton.mp hx]; exact decide_eq_true hb
    rw [exec_txnFlitArrive_first [b] hmoves hqueue hfree (.inl hnet), exec_txnFlitArrive_first [] hmoves hqueue hfree (.inl hnet),
      State.txnFirst_whole [] hnet hinj rfl rfl, State.txnFirst_whole [b] hnet hinj (by rw [hown]; exact hgood) (by rw [hown]; exact hclean)]
  case head => rw [exec_txnFlitArrive_first [] hmoves hqueue hfree (.inr hpos), State.txnFirst_head hinj]
  case passed => rw [exec_txnPacketForward_mesh hmoves hpick ho hneighbour hup, if_pos hroom]
  case stays => rw [exec_txnPacketForward_mesh hmoves hpick ho hneighbour hup, if_neg (by omega)]
  case unit => rw [exec_txnPacketForward_unit hmoves hpick hlow hhigh ha, if_neg (fun ⟨h, h'⟩ => hunit.elim (fun g => g h) (fun g => by omega))]
  case spoilt =>
    subst hc
    rw [exec_txnPacketForward_unit hmoves hpick hlow hhigh ha, if_pos ⟨hsnoop, hcore⟩, State.snoopCore, if_pos hbad]
  case snooped =>
    subst hc
    rw [exec_txnPacketForward_unit hmoves hpick hlow hhigh ha, if_pos ⟨hsnoop, hcore⟩, State.snoopCore, if_neg (by rw [hgood]; decide), ← ht]
  case driven =>
    subst ht
    exact State.snoopsGo_alone rfl rfl hdrives hold

/-! ## Requests and answers at a unit -/

section
variable {s s1 : State} {u n : Nat} {p : TPkt}

theorem State.fillSlot_fresh {x : Slot} (hfind : (s1.target u).slots.find? (fun x => x.src == p.src && poolOf u x.level == poolOf u p.level && x.rq.isNone) = some x)
    (hearly : (s1.target u).early = []) : s1.fillSlot u p = s1.setTarget u { s1.target u with
      slots := (s1.target u).slots.erase x ++ [{ x with rq := some p, data := none }], early := [] } := by
  simp only [State.fillSlot, hfind, hearly, List.find?_nil, List.filter_nil]

theorem exec_txnRequestArrive (h : s.takeKind .request u = .ok (p, s1)) : exec (.txnRequestArrive u) s = .next ((s1.fillSlot u p).serve u) := by
  simp only [exec, execTxnRequestArrive, Txn.requestArrive, h]

theorem exec_txnResponseArrive (h : s.takeKind .completion u = .ok (p, s1)) :
    exec (.txnResponseArrive u) s = .next ((s1.answerArrives u p p.status []).settleUnit u) := by
  simp only [exec, execTxnResponseArrive, Txn.responseArrive, h]

theorem State.answerArrives_open {o : OpenTxn} (status : BitVec 3) (data : List (BitVec 1024))
    (hopen : (s1.tinit u).open_.find? (fun o => o.stage == 2 && o.tag == p.tag && o.gen == p.gen) = some o) :
    s1.answerArrives u p status data = s1.finishTxn u o status data := by
  simp only [State.answerArrives, hopen]

theorem State.answerArrives_late (status : BitVec 3) (data : List (BitVec 1024))
    (hlate : (s1.tinit u).open_.find? (fun o => o.stage == 2 && o.tag == p.tag && o.gen == p.gen) = none) :
    s1.answerArrives u p status data = s1.lateAnswer u p.tag p.gen := by
  simp only [State.answerArrives, hlate]

section
variable (hunit : s.cfg.unitJunction u = some n) (hmoves : s.moves n = true)
  (hdata : s.takeArrived .data u (fun p => p.dkind != 2) = some (p, s1))
include hunit hmoves hdata

theorem exec_txnDataArrive_read (hkind : p.dkind = 1) :
    exec (.txnDataArrive u) s = .next ((s1.readDataArrives n u p).settleUnit u) := by
  simp only [exec, execTxnDataArrive, Txn.dataArrive, hunit, hmoves, hdata, if_pos hkind]
  rfl

theorem exec_txnDataArrive_write (hkind : p.dkind = 0) : exec (.txnDataArrive u) s = .next ((
    if s1.txnOuterFails n u p then ((s1.txnOuterRaise n u p).fillData u { p with status := Status.uncorrectable }).serve u
    else (s1.fillData u { p with status := 0 }).serve u).settleUnit u) := by
  have hread : p.dkind ≠ 1 := by rw [hkind]; decide
  simp only [exec, execTxnDataArrive, Txn.dataArrive, hunit, hmoves, hdata, if_neg hread, if_neg (Classical.not_not.mpr hkind)]
  rfl
end
end

/-- Settles O34: each arrival goes by what its unit has open, and at a gate the engine then goes on. -/
theorem requestsAndAnswersArrive : Obligations.RequestsAndAnswersArrive := by
  unfold Obligations.RequestsAndAnswersArrive
  intro s s1 u n p
  refine ⟨fun h => ⟨exec_txnRequestArrive h, fun x hfind hearly => State.fillSlot_fresh hfind hearly⟩, fun t hother => ?elsewhere,
    fun t g hg => ?gate, fun h => ⟨fun o hopen => ?answered, fun hlate => ?late⟩,
    fun hunit hmoves hdata => ⟨fun hkind hgood o hopen => ?read, fun hkind hbad => ?readBad, fun hkind hgood => ?write, fun hkind hbad => ?writeBad⟩⟩
  case elsewhere => exact if_neg (by omega)
  case gate =>
    have hunit : 0x80 + g - 0x80 = g := by omega
    rw [State.settleUnit, if_pos (by omega), hunit]
  case answered => rw [exec_txnResponseArrive h, State.answerArrives_open _ _ hopen]
  case late => rw [exec_txnResponseArrive h, State.answerArrives_late _ _ hlate]
  case read =>
    rw [exec_txnDataArrive_read hunit hmoves hdata hkind]
    simp only [State.readDataArrives, hgood, Bool.false_eq_true, if_false, State.answerArrives_open _ _ hopen]
  case readBad =>
    rw [exec_txnDataArrive_read hunit hmoves hdata hkind]
    simp only [State.readDataArrives, hbad, if_true]
  case write => rw [exec_txnDataArrive_write hunit hmoves hdata hkind, hgood, if_neg (by decide)]
  case writeBad => rw [exec_txnDataArrive_write hunit hmoves hdata hkind, hbad, if_pos rfl]

end Sys2Proof.Machine
end

section
/-! PROOFS. Initiators accept, time and answer transactions; targets are answered by what stands behind them
(R49 to R56, R242 to R244, R259 to R261, R410). -/

namespace Sys2Proof.Machine

/-! ## A core port -/

@[simp] theorem State.tinit_setTinit_same (s : State) (u : Nat) (x : TInit) : (s.setTinit u x).tinit u = x := Tbl.get_set_same ..

@[simp] theorem State.tinit_touch (s : State) (n u : Nat) : (s.touch n).tinit u = s.tinit u := rfl

/-- A core port is its own unit's junction. -/
theorem Integration.unitJunction_core {c : Integration} {n : Nat} (hport : c.corePort n = true) (hn : n < 0x78) : c.unitJunction n = some n := by
  have hin : n < c.njs := by
    refine Decidable.byContradiction fun hout => ?_
    simp [Integration.corePort, Integration.adapterAt, hout] at hport
  simp [Integration.unitJunction, hn, hin, hport]

/-- The answer without data that a core port gives its own request waits for the core. -/
theorem State.answerOwner_core {s : State} {n : Nat} {o : OpenTxn} {st : BitVec 3} (hport : s.cfg.corePort n = true) (hn : n < 0x78)
    (hheld : s.adapterHeld n .a = false) (howner : o.owner = .port) (hst : st ≠ Status.wardRefused) (hst0 : st ≠ 0) :
    s.answerOwner n o st [] = s.setTinit n { s.tinit n with ready := (s.tinit n).ready ++ [⟨o.tag, st, [0]⟩] } := by
  have hnonzero : st ≠ 0#3 := hst0
  simp [State.answerOwner, Integration.unitJunction_core hport hn, hst, hnonzero, howner, hheld, answerBeats]

/-- WARD_REFUSED at a core port is counted in TXN_STAT. -/
theorem State.answerOwner_core_refused {s : State} {n : Nat} {o : OpenTxn} (hport : s.cfg.corePort n = true) (hn : n < 0x78)
    (hheld : s.adapterHeld n .a = false) (howner : o.owner = .port) : s.answerOwner n o Status.wardRefused [] =
      (s.bump (.txnRefused n) 1).setTinit n { s.tinit n with ready := (s.tinit n).ready ++ [⟨o.tag, Status.wardRefused, [0]⟩] } := by
  simp [State.answerOwner, Integration.unitJunction_core hport hn, howner, hheld, answerBeats, hn]
  rfl

section
variable {s : State} {n u : Nat} {rq : TxnArgs} {a : TAsk} {g : BitVec 4}

/-- The initiator once the use of a tag has counted. -/
def State.tagUsed (s : State) (n : Nat) (tag : BitVec 10) : State :=
  s.setTinit n { s.tinit n with gens := Tbl.set 0 (s.tinit n).gens tag.toNat (Tbl.get 0 (s.tinit n).gens tag.toNat + 1) }

theorem State.acceptTxn_refused (tag : BitVec 10) (owner : TxnOwner) (hbreaks : s.breaksRules n a.shaped = true) : s.acceptTxn n a tag owner =
    (s.tagUsed n tag).answerOwner n (a.shaped.toOpen tag (Tbl.get 0 (s.tinit n).gens tag.toNat) 0 s.txnNow owner) Status.targetError [] :=
  if_pos hbreaks

theorem State.acceptTxn_routed (tag : BitVec 10) (owner : TxnOwner) (hkeeps : s.breaksRules n a.shaped = false) (hop : a.op ≠ 6) :
    s.acceptTxn n a tag owner = match s.routeOf n a.shaped with
      | .unit t => (s.tagUsed n tag).openTxn n a.shaped (s.ep t) tag (Tbl.get 0 (s.tinit n).gens tag.toNat) owner
      | .none st => (s.tagUsed n tag).answerOwner n
          (a.shaped.toOpen tag (Tbl.get 0 (s.tinit n).gens tag.toNat) 0 s.txnNow owner) st [] := by
  have hop' : a.shaped.op ≠ 6 := hop
  cases hroute : s.routeOf n a.shaped <;>
    simp only [State.acceptTxn, hkeeps, if_neg hop', if_neg Bool.false_ne_true, State.tagUsed, hroute]

theorem State.acceptTxn_fence (tag : BitVec 10) (owner : TxnOwner) (hkeeps : s.breaksRules n a.shaped = false) (hop : a.op = 6) :
    s.acceptTxn n a tag owner =
      (s.tagUsed n tag).openTxn n a.shaped 0 tag (Tbl.get 0 (s.tinit n).gens tag.toNat) owner := by
  have hop' : a.shaped.op = 6 := hop
  simp only [State.acceptTxn, hkeeps, if_pos hop', if_neg Bool.false_ne_true, State.tagUsed]

/-- A request of firmware is tried as it stands, in ward 0 and at LEVEL 3. -/
theorem exec_txnRequestAccept_firmware (hrun : s.running = true) (hfree : s.frozen = false) (htag : (s.tinit 0xC1).tagFree rq.tag = true) :
    exec (.txnRequestAccept 0xC1 rq) s = .next (s.acceptTxn 0xC1 ⟨rq.op, rq.addr, rq.lenM1, 3, 0, rq.data, rq.strb⟩ rq.tag .port) := by
  simp [exec, execTxnRequestAccept, Txn.accept, hrun, hfree, htag]

section
variable (hport : s.cfg.corePort n = true) (hn : n < 0x78) (hlive : s.adapterLive n .a = true) (hmoves : s.moves n = true)
  (hlow : rq.tag.toNat < 256) (htag : (s.tinit n).tagFree rq.tag = true)
  (hroom : (s.tinit n).open_.length + (s.tinit n).ready.length < s.cfg.outstanding n)
  (ha : a = ⟨rq.op, rq.addr, rq.lenM1, s.levelOf ((s.wardOf n).getD 0) rq.prio, (s.wardOf n).getD 0, rq.data, rq.strb⟩)
include hport hn hlive hmoves hlow htag hroom ha

theorem exec_txnRequestAccept_core : exec (.txnRequestAccept n rq) s = .next
    (if s.portClosed n then (s.answerOwner n (a.toOpen rq.tag 0 0 s.txnNow .port) Status.wardRefused []).touch n
      else (s.acceptTxn n a rq.tag .port).touch n) := by
  obtain ⟨hrun, hactive, -⟩ := (s.moves_iff n).mp hmoves
  have hungated : s.regionStateOf (s.regionOf n) ≠ 4 := by omega
  subst ha
  simp only [exec, execTxnRequestAccept, Txn.accept, if_pos hn, Txn.acceptCore, hport, hrun, hlive, if_neg hungated, hmoves, htag,
    Nat.not_le.mpr hlow, Nat.not_le.mpr hroom]
  rfl

theorem exec_txnRequestAccept_answered {st : BitVec 3} (hopen : s.portClosed n = false) (hst : st ≠ Status.wardRefused) (hst0 : st ≠ 0)
    (hanswer : s.acceptTxn n a rq.tag .port = (s.tagUsed n rq.tag).answerOwner n
      (a.shaped.toOpen rq.tag (Tbl.get 0 (s.tinit n).gens rq.tag.toNat) 0 s.txnNow .port) st []) :
    ∃ t : State, exec (.txnRequestAccept n rq) s = .next t ∧ (t.tinit n).ready = (s.tinit n).ready ++ [⟨rq.tag, st, [0]⟩] ∧
      (t.tinit n).open_ = (s.tinit n).open_ ∧ t.txn.links = s.txn.links ∧ t.objs = s.objs := by
  have hheld : s.adapterHeld n .a = false := by simpa using (Bool.and_eq_true_iff.mp hlive).1
  rw [exec_txnRequestAccept_core hport hn hlive hmoves hlow htag hroom ha, hopen, if_neg (by decide), hanswer,
    State.answerOwner_core (s := s.tagUsed n rq.tag) hport hn hheld rfl hst hst0]
  refine ⟨_, rfl, ?_, ?_, rfl, rfl⟩ <;> simp [State.tagUsed, TAsk.toOpen]

/-- A closed port answers WARD_REFUSED, and counts it. -/
theorem exec_txnRequestAccept_closed (hclosed : s.portClosed n = true) : ∃ t : State, exec (.txnRequestAccept n rq) s = .next t ∧
    (t.tinit n).ready = (s.tinit n).ready ++ [⟨rq.tag, Status.wardRefused, [0]⟩] ∧ t.txn.links = s.txn.links ∧
    t.rd (.txnRefused n) = min (s.rd (.txnRefused n) + 1) 255 := by
  have hheld : s.adapterHeld n .a = false := by simpa using (Bool.and_eq_true_iff.mp hlive).1
  rw [exec_txnRequestAccept_core hport hn hlive hmoves hlow htag hroom ha, hclosed, if_pos rfl,
    State.answerOwner_core_refused hport hn hheld rfl]
  exact ⟨_, rfl, congrArg TInit.ready (State.tinit_setTinit_same ..), rfl, s.rd_bump_same (.txnRefused n) 1 (by simp [Fld.txnRefused])⟩
end

/-! ## Tokens, answers and timeouts -/

theorem exec_tokenBucketRelease {o : OpenTxn} (hfirst : (s.tinit u).open_.find? (fun o => o.stage == 0) = some o) (hfree : s.frozen = false) :
    exec (.tokenBucketRelease u) s = .next ((s.advance (s.tokenWait u o).1).txnGo u) := by
  simp only [exec, execTokenBucketRelease, Txn.tokens, hfirst, hfree]
  rfl

theorem exec_trResponseBeat {r : TReady} {b : BitVec 1024} {rest : List TReady} {more : List (BitVec 1024)}
    (hready : (s.tinit u).ready = r :: rest) (hbeats : r.beats = b :: more) (hrun : s.running = true) (hfree : s.frozen = false)
    (hlive : u < 0x78 → s.adapterLive ((s.cfg.unitJunction u).getD 0) .a = true ∧ s.junctionActive ((s.cfg.unitJunction u).getD 0) = true) :
    exec (.trResponseBeat u) s = .next ((s.setTinit u { s.tinit u with ready := if more.isEmpty then rest else { r with beats := more } :: rest }).emit
      (.tr u r.tag r.status b more.isEmpty)) := by
  have hopen : ¬ (!s.running ∨ (u < 0x78 ∧ (!s.adapterLive ((s.cfg.unitJunction u).getD 0) .a ∨
      !s.junctionActive ((s.cfg.unitJunction u).getD 0)))) := by
    rintro (h | ⟨hu, h⟩)
    · simp [hrun] at h
    · simp [hlive hu] at h
  have hlast : decide ((b :: more).length ≤ 1) = more.isEmpty := by cases more <;> simp
  simp only [exec, execTrResponseBeat, Txn.responseBeat, hready, if_neg hopen, State.offer_of_free _ hfree, hbeats, hlast, List.tail_cons, List.headD_cons]

theorem exec_txnTimeoutExpire {tag : BitVec 10} {o : OpenTxn} {s1 : State} (hopen : (s.tinit u).open_.find? (fun o => o.tag == tag) = some o)
    (hdue : s.txnDue (o.since + (s.obj (Obj.txnTimeout o.ward.toNat)).toNat) = some s1) :
    exec (.txnTimeoutExpire u tag) s = .next (s1.timeoutTxn u o) := by
  simp only [exec, execTxnTimeoutExpire, Txn.timeout, hopen, hdue]

theorem State.tinit_of_txnDue {t : Nat} {s1 : State} (h : s.txnDue t = some s1) (u : Nat) : s1.tinit u = s.tinit u := by
  unfold State.txnDue at h
  split at h
  · cases h
  · cases h; rfl

theorem exec_tagQuarantineExpire {tag : BitVec 10} {q : OpenTxn × Nat} {s1 : State}
    (hquarantine : (s.tinit u).quarantine.find? (fun q => q.1.tag == tag) = some q) (hdue : s.txnDue q.2 = some s1) :
    exec (.tagQuarantineExpire u tag) s = .next (s1.setTinit u { s1.tinit u with
      quarantine := (s1.tinit u).quarantine.filter (fun y => y.1.tag != tag)
      lapsed := if q.1.stage = 2 then (s1.tinit u).lapsed.filter (fun y => y.tag != q.1.tag || y.gen != q.1.gen) ++ [q.1]
        else (s1.tinit u).lapsed }) := by
  simp only [exec, execTagQuarantineExpire, Txn.quarantineExpire, hquarantine, hdue]
end

/-- Settles O35. Ward 0 of the tile's own requests is the model's choice (log entry 93). -/
theorem transactionsAreAcceptedAnsweredAndTimed : Obligations.TransactionsAreAcceptedAnsweredAndTimed := by
  unfold Obligations.TransactionsAreAcceptedAnsweredAndTimed
  intro s n u rq a g hg
  subst hg
  refine ⟨fun hport hn hlive hmoves hlow htag hroom ha => ?core, exec_txnRequestAccept_firmware,
    fun o => exec_tokenBucketRelease, fun r b rest more hready hbeats hrun hfree hlive => ?beat, fun tag o s1 => exec_txnTimeoutExpire,
    fun tag q s1 hquarantine hdue => ?quarantine⟩
  case core =>
    have haccepted := exec_txnRequestAccept_core hport hn hlive hmoves hlow htag hroom ha
    have hanswered := fun st => exec_txnRequestAccept_answered (st := st) hport hn hlive hmoves hlow htag hroom ha
    have hopened : s.portClosed n = false → exec (.txnRequestAccept n rq) s = .next ((s.acceptTxn n a rq.tag .port).touch n) := by
      intro hopen
      rw [haccepted, hopen, if_neg (by decide)]
    refine ⟨fun hopen hbreaks => hanswered _ hopen (by decide) (by decide) (State.acceptTxn_refused _ _ hbreaks),
      fun hopen hkeeps hop => ⟨fun st hroute hst hst0 => ?nowhere, fun w hroute => ?routed⟩,
      fun hopen hkeeps hop => ?fence, exec_txnRequestAccept_closed hport hn hlive hmoves hlow htag hroom ha⟩
    case nowhere => exact hanswered st hopen hst hst0 (by rw [State.acceptTxn_routed _ _ hkeeps hop, hroute])
    case routed => rw [hopened hopen, State.acceptTxn_routed _ _ hkeeps hop, hroute]; rfl
    case fence => rw [hopened hopen, State.acceptTxn_fence _ _ hkeeps hop]; rfl
  case beat =>
    exact ⟨_, exec_trResponseBeat hready hbeats hrun hfree hlive, rfl, rfl, congrArg TInit.ready (State.tinit_setTinit_same ..)⟩
  case quarantine =>
    refine ⟨_, exec_tagQuarantineExpire hquarantine hdue, ?_, ?_, rfl⟩
    · intro y hy
      rw [State.tinit_setTinit_same] at hy
      simpa using (List.mem_filter.mp hy).2
    · rw [State.tinit_setTinit_same, State.tinit_of_txnDue hdue]

/-! ## What stands behind a target -/

section
variable {s : State} {n : Nat}

section
variable {pt : Nat} {w : BitVec 4} {rq : TxnArgs} (hunit : s.cfg.unitAt 3 pt = some n) (hmoves : s.moves n = true)
  (hlive : s.adapterLive n .b = true)
include hunit hmoves hlive

theorem exec_hostInboundRequest_mailbox : exec (.hostInboundRequest pt w true rq) s = .next (HostPort.mailbox pt rq s) := by
  obtain ⟨hrun, hactive, -⟩ := (s.moves_iff n).mp hmoves
  have hungated : s.regionStateOf (s.regionOf n) ≠ 4 := by omega
  simp [exec, execHostInboundRequest, HostPort.inbound, hunit, hrun, hlive, hungated]

theorem exec_hostInboundRequest (htag : (s.tinit (0x90 + pt)).tagFree rq.tag = true) : exec (.hostInboundRequest pt w false rq) s = .next
    (if (s.obj (Obj.hostWardMask pt)).getLsbD w.toNat = false ∨ s.wardReclaiming w = true then
      (s.emit (.hip pt rq.tag Status.wardRefused (answerBeats rq.op Status.wardRefused []))).touch n
    else (s.acceptTxn (0x90 + pt) ⟨rq.op, rq.addr, rq.lenM1, BitVec.ofNat 2 (s.rd (.regLevel w.toNat)), w, rq.data, rq.strb⟩ rq.tag .host).touch n) := by
  obtain ⟨hrun, hactive, -⟩ := (s.moves_iff n).mp hmoves
  have hungated : s.regionStateOf (s.regionOf n) ≠ 4 := by omega
  simp [exec, execHostInboundRequest, HostPort.inbound, hunit, hrun, hlive, hungated, hmoves, htag]
end

section
variable {tag : BitVec 10} {status : BitVec 3} {data : List (BitVec 1024)} (hmoves : s.moves n = true) (hport : s.cfg.corePort n = true)
  (hn : n < 0x78) (hlive : s.adapterLive n .a = true)
include hmoves hport hn hlive

theorem exec_coreTargetAnswer : exec (.coreTargetAnswer n tag status data) s = .next (match s.slotBehind n tag.toNat with
    | none => s.dropOwed n tag
    | some p => ((s.slotAnswer n p.src p.tag p.gen status data).serve n).touch n) := by
  simp only [exec, execCoreTargetAnswer, Txn.coreAnswer, hmoves, hport, hlive, Nat.not_le.mpr hn]
  rfl
end

theorem exec_hostCompletionArrive {pt : Nat} {tag : BitVec 10} {status : BitVec 3} {data : List (BitVec 1024)}
    (hunit : s.cfg.unitAt 3 pt = some n) (hdrives : s.drives n .b = true) :
    exec (.hostCompletionArrive pt tag status data) s = .next (match s.slotBehind (0x90 + pt) tag.toNat with
      | none => s.takeOwed (0x90 + pt) n tag
      | some p => ((s.slotAnswer (0x90 + pt) p.src p.tag p.gen status data).serve (0x90 + pt)).touch n) := by
  have hheld : s.adapterHeld n .b = false := by
    have hlive := (Bool.and_eq_true_iff.mp hdrives).2
    simpa using (Bool.and_eq_true_iff.mp hlive).1
  simp only [exec, execHostCompletionArrive, Txn.hostCompletion, hunit, hheld, hdrives]
  rfl

theorem exec_maCommandIssue {a : Nat} {c : MaCmd} {t : BitVec 10} (hunit : s.cfg.unitAt 1 a = some n) (hnext : nextCmd [] (s.masOf a) = some c)
    (htag : ((List.range (s.cfg.maTags.getD a 0)).map (BitVec.ofNat 10)).find? (fun t => !(s.masOf a).any (fun x => x.issued == some t) &&
      !s.owes (0xA0 + a) t) = some t) (hmoves : s.moves n = true) (hlive : s.adapterLive n .b = true)
    (hroom : c.write = true ∨ readReserved (s.masOf a) + c.size ≤ (s.obj Obj.maReadBuffer).toNat) :
    exec (.maCommandIssue a) s = .next (((s.setMas a ((s.masOf a).map (fun x => if x = c then { c with issued := some t } else x))).emit
      (.mq a t c.write (BitVec.ofNat 35 (c.addr / 64)) (BitVec.ofNat 3 (blockCode c.size))
        (if c.write then c.beats else []) (if c.write then c.strb else []))).touch n) := by
  have hopen : ¬ (!s.moves n ∨ !s.adapterLive n .b ∨ (!c.write ∧ (s.obj Obj.maReadBuffer).toNat < readReserved (s.masOf a) + c.size)) := by
    rintro (h | h | ⟨hwrite, hfull⟩)
    · simp [hmoves] at h
    · simp [hlive] at h
    · rcases hroom with hroom | hroom
      · simp [hroom] at hwrite
      · omega
  simp only [exec, execMaCommandIssue, Txn.maIssue, hunit, hnext, htag, if_neg hopen]

section
variable {a : Nat} {tag : BitVec 10} {status : BitVec 2} {c : MaCmd} (hunit : s.cfg.unitAt 1 a = some n) (hpin : s.pin.inReset = false)
  (hkept : s.junctionLost n = false) (hlive : s.adapterLive n .b = true)
include hunit hpin hkept hlive

theorem exec_maReadData {data : BitVec 4096} {c' : MaCmd} {a1 : State}
    (hfind : (s.masOf a).find? (fun c => c.issued == some tag && !c.write) = some c)
    (hc' : c' = { c with beats := c.beats ++ [data], status := if c.holds c.beats.length = true ∧ c.status = 0 then status else c.status })
    (ha1 : a1 = (s.setMas a ((s.masOf a).map (fun x => if x = c then c' else x))).maRaise n ((s.cmdSlot a c).map (·.ward))
      (if c.holds c.beats.length = true then status else 0)) :
    exec (.maReadData a tag data status) s = .next (if blockBeats c.size ≤ c.beats.length + 1 then a1.readDone a c' else a1) := by
  simp only [State.adapterLive, Bool.and_eq_true, Bool.not_eq_true'] at hlive
  subst hc' ha1
  simp [exec, execMaReadData, Txn.maRead, hunit, State.maShut, hpin, hkept, hlive, hfind]

theorem exec_maWriteCompletion (hfind : (s.masOf a).find? (fun c => c.issued == some tag && c.write) = some c) :
    exec (.maWriteCompletion a tag status) s =
      .next ((s.maRaise n ((s.cmdSlot a c).map (·.ward)) status).maFinish a c (maStatus status) (if c.second then [c.old] else [])) := by
  simp only [State.adapterLive, Bool.and_eq_true, Bool.not_eq_true'] at hlive
  simp [exec, execMaWriteCompletion, Txn.maWritten, hunit, State.maShut, hpin, hkept, hlive, hfind]
end

theorem exec_targetSlotTimeout {u : Nat} {src : BitVec 16} {tag : BitVec 10} {x : Slot} {p : TPkt} {t0 : Nat} {s1 : State}
    (hfind : (s.target u).slots.find? (fun x => x.src == src && (x.rq.map (·.tag)) == some tag && x.waitsBehind u) = some x)
    (hrq : x.rq = some p) (hsince : x.since = some t0)
    (hdue : s.txnDue (t0 + 2 * (s.obj (Obj.txnTimeout p.ward.toNat)).toNat) = some s1) :
    exec (.targetSlotTimeout u src tag) s = .next (((((s1.giveUp u x false).setTarget u { s1.target u with
      slots := (s1.target u).slots.erase x }).raise (Cause.atUnit 0x051 (some p.ward) ((s.cfg.unitJunction u).getD 0)
        (unitInput u) 0x3F 0xFFFF)).arbitrate u (poolOf u p.level)).serve u) := by
  simp only [exec, execTargetSlotTimeout, Txn.slotTimeout, hfind, hrq, hsince, hdue]
end

/-- Settles O36. That the refusal of a ward being reclaimed is not counted is the model's choice (log entry 93). -/
theorem targetsAnswerTheirSlots : Obligations.TargetsAnswerTheirSlots := by
  unfold Obligations.TargetsAnswerTheirSlots
  intro s n
  refine ⟨fun pt w rq hunit hmoves hlive htag => ⟨exec_hostInboundRequest_mailbox hunit hmoves hlive, fun hbarred => ?barred,
      fun hmask hward => ?admitted⟩,
    fun tag status data hmoves hport hn hlive => ⟨fun p hslot => ?answer, fun hslot => ?late⟩,
    fun a c t => exec_maCommandIssue,
    fun a tag data status c c' a1 hunit hfind hpin hkept hlive hc' ha1 => ⟨fun hmore => ?more, fun hwhole => ?whole⟩,
    fun a tag st c hunit hfind hpin hkept hlive => exec_maWriteCompletion hunit hpin hkept hlive hfind,
    fun pt tag status data hunit hdrives => ⟨fun p hslot => ?host, fun hslot => ?hostLate⟩,
    fun u src tag x p t0 s1 => exec_targetSlotTimeout⟩
  case barred => rw [exec_hostInboundRequest hunit hmoves hlive htag, if_pos hbarred]
  case admitted => rw [exec_hostInboundRequest hunit hmoves hlive htag, if_neg (by simp [hmask, hward])]
  case answer => rw [exec_coreTargetAnswer hmoves hport hn hlive, hslot]
  case late => rw [exec_coreTargetAnswer hmoves hport hn hlive, hslot]
  case more => rw [exec_maReadData hunit hpin hkept hlive hfind hc' ha1, if_neg (by omega)]
  case whole => rw [exec_maReadData hunit hpin hkept hlive hfind hc' ha1, if_pos hwhole]
  case host => rw [exec_hostCompletionArrive hunit hdrives, hslot]
  case hostLate => rw [exec_hostCompletionArrive hunit hdrives, hslot]

end Sys2Proof.Machine
end

section
/-! PROOFS. Snoops and their replies (R248, R249, R264, R265). -/

namespace Sys2Proof.Machine

@[simp] theorem State.txnFrom_out (s : State) (u : Nat) (p : TPkt) : (s.txnFrom u p).out = s.out := by
  unfold State.txnFrom
  split <;> rfl

theorem State.snoopLine_out (s : State) (pt : Nat) (w : BitVec 4) (ty : BitVec 2) (stag : BitVec 8) (l : Nat) (cores : List Nat) :
    (s.snoopLine pt w ty stag l cores false).out = s.out :=
  List.foldlRecOn (motive := fun t : State => t.out = s.out) cores _ rfl (fun _ ht _ _ => (State.txnFrom_out ..).trans ht)

/-- Where an endpoint is named depends on the objects alone. -/
theorem State.ep_congr {s t : State} (h : t.objs = s.objs) (u : Nat) : t.ep u = s.ep u := by
  simp only [State.ep, State.dieBits, State.obj_congr h]

/-! ## An agent's snoop -/

theorem State.agentNext_objs (s : State) (g : AgentSnoop) : (s.agentNext g).objs = s.objs := by
  unfold State.agentNext
  split <;> rfl

theorem State.agentNext_waits {s : State} {g : AgentSnoop} (h : g.waits ≠ []) : (s.agentNext g).out = s.out := by
  simp [State.agentNext, h]

theorem State.agentNext_whole {s : State} {g : AgentSnoop} (hwaits : g.waits = []) (hdrives : s.hostDrives g.port = true) :
    (s.agentNext g).out = s.out ++ [.hsp g.port g.tag g.resp (if g.resp = 2 then g.data else none)] := by
  simp [State.agentNext, hwaits, hdrives, State.emit]

section
variable {s : State} {pt n : Nat} {stag : BitVec 8}

theorem State.hostDrives_of {s : State} (hunit : s.cfg.unitAt 3 pt = some n) (hdrives : s.drives n .b = true) : s.hostDrives pt = true := by
  simp [State.hostDrives, hunit, hdrives]

/-! ## Replies -/

theorem exec_snoopReplyArrive_core {c : Nat} {resp : BitVec 2} {line : Option (BitVec 512)} {x : CoreSnoop} {a : State}
    (hc : c < 0x78) (hdrives : s.drives c .a = true)
    (hfind : s.txn.snoops.find? (fun x => x.core == c && x.home.toNat == 0x90 + pt && x.stag == stag && x.driven) = some x)
    (ha : a = { s with txn := { s.txn with snoops := s.txn.snoops.erase x } }.txnFrom c { TPkt.blank with
      kind := .snoopReply, ward := x.ward, tag := stag.setWidth 10, code := resp, hasData := line.isSome, src := BitVec.ofNat 16 c
      dest := x.home, addr := x.line.setWidth 64 }) :
    exec (.snoopReplyArrive c (0x90 + pt) stag resp line) s = .next ((match line with
      | some l => a.txnFrom c { TPkt.blank with
        kind := .data, dkind := 2, ward := x.ward, tag := stag.setWidth 10, src := a.ep c, dest := a.ep (0x90 + pt)
        beats := [l.setWidth 1024] }
      | none => a).touch c) := by
  have hobjs : a.objs = s.objs := by rw [ha]; exact State.txnFrom_objs ..
  cases line <;>
    simp only [exec, execSnoopReplyArrive, Txn.snoopReply, if_pos hc, if_pos hdrives, State.coreReplies, hfind, ← ha, State.ep_congr hobjs]

section
variable (hunit : s.cfg.unitAt 3 pt = some n)
include hunit

theorem exec_snoopReplyArrive_agent (resp : BitVec 2) (line : Option (BitVec 512)) (hdrives : s.drives n .b = true) :
    exec (.snoopReplyArrive (0x90 + pt) (0x90 + pt) stag resp line) s =
      .next ((s.combineReply pt (0x90 + pt) stag resp line false).touch n) := by
  have hmoves : s.moves n = true := (Bool.and_eq_true_iff.mp hdrives).1
  have hport : 0x90 + pt - 0x90 = pt := by omega
  have hhome : ¬ 0x90 + pt < 0x78 := by omega
  have hopen : ¬ (0x90 + pt < 0x90 ∨ !s.moves n) := by simp [hmoves]
  simp only [exec, execSnoopReplyArrive, Txn.snoopReply, if_neg hhome, hport, hunit, if_neg hopen, if_true, if_pos hdrives]

theorem exec_snoopReplyArrive_home {src : Nat} (resp : BitVec 2) (line : Option (BitVec 512)) (hmoves : s.moves n = true) (hsrc : src ≠ 0x90 + pt) :
    exec (.snoopReplyArrive (0x90 + pt) src stag resp line) s = .next (s.replyArrives pt n src stag) := by
  have hport : 0x90 + pt - 0x90 = pt := by omega
  have hhome : ¬ 0x90 + pt < 0x78 := by omega
  have hopen : ¬ (0x90 + pt < 0x90 ∨ !s.moves n) := by simp [hmoves]
  simp only [exec, execSnoopReplyArrive, Txn.snoopReply, if_neg hhome, hport, hunit, if_neg hopen, if_neg hsrc]
end

theorem State.combineReply_home {src : Nat} {resp : BitVec 2} {line : Option (BitVec 512)} {h : HomeTxn}
    (hfind : s.txn.homes.find? (fun h => h.1 == pt && h.2.stag == stag && h.2.waits.contains src) = some (pt, h)) :
    s.combineReply pt src stag resp line false = s.homeWent pt h { h with
      waits := h.waits.erase src
      dirty := if resp = 2 ∧ line.isSome = true then Tbl.set none h.dirty (h.lines.headD 0) line else h.dirty } := by
  simp only [State.combineReply, hfind, Bool.not_false, Bool.or_false, and_true]

/-- The strongest reply so far, and the line that goes with it. -/
theorem State.combineReply_agent {src : Nat} {resp : BitVec 2} {line : Option (BitVec 512)} {g : AgentSnoop}
    (hhome : s.txn.homes.find? (fun h => h.1 == pt && h.2.stag == stag && h.2.waits.contains src) = none)
    (hfind : s.txn.agents.find? (fun g => g.port == pt && g.stag == stag && g.waits.contains src) = some g) :
    s.combineReply pt src stag resp line false = s.agentNext { g with
      waits := g.waits.erase src
      resp := if resp = 2 ∧ line.isSome = true then 2 else if resp = 1 ∧ g.resp = 0 then 1 else g.resp
      data := if resp = 2 ∧ line.isSome = true then line else g.data } := by
  simp only [State.combineReply, hhome, hfind, Bool.not_false, and_true]

/-! ## Snoops that take too long -/

section
variable {s1 : State} (hunit : s.cfg.unitAt 3 pt = some n)
include hunit

theorem exec_snoopTimeout_home {h : HomeTxn}
    (hfind : s.txn.homes.find? (fun h => h.1 == pt && h.2.stag == stag && !h.2.waits.isEmpty) = some (pt, h))
    (hdue : s.txnDue (h.since + (s.obj (Obj.txnTimeout h.ward.toNat)).toNat) = some s1) :
    exec (.snoopTimeout (0x90 + pt) stag) s =
      .next ((s1.snoopRaise n (some h.ward)).homeWent pt h { h with waits := [], failed := true }) := by
  have hport : 0x90 + pt - 0x90 = pt := by omega
  simp only [exec, execSnoopTimeout, Txn.snoopTimeout, hport, hunit, hfind, State.snoopDue, Option.getD_some, hdue]

variable (hhome : s.txn.homes.find? (fun h => h.1 == pt && h.2.stag == stag && !h.2.waits.isEmpty) = none)
include hhome

theorem exec_snoopTimeout_agent {g : AgentSnoop}
    (hfind : s.txn.agents.find? (fun g => g.port == pt && g.stag == stag && !g.waits.isEmpty) = some g)
    (hdue : s.txnDue (g.since + (s.obj (Obj.txnTimeout ((s.lineWard g.line).getD 0).toNat)).toNat) = some s1) :
    exec (.snoopTimeout (0x90 + pt) stag) s = .next ((s1.snoopRaise n (s.lineWard g.line)).agentNext { g with waits := [] }) := by
  have hport : 0x90 + pt - 0x90 = pt := by omega
  simp only [exec, execSnoopTimeout, Txn.snoopTimeout, hport, hunit, hhome, hfind, State.snoopDue, hdue]

theorem exec_snoopTimeout_window {c : CohWait}
    (hagent : s.txn.agents.find? (fun g => g.port == pt && g.stag == stag && !g.waits.isEmpty) = none)
    (hfind : s.txn.cohWaits.find? (fun c => c.port == pt && c.stag == stag && !c.waits.isEmpty) = some c)
    (hdue : s.txnDue (c.since + (s.obj (Obj.txnTimeout ((s.lineWard c.next).getD 0).toNat)).toNat) = some s1) :
    exec (.snoopTimeout (0x90 + pt) stag) s =
      .next ((s1.snoopRaise n (s.lineWard c.next)).windowWent c { c with waits := [] } none) := by
  have hport : 0x90 + pt - 0x90 = pt := by omega
  simp only [exec, execSnoopTimeout, Txn.snoopTimeout, hport, hunit, hhome, hagent, hfind, State.snoopDue, hdue]
end

/-! ## Snoops of the agent -/

theorem exec_hostSnoopArrive {line : BitVec 35} {ty : BitVec 2} {tag : BitVec 8} {w : Option (BitVec 4)} {cores : List Nat} {a : State} {g : AgentSnoop}
    (hunit : s.cfg.unitAt 3 pt = some n) (hagent : s.cfg.hsnp.getD pt false = true) (hdrives : s.drives n .b = true)
    (hw : w = s.lineWard line.toNat) (hnone : w = none → cores = []) (hsome : ∀ x, w = some x → cores = s.snoopers x 0x3FF)
    (hg : g = ⟨pt, tag, s.freeStag pt, line.toNat, cores, s.txnNow, 0, none⟩)
    (ha : a = s.snoopLine pt (w.getD 0) ty (s.freeStag pt) line.toNat cores false) :
    exec (.hostSnoopArrive pt line ty tag) s =
      .next (({ a with txn := { a.txn with agents := a.txn.agents ++ [g] } }.agentNext g).touch n) := by
  obtain ⟨hmoves, hlive⟩ := Bool.and_eq_true_iff.mp hdrives
  obtain ⟨hrun, hactive, -⟩ := (s.moves_iff n).mp hmoves
  have hungated : s.regionStateOf (s.regionOf n) ≠ 4 := by omega
  have hlive' : ¬ (!s.cfg.hsnp.getD pt false ∨ !s.running ∨ !s.adapterLive n .b) := by simp only [hagent, hrun, hlive]; decide
  have hopen : ¬ (!s.moves n) = true := by simp [hmoves]
  subst hw hg ha
  cases hward : s.lineWard line.toNat with
  | none =>
    cases hnone hward
    simp only [exec, execHostSnoopArrive, Txn.hostSnoop, hunit, if_neg hlive', if_neg hungated, if_neg hopen, hward]
  | some x =>
    cases hsome x hward
    simp only [exec, execHostSnoopArrive, Txn.hostSnoop, hunit, if_neg hlive', if_neg hungated, if_neg hopen, hward]
end

/-- Settles O37. The place of a line's data, and what the command stands for, are the model's choice (log entry 149). -/
theorem snoopsAreSentAndCombined : Obligations.SnoopsAreSentAndCombined := by
  unfold Obligations.SnoopsAreSentAndCombined
  intro s pt n stag
  refine ⟨fun c resp line x a hc hdrives hfind ha => ⟨fun hline => ?bare, fun l hline => ?withLine⟩,
    fun resp line hunit hdrives => exec_snoopReplyArrive_agent hunit resp line hdrives,
    fun src resp line p s1 hunit hmoves hsrc htake hgood => ⟨fun hdata => ?clean, fun d s2 hdata htake' hgood' => ?dirty⟩,
    fun src resp line h hfind => State.combineReply_home hfind,
    fun src resp line g hunit hdrives hhome hfind hlast => ⟨?kept, ?ended⟩,
    fun h s1 hunit hfind hdue => exec_snoopTimeout_home hunit hfind hdue,
    fun g w s1 hunit hhome hfind hw hdue => ?agentTimeout,
    fun c w s1 hunit hhome hagent hfind hw hdue => ?windowTimeout,
    fun line ty tag w cores a g hunit hagent hdrives hw hnone hsome hg ha =>
      ⟨exec_hostSnoopArrive hunit hagent hdrives hw hnone hsome hg ha, fun hcores => ?alone, fun hcores => ?asked, ?objs⟩⟩
  case bare =>
    rw [exec_snoopReplyArrive_core hc hdrives hfind ha, hline]
  case withLine =>
    rw [exec_snoopReplyArrive_core hc hdrives hfind ha, hline]
  case clean => simp [exec_snoopReplyArrive_home hunit resp line hmoves hsrc, State.replyArrives, htake, hgood, hdata]
  case dirty =>
    have hkept : ¬ (!p.hasData) = true := by simp [hdata]
    simp only [exec_snoopReplyArrive_home hunit resp line hmoves hsrc, State.replyArrives, htake, hgood, if_neg hkept, htake', hgood',
      if_neg Bool.false_ne_true]
  case kept =>
    rw [State.combineReply_agent hhome hfind]
    exact State.agentNext_objs ..
  case ended =>
    have hport : g.port = pt := by
      have h := List.find?_some hfind
      simp only [Bool.and_eq_true, beq_iff_eq] at h
      exact h.1.1
    have hwaits : g.waits.erase src = [] := by simp [hlast]
    rw [State.combineReply_agent hhome hfind, State.agentNext_whole hwaits (by rw [hport]; exact State.hostDrives_of hunit hdrives), hport]
    by_cases hdirty : resp = 2 ∧ line.isSome = true
    · simp [hdirty]
    · by_cases hshared : resp = 1 ∧ g.resp = 0
      · simp [hshared]
      · simp only [if_neg hdirty, if_neg hshared]
  case agentTimeout => subst hw; exact exec_snoopTimeout_agent hunit hhome hfind hdue
  case windowTimeout => subst hw; exact exec_snoopTimeout_window hunit hhome hagent hfind hdue
  case alone =>
    subst hg ha hcores
    exact State.agentNext_whole rfl (State.hostDrives_of (s := { s with txn := _ }) hunit hdrives)
  case asked =>
    subst hg ha
    exact (State.agentNext_waits hcores).trans (State.snoopLine_out ..)
  case objs =>
    subst ha
    exact (State.agentNext_objs ..).trans (State.snoopLine_leaves ..).1

end Sys2Proof.Machine
end

section
/-! PROOFS. The power manager, the service endpoint and the mailboxes (R228, R441, R442, R449, R469, R471). -/

namespace Sys2Proof.Machine

/-! ## Performance states -/

section
variable {s a : State} {m : CtlMsg} (harrived : s.arrivedAt 0xC0 = some m) (hrun : s.running = true) (hfree : s.frozen = false)
  (hnak : m.nak = false) (hkind : m.kind = 0) (ha : a = (s.arrivedDone 0xC0).afterOuter s.cfg.mgmtAt 6)
include harrived hrun hfree hnak hkind ha

theorem exec_pstateRequest : exec .pstateRequest s = .next
    (if s.outerFails s.cfg.mgmtAt 6 m then a.refuse s.cfg.mgmtAt 6 m Nak.corrupt
      else if !s.coreRuns then a.refuse s.cfg.mgmtAt 6 m Nak.notReady else a.pstateServe m) := by
  have hopen : ¬ (!s.running ∨ s.frozen ∨ m.nak ∨ m.kind ≠ 0) := by simp [hrun, hfree, hnak, hkind]
  simp only [exec, execPstateRequest, Power.pstateRequest, harrived, if_neg hopen, ha]

theorem exec_pstateRequest_served (hgood : s.outerFails s.cfg.mgmtAt 6 m = false) (hcore : s.coreRuns = true) :
    exec .pstateRequest s = .next (a.pstateServe m) := by
  rw [exec_pstateRequest harrived hrun hfree hnak hkind ha, hgood, hcore]
  rfl
end

section
variable {a : State} {m : CtlMsg} {old : Grant} {ps pw budget : Nat}
  (hold : old = ({ a.grant m.src with sock := BitVec.ofNat 5 ((m.words.getD 0 0).toNat / 65536), ward := m.ward } : Grant))
include hold

theorem State.pstateServe_invalid (hform : m.words.length ≠ 3 ∨ m.sock ≠ 0) :
    a.pstateServe m = a.pstateReply m.src 4 (m.words.getD 2 0) old := by
  subst hold
  exact if_pos hform

variable (hlen : m.words.length = 3) (hsock : m.sock = 0) (hps : ps = (m.words.getD 0 0).toNat % 16)
  (hpw : pw = (m.words.getD 1 0).toNat % 65536)
include hlen hsock hps hpw

theorem State.pstateServe_granted (hstatus : a.pstateStatus m.src ps pw = 0) : a.pstateServe m =
    (a.setGrant m.src { old with pstate := ps, power := pw }).pstateReply m.src 0 (m.words.getD 2 0) { old with pstate := ps, power := pw } := by
  have hform : ¬ (m.words.length ≠ 3 ∨ m.sock ≠ 0) := by simp [hlen, hsock]
  subst hold
  simp only [State.pstateServe, if_neg hform, ← hps, ← hpw, hstatus, if_true]

theorem State.pstateServe_refused {st : Nat} (hstatus : a.pstateStatus m.src ps pw = st) (hst : st ≠ 0) : a.pstateServe m =
    (a.setGrant m.src old).pstateReply m.src st (m.words.getD 2 0) old := by
  have hform : ¬ (m.words.length ≠ 3 ∨ m.sock ≠ 0) := by simp [hlen, hsock]
  simp only [State.pstateServe, if_neg hform, ← hps, ← hpw, hstatus, if_neg hst, ← hold]
end

section
variable {a : State} {src : BitVec 16} {ps pw budget : Nat} (hbudget : budget = (a.obj Obj.coreBudget).toNat)
include hbudget

theorem State.pstateStatus_over (hset : budget ≠ 0xFFFF) (hover : budget < a.grantedBut src.toNat + pw) : a.pstateStatus src ps pw = 1 := by
  subst hbudget
  exact if_pos ⟨hset, hover⟩

theorem State.pstateStatus_within (hfits : budget = 0xFFFF ∨ a.grantedBut src.toNat + pw ≤ budget) :
    a.pstateStatus src ps pw = if a.warn = true ∧ (a.obj Obj.throttlePstate).toNat < ps then 2 else 0 := by
  subst hbudget
  exact if_neg (by omega)
end

/-! ## The service endpoint -/

section
variable {s a b : State} {m : CtlMsg} (harrived : s.arrivedAt 0xC1 = some m) (hrun : s.running = true) (hfree : s.frozen = false)
  (hnak : m.nak = false) (hkind : m.kind = 0) (ha : a = (s.arrivedDone 0xC1).afterOuter s.cfg.mgmtAt 6)
include harrived hrun hfree hnak hkind ha

theorem exec_serviceMessageReceive_refused : 
    (s.outerFails s.cfg.mgmtAt 6 m = true → exec .serviceMessageReceive s = .next (a.refuse s.cfg.mgmtAt 6 m Nak.corrupt)) ∧
    (s.outerFails s.cfg.mgmtAt 6 m = false →
      (m.sock ≠ 0 → exec .serviceMessageReceive s = .next (a.refuse s.cfg.mgmtAt 6 m Nak.noSocket)) ∧
      (m.sock = 0 → 16 ≤ a.dict.service.length →
        exec .serviceMessageReceive s = .next (a.refuse s.cfg.mgmtAt 6 m Nak.queueFull))) := by
  have hopen : ¬ (!s.running ∨ s.frozen ∨ m.nak ∨ m.kind ≠ 0) := by simp [hrun, hfree, hnak, hkind]
  refine ⟨fun hbad => ?_, fun hgood => ⟨fun hsock => ?_, fun hsock hfull => ?_⟩⟩
  · simp only [exec, execServiceMessageReceive, Service.receive, harrived, if_neg hopen, ← ha, if_pos hbad]
  · simp only [exec, execServiceMessageReceive, Service.receive, harrived, if_neg hopen, ← ha, hgood, if_neg Bool.false_ne_true, if_pos hsock]
  · simp only [exec, execServiceMessageReceive, Service.receive, harrived, if_neg hopen, ← ha, hgood, if_neg Bool.false_ne_true,
      if_neg (Classical.not_not.mpr hsock), if_pos hfull]

theorem exec_serviceMessageReceive_queued {asks : State → State} (hgood : s.outerFails s.cfg.mgmtAt 6 m = false) (hsock : m.sock = 0)
    (hroom : a.dict.service.length < 16) (hb : b = { a with dict := { a.dict with service := a.dict.service ++ [⟨m.src, m.ward, m.words⟩] } })
    (hasks : ∀ x : State, asks x = if x.dict.service.isEmpty then x else x.pathAsk (pathUnitBase + 3)) :
    exec .serviceMessageReceive s = .next (asks (b.serviceRefuse ⟨m.src, m.ward, m.words⟩)) := by
  have hopen : ¬ (!s.running ∨ s.frozen ∨ m.nak ∨ m.kind ≠ 0) := by simp [hrun, hfree, hnak, hkind]
  simp only [exec, execServiceMessageReceive, Service.receive, harrived, if_neg hopen, ← ha, hgood, if_neg Bool.false_ne_true,
    if_neg (Classical.not_not.mpr hsock), if_neg (Nat.not_le.mpr hroom), ← hb, hasks]
end

section
variable {b : State} {m : ServiceMsg} {acc : Access} {w0 w1 cmd : Nat} (hw0 : w0 = (m.words.getD 0 0).toNat)
  (hw1 : w1 = (m.words.getD 1 0).toNat) (hcmd : cmd = w0 % 256)
  (hacc : acc = ⟨.service m.src m.ward (BitVec.ofNat 5 (w0 / 65536)), BitVec.ofNat 2 (w0 / 256), m.words.getD 2 0⟩)
include hw0 hw1 hcmd hacc

theorem State.serviceRefuse_eq : b.serviceRefuse m = if !b.servesNow acc then b
    else if cmd ≠ 1 ∧ cmd ≠ 2 ∧ cmd ≠ 7 then b.refuseNow acc cmd (w1 % 65536) (w1 / 65536 % 256) 0 .badCommand
    else if m.words.length < serviceNeed cmd then b.refuseNow acc cmd (w1 % 65536) (w1 / 65536 % 256) 0 .length
    else b := by
  subst hacc hcmd hw1 hw0
  rfl

theorem State.serviceRefuse_taken (h : (cmd = 1 ∨ cmd = 7) ∧ 3 ≤ m.words.length ∨ cmd = 2 ∧ 5 ≤ m.words.length ∨ b.servesNow acc = false) :
    b.serviceRefuse m = b := by
  rw [State.serviceRefuse_eq hw0 hw1 hcmd hacc]
  rcases h with ⟨h, hlen⟩ | ⟨h, hlen⟩ | h
  · have hneed : ¬ m.words.length < serviceNeed cmd := by
      rw [serviceNeed, if_neg (by omega)]
      omega
    rw [if_neg (show ¬ (cmd ≠ 1 ∧ cmd ≠ 2 ∧ cmd ≠ 7) by omega), if_neg hneed, ite_self]
  · have hneed : ¬ m.words.length < serviceNeed cmd := by
      rw [serviceNeed, if_pos h]
      omega
    rw [if_neg (show ¬ (cmd ≠ 1 ∧ cmd ≠ 2 ∧ cmd ≠ 7) by omega), if_neg hneed, ite_self]
  · rw [h, if_pos (by decide)]

theorem State.serviceRefuse_unlisted (hserves : b.servesNow acc = true) (h1 : cmd ≠ 1) (h2 : cmd ≠ 2) (h7 : cmd ≠ 7) :
    b.serviceRefuse m = b.refuseNow acc cmd (w1 % 65536) (w1 / 65536 % 256) 0 .badCommand := by
  rw [State.serviceRefuse_eq hw0 hw1 hcmd hacc, hserves, if_neg (by decide), if_pos ⟨h1, h2, h7⟩]

theorem State.serviceRefuse_short (hserves : b.servesNow acc = true)
    (h : (cmd = 1 ∨ cmd = 7) ∧ m.words.length < 3 ∨ cmd = 2 ∧ m.words.length < 5) :
    b.serviceRefuse m = b.refuseNow acc cmd (w1 % 65536) (w1 / 65536 % 256) 0 .length := by
  have hneed : m.words.length < serviceNeed cmd := by
    unfold serviceNeed
    split <;> omega
  rw [State.serviceRefuse_eq hw0 hw1 hcmd hacc, hserves, if_neg (by decide), if_neg (by omega), if_pos hneed]
end

/-! ## Mailboxes -/

section
variable {s : State} {p : Nat}

@[simp] theorem State.mailbox_setMailbox_same (s : State) (p : Nat) (m : Mailbox) : (s.setMailbox p m).mailbox p = m := Tbl.get_set_same ..

theorem padTo_length (n : Nat) (bs : List Byte) : (padTo n bs).length = n := by
  simp only [padTo, List.length_take, List.length_append, List.length_replicate]
  omega

theorem exec_mailboxRequestWrite (off : Nat) (bs : List Byte) (hlive : s.mailboxLive p = true) :
    exec (.mailboxRequestWrite p off bs) s = .next (s.setMailbox p ((s.mailbox p).put off (bs.map some))) := by
  simp only [exec, execMailboxRequestWrite, Mbox.write, hlive]
  rfl

theorem Mailbox.putByte_busy {m : Mailbox} {off : Nat} (b : Byte) (hoff : off < 1152) (hbusy : m.busy = true) :
    m.putByte off b = { m with overrun := true } := by
  rw [Mailbox.putByte, if_pos hoff, if_pos hbusy]

theorem Mailbox.putByte_idle {m : Mailbox} {off : Nat} (b : Byte) (hoff : off < 1152) (hbusy : m.busy = false) :
    m.putByte off b = { m with request := (padTo 1152 m.request).set off b } := by
  have hlen := padTo_length 1152 m.request
  have hset : (padTo 1152 m.request).set off b = (padTo 1152 m.request).take off ++ [b] ++ (padTo 1152 m.request).drop (off + 1) := by
    rw [List.set_eq_take_append_cons_drop, if_pos (by omega)]
    simp
  rw [Mailbox.putByte, if_pos hoff, hbusy, hset]
  rfl

theorem exec_mailboxDoorbell (hlive : s.mailboxLive p = true) : exec (.mailboxDoorbell p) s = .next (s.post p) := by
  simp only [exec, execMailboxDoorbell, Mbox.doorbell, hlive]
  rfl

theorem State.post_busy (hbusy : (s.mailbox p).busy = true) : s.post p = s.setMailbox p { s.mailbox p with overrun := true } := if_pos hbusy

theorem State.post_idle {a : State} (hbusy : (s.mailbox p).busy = false)
    (ha : a = s.setMailbox p { s.mailbox p with busy := true, done := false, overrun := false }) :
    s.post p = if ((a.mailboxRefuse p).mailbox p).busy then (a.mailboxRefuse p).pathAsk (pathUnitBase + 1 + p) else a.mailboxRefuse p := by
  subst ha
  exact if_neg (by simp [hbusy])

section
variable {a : State} {q : ReqPdu} {acc : Access} (hq : q = ReqPdu.ofBytes (padTo 1152 (s.mailbox p).request)) (hacc : acc = ⟨.mailbox p, q.level, q.reqId⟩)
  (ha : a = s.setMailbox p { s.mailbox p with busy := true, done := false, overrun := false })
include hq hacc ha

theorem State.mailboxRefuse_posted : a.mailboxRefuse p =
    if listedCmd q.cmd ∨ !a.servesNow acc then a else a.refuseNow acc q.cmd q.index q.sub q.xfer .badCommand := by
  subst hacc hq
  have hm : a.mailbox p = { s.mailbox p with busy := true, done := false, overrun := false } := by
    rw [ha]
    exact State.mailbox_setMailbox_same ..
  simp only [State.mailboxRefuse, hm, Bool.not_true, Bool.false_eq_true, false_or]
end
end

/-- Settles O38. How the turns are asked for, and that the budget is looked at before the warning, are the model's choices (log entries
141 and 51). -/
theorem servicesTakeTheirMessages : Obligations.ServicesTakeTheirMessages := by
  unfold Obligations.ServicesTakeTheirMessages
  intro s
  refine ⟨fun m a old harrived hrun hfree hnak hkind ha hold ps pw budget hps hpw hbudget => ?power,
    fun m a b acc w0 w1 cmd asks harrived hrun hfree hnak hkind ha hb hw0 hw1 hcmd hacc hasks => ?service,
    fun p off b hlive hoff => ?byte, fun p off bs hlive => exec_mailboxRequestWrite off bs hlive,
    fun p q acc a hlive hq hacc ha => ?doorbell⟩
  case power =>
    have hall := exec_pstateRequest harrived hrun hfree hnak hkind ha
    have hserved := exec_pstateRequest_served harrived hrun hfree hnak hkind ha
    refine ⟨fun hbad => by rw [hall, if_pos hbad], fun hgood => ⟨fun hcore => ?_, fun hcore hform => ?_, fun hcore hlen hsock =>
      ⟨fun hfits => ⟨fun hwarn => ?_, fun hwarn habove => ?_⟩, fun hset hover => ?_⟩⟩⟩
    · rw [hall, hgood, hcore]
      rfl
    · rw [hserved hgood hcore, State.pstateServe_invalid hold hform]
    · rw [hserved hgood hcore, State.pstateServe_granted hold hlen hsock hps hpw]
      rw [State.pstateStatus_within hbudget hfits, if_neg]
      rintro ⟨h, h'⟩
      rcases hwarn with g | g
      · exact Bool.false_ne_true (g.symm.trans h)
      · omega
    · rw [hserved hgood hcore, State.pstateServe_refused hold hlen hsock hps hpw (st := 2) _ (by decide)]
      rw [State.pstateStatus_within hbudget hfits, if_pos ⟨hwarn, habove⟩]
    · rw [hserved hgood hcore, State.pstateServe_refused hold hlen hsock hps hpw (State.pstateStatus_over hbudget hset hover) (by decide)]
  case service =>
    obtain ⟨hcorrupt, hrefused⟩ := exec_serviceMessageReceive_refused harrived hrun hfree hnak hkind ha
    refine ⟨hcorrupt, fun hgood => ⟨(hrefused hgood).1, (hrefused hgood).2, fun hsock hroom => ?_⟩⟩
    rw [exec_serviceMessageReceive_queued harrived hrun hfree hnak hkind ha hgood hsock hroom hb hasks]
    exact ⟨fun h => by rw [State.serviceRefuse_taken hw0 hw1 hcmd hacc h],
      fun hserves h1 h2 h7 => by rw [State.serviceRefuse_unlisted hw0 hw1 hcmd hacc hserves h1 h2 h7],
      fun hserves h => by rw [State.serviceRefuse_short hw0 hw1 hcmd hacc hserves h]⟩
  case byte =>
    refine ⟨_, exec_mailboxRequestWrite off [b] hlive, rfl, rfl, ?_⟩
    rw [State.mailbox_setMailbox_same, List.map_singleton, Mailbox.put, Mailbox.put]
    refine ⟨?_, fun hbusy => ⟨?_, fun j hj hne => ?_⟩, fun hbusy => ?_⟩
    · cases hbusy : (s.mailbox p).busy
      · rw [Mailbox.putByte_idle b hoff hbusy, hbusy]
      · rw [Mailbox.putByte_busy b hoff hbusy, hbusy]
    · rw [Mailbox.putByte_idle b hoff hbusy]
      simp [List.getD_eq_getElem?_getD, padTo_length, hoff]
    · rw [Mailbox.putByte_idle b hoff hbusy]
      simp [List.getD_eq_getElem?_getD, List.getElem?_set_ne (Ne.symm hne)]
    · rw [Mailbox.putByte_busy b hoff hbusy]
      exact ⟨rfl, rfl⟩
  case doorbell =>
    have hbusy : (a.mailbox p).busy = true := by rw [ha, State.mailbox_setMailbox_same]
    refine ⟨fun hidle h => ?_, fun hidle hlisted hserves b hb => ?_, fun hbusy => by rw [exec_mailboxDoorbell hlive, State.post_busy hbusy]⟩
    · have hkept : a.mailboxRefuse p = a := by
        rw [State.mailboxRefuse_posted hq hacc ha]
        exact if_pos (by simpa using h)
      rw [exec_mailboxDoorbell hlive, State.post_idle hidle ha, hkept, if_pos hbusy]
    · have hrefused : a.mailboxRefuse p = b := by
        rw [State.mailboxRefuse_posted hq hacc ha, hb]
        exact if_neg (by simp [hlisted, hserves])
      rw [exec_mailboxDoorbell hlive, State.post_idle hidle ha, hrefused]

end Sys2Proof.Machine
end

section
/-! PROOFS. The management bus: common command codes, MCTP and SPDM (R59 to R61, R443, R457). -/

namespace Sys2Proof.Machine

section
variable {s : State}

theorem State.mctpSend_out (s : State) (ty : BitVec 8) (mtag : BitVec 3) (bs : List Byte) :
    (s.mctpSend ty mtag bs).out = s.out ++ [.mctp ty mtag bs] ++ (if s.pin.ibiOff then [] else [.ibi 0xAE]) ∧
      (s.mctpSend ty mtag bs).objs = s.objs := by
  cases hoff : s.pin.ibiOff <;> simp [State.mctpSend, State.ibi, State.emit, hoff]

/-! ## Common command codes -/

theorem exec_i3cCcc (c : Ccc) : exec (.i3cCcc c) s = .next (I3c.ccc c s) := rfl

section
variable (hrun : s.running = true)
include hrun

/-- Without a dynamic address only ENTDAA is answered. -/
theorem exec_i3cCcc_unaddressed (haddr : s.pin.dynAddr = none) (x : BitVec 7) :
    exec (.i3cCcc (.entdaa x)) s = .next (({ s with pin := { s.pin with dynAddr := some x } } : State).emit
      (.ccc ((leBytes 6 s.provisionalId.toNat).reverse ++ Config.freeBytes s.drawn 2))).draw ∧
    exec (.i3cCcc .getpid) s = .next s ∧ exec (.i3cCcc .getbcr) s = .next s ∧ exec (.i3cCcc .getdcr) s = .next s ∧
    exec (.i3cCcc .getstatus) s = .next s ∧ exec (.i3cCcc (.setnewda x)) s = .next s := by
  simp [exec_i3cCcc, I3c.ccc, hrun, haddr, State.pidBytes]

theorem exec_i3cCcc_addressed {y : BitVec 7} (haddr : s.pin.dynAddr = some y) :
    (∀ x, exec (.i3cCcc (.entdaa x)) s = .next s) ∧
    (∀ x, exec (.i3cCcc (.setnewda x)) s = .next { s with pin := { s.pin with dynAddr := some x } }) ∧
    exec (.i3cCcc .getpid) s = .next (s.emit (.ccc (leBytes 6 s.provisionalId.toNat).reverse)) ∧
    exec (.i3cCcc .getbcr) s = .next (s.emit (.ccc (Config.freeBytes s.drawn 1))).draw ∧
    exec (.i3cCcc .getdcr) s = .next (s.emit (.ccc (Config.freeBytes s.drawn 1))).draw ∧
    exec (.i3cCcc .getstatus) s = .next (s.emit (.ccc (Config.freeBytes s.drawn 2))).draw := by
  simp [exec_i3cCcc, I3c.ccc, hrun, haddr, State.pidBytes]

theorem exec_i3cCcc_events (v : BitVec 8) :
    exec (.i3cCcc (.enec v)) s = .next (if v.getLsbD 0 then { s with pin := { s.pin with ibiOff := false } } else s) ∧
    exec (.i3cCcc (.disec v)) s = .next (if v.getLsbD 0 then { s with pin := { s.pin with ibiOff := true } } else s) := by
  simp only [exec_i3cCcc, I3c.ccc, hrun, Bool.not_true, Bool.false_eq_true, if_false, and_self]

theorem exec_i3cCcc_unconditional : exec (.i3cCcc .rstdaa) s = .next { s with pin := { s.pin with dynAddr := none } } ∧
    ∀ c, exec (.i3cCcc (.other c)) s = .next s := by
  simp [exec_i3cCcc, I3c.ccc, hrun]

/-! ## MCTP -/

section
variable {ty : BitVec 8} {iana : BitVec 32} {mtag : BitVec 3} {body : List (BitVec 8)} {bytes : Nat}
  (hbytes : bytes = body.length + (if ty = 0x7F then 4 else 0))
include hbytes

theorem exec_mctpMessageReceive_nacked (h : s.busServed = false ∨ 4096 < s.busBytes bytes) :
    exec (.mctpMessageReceive ty iana mtag body) s = .next (s.emit .nack) := by
  subst hbytes
  have hnack : s.busNacks (body.length + if ty = 0x7F then 4 else 0) = true := by simpa [State.busNacks] using h
  simp only [exec, execMctpMessageReceive, Mctp.receive, hrun, hnack]
  rfl

theorem exec_mctpMessageReceive (hserved : s.busServed = true) (hroom : s.busBytes bytes ≤ 4096) :
    exec (.mctpMessageReceive ty iana mtag body) s = .next (
      if ty = 5 then { s with dict := { s.dict with spdm := mtag } }
      else if ty ≠ 0x7F ∨ iana.setWidth 64 ≠ s.obj Obj.mctpIana ∨ body.length < 16 then s
      else if s.dict.bus.isSome then s.busBusy mtag body
      else if (({ s with dict := { s.dict with bus := some (mtag, body) } } : State).busRefuse).dict.bus.isSome then
        (({ s with dict := { s.dict with bus := some (mtag, body) } } : State).busRefuse).pathAsk pathUnitBase
      else ({ s with dict := { s.dict with bus := some (mtag, body) } } : State).busRefuse) := by
  subst hbytes
  have hnack : s.busNacks (body.length + if ty = 0x7F then 4 else 0) = false := by
    simp only [State.busNacks, hserved, Bool.not_true, Bool.false_or, decide_eq_false_iff_not]
    exact Nat.not_lt.mpr hroom
  simp only [exec, execMctpMessageReceive, Mctp.receive, hrun, hnack]
  rfl
end

omit hrun in
/-- The request on the bus is answered at once where its CMD is reserved. -/
theorem State.busRefuse_posted {a : State} {mtag : BitVec 3} {body : List Byte} {q : ReqPdu} {acc : Access} (hbus : a.dict.bus = some (mtag, body))
    (hq : q = ReqPdu.ofBytes body) (hacc : acc = ⟨.bus, q.level, q.reqId⟩) :
    a.busRefuse = if listedCmd q.cmd ∨ !a.servesNow acc then a else a.refuseNow acc q.cmd q.index q.sub q.xfer .badCommand := by
  subst hacc hq
  simp only [State.busRefuse, hbus]

section
variable {mtag : BitVec 3} {head cmd : Byte} {data : List Byte}

theorem exec_mctpControlMessage_nacked (h : s.busServed = false ∨ 4096 < s.busBytes (data.length + 2)) :
    exec (.mctpControlMessage mtag (head :: cmd :: data)) s = .next (s.emit .nack) := by
  have hnack : s.busNacks (head :: cmd :: data).length = true := by simpa [State.busNacks] using h
  simp only [exec, execMctpControlMessage, Mctp.control, hrun, hnack]
  rfl

theorem exec_mctpControlMessage (hserved : s.busServed = true) (hroom : s.busBytes (data.length + 2) ≤ 4096) :
    exec (.mctpControlMessage mtag (head :: cmd :: data)) s = .next (if head.getLsbD 7 then
      ({ s with dict := { s.dict with eid := (mctpAnswer s.dict.eid cmd data).2 } } : State).mctpSend 0 mtag
        ([head &&& 0x1F, cmd] ++ (mctpAnswer s.dict.eid cmd data).1) else s) := by
  have hnack : s.busNacks (head :: cmd :: data).length = false := by
    simp only [State.busNacks, hserved, Bool.not_true, Bool.false_or, decide_eq_false_iff_not]
    exact Nat.not_lt.mpr hroom
  have hlong : ¬ (head :: cmd :: data).length < 2 := by simp
  cases hrq : head.getLsbD 7 <;>
    simp only [exec, execMctpControlMessage, Mctp.control, hrun, hnack, hlong, List.headD_cons, hrq] <;> rfl
end
end

theorem mctpAnswer_eq {eid eid' cmd : Byte} {data bs : List Byte} (h1 : cmd = 1 → bs = [0, 0, data.getD 1 0, 0] ∧ eid' = data.getD 1 0)
    (heid : cmd ≠ 1 → eid' = eid) (h2 : cmd = 2 → bs = [0, eid, 0, 0]) (h4 : cmd = 4 → bs = [0, 1, 0xF1, 0xF3, 0xF1, 0])
    (h5 : cmd = 5 → bs = [0, 2, 5, 0x7F]) (helse : cmd ≠ 1 → cmd ≠ 2 → cmd ≠ 4 → cmd ≠ 5 → bs = [5]) :
    mctpAnswer eid cmd data = (bs, eid') := by
  unfold mctpAnswer
  split
  case isTrue h => rw [(h1 h).1, (h1 h).2]
  case isFalse h =>
    rw [heid h]
    split
    case isTrue h => rw [h2 h]
    case isFalse h' =>
      split
      case isTrue h => rw [h4 h]
      case isFalse h'' =>
        split
        case isTrue h => rw [h5 h]
        case isFalse h''' => rw [helse h h' h'' h''']

/-! ## SPDM -/

section
variable {request : Byte} {f : State → State}

theorem State.spdmAnswer_unserved (h : s.busServed = false) : s.spdmAnswer request f = s := by simp [State.spdmAnswer, h]

theorem State.spdmAnswer_unprovisioned (h : s.busServed = true) (hprov : s.boot.provFused = false) :
    s.spdmAnswer request f = s.mctpSend 5 s.dict.spdm [0x13, 0x7F, 0x07, request] := by
  simp [State.spdmAnswer, h, hprov, State.spdmError, State.spdmSend]

theorem State.spdmAnswer_served (h : s.busServed = true) (hprov : s.boot.provFused = true) : s.spdmAnswer request f = f s := by
  simp [State.spdmAnswer, h, hprov]

theorem State.spdmAgreed_not (h : s.busServed = true) (hprov : s.boot.provFused = true) (hneg : s.boot.negotiated = false) :
    s.spdmAgreed request f = s.mctpSend 5 s.dict.spdm [0x13, 0x7F, 0x04, 0] := by
  rw [State.spdmAgreed, State.spdmAnswer_served h hprov, hneg, if_neg (by decide), State.spdmError, State.spdmSend]

theorem State.spdmAgreed_served (h : s.busServed = true) (hprov : s.boot.provFused = true) (hneg : s.boot.negotiated = true) :
    s.spdmAgreed request f = f s := by
  rw [State.spdmAgreed, State.spdmAnswer_served h hprov, hneg, if_pos rfl]
end

/-- What needs the algorithms goes through the check of the device key first. -/
theorem State.spdmAgreed_eq (s : State) (request : Byte) (f : State → State) : s.spdmAgreed request f =
    s.spdmAnswer request (fun a => if a.boot.negotiated then f a else a.spdmError 0x13 0x04 0) := rfl

/-- An SPDM instruction with its request code. -/
inductive SpdmStep : Instr → Byte → Prop where
  | version : SpdmStep .getVersion 0x84
  | capabilities : SpdmStep .getCapabilities 0xE1
  | negotiate (asym hash : BitVec 32) (meas : BitVec 8) : SpdmStep (.negotiateAlgorithms asym hash meas) 0xE3
  | digests : SpdmStep .getDigests 0x81
  | certificate (slot : BitVec 4) (off len : BitVec 16) : SpdmStep (.getCertificate slot off len) 0x82
  | challenge (slot : BitVec 4) (nonce : BitVec 256) (mh : BitVec 8) : SpdmStep (.challenge slot nonce mh) 0x83
  | measurements (index : BitVec 8) (nonce : BitVec 256) : SpdmStep (.getMeasurements index nonce) 0xE0

/-- Every SPDM instruction is answered through the same two checks. -/
theorem SpdmStep.exec_eq {c : Instr} {request : Byte} (h : SpdmStep c request) :
    (∃ f, exec c s = .next (s.spdmAnswer request f)) ∧ (request < 0x84 ∨ request = 0xE0 → ∃ f, exec c s = .next (s.spdmAgreed request f)) := by
  cases h with
  | version => exact ⟨⟨_, rfl⟩, fun h => absurd h (by decide)⟩
  | capabilities => exact ⟨⟨_, rfl⟩, fun h => absurd h (by decide)⟩
  | negotiate asym hash meas => exact ⟨⟨_, rfl⟩, fun h => absurd h (by decide)⟩
  | digests => exact ⟨⟨_, congrArg Host.Outcome.next (State.spdmAgreed_eq ..)⟩, fun _ => ⟨_, rfl⟩⟩
  | certificate slot off len => exact ⟨⟨_, congrArg Host.Outcome.next (State.spdmAgreed_eq ..)⟩, fun _ => ⟨_, rfl⟩⟩
  | challenge slot nonce mh => exact ⟨⟨_, congrArg Host.Outcome.next (State.spdmAgreed_eq ..)⟩, fun _ => ⟨_, rfl⟩⟩
  | measurements index nonce => exact ⟨⟨_, congrArg Host.Outcome.next (State.spdmAgreed_eq ..)⟩, fun _ => ⟨_, rfl⟩⟩

section
variable (hserved : s.busServed = true) (hprov : s.boot.provFused = true) {send : State → List Byte → State}
  (hsend : ∀ a bs, send a bs = State.mctpSend a 5 s.dict.spdm bs)
include hserved hprov hsend

theorem exec_getVersion : exec .getVersion s =
    .next (send { s with boot := { s.boot with negotiated := false } } [0x10, 0x04, 0, 0, 0, 1, 0x00, 0x13]) := by
  rw [hsend]
  exact congrArg Host.Outcome.next (State.spdmAnswer_served hserved hprov)

theorem exec_getCapabilities : exec .getCapabilities s = .next (send s ([0x13, 0x61, 0, 0, 0, (Config.freeValue s.drawn).setWidth 8, 0, 0] ++
    leBytes 4 0x16 ++ leBytes 4 4096 ++ leBytes 4 4096)).draw := by
  rw [hsend]
  exact congrArg Host.Outcome.next (State.spdmAnswer_served hserved hprov)

theorem exec_negotiateAlgorithms (asym hash : BitVec 32) (meas : BitVec 8) {sel : Bool → Nat → Nat} (hsel : ∀ b v, sel b v = if b then v else 0) :
    exec (.negotiateAlgorithms asym hash meas) s =
      .next (send { s with boot := { s.boot with negotiated := asym.getLsbD 7 && hash.getLsbD 1 } } ([0x13, 0x63, 0, 0] ++
        leBytes 2 36 ++ [BitVec.ofNat 8 (sel (meas.getLsbD 0) 1), 0] ++ leBytes 4 (sel (meas.getLsbD 0) 4) ++
        leBytes 4 (sel (asym.getLsbD 7) 0x80) ++ leBytes 4 (sel (hash.getLsbD 1) 2) ++ List.replicate 16 0)) := by
  simp only [hsend, hsel]
  exact congrArg Host.Outcome.next (State.spdmAnswer_served hserved hprov)

variable (hneg : s.boot.negotiated = true) {chain : List Byte} (hchain : chain = s.certChain)
include hneg hchain

theorem exec_getDigests : exec .getDigests s =
    .next (send s ([0x13, 0x01, 1, s.slotMask] ++ (if s.boot.certFused then sha384 chain else []))) := by
  rw [hsend, hchain]
  exact congrArg Host.Outcome.next (State.spdmAgreed_served hserved hprov hneg)

theorem exec_getCertificate_error {slot : BitVec 4} {off : BitVec 16} (len : BitVec 16)
    (h : slot ≠ 0 ∨ s.boot.certFused = false ∨ chain.length < off.toNat) :
    exec (.getCertificate slot off len) s = .next (send s [0x13, 0x7F, 0x01, 0]) := by
  subst hchain
  have hbad : slot ≠ 0 ∨ !s.boot.certFused ∨ s.certChain.length < off.toNat := by simpa using h
  rw [hsend]
  exact congrArg Host.Outcome.next ((State.spdmAgreed_served hserved hprov hneg).trans (if_pos hbad))

theorem exec_getCertificate_part {slot : BitVec 4} {off len : BitVec 16} {part : List Byte} (hslot : slot = 0) (hfused : s.boot.certFused = true)
    (hoff : off.toNat ≤ chain.length) (hpart : part = (chain.drop off.toNat).take len.toNat) :
    exec (.getCertificate slot off len) s = .next (send s ([0x13, 0x02, 0, 0] ++ leBytes 2 part.length ++
      leBytes 2 (chain.length - off.toNat - part.length) ++ part)) := by
  subst hchain hpart
  have hgood : ¬ (slot ≠ 0 ∨ !s.boot.certFused ∨ s.certChain.length < off.toNat) := by simp [hslot, hfused, hoff]
  rw [hsend]
  exact congrArg Host.Outcome.next ((State.spdmAgreed_served hserved hprov hneg).trans (if_neg hgood))

omit hchain in
theorem exec_challenge_error {slot : BitVec 4} (nonce : BitVec 256) (mh : BitVec 8) (h : slot ≠ 0 ∨ s.boot.certFused = false) :
    exec (.challenge slot nonce mh) s = .next (send s [0x13, 0x7F, 0x01, 0]) := by
  have hbad : slot ≠ 0 ∨ !s.boot.certFused := by simpa using h
  rw [hsend]
  exact congrArg Host.Outcome.next ((State.spdmAgreed_served hserved hprov hneg).trans (if_pos hbad))

theorem exec_challenge {slot : BitVec 4} {nonce : BitVec 256} {mh : BitVec 8} {summary msg : List Byte} (hslot : slot = 0)
    (hfused : s.boot.certFused = true) (hsummary : summary = (if mh = 1 then sha384 (s.measBlock 1)
      else if mh = 0xFF then sha384 ([1, 2, 3, 4].flatMap s.measBlock) else []))
    (hmsg : msg = [0x13, 0x03, 0, 1] ++ sha384 chain ++ Config.freeBytes s.drawn 32 ++ summary ++ leBytes 2 0 ++ List.replicate 8 0) :
    exec (.challenge slot nonce mh) s =
      .next (send s (msg ++ Config.deviceSign s.drawn (leBytes 32 nonce.toNat ++ msg))).draw := by
  subst hchain hmsg hsummary
  have hgood : ¬ (slot ≠ 0 ∨ !s.boot.certFused) := by simp [hslot, hfused]
  have hmask : s.slotMask = 1 := if_pos hfused
  rw [hsend]
  refine congrArg Host.Outcome.next ((State.spdmAgreed_served hserved hprov hneg).trans ((if_neg hgood).trans ?_))
  rw [hmask]
  rfl

omit hchain in
theorem exec_getMeasurements_error {index : BitVec 8} (nonce : BitVec 256) (hlow : 5 ≤ index.toNat) (hall : index ≠ 0xFF) :
    exec (.getMeasurements index nonce) s = .next (send s [0x13, 0x7F, 0x01, 0]) := by
  have hzero : index ≠ 0 := by
    rintro rfl
    simp at hlow
  have hnone : ¬ (1 ≤ index.toNat ∧ index.toNat ≤ 4) := by omega
  rw [hsend]
  refine congrArg Host.Outcome.next ((State.spdmAgreed_served hserved hprov hneg).trans ?_)
  simp only [if_neg hall, if_neg hnone]
  exact if_pos ⟨hzero, rfl⟩

omit hchain in
theorem exec_getMeasurements {index : BitVec 8} {nonce : BitVec 256} {ixs : List Nat} {blocks msg : List Byte}
    (h : index.toNat < 5 ∨ index = 0xFF) (hixs : ixs = (if index = 0xFF then [1, 2, 3, 4] else if index = 0 then [] else [index.toNat]))
    (hblocks : blocks = ixs.flatMap s.measBlock)
    (hmsg : msg = [0x13, 0x60, if index = 0 then 4 else 0, 0, BitVec.ofNat 8 ixs.length] ++ leBytes 3 blocks.length ++ blocks ++
      Config.freeBytes s.drawn 32 ++ leBytes 2 0 ++ List.replicate 8 0) :
    exec (.getMeasurements index nonce) s =
      .next (send s (msg ++ Config.deviceSign s.drawn (leBytes 32 nonce.toNat ++ msg))).draw := by
  have hmodel : (if index = 0xFF then [1, 2, 3, 4] else if 1 ≤ index.toNat ∧ index.toNat ≤ 4 then [index.toNat] else []) = ixs := by
    rw [hixs]
    by_cases hall : index = 0xFF
    · rw [if_pos hall, if_pos hall]
    · rw [if_neg hall, if_neg hall]
      by_cases hzero : index = 0
      · simp [hzero]
      · have hpos : index.toNat ≠ 0 := fun h0 => hzero (BitVec.eq_of_toNat_eq h0)
        have hlow := h.resolve_right hall
        rw [if_pos (by omega), if_neg hzero]
  have hsome : ¬ (index ≠ 0 ∧ ixs.isEmpty) := by
    rintro ⟨hzero, hempty⟩
    rw [hixs, if_neg hzero] at hempty
    split at hempty <;> simp at hempty
  subst hmsg hblocks
  rw [hsend]
  refine congrArg Host.Outcome.next ((State.spdmAgreed_served hserved hprov hneg).trans ?_)
  simp only [hmodel]
  exact if_neg hsome
end
end

/-- Settles O39. The layouts, the count of the receive buffer and the announcement by 0xAE are the model's (log entries 22, 23, 165 and
173). -/
theorem theManagementBusIsServed : Obligations.TheManagementBusIsServed := by
  unfold Obligations.TheManagementBusIsServed
  intro s
  refine ⟨fun ty mtag bs => s.mctpSend_out ty mtag bs, fun hrun => ?ccc,
    fun ty iana mtag body q acc a bytes hrun hq hacc ha hbytes => ⟨exec_mctpMessageReceive_nacked hrun hbytes, fun hserved hroom => ?mctp⟩,
    fun mtag head cmd data bs eid hrun h1 heid h2 h4 h5 helse => ⟨exec_mctpControlMessage_nacked hrun, fun hserved hroom => ?control⟩,
    fun c request asym hash meas slot off len nonce mh index hc => ?checks,
    fun hserved hprov send hsend => ⟨exec_getVersion hserved hprov hsend, exec_getCapabilities hserved hprov hsend,
      fun asym hash meas sel hsel => exec_negotiateAlgorithms hserved hprov hsend asym hash meas hsel,
      fun hneg chain hchain => ⟨exec_getDigests hserved hprov hsend hneg hchain,
        fun slot off len part => ⟨exec_getCertificate_error hserved hprov hsend hneg hchain len,
          exec_getCertificate_part hserved hprov hsend hneg hchain⟩,
        fun slot nonce mh summary msg => ⟨exec_challenge_error hserved hprov hsend hneg nonce mh,
          exec_challenge hserved hprov hsend hneg hchain⟩,
        fun index nonce ixs blocks msg => ⟨exec_getMeasurements_error hserved hprov hsend hneg nonce,
          exec_getMeasurements hserved hprov hsend hneg⟩⟩⟩⟩
  case ccc =>
    obtain ⟨hrst, hother⟩ := exec_i3cCcc_unconditional hrun
    refine ⟨fun x => ⟨fun haddr => (exec_i3cCcc_unaddressed hrun haddr x).1,
        fun y haddr => ⟨(exec_i3cCcc_addressed hrun haddr).1 x, (exec_i3cCcc_addressed hrun haddr).2.1 x⟩⟩, hrst,
      fun y haddr => (exec_i3cCcc_addressed hrun haddr).2.2, fun haddr x => (exec_i3cCcc_unaddressed hrun haddr x).2,
      fun v hv => ?_, fun v hv => ?_, hother⟩
    · obtain ⟨henec, hdisec⟩ := exec_i3cCcc_events hrun v
      rw [henec, hdisec, if_pos hv, if_pos hv]
      exact ⟨rfl, rfl⟩
    · obtain ⟨henec, hdisec⟩ := exec_i3cCcc_events hrun v
      rw [henec, hdisec, hv]
      exact ⟨rfl, rfl⟩
  case mctp =>
    have hexec := exec_mctpMessageReceive (iana := iana) (mtag := mtag) hrun hbytes hserved hroom
    refine ⟨fun hty => by rw [hexec, if_pos hty], fun hty hother => by rw [hexec, if_neg hty, if_pos hother], fun hty hiana hlen => ?_⟩
    have hspdm : ty ≠ 5 := by
      rw [hty]
      decide
    have hours : ¬ (ty ≠ 0x7F ∨ iana.setWidth 64 ≠ s.obj Obj.mctpIana ∨ body.length < 16) := by
      rintro (h | h | h)
      · exact h hty
      · exact h hiana
      · omega
    rw [hexec, if_neg hspdm, if_neg hours, ← ha]
    have hposted := State.busRefuse_posted (a := a) (by rw [ha]) hq hacc
    refine ⟨fun hbus h => ?_, fun hbus hlisted hserves b hb => ?_, fun hbus => by rw [if_pos hbus, State.busBusy, ← hq]⟩
    · have hkept : a.busRefuse = a := hposted.trans (if_pos (by simpa using h))
      have hasked : a.dict.bus.isSome = true := by rw [ha]; rfl
      have hidle : ¬ s.dict.bus.isSome = true := by simp [hbus]
      rw [if_neg hidle, hkept, if_pos hasked]
    · have hrefused : a.busRefuse = b := hposted.trans ((if_neg (by simp [hlisted, hserves])).trans hb.symm)
      have hidle : ¬ s.dict.bus.isSome = true := by simp [hbus]
      rw [if_neg hidle, hrefused]
  case control =>
    have hexec := exec_mctpControlMessage (mtag := mtag) (head := head) (cmd := cmd) hrun hserved hroom
    rw [mctpAnswer_eq h1 heid h2 h4 h5 helse] at hexec
    exact ⟨fun hrq => by rw [hexec, if_pos hrq], fun hrq => by rw [hexec, hrq]; rfl⟩
  case checks =>
    have hstep : SpdmStep c request := by
      obtain ⟨rfl, rfl⟩ | ⟨rfl, rfl⟩ | ⟨rfl, rfl⟩ | ⟨rfl, rfl⟩ | ⟨rfl, rfl⟩ | ⟨rfl, rfl⟩ | ⟨rfl, rfl⟩ := hc <;> constructor
    obtain ⟨⟨f, hanswer⟩, hagreed⟩ := SpdmStep.exec_eq (s := s) hstep
    refine ⟨fun hserved => by rw [hanswer, State.spdmAnswer_unserved hserved],
      fun hserved hprov => by rw [hanswer, State.spdmAnswer_unprovisioned hserved hprov], fun hserved hprov hneg hreq => ?_⟩
    obtain ⟨f', hexec⟩ := hagreed hreq
    rw [hexec, State.spdmAgreed_not hserved hprov hneg]

end Sys2Proof.Machine
end

section
/-! PROOFS. Tensor beats at the adapters, wake requests and gauges (R36, R38 to R40, R50, R101, R126, R129). -/

namespace Sys2Proof.Machine

section
variable {s : State} {n i : Nat} {side : Side} {twoFlits : Bool}

@[simp] theorem State.tin_setTin_same (s : State) (n i : Nat) (x : TIn) : (s.setTin n i x).tin n i = x := Tbl.get_set_same ..

@[simp] theorem State.ing_setIng_same (s : State) (n i : Nat) (x : Ingress) : (s.setIng n i x).ing n i = x := Tbl.get_set_same ..

theorem State.moves_of_tMoves (h : s.tMoves n = true) : s.moves n = true := (Bool.and_eq_true_iff.mp h).1

/-- What a live adapter at a beat port says of the instruction's guards. -/
theorem State.not_held_of_live (hlive : s.adapterLive n side = true) : s.adapterHeld n side = false := by
  simpa using (Bool.and_eq_true_iff.mp hlive).1

/-! ## Injection -/

section
variable (hrun : s.running = true) (hi : i = sidePort side) (hport : s.beatPort n side = true) (hlive : s.adapterLive n side = true)
  (flow : BitVec 12) (lower : BitVec 4096) (upper : Option (BitVec 4096)) (last : Bool)
include hrun hi hport hlive

/-- The instruction past the adapter's own guards. -/
theorem exec_tensorInjectBeat_live : exec (.tensorInjectBeat n side flow lower upper last) s = .next (
    if s.regionStateOf (s.regionOf n) = 4 then s.wakeAt n
    else if !s.tMoves n ∨ (side = .a ∧ s.portClosed n) ∨ !s.ingOpen n i then s
    else if !(s.ing n i).discard && (s.ing n i).flow == 0 && s.ingNext n i != some flow.toNat then
      (if (s.ing n i).refused then s
      else (s.setIng n i { s.ing n i with refused := true }).raise (Cause.atUnit 0x045 (s.wardOf n) n i 0x3F flow.toNat))
    else
      match (if side = .a ∧ s.cfg.adapterAt n / 2 % 2 = 1 then upper else none) with
      | none => ((s.setIng n i { s.ing n i with refused := false }).ingTake n i lower last).touch n
      | some u => (((s.setIng n i { s.ing n i with refused := false }).ingTake n i lower false).ingTake n i u last).touch n) := by
  subst hi
  have hheld : ¬ (side = .b ∧ s.cfg.bKind n = 1 ∧ s.adapterHeld n .b) := by
    rintro ⟨rfl, -, h⟩
    exact Bool.false_ne_true ((State.not_held_of_live hlive).symm.trans h)
  have hopen : ¬ (!s.beatPort n side ∨ !s.running ∨ !s.adapterLive n side) := by simp [hport, hrun, hlive]
  simp only [exec, execTensorInjectBeat, Tensor.inject]
  rw [if_neg hheld, if_neg hopen] <;> rfl

theorem exec_tensorInjectBeat_stays (hungated : s.regionStateOf (s.regionOf n) ≠ 4)
    (h : s.tMoves n = false ∨ (side = .a ∧ s.portClosed n = true) ∨ s.ingOpen n i = false) :
    exec (.tensorInjectBeat n side flow lower upper last) s = .next s := by
  rw [exec_tensorInjectBeat_live hrun hi hport hlive flow lower upper last, if_neg hungated, if_pos (by simpa using h)]

section
variable (hmoves : s.tMoves n = true) (hward : side = .a → s.portClosed n = false) (hroom : s.ingOpen n i = true)
include hmoves hward hroom

/-- The instruction at an ingress that may take a beat. -/
theorem exec_tensorInjectBeat_open : exec (.tensorInjectBeat n side flow lower upper last) s = .next (
    if !(s.ing n i).discard && (s.ing n i).flow == 0 && s.ingNext n i != some flow.toNat then
      (if (s.ing n i).refused then s
      else (s.setIng n i { s.ing n i with refused := true }).raise (Cause.atUnit 0x045 (s.wardOf n) n i 0x3F flow.toNat))
    else
      match (if side = .a ∧ s.cfg.adapterAt n / 2 % 2 = 1 then upper else none) with
      | none => ((s.setIng n i { s.ing n i with refused := false }).ingTake n i lower last).touch n
      | some u => (((s.setIng n i { s.ing n i with refused := false }).ingTake n i lower false).ingTake n i u last).touch n) := by
  obtain ⟨-, hactive, -⟩ := (s.moves_iff n).mp (State.moves_of_tMoves hmoves)
  have hclosed : ¬ (!s.tMoves n ∨ (side = .a ∧ s.portClosed n) ∨ !s.ingOpen n i) := by
    rintro (h | ⟨hside, h⟩ | h)
    · simp [hmoves] at h
    · simp [hward hside] at h
    · simp [hroom] at h
  rw [exec_tensorInjectBeat_live hrun hi hport hlive flow lower upper last, if_neg (by omega), if_neg hclosed]

theorem exec_tensorInjectBeat_taken (hnext : (s.ing n i).discard = true ∨ (s.ing n i).flow ≠ 0 ∨ s.ingNext n i = some flow.toNat) :
    exec (.tensorInjectBeat n side flow lower upper last) s = .next (
      match (if side = .a ∧ s.cfg.adapterAt n / 2 % 2 = 1 then upper else none) with
      | none => ((s.setIng n i { s.ing n i with refused := false }).ingTake n i lower last).touch n
      | some u => (((s.setIng n i { s.ing n i with refused := false }).ingTake n i lower false).ingTake n i u last).touch n) := by
  rw [exec_tensorInjectBeat_open hrun hi hport hlive flow lower upper last hmoves hward hroom, if_neg]
  simp only [Bool.and_eq_true, Bool.not_eq_true', beq_iff_eq, bne_iff_ne, ne_eq]
  rintro ⟨⟨h, h'⟩, h''⟩
  rcases hnext with g | g | g
  · exact Bool.false_ne_true (h.symm.trans g)
  · exact g h'
  · exact h'' g

theorem exec_tensorInjectBeat_refused (hdiscard : (s.ing n i).discard = false) (hflow : (s.ing n i).flow = 0)
    (hnext : s.ingNext n i ≠ some flow.toNat) : exec (.tensorInjectBeat n side flow lower upper last) s = .next (
      if (s.ing n i).refused then s
      else (s.setIng n i { s.ing n i with refused := true }).raise (Cause.atUnit 0x045 (s.wardOf n) n i 0x3F flow.toNat)) := by
  rw [exec_tensorInjectBeat_open hrun hi hport hlive flow lower upper last hmoves hward hroom, if_pos (by simp [hdiscard, hflow, hnext])]
end
end

/-- A frame without error and end shows neither. -/
theorem frameOf_inside (tally first : Bool) : (frameOf (if tally then 1 else 0) 0 false false first).getLsbD 1 = false ∧
    (frameOf (if tally then 1 else 0) 0 false false first).getLsbD 2 = false := by
  cases tally <;> cases first <;> decide

/-- A flit inside a run enters the link and counts. -/
theorem State.ingTake_inside {lower : BitVec 4096} (hdiscard : (s.ing n i).discard = false) (hflow : (s.ing n i).flow ≠ 0)
    (hmore : (s.ing n i).taken + 1 < (s.ing n i).flits) : ∃ t f, s.ingTake n i lower false = t ∧
      (t.tin n i).wire = (s.tin n i).wire ++ [f] ∧ f.payload = lower ∧ f.last = false ∧ f.err = false ∧
      (t.ing n i).taken = (s.ing n i).taken + 1 ∧ (t.ing n i).flow = (s.ing n i).flow ∧ t.objs = s.objs := by
  have htake : s.ingTake n i lower false = s.ingFlit n i lower 0 false false := by
    simp [State.ingTake, State.ingTakeAs, hdiscard, hflow, Nat.not_le.mpr hmore]
  have hing : (s.ingFlit n i lower 0 false false).ing n i =
      { s.ing n i with taken := (s.ing n i).taken + 1, crc := crcFlit (s.ing n i).crc lower } := State.ing_setIng_same s n i _
  obtain ⟨hlast, herr⟩ := frameOf_inside (s.ing n i).tally ((s.ing n i).taken == 0)
  exact ⟨_, _, htake, congrArg TIn.wire (State.tin_setTin_same ..), rfl, hlast, herr, by rw [hing], by rw [hing], rfl⟩

/-! ## Delivery -/

section
variable {s0 s1 : State} {flow : BitVec 12} {f : TFlit} {flags : BitVec 4} (hrun : s.running = true) (hi : i = sidePort side)
  (htwo : twoFlits = true ↔ side = .a ∧ s.cfg.adapterAt n / 2 % 2 = 1)
  (hport : s.beatPort n side = true) (hlive : s.adapterLive n side = true) (hactive : s.junctionActive n = true)
  (hoffer : s.offer (600 + 2 * n + (if side = .a then 0 else 1)) = some s0) (htake : s0.dlvTake n i = some (flow, f, flags, s1))
include hrun hi htwo hport hlive hactive hoffer htake

theorem exec_tensorDeliverBeat_one (h : twoFlits = false ∨ f.last = true ∨ (s1.dlv n i).queue.head?.map (·.1) ≠ some flow) :
    exec (.tensorDeliverBeat n side) s = .next ((s1.drive n side flow f.payload none f.last flags).touch n) := by
  subst hi
  have hopen : ¬ (!s.beatPort n side ∨ !s.running ∨ !s.adapterLive n side ∨ !s.junctionActive n) := by simp [hport, hrun, hlive, hactive]
  have hone : ¬ (side = .a ∧ s.cfg.adapterAt n / 2 % 2 = 1 ∧ !f.last ∧ ((s1.dlv n (sidePort side)).queue.head?.map (·.1)) = some flow) := by
    rintro ⟨hside, hwide, hlast, hnext⟩
    rcases h with h | h | h
    · exact Bool.false_ne_true (h.symm.trans (htwo.mpr ⟨hside, hwide⟩))
    · simp [h] at hlast
    · exact h hnext
  simp only [exec, execTensorDeliverBeat, Tensor.deliver, if_neg hopen, hoffer, htake, if_neg hone]

theorem exec_tensorDeliverBeat_two (hwide : twoFlits = true) (hlast : f.last = false) (hnext : (s1.dlv n i).queue.head?.map (·.1) = some flow)
    {flow' : BitVec 12} {g : TFlit} {flags2 : BitVec 4} {s2 : State} (htake2 : s1.dlvTake n i = some (flow', g, flags2, s2)) :
    exec (.tensorDeliverBeat n side) s = .next ((s2.drive n side flow f.payload (some g.payload) g.last flags2).touch n) := by
  subst hi
  have hopen : ¬ (!s.beatPort n side ∨ !s.running ∨ !s.adapterLive n side ∨ !s.junctionActive n) := by simp [hport, hrun, hlive, hactive]
  have hboth : side = .a ∧ s.cfg.adapterAt n / 2 % 2 = 1 ∧ !f.last ∧ ((s1.dlv n (sidePort side)).queue.head?.map (·.1)) = some flow :=
    ⟨(htwo.mp hwide).1, (htwo.mp hwide).2, by simp [hlast], hnext⟩
  simp only [exec, execTensorDeliverBeat, Tensor.deliver, if_neg hopen, hoffer, htake, if_pos hboth, htake2]
end

/-! ## Wake requests and gauges -/

theorem exec_coreWakeRequest (hrun : s.running = true) (hport : s.cfg.corePort n = true) (hheld : s.adapterHeld n .a = false) :
    exec (.coreWakeRequest n) s = .next (s.wakeAt n) := by
  simp only [exec, execCoreWakeRequest, Tensor.coreWake, hrun, hport, hheld]
  rfl

theorem exec_wakeHoldExpire {k : Nat} (hrun : s.running = true) (hhold : Tbl.get 0 s.pwr.wakeHold k ≠ 0) :
    ∃ t : State, exec (.wakeHoldExpire k) s = .next t ∧ Tbl.get 0 t.pwr.wakeHold k = 0 ∧
      t.objs = (s.advanceTo (Tbl.get 0 s.pwr.wakeHold k)).objs := by
  have hopen : ¬ (!s.running ∨ Tbl.get 0 s.pwr.wakeHold k = 0) := by simp [hrun, hhold]
  exact ⟨_, congrArg Host.Outcome.next (if_neg hopen), Tbl.get_set_same 0 (s.advanceTo _).pwr.wakeHold k 0, rfl⟩

section
variable {k : Nat} {rate : BitVec 16} (hrun : s.running = true) (hk : k < s.cfg.regions)
include hrun hk

theorem exec_paceGaugeWindow_idle (h : s.regionStateOf k = 0 ∨ s.regionStateOf k = 4 ∨ s.pwr.down.contains k = true) :
    exec (.paceGaugeWindow k rate) s = .next (s.setObj (Obj.paceRate k) 0) := by
  have hopen : ¬ (!s.running ∨ s.cfg.regions ≤ k) := by simp [hrun, hk]
  exact congrArg Host.Outcome.next ((if_neg hopen).trans (if_pos h))

theorem exec_paceGaugeWindow (hup : 1 ≤ s.regionStateOf k ∧ s.regionStateOf k ≠ 4) (hdown : s.pwr.down.contains k = false) :
    ∃ t : State, exec (.paceGaugeWindow k rate) s = .next t ∧ t.obj (Obj.paceRate k) = rate.setWidth 64 ∧
      t.obj (Obj.paceMin k) = (if rate.toNat < (s.obj (Obj.paceMin k)).toNat then rate.setWidth 64 else s.obj (Obj.paceMin k)) ∧
      (∀ j, j ≠ Obj.paceRate k → j ≠ Obj.paceMin k → t.obj j = s.obj j) := by
  have hopen : ¬ (!s.running ∨ s.cfg.regions ≤ k) := by simp [hrun, hk]
  have hup' : ¬ (s.regionStateOf k = 0 ∨ s.regionStateOf k = 4 ∨ s.pwr.down.contains k = true) := by
    rintro (h | h | h)
    · omega
    · omega
    · exact Bool.false_ne_true (hdown.symm.trans h)
  have hval : BitVec.ofNat 64 rate.toNat = rate.setWidth 64 := BitVec.ofNat_toNat 64 rate
  have hkeys : Obj.paceMin k ≠ Obj.paceRate k := by simp [Obj.paceMin, Obj.paceRate]
  refine ⟨_, congrArg Host.Outcome.next ((if_neg hopen).trans (if_neg hup')), ?_⟩
  rw [hval]
  split
  · exact ⟨by rw [State.obj_setObj_ne _ _ hkeys.symm, State.obj_setObj_same], State.obj_setObj_same ..,
      fun j hrate hmin => by rw [State.obj_setObj_ne _ _ hmin, State.obj_setObj_ne _ _ hrate]⟩
  · exact ⟨State.obj_setObj_same .., State.obj_setObj_ne _ _ hkeys, fun j hrate _ => State.obj_setObj_ne _ _ hrate⟩
end
end

/-- Settles O40: past the guards of the adapter each beat goes by what its ingress or its port's queue holds. -/
theorem tensorBeatsEnterAndLeave : Obligations.TensorBeatsEnterAndLeave := by
  unfold Obligations.TensorBeatsEnterAndLeave
  intro s n side i twoFlits hrun hi htwo
  refine ⟨fun hport hlive hmoves hward hroom x hx => ?inject,
    fun hport hlive flow lower upper last => ⟨fun hgated => ?gated, exec_tensorInjectBeat_stays hrun hi hport hlive flow lower upper last⟩,
    fun lower x hx => ?inside, fun s0 flow f flags s1 hport hlive hactive hoffer htake =>
      ⟨exec_tensorDeliverBeat_one hrun hi htwo hport hlive hactive hoffer htake,
        fun hwide hlast hnext flow' g flags2 s2 => exec_tensorDeliverBeat_two hrun hi htwo hport hlive hactive hoffer htake hwide hlast hnext⟩,
    fun hfree ch => State.offer_of_free ch hfree,
    fun hport hheld => ⟨exec_coreWakeRequest hrun hport hheld, fun hgated hfree => (State.wake_of_gated hgated hfree).1, fun hungated => if_pos hungated⟩,
    fun k hhold => exec_wakeHoldExpire hrun hhold, fun k rate hk => ⟨exec_paceGaugeWindow hrun hk, exec_paceGaugeWindow_idle hrun hk⟩⟩
  case inject =>
    subst hx
    refine ⟨fun flow lower upper last s0 hnext hs0 => ⟨fun hone => ?_, fun u hwide hupper => ?_⟩,
      fun flow lower upper last hdiscard hflow hnext => ⟨fun href => ?_, fun href => ?_⟩⟩
    · have hnone : (if side = .a ∧ s.cfg.adapterAt n / 2 % 2 = 1 then upper else none) = none := by
        rcases hone with h | h
        · exact if_neg (fun hw => Bool.false_ne_true (h.symm.trans (htwo.mpr hw)))
        · rw [h, ite_self]
      rw [exec_tensorInjectBeat_taken hrun hi hport hlive flow lower upper last hmoves hward hroom hnext, hnone, hs0]
    · rw [exec_tensorInjectBeat_taken hrun hi hport hlive flow lower upper last hmoves hward hroom hnext, if_pos (htwo.mp hwide), hupper, hs0]
    · rw [exec_tensorInjectBeat_refused hrun hi hport hlive flow lower upper last hmoves hward hroom hdiscard hflow hnext, if_pos href]
    · rw [exec_tensorInjectBeat_refused hrun hi hport hlive flow lower upper last hmoves hward hroom hdiscard hflow hnext, href,
        if_neg (by decide)]
  case gated => rw [exec_tensorInjectBeat_live hrun hi hport hlive flow lower upper last, if_pos hgated]
  case inside =>
    subst hx
    exact State.ingTake_inside

end Sys2Proof.Machine
end

section
/-! PROOFS. Tensor flits at inputs, outputs and reduction nodes (R92, R96, R122, R123, R128, R145, R159 to R162, R177). -/

namespace Sys2Proof.Machine

section
variable {s : State} {n i : Nat}

@[simp] theorem State.node_setNode_same (s : State) (n : Nat) (x : TNode) : (s.setNode n x).node n = x := Tbl.get_set_same ..

/-! ## A flit leaves the link -/

section
variable {flips : List Nat} {f : TFlit} {rest : List TFlit} {s1 : State} {after : State → State} (hmoves : s.tMoves n = true) (hi : i < 6)
  (hwire : (s.tin n i).wire = f :: rest) (hfree : s.latchFree n i = true)
  (hafter : ∀ a : State, after a = if i = 5 ∧ s.cfg.bKind n = 2 then a.collSettle (s.cfg.bIndex n) else a)
include hmoves hi hwire hfree hafter

theorem exec_tensorFlitArrive (hs1 : s1 = if s.inReads n i then s.inRead n i else s) :
    exec (.tensorFlitArrive n i flips) s = .next (after (
      if s.inReads n i && (s.storeDecode n 0 64 7 []).bad then s.inRead n i
      else if !f.isMarker && s.markerDue n i && ((s.tin n i).skip == 0 || f.first) then s1.markerFault n i
      else (((((s1.latchFlit n i flips f rest).refillFromBridge n i).ingGoes n i).swapTry n).swapBehind n i).touch n)) := by
  obtain ⟨-, hactive, -⟩ := (s.moves_iff n).mp (State.moves_of_tMoves hmoves)
  have hungated : s.regionStateOf (s.regionOf n) ≠ 4 := by omega
  have hopen : ¬ (!s.latchFree n i) = true := by simp [hfree]
  rw [hafter]
  simp only [exec, execTensorFlitArrive, Tensor.flitArrive, Tensor.arrive, hwire, if_neg (Nat.not_le.mpr hi), if_neg hungated, if_neg hopen, ← hs1]

theorem exec_tensorFlitArrive_unread (hreads : s.inReads n i = true) (hbad : (s.storeDecode n 0 64 7 []).bad = true) :
    exec (.tensorFlitArrive n i flips) s = .next (after (s.inRead n i)) := by
  rw [exec_tensorFlitArrive hmoves hi hwire hfree hafter rfl, if_pos (by simp [hreads, hbad])]

theorem exec_tensorFlitArrive_latched (hs1 : s1 = if s.inReads n i then s.inRead n i else s)
    (hread : s.inReads n i = false ∨ (s.storeDecode n 0 64 7 []).bad = false)
    (h : f.isMarker = true ∨ s.markerDue n i = false ∨ ((s.tin n i).skip ≠ 0 ∧ f.first = false)) :
    exec (.tensorFlitArrive n i flips) s = .next (after ((((((s1.latchFlit n i flips f rest).refillFromBridge n i).ingGoes n
      i).swapTry n).swapBehind n i).touch n)) := by
  have hgood : ¬ (s.inReads n i && (s.storeDecode n 0 64 7 []).bad) = true := by rcases hread with h | h <;> simp [h]
  have hplace : ¬ (!f.isMarker && s.markerDue n i && ((s.tin n i).skip == 0 || f.first)) = true := by
    rcases h with h | h | ⟨h, h'⟩
    · simp [h]
    · simp [h]
    · simp [h, h']
  rw [exec_tensorFlitArrive hmoves hi hwire hfree hafter hs1, if_neg hgood, if_neg hplace]

theorem exec_tensorFlitArrive_misplaced (hs1 : s1 = if s.inReads n i then s.inRead n i else s)
    (hread : s.inReads n i = false ∨ (s.storeDecode n 0 64 7 []).bad = false) (hmarker : f.isMarker = false)
    (hdue : s.markerDue n i = true) (h : (s.tin n i).skip = 0 ∨ f.first = true) :
    exec (.tensorFlitArrive n i flips) s = .next (after (s1.markerFault n i)) := by
  have hgood : ¬ (s.inReads n i && (s.storeDecode n 0 64 7 []).bad) = true := by rcases hread with h | h <;> simp [h]
  have hplace : (!f.isMarker && s.markerDue n i && ((s.tin n i).skip == 0 || f.first)) = true := by
    rcases h with h | h <;> simp [hmarker, hdue, h]
  rw [exec_tensorFlitArrive hmoves hi hwire hfree hafter hs1, if_neg hgood, if_pos hplace]
end

/-! ## A flit without errors -/

theorem State.laneDecode_clean (hquiet : ∀ j, s.injectedAt 0x01 n i j = false) (j : Nat) : s.laneDecode n i [] j = ⟨false, none, []⟩ := by
  simp [State.laneDecode, laneFlips, hquiet, Hamming.decode_nil]

theorem TFlit.invert_nil (f : TFlit) (j : Nat) : f.invert j [] = f := rfl

theorem State.flitSeen_clean (hquiet : ∀ j, s.injectedAt 0x01 n i j = false) (f : TFlit) : s.flitSeen n i [] f = f := by
  have hfold : ∀ l : List Nat, l.foldl (fun (a : TFlit) j => a.invert j (laneWrong (s.laneDecode n i [] j) [] j)) f = f := by
    intro l
    induction l with
    | nil => rfl
    | cons j l ih => rw [List.foldl_cons, State.laneDecode_clean hquiet, laneWrong, if_neg (by decide), TFlit.invert_nil, ih]
  have hnone : (List.range 8).any (fun j => (s.laneDecode n i [] j).bad) = false := by simp [State.laneDecode_clean hquiet]
  simp only [State.flitSeen, hfold, hnone]
  rfl

theorem State.noteLanes_clean (hquiet : ∀ j, s.injectedAt 0x01 n i j = false) : s.noteLanes n i [] = s := by
  have hfold : ∀ l : List Nat, l.foldl (fun (a : State) j =>
      match (s.laneDecode n i [] j).corrected with
      | some bit => if (s.laneDecode n i [] j).bad then (if s.injectedAt 0x01 n i j then a.injectFired else a)
        else (if s.injectedAt 0x01 n i j then a.injectFired else a).noteCorrection n i j bit (s.injectedAt 0x01 n i j)
      | none => if s.injectedAt 0x01 n i j then a.injectFired else a) s = s := by
    intro l
    induction l with
    | nil => rfl
    | cons j l ih => simpa only [List.foldl_cons, State.laneDecode_clean hquiet, hquiet, if_neg Bool.false_ne_true] using ih
  exact hfold _

theorem State.badLane_clean (hquiet : ∀ j, s.injectedAt 0x01 n i j = false) (ls : List Nat) : s.badLane n i [] ls = none := by
  simp [State.badLane, State.laneDecode_clean hquiet]

@[simp] theorem State.inList_setTin (s : State) (n i m j : Nat) (x : TIn) : (s.setTin n i x).inList m j = s.inList m j := rfl

@[simp] theorem State.node_setTin (s : State) (n i m : Nat) (x : TIn) : (s.setTin n i x).node m = s.node m := rfl

@[simp] theorem State.inSel_setTin (s : State) (n i m j : Nat) (x : TIn) : (s.setTin n i x).inSel m j = s.inSel m j := rfl

@[simp] theorem State.rnSel_setTin (s : State) (n i m : Nat) (x : TIn) : (s.setTin n i x).rnSel m = s.rnSel m := rfl

/-! ## The fork -/

section
variable {f : TFlit} {e : BitVec 64} (hheld : (s.tin n i).held = some f) (hmarker : f.isMarker = false)
  (hentry : (s.inList n i)[(s.tin n i).entry]? = some e)
include hheld hmarker hentry

/-- The input keeps its flit while some taker has not passed it. -/
theorem State.settleIn_waits (hwaits : inTakers e &&& (s.tin n i).done ≠ inTakers e) : s.settleIn n i = s := by
  have htakers : s.takersOf n i = inTakers e := by simp only [State.takersOf, hentry]
  simp only [State.settleIn, hheld, hmarker, htakers, if_neg hwaits, Bool.false_eq_true, if_false]

theorem State.settleIn_done (hdone : inTakers e &&& (s.tin n i).done = inTakers e) (hlast : f.last = false) :
    s.settleIn n i = s.setTin n i { s.tin n i with held := none, done := 0 } := by
  have htakers : s.takersOf n i = inTakers e := by simp only [State.takersOf, hentry]
  simp only [State.settleIn, hheld, hmarker, htakers, if_pos hdone, hlast, Bool.false_eq_true, if_false]

theorem State.feedNode_other (htakers : (inTakers e).testBit 6 = false) : s.feedNode n i = s := by
  simp only [State.feedNode, hheld, hentry, hmarker, htakers, Bool.not_false, Bool.or_true, Bool.true_or, if_true]

/-- The node takes the flit into the empty operand latch. -/
theorem State.feedNode_taken (htakers : (inTakers e).testBit 6 = true) (hdone : (s.tin n i).done = 0) (hstuck : (s.node n).stuck = false)
    (hdrain : (s.node n).drain.contains i = false) (hempty : s.opLatch n i = none) (hsel : s.inSel n i = s.rnSel n) :
    s.feedNode n i = (s.setNode n { s.node n with ops := Tbl.set none (s.node n).ops i (some ⟨inFlow e, f, inFlits e⟩) }).takeIn n i 6 := by
  have hopen : ¬ (f.isMarker || !(inTakers e).testBit 6 || (s.tin n i).done.testBit 6 || (s.node n).stuck || s.inSel n i != s.rnSel n) = true := by
    simp [hmarker, htakers, hdone, hstuck, hsel]
  simp only [State.feedNode, hheld, hentry, if_neg hopen, hdrain, hempty, Option.isSome_none, Bool.false_eq_true, if_false]
end

/-- The input as it holds flit `f`. -/
def TIn.holding (x : TIn) (f : TFlit) (err : Bool) : TIn :=
  { x with held := some f, done := 0, passed := x.passed + 1, crc := crcFlit x.crc f.payload, err := err }

theorem State.holdFlit_eq (s : State) (n i : Nat) (f : TFlit) (err : Bool) :
    s.holdFlit n i f err = ((s.setTin n i ((s.tin n i).holding f err)).settleIn n i).feedNode n i := rfl

section
variable {f : TFlit} {e : BitVec 64} {err : Bool} (hmarker : f.isMarker = false) (hentry : (s.inList n i)[(s.tin n i).entry]? = some e)
include hmarker hentry

theorem State.holdFlit_waits (hnode : (inTakers e).testBit 6 = false) (htakers : inTakers e ≠ 0) :
    s.holdFlit n i f err = s.setTin n i ((s.tin n i).holding f err) := by
  have htin : (s.setTin n i ((s.tin n i).holding f err)).tin n i = (s.tin n i).holding f err := State.tin_setTin_same ..
  have hheld : ((s.setTin n i ((s.tin n i).holding f err)).tin n i).held = some f := by rw [htin]; rfl
  have hentry' : ((s.setTin n i ((s.tin n i).holding f err)).inList n i)[((s.setTin n i ((s.tin n i).holding f err)).tin n i).entry]? = some e := by
    rw [htin]
    exact hentry
  have hwaits : inTakers e &&& ((s.setTin n i ((s.tin n i).holding f err)).tin n i).done ≠ inTakers e := by
    rw [htin]
    simpa [TIn.holding] using htakers.symm
  rw [State.holdFlit_eq, State.settleIn_waits hheld hmarker hentry' hwaits, State.feedNode_other hheld hmarker hentry' hnode]

theorem State.holdFlit_node (htakers : inTakers e = 64) (hlast : f.last = false) (hstuck : (s.node n).stuck = false)
    (hdrain : (s.node n).drain.contains i = false) (hempty : s.opLatch n i = none) (hsel : s.inSel n i = s.rnSel n) :
    ∃ t, s.holdFlit n i f err = t ∧ t.opLatch n i = some ⟨inFlow e, f, inFlits e⟩ ∧
      t.tin n i = { (s.tin n i).holding f err with held := none, done := 0 } ∧ t.objs = s.objs := by
  have htin : (s.setTin n i ((s.tin n i).holding f err)).tin n i = (s.tin n i).holding f err := State.tin_setTin_same ..
  generalize ha : s.setTin n i ((s.tin n i).holding f err) = a at htin
  have hheld : (a.tin n i).held = some f := by rw [htin]; rfl
  have hentry' : (a.inList n i)[(a.tin n i).entry]? = some e := by
    rw [htin, ← ha]
    exact hentry
  have hwaits : inTakers e &&& (a.tin n i).done ≠ inTakers e := by
    rw [htin, htakers]
    simp [TIn.holding]
  have hbit : (inTakers e).testBit 6 = true := by rw [htakers]; decide
  have hfed := State.feedNode_taken hheld hmarker hentry' hbit (by rw [htin]; rfl) (by rw [← ha]; exact hstuck) (by rw [← ha]; exact hdrain)
    (by rw [← ha]; exact hempty) (by rw [← ha]; exact hsel)
  have hhold : s.holdFlit n i f err = (a.setNode n { a.node n with ops := Tbl.set none (a.node n).ops i (some ⟨inFlow e, f, inFlits e⟩) }).takeIn n i 6 := by
    rw [State.holdFlit_eq, ha, State.settleIn_waits hheld hmarker hentry' hwaits, hfed]
  generalize hb : a.setNode n { a.node n with ops := Tbl.set none (a.node n).ops i (some ⟨inFlow e, f, inFlits e⟩) } = b at hhold
  have hbtin : b.tin n i = (s.tin n i).holding f err := by
    rw [← hb]
    exact htin
  have hblatch : b.opLatch n i = some ⟨inFlow e, f, inFlits e⟩ := by
    simp only [State.opLatch, ← hb, State.node_setNode_same, Tbl.get_set_same]
  have hbobjs : b.objs = s.objs := by
    rw [← hb, ← ha]
    rfl
  have hbentry : (b.inList n i)[(b.tin n i).entry]? = some e := by
    rw [hbtin, ← hb, ← ha]
    exact hentry
  have hdtin : (b.setTin n i { b.tin n i with done := (b.tin n i).done ||| 2 ^ 6 }).tin n i = { b.tin n i with done := (b.tin n i).done ||| 2 ^ 6 } :=
    State.tin_setTin_same ..
  have hsettled := State.settleIn_done (s := b.setTin n i { b.tin n i with done := (b.tin n i).done ||| 2 ^ 6 }) (n := n) (i := i) (f := f) (e := e)
    (by rw [hdtin, hbtin]; rfl) hmarker (by rw [hdtin]; exact hbentry) (by rw [hdtin, hbtin, htakers]; simp [TIn.holding]) hlast
  have htaken : b.takeIn n i 6 = (b.setTin n i { b.tin n i with done := (b.tin n i).done ||| 2 ^ 6 }).settleIn n i := rfl
  refine ⟨_, hhold.trans (htaken.trans hsettled), ?_, ?_, hbobjs⟩
  · exact hblatch
  · rw [State.tin_setTin_same, hdtin, hbtin]
end

section
variable {f : TFlit} {rest : List TFlit} {e : BitVec 64} {y : TIn} (hquiet : ∀ j, s.injectedAt 0x01 n i j = false) (hkind : f.kind ≤ 1)
  (hentry : (s.inList n i)[(s.tin n i).entry]? = some e) (hskip : (s.tin n i).skip = 0) (hgroup : (s.cfg.tensorGroup n i).isNone = true)
  (hflow : f.first = true → f.flow = inFlow e)
  (hlen : (s.tin n i).passed + 1 < inFlits e ∧ f.last = false ∨ (s.tin n i).passed + 1 = inFlits e ∧ f.last = true)
  (hgood : f.err = false) (hrun : (s.tin n i).err = false)
include hflow hlen hgood hrun

/-- A flit that its run expects passes without a fault. -/
theorem State.passIn_clean : s.passIn n i e f false = s.holdFlit n i f false := by
  have hstray : (f.first && !(f.last && false) && f.flow != inFlow e) = false := by
    cases hfirst : f.first
    · rfl
    · simp [hflow hfirst]
  have hshort : ¬ (f.last ∧ (s.tin n i).passed + 1 < inFlits e) := by
    rintro ⟨h, h'⟩
    rcases hlen with ⟨-, hlast⟩ | ⟨hend, -⟩
    · exact Bool.false_ne_true (hlast.symm.trans h)
    · omega
  have hlong : ¬ (!f.last ∧ inFlits e ≤ (s.tin n i).passed + 1) := by
    rintro ⟨h, h'⟩
    rcases hlen with ⟨hmore, -⟩ | ⟨-, hlast⟩
    · omega
    · simp [hlast] at h
  simp only [State.passIn, hrun, hgood, hstray, Bool.or_false, Bool.false_eq_true, if_false, if_neg hshort, if_neg hlong]

include hquiet hkind hentry hskip hgroup

theorem State.latchFlit_clean (hy : y = { (s.tin n i).acknowledge with wire := rest }) :
    s.latchFlit n i [] f rest = ((s.setTin n i y).setTin n i { y with skip := 0 }).holdFlit n i f false := by
  have hq : ∀ j, (s.setTin n i y).injectedAt 0x01 n i j = false := hquiet
  have hk3 : (f.kind == 3) = false := by
    rw [beq_eq_false_iff_ne]
    omega
  have hk3' : f.kind ≠ 3 := by omega
  have hmarker : f.isMarker = false := by
    rw [TFlit.isMarker, beq_eq_false_iff_ne]
    omega
  have hseen : s.latchFlit n i [] f rest = (s.setTin n i y).takeFlit n i f := by
    simp only [State.latchFlit, State.flitSeen_clean hquiet, State.badLane_clean hquiet, ← hy, State.noteLanes_clean hq, if_neg hk3', hk3]
    rfl
  have htin : (s.setTin n i y).tin n i = y := State.tin_setTin_same ..
  have hentry' : ((s.setTin n i y).inList n i)[y.entry]? = some e := by
    rw [hy]
    exact hentry
  have hkept : ¬ (y.skip ≠ 0 ∧ !f.first) := by
    rw [hy]
    simp [TIn.acknowledge, hskip]
  have hcheck : (s.setTin n i y).bridgeChecked n i (inFlow e) f = f := if_pos hgroup
  have hpass : ((s.setTin n i y).setTin n i { y with skip := 0 }).tin n i = { y with skip := 0 } := State.tin_setTin_same ..
  rw [hseen]
  simp only [State.takeFlit, hmarker, htin, hentry', if_neg hkept, hcheck, Bool.false_eq_true, if_false]
  exact State.passIn_clean hflow (by rw [hpass, hy]; exact hlen) hgood (by rw [hpass, hy]; exact hrun)

/-- It stays at the input until its takers have it. -/
theorem State.latchFlit_held (hnode : (inTakers e).testBit 6 = false) (htakers : inTakers e ≠ 0) :
    ∃ t, s.latchFlit n i [] f rest = t ∧ (t.tin n i).held = some f ∧ (t.tin n i).wire = rest ∧
      (t.tin n i).passed = (s.tin n i).passed + 1 ∧ (t.tin n i).done = 0 ∧ t.objs = s.objs := by
  have hmarker : f.isMarker = false := by
    rw [TFlit.isMarker, beq_eq_false_iff_ne]
    omega
  have hlatch := State.latchFlit_clean (rest := rest) hquiet hkind hentry hskip hgroup hflow hlen hgood hrun rfl
  generalize hy : ({ (s.tin n i).acknowledge with wire := rest } : TIn) = y at hlatch
  have htin : ((s.setTin n i y).setTin n i { y with skip := 0 }).tin n i = { y with skip := 0 } := State.tin_setTin_same ..
  have hhold := State.holdFlit_waits (s := (s.setTin n i y).setTin n i { y with skip := 0 }) (n := n) (i := i) (err := false) hmarker
    (by rw [htin, ← hy]; exact hentry) hnode htakers
  rw [htin] at hhold
  refine ⟨_, hlatch.trans hhold, ?_⟩
  rw [State.tin_setTin_same, ← hy]
  exact ⟨rfl, rfl, rfl, rfl, rfl⟩

/-- The node takes it at once into an empty operand latch. -/
theorem State.latchFlit_node (htakers : inTakers e = 64) (hlast : f.last = false) (hstuck : (s.node n).stuck = false)
    (hdrain : (s.node n).drain.contains i = false) (hempty : s.opLatch n i = none) (hsel : s.inSel n i = s.rnSel n) :
    ∃ t, s.latchFlit n i [] f rest = t ∧ t.opLatch n i = some ⟨inFlow e, f, inFlits e⟩ ∧
      (t.tin n i).held = none ∧ (t.tin n i).wire = rest ∧ (t.tin n i).passed = (s.tin n i).passed + 1 ∧ t.objs = s.objs := by
  have hmarker : f.isMarker = false := by
    rw [TFlit.isMarker, beq_eq_false_iff_ne]
    omega
  have hlatch := State.latchFlit_clean (rest := rest) hquiet hkind hentry hskip hgroup hflow hlen hgood hrun rfl
  generalize hy : ({ (s.tin n i).acknowledge with wire := rest } : TIn) = y at hlatch
  have htin : ((s.setTin n i y).setTin n i { y with skip := 0 }).tin n i = { y with skip := 0 } := State.tin_setTin_same ..
  obtain ⟨t, hhold, hop, htin', hobjs⟩ := State.holdFlit_node (s := (s.setTin n i y).setTin n i { y with skip := 0 }) (n := n) (i := i)
    (err := false) hmarker (by rw [htin, ← hy]; exact hentry) htakers hlast hstuck hdrain hempty hsel
  refine ⟨t, hlatch.trans hhold, hop, ?_⟩
  rw [htin', htin, ← hy]
  exact ⟨rfl, rfl, rfl, hobjs⟩
end

/-! ## Outputs -/

section
variable {o : Nat} {flips : List Nat} {s0 s1 : State} {e0 : BitVec 32} {d : Decoded} (hmoves : s.tMoves n = true) (hs0 : s0 = s.settleOut n o)
  (ho : o < 6) (hstuck : (s0.tout n o).stuck = false) (hroom : s0.outRoom n o = true)
  (hswap : s0.swapGo n = false ∨ s0.rd (.outSwapped n o) = 1 ∨ (s0.tout n o).periods < s0.swapT n)
  (hentry : (s0.outList n o)[(s0.tout n o).entry]? = some e0) (hflit : s0.entryFlit n o e0 ≠ none)
  (hd : d = s0.storeDecode n 0 32 6 flips) (hs1 : s1 = s0.storeRead n 0 32 6 flips)
include hmoves hs0 ho hstuck hroom hswap hentry hflit hd hs1

theorem exec_outputPassFlit : exec (.outputPassFlit n o flips) s = .next (if d.bad then s1.haltOut n o else
    match ((s1.outWord n o (s0.tout n o).entry d.wrong).outList n o)[(s0.tout n o).entry]? with
    | none => s1.outWord n o (s0.tout n o).entry d.wrong
    | some e => if !isPass e then s1.outWord n o (s0.tout n o).entry d.wrong
      else match (s1.outWord n o (s0.tout n o).entry d.wrong).entryFlit n o e with
        | some (f, skip) => (s1.outWord n o (s0.tout n o).entry d.wrong).passOut n o e f skip
        | none => s1.outWord n o (s0.tout n o).entry d.wrong) := by
  have hopen : ¬ (!s.tMoves n ∨ 6 ≤ o ∨ (s0.tout n o).stuck ∨ !s0.outRoom n o) := by simp [hmoves, ho, hstuck, hroom]
  have hkeeps : ¬ (s0.swapGo n && s0.rd (.outSwapped n o) == 0 && decide (s0.swapT n ≤ (s0.tout n o).periods)) = true := by
    rcases hswap with h | h | h
    · simp [h]
    · simp [h]
    · simp [Nat.not_le.mpr h]
  have hthere : ¬ (s0.entryFlit n o e0).isNone = true := by simpa using hflit
  subst hs1 hd
  simp only [exec, execOutputPassFlit, Tensor.pass, ← hs0]
  rw [if_neg hopen, if_neg hkeeps]
  simp only [hentry]
  rw [if_neg hthere] <;> rfl

theorem exec_outputPassFlit_passed (hgood : d.bad = false) {s2 : State} {e : BitVec 32} {f : TFlit} {skip : Nat}
    (hs2 : s2 = s1.outWord n o (s0.tout n o).entry d.wrong) (hentry2 : (s2.outList n o)[(s0.tout n o).entry]? = some e)
    (hpass : isPass e = true) (hflit2 : s2.entryFlit n o e = some (f, skip)) :
    exec (.outputPassFlit n o flips) s = .next (s2.passOut n o e f skip) := by
  rw [exec_outputPassFlit hmoves hs0 ho hstuck hroom hswap hentry hflit hd hs1, hgood, if_neg (by decide), ← hs2]
  simp only [hentry2, hflit2, hpass]
  rfl
end

/-! ## The reduction node -/

section
variable {r : List Byte} {fs : List TFlit} {residue : Option (BitVec 3)} (hmoves : s.tMoves n = true) (hstuck : (s.node n).stuck = false)
  (hlatch : (s.node n).latch = none) (hwaits : s.nodeWaits n = false) (hjoin : (s.joinList n)[(s.node n).join]? = some r)
  (htally : joinTallied r = false ∨ (s.cap n (joinSlot r)).full = true) (hops : s.operandFlits n r = some fs)
include hmoves hstuck hlatch hwaits hjoin htally hops

theorem exec_reductionJoinFlit : exec (.reductionJoinFlit n residue) s = .next (
    if (s.node n).flit = 0 ∧ !joinTallied r ∧ s.storeInjected n 1 then
      (if (s.storeDecode n 1 64 7 []).bad then (s.joinReads n).haltNode n true
      else ((s.joinReads n).joinAt n r fs residue).touch n)
    else (s.joinAt n r fs residue).touch n) := by
  have hopen : ¬ (!s.tMoves n ∨ (s.node n).stuck ∨ (s.node n).latch.isSome ∨ s.nodeWaits n) := by simp [hmoves, hstuck, hlatch, hwaits]
  have hfull : ¬ (joinTallied r && !(s.cap n (joinSlot r)).full) = true := by rcases htally with h | h <;> simp [h]
  simp only [exec, execReductionJoinFlit, Reduction.step, if_neg hopen, hjoin, if_neg hfull, hops]
end

/-- The tap does not touch the nodes. -/
theorem State.node_tapSee (s : State) (n o flow : Nat) (f : TFlit) (m : Nat) : (s.tapSee n o flow f).node m = s.node m := by
  unfold State.tapSee
  split
  · split <;> rfl
  · extract_lets r1 t seen s1
    split
    · split <;> rfl
    · rfl

theorem State.node_countEv (s : State) (ev j : Nat) (w : Option (BitVec 4)) (c m : Nat) : (s.countEv ev j w c).node m = s.node m := by
  unfold State.countEv
  split <;> rfl

/-- ERROR and LAST of a frame. -/
theorem frameOf_marks {kind flags : Nat} (hkind : kind < 4) (hflags : flags < 8) (err last first : Bool) :
    (frameOf kind flags err last first).getLsbD 2 = err ∧ (frameOf kind flags err last first).getLsbD 1 = last := by
  have hall : ∀ kind < 4, ∀ flags < 8, ∀ err last first : Bool,
      (frameOf kind flags err last first).getLsbD 2 = err ∧ (frameOf kind flags err last first).getLsbD 1 = last := by decide
  exact hall kind hkind flags hflags err last first

theorem State.latchJoin_latch (s : State) (n : Nat) (r : List Byte) (j : JFlit) (fs : List TFlit) (err last : Bool) :
    ∃ f, ((s.latchJoin n r j fs err last).node n).latch = some f ∧ f.payload = j.payload ∧ f.err = err ∧ f.last = last ∧
      ((s.latchJoin n r j fs err last).node n).latchFlow = joinOut r := by
  unfold State.latchJoin
  extract_lets x k crc flags f y
  have hnode : (((s.setNode n y).tapSee n 6 (joinOut r) f).countEv (0x10 + joinOutFmt r) n (s.wardOf n) 1).node n = y := by
    rw [State.node_countEv, State.node_tapSee, State.node_setNode_same]
  have hflags : flags < 8 := by
    simp only [flags]
    split <;> split <;> split <;> omega
  have hkind : (if joinOp r = 3 then 1 else 0) < 4 := by split <;> omega
  obtain ⟨herr, hlast⟩ := frameOf_marks hkind hflags err last (k == 0)
  rw [hnode]
  exact ⟨f, rfl, rfl, herr, hlast, rfl⟩

/-! ## Capture of tallies -/

theorem exec_tallyCaptureFlit {src flow : Nat} {f : TFlit} {s1 : State} (hmoves : s.tMoves n = true) (hstuck : (s.node n).stuck = false)
    (hflit : s.tallyFlit n = some (src, flow, f)) (hs1 : s1 = (s.tallyJoins n src flow).foldl (fun a r => a.captureInto n flow r f) s) :
    exec (.tallyCaptureFlit n) s = .next (((if src = 6 then s1.takeNode n 7 else s1.emptyOp n src).swapTry n).touch n) := by
  have hopen : ¬ (!s.tMoves n ∨ (s.node n).stuck) := by simp [hmoves, hstuck]
  simp only [exec, execTallyCaptureFlit, Reduction.capture, if_neg hopen, hflit, ← hs1]

/-- Writes at different places of a table each stand. -/
theorem Tbl.get_foldl_set {α : Type} [DecidableEq α] (d : α) (base : Nat) (p : Nat → Bool) (v : Nat → α) (t : Tbl α) (k : Nat) {m : Nat}
    (hm : m < k) (hp : p m = true) :
    Tbl.get d ((List.range k).foldl (fun st j => if p j then Tbl.set d st (base + j) (v j) else st) t) (base + m) = v m := by
  induction k with
  | zero => omega
  | succ k ih =>
    rw [List.range_succ, List.foldl_append, List.foldl_cons, List.foldl_nil]
    by_cases hlast : m = k
    · subst hlast
      rw [if_pos hp, Tbl.get_set_same]
    · split
      · rw [Tbl.get_set_ne _ _ _ _ (by omega), ih (by omega)]
      · exact ih (by omega)

theorem State.captureInto_shows (s : State) (n flow : Nat) (r : List Byte) (f : TFlit) {m : Nat} (hm : m < 64)
    (hin : 64 * (s.cap n (joinSlot r)).flits + m < joinBlocks r) :
    Tbl.get 0 ((s.captureInto n flow r f).node n).store (joinBase r + 64 * (s.cap n (joinSlot r)).flits + m) = f.payload.extractLsb' (64 * m) 64 ∧
    (f.last = false → ((s.captureInto n flow r f).cap n (joinSlot r)).flits = (s.cap n (joinSlot r)).flits + 1) ∧
    (f.last = true → ((s.captureInto n flow r f).cap n (joinSlot r)).full = true) := by
  unfold State.captureInto
  extract_lets x c crc store bad c'
  refine ⟨?_, fun hlast => ?_, fun hlast => ?_⟩
  · rw [State.node_setNode_same]
    have h := Tbl.get_foldl_set 0 (joinBase r + 64 * c.flits) (fun m => decide (64 * c.flits + m < joinBlocks r))
      (fun m => f.payload.extractLsb' (64 * m) 64) x.store 64 hm (decide_eq_true hin)
    simpa only [decide_eq_true_eq] using h
  · rw [State.cap, State.node_setNode_same, Tbl.get_set_same]
    exact congrArg TCap.flits (if_neg (by simp [hlast]))
  · rw [State.cap, State.node_setNode_same, Tbl.get_set_same]
    exact congrArg TCap.full (if_pos hlast)
end

/-- Settles O41. That the node takes its operand at once into an empty operand latch is the model's choice (log entry 156). -/
theorem tensorFlitsArePassedOn : Obligations.TensorFlitsArePassedOn := by
  unfold Obligations.TensorFlitsArePassedOn
  intro s n hmoves
  refine ⟨fun i flips f rest s1 after hi hwire hfree hs1 hafter => ⟨exec_tensorFlitArrive_unread hmoves hi hwire hfree hafter,
      fun hread => ⟨exec_tensorFlitArrive_latched hmoves hi hwire hfree hafter hs1 hread,
        exec_tensorFlitArrive_misplaced hmoves hi hwire hfree hafter hs1 hread⟩⟩,
    fun i f rest e _ _ hquiet hkind hentry hskip hgroup hflow hlen hgood hrun =>
      ⟨State.latchFlit_held hquiet hkind hentry hskip hgroup hflow hlen hgood hrun,
        State.latchFlit_node hquiet hkind hentry hskip hgroup hflow hlen hgood hrun⟩,
    fun o flips s0 s1 e0 d hs0 ho hstuck hroom hswap hentry hflit hd hs1 => ⟨fun hbad => ?halt, fun hgood s2 e f skip =>
      exec_outputPassFlit_passed hmoves hs0 ho hstuck hroom hswap hentry hflit hd hs1 hgood⟩,
    fun r fs residue hstuck hlatch hwaits hjoin htally hops => ?join,
    fun r j fs err last => State.latchJoin_latch s n r j fs err last,
    fun src flow f hstuck hflit s1 hs1 => exec_tallyCaptureFlit hmoves hstuck hflit hs1,
    fun flow r f m hm hin => State.captureInto_shows s n flow r f hm hin⟩
  case halt => rw [exec_outputPassFlit hmoves hs0 ho hstuck hroom hswap hentry hflit hd hs1, if_pos hbad]
  case join =>
    have hexec := exec_reductionJoinFlit (residue := residue) hmoves hstuck hlatch hwaits hjoin htally hops
    refine ⟨fun h => ?_, fun hinj hfirst hplain => ⟨fun hgood => ?_, fun hbad => ?_⟩⟩
    · rw [hexec, if_neg]
      rintro ⟨h1, h2, h3⟩
      rcases h with h | h | h <;> simp_all
    · rw [hexec, if_pos (by simp [hinj, hfirst, hplain]), hgood, if_neg (by decide)]
    · rw [hexec, if_pos (by simp [hinj, hfirst, hplain]), if_pos hbad]

end Sys2Proof.Machine
end

section
/-! PROOFS. The commands and the work of the DMA engines (R282 to R298). -/

namespace Sys2Proof.Machine

section
variable {s : State} {acc : Access} {e c k : Nat} {r : ObjRow}

/-! ## Commands -/

/-- The instruction that carries a command. -/
def dmaCommand (acc : Access) (e c cmd : Nat) : Instr :=
  match cmd with
  | 1 => .dmaStart acc e c
  | 2 => .dmaStop acc e c
  | 3 => .dmaAbort acc e c
  | _ => .dmaClear acc e c

section
variable {cmd : Nat} (hk : k = 16 * e + c) (hcmd : 1 ≤ cmd ∧ cmd ≤ 4) (hmay : s.MayWrite acc (Obj.chCtrl k) r)
include hk hcmd

theorem exec_dmaCommand : exec (dmaCommand acc e c cmd) s =
    .next (s.serveKey acc (Obj.chCtrl k) (BitVec.ofNat 64 cmd) (fun _ => Dma.control k cmd)) := by
  subst hk
  obtain rfl | rfl | rfl | rfl : cmd = 1 ∨ cmd = 2 ∨ cmd = 3 ∨ cmd = 4 := by omega
  all_goals rfl

include hmay

theorem exec_dmaCommand_taken {t : State} (heff : Dma.control k cmd s = .ok t) :
    exec (dmaCommand acc e c cmd) s = .next (t.written acc (Obj.chCtrl k) r.ty) := by
  rw [exec_dmaCommand hk hcmd, State.serveKey_next hmay heff]

theorem exec_dmaCommand_refused {a : Abort} (heff : Dma.control k cmd s = .error a) : exec (dmaCommand acc e c cmd) s =
    .next (s.abortRequest acc 2 (Obj.chCtrl k / 256) (Obj.chCtrl k % 256) 0 a) := by
  rw [exec_dmaCommand hk hcmd, State.serveKey_refused hmay heff]
end

/-! ### The table of R297 -/

theorem Dma.control_start (hown : s.rd (.chOwned k) = 1) (hst : s.rd (.chState k) = 0) (hwarn : s.warn = false) :
    Dma.control k 1 s = .ok ((s.chanCmd k 1).chanStart k) := by
  simp [Dma.control, hown, hst, hwarn]

theorem Dma.control_start_held (hown : s.rd (.chOwned k) = 1)
    (h : s.rd (.chState k) = 1 ∨ s.rd (.chState k) = 2 ∨ (s.rd (.chState k) = 0 ∧ s.warn = true)) :
    Dma.control k 1 s = .ok ((s.chanCmd k 1).wr (.chPending k) 1) := by
  rcases h with h | h | ⟨h, hwarn⟩
  · simp [Dma.control, hown, h]
  · simp [Dma.control, hown, h]
  · simp [Dma.control, hown, h, hwarn]

theorem Dma.control_start_refused (h : s.rd (.chOwned k) = 0 ∨ 3 ≤ s.rd (.chState k)) : Dma.control k 1 s = .error .badState := if_pos h

theorem Dma.control_stop_idle (h : s.rd (.chState k) = 0 ∨ s.rd (.chState k) = 3) : Dma.control k 2 s = .ok (s.chanCmd k 2) := if_pos h

theorem Dma.control_stop_running (h : s.rd (.chState k) = 1) : Dma.control k 2 s = .ok ((s.chanCmd k 2).wr (.chState k) 3) := by
  simp [Dma.control, h]

theorem Dma.control_stop_waiting (h : s.rd (.chState k) = 2) : Dma.control k 2 s = .ok ((s.chanCmd k 2).chanIdle k) := by
  simp [Dma.control, h]

theorem Dma.control_stop_refused (h : 4 ≤ s.rd (.chState k)) : Dma.control k 2 s = .error .badState := by
  simp only [Dma.control]
  rw [if_neg (by omega), if_neg (by omega), if_neg (by omega)]

theorem Dma.control_abort_idle (h : s.rd (.chState k) = 0 ∨ s.rd (.chState k) = 5) : Dma.control k 3 s = .ok (s.chanCmd k 3) := if_pos h

theorem Dma.control_abort_waiting (h : s.rd (.chState k) = 2) : Dma.control k 3 s = .ok ((s.chanCmd k 3).chanIdle k) := by
  simp [Dma.control, h]

theorem Dma.control_abort_refused (h : s.rd (.chState k) = 4) : Dma.control k 3 s = .error .badState := by
  simp [Dma.control, h]

theorem Dma.control_abort_running {x : DmaChan} (hx : x = (s.chanCmd k 3).chan k) (h : s.rd (.chState k) = 1 ∨ s.rd (.chState k) = 3) :
    Dma.control k 3 s = .ok (((((s.chanCmd k 3).chanWithdraw k).setChan k { x with
      phase := .abort, reads := [], writes := [], asm := [], fetching := none }).wr (.chState k) 5).chanSettle k) := by
  subst hx
  simp only [Dma.control]
  rw [if_neg (by omega), if_neg (by omega), if_neg (by omega)]

theorem Dma.control_clear (h : s.rd (.chState k) = 4) : Dma.control k 4 s = .ok ((s.chanCmd k 4).wr (.chState k) 0) := if_pos h

theorem Dma.control_clear_refused (h : s.rd (.chState k) ≠ 4) : Dma.control k 4 s = .error .badState := if_neg h
end

/-- Settles O42. The BAD_STATE of a START whose channel no ward owns is the model's choice (log entry 106). -/
theorem dmaCommandsFollowTheTable : Obligations.DmaCommandsFollowTheTable := by
  unfold Obligations.DmaCommandsFollowTheTable
  intro s acc e c k r x refused hk hmay hx hrefused
  subst hrefused
  have taken {cmd : Nat} {t : State} (hcmd : 1 ≤ cmd ∧ cmd ≤ 4) (heff : Dma.control k cmd s = .ok t) :=
    exec_dmaCommand_taken hk hcmd hmay heff
  have bad {cmd : Nat} (hcmd : 1 ≤ cmd ∧ cmd ≤ 4) (heff : Dma.control k cmd s = .error .badState) :=
    exec_dmaCommand_refused hk hcmd hmay heff
  exact ⟨fun hown hst hwarn => taken (cmd := 1) (by decide) (Dma.control_start hown hst hwarn),
    fun hown hst => taken (cmd := 1) (by decide) (Dma.control_start_held hown hst),
    fun h => bad (cmd := 1) (by decide) (Dma.control_start_refused h),
    fun h => taken (cmd := 2) (by decide) (Dma.control_stop_idle h),
    fun h => taken (cmd := 2) (by decide) (Dma.control_stop_running h),
    fun h => ⟨taken (cmd := 2) (by decide) (Dma.control_stop_waiting h), taken (cmd := 3) (by decide) (Dma.control_abort_waiting h)⟩,
    fun h => bad (cmd := 2) (by decide) (Dma.control_stop_refused h),
    fun h => taken (cmd := 3) (by decide) (Dma.control_abort_idle h),
    fun h => taken (cmd := 3) (by decide) (Dma.control_abort_running hx h),
    fun h => ⟨bad (cmd := 3) (by decide) (Dma.control_abort_refused h), taken (cmd := 4) (by decide) (Dma.control_clear h)⟩,
    fun h => bad (cmd := 4) (by decide) (Dma.control_clear_refused h)⟩

/-! ## The ring -/

section
variable {s s0 s1 : State} {e c k : Nat}

@[simp] theorem State.chan_setChan_same (s : State) (k : Nat) (x : DmaChan) : (s.setChan k x).chan k = x := Tbl.get_set_same ..

section
variable (hk : k = 16 * e + c) (hc : c < 16) (hmoves : s.engineMoves e = true) (hs0 : s0 = s.engineSettle e) {d : TDone} {j what info : Nat}
include hk hc hmoves hs0

theorem exec_dmaDescriptorFetch (hphase : (s0.chan k).phase = .fetch)
    (htake : s0.takeDone (0x98 + e) (fun j what info => j == k && (what == askFetch || what == askExt) && !s0.staleFetch k what info) =
      some (d, j, what, info, s1)) :
    exec (.dmaDescriptorFetch e c) s = .next (((s1.chanFetched k what info d).chanSettle k).touch (s.engineAt k)) := by
  have hopen : ¬ (!s.engineMoves e ∨ 16 ≤ c) := by simp [hmoves, hc]
  simp only [exec, execDmaDescriptorFetch, Dma.fetchDone, ← hk, ← hs0, if_neg hopen, if_neg (Classical.not_not.mpr hphase), htake]

variable (htake : s0.takeDone (0x98 + e) (fun j what _ => j == k && what == askBack) = some (d, j, what, info, s1)) {x : DmaChan}
  (hx : x = s1.chan k)
include htake hx

theorem exec_dmaWritebackComplete_stray (hback : x.phase ≠ .writeBack) (hhalt : x.phase ≠ .haltBack) :
    exec (.dmaWritebackComplete e c) s = .next s1 := by
  have hopen : ¬ (!s.engineMoves e ∨ 16 ≤ c) := by simp [hmoves, hc]
  simp only [exec, execDmaWritebackComplete, Dma.backDone, ← hk, ← hs0, if_neg hopen, htake, ← hx]
  exact congrArg _ (if_pos ⟨hback, hhalt⟩)

theorem exec_dmaWritebackComplete_done (hst : d.status = 0) (hphase : x.phase = .writeBack) :
    exec (.dmaWritebackComplete e c) s = .next ((s1.chanAdvance k).touch (s.engineAt k)) := by
  have hopen : ¬ (!s.engineMoves e ∨ 16 ≤ c) := by simp [hmoves, hc]
  have hours : ¬ (x.phase ≠ .writeBack ∧ x.phase ≠ .haltBack) := by simp [hphase]
  simp only [exec, execDmaWritebackComplete, Dma.backDone, ← hk, ← hs0, if_neg hopen, htake, ← hx, if_neg hours, if_pos hst, if_pos hphase]

theorem exec_dmaWritebackComplete_halting {f : DmaFail} {s2 : State} (hst : d.status = 0) (hphase : x.phase = .haltBack) (hfail : x.fail = some f)
    (hs2 : s2 = (s1.clearOwn k x.slot 0).countEv 0x41 (s.engineAt k) (some (s.chanWard k)) 1) :
    exec (.dmaWritebackComplete e c) s = .next (if f.back then s2.chanHalted k f
      else ((s2.setChan k { s2.chan k with phase := .halting }).chanSettle k).touch (s.engineAt k)) := by
  have hopen : ¬ (!s.engineMoves e ∨ 16 ≤ c) := by simp [hmoves, hc]
  have hours : ¬ (x.phase ≠ .writeBack ∧ x.phase ≠ .haltBack) := by simp [hphase]
  have hback : x.phase ≠ .writeBack := by simp [hphase]
  simp only [exec, execDmaWritebackComplete, Dma.backDone, ← hk, ← hs0, if_neg hopen, htake, ← hx, if_neg hours, if_pos hst, if_neg hback, hfail, ← hs2]

variable (hours : x.phase = .writeBack ∨ x.phase = .haltBack) (hst : d.status ≠ 0)
include hours hst

theorem exec_dmaWritebackComplete_again {st : Nat} {tries : Nat} (hretry : s1.mayRetry k d.status x.backTries = true)
    (hback : ∀ f, x.fail = some f → f.back = true → tries = f.tries ∧ st = backStatus f.status (f.kind == 3) f.tries)
    (hplain : (∀ f, x.fail = some f → f.back = false) → tries = x.tries ∧ st = backStatus 0 false x.tries) :
    exec (.dmaWritebackComplete e c) s =
      .next (((s1.setChan k { x with backTries := x.backTries + 1 }).bump (.chRetries k) 1).writeBack k st tries) := by
  have hopen : ¬ (!s.engineMoves e ∨ 16 ≤ c) := by simp [hmoves, hc]
  have hours' : ¬ (x.phase ≠ .writeBack ∧ x.phase ≠ .haltBack) := by rcases hours with h | h <;> simp [h]
  simp only [exec, execDmaWritebackComplete, Dma.backDone, ← hk, ← hs0, if_neg hopen, htake, ← hx, if_neg hours', if_neg hst, if_pos hretry]
  cases hfail : x.fail with
  | none =>
    obtain ⟨rfl, rfl⟩ := hplain (fun f hf => by simp [hfail] at hf)
    rfl
  | some f =>
    cases hfb : f.back with
    | true =>
      obtain ⟨rfl, rfl⟩ := hback f hfail hfb
      simp only [hfb, if_true]
    | false =>
      obtain ⟨rfl, rfl⟩ := hplain (fun g hg => by rw [hfail] at hg; cases hg; exact hfb)
      simp only [hfb, Bool.false_eq_true, if_false]

theorem exec_dmaWritebackComplete_failed (hretry : s1.mayRetry k d.status x.backTries = false) :
    (∀ f, x.fail = some f → exec (.dmaWritebackComplete e c) s = .next (s1.chanHalted k f)) ∧
    (x.fail = none → exec (.dmaWritebackComplete e c) s =
      .next ((s1.chanFail k ⟨4, x.slot, d.status, x.backTries, false⟩).chanSettle k)) := by
  have hopen : ¬ (!s.engineMoves e ∨ 16 ≤ c) := by simp [hmoves, hc]
  have hours' : ¬ (x.phase ≠ .writeBack ∧ x.phase ≠ .haltBack) := by rcases hours with h | h <;> simp [h]
  refine ⟨fun f hfail => ?_, fun hfail => ?_⟩
  · simp only [exec, execDmaWritebackComplete, Dma.backDone, ← hk, ← hs0, if_neg hopen, htake, ← hx, if_neg hours', if_neg hst, hretry,
      if_neg Bool.false_ne_true, hfail]
  · simp only [exec, execDmaWritebackComplete, Dma.backDone, ← hk, ← hs0, if_neg hopen, htake, ← hx, if_neg hours', if_neg hst, hretry,
      if_neg Bool.false_ne_true, hfail]
end

/-! ## A slot is examined -/

theorem State.chanExamine_stopping {slot : Nat} {b : BitVec 1024} (hst : s.rd (.chState k) = 3) : s.chanExamine k slot b = s.chanIdle k := if_pos hst

theorem State.chanExamine_unowned {slot : Nat} {b : BitVec 1024} (hst : s.rd (.chState k) ≠ 3) (hown : descOwn (slotOfBeat b slot) = false) :
    s.chanExamine k slot b = if s.rd (.chPending k) = 1 then (s.wr (.chPending k) 0).chanFetch k slot else s.chanIdle k := by
  simp only [State.chanExamine, if_neg hst, hown]
  rfl

theorem State.chanIdle_state (s : State) (k : Nat) : (s.chanIdle k).rd (.chState k) = 0 :=
  State.rd_wr_same _ (.chState k) 0 (by simp [Fld.chState])

theorem State.chanCheck_bad {d ext : List Byte} (hbad : s.descBad k d ext = true) :
    ∃ a, s.chanCheck k d ext = State.chanFail a k ⟨3, (s.chan k).slot, Status.targetError, 0, true⟩ ∧ a.objs = s.objs ∧
      (s.chanCheck k d ext).chan k = { a.chan k with
        phase := .halting, fail := some ⟨3, (s.chan k).slot, Status.targetError, 0, true⟩, reads := [], writes := [], asm := []
        fetching := none } := by
  have hcheck : s.chanCheck k d ext = State.chanFail (s.setChan k { s.chan k with
      desc := d, ext := ext, order := (s.chan k).order + 1, tries := 0, readRow := 0, readOff := 0, moveRow := 0, moveOff := 0, asm := [] }) k
      ⟨3, (s.chan k).slot, Status.targetError, 0, true⟩ := if_pos hbad
  refine ⟨_, hcheck, rfl, ?_⟩
  rw [hcheck]
  exact State.chan_setChan_same ..

/-! ## The mover -/

section
variable {c' k' : Nat} (hmoves : s.engineMoves e = true) (hs0 : s0 = s.engineSettle e)
include hmoves hs0

theorem exec_dmaMoverStep_idle (hpick : s0.moverPick e = none) : exec (.dmaMoverStep e) s = .next s0 := by
  simp only [exec, execDmaMoverStep, Dma.moverStep, ← hs0, hmoves, hpick]
  rfl

variable (hpick : s0.moverPick e = some c') (hk' : k' = 16 * e + c')
include hpick hk'

theorem exec_dmaMoverStep_read {r : _} (hcan : s0.canRead k' = true) (hnext : (s0.chan k').nextRead = some r) :
    exec (.dmaMoverStep e) s = .next (((s0.chanRead k' r).chanSettle k').touch (s.engineAt k')) := by
  simp only [exec, execDmaMoverStep, Dma.moverStep, ← hs0, hmoves, hpick, ← hk', hcan, hnext]
  rfl

theorem exec_dmaMoverStep_move {bs : _} (hcan : s0.canRead k' = false) (hnext : (s0.chan k').nextBeat = some bs) :
    exec (.dmaMoverStep e) s = .next ((((s0.chanMove k' bs).moverTurn e c').chanSettle k').touch (s.engineAt k')) := by
  simp only [exec, execDmaMoverStep, Dma.moverStep, ← hs0, hmoves, hpick, ← hk', hcan, hnext]
  rfl
end

/-! ## NAKs -/

/-- The engine without a NAK that it has taken. -/
def State.nakTaken (s : State) (e : Nat) (m : CtlMsg) : State :=
  { s with ctl := { s.ctl with arrived := Tbl.upd [] s.ctl.arrived (0x98 + e) (fun l => l.erase m) } }

theorem State.nakTaken_objs (s : State) (e : Nat) (m : CtlMsg) : (s.nakTaken e m).objs = s.objs := rfl

theorem State.nakTaken_arrived (s : State) (e : Nat) (m : CtlMsg) : Tbl.get [] (s.nakTaken e m).ctl.arrived (0x98 + e) =
    (Tbl.get [] s.ctl.arrived (0x98 + e)).erase m :=
  Tbl.get_upd_same [] s.ctl.arrived (0x98 + e) (fun l => l.erase m)

theorem exec_dmaNakArrive {n : Nat} {m : CtlMsg} (hk : k = 16 * e + c) (hmoves : s.engineMoves e = true) (hunit : s.cfg.dmaAt e = some n)
    (hnak : (Tbl.get [] s.ctl.arrived (0x98 + e)).find? (fun m => m.nak) = some m) (htag : m.tag.toNat % 16 = c) :
    exec (.dmaNakArrive e) s = .next (((s.nakTaken e m).chanNaked k).touch n) := by
  have hopen : ¬ (!s.moves n) = true := by
    simp only [State.engineMoves, hunit] at hmoves
    simp [hmoves]
  simp only [exec, execDmaNakArrive, Dma.nakArrive, hunit, hnak, if_neg hopen, htag, hk, State.nakTaken]

theorem State.chanNaked_ctl (s : State) (k : Nat) : (s.chanNaked k).ctl = s.ctl := rfl

theorem State.rd_chanNaked_count (s : State) (k : Nat) : (s.chanNaked k).rd (.chNotifyNak k) = min (s.rd (.chNotifyNak k) + 1) 65535 :=
  (State.rd_wr_obj_ne _ (.chNaked k) (.chNotifyNak k) _ (by simp [Fld.chNaked, Fld.chNotifyNak, Obj.chStat, Obj.chStatus])).trans
    (State.rd_bump_same s (.chNotifyNak k) 1 (by simp [Fld.chNotifyNak]))

theorem State.rd_chanNaked_flag (s : State) (k : Nat) : (s.chanNaked k).rd (.chNaked k) = 1 :=
  State.rd_wr_same _ (.chNaked k) 1 (by simp [Fld.chNaked])

theorem State.obj_chanNaked (s : State) {k j : Nat} (hstat : j ≠ Obj.chStat k) (hstatus : j ≠ Obj.chStatus k) :
    (s.chanNaked k).obj j = s.obj j :=
  (State.obj_wr_ne _ (.chNaked k) _ _ hstatus).trans (State.obj_wr_ne _ (.chNotifyNak k) _ _ hstat)

/-! ## Byte order -/

theorem swapFrom_swapFrom {sw : Nat} (b : Nat) (hsw : sw < 4) : swapFrom sw (swapFrom sw b) = b := by
  obtain rfl | rfl | rfl | rfl : sw = 0 ∨ sw = 1 ∨ sw = 2 ∨ sw = 3 := by omega
  all_goals simp only [swapFrom]
  all_goals omega
end

/-- Settles O43. That a stop with only a fetch out ends at the examination, and how a write that fails during the write-back counts,
are the model's choices (log entries 106 and 139). -/
theorem dmaEnginesWorkThroughTheirRings : Obligations.DmaEnginesWorkThroughTheirRings := by
  unfold Obligations.DmaEnginesWorkThroughTheirRings
  intro s s0 e c k hk hc hmoves hs0
  refine ⟨fun d j what info s1 => exec_dmaDescriptorFetch hk hc hmoves hs0, fun slot b => State.chanExamine_stopping,
    fun slot b hst hown => ⟨fun hpend => ⟨?_, s.chanIdle_state k⟩, fun hpend => ?_⟩, fun d ext => State.chanCheck_bad,
    fun c' k' hpick hk' => ⟨fun hcan r => exec_dmaMoverStep_read hmoves hs0 hpick hk' hcan,
      fun hcan bs => exec_dmaMoverStep_move hmoves hs0 hpick hk' hcan⟩, exec_dmaMoverStep_idle hmoves hs0,
    fun d j what info s1 x htake hx => ⟨exec_dmaWritebackComplete_done hk hc hmoves hs0 htake hx,
      fun f s2 hst hphase hfail hs2 => ⟨fun hback => ?_, fun hback => ?_⟩,
      fun hours hst => ⟨fun st tries => exec_dmaWritebackComplete_again hk hc hmoves hs0 htake hx hours hst,
        exec_dmaWritebackComplete_failed hk hc hmoves hs0 htake hx hours hst⟩,
      exec_dmaWritebackComplete_stray hk hc hmoves hs0 htake hx⟩,
    fun n m hunit hnak htag => ?_, fun sw b hsw => swapFrom_swapFrom b hsw⟩
  · rw [State.chanExamine_unowned hst hown, hpend]
    rfl
  · rw [State.chanExamine_unowned hst hown, if_pos hpend]
  · rw [exec_dmaWritebackComplete_halting hk hc hmoves hs0 htake hx hst hphase hfail hs2, if_pos hback]
  · rw [exec_dmaWritebackComplete_halting hk hc hmoves hs0 htake hx hst hphase hfail hs2, hback, if_neg (by decide)]
  · have hobjs := State.touch_objs ((s.nakTaken e m).chanNaked k) n
    have hctl : (((s.nakTaken e m).chanNaked k).touch n).ctl = (s.nakTaken e m).ctl := (State.touch_ctl ..).trans (State.chanNaked_ctl ..)
    refine ⟨_, exec_dmaNakArrive hk hmoves hunit hnak htag, ?_, ?_, fun j hstat hstatus => ?_, ?_⟩
    · rw [State.rd_congr hobjs, State.rd_chanNaked_count, State.rd_congr (s.nakTaken_objs e m)]
    · rw [State.rd_congr hobjs, State.rd_chanNaked_flag]
    · rw [State.obj_congr hobjs, State.obj_chanNaked _ hstat hstatus, State.obj_congr (s.nakTaken_objs e m)]
    · rw [hctl, State.nakTaken_arrived]

end Sys2Proof.Machine
end

section
/-! PROOFS. Training, traffic and falls of Scarf bridges (R306, R314 to R316, R319, R330). -/

namespace Sys2Proof.Machine

/-! ## Modules -/

/-- A sum of distinct powers of two has the bits that it was made of. -/
theorem testBit_foldl_two_pow (p : Nat → Bool) (k : Nat) :
    (((List.range k).filter p).foldl (fun a m => a + 2 ^ m) 0) < 2 ^ k ∧
    ∀ j < k, (((List.range k).filter p).foldl (fun a m => a + 2 ^ m) 0).testBit j = p j := by
  induction k with
  | zero => exact ⟨by simp, fun j hj => absurd hj (Nat.not_lt_zero j)⟩
  | succ k ih =>
    obtain ⟨hlt, hbits⟩ := ih
    rw [List.range_succ, List.filter_append, List.foldl_append]
    generalize ((List.range k).filter p).foldl (fun a m => a + 2 ^ m) 0 = v at hlt hbits
    have hpow : 2 ^ (k + 1) = 2 ^ k + 2 ^ k := by rw [Nat.pow_succ]; omega
    cases hp : p k with
    | false =>
      refine ⟨by simp [hp]; omega, fun j hj => ?_⟩
      by_cases hlast : j = k
      · subst hlast
        simpa [hp] using Nat.testBit_lt_two_pow hlt
      · simpa [hp] using hbits j (by omega)
    | true =>
      refine ⟨by simp [hp]; omega, fun j hj => ?_⟩
      by_cases hlast : j = k
      · subst hlast
        simpa [hp, Nat.add_comm v, Nat.testBit_two_pow_add_eq] using Nat.testBit_lt_two_pow hlt
      · simpa [hp, Nat.add_comm v, Nat.testBit_two_pow_add_gt (show j < k by omega)] using hbits j (by omega)

theorem modulesOut_testBit (bad : Nat) (repair : BitVec 64) {m : Nat} (hm : m < 8) : (modulesOut bad repair).testBit m = true ↔
    bad.testBit m = true ∨ 4 < fget repair (8 * m) 3 ∨ 4 < fget repair (8 * m + 4) 3 := by
  rw [modulesOut, (testBit_foldl_two_pow _ 8).2 m hm]
  simp only [Bool.or_eq_true, decide_eq_true_eq, fget_mod _ _ 3 (by decide)]
  exact or_assoc.trans (or_congr_right or_comm)

/-- The role of a module, by its place and what stands in for CTL and DAT. -/
theorem moduleRoles_getD (bad : Nat) {m : Nat} (hm : m < 8) : (moduleRoles bad).getD m 0 =
    let pool := [5, 4].filter (moduleGood bad)
    let ctl := if moduleGood bad 6 then none else pool.head?
    let rest := if ctl.isSome then pool.drop 1 else pool
    let dat := if moduleGood bad 7 then none else rest.head?
    if !moduleGood bad m then 0xF else if ctl = some m then 3 else if dat = some m then 4 else [0, 0, 1, 1, 2, 2, 3, 4].getD m 0xF := by
  rw [moduleRoles, List.getD_eq_getElem?_getD, List.getElem?_map, List.getElem?_range hm]
  rfl

theorem moduleRoles_stand_in (bad : Nat) {m : Nat} (hm : m < 8) : (bad.testBit m = true → (moduleRoles bad).getD m 0 = 0xF) ∧
    (bad.testBit 6 = false → (moduleRoles bad).getD 6 0 = 3) ∧ (bad.testBit 7 = false → (moduleRoles bad).getD 7 0 = 4) ∧
    (bad.testBit 6 = true → bad.testBit 5 = false → (moduleRoles bad).getD 5 0 = 3) ∧
    (bad.testBit 6 = true → bad.testBit 5 = true → bad.testBit 4 = false → (moduleRoles bad).getD 4 0 = 3) ∧
    (bad.testBit 6 = false → bad.testBit 7 = true → bad.testBit 5 = false → (moduleRoles bad).getD 5 0 = 4) ∧
    (bad.testBit 6 = true → bad.testBit 7 = true → bad.testBit 5 = false → bad.testBit 4 = false → (moduleRoles bad).getD 4 0 = 4) := by
  rw [moduleRoles_getD bad hm, moduleRoles_getD bad (m := 6) (by decide), moduleRoles_getD bad (m := 7) (by decide),
    moduleRoles_getD bad (m := 5) (by decide), moduleRoles_getD bad (m := 4) (by decide)]
  refine ⟨fun h => ?_, fun h6 => ?_, fun h7 => ?_, fun h6 h5 => ?_, fun h6 h5 h4 => ?_, fun h6 h7 h5 => ?_, fun h6 h7 h5 h4 => ?_⟩
  · simp [moduleGood, h]
  · rcases Bool.eq_false_or_eq_true (bad.testBit 5) with h5 | h5 <;> rcases Bool.eq_false_or_eq_true (bad.testBit 4) with h4 | h4 <;>
      simp [moduleGood, h6, h5, h4]
  · rcases Bool.eq_false_or_eq_true (bad.testBit 5) with h5 | h5 <;> rcases Bool.eq_false_or_eq_true (bad.testBit 4) with h4 | h4 <;>
      simp [moduleGood, h7, h5, h4]
  · simp [moduleGood, h6, h5]
  · simp [moduleGood, h6, h5, h4]
  · simp [moduleGood, h6, h7, h5]
  · simp [moduleGood, h6, h7, h5, h4]

/-! ## Training -/

/-- SPARE records change no object but those in which they are noted. -/
theorem State.obj_repairRecords {k : Nat} (hk : Obj.isNote k = false) (s : State) (b n : Nat) (before : Val) :
    (s.repairRecords b n before).obj k = s.obj k := by
  refine List.foldlRecOn (motive := fun t : State => t.obj k = s.obj k) (List.range 8) _ rfl (fun t ht m _ => ?_)
  refine Eq.trans ?_ ht
  dsimp only
  split
  · rfl
  · split
    · split
      · rfl
      · exact State.obj_record hk _ _ _
    · split
      · rfl
      · exact State.obj_record hk _ _ _

theorem State.obj_withBrg (s : State) (x : BridgeState) (k : Nat) : ({ s with brg := x } : State).obj k = s.obj k := rfl

theorem State.fget_showModules_state (s : State) (b st bad : Nat) (repair : BitVec 64) :
    fget ((s.showModules b st bad repair).obj (Obj.bridgeStatus b)) 29 3 = st % 8 := by
  have hgroups : Obj.bridgeStatus b ≠ Obj.groupMap b := by simp [Obj.bridgeStatus, Obj.groupMap]
  have hrepair : Obj.bridgeStatus b ≠ Obj.moduleRepair b := by simp [Obj.bridgeStatus, Obj.moduleRepair]
  unfold State.showModules
  extract_lets v up n v1 v2 map rep s1
  have hobj : s1.obj (Obj.bridgeStatus b) = v2 := by
    rw [State.obj_setObj_ne _ _ hrepair, State.obj_setObj_ne _ _ hgroups, State.obj_setObj_same]
  rw [State.obj_withBrg, hobj]
  simp only [v2, v1]
  rw [fget_fset_apart _ _ _ _ _ _ (by decide) (by decide) (by decide), fget_fset_apart _ _ _ _ _ _ (by decide) (by decide) (by decide),
    fget_fset_apart _ _ _ _ _ _ (by decide) (by decide) (by decide), fget_fset_apart _ _ _ _ _ _ (by decide) (by decide) (by decide),
    fget_fset_apart _ _ _ _ _ _ (by decide) (by decide) (by decide), fget_fset_same _ _ _ _ (by decide)] <;> rfl

section
variable {s : State} {b n : Nat}

theorem State.mayTrain_of (hunit : s.cfg.unitAt 4 b = some n) (hrun : s.running = true) (hsafe : s.safeStart = false)
    (hcfg : (s.obj (Obj.bridgeCfg b)).getLsbD 0 = true) (hlost : s.junctionLost n = false) (hbond : s.bonded b 0 = true) : s.mayTrain b = true := by
  simp [State.mayTrain, hunit, hrun, hsafe, hcfg, hlost, hbond]

section
variable {slow : Bool} {bad : BitVec 8} {repair : BitVec 64} {partner : Option (BitVec 6)} {out : Nat} (hunit : s.cfg.unitAt 4 b = some n)
  (hmay : s.mayTrain b = true) (hup : s.rd (.bridgeState b) ≠ 2) (hretrain : s.rd (.bridgeState b) ≠ 3) (hout : out = modulesOut bad.toNat repair)
include hunit hmay hup hretrain hout

theorem exec_bridgeTrainComplete_fails (hroles : rolesFilled out = false) : exec (.bridgeTrainComplete b slow bad repair partner) s =
    .next ((s.showModules b 4 out repair).repairRecords b n (s.obj (Obj.moduleRepair b))) := by
  subst hout
  have hopen : ¬ (!s.mayTrain b ∨ s.rd (.bridgeState b) = 2 ∨ s.rd (.bridgeState b) = 3) := by simp [hmay, hup, hretrain]
  have hnone : (!rolesFilled (modulesOut bad.toNat repair)) = true := by simp [hroles]
  simp only [exec, execBridgeTrainComplete, Bridge.trained, hunit, if_neg hopen, if_pos hnone]

/-- BRIDGE_STATUS of a bridge that comes up: its rate and its partner. -/
def trainedStatus (v : Val) (fast : Bool) (partner : Option (BitVec 6)) : Val :=
  match partner with
  | some d => fset (fset (fset v 28 1 (if fast then 1 else 0)) 27 1 1) 21 6 d.toNat
  | none => fset (fset (fset v 28 1 (if fast then 1 else 0)) 27 1 0) 21 6 0

/-- What a bridge that comes up leaves, at `fast` or at the lower rate: its status, and whether it is late. -/
def State.cameUp (s : State) (b : Nat) (fast late : Bool) (partner : Option (BitVec 6)) : State :=
  { s.setObj (Obj.bridgeStatus b) (trainedStatus (s.obj (Obj.bridgeStatus b)) fast partner)
    with brg := { s.brg with late := if late then s.brg.late.filter (· != b) ++ [b] else s.brg.late.filter (· != b) } }

omit hunit hmay hup hretrain hout in
theorem State.cameUp_status (s : State) (fast late : Bool) :
    (s.cameUp b fast late partner).obj (Obj.bridgeStatus b) = trainedStatus (s.obj (Obj.bridgeStatus b)) fast partner :=
  (State.obj_withBrg ..).trans (State.obj_setObj_same ..)

omit hunit hmay hup hretrain hout in
theorem State.cameUp_late (s : State) (fast late : Bool) : (s.cameUp b fast late partner).brg.late.contains b = true ↔ late = true := by
  unfold State.cameUp
  cases late <;> simp

/-- The groups of a bridge that comes up start from zero. -/
def State.groupsFresh (s : State) (b : Nat) : State :=
  (List.range 8).foldl (fun (a : State) g => a.setBgroup b g { BGroup.zero with recs := (a.bgroup b g).recs, cut := (a.bgroup b g).cut }) s

theorem exec_bridgeTrainComplete_up (hroles : rolesFilled out = true) : exec (.bridgeTrainComplete b slow bad repair partner) s = .next
    ((((s.groupsFresh b).showModules b 2 out repair).repairRecords b n (s.obj (Obj.moduleRepair b))).cameUp b
      (slow || (s.obj (Obj.bridgeCfg b)).getLsbD 1) (s.comesLate b partner) partner) := by
  subst hout
  have hopen : ¬ (!s.mayTrain b ∨ s.rd (.bridgeState b) = 2 ∨ s.rd (.bridgeState b) = 3) := by simp [hmay, hup, hretrain]
  have hsome : ¬ (!rolesFilled (modulesOut bad.toNat repair)) = true := by simp [hroles]
  simp only [exec, execBridgeTrainComplete, Bridge.trained, hunit, if_neg hopen, if_neg hsome]
  cases partner <;> rfl
end

theorem trainedStatus_state (v : Val) (fast : Bool) (partner : Option (BitVec 6)) : fget (trainedStatus v fast partner) 29 3 = fget v 29 3 := by
  cases partner <;> simp only [trainedStatus] <;>
    rw [fget_fset_apart _ _ _ _ _ _ (by decide) (by decide) (by decide), fget_fset_apart _ _ _ _ _ _ (by decide) (by decide) (by decide),
      fget_fset_apart _ _ _ _ _ _ (by decide) (by decide) (by decide)]

theorem trainedStatus_rate (v : Val) (fast : Bool) (partner : Option (BitVec 6)) :
    fget (trainedStatus v fast partner) 28 1 = if fast then 1 else 0 := by
  cases partner <;> simp only [trainedStatus] <;>
    rw [fget_fset_apart _ _ _ _ _ _ (by decide) (by decide) (by decide), fget_fset_apart _ _ _ _ _ _ (by decide) (by decide) (by decide),
      fget_fset_same _ _ _ _ (by decide)] <;>
    cases fast <;> rfl

theorem trainedStatus_partner (v : Val) (fast : Bool) (d : BitVec 6) :
    fget (trainedStatus v fast (some d)) 27 1 = 1 ∧ fget (trainedStatus v fast (some d)) 21 6 = d.toNat := by
  simp only [trainedStatus]
  rw [fget_fset_apart _ _ _ _ _ _ (by decide) (by decide) (by decide), fget_fset_same _ _ _ _ (by decide), fget_fset_same _ _ _ _ (by decide)]
  exact ⟨rfl, Nat.mod_eq_of_lt d.isLt⟩

theorem trainedStatus_alone (v : Val) (fast : Bool) : fget (trainedStatus v fast none) 27 1 = 0 := by
  simp only [trainedStatus]
  rw [fget_fset_apart _ _ _ _ _ _ (by decide) (by decide) (by decide), fget_fset_same _ _ _ _ (by decide)] <;> rfl

theorem Obj.bridgeStatus_not_note (b : Nat) (hb : b < 4) : Obj.isNote (Obj.bridgeStatus b) = false := by
  obtain rfl | rfl | rfl | rfl : b = 0 ∨ b = 1 ∨ b = 2 ∨ b = 3 := by omega
  all_goals decide

/-! ## Flits -/

theorem exec_bridgeFlitReceive {g : Nat} {flit : BitVec 2048} {s1 : State} (hunit : s.cfg.unitAt 4 b = some n) (hrun : s.running = true)
    (hg : g < 8) (hruns : s.groupRuns b g = true) (hup : s.groupState b g ≠ 0)
    (hclean : s.injectedAt 0x09 n 5 g = false → s1 = s.bridgeTake b g flit)
    (hspoilt : s.injectedAt 0x09 n 5 g = true → s1 = s.injectFired.bridgeDiscard b g) :
    exec (.bridgeFlitReceive b g flit) s = .next (if 8 ≤ (s1.bgroup b g).again then s1.bridgeRetrain b (groupModules (s1.badModules b) g)
      else if ((((s1.bridgePump b g).groupRetry b g).bridgeLand b g).bgroup b g).nak then (((s1.bridgePump b g).groupRetry b g).bridgeLand b g).bridgeIdle b g
      else (((s1.bridgePump b g).groupRetry b g).bridgeLand b g).bridgeTell b g) := by
  have hopen : ¬ (!s.running ∨ 8 ≤ g ∨ !s.groupRuns b g ∨ s.groupState b g = 0) := by simp [hrun, hg, hruns, hup]
  have hs1 : (if s.injectedAt 0x09 n 5 g then s.injectFired.bridgeDiscard b g else s.bridgeTake b g flit) = s1 := by
    cases hinj : s.injectedAt 0x09 n 5 g
    · exact (hclean hinj).symm
    · exact (hspoilt hinj).symm
  simp only [exec, execBridgeFlitReceive, Bridge.flitReceive, hunit, if_neg hopen, hs1]

/-! ## Retraining -/

section
variable {bad : BitVec 8} {repair : BitVec 64} {mods old out : Nat} {rep : BitVec 64} (hunit : s.cfg.unitAt 4 b = some n) (hrun : s.running = true)
  (hst : s.rd (.bridgeState b) = 3) (hmods : mods = s.retraining b) (hold : old = s.badModules b)
  (hrep : rep = repairAfter mods (s.obj (Obj.moduleRepair b)) repair) (hout : out = old ||| (modulesOut bad.toNat repair &&& mods))
include hunit hrun hst hmods hold hrep hout

theorem exec_bridgeRetrainComplete : exec (.bridgeRetrainComplete b bad repair) s = .next (if !rolesFilled out then
      ((s.showModules b 4 out rep).repairRecords b n (s.obj (Obj.moduleRepair b))).bridgeFall b 4
    else (List.range 8).foldl (fun (a : State) g =>
      a.groupResumes b g (groupModules old g &&& mods != 0 || groupModules old g != groupModules out g))
      (((s.showModules b 2 out rep).repairRecords b n (s.obj (Obj.moduleRepair b))).dropGroups b)) := by
  have hopen : ¬ (!s.running ∨ s.rd (.bridgeState b) ≠ 3) := by simp [hrun, hst]
  subst hmods hold hrep hout
  simp only [exec, execBridgeRetrainComplete, Bridge.retrained, if_neg hopen, hunit, Option.getD_some]
end

/-- A group that retrained sends again what it keeps. -/
theorem State.groupResumes_again {t : State} {g : Nat} (hkept : (t.bgroup b g).replay ≠ []) : t.groupResumes b g true =
    ((t.bridgeReplay b g).setBgroup b g { (t.bridgeReplay b g).bgroup b g with answered := none, again := 0 }).bridgePump b g := by
  have hsome : (true && !(t.bgroup b g).replay.isEmpty) = true := by simpa using hkept
  simp only [State.groupResumes, if_pos hsome]

/-! ## The link -/

theorem exec_bridgeLinkDown (hrun : s.running = true) (hst : s.rd (.bridgeState b) = 2 ∨ s.rd (.bridgeState b) = 3) :
    exec (.bridgeLinkDown b) s = .next (s.bridgeFall b 0) := by
  have hopen : ¬ (!s.running ∨ (s.rd (.bridgeState b) ≠ 2 ∧ s.rd (.bridgeState b) ≠ 3)) := by
    rcases hst with h | h <;> simp [hrun, h]
  exact congrArg Host.Outcome.next (if_neg hopen)

theorem exec_bridgeCfgWrite {acc : Access} {v : BitVec 8} {r : ObjRow} {x : Val} {a : State} (hmay : s.MayWrite acc (Obj.bridgeCfg b) r)
    (hx : x = s.value acc (Obj.bridgeCfg b) r (v.setWidth 64)) (ha : a = s.setObj (Obj.bridgeCfg b) x) :
    exec (.bridgeCfgWrite acc b v) s = .next ((if x.getLsbD 0 then a.trainBegin b
      else if s.rd (.bridgeState b) = 2 ∨ s.rd (.bridgeState b) = 3 then a.bridgeFall b 0
      else if s.rd (.bridgeState b) = 1 then a.wr (.bridgeState b) 0 else a).written acc (Obj.bridgeCfg b) r.ty) := by
  subst ha hx
  exact congrArg Host.Outcome.next (State.serveKey_next (eff := Bridge.writeCfg b) hmay rfl)

theorem State.trainBegin_state (hmay : s.mayTrain b = true) (hst : s.rd (.bridgeState b) = 0 ∨ s.rd (.bridgeState b) = 4) :
    (s.trainBegin b).rd (.bridgeState b) = 1 := by
  have hgo : (s.mayTrain b && (s.rd (.bridgeState b) == 0 || s.rd (.bridgeState b) == 4)) = true := by
    rcases hst with h | h <;> simp [hmay, h]
  rw [State.trainBegin, if_pos hgo]
  exact State.rd_wr_same _ (.bridgeState b) 1 (by simp [Fld.bridgeState])
end

/-- Settles O44. That a training without a module for CTL or DAT shows FAILED, and the begin of TRAINING, are the model's choices (log
entries 98 and 168). -/
theorem bridgesTrainCarryAndFall : Obligations.BridgesTrainCarryAndFall := by
  unfold Obligations.BridgesTrainCarryAndFall
  intro s b n hb hrun hunit
  refine ⟨fun hsafe hup hretrain hcfg hlost hbond slow bad repair partner out hout => ?train, fun bad repair m hm => modulesOut_testBit _ repair hm,
    fun bad _ m hm => moduleRoles_stand_in bad hm, fun g flit s1 hg hruns hup hclean hspoilt => ?flit,
    fun bad repair mods old out rep s1 s2 hst hmods hold hrep hout hs1 hs2 => ?retrain,
    fun t g x hx hkept => ?again, exec_bridgeLinkDown hrun, fun acc v r x a hmay hx ha => ?cfg,
    fun hcfg hsafe hlost hbond => State.trainBegin_state (State.mayTrain_of hunit hrun hsafe hcfg hlost hbond)⟩
  case train =>
    have hmay := State.mayTrain_of hunit hrun hsafe hcfg hlost hbond
    refine ⟨exec_bridgeTrainComplete_fails hunit hmay hup hretrain hout, fun hroles => ?_⟩
    refine ⟨_, exec_bridgeTrainComplete_up hunit hmay hup hretrain hout hroles, ?_, ?_, fun d hd => ?_, fun hnone => ?_,
      State.cameUp_late ..⟩
    all_goals rw [State.cameUp_status]
    · rw [trainedStatus_state, State.obj_repairRecords (Obj.bridgeStatus_not_note b hb), State.fget_showModules_state]
    · rw [trainedStatus_rate]
      exact ite_congr (by simp) (fun _ => rfl) (fun _ => rfl)
    · rw [hd]
      exact trainedStatus_partner ..
    · rw [hnone]
      exact trainedStatus_alone ..
  case flit =>
    have hexec := exec_bridgeFlitReceive hunit hrun hg hruns hup hclean hspoilt
    exact ⟨fun hmany => by rw [hexec, if_pos hmany], fun hfew s2 hs2 => by rw [hexec, if_neg (by omega), ← hs2]⟩
  case retrain =>
    have hexec := exec_bridgeRetrainComplete hunit hrun hst hmods hold hrep hout
    exact ⟨fun hroles => by rw [hexec, if_pos (by simp [hroles]), ← hs1], fun hroles => by rw [hexec, if_neg (by simp [hroles]), ← hs2]⟩
  case again =>
    subst hx
    exact State.groupResumes_again hkept
  case cfg =>
    have hexec := exec_bridgeCfgWrite hmay hx ha
    exact ⟨fun hon => by rw [hexec, if_pos hon], fun hoff hst => by rw [hexec, hoff, if_neg (by decide), if_pos hst],
      fun hoff hst => by rw [hexec, hoff, if_neg (by decide), if_neg (by omega), if_pos hst],
      fun hoff hst => by rw [hexec, hoff, if_neg (by decide), if_neg (by omega), if_neg (by omega)]⟩

end Sys2Proof.Machine
end

section
/-! PROOFS. Enumeration: positions, numbers, its failures, and the package's number. -/

namespace Sys2Proof.Machine

/-! ## What emissions and raises leave -/

/-- What is driven in turn by a list stands at the end of the output, in its order. -/
theorem State.foldl_emit {α : Type} (e : State → α → Emission) (he : ∀ (t : State) o x, e { t with out := o } x = e t x) (xs : List α) :
    ∀ s : State, xs.foldl (fun a x => a.emit (e a x)) s = { s with out := s.out ++ xs.map (e s) } := by
  induction xs with
  | nil => intro s; simp
  | cons x xs ih =>
    intro s
    rw [List.foldl_cons, ih]
    simp [State.emit, he]

theorem State.rd_of_obj {s t : State} {f : Fld} (h : s.obj f.key = t.obj f.key) : s.rd f = t.rd f := congrArg (fun v => fget v f.lo f.w) h

/-- A raise without a ward changes no object but its own status and the places where it is noted. -/
theorem State.obj_raise_wardless {k : Nat} (hk : Obj.isNote k = false) {c : Cause} (hward : c.ward = none) (hne : k ≠ Obj.faultStatus c.src)
    (s : State) : (s.raise c).obj k = s.obj k := by
  unfold State.raise
  extract_lets sev
  split
  · rfl
  · split
    · exact State.obj_wr_ne s (.stCount c.src) _ k hne
    · exact (State.obj_actOn_wardless hk hward (State.obj_record hk) _ sev).trans (State.obj_setObj_ne _ _ hne)

/-! ## Failure -/

theorem State.obj_enumFail {s : State} {k c : Nat} (hk : Obj.isNote k = false) (hne : k ≠ Obj.faultStatus 0x078) :
    (s.enumFail c).obj k = ((((s.wr .enumSt 3).wr .enumCause c).setObj Obj.dieNumber 0xFF).setObj Obj.dieMap 0).obj k := by
  unfold State.enumFail State.enumFailFrom
  rw [State.foldl_emit _ (fun _ _ _ => rfl)]
  exact State.obj_raise_wardless hk rfl hne _

theorem State.enumFail_shows {s : State} {c : Nat} (hc : c < 8) : (s.enumFail c).rd .enumSt = 3 ∧ (s.enumFail c).rd .enumCause = c ∧
    (s.enumFail c).obj Obj.dieNumber = 0xFF ∧ (s.enumFail c).obj Obj.dieMap = 0 := by
  have hstate : (s.enumFail c).obj Obj.enumState = ((s.wr .enumSt 3).wr .enumCause c).obj Obj.enumState := by
    rw [State.obj_enumFail (by decide) (by decide), State.obj_setObj_ne _ _ (by decide), State.obj_setObj_ne _ _ (by decide)]
  refine ⟨(State.rd_of_obj hstate).trans ?_, (State.rd_of_obj hstate).trans ?_, ?_, ?_⟩
  · rw [State.rd_wr_apart _ _ _ _ (by decide) (by decide) (by decide), State.rd_wr_same _ _ _ (by decide)]
    rfl
  · rw [State.rd_wr_same _ _ _ (by decide)]
    exact Nat.mod_eq_of_lt hc
  · rw [State.obj_enumFail (by decide) (by decide), State.obj_setObj_ne _ _ (by decide), State.obj_setObj_same]
  · rw [State.obj_enumFail (by decide) (by decide), State.obj_setObj_same]

/-! ## ENUM -/

section
variable {s : State} {b : Nat} {col row : Int} {master : BitVec 48} {f : BitVec 2} (hrun : s.running = true) (htrained : s.bridgeTrained b = true)
include hrun htrained

theorem exec_enumReceive_fails {c : Nat} (hst : s.rd .enumSt < 2) (hcause : s.enumCauseOf b (col, row) master f.toNat = some c) :
    exec (.enumReceive b col row master f) s = .next (s.enumFail c) := by
  have hopen : ¬ (!s.running ∨ !s.bridgeTrained b ∨ s.rd .enumSt = 3) := by simp [hrun, htrained]; omega
  simp only [exec, execEnumReceive, Pkg.enumReceive, if_neg hopen, if_neg (Nat.ne_of_lt hst), hcause]

theorem exec_enumReceive_again (hst : s.rd .enumSt < 2) (hcause : s.enumCauseOf b (col, row) master f.toNat = none)
    (hpos : s.brg.pos.isSome = true) : exec (.enumReceive b col row master f) s = .next s := by
  have hopen : ¬ (!s.running ∨ !s.bridgeTrained b ∨ s.rd .enumSt = 3) := by simp [hrun, htrained]; omega
  simp only [exec, execEnumReceive, Pkg.enumReceive, if_neg hopen, if_neg (Nat.ne_of_lt hst), hcause, if_pos hpos]

/-- A die that takes its position: it waits for ASSIGN, and knows the bridge to its parent. -/
def State.takePosition (s : State) (b : Nat) (p : Int × Int) : State :=
  (({ s with brg := { s.brg with pos := some p, waitUntil := none } } : State).wr .enumSt 1).wr .enumParent b

omit hrun htrained in
theorem State.takePosition_bridgeTrained (s : State) (b x : Nat) (p : Int × Int) : (s.takePosition b p).bridgeTrained x = s.bridgeTrained x := by
  have hobj : (s.takePosition b p).obj (Obj.bridgeStatus x) = s.obj (Obj.bridgeStatus x) :=
    (State.obj_wr_ne _ _ _ _ (by simp [Obj.bridgeStatus, Fld.enumParent, Obj.enumState]; omega)).trans
      (State.obj_wr_ne _ _ _ _ (by simp [Obj.bridgeStatus, Fld.enumSt, Obj.enumState]; omega))
  have hrd : (s.takePosition b p).rd (.bridgeState x) = s.rd (.bridgeState x) := State.rd_of_obj hobj
  unfold State.bridgeTrained
  rw [hrd]
  rfl

theorem exec_enumReceive_first (hst : s.rd .enumSt < 2) (hcause : s.enumCauseOf b (col, row) master f.toNat = none) (hpos : s.brg.pos = none) :
    exec (.enumReceive b col row master f) s = .next { s.takePosition b (col, row) with
      out := s.out ++ (s.trainedBut (some b)).map (fun x => Emission.sidebandEnum x (stepPos (s.cfg.bridgeFacing.getD x 0) (col, row)).1 (stepPos (s.cfg.bridgeFacing.getD x 0) (col, row)).2
        master (BitVec.ofNat 2 (s.cfg.bridgeFacing.getD x 0))) } := by
  have hopen : ¬ (!s.running ∨ !s.bridgeTrained b ∨ s.rd .enumSt = 3) := by simp [hrun, htrained]; omega
  have hnone : ¬ s.brg.pos.isSome = true := by simp [hpos]
  have hbut : (s.takePosition b (col, row)).trainedBut (some b) = s.trainedBut (some b) := by
    unfold State.trainedBut
    exact congrArg (fun p => List.filter p (List.range 4)) (funext fun x => by rw [State.takePosition_bridgeTrained])
  simp only [exec, execEnumReceive, Pkg.enumReceive, if_neg hopen, if_neg (Nat.ne_of_lt hst), hcause, if_neg hnone]
  refine congrArg Host.Outcome.next (Eq.trans (b := (s.takePosition b (col, row)).forwardEnum (col, row) master (some b)) rfl ?_)
  unfold State.forwardEnum
  rw [State.foldl_emit (fun a x => .sidebandEnum x (stepPos (a.cfg.bridgeFacing.getD x 0) (col, row)).1
    (stepPos (a.cfg.bridgeFacing.getD x 0) (col, row)).2 master (BitVec.ofNat 2 (a.cfg.bridgeFacing.getD x 0))) (fun _ _ _ => rfl), hbut]
  rfl

omit hrun htrained in
theorem State.takePosition_shows (s : State) (b : Nat) (p : Int × Int) :
    (s.takePosition b p).rd .enumSt = 1 ∧ (s.takePosition b p).rd .enumParent = b % 8 := by
  unfold State.takePosition
  refine ⟨?_, State.rd_wr_same _ _ _ (by decide)⟩
  rw [State.rd_wr_apart _ _ _ _ (by decide) (by decide) (by decide), State.rd_wr_same _ _ _ (by decide)]
  rfl

theorem exec_enumReceive_done (hst : s.rd .enumSt = 2) : exec (.enumReceive b col row master f) s =
    .next (if s.isMaster ∧ master ≠ s.provisionalId then s.enumFail 3 else s) := by
  have hopen : ¬ (!s.running ∨ !s.bridgeTrained b ∨ s.rd .enumSt = 3) := by simp [hrun, htrained, hst]
  simp only [exec, execEnumReceive, Pkg.enumReceive, if_neg hopen, if_pos hst]
end

/-! ## The end at the master, and ASSIGN -/

section
variable {s : State}

theorem exec_enumQuietExpire {found : List (Int × Int)} {from_ : Nat} (hquiet : s.brg.quietFrom = some from_) (hfw : s.firmwareRuns = true)
    (hmaster : s.isMaster = true) {o : Int × Int} {cols rows : Nat} {map : BitVec 64} {s1 : State}
    (ho : o = (leastOf (found.map (·.1)), leastOf (found.map (·.2)))) (hcols : cols = (mostOf (found.map (·.1)) - o.1).toNat)
    (hrows : rows = (mostOf (found.map (·.2)) - o.2).toNat)
    (hmap : map = BitVec.ofNat 64 ((((0, 0) :: found).map (dieOf o)).eraseDups.map (2 ^ ·)).sum) (hs1 : s1 = s.advanceTo (from_ + 10000000)) :
    exec (.enumQuietExpire found) s = .next (if 7 < cols ∨ 7 < rows then s1.enumFail 4
      else (((((s1.takeNumber (dieOf o (0, 0)) cols rows (dieOf o (0, 0)) 7 map).forwardAssign o cols rows (dieOf o (0, 0)) map none).setObj
        Obj.tbOffset 0).setObj Obj.tbError 0).measured).hallBegin) := by
  have hopen : ¬ (!s.firmwareRuns ∨ !s.isMaster) := by simp [hfw, hmaster]
  subst ho hcols hrows hmap hs1
  simp only [exec, execEnumQuietExpire, Pkg.quietExpire, hquiet, if_neg hopen]

/-- PARTNER is shown in the status of the bridges alone. -/
theorem State.obj_showPartners {k : Nat} (hk : ∀ b, k ≠ Obj.bridgeStatus b) (s : State) : s.showPartners.obj k = s.obj k := by
  refine List.foldlRecOn (motive := fun t : State => t.obj k = s.obj k) (s.trainedBut none) _ rfl (fun t ht b _ => ?_)
  refine Eq.trans ?_ ht
  dsimp only
  split
  · split
    · exact State.obj_setObj_ne _ _ (hk b)
    · rfl
  · rfl

section
variable {o : Int × Int} {die cols rows master parent : Nat} {map : BitVec 64}

theorem State.obj_takeNumber {k : Nat} (hk : ∀ b, k ≠ Obj.bridgeStatus b) : (s.takeNumber die cols rows master parent map).obj k =
    (((s.setObj Obj.dieNumber (BitVec.ofNat 64 die)).setObj Obj.dieMap map).setObj Obj.enumState
      (BitVec.ofNat 64 (enumDone cols rows master parent))).obj k :=
  (State.obj_showPartners hk _).trans (State.obj_withBrg ..)

theorem State.takeNumber_shows {t : State} (ht : t = s.takeNumber die cols rows master parent map) :
    t.obj Obj.dieNumber = BitVec.ofNat 64 die ∧ t.obj Obj.dieMap = map ∧
    t.obj Obj.enumState = BitVec.ofNat 64 (enumDone cols rows master parent) := by
  subst ht
  refine ⟨?_, ?_, ?_⟩
  all_goals rw [State.obj_takeNumber (by simp [Obj.bridgeStatus, Obj.dieNumber, Obj.dieMap, Obj.enumState]; omega)]
  · rw [State.obj_setObj_ne _ _ (by decide), State.obj_setObj_ne _ _ (by decide), State.obj_setObj_same]
  · rw [State.obj_setObj_ne _ _ (by decide), State.obj_setObj_same]
  · exact State.obj_setObj_same ..

theorem State.obj_forwardAssign (k : Nat) (from_ : Option Nat) : (s.forwardAssign o cols rows master map from_).obj k = s.obj k := by
  unfold State.forwardAssign
  rw [State.foldl_emit _ (fun _ _ _ => rfl)]
  rfl
end

theorem exec_enumAssignReceive_dies {p o : Int × Int} {cols rows : BitVec 3} {master : BitVec 6} {map : BitVec 64} (hpos : s.brg.pos = some p)
    (hrun : s.running = true) (hmaster : s.isMaster = false) (hst : s.rd .enumSt = 1) :
    exec (.enumAssignReceive o.1 o.2 cols rows master (.dies map)) s = .next
      ((s.takeNumber (dieOf o p) cols.toNat rows.toNat master.toNat (s.rd .enumParent) map).forwardAssign o cols.toNat rows.toNat
        master.toNat map s.parent) := by
  have hopen : ¬ (!s.running ∨ s.isMaster ∨ s.rd .enumSt ≠ 1) := by simp [hrun, hmaster, hst]
  simp only [exec, execEnumAssignReceive, Pkg.assignReceive, hpos, if_neg hopen]

theorem exec_enumAssignReceive_failed {col0 row0 : Int} {cols rows f : BitVec 3} {master : BitVec 6} (hpos : s.brg.pos.isSome = true)
    (hrun : s.running = true) (hst : s.rd .enumSt ≠ 3) :
    exec (.enumAssignReceive col0 row0 cols rows master (.failed f)) s = .next (s.enumFail f.toNat) := by
  obtain ⟨p, hp⟩ := Option.isSome_iff_exists.mp hpos
  simp only [exec, execEnumAssignReceive, Pkg.assignReceive, hp, if_pos (And.intro hrun hst)]

theorem exec_enumWaitExpire {d : Nat} (hwait : s.brg.waitUntil = some d) (hfw : s.firmwareRuns = true) (hst : s.rd .enumSt = 0) :
    exec .enumWaitExpire s = .next ((s.advanceTo d).enumFail 1) := by
  have hopen : ¬ (!s.firmwareRuns ∨ s.rd .enumSt ≠ 0) := by simp [hfw, hst]
  simp only [exec, execEnumWaitExpire, Pkg.waitExpire, hwait, if_neg hopen]

/-- Within eight columns and rows the position gives the number and the number the position. -/
theorem dieOf_inj {o p q : Int × Int} (hpc : o.1 ≤ p.1) (hpc' : p.1 < o.1 + 8) (hpr : o.2 ≤ p.2) (hpr' : p.2 < o.2 + 8)
    (hqc : o.1 ≤ q.1) (hqc' : q.1 < o.1 + 8) (hqr : o.2 ≤ q.2) (hqr' : q.2 < o.2 + 8) :
    dieOf o p < 64 ∧ (dieOf o p = dieOf o q → p = q) := by
  unfold dieOf
  exact ⟨by omega, fun h => Prod.ext (by omega) (by omega)⟩

/-! ## PKG_NUMBER -/

section
variable {path : Path} {v : Val} (hpeer : isPeer path = false)
include hpeer

theorem Pkg.writeNumber_accepted (hmaster : s.isMaster = true) (hin : v.toNat ≤ 4095) (hfree : s.anyOwned = false) (helse : s.ownedElsewhere = false) :
    Pkg.writeNumber path v s = .ok ((s.setObj Obj.pkgNumber v).peerCopy 0x1900 0x02 (leBytes 2 v.toNat)) := by
  simp [Pkg.writeNumber, hpeer, hmaster, Nat.not_lt.mpr hin, hfree, helse]

theorem Pkg.writeNumber_owned (hmaster : s.isMaster = true) (hin : v.toNat ≤ 4095) (howned : s.anyOwned = true ∨ s.ownedElsewhere = true) :
    Pkg.writeNumber path v s = .error .inUse := by
  simp [Pkg.writeNumber, hpeer, hmaster, Nat.not_lt.mpr hin, howned]

theorem Pkg.writeNumber_outOfRange (hmaster : s.isMaster = true) (hout : 4095 < v.toNat) : Pkg.writeNumber path v s = .error .outOfRange := by
  simp [Pkg.writeNumber, hpeer, hmaster, hout]

theorem Pkg.writeNumber_notMaster (hmaster : s.isMaster = false) : Pkg.writeNumber path v s = .error .notPresent := by
  simp [Pkg.writeNumber, hpeer, hmaster]
end

/-- A die alone in its map knows of nothing owned elsewhere. -/
theorem State.ownedElsewhere_alone (halone : ∀ d < 64, (s.obj Obj.dieMap).getLsbD d = true → d = s.dieBits) : s.ownedElsewhere = false := by
  have hnone : (List.range 64).any (fun d => (s.obj Obj.dieMap).getLsbD d && d != s.dieBits) = false :=
    List.any_eq_false.mpr fun d hd => by simpa using halone d (List.mem_range.mp hd)
  simp [State.ownedElsewhere, hnone]
end

/-- Settles O45. What the sideband carries of a failure and what fails at the wait's expiry are the model's choices (log entries 100 and 133),
and what wards own on other dies is a free value (log entry 134). -/
theorem enumerationNumbersTheDies : Obligations.EnumerationNumbersTheDies := by
  unfold Obligations.EnumerationNumbersTheDies
  intro s
  refine ⟨fun b col row master f hrun htrained hst => ⟨fun c => exec_enumReceive_fails hrun htrained hst, fun hcause hpos => ?first,
      exec_enumReceive_again hrun htrained hst⟩,
    fun b col row master f hrun htrained hst => ⟨fun hmaster hother => ?other, fun hsame => ?same⟩,
    fun found from_ o cols rows map s1 hquiet hfw hmaster ho hcols hrows hmap hs1 => ?quiet,
    fun col0 row0 cols rows master map p hpos hrun hmaster hst => ?assign,
    fun _ _ _ _ _ _ => exec_enumAssignReceive_failed,
    fun c hc t ht => ht ▸ State.enumFail_shows hc,
    fun o p q => dieOf_inj, fun d => exec_enumWaitExpire,
    fun acc v r x hmay hpeer hx => ⟨fun hmaster hin hfree => ?write, State.ownedElsewhere_alone, fun hmaster hout => ?outOfRange,
      fun hmaster hin howned => ?owned, fun hmaster => ?notMaster⟩⟩
  case first => exact ⟨_, exec_enumReceive_first hrun htrained hst hcause hpos, rfl, (s.takePosition_shows b (col, row)).1,
      (s.takePosition_shows b (col, row)).2, rfl, rfl⟩
  case other => rw [exec_enumReceive_done hrun htrained hst, if_pos ⟨hmaster, hother⟩]
  case same => rw [exec_enumReceive_done hrun htrained hst, if_neg (by rcases hsame with h | h <;> simp [h])]
  case quiet =>
    have hexec := exec_enumQuietExpire hquiet hfw hmaster ho hcols hrows hmap hs1
    exact ⟨fun hfar => by rw [hexec, if_pos hfar], fun hc hr => by rw [hexec, if_neg (by omega)]⟩
  case assign =>
    refine ⟨_, exec_enumAssignReceive_dies (o := (col0, row0)) hpos hrun hmaster hst, ?_⟩
    simp only [State.obj_forwardAssign]
    exact State.takeNumber_shows rfl
  case write =>
    subst hx
    cases helse : s.ownedElsewhere
    · exact congrArg _ (State.serveKey_next (eff := Pkg.writeNumber acc.path) hmay (Pkg.writeNumber_accepted hpeer hmaster hin hfree helse))
    · exact congrArg _ (State.serveKey_refused (eff := Pkg.writeNumber acc.path) hmay (Pkg.writeNumber_owned hpeer hmaster hin (.inr helse)))
  case outOfRange =>
    subst hx
    exact congrArg _ (State.serveKey_refused (eff := Pkg.writeNumber acc.path) hmay (Pkg.writeNumber_outOfRange hpeer hmaster hout))
  case owned =>
    subst hx
    exact congrArg _ (State.serveKey_refused (eff := Pkg.writeNumber acc.path) hmay (Pkg.writeNumber_owned hpeer hmaster hin (.inl howned)))
  case notMaster =>
    exact congrArg _ (State.serveKey_refused (eff := Pkg.writeNumber acc.path) hmay (Pkg.writeNumber_notMaster hpeer hmaster))

end Sys2Proof.Machine
end

section
/-! PROOFS. The package's time base. -/

namespace Sys2Proof.Machine

/-! ## The least trip -/

/-- Of one more exchange and those before, the one that counts has a trip as short as any. -/
theorem TimeTrial.take_least (x : TimeTrial) (offset trip : Int) : ∃ t o, (x.take offset trip).best = some (t, o) ∧ t ≤ trip ∧
    (∀ t' o', x.best = some (t', o') → t ≤ t') ∧ ((t, o) = (trip, offset) ∨ x.best = some (t, o)) := by
  unfold TimeTrial.take
  cases hbest : x.best with
  | none => exact ⟨trip, offset, rfl, Int.le_refl _, fun _ _ h => (Option.some_ne_none _ h.symm).elim, .inl rfl⟩
  | some q =>
    obtain ⟨t, o⟩ := q
    by_cases hless : trip < t
    · refine ⟨trip, offset, if_pos hless, Int.le_refl _, fun t' o' h => ?_, .inl rfl⟩
      obtain ⟨rfl, rfl⟩ := Prod.mk.inj (Option.some.inj h)
      exact Int.le_of_lt hless
    · refine ⟨t, o, if_neg hless, Int.not_lt.mp hless, fun t' o' h => ?_, .inr rfl⟩
      obtain ⟨rfl, rfl⟩ := Prod.mk.inj (Option.some.inj h)
      exact Int.le_refl _

theorem exchangeTrip_eq (t1 there turn back off : Int) :
    exchangeTrip t1 (t1 + there + off) (t1 + there + off + turn) (t1 + there + turn + back) = there + back := by
  unfold exchangeTrip
  omega

/-- With equal trips the offset is exact. -/
theorem exchangeOffset_exact (t1 there turn back off : Int) (heq : there = back) :
    exchangeOffset t1 (t1 + there + off) (t1 + there + off + turn) (t1 + there + turn + back) = off := by
  unfold exchangeOffset
  have htwice : t1 + there + off - t1 + (t1 + there + off + turn - (t1 + there + turn + back)) = off * 2 := by omega
  rw [htwice]
  exact Int.mul_tdiv_cancel off (by decide)

/-! ## The exchanges -/

section
variable {s s1 : State} {b at_ : Nat} {q : List Byte} (hfrozen : s.frozen = false) (hrun : s.running = true)
include hfrozen hrun

theorem exec_timeReqReceive (htake : s.takeTime b 2 = some (q, at_, s1)) : exec (.timeReqReceive b) s = .next (if s1.parent ≠ some b then s1
    else s1.bridgeStamped b 3 ([3] ++ leBytes 8 (leAt q 1 8) ++ leBytes 8 at_ ++ leBytes 8 s1.now ++ leBytes 1 (leAt q 9 1)) 17) := by
  have hopen : ¬ (s.frozen ∨ !s.running) := by simp [hfrozen, hrun]
  simp only [exec, execTimeReqReceive, Pkg.timeReq, if_neg hopen, htake]

section
variable {x y : TimeTrial} (htake : s.takeTime b 3 = some (q, at_, s1)) (hx : x = s1.trial b) (hsent : x.sent ≤ leAt q 1 8)
  (hseq : leAt q 25 1 = x.made) (hy : y = x.take (exchangeOffset (leAt q 1 8) (leAt q 9 8) (leAt q 17 8) at_)
    (exchangeTrip (leAt q 1 8) (leAt q 9 8) (leAt q 17 8) at_))
include htake hx hsent hseq hy

theorem exec_timeRespReceive_next (hmade : x.made < 7) : exec (.timeRespReceive b) s = .next ((s1.setTrial b y).sendTimeReq b) := by
  have hopen : ¬ (s.frozen ∨ !s.running) := by simp [hfrozen, hrun]
  have hmine : ¬ (leAt q 1 8 < (s1.trial b).sent ∨ leAt q 25 1 ≠ (s1.trial b).made ∨ 8 ≤ (s1.trial b).made) := by rw [← hx]; omega
  have hmore : y.made < 8 := by rw [hy]; exact Nat.succ_lt_succ hmade
  rw [hy, hx] at hmore ⊢
  simp only [exec, execTimeRespReceive, Pkg.timeResp, if_neg hopen, htake, if_neg hmine, if_pos hmore]

theorem exec_timeRespReceive_last (hmade : x.made = 7) {trip o : Int} (hbest : y.best = some (trip, o)) :
    exec (.timeRespReceive b) s = .next ((s1.setTrial b y).timeDone b o) := by
  have hopen : ¬ (s.frozen ∨ !s.running) := by simp [hfrozen, hrun]
  have hmine : ¬ (leAt q 1 8 < (s1.trial b).sent ∨ leAt q 25 1 ≠ (s1.trial b).made ∨ 8 ≤ (s1.trial b).made) := by rw [← hx]; omega
  have hlast : ¬ y.made < 8 := by rw [hy]; exact Nat.not_lt.mpr (Nat.succ_le_succ (Nat.le_of_eq hmade.symm))
  rw [hy, hx] at hlast hbest ⊢
  simp only [exec, execTimeRespReceive, Pkg.timeResp, if_neg hopen, htake, if_neg hmine, if_neg hlast, hbest]
end
end

section
variable {s : State}

theorem exec_tbPeriodExpire {t : Nat} (hdue : s.brg.tbDue = some t) (hfw : s.firmwareRuns = true) :
    exec .tbPeriodExpire s = .next ((s.advanceTo t).tbPeriodFrom.measureAgain.hallBegin) := by
  have hopen : ¬ (!s.firmwareRuns) = true := by simp [hfw]
  simp only [exec, execTbPeriodExpire, Pkg.periodExpire, hdue, if_neg hopen]

theorem exec_tbGenWrite {acc : Access} {v : BitVec 32} {r : ObjRow} (hmay : s.MayWrite acc Obj.tbGen r) : exec (.tbGenWrite acc v) s =
    .next ((if isPeer acc.path then s.timeChildren else s.measureAgain).written acc Obj.tbGen r.ty) :=
  congrArg Host.Outcome.next (State.serveKey_next (eff := fun _ => Pkg.writeGen acc.path) hmay rfl)
end

/-- Settles O46. That a peer's write of TB_GEN has this die measure its children is the model's choice (log entry 102). -/
theorem theTimeBaseIsMeasured : Obligations.TheTimeBaseIsMeasured := by
  unfold Obligations.TheTimeBaseIsMeasured
  intro s
  refine ⟨fun b q at_ s1 hfrozen hrun htake => ⟨fun hparent => ?answered, fun hother => ?discarded⟩,
    fun b q at_ s1 x y hfrozen hrun htake hx hsent hseq _ hy => ⟨exec_timeRespReceive_next hfrozen hrun htake hx hsent hseq hy, fun hmade => ?last⟩,
    TimeTrial.take_least, fun t1 there turn back off => ⟨exchangeTrip_eq .., exchangeOffset_exact t1 there turn back off⟩, fun t => exec_tbPeriodExpire,
    fun _ _ _ => exec_tbGenWrite⟩
  case answered => rw [exec_timeReqReceive hfrozen hrun htake, if_neg (Classical.not_not.mpr hparent)]
  case discarded => rw [exec_timeReqReceive hfrozen hrun htake, if_pos hother]
  case last =>
    obtain ⟨trip, o, hbest, -⟩ := x.take_least (exchangeOffset (leAt q 1 8) (leAt q 9 8) (leAt q 17 8) at_)
      (exchangeTrip (leAt q 1 8) (leAt q 9 8) (leAt q 17 8) at_)
    rw [← hy] at hbest
    exact ⟨trip, o, hbest, exec_timeRespReceive_last hfrozen hrun htake hx hsent hseq hy hmade hbest⟩

end Sys2Proof.Machine
end

section
/-! PROOFS. Package images: their checks, their arm and their swap. -/

namespace Sys2Proof.Machine

section
variable {s a : State} {w : BitVec 4} {k : Nat} {x y : PkgSeq} (hk : k = w.toNat) (hx : x = s.pkg k)
include hk

/-! ## The checks of a load -/

section
variable {results : List DieResult}

section
variable (hst : s.rd (.pkgState k) = 2) (hfw : s.firmwareRuns = true) (hfrozen : s.frozen = false)
include hx hst hfw hfrozen

theorem exec_pkgLoadCheckComplete_container (hbad : s.containerBad w x.image = true) :
    exec (.pkgLoadCheckComplete w results) s = .next (s.pkgEnter k 7 0x14 0xFF) := by
  subst hk hx
  have hopen : ¬ (s.rd (.pkgState w.toNat) ≠ 2 ∨ !s.firmwareRuns ∨ s.frozen) := by simp [hst, hfw, hfrozen]
  simp only [exec, execPkgLoadCheckComplete, Pkg.checked, if_neg hopen, if_pos hbad]

section
variable (hgood : s.containerBad w x.image = false) (ha : a = (s.sectionsGo k).1)
include hgood ha

theorem exec_pkgLoadCheckComplete_lost {d : Nat} (hlost : (s.sectionsGo k).2 = some d) :
    exec (.pkgLoadCheckComplete w results) s = .next (a.pkgEnter k 7 0x02 d) := by
  subst hk hx ha
  have hopen : ¬ (s.rd (.pkgState w.toNat) ≠ 2 ∨ !s.firmwareRuns ∨ s.frozen) := by simp [hst, hfw, hfrozen]
  simp only [exec, execPkgLoadCheckComplete, Pkg.checked, if_neg hopen, hgood, hlost]
  rfl

/-- The sections that can go on go on; once all have been taken, the image is judged. -/
theorem exec_pkgLoadCheckComplete_goes (hkept : (s.sectionsGo k).2 = none) : exec (.pkgLoadCheckComplete w results) s =
    .next (if !(a.pkg k).sends.isEmpty then a else Pkg.judge k results a) := by
  subst hk hx ha
  have hopen : ¬ (s.rd (.pkgState w.toNat) ≠ 2 ∨ !s.firmwareRuns ∨ s.frozen) := by simp [hst, hfw, hfrozen]
  simp only [exec, execPkgLoadCheckComplete, Pkg.checked, if_neg hopen, hgood, hkept]
  rfl
end
end

omit hk in
/-- The loads that the judgement looks at: some die of the image has not finished its checks. -/
theorem Pkg.judge_waits {d : Nat} (hd : d ∈ (a.pkg k).dies) (hbusy : ∀ v, a.dieLoad k results d = some v → loadSt v ≠ 3 ∧ loadSt v ≠ 7) :
    Pkg.judge k results a = a := by
  have hany : ((a.pkg k).dies.map (fun d => (d, a.dieLoad k results d))).any (fun p => match p.2 with
      | some v => loadSt v != 3 && loadSt v != 7
      | none => true) = true := by
    refine List.any_eq_true.mpr ⟨_, List.mem_map_of_mem hd, ?_⟩
    dsimp only
    cases hload : a.dieLoad k results d with
    | none => rfl
    | some v => simp [hbusy v hload]
  exact if_pos hany

omit hk in
/-- Where every die of the image has finished its checks, those that failed decide. -/
theorem Pkg.judge_finished (hall : ∀ d ∈ (a.pkg k).dies, ∃ v, a.dieLoad k results d = some v ∧ (loadSt v = 3 ∨ loadSt v = 7)) :
    Pkg.judge k results a = (match ((a.pkg k).dies.map (fun d => (d, a.dieLoad k results d))).find? (fun p => (p.2.map loadSt) == some 7) with
    | some p => a.pkgEnter k 7 (loadCode (p.2.getD 0)) p.1
    | none => match pkgLinkFail (pkgSections (a.pkg k).image) a.cfg with
      | some d => a.pkgEnter k 7 0x0A d
      | none => match a.pkgGroupDown results (pkgSections (a.pkg k).image) with
        | some d => a.pkgEnter k 7 0x13 d
        | none => a.pkgEnter k 3 0 0xFF) := by
  have hany : ¬ ((a.pkg k).dies.map (fun d => (d, a.dieLoad k results d))).any (fun p => match p.2 with
      | some v => loadSt v != 3 && loadSt v != 7
      | none => true) = true := by
    rw [Bool.not_eq_true, List.any_eq_false]
    intro p hp
    obtain ⟨d, hd, rfl⟩ := List.mem_map.mp hp
    obtain ⟨v, hv, hst⟩ := hall d hd
    rcases hst with h | h <;> simp [hv, h]
  exact (if_neg hany).trans rfl

omit hk in
theorem Pkg.judge_checked (hall : ∀ d ∈ (a.pkg k).dies, ∃ v, a.dieLoad k results d = some v ∧ loadSt v = 3) :
    Pkg.judge k results a = (match pkgLinkFail (pkgSections (a.pkg k).image) a.cfg with
      | some d => a.pkgEnter k 7 0x0A d
      | none => match a.pkgGroupDown results (pkgSections (a.pkg k).image) with
        | some d => a.pkgEnter k 7 0x13 d
        | none => a.pkgEnter k 3 0 0xFF) := by
  have hnone : ((a.pkg k).dies.map (fun d => (d, a.dieLoad k results d))).find? (fun p => (p.2.map loadSt) == some 7) = none := by
    refine List.find?_eq_none.mpr fun p hp => ?_
    obtain ⟨d, hd, rfl⟩ := List.mem_map.mp hp
    obtain ⟨v, hv, hst⟩ := hall d hd
    simp [hv, hst]
  rw [Pkg.judge_finished fun d hd => (hall d hd).imp fun v h => ⟨h.1, .inl h.2⟩, hnone]

omit hk in
theorem Pkg.judge_failed {d v : Nat} {rest : List Nat} (hdies : (a.pkg k).dies = d :: rest) (hv : a.dieLoad k results d = some v)
    (hfail : loadSt v = 7) (hrest : ∀ d' ∈ rest, ∃ v', a.dieLoad k results d' = some v' ∧ (loadSt v' = 3 ∨ loadSt v' = 7)) :
    Pkg.judge k results a = a.pkgEnter k 7 (loadCode v) d := by
  have hall : ∀ d' ∈ (a.pkg k).dies, ∃ v', a.dieLoad k results d' = some v' ∧ (loadSt v' = 3 ∨ loadSt v' = 7) := by
    rw [hdies]
    exact List.forall_mem_cons.mpr ⟨⟨v, hv, .inr hfail⟩, hrest⟩
  have hfind : ((a.pkg k).dies.map (fun d => (d, a.dieLoad k results d))).find? (fun p => (p.2.map loadSt) == some 7) = some (d, some v) := by
    rw [hdies, List.map_cons, hv]
    exact List.find?_cons_of_pos (by simp [hfail])
  rw [Pkg.judge_finished hall, hfind]
  rfl
end

/-! ## ARM and CANCEL -/

section
variable {acc : Access} {r : ObjRow} (hmay : s.MayWrite acc (Obj.pkgCtrl k) r)
include hmay

theorem exec_pkgArm_checked {s1 : State} (hx : x = s.pkg k) (hst : s.rd (.pkgState k) = 3)
    (hown : (x.dies.contains s.dieBits = false ∧ s1 = s) ∨ (x.dies.contains s.dieBits = true ∧ Sched.arm w s = .ok s1)) :
    exec (.pkgArm acc w) s = .next (((((s1.setPkg k { x with waiting := x.dies, largest := 0 }).pkgEnter k 4 0 0xFF).pkgCommand k
      1).setObj (Obj.pkgCtrl k) 1).written acc (Obj.pkgCtrl k) r.ty) := by
  subst hk hx
  refine congrArg Host.Outcome.next (State.serveKey_next (eff := fun _ => Pkg.arm w) hmay ((if_neg (Classical.not_not.mpr hst)).trans ?_))
  rcases hown with ⟨hfar, rfl⟩ | ⟨hhere, harm⟩
  · exact if_neg (by rw [hfar]; decide)
  · refine (if_pos hhere).trans ?_
    rw [harm]

theorem exec_pkgArm_refused (hst : s.rd (.pkgState k) ≠ 3) : exec (.pkgArm acc w) s =
    .next (s.abortRequest acc 2 (Obj.pkgCtrl k / 256) (Obj.pkgCtrl k % 256) 0 .badState) := by
  subst hk
  exact congrArg Host.Outcome.next (State.serveKey_refused (eff := fun _ => Pkg.arm w) hmay (if_pos hst))

theorem exec_pkgCancel_accepted (hst : s.rd (.pkgState k) = 3 ∨ s.rd (.pkgState k) = 4) : exec (.pkgCancel acc w) s =
    .next ((((s.pkgCancelAll w).pkgEnter k 0 0x11 0xFF).setObj (Obj.pkgCtrl k) 2).written acc (Obj.pkgCtrl k) r.ty) := by
  subst hk
  exact congrArg Host.Outcome.next (State.serveKey_next (eff := fun _ => Pkg.cancel w) hmay (if_pos hst))

theorem exec_pkgCancel_refused (hst : s.rd (.pkgState k) ≠ 3) (hst' : s.rd (.pkgState k) ≠ 4) : exec (.pkgCancel acc w) s =
    .next (s.abortRequest acc 2 (Obj.pkgCtrl k / 256) (Obj.pkgCtrl k % 256) 0 .badState) := by
  subst hk
  exact congrArg Host.Outcome.next (State.serveKey_refused (eff := fun _ => Pkg.cancel w) hmay (if_neg (by simp [hst, hst'])))
end

/-! ## The reports of the dies -/

section
variable {die : BitVec 6} (hfw : s.firmwareRuns = true) (hfrozen : s.frozen = false)
include hfw hfrozen

theorem exec_pkgDieReport_count {t : BitVec 32} {n : Nat} (hn : die.toNat ≠ s.dieBits ∧ n = t.toNat ∨
    die.toNat = s.dieBits ∧ s.rd (.ldState k) = 4 ∧ s.allStopped w = true ∧ n = s.largestCount w) :
    exec (.pkgDieReport w die (.count t)) s = .next (s.pkgCount w die.toNat n) := by
  subst hk
  have hopen : ¬ (!s.firmwareRuns ∨ s.frozen) := by simp [hfw, hfrozen]
  simp only [exec, execPkgDieReport, Pkg.report, if_neg hopen]
  rcases hn with ⟨hfar, rfl⟩ | ⟨hhere, hstate, hstopped, rfl⟩
  · rw [if_pos hfar]
  · rw [if_neg (Classical.not_not.mpr hhere), if_pos ⟨hstate, hstopped⟩]

theorem exec_pkgDieReport_status {v : BitVec 32} {n : Nat}
    (hn : die.toNat ≠ s.dieBits ∧ n = v.toNat ∨ die.toNat = s.dieBits ∧ n = (s.obj (Obj.loadStatus k)).toNat) :
    exec (.pkgDieReport w die (.status v)) s = .next (s.pkgShows w die.toNat n) := by
  subst hk
  have hopen : ¬ (!s.firmwareRuns ∨ s.frozen) := by simp [hfw, hfrozen]
  simp only [exec, execPkgDieReport, Pkg.report, if_neg hopen]
  rcases hn with ⟨hfar, rfl⟩ | ⟨hhere, rfl⟩
  · rw [if_pos hfar]
  · rw [if_neg (Classical.not_not.mpr hhere)]
end

include hx

theorem State.pkgCount_eq {die n : Nat} (hst : s.rd (.pkgState k) = 4) (hwaits : x.waiting.contains die = true)
    (hy : y = { x with waiting := x.waiting.erase die, largest := max x.largest n }) :
    s.pkgCount w die n = if y.waiting.isEmpty then (s.setPkg k y).pkgTarget w y.largest else s.setPkg k y := by
  subst hk hx hy
  have hopen : ¬ (s.rd (.pkgState w.toNat) ≠ 4 ∨ !(s.pkg w.toNat).waiting.contains die) := by rw [hst, hwaits]; decide
  exact if_neg hopen

section
variable {die n : Nat} (hmine : x.dies.contains die = true)
include hmine

theorem State.pkgShows_live (hst : s.rd (.pkgState k) = 5) (hlive : loadSt n = 6) (hlast : x.waiting = [die]) :
    s.pkgShows w die n = (s.setPkg k { x with waiting := [] }).pkgEnter k 6 0 0xFF := by
  subst hk hx
  have hopen : ¬ ((s.rd (.pkgState w.toNat) ≠ 4 ∧ s.rd (.pkgState w.toNat) ≠ 5) ∨ !(s.pkg w.toNat).dies.contains die) := by
    rw [hst, hmine]; decide
  have hfails : ¬ loadSt n = 7 := by rw [hlive]; decide
  have hcounts : loadSt n = 6 ∧ s.rd (.pkgState w.toNat) = 5 ∧ (s.pkg w.toNat).waiting.contains die = true := ⟨hlive, hst, by rw [hlast]; simp⟩
  have hnone : (s.pkg w.toNat).waiting.erase die = [] := by rw [hlast]; simp
  simp only [State.pkgShows, if_neg hopen, if_neg hfails, if_neg (fun h : _ ∧ _ => hfails h.1), if_pos hcounts, hnone]
  rfl

theorem State.pkgShows_lost (hst : s.rd (.pkgState k) = 4 ∨ s.rd (.pkgState k) = 5) (hfail : loadSt n = 7) (hcode : loadCode n = 0x10) :
    s.pkgShows w die n = s.abandonPackage k die := by
  subst hk hx
  have hopen : ¬ ((s.rd (.pkgState w.toNat) ≠ 4 ∧ s.rd (.pkgState w.toNat) ≠ 5) ∨ !(s.pkg w.toNat).dies.contains die) := by
    rcases hst with h | h <;> (rw [h, hmine]; decide)
  exact (if_neg hopen).trans (if_pos ⟨hfail, hcode⟩)

theorem State.pkgShows_failed (hst : s.rd (.pkgState k) = 4 ∨ s.rd (.pkgState k) = 5) (hfail : loadSt n = 7) (hcode : loadCode n ≠ 0x10) :
    s.pkgShows w die n = (if s.rd (.pkgState k) = 4 then s.pkgCancelAll w else s).pkgEnter k 7 (loadCode n) die := by
  subst hk hx
  have hopen : ¬ ((s.rd (.pkgState w.toNat) ≠ 4 ∧ s.rd (.pkgState w.toNat) ≠ 5) ∨ !(s.pkg w.toNat).dies.contains die) := by
    rcases hst with h | h <;> (rw [h, hmine]; decide)
  exact (if_neg hopen).trans ((if_neg fun h => hcode h.2).trans (if_pos hfail))
end
end

/-- PKG_STATUS of an image of this die alone shows what it enters, and nothing else changes. -/
theorem State.pkgEnter_alone {s : State} {k st code die : Nat} (hst : st < 8) (hcode : code < 32) (hdie : die < 256)
    (halone : ∀ d ∈ (s.pkg k).dies, d = s.dieBits) : (s.pkgEnter k st code die).rd (.pkgState k) = st ∧
    ∀ j, j ≠ Obj.pkgStatus k → (s.pkgEnter k st code die).obj j = s.obj j := by
  have hnone : (s.pkg k).dies.filter (fun d => d != s.dieBits) = [] := List.filter_eq_nil_iff.mpr fun d hd => by simp [halone d hd]
  have henter : s.pkgEnter k st code die = s.setObj (Obj.pkgStatus k) (BitVec.ofNat 64 (st * 2 ^ 29 + code * 2 ^ 24 + die * 2 ^ 16)) := by
    unfold State.pkgEnter
    rw [hnone]
    rfl
  rw [henter]
  refine ⟨?_, fun j hj => State.obj_setObj_ne _ _ hj⟩
  have hfield : fget (BitVec.ofNat 64 (st * 2 ^ 29 + code * 2 ^ 24 + die * 2 ^ 16)) 29 3 = st := by
    rw [fget_mod _ _ _ (by decide), BitVec.toNat_ofNat]
    omega
  exact (congrArg (fun v => fget v 29 3) (State.obj_setObj_same s (Obj.pkgStatus k) _)).trans hfield

/-- Settles O47. That a section which is refused fails the load with 0x02, and how the reports of other dies come, are the model's choices
(log entries 103, 132 and 171). -/
theorem packageImagesAreCheckedArmedAndSwapped : Obligations.PackageImagesAreCheckedArmedAndSwapped := by
  unfold Obligations.PackageImagesAreCheckedArmedAndSwapped
  intro s w k x hk hx
  refine ⟨fun results hst hfw hfrozen => ⟨exec_pkgLoadCheckComplete_container hk hx hst hfw hfrozen, fun a hgood ha =>
      ⟨fun d => exec_pkgLoadCheckComplete_lost hk hx hst hfw hfrozen hgood ha, fun hkept hsends => ?goes, fun y xs hkept hsends hy hxs => ?judged⟩⟩,
    fun acc r hmay => ⟨fun hst s1 => exec_pkgArm_checked hk hmay hx hst, exec_pkgArm_refused hk hmay, exec_pkgCancel_accepted hk hmay,
      exec_pkgCancel_refused hk hmay⟩,
    fun die hfw hfrozen => ⟨fun t n hn hst hwaits y hy => ?count, fun v n hn hmine => ?status⟩,
    fun st code die hst hcode hdie halone => State.pkgEnter_alone hst hcode hdie (hx ▸ halone)⟩
  case goes => rw [exec_pkgLoadCheckComplete_goes hk hx hst hfw hfrozen hgood ha hkept, if_pos (by simpa using hsends)]
  case judged =>
    subst hxs
    rw [exec_pkgLoadCheckComplete_goes hk hx hst hfw hfrozen hgood ha hkept, if_neg (by simp [hsends]), hy]
    refine ⟨fun hall => ⟨fun hlink hgroup => ?_, fun d hlink => ?_, fun d hlink hgroup => ?_⟩, fun d rest v hdies hv hfail hrest => ?_,
      fun d hd hbusy => ?_⟩
    · rw [Pkg.judge_checked hall, hlink, hgroup]
    · rw [Pkg.judge_checked hall, hlink]
    · rw [Pkg.judge_checked hall, hlink, hgroup]
    · rw [Pkg.judge_failed hdies hv hfail hrest]
    · rw [Pkg.judge_waits hd hbusy]
  case count =>
    rw [exec_pkgDieReport_count hk hfw hfrozen hn, State.pkgCount_eq hk hx hst hwaits hy]
    exact ⟨fun hmore => by rw [hmore, if_neg (by decide)], fun hlast => by rw [hlast, if_pos rfl]⟩
  case status =>
    rw [exec_pkgDieReport_status hk hfw hfrozen hn]
    refine ⟨fun hst hlive hlast => ?_, fun hst hfail hcode => ?_, fun hst hfail hcode => ?_, fun hst hfail hcode => ?_⟩
    · rw [State.pkgShows_live hk hx hmine hst hlive hlast]
    · rw [State.pkgShows_lost hk hx hmine hst hfail hcode]
    · rw [State.pkgShows_failed hk hx hmine (.inr hst) hfail hcode, if_neg (by rw [hst]; decide)]
    · rw [State.pkgShows_failed hk hx hmine (.inl hst) hfail hcode, if_pos hst]

end Sys2Proof.Machine
end

section
/-! PROOFS. The plat. -/

namespace Sys2Proof.Machine

section
variable {s : State} {v : BitVec 64} {key z : Nat}

theorem State.platAt_setPlat_platCount_same (s : State) (i : Nat) (v : BitVec 64) : ((s.setPlat i v).platCount).platAt i = v :=
  Tbl.get_set_same ..

theorem State.platAt_setPlat_platCount_ne (s : State) (v : BitVec 64) {i j : Nat} (h : j ≠ i) :
    ((s.setPlat i v).platCount).platAt j = s.platAt j :=
  Tbl.get_set_ne _ _ _ _ h

/-- What is read back but for the default stands in the table. -/
theorem Tbl.mem_of_get_ne {α : Type} {d : α} {i : Nat} : ∀ {t : Tbl α}, Tbl.get d t i ≠ d → ∃ e ∈ t, e.2 = Tbl.get d t i
  | [], h => (h rfl).elim
  | p :: t, h => by
    unfold Tbl.get at h ⊢
    split
    next => exact ⟨p, List.mem_cons_self .., rfl⟩
    next hne =>
      rw [if_neg hne] at h
      obtain ⟨e, he, heq⟩ := Tbl.mem_of_get_ne h
      exact ⟨e, List.mem_cons_of_mem _ he, heq⟩

/-- An entry that is read back valid stands in the table. -/
theorem State.mem_plat {i : Nat} (hvalid : fget (s.platAt i) 63 1 = 1) : ∃ e ∈ s.gat.plat, e.2 = s.platAt i :=
  Tbl.mem_of_get_ne fun hnone => by
    have hzero : s.platAt i = 0 := hnone
    rw [hzero] at hvalid
    cases hvalid

/-- A valid entry of the same segment shares its addresses. -/
theorem State.platOverlaps_of_entry {i : Nat} (hvalid : fget (s.platAt i) 63 1 = 1) (hkey : platFirst (s.platAt i) = key) : s.platOverlaps key z = true := by
  obtain ⟨e, he, heq⟩ := State.mem_plat hvalid
  have hpos : ∀ n, key < key + 2 ^ n := fun n => Nat.lt_add_of_pos_right (Nat.two_pow_pos n)
  refine List.any_eq_true.mpr ⟨e, he, ?_⟩
  rw [heq, hvalid, hkey]
  simp [hpos]

/-- The entry as it stands: valid, and not yet used. -/
theorem platEntry_shows (v : BitVec 64) : fget (fset (fset v 63 1 1) 16 1 0) 63 1 = 1 ∧ platSize (fset (fset v 63 1 1) 16 1 0) = platSize v ∧
    platFirst (fset (fset v 63 1 1) 16 1 0) = platFirst v := by
  unfold platSize platFirst
  refine ⟨?_, ?_, congrArg (· * 2 ^ 30) ?_⟩
  · rw [fget_fset_apart _ _ _ _ _ _ (by decide) (by decide) (by decide), fget_fset_same _ _ _ _ (by decide)] <;> rfl
  · rw [fget_fset_apart _ _ _ _ _ _ (by decide) (by decide) (by decide), fget_fset_apart _ _ _ _ _ _ (by decide) (by decide) (by decide)]
  · rw [fget_fset_apart _ _ _ _ _ _ (by decide) (by decide) (by decide), fget_fset_apart _ _ _ _ _ _ (by decide) (by decide) (by decide)]

/-- An entry that shares no address with another is the one that a lookup of its segment finds. -/
theorem State.platWay_inserted {i : Nat} (hkey : key = platFirst v) (hz : z = platSize v) (hfree : s.platOverlaps key z = false)
    (hway : i ∈ (List.range 4).map (fun w => 4 * platSet key z + w)) :
    ((s.setPlat i (fset (fset v 63 1 1) 16 1 0)).platCount).platWay key z = some i := by
  obtain ⟨hvalid, hsize, hfirst⟩ := platEntry_shows v
  have hfound := List.find?_isSome (xs := (List.range 4).map (fun w => 4 * platSet key z + w))
    (p := fun j => fget (((s.setPlat i (fset (fset v 63 1 1) 16 1 0)).platCount).platAt j) 63 1 == 1 &&
      platSize (((s.setPlat i (fset (fset v 63 1 1) 16 1 0)).platCount).platAt j) == z &&
      platFirst (((s.setPlat i (fset (fset v 63 1 1) 16 1 0)).platCount).platAt j) == key)
    |>.mpr ⟨i, hway, by simp [State.platAt_setPlat_platCount_same, hvalid, hsize, hfirst, hkey, hz]⟩
  obtain ⟨j, hj⟩ := Option.isSome_iff_exists.mp hfound
  refine hj.trans (congrArg some (Classical.byContradiction fun hne => ?_))
  have hthere := List.find?_some hj
  rw [State.platAt_setPlat_platCount_ne _ _ hne] at hthere
  simp only [Bool.and_eq_true, beq_iff_eq] at hthere
  obtain ⟨⟨hval, -⟩, hsame⟩ := hthere
  rw [State.platOverlaps_of_entry hval hsame] at hfree
  cases hfree

/-! ## PLAT_INSERT -/

section
variable {level : BitVec 2}

theorem Gate.insert_level (hmirror : fget v 17 1 = 1) (hlevel : level ≠ 3) : Gate.insert level v s = .error .level :=
  if_pos ⟨hmirror, hlevel⟩

theorem Gate.insert_outOfRange (hmirror : fget v 17 1 = 0) (hkey : key = platFirst v) (hz : z = platSize v)
    (hbad : 8 < z ∨ key % 2 ^ (30 + z) ≠ 0 ∨ fget v 0 16 = 0 ∨ key / 2 ^ 47 = (s.obj Obj.pkgNumber).toNat ∨ s.platOverlaps key z = true) :
    Gate.insert level v s = .error .outOfRange := by
  subst hkey hz
  exact (if_neg (by simp [hmirror])).trans (if_pos hbad)

section
variable (hmay : fget v 17 1 = 0 ∨ level = 3) (hkey : key = platFirst v) (hz : z = platSize v) (hsize : z ≤ 8) (halign : key % 2 ^ (30 + z) = 0)
  (htarget : fget v 0 16 ≠ 0) (hfar : key / 2 ^ 47 ≠ (s.obj Obj.pkgNumber).toNat) (hapart : s.platOverlaps key z = false)
include hmay hkey hz hsize halign htarget hfar hapart

/-- An entry in range: its ward and the ways of its set decide. -/
theorem Gate.insert_inRange : Gate.insert level v s = if !s.wardTakes (fget v 26 4) then .error .inUse
    else match ((List.range 4).map (fun w => 4 * platSet key z + w)).find? (fun i => fget (s.platAt i) 63 1 == 0) with
      | none => .error .exhausted
      | some i => .ok (s.setPlat i (fset (fset v 63 1 1) 16 1 0)).platCount := by
  subst hkey hz
  have hlevel : ¬ (fget v 17 1 = 1 ∧ level ≠ 3) := by rcases hmay with h | h <;> simp [h]
  have hrange : ¬ (8 < platSize v ∨ platFirst v % 2 ^ (30 + platSize v) ≠ 0 ∨ fget v 0 16 = 0 ∨
      platFirst v / 2 ^ 47 = (s.obj Obj.pkgNumber).toNat ∨ s.platOverlaps (platFirst v) (platSize v) = true) := by
    rintro (h | h | h | h | h)
    · exact absurd h (Nat.not_lt.mpr hsize)
    · exact h halign
    · exact htarget h
    · exact hfar h
    · rw [hapart] at h; cases h
  exact (if_neg hlevel).trans ((if_neg hrange).trans rfl)
end
end
end

/-- Settles O48. That a ward which takes no resources is refused with IN_USE is the model's choice (log entry 25), as is the lowest of the free
ways. -/
theorem thePlatMapsSegments : Obligations.ThePlatMapsSegments := by
  unfold Obligations.ThePlatMapsSegments
  intro s acc v r key z hkey hz
  refine ⟨fun hmay => ⟨fun hmirror hsize halign htarget hfar hapart htakes => ⟨fun i hway => ?inserted, fun hfull => ?exhausted⟩,
      fun hmirror hlevel => ?level, fun hmirror hbad => ?outOfRange, fun hmirror hsize halign htarget hfar hapart htakes => ?inUse⟩,
    fun hmay => ⟨fun i hway => ?removed, fun hnone => ?absent⟩, fun hmay => ?query⟩
  case inserted =>
    refine ⟨_, congrArg _ (State.serveKey_next (eff := fun _ => Gate.insert acc.level v) hmay ?_), rfl,
      State.platWay_inserted hkey hz hapart (List.mem_of_find?_eq_some hway), fun j => State.platAt_setPlat_platCount_ne _ _⟩
    rw [Gate.insert_inRange hmirror hkey hz hsize halign htarget hfar hapart, htakes, hway]
    rfl
  case exhausted =>
    refine congrArg _ (State.serveKey_refused (eff := fun _ => Gate.insert acc.level v) hmay ?_)
    rw [Gate.insert_inRange hmirror hkey hz hsize halign htarget hfar hapart, htakes, hfull]
    rfl
  case level => exact congrArg _ (State.serveKey_refused (eff := fun _ => Gate.insert acc.level v) hmay (Gate.insert_level hmirror hlevel))
  case outOfRange =>
    exact congrArg _ (State.serveKey_refused (eff := fun _ => Gate.insert acc.level v) hmay (Gate.insert_outOfRange hmirror hkey hz hbad))
  case inUse =>
    refine congrArg _ (State.serveKey_refused (eff := fun _ => Gate.insert acc.level v) hmay ?_)
    rw [Gate.insert_inRange (.inl hmirror) hkey hz hsize halign htarget hfar hapart, htakes]
    rfl
  case removed =>
    subst hkey hz
    refine congrArg _ (State.serveKey_next (eff := fun _ => Gate.remove v) hmay ?_)
    rw [Gate.remove, hway]
  case absent =>
    subst hkey hz
    refine congrArg _ (State.serveKey_refused (eff := fun _ => Gate.remove v) hmay ?_)
    rw [Gate.remove, hnone]
  case query => exact congrArg _ (State.serveKey_next (eff := fun _ => storeVal Obj.platQuery v) hmay rfl)

end Sys2Proof.Machine
end

section
/-! PROOFS. Requests and block-internal messages at a gate, and its egress. -/

namespace Sys2Proof.Machine

/-! ## The state of a gate -/

theorem State.gate_setGate_same (s : State) (g : Nat) (x : Gate) : (s.setGate g x).gate g = x := Tbl.get_set_same ..

theorem State.gate_emit (s : State) (e : Emission) (g : Nat) : (s.emit e).gate g = s.gate g := rfl

theorem State.gate_setTinit (s : State) (u : Nat) (i : TInit) (g : Nat) : (s.setTinit u i).gate g = s.gate g := rfl

theorem State.gate_setSlot (s : State) (u : Nat) (x y : Slot) (g : Nat) : (s.setSlot u x y).gate g = s.gate g := rfl

/-- The connection that a table of connections holds for its peer, once it has been put there. -/
theorem find_map_conn (c : GConn) (conns : List GConn) (hany : conns.any (fun d => d.peer == c.peer) = true) :
    (conns.map (fun d => if d.peer = c.peer then c else d)).find? (fun d => d.peer == c.peer) = some c := by
  induction conns with
  | nil => cases hany
  | cons d ds ih =>
    by_cases hd : d.peer = c.peer
    · simp [hd]
    · have hrest : ds.any (fun d => d.peer == c.peer) = true := by simpa [hd] using hany
      simpa [hd] using ih hrest

theorem Gate.conn_setConn_same (x : Gate) (c : GConn) : (x.setConn c).conn c.peer = some c := by
  unfold Gate.setConn Gate.conn
  split
  next hany => exact find_map_conn c x.conns hany
  next hnone =>
    have hfind : x.conns.find? (fun d => d.peer == c.peer) = none := by
      refine List.find?_eq_none.mpr fun d hd hp => hnone (List.any_eq_true.mpr ⟨d, hd, hp⟩)
    simp [hfind]

theorem GConn.cls_setCls_same (c : GConn) (i : Nat) (k : GClass) : (c.setCls i k).cls i = k := Tbl.get_set_same ..

section
variable {s : State} {g n : Nat} (hunit : s.cfg.unitAt 2 g = some n) (hmoves : s.moves n = true)
include hunit hmoves

/-! ## Requests -/

section
variable {x : Slot} {p : TPkt} (hnext : nextSlot (s.target (0x80 + g)).slots [] = some x) (hrq : x.rq = some p)
  (hdata : x.data = none ∨ ∃ d, x.data = some d ∧ d.status = 0)
include hnext hrq hdata

theorem exec_gateRequestAccept : exec (.gateRequestAccept g []) s = .next ((s.lookupRequest g n [] x p).touch n) := by
  have hmoves' : ¬ (!s.moves n) = true := by simp [hmoves]
  have hwhole : ¬ (match x.data with
      | some d => d.status != 0
      | none => false) = true := by
    rcases hdata with h | ⟨d, h, hd⟩ <;> rw [h]
    · decide
    · simp [hd]
  simp only [exec, execGateRequestAccept, Gate.requestAccept, hunit, if_neg hmoves', hnext, hrq]
  exact congrArg _ (if_neg hwhole)

theorem exec_gateRequestAccept_unmapped (hmiss : s.platLookup p.addr.toNat = none) : exec (.gateRequestAccept g []) s =
    .next ((s.slotAnswer (0x80 + g) p.src p.tag p.gen Status.noTarget []).touch n) := by
  rw [exec_gateRequestAccept hunit hmoves hnext hrq hdata, State.lookupRequest, hmiss]

theorem exec_gateRequestAccept_mapped {i : Nat} (hhit : s.platLookup p.addr.toNat = some i) (hinj : s.storeInjected n 6 = false) :
    exec (.gateRequestAccept g []) s = .next ((s.judgeRequest g (s.platAt i) x p).touch n) := by
  rw [exec_gateRequestAccept hunit hmoves hnext hrq hdata, State.lookupRequest, hhit]
  simp only [State.storeDecode_clean hinj, State.storeRead_clean hinj]
  rfl
end

omit hunit hmoves

theorem State.judgeRequest_otherWard {v : BitVec 64} {x : Slot} {p : TPkt} (htile : s.fromTile p = false) (hward : fget v 26 4 ≠ p.ward.toNat) :
    s.judgeRequest g v x p = s.refuseSlot (0x80 + g) p :=
  if_pos (by simp [htile, hward])

/-- A request of the entry's ward, or of the tile: the right decides. -/
theorem State.judgeRequest_right {v : BitVec 64} {x : Slot} {p : TPkt}
    (hward : s.fromTile p = true ∨ (fget v 26 4 = p.ward.toNat ∧ s.wardReclaiming p.ward = false)) (hplain : isCoherentOp p.op = false) :
    s.judgeRequest g v x p = if fget v (platRight p.op) 1 = 0 then s.refuseSlot (0x80 + g) p else s.sendRequest g v x p := by
  have hown : ¬ (!s.fromTile p && (fget v 26 4 != p.ward.toNat || s.wardReclaiming p.ward)) = true := by
    rcases hward with h | ⟨h, h'⟩
    · simp [h]
    · simp [h, h']
  exact (if_neg hown).trans (if_neg (by rw [hplain]; decide))

theorem State.queue_gateQueue (s : State) (g : Nat) (p : FPkt) (free : Bool) : ((s.gateQueue g p free).gate g).queue = (s.gate g).queue ++ [⟨p, free⟩] := by
  unfold State.gateQueue
  rw [State.gate_setGate_same]

theorem State.objs_gateQueue (s : State) (g : Nat) (p : FPkt) (free : Bool) : (s.gateQueue g p free).objs = s.objs := rfl

theorem State.objs_setTinit (s : State) (u : Nat) (i : TInit) : (s.setTinit u i).objs = s.objs := rfl

theorem State.objs_setSlot (s : State) (u : Nat) (x y : Slot) : (s.setSlot u x y).objs = s.objs := rfl

section
variable {tag : BitVec 10} (htag : (s.tinit (0x180 + g)).freeTag 1024 = some tag) (v : BitVec 64) (x : Slot) (p : TPkt)
include htag

theorem State.sendRequest_queue : ((s.sendRequest g v x p).gate g).queue =
    (s.gate g).queue ++ [⟨s.reqPacket g v x p tag (Tbl.get 0 (s.tinit (0x180 + g)).gens tag.toNat), false⟩] := by
  unfold State.sendRequest
  simp only [htag]
  rw [State.queue_gateQueue, State.gate_setTinit, State.gate_setSlot]

theorem State.sendRequest_objs : (s.sendRequest g v x p).objs = s.objs := by
  unfold State.sendRequest
  simp only [htag]
  rw [State.objs_gateQueue, State.objs_setTinit, State.objs_setSlot]
end

/-! ## Block-internal messages -/

include hunit hmoves

theorem exec_gateCtlAccept {h : BitVec 72} {t : List (BitVec 72)} {peer : BitVec 22} (htype : h.extractLsb' 70 2 = 2) (hto : h.extractLsb' 64 2 = 3)
    (hlen : t.length ≤ 4) : exec (.gateCtlAccept g peer (h :: t)) s = .next (if 64 ≤ (s.gate g).ctlWaiting
      then s.refuse n 5 (asmMessage h t) Nak.queueFull
      else (s.gateQueue g (s.ctlPacket g peer (h.extractLsb' 66 4) (h :: t)) false).touch n) := by
  have hopen : ¬ (!s.moves n ∨ h.extractLsb' 70 2 ≠ 2 ∨ h.extractLsb' 64 2 ≠ 3 ∨ 5 < (h :: t).length) := by
    simp [hmoves, htype, hto]
    omega
  simp only [exec, execGateCtlAccept, Gate.ctlAccept, hunit, if_neg hopen]

/-! ## The egress -/

omit hmoves

/-- The gate as the scheduler leaves it: its turn and deficit among the classes, and a collective's channel among the channels. -/
def State.egressTurn (s : State) (g c : Nat) (d : Tbl Nat) (pick : GPick) : Gate :=
  match (if c = 3 then (match pick with
    | .fresh _ => (s.collChoice g (s.gate g)).map (·.2)
    | _ => none) else none) with
  | some (i, cd) => { (if c = 0 then s.gate g else { s.gate g with turn := c, deficit := d }) with chanTurn := i, chanDeficit := cd }
  | none => if c = 0 then s.gate g else { s.gate g with turn := c, deficit := d }

theorem exec_gateEgressSend {c k : Nat} {d : Tbl Nat} {q : GPick} {s1 : State} (hsends : s.gateSends g n = true) (hclass : s.gateClass g = some (c, d))
    (hpick : s.gatePick g c = some (q, k)) (hs1 : s1 = s.setGate g (s.egressTurn g c d q)) :
    exec (.gateEgressSend g) s = .next ((((match q with
      | .again peer seq => s1.sendAgain g n c peer seq
      | .ack peer => s1.sendAck g c peer
      | .fresh q => s1.sendFresh g q).touch n)).collSettle g) := by
  subst hs1
  have hsends' : ¬ (!s.gateSends g n) = true := by simp [hsends]
  simp only [exec, execGateEgressSend, Gate.egressSend, hunit, if_neg hsends', hclass, hpick]
  rfl

omit hunit

theorem State.egressTurn_ctl (d : Tbl Nat) (q : GPick) : s.egressTurn g 0 d q = s.gate g := rfl

theorem State.egressTurn_plain {c : Nat} {d : Tbl Nat} {q : GPick} (hc : c ≠ 0) (hplain : c ≠ 3 ∨ ∀ x, q ≠ .fresh x) :
    s.egressTurn g c d q = { s.gate g with turn := c, deficit := d } := by
  have hnone : (if c = 3 then (match q with
      | .fresh _ => (s.collChoice g (s.gate g)).map (·.2)
      | _ => none) else none) = none := by
    rcases hplain with h | h
    · exact if_neg h
    · cases q with
      | again peer seq => exact ite_self ..
      | ack peer => exact ite_self ..
      | fresh x => exact (h x rfl).elim
  unfold State.egressTurn
  rw [hnone]
  exact if_neg hc

theorem State.egressTurn_channel {d cd : Tbl Nat} {i : Nat} {x y : GQueued} (hchoice : s.collChoice g (s.gate g) = some (y, i, cd)) :
    s.egressTurn g 3 d (.fresh x) = { s.gate g with turn := 3, deficit := d, chanTurn := i, chanDeficit := cd } := by
  simp only [State.egressTurn, hchoice]
  rfl

/-- A new packet of an open connection, as it leaves. -/
def State.freshPacket (s : State) (g : Nat) (q : GQueued) (k : GConn) (id : BitVec 16) : FPkt :=
  s.stamped g k.path { q.pkt with seq := (k.cls q.pkt.cls).next, conn := id }

/-- The connection after it. -/
def State.freshConn (s : State) (g : Nat) (q : GQueued) (k : GConn) (id : BitVec 16) : GConn :=
  { (k.setCls q.pkt.cls { k.cls q.pkt.cls with next := (k.cls q.pkt.cls).next + 1, sent := (k.cls q.pkt.cls).sent ++
      [⟨{ s.freshPacket g q k id with mirror := q.pkt.mirror }, 1, s.retxDue g, 0, false⟩] })
    with used := s.gateNow
         path := if (s.freshPacket g q k id).spray then s.pathAfter g (s.freshPacket g q k id).path else k.path }

theorem State.sendFresh_open {q : GQueued} {k : GConn} {id : BitVec 16} (hconn : (s.gate g).conn q.pkt.dst = some k) (hmine : k.mine = some id)
    (hfree : q.free = false) : s.sendFresh g q =
      ((s.setGate g { s.gate g with queue := (s.gate g).queue.erase q }).setGate g
        ({ s.gate g with queue := (s.gate g).queue.erase q }.setConn (s.freshConn g q k id))).emit (.frame g (s.freshPacket g q k id).bytes) := by
  have hopen : (s.setGate g { s.gate g with queue := (s.gate g).queue.erase q }).gateOpen g q.pkt.dst =
      ({ s.gate g with queue := (s.gate g).queue.erase q }, k) := by
    have hconn' : ({ s.gate g with queue := (s.gate g).queue.erase q } : Gate).conn q.pkt.dst = some k := hconn
    simp only [State.gateOpen, State.gate_setGate_same, hconn', Option.getD_some, hmine]
  simp only [State.sendFresh, hfree, hopen, hmine]
  rfl

theorem State.sendFresh_kept {q : GQueued} {k : GConn} {id : BitVec 16} (hconn : (s.gate g).conn q.pkt.dst = some k) (hmine : k.mine = some id)
    (hfree : q.free = false) : ((s.sendFresh g q).gate g).conn q.pkt.dst = some (s.freshConn g q k id) := by
  have hpeer : q.pkt.dst = (s.freshConn g q k id).peer := (eq_of_beq (List.find?_some (p := fun c : GConn => c.peer == q.pkt.dst) (l := (s.gate g).conns) hconn)).symm
  rw [State.sendFresh_open hconn hmine hfree, State.gate_emit, State.gate_setGate_same, hpeer]
  exact Gate.conn_setConn_same ..

theorem State.freshConn_cls (q : GQueued) (k : GConn) (id : BitVec 16) : (s.freshConn g q k id).cls q.pkt.cls =
    { k.cls q.pkt.cls with next := (k.cls q.pkt.cls).next + 1, sent := (k.cls q.pkt.cls).sent ++
      [⟨{ s.freshPacket g q k id with mirror := q.pkt.mirror }, 1, s.retxDue g, 0, false⟩] } :=
  GConn.cls_setCls_same ..
end

/-- Settles O49. -/
theorem requestsLeaveAsPackets : Obligations.RequestsLeaveAsPackets := by
  unfold Obligations.RequestsLeaveAsPackets
  intro s g n hunit hmoves
  refine ⟨fun x p hnext hrq hdata => ⟨exec_gateRequestAccept_unmapped hunit hmoves hnext hrq hdata, fun i v hhit hv hinj =>
      ⟨fun htile hward => ?otherWard, fun hward hplain => ?right⟩⟩,
    fun v x p htag => ?queued, fun h t peer htype hto hlen => ⟨fun hroom => ?ctl, fun hfull => ?full⟩,
    fun c d q k s1 hsends hclass hpick hctl hturn hchan => ?egress, fun q k id hconn hmine hfree => ?fresh⟩
  case otherWard => rw [exec_gateRequestAccept_mapped hunit hmoves hnext hrq hdata hhit hinj, State.judgeRequest_otherWard htile (hv ▸ hward)]
  case right =>
    subst hv
    rw [exec_gateRequestAccept_mapped hunit hmoves hnext hrq hdata hhit hinj, State.judgeRequest_right hward hplain]
    exact ⟨fun hno => by rw [if_pos hno], fun hyes => by rw [if_neg (by omega)]⟩
  case queued =>
    obtain ⟨tag, htag⟩ := Option.ne_none_iff_exists'.mp htag
    exact ⟨_, State.sendRequest_queue htag v x p, rfl, rfl, rfl, rfl, rfl, State.sendRequest_objs htag v x p⟩
  case ctl => rw [exec_gateCtlAccept hunit hmoves htype hto hlen, if_neg (Nat.not_le.mpr hroom)]
  case full => rw [exec_gateCtlAccept hunit hmoves htype hto hlen, if_pos hfull]
  case egress =>
    refine exec_gateEgressSend hunit hsends hclass hpick ?_
    by_cases hc : c = 0
    · subst hc
      exact hctl rfl
    · by_cases hplain : c ≠ 3 ∨ ∀ x, q ≠ .fresh x
      · rw [State.egressTurn_plain hc hplain]
        exact hturn hc hplain
      · obtain ⟨hthree, hfresh⟩ := not_or.mp hplain
        obtain rfl := Classical.not_not.mp hthree
        obtain ⟨x, hx⟩ := Classical.not_forall.mp hfresh
        obtain rfl := Classical.not_not.mp hx
        obtain ⟨y, i, cd, hchoice, hs1⟩ := hchan x rfl rfl
        rw [State.egressTurn_channel hchoice]
        exact hs1
  case fresh =>
    refine ⟨s.freshPacket g q k id, s.freshConn g q k id, ?_, rfl, rfl, rfl, rfl, State.sendFresh_kept hconn hmine hfree, ?_, rfl,
      ⟨{ s.freshPacket g q k id with mirror := q.pkt.mirror }, 1, s.retxDue g, 0, false⟩, ?_, rfl, rfl⟩
    · rw [State.sendFresh_open hconn hmine hfree]
      rfl
    · rw [State.freshConn_cls]
    · rw [State.freshConn_cls]

end Sys2Proof.Machine
end

section
/-! PROOFS. Packets at a gate: their receiver, acknowledgements, timers and the line. -/

namespace Sys2Proof.Machine

theorem GConn.cls_setCls_ne (c : GConn) (k : GClass) {i j : Nat} (h : j ≠ i) : (c.setCls i k).cls j = c.cls j := Tbl.get_set_ne _ _ _ _ h

theorem GConn.cls_used (c : GConn) (t i : Nat) : ({ c with used := t } : GConn).cls i = c.cls i := rfl

/-! ## Acknowledgements -/

theorem growWindow_bounds (f : Nat) : ∀ w a, 4 ≤ w → w ≤ 512 → 4 ≤ (growWindow f w a).1 ∧ (growWindow f w a).1 ≤ 512 := by
  induction f with
  | zero => exact fun w a h h' => ⟨h, h'⟩
  | succ f ih =>
    intro w a h h'
    unfold growWindow
    split
    · exact ⟨h, h'⟩
    · exact ih _ _ (by omega) (by omega)

/-- What an acknowledgement covers is no longer kept. -/
theorem GClass.acked_sent (k : GClass) (cum : BitVec 32) (sack : BitVec 64) (echo : Bool) (limit : Nat) {e : GSent}
    (he : e ∈ (k.acked cum sack echo limit).sent) : ackCovers cum sack e.pkt.seq = false := by
  unfold GClass.acked at he
  obtain ⟨e', he', rfl⟩ := List.mem_map.mp he
  obtain ⟨-, hleft⟩ := List.mem_filter.mp he'
  have hkept : ackCovers cum sack e'.pkt.seq = false := by simpa using hleft
  dsimp only
  split
  · split
    · exact hkept
    · exact hkept
  · exact hkept

theorem GClass.acked_window (k : GClass) (cum : BitVec 32) (sack : BitVec 64) (echo : Bool) (limit : Nat) (hlow : 4 ≤ k.window) (hhigh : k.window ≤ 512) :
    4 ≤ (k.acked cum sack echo limit).window ∧ (k.acked cum sack echo limit).window ≤ 512 := by
  unfold GClass.acked
  extract_lets left later w may
  obtain ⟨hl, hh⟩ := growWindow_bounds 32 k.window (k.grown + (k.sent.length - left.length)) hlow hhigh
  dsimp only
  split
  · exact ⟨Nat.le_max_left .., Nat.max_le.mpr ⟨by decide, Nat.le_trans (Nat.div_le_self ..) hh⟩⟩
  · exact ⟨hl, hh⟩

/-! ## The reorder share -/

/-- A connection opened afresh holds no packet, and wants the first. -/
theorem GConn.reopened_cls (k : GConn) (id : BitVec 16) {c : Nat} (hc : c < 4) : ((k.reopened id).cls c).held = [] ∧ ((k.reopened id).cls c).want = 0 := by
  have hrange : List.range 4 = [0, 1, 2, 3] := by decide
  unfold GConn.reopened
  rw [hrange]
  simp only [List.foldl_cons, List.foldl_nil]
  obtain rfl | rfl | rfl | rfl : c = 0 ∨ c = 1 ∨ c = 2 ∨ c = 3 := by omega
  · rw [GConn.cls_setCls_ne _ _ (by decide), GConn.cls_setCls_ne _ _ (by decide), GConn.cls_setCls_ne _ _ (by decide), GConn.cls_setCls_same]
    exact ⟨rfl, rfl⟩
  · rw [GConn.cls_setCls_ne _ _ (by decide), GConn.cls_setCls_ne _ _ (by decide), GConn.cls_setCls_same]
    exact ⟨rfl, rfl⟩
  · rw [GConn.cls_setCls_ne _ _ (by decide), GConn.cls_setCls_same]
    exact ⟨rfl, rfl⟩
  · rw [GConn.cls_setCls_same]
    exact ⟨rfl, rfl⟩

section
variable {s : State} {g : Nat} {k : GConn} {p : FPkt}

theorem State.takeSeq_afresh (hconn : (s.gate g).conn p.src = some k) (hfirst : p.seq = 0)
    (hnew : ∀ t, k.theirs = some t → t ≠ p.conn ∧ newerConn p.conn t = true) :
    s.takeSeq g p = (s.setGate g ((s.gate g).setConn (k.reopened p.conn))).reorder g (k.reopened p.conn) p := by
  unfold State.takeSeq
  simp only [hconn]
  split
  next t ht => exact (if_neg (hnew t ht).1).trans (if_pos ⟨(hnew t ht).2, hfirst⟩)
  next => exact if_pos hfirst

theorem State.takeSeq_known (hconn : (s.gate g).conn p.src = some k) (htheirs : k.theirs = some p.conn) : s.takeSeq g p = s.reorder g k p := by
  simp only [State.takeSeq, hconn, htheirs, if_true]

/-- A packet within the window that has not come before, and for which the share has room, is kept in its place. -/
theorem State.reorder_holds (hnear : (p.seq - (k.cls p.cls).want).toNat < 4096) (hfresh : (k.cls p.cls).held.any (fun q => q.seq == p.seq) = false)
    (hroom : (s.gate g).heldBytes p.cls + p.size ≤ classShare p.cls) : ∃ k', s.reorder g k p = s.setGate g ((s.gate g).setConn k') ∧ k'.peer = k.peer ∧
    (k'.cls p.cls).held = (k.cls p.cls).held ++ [p] ∧ (k'.cls p.cls).want = (k.cls p.cls).want := by
  have hdup : ¬ (2 ^ 31 ≤ (p.seq - (k.cls p.cls).want).toNat ∨ (k.cls p.cls).held.any (fun q => q.seq == p.seq) = true) := by
    rw [hfresh]
    simp only [Bool.false_eq_true, or_false]
    omega
  have hfits : ¬ (4096 ≤ (p.seq - (k.cls p.cls).want).toNat ∨ classShare p.cls < (s.gate g).heldBytes p.cls + p.size) := by omega
  refine ⟨_, (if_neg hdup).trans (if_neg hfits), rfl, ?_, ?_⟩
  · rw [GConn.cls_used, GConn.cls_setCls_same]
  · rw [GConn.cls_used, GConn.cls_setCls_same]

theorem Gate.conn_peer {x : Gate} {peer : BitVec 22} (hconn : x.conn peer = some k) : k.peer = peer :=
  eq_of_beq (List.find?_some (p := fun c : GConn => c.peer == peer) (l := x.conns) hconn)

theorem Gate.conn_dropConn (x : Gate) (peer : BitVec 22) : (x.dropConn peer).conn peer = none :=
  List.find?_eq_none.mpr fun c hc => by simpa [Gate.dropConn] using (List.mem_filter.mp hc).2
end

/-! ## Packets that arrive -/

section
variable {s : State} {g n : Nat}

theorem exec_fabricPacketReceive {bs : List Byte} {t : State} {lost : Option (BitVec 22)} (h : Gate.packetReceive g bs s = (t, lost)) :
    exec (.fabricPacketReceive g bs) s = .next (match lost with
      | some peer => (t.collPeerLost g peer).collSettle g
      | none => t.collSettle g) := by
  simp only [exec, execFabricPacketReceive, Gate.fabricReceive, h]
  cases lost <;> rfl

section
variable (hunit : s.cfg.unitAt 2 g = some n) (hrun : s.running = true)
include hunit hrun

section
variable {bs : List Byte} (hlost : s.junctionLost n = false) (hup : s.rd (.gateLinkUp g) = 1) (hon : s.rd (.gateEnable g) = 1)
include hlost hup hon

omit hunit in
theorem packetReceive_open : ¬ (!s.running ∨ s.junctionLost n ∨ s.rd (.gateLinkUp g) = 0 ∨ s.rd (.gateEnable g) = 0) := by
  simp [hrun, hlost, hup, hon]

theorem Gate.packetReceive_held (hheld : s.adapterHeld n .b = true) : Gate.packetReceive g bs s = (s.bump (.bDiscards n) 1, none) := by
  simp only [Gate.packetReceive, hunit, if_neg (packetReceive_open hrun hlost hup hon), if_pos hheld]

section
variable {p : FPkt} {s1 : State} (hheld : s.adapterHeld n .b = false) (hinj : s.injectedAt 0x0A n 5 0x3F = false) (hp : p = FPkt.ofBytes bs)
  (hs1 : s1 = (if s.regionStateOf (s.regionOf n) = 4 then s.wakeAt n else s))
include hheld hinj hp hs1

/-- A packet that has arrived: its codes and form, then its destination, then what it is. -/
theorem Gate.packetReceive_arrived : Gate.packetReceive g bs s =
    if !fabricCodes bs || !fabricForm bs then (s1.bump (.gateCheck g) 1, none)
    else if p.dst ≠ s.gateName g then ((s1.bump (.gateCheck g) 1).raise (Cause.atUnit (0x080 + g) none n 5 0x3F 0xFFFF), none)
    else (((s1.takePacket g p).1.gateDeliver g).touch n, if (s1.takePacket g p).2 then some p.src else none) := by
  subst hp hs1
  have hheld' : ¬ s.adapterHeld n .b = true := by simp [hheld]
  simp only [Gate.packetReceive, hunit, if_neg (packetReceive_open hrun hlost hup hon), if_neg hheld', hinj, Bool.false_or]
  rfl
end
end
end

/-! ## Timers -/

section
variable {peer : BitVec 22} {c : BitVec 2} {k : GConn} {s1 : State} (hconn : (s.gate g).conn peer = some k)
include hconn

theorem exec_ackDelayExpire {t : Nat} (hdue : (k.cls c.toNat).ackDue = some t) (htime : s.gateDue t = some s1) : exec (.ackDelayExpire g peer c) s =
    .next (s1.setGate g ((s1.gate g).setConn (k.setCls c.toNat { k.cls c.toNat with ackDue := none, ackNow := true }))) := by
  simp only [exec, execAckDelayExpire, Gate.ackDelay, hconn, hdue, htime]

section
variable {e : GSent} {seq : BitVec 32} (hsent : (k.cls c.toNat).sent.find? (fun e => e.pkt.seq == seq) = some e) (hup : s.rd (.gateLinkUp g) = 1)
  (hwaits : e.again = false) (htime : s.gateDue e.due = some s1)
include hsent hup hwaits htime

theorem exec_retxTimeoutExpire_lost (hspent : s.rd (.retxLimit g) < e.times) : exec (.retxTimeoutExpire g peer c seq) s =
    .next (((s1.peerLost g peer).collPeerLost g peer).collSettle g) := by
  have hopen : ¬ (s.rd (.gateLinkUp g) = 0 ∨ e.again = true) := by simp [hup, hwaits]
  simp only [exec, execRetxTimeoutExpire, Gate.retxExpire, Gate.retxTimeout, hconn, hsent, if_neg hopen, htime, if_pos hspent, if_true]

theorem exec_retxTimeoutExpire_again (hleft : e.times ≤ s.rd (.retxLimit g)) {k' : GConn}
    (hk' : k' = k.mapSent c.toNat (fun y => if y = e then { e with again := true } else y)) : exec (.retxTimeoutExpire g peer c seq) s =
    .next (s1.setGate g ((s1.gate g).setConn (k'.setCls c.toNat { k'.cls c.toNat with window := 4 }))) := by
  subst hk'
  have hopen : ¬ (s.rd (.gateLinkUp g) = 0 ∨ e.again = true) := by simp [hup, hwaits]
  simp only [exec, execRetxTimeoutExpire, Gate.retxExpire, Gate.retxTimeout, hconn, hsent, if_neg hopen, htime, if_neg (Nat.not_lt.mpr hleft)]
  rfl
end

theorem exec_connectionIdleExpire (hidle : ∀ c < 4, (k.cls c).sent = [] ∧ (k.cls c).ackDue = none ∧ (k.cls c).ackNow = false)
    (htime : s.gateDue (k.used + 1000000) = some s1) : exec (.connectionIdleExpire g peer) s = .next (s1.setGate g ((s1.gate g).dropConn peer)) := by
  have hopen : ¬ (List.range 4).any (fun c => !(k.cls c).sent.isEmpty || (k.cls c).ackDue.isSome || (k.cls c).ackNow) = true := by
    rw [Bool.not_eq_true, List.any_eq_false]
    intro c hc
    obtain ⟨hsent, hdue, hnow⟩ := hidle c (List.mem_range.mp hc)
    simp [hsent, hdue, hnow]
  simp only [exec, execConnectionIdleExpire, Gate.idleExpire, hconn, if_neg hopen, htime]
end

/-! ## GATE_CFG and the line -/

section
variable {x : Val}

theorem Gate.setCfg_outOfRange (hhop : fget x 16 8 = 0) : Gate.setCfg g x s = .error .outOfRange := by
  simp only [Gate.setCfg, Gate.writeCfg, if_pos hhop]

theorem Gate.setCfg_enabled (hhop : fget x 16 8 ≠ 0) (hon : fget x 31 1 = 1) : Gate.setCfg g x s = .ok ((s.setObj (Obj.gateCfg g) x).collSettle g) := by
  have hoff : ¬ fget x 31 1 = 0 := by omega
  simp only [Gate.setCfg, Gate.writeCfg, if_neg hhop, if_neg hoff, List.foldl_nil]

theorem Gate.setCfg_disabled (hhop : fget x 16 8 ≠ 0) (hoff : fget x 31 1 = 0) : Gate.setCfg g x s =
    .ok ((((s.gate g).conns.map (·.peer)).foldl (fun (a : State) p => a.collPeerLost g p)
      ((s.setObj (Obj.gateCfg g) x).setGate g { s.gate g with conns := [] })).collSettle g) := by
  simp only [Gate.setCfg, Gate.writeCfg, if_neg hhop, if_pos hoff]
  rfl
end

section
variable (hunit : s.cfg.unitAt 2 g = some n) (hrun : s.running = true)
include hunit hrun

theorem exec_gateLineDown : exec (.gateLineDown g) s = .next (s.wr (.gateLinkUp g) 0) := by
  have hopen : ¬ ((s.cfg.unitAt 2 g).isNone ∨ !s.running) := by simp [hunit, hrun]
  exact congrArg Host.Outcome.next (if_neg hopen)

/-- The gate with what waits unacknowledged marked to be sent again. -/
def State.gateAgain (s : State) (g : Nat) : Gate :=
  { s.gate g with conns := (s.gate g).conns.map (fun k => (List.range 4).foldl (fun (a : GConn) c =>
    a.mapSent c (fun e => if e.times ≤ s.rd (.retxLimit g) then { e with again := true } else { e with due := s.retxDue g })) k) }

theorem exec_gateLineUp (hdown : s.rd (.gateLinkUp g) = 0) : exec (.gateLineUp g) s =
    .next ((s.setGate g (s.gateAgain g)).wr (.gateLinkUp g) 1) := by
  have hopen : ¬ ((s.cfg.unitAt 2 g).isNone ∨ !s.running ∨ s.rd (.gateLinkUp g) = 1) := by simp [hunit, hrun, hdown]
  exact congrArg Host.Outcome.next (if_neg hopen)
end

theorem State.gate_wr (s : State) (f : Fld) (v g : Nat) : (s.wr f v).gate g = s.gate g := rfl
end

/-- Settles O50. That ENABLE 0 drops connections without a raise or a count, and the code for HOP_LIMIT 0, are the model's choices (log
entry 109). -/
theorem packetsAreCheckedAcknowledgedAndRepeated : Obligations.PacketsAreCheckedAcknowledgedAndRepeated := by
  unfold Obligations.PacketsAreCheckedAcknowledgedAndRepeated
  intro s g n hunit hrun
  refine ⟨fun bs p s1 hlost hup hon hheld hinj hp hs1 => ?arrives, fun hlost hup hon hheld bs => ?held,
    fun k p hconn hfirst hnew => ⟨State.takeSeq_afresh hconn hfirst hnew, fun c => GConn.reopened_cls k p.conn⟩,
    fun k p _ ⟨hconn, htheirs⟩ _ hnear hfresh hroom => ?placed,
    fun k cum sack echo limit => ⟨fun e => GClass.acked_sent k cum sack echo limit, GClass.acked_window k cum sack echo limit⟩,
    fun peer c k t s1 hconn hdue htime => exec_ackDelayExpire hconn hdue htime,
    fun peer c seq k e s1 hconn hsent hup hwaits htime => ⟨exec_retxTimeoutExpire_lost hconn hsent hup hwaits htime,
      fun hleft k' => exec_retxTimeoutExpire_again hconn hsent hup hwaits htime hleft⟩,
    fun peer k s1 hconn hidle htime => ⟨exec_connectionIdleExpire hconn hidle htime, Gate.conn_dropConn ..⟩,
    fun acc v r x hmay hx => ⟨fun hhop => ?outOfRange, fun hhop hon => ?enabled, fun hhop hoff => ?disabled⟩,
    exec_gateLineDown hunit hrun, fun hdown => ?up⟩
  case arrives =>
    have hpkt := Gate.packetReceive_arrived hunit hrun hlost hup hon hheld hinj hp hs1
    refine ⟨fun hbad => ?_, fun hcodes hform => ⟨fun hfar => ?_, fun hhere => ⟨fun hkept => ?_, fun hgone => ?_⟩⟩⟩
    · exact exec_fabricPacketReceive (hpkt.trans (if_pos (by rcases hbad with h | h <;> simp [h])))
    · exact exec_fabricPacketReceive (hpkt.trans ((if_neg (by simp [hcodes, hform])).trans (if_pos hfar)))
    · refine exec_fabricPacketReceive (lost := none) (hpkt.trans ((if_neg (by simp [hcodes, hform])).trans ((if_neg (Classical.not_not.mpr hhere)).trans ?_)))
      rw [hkept]
      rfl
    · refine exec_fabricPacketReceive (lost := some p.src)
        (hpkt.trans ((if_neg (by simp [hcodes, hform])).trans ((if_neg (Classical.not_not.mpr hhere)).trans ?_)))
      rw [hgone]
      rfl
  case held => exact exec_fabricPacketReceive (Gate.packetReceive_held hunit hrun hlost hup hon hheld)
  case placed =>
    obtain ⟨k', hplaced, hpeer, hheld, hwant⟩ := State.reorder_holds hnear hfresh hroom
    refine ⟨k', ?_, hheld, hwant⟩
    rw [State.takeSeq_known hconn htheirs, hplaced, State.gate_setGate_same, ← Gate.conn_peer hconn, ← hpeer]
    exact Gate.conn_setConn_same ..
  case outOfRange =>
    subst hx
    exact congrArg _ (State.serveKey_refused (eff := Gate.setCfg g) hmay (Gate.setCfg_outOfRange hhop))
  case enabled =>
    subst hx
    exact congrArg _ (State.serveKey_next (eff := Gate.setCfg g) hmay (Gate.setCfg_enabled hhop hon))
  case disabled =>
    subst hx
    exact congrArg _ (State.serveKey_next (eff := Gate.setCfg g) hmay (Gate.setCfg_disabled hhop hoff))
  case up =>
    refine ⟨_, exec_gateLineUp hunit hrun hdown, State.rd_wr_same _ _ _ (by simp [Fld.gateLinkUp]), fun k hk => State.obj_wr_ne _ _ _ _ hk, ?_, ?_⟩
    all_goals rw [State.gate_wr, State.gate_setGate_same]
    · rfl
    · exact List.length_map ..

end Sys2Proof.Machine
end

section
/-! PROOFS. The collective channels: their control, their ring, their input and the store. -/

namespace Sys2Proof.Machine

/-! ## Control -/

section
variable {s : State} {acc : Access} {r : ObjRow} {g c k : Nat}

/-- START, STOP, ABORT and CLEAR of channel `c` of gate `g`, as the values 1 to 4 of its control object. -/
def collCommand (acc : Access) (g c : Nat) : Nat → Instr
  | 1 => .collStart acc g c
  | 2 => .collStop acc g c
  | 3 => .collAbort acc g c
  | _ => .collClear acc g c

/-- The state with a command in the channel's control object. -/
def State.collCmd (s : State) (k n : Nat) : State := s.setObj (Obj.collCtrl k) (BitVec.ofNat 64 n)

section
variable {cmd : Nat} (hk : k = 32 * g + c) (hcmd : 1 ≤ cmd ∧ cmd ≤ 4) (hmay : s.MayWrite acc (Obj.collCtrl k) r)
include hk hcmd

theorem exec_collCommand : exec (collCommand acc g c cmd) s =
    .next (s.serveKey acc (Obj.collCtrl k) (BitVec.ofNat 64 cmd) (fun _ => Coll.control k cmd)) := by
  subst hk
  obtain rfl | rfl | rfl | rfl : cmd = 1 ∨ cmd = 2 ∨ cmd = 3 ∨ cmd = 4 := by omega
  all_goals rfl

include hmay

theorem exec_collCommand_taken {t : State} (heff : Coll.control k cmd s = .ok t) :
    exec (collCommand acc g c cmd) s = .next (t.written acc (Obj.collCtrl k) r.ty) := by
  rw [exec_collCommand hk hcmd, State.serveKey_next hmay heff]

theorem exec_collCommand_refused {a : Abort} (heff : Coll.control k cmd s = .error a) : exec (collCommand acc g c cmd) s =
    .next (s.abortRequest acc 2 (Obj.collCtrl k / 256) (Obj.collCtrl k % 256) 0 a) := by
  rw [exec_collCommand hk hcmd, State.serveKey_refused hmay heff]
end

/-! ### The table of R297 -/

theorem Coll.control_start (hown : s.rd (.coOwned k) = 1) (hst : s.rd (.coState k) = 0) (hwarn : s.warn = false) :
    Coll.control k 1 s = .ok ((s.collCmd k 1).collStart k) := by
  have hopen : ¬ (s.rd (.coOwned k) = 0 ∨ 3 ≤ s.rd (.coState k)) := by omega
  exact (if_neg hopen).trans (if_neg (by simp [hst, hwarn]))

theorem Coll.control_start_held (hown : s.rd (.coOwned k) = 1)
    (h : s.rd (.coState k) = 1 ∨ s.rd (.coState k) = 2 ∨ (s.rd (.coState k) = 0 ∧ s.warn = true)) :
    Coll.control k 1 s = .ok ((s.collCmd k 1).wr (.coPending k) 1) := by
  have hopen : ¬ (s.rd (.coOwned k) = 0 ∨ 3 ≤ s.rd (.coState k)) := by omega
  refine (if_neg hopen).trans (if_pos ?_)
  rcases h with h | h | ⟨-, hwarn⟩
  · exact .inl (by omega)
  · exact .inl (by omega)
  · exact .inr hwarn

theorem Coll.control_start_refused (h : s.rd (.coOwned k) = 0 ∨ 3 ≤ s.rd (.coState k)) : Coll.control k 1 s = .error .badState := if_pos h

theorem Coll.control_stop_idle (h : s.rd (.coState k) = 0 ∨ s.rd (.coState k) = 3) : Coll.control k 2 s = .ok (s.collCmd k 2) := if_pos h

theorem Coll.control_stop_running (h : s.rd (.coState k) = 1) : Coll.control k 2 s = .ok ((s.collCmd k 2).wr (.coState k) 3) :=
  (if_neg (by omega)).trans (if_pos h)

theorem Coll.control_stop_waiting (h : s.rd (.coState k) = 2) : Coll.control k 2 s = .ok ((s.collCmd k 2).collIdle k) :=
  (if_neg (by omega)).trans ((if_neg (by omega)).trans (if_pos h))

theorem Coll.control_stop_refused (h : 4 ≤ s.rd (.coState k)) : Coll.control k 2 s = .error .badState :=
  (if_neg (by omega)).trans ((if_neg (by omega)).trans (if_neg (by omega)))

theorem Coll.control_abort_idle (h : s.rd (.coState k) = 0 ∨ s.rd (.coState k) = 5) : Coll.control k 3 s = .ok (s.collCmd k 3) := if_pos h

theorem Coll.control_abort_waiting (h : s.rd (.coState k) = 2) : Coll.control k 3 s = .ok ((s.collCmd k 3).collIdle k) :=
  (if_neg (by omega)).trans ((if_neg (by omega)).trans (if_pos h))

theorem Coll.control_abort_refused (h : s.rd (.coState k) = 4) : Coll.control k 3 s = .error .badState :=
  (if_neg (by omega)).trans (if_pos h)

/-- ABORT of a channel that runs or stops: its operation, where it is in one, aborts. -/
theorem Coll.control_abort_running (h : s.rd (.coState k) = 1 ∨ s.rd (.coState k) = 3) : Coll.control k 3 s =
    if (s.coll k).phase = .run then .ok (((s.collCmd k 3).collAbort k 6).collSettle (k / 32)) else .ok ((s.collCmd k 3).collCancel k) :=
  (if_neg (by omega)).trans ((if_neg (by omega)).trans (if_neg (by omega)))

theorem Coll.control_clear (h : s.rd (.coState k) = 4) : Coll.control k 4 s = .ok ((s.collCmd k 4).wr (.coState k) 0) := if_pos h

theorem Coll.control_clear_refused (h : s.rd (.coState k) ≠ 4) : Coll.control k 4 s = .error .badState := if_neg h
end

/-! ## The ring -/

section
variable {s s0 s1 : State} {g c k : Nat} (hk : k = 32 * g + c) (hc : c < 32) (hmoves : s.gateMoves g = true) (hs0 : s0 = s.collSettle g)
include hk hc hmoves hs0

section
variable {d : TDone} {j what info : Nat} {i : CollIo}

theorem exec_collRecordFetch (htake : s0.takeDone (0x80 + g) (fun j what info => j == k && what == collFetchAsk &&
      ((s0.coll k).io.bind (·.serial)) == some info) = some (d, j, what, info, s1))
    (hphase : (s1.coll k).phase = .fetch) (hio : (s1.coll k).io = some i) :
    exec (.collRecordFetch g c) s = .next (((match i.answered d with
      | none => s1.collHalted k 8
      | some y => if y.whole then s1.collRead k y.got else s1.setColl k { s1.coll k with io := some y }).collSettle g).touch (s.gateAt g)) := by
  have hopen : ¬ (!s.gateMoves g ∨ 32 ≤ c) := by simp [hmoves, hc]
  subst hk hs0
  simp only [exec, execCollRecordFetch, Coll.recordFetch, if_neg hopen, htake, hphase, hio] <;> rfl

/-- What the answer to a write-back leaves. -/
def State.backAnswered (s s1 : State) (g k : Nat) (i : CollIo) (d : TDone) : State :=
  match i.answered d with
  | none => s1.collHalted k (if (s1.coll k).phase = .haltBack then (s1.coll k).status else 8)
  | some y =>
    if !y.whole then s1.setColl k { s1.coll k with io := some y }
    else if (s1.coll k).phase = .back then (s1.countEv 0x51 (s.gateAt g) (some (s.collOwner k)) 1).collAdvance k
    else ((s1.countEv 0x51 (s.gateAt g) (some (s.collOwner k)) 1).collClearOwn k).collHalted k (s1.coll k).status

theorem exec_collWritebackComplete (htake : s0.takeDone (0x80 + g) (fun j what info => j == k && what == collBackAsk &&
      ((s0.coll k).io.bind (·.serial)) == some info) = some (d, j, what, info, s1))
    (hio : (s1.coll k).io = some i) (hphase : (s1.coll k).phase = .back ∨ (s1.coll k).phase = .haltBack) :
    exec (.collWritebackComplete g c) s = .next (((s.backAnswered s1 g k i d).collSettle g).touch (s.gateAt g)) := by
  have hopen : ¬ (!s.gateMoves g ∨ 32 ≤ c) := by simp [hmoves, hc]
  have hours : ¬ ((s1.coll k).phase ≠ .back ∧ (s1.coll k).phase ≠ .haltBack) := by
    rcases hphase with h | h <;> simp [h]
  subst hk hs0
  simp only [exec, execCollWritebackComplete, Coll.backDone, if_neg hopen, htake, hio, if_neg hours]
  rfl
end

/-! ## Input -/

/-- What a flit that a channel wants leaves: old flits first, then those of its operation. -/
def State.flitTaken (s1 : State) (x : CollChan) (k : Nat) (f : TFlit) : State :=
  match x.drain with
  | d :: ds => s1.setColl k { x with drain := (d.take f.last).toList ++ ds }
  | [] => match x.op with
    | none => s1
    | some o =>
      if recIn x.record = Fmt.grid64 ∧ !o.tallyEnded then s1.inputTally k o f f.err
      else match o.filling with
        | some (ch, i) => s1.inputData k o ch i f f.err
        | none => s1

theorem exec_collInputFlit {flow : BitVec 12} {f : TFlit} {flags : BitVec 4} (htake : s0.dlvTake (s.gateAt g) 5 = some (flow, f, flags, s1))
    (hwants : (s0.coll k).wants = some flow.toNat) (hhead : (s0.dlv (s.gateAt g) 5).queue.head?.map (fun p => p.1.toNat) = some flow.toNat) :
    exec (.collInputFlit g c) s = .next (((s1.flitTaken (s0.coll k) k f).collSettle g).touch (s.gateAt g)) := by
  have hopen : ¬ (!s.gateMoves g ∨ 32 ≤ c) := by simp [hmoves, hc]
  have hwanted : ¬ ((s0.coll k).wants.isNone ∨ (s0.coll k).wants ≠ (s0.dlv (s.gateAt g) 5).queue.head?.map (fun p => p.1.toNat)) := by
    rw [hwants, hhead]
    simp
  subst hk hs0
  simp only [exec, execCollInputFlit, Coll.inputFlit, if_neg hopen, if_neg hwanted, htake]
  rfl

omit hk hc hmoves hs0

theorem State.flitTaken_drain {x : CollChan} {f : TFlit} {d : CollDrain} {ds : List CollDrain} (hdrain : x.drain = d :: ds) :
    s1.flitTaken x k f = s1.setColl k { x with drain := (d.take f.last).toList ++ ds } := by
  unfold State.flitTaken
  rw [hdrain]

theorem State.flitTaken_tally {x : CollChan} {f : TFlit} {o : CollOp} (hdrain : x.drain = []) (hop : x.op = some o)
    (hgrid : recIn x.record = Fmt.grid64) (hmore : o.tallyEnded = false) : s1.flitTaken x k f = s1.inputTally k o f f.err := by
  unfold State.flitTaken
  rw [hdrain, hop]
  exact if_pos ⟨hgrid, by simp [hmore]⟩

theorem State.flitTaken_data {x : CollChan} {f : TFlit} {o : CollOp} {ch : CollChunk} {i : Nat} (hdrain : x.drain = []) (hop : x.op = some o)
    (hdata : recIn x.record ≠ Fmt.grid64 ∨ o.tallyEnded = true) (hfilling : o.filling = some (ch, i)) :
    s1.flitTaken x k f = s1.inputData k o ch i f f.err := by
  have hno : ¬ (recIn x.record = Fmt.grid64 ∧ !o.tallyEnded) := by rcases hdata with h | h <;> simp [h]
  unfold State.flitTaken
  rw [hdrain, hop]
  refine (if_neg hno).trans ?_
  rw [hfilling]
end

/-! ## A record that has been read -/

section
variable {s : State} {k : Nat} {b : List Byte}

theorem State.collRead_stops (hst : s.rd (.coState k) = 3) : s.collRead k b = s.collIdle k := if_pos hst

theorem State.collRead_notOwned (hst : s.rd (.coState k) ≠ 3) (hown : recOwn b = false) : s.collRead k b =
    if s.rd (.coPending k) = 1 then (s.wr (.coPending k) 0).collFetch k (s.coll k).slot else s.collIdle k :=
  (if_neg hst).trans (if_pos (by simp [hown]))

theorem State.collRead_owned (hst : s.rd (.coState k) ≠ 3) (hown : recOwn b = true) : s.collRead k b =
    if s.recBad k b then ((s.setColl k { s.coll k with record := b, io := none }).wr (.coSlot k) (s.coll k).slot).collWriteBack k 7 .haltBack
    else ((((s.setColl k { s.coll k with record := b, io := none }).wr (.coSlot k) (s.coll k).slot).setColl k
      { s.coll k with record := b, io := none, phase := .wait }).wr (.coState k) 2).collRelease k :=
  (if_neg hst).trans (if_neg (by simp [hown]))
end

/-! ## The store -/

section
variable {s : State} {g c k : Nat}

theorem exec_storeAllocGrant (hmoves : s.gateMoves g = true) : exec (.storeAllocGrant g) s =
    .next ((((s.collSettle g).storeGrant g).collSettle g).touch (s.gateAt g)) := by
  have hopen : ¬ (!s.gateMoves g) = true := by simp [hmoves]
  exact congrArg Host.Outcome.next (if_neg hopen)

section
variable {o : CollOp} (hk : k = 32 * g + c) (hchoice : (s.collStore g).choice = some c) (hop : (s.coll k).op = some o)
include hk hchoice hop

theorem State.storeGrant_leaves (hwants : s.wantsCells k o = false) : s.storeGrant g = s.storeLeave k := by
  subst hk
  simp only [State.storeGrant, hchoice, hop, hwants]
  rfl

theorem State.storeGrant_waits (hwants : s.wantsCells k o = true) (hfull : s.poolCells g < s.poolUsed g + s.cellsWanted k o) : s.storeGrant g = s := by
  have hwants' : ¬ (!s.wantsCells k o) = true := by simp [hwants]
  subst hk
  simp only [State.storeGrant, hchoice, hop, if_neg hwants', if_pos hfull]

theorem State.storeGrant_grants {l : List Nat} {s0 : State} (hl : l = (s.collStore g).latched.filter (fun x => x != c))
    (hwants : s.wantsCells k o = true) (hroom : s.poolUsed g + s.cellsWanted k o ≤ s.poolCells g) (hs0 : s0 = s.setCollStore g
      { s.collStore g with latched := l, choice := topChannel l, streaks := Tbl.set 0 (s.collStore g).streaks c 0 }) :
    s.storeGrant g = (l.filter (fun x => some x != topChannel l)).foldl (fun (a : State) x => a.storeBackOff g x)
      (if o.tallied then s0.startChunk k o false else s0.tallyBegin k o) := by
  have hwants' : ¬ (!s.wantsCells k o) = true := by simp [hwants]
  subst hk hs0 hl
  simp only [State.storeGrant, hchoice, hop, if_neg hwants', if_neg (Nat.not_lt.mpr hroom)]
end
end

/-- Settles O51. The BAD_STATE of a START whose channel no ward owns, OUT_ERROR after a failed fetch or write-back, and cells that the
arbiter gives a tally are the model's choices (log entries 106, 116 and 174). -/
theorem collectiveChannelsRunTheirRings : Obligations.CollectiveChannelsRunTheirRings := by
  unfold Obligations.CollectiveChannelsRunTheirRings
  intro s g c k hk
  refine ⟨fun acc r s0 refused hmay hs0 hrefused => ?control, fun hc hmoves s0 hs0 =>
      ⟨fun d j what info s1 i htake hphase hio => ?fetched, fun d j what info s1 i htake hio hphase => ?back,
        fun flow f flags s1 htake hwants hhead => ?flit⟩,
    fun b => ⟨State.collRead_stops, fun hst hown => ?notOwned, fun hst hown => ?owned⟩, exec_storeAllocGrant,
    fun o l hchoice hop hl => ⟨State.storeGrant_leaves hk hchoice hop, State.storeGrant_waits hk hchoice hop, fun hwants hroom s0 hs0 => ?grants⟩⟩
  case control =>
    simp only [hs0, hrefused]
    have taken {cmd : Nat} {t : State} (hcmd : 1 ≤ cmd ∧ cmd ≤ 4) (heff : Coll.control k cmd s = .ok t) :=
      exec_collCommand_taken hk hcmd hmay heff
    have bad {cmd : Nat} (hcmd : 1 ≤ cmd ∧ cmd ≤ 4) (heff : Coll.control k cmd s = .error .badState) :=
      exec_collCommand_refused hk hcmd hmay heff
    exact ⟨fun hown hst hwarn => taken (cmd := 1) (by decide) (Coll.control_start hown hst hwarn),
      fun hown hst => taken (cmd := 1) (by decide) (Coll.control_start_held hown hst),
      fun h => bad (cmd := 1) (by decide) (Coll.control_start_refused h),
      fun h => taken (cmd := 2) (by decide) (Coll.control_stop_idle h),
      fun h => taken (cmd := 2) (by decide) (Coll.control_stop_running h),
      fun h => taken (cmd := 2) (by decide) (Coll.control_stop_waiting h),
      fun h => bad (cmd := 2) (by decide) (Coll.control_stop_refused h),
      fun h => taken (cmd := 3) (by decide) (Coll.control_abort_idle h),
      fun h => taken (cmd := 3) (by decide) (Coll.control_abort_waiting h),
      fun h => ⟨fun hphase => taken (cmd := 3) (by decide) ((Coll.control_abort_running h).trans (if_pos hphase)),
        fun hphase => taken (cmd := 3) (by decide) ((Coll.control_abort_running h).trans (if_neg hphase))⟩,
      fun h => ⟨bad (cmd := 3) (by decide) (Coll.control_abort_refused h), taken (cmd := 4) (by decide) (Coll.control_clear h)⟩,
      fun h => bad (cmd := 4) (by decide) (Coll.control_clear_refused h)⟩
  case fetched =>
    rw [exec_collRecordFetch hk hc hmoves hs0 htake hphase hio]
    refine ⟨fun hlost => by rw [hlost], fun y hy => ⟨fun hwhole => ?_, fun hpart => ?_⟩⟩
    · simp only [hy, hwhole, if_true]
    · simp only [hy, hpart, Bool.false_eq_true, if_false]
  case back =>
    rw [exec_collWritebackComplete hk hc hmoves hs0 htake hio hphase]
    unfold State.backAnswered
    refine ⟨fun y hy => ⟨fun hpart => ?_, fun hwhole hback => ?_, fun hwhole hhalt => ?_⟩, fun hlost => by simp only [hlost]⟩
    · simp only [hy, hpart, Bool.not_false, if_true]
    · simp only [hy, hwhole, Bool.not_true, Bool.false_eq_true, if_false, hback, if_true]
    · have hnot : ¬ (s1.coll k).phase = .back := by simp [hhalt]
      simp only [hy, hwhole, Bool.not_true, Bool.false_eq_true, if_false, if_neg hnot]
  case flit =>
    rw [exec_collInputFlit hk hc hmoves hs0 htake hwants hhead]
    exact ⟨fun d ds hdrain => by rw [State.flitTaken_drain hdrain], fun o hdrain hop =>
      ⟨fun hgrid hmore => by rw [State.flitTaken_tally hdrain hop hgrid hmore],
        fun hdata ch i hfilling => by rw [State.flitTaken_data hdrain hop hdata hfilling]⟩⟩
  case notOwned =>
    rw [State.collRead_notOwned hst hown]
    exact ⟨fun hno => if_neg (by omega), fun hyes => if_pos hyes⟩
  case owned =>
    rw [State.collRead_owned hst hown]
    exact ⟨fun hbad => if_pos hbad, fun hgood => if_neg (by simp [hgood])⟩
  case grants =>
    rw [State.storeGrant_grants hk hchoice hop hl hwants hroom hs0]
    exact ⟨fun htally => by rw [htally]; rfl, fun htally => by rw [htally]; rfl⟩

end Sys2Proof.Machine
end

section
/-! PROOFS. Packets of the collectives: control records, fragments, the switch path, and how tally entries join. -/

namespace Sys2Proof.Machine

/-! ## Control records -/

section
variable {s s0 s1 : State} {g : Nat} (hmoves : s.gateMoves g = true)
include hmoves

section
variable {rtype k : Nat} {r : CRecord} (hs0 : s0 = (s.collSettle g).dropReserved g) (htake : s0.takeRecord g rtype = some (k, r, s1))
include hs0 htake

theorem State.onRecord_taken (f : State → Nat → CRecord → State) : s.onRecord g rtype f =
    ((if 512 ≤ k ∨ (s1.coll k).late r.tag then s1 else f s1 k r).collSettle g).touch (s.gateAt g) := by
  subst hs0
  have hopen : ¬ (!s.gateMoves g) = true := by simp [hmoves]
  simp only [State.onRecord, if_neg hopen, htake]

theorem State.onRecord_acts (f : State → Nat → CRecord → State) (hk : k < 512) (hrun : (s1.coll k).late r.tag = false) :
    s.onRecord g rtype f = ((f s1 k r).collSettle g).touch (s.gateAt g) := by
  rw [State.onRecord_taken hmoves hs0 htake, if_neg (by simp [hrun, hk])]

theorem State.onRecord_late (f : State → Nat → CRecord → State) (hlate : 512 ≤ k ∨ (s1.coll k).late r.tag = true) :
    s.onRecord g rtype f = (s1.collSettle g).touch (s.gateAt g) := by
  rw [State.onRecord_taken hmoves hs0 htake, if_pos hlate]
end

/-! ## Fragments -/

section
variable {ckind k : Nat} {f : Frag} (htake : (s.collSettle g).takeFrag g ckind = some (k, f, s1))
include htake

theorem State.onFrag_acts {o : CollOp} (act : State → Nat → CollOp → Frag → State) (hop : (s1.coll k).op = some o)
    (hruns : (s1.coll k).runs f.tag = true) (hsize : f.size = o.size) :
    s.onFrag g ckind act = ((act s1 k o f).collSettle g).touch (s.gateAt g) := by
  have hopen : ¬ (!s.gateMoves g) = true := by simp [hmoves]
  simp only [State.onFrag, if_neg hopen, htake, hop]
  exact congrArg (fun t : State => (t.collSettle g).touch (s.gateAt g)) (if_pos ⟨hruns, hsize⟩)

theorem State.onFrag_drops (act : State → Nat → CollOp → Frag → State)
    (hnone : ∀ o, (s1.coll k).op = some o → (s1.coll k).runs f.tag = true → f.size ≠ o.size) :
    s.onFrag g ckind act = (s1.collSettle g).touch (s.gateAt g) := by
  have hopen : ¬ (!s.gateMoves g) = true := by simp [hmoves]
  simp only [State.onFrag, if_neg hopen, htake]
  refine congrArg (fun t : State => (t.collSettle g).touch (s.gateAt g)) ?_
  split
  next o hop => exact if_neg fun h => hnone o hop h.1 h.2
  next => rfl
end

/-! ## The switch path -/

theorem exec_swContribReceive {p : FPkt} (htake : s.takeSwitched g FPkt.switched = some (p, s1)) : exec (.swContribReceive g) s = .next s1 := by
  have hopen : ¬ (!s.gateMoves g) = true := by simp [hmoves]
  simp only [exec, execSwContribReceive, Coll.contribReceive, if_neg hopen, htake]

/-- The capacity of a switch is kept for group `j`, where that is valid and has the switch's tag. -/
def State.takeCap (s : State) (g tag cap j : Nat) : State :=
  if grpValid (s.obj (Obj.group g j)) && grpSwTag (s.obj (Obj.group g j)) == tag then
    { s.setObj (Obj.swCap g j) (BitVec.ofNat 64 cap) with
      col := { s.col with capEnds := Tbl.set 0 s.col.capEnds (64 * g + j) (s.now + advertLife + 1) } }
  else s

theorem exec_swCapacityReceive {p : FPkt} (htake : s.takeSwitched g (fun p => p.ty == 5 && p.body.headD 0 == 1) = some (p, s1)) :
    exec (.swCapacityReceive g) s =
      .next ((List.range 64).foldl (fun (a : State) j => a.takeCap g (leAt p.body 2 2 % 4096) (leAt p.body 4 4) j) s1) := by
  have hopen : ¬ (!s.gateMoves g) = true := by simp [hmoves]
  simp only [exec, execSwCapacityReceive, Coll.capacityReceive, if_neg hopen, htake]
  rfl

omit hmoves

theorem State.takeSwitched_objs {p : FPkt} {pick : FPkt → Bool} (htake : s.takeSwitched g pick = some (p, s1)) : s1.objs = s.objs := by
  unfold State.takeSwitched at htake
  split at htake
  · cases htake
  · obtain ⟨-, rfl⟩ := Prod.mk.inj (Option.some.inj htake)
    rfl

theorem State.obj_withCol (s : State) (x : CollState) (k : Nat) : ({ s with col := x } : State).obj k = s.obj k := rfl

section
variable {tag cap j : Nat}

theorem State.obj_takeCap_ne {i : Nat} (h : i ≠ Obj.swCap g j) : (s.takeCap g tag cap j).obj i = s.obj i := by
  unfold State.takeCap
  split
  · exact (State.obj_withCol ..).trans (State.obj_setObj_ne _ _ h)
  · rfl

theorem State.takeCap_other (h : grpValid (s.obj (Obj.group g j)) = false ∨ grpSwTag (s.obj (Obj.group g j)) ≠ tag) : s.takeCap g tag cap j = s :=
  if_neg (by rcases h with h | h <;> simp [h])

theorem State.obj_takeCap_same (hvalid : grpValid (s.obj (Obj.group g j)) = true) (htag : grpSwTag (s.obj (Obj.group g j)) = tag) :
    (s.takeCap g tag cap j).obj (Obj.swCap g j) = BitVec.ofNat 64 cap := by
  unfold State.takeCap
  rw [if_pos (by simp [hvalid, htag])]
  exact (State.obj_withCol ..).trans (State.obj_setObj_same ..)
end

theorem Obj.group_ne_swCap (g i j : Nat) (hi : i < 64) : Obj.group g i ≠ Obj.swCap g j := by
  unfold Obj.group Obj.swCap
  omega

section
variable (s g) (tag cap : Nat)

/-- A capacity that has come is kept for every valid group with the switch's tag. -/
theorem State.takeCaps_at {j : Nat} (hj : j < 64) (hvalid : grpValid (s.obj (Obj.group g j)) = true) (htag : grpSwTag (s.obj (Obj.group g j)) = tag) :
    ((List.range 64).foldl (fun (a : State) j => a.takeCap g tag cap j) s).obj (Obj.swCap g j) = BitVec.ofNat 64 cap := by
  refine foldl_holds_of_mem (I := fun t : State => ∀ i < 64, t.obj (Obj.group g i) = s.obj (Obj.group g i))
    (P := fun (t : State) j => j < 64 → grpValid (s.obj (Obj.group g j)) = true → grpSwTag (s.obj (Obj.group g j)) = tag →
      t.obj (Obj.swCap g j) = BitVec.ofNat 64 cap) ?inv ?make ?keep (fun _ _ => rfl) (.inl (List.mem_range.mpr hj)) hj hvalid htag
  case inv => exact fun t a _ hI i hi => (State.obj_takeCap_ne (Obj.group_ne_swCap g i a hi)).trans (hI i hi)
  case make =>
    intro t a _ hI ha hv ht
    exact State.obj_takeCap_same (by rw [hI a ha, hv]) (by rw [hI a ha, ht])
  case keep =>
    intro t a _ b hI hP hb hv ht
    by_cases heq : b = a
    · rw [heq] at hb hv ht ⊢
      exact State.obj_takeCap_same (by rw [hI a hb, hv]) (by rw [hI a hb, ht])
    · exact (State.obj_takeCap_ne (by unfold Obj.swCap; omega)).trans (hP hb hv ht)

/-- It changes no other object. -/
theorem State.takeCaps_frame {i : Nat} (hi : ∀ j, j < 64 → i = Obj.swCap g j → grpValid (s.obj (Obj.group g j)) = false ∨
    grpSwTag (s.obj (Obj.group g j)) ≠ tag) : ((List.range 64).foldl (fun (a : State) j => a.takeCap g tag cap j) s).obj i = s.obj i := by
  refine (List.foldlRecOn (motive := fun t : State => (∀ j < 64, t.obj (Obj.group g j) = s.obj (Obj.group g j)) ∧ t.obj i = s.obj i) _ _
    ⟨fun _ _ => rfl, rfl⟩ fun t ⟨hgroups, hsame⟩ a ha => ⟨fun j hj => ?_, ?_⟩).2
  · exact (State.obj_takeCap_ne (Obj.group_ne_swCap g j a hj)).trans (hgroups j hj)
  · by_cases heq : i = Obj.swCap g a
    · have ha' := List.mem_range.mp ha
      rw [State.takeCap_other (by rw [hgroups a ha']; exact hi a ha' heq), hsame]
    · exact (State.obj_takeCap_ne heq).trans hsame
end

include hmoves

section
variable {p : FPkt} {k : Nat} {o : CollOp} {ch : CollChunk} (hk : k = 32 * g + p.chan)
include hk

theorem exec_swResultReceive (htake : s.takeSwitched g (fun p => p.ty == 5 && p.body.headD 0 == 2) = some (p, s1))
    (hchunk : s1.switchChunk k (leAt p.body 2 2) (leAt p.body 4 4) (leAt p.body 8 4) (leAt p.body 18 1) = some (o, ch)) :
    exec (.swResultReceive g) s = .next (((s1.setOp k (o.setChunk { ch with
        results := Tbl.set none ch.results (leAt p.body 12 4 - ch.index * o.chunkBlocks)
          (some ⟨Fmt.grid32, codesOf Fmt.grid32 (leAt p.body 16 2) (p.body.drop 32)⟩) })).collSettle g).touch (s.gateAt g)) := by
  subst hk
  have hopen : ¬ (!s.gateMoves g) = true := by simp [hmoves]
  simp only [exec, execSwResultReceive, Coll.resultReceive, if_neg hopen, htake, hchunk]

theorem exec_swRefuseReceive {s2 : State} (htake : s.takeSwitched g (fun p => p.ty == 6) = some (p, s1)) (hs2 : s2 = s1.bump (.coRefusals k) 1)
    (hchunk : s2.switchChunk k (leAt p.body 2 2) (leAt p.body 4 4) (leAt p.body 8 4) (leAt p.body 1 1) = some (o, ch)) :
    exec (.swRefuseReceive g) s = .next (if ch.attempt < recTries (s2.coll k).record
      then s2.setOp k (o.setChunk { ch with wait := some (s2.gateNow + 64 * 2 ^ min ch.attempt 10), results := [] })
      else ((s2.setOp k (o.setChunk { ch with tree := true, results := [] })).collSettle g).touch (s.gateAt g)) := by
  subst hk hs2
  have hopen : ¬ (!s.gateMoves g) = true := by simp [hmoves]
  simp only [exec, execSwRefuseReceive, Coll.refuseReceive, if_neg hopen, htake, hchunk]
end

/-! ## Times -/

section
variable {c k : Nat} {o : CollOp} (hk : k = 32 * g + c)
include hk

section
variable {i : BitVec 32} {ch : CollChunk} (hchunk : s.runChunk k i.toNat = some (o, ch))
include hchunk

theorem exec_swRetryBackoffExpire {t : Nat} (hwait : ch.wait = some t) (htime : s.gateDue t = some s1) : exec (.swRetryBackoffExpire g c i) s =
    .next ((s1.swSend k o { ch with attempt := ch.attempt + 1, sends := 0, wait := none }).collSettle g) := by
  subst hk
  have hopen : ¬ (!s.gateMoves g) = true := by simp [hmoves]
  simp only [exec, execSwRetryBackoffExpire, Coll.retryExpire, hchunk, hwait, if_neg hopen, htime]

theorem exec_swAttemptTimeout (htree : ch.tree = false) (hsent : 0 < ch.sends) (hwait : ch.wait = none) (hdown : ch.downSent = false)
    (htime : s.gateDue ch.due = some s1) : exec (.swAttemptTimeout g c i) s =
    .next ((if s.rd (.retxLimit g) < ch.sends then s1.collAbort k 2 else s1.swSend k o ch).collSettle g) := by
  subst hk
  have hopen : ¬ (ch.tree ∨ ch.sends = 0 ∨ ch.wait.isSome ∨ ch.downSent ∨ !s.gateMoves g) := by
    simp [htree, hwait, hdown, hmoves]
    omega
  simp only [exec, execSwAttemptTimeout, Coll.attemptTimeout, hchunk, if_neg hopen, htime]
end

theorem exec_arriveResendExpire (hphase : (s.coll k).phase = .run) (hop : (s.coll k).op = some o) (hroot : o.isRoot false = false)
    (hfinal : o.final = none) (htime : s.gateDue (o.arriveAt + 1000) = some s1) : exec (.arriveResendExpire g c) s =
    .next (((s1.setOp k { o with arriveAt := s1.gateNow }).collRecord k arriveType o false 0 o.rootA).collSettle g) := by
  subst hk
  have hopen : ¬ (!s.gateMoves g ∨ o.isRoot false ∨ o.final.isSome) := by simp [hmoves, hroot, hfinal]
  simp only [exec, execArriveResendExpire, Coll.arriveResend, hphase, hop, if_neg hopen, htime]
end

omit hmoves

theorem exec_swCapExpire {j t : Nat} (hj : j < 64) (hrun : s.running = true) (hend : Tbl.get 0 s.col.capEnds (64 * g + j) = t + 1) :
    exec (.swCapExpire g j) s = .next { (s.advanceTo t).setObj (Obj.swCap g j) 0 with
      col := { s.col with capEnds := Tbl.set 0 s.col.capEnds (64 * g + j) 0 } } := by
  have hopen : ¬ (!s.running ∨ 64 ≤ j) := by simp [hrun, hj]
  simp only [exec, execSwCapExpire, Coll.capExpire, hend, if_neg hopen]
  rfl
end

/-! ## Aborts -/

theorem State.collForget_op (s : State) (k : Nat) : ((s.collForget k).coll k).op = none := congrArg CollChan.op (Tbl.get_set_same ..)

theorem State.collAbort_op {s : State} {k : Nat} {o : CollOp} (st : Nat) (hphase : (s.coll k).phase = .run) (hop : (s.coll k).op = some o) :
    ((s.collAbort k st).coll k).op = none := by
  simp only [State.collAbort, hphase, hop]
  exact State.collForget_op ..

/-! ## Tally entries -/

/-- Two entries without a block have the same exponent. -/
theorem TallyEntry.ofWord_emax_of_none {w : BitVec 64} (h : (TallyEntry.ofWord w).none_ = true) : (TallyEntry.ofWord w).emax = (0x8000#16).toInt :=
  congrArg BitVec.toInt (eq_of_beq h)

theorem TallyEntry.join_comm {a b : TallyEntry} (hnone : a.none_ = true → b.none_ = true → a.emax = b.emax) : a.join b = b.join a := by
  obtain ⟨e, n, m, l, p⟩ := a
  obtain ⟨e', n', m', l', p'⟩ := b
  simp only [TallyEntry.join, TallyEntry.mk.injEq]
  refine ⟨?_, Bool.and_comm .., Nat.add_comm .., Nat.max_comm .., Bool.or_comm ..⟩
  cases n <;> cases n'
  · exact Int.max_comm ..
  · rfl
  · rfl
  · exact (hnone rfl rfl).symm

theorem TallyEntry.join_assoc (a b c : TallyEntry) : (a.join b).join c = a.join (b.join c) := by
  obtain ⟨e, n, m, l, p⟩ := a
  obtain ⟨e', n', m', l', p'⟩ := b
  obtain ⟨e'', n'', m'', l'', p''⟩ := c
  simp only [TallyEntry.join, TallyEntry.mk.injEq]
  refine ⟨?_, Bool.and_assoc .., Nat.add_assoc .., Nat.max_assoc .., Bool.or_assoc ..⟩
  cases n <;> cases n' <;> cases n''
  · exact Int.max_assoc ..
  all_goals rfl

theorem optMax_comm (a b : Option Int) : optMax a b = optMax b a := by
  cases a <;> cases b
  · rfl
  · rfl
  · rfl
  · exact congrArg some (Int.max_comm ..)

theorem optMax_assoc (a b c : Option Int) : optMax (optMax a b) c = optMax a (optMax b c) := by
  cases a <;> cases b <;> cases c
  case some.some.some => exact congrArg some (Int.max_assoc ..)
  all_goals rfl

theorem optMin_comm (a b : Option Int) : optMin a b = optMin b a := by
  cases a <;> cases b
  · rfl
  · rfl
  · rfl
  · exact congrArg some (Int.min_comm ..)

theorem optMin_assoc (a b c : Option Int) : optMin (optMin a b) c = optMin a (optMin b c) := by
  cases a <;> cases b <;> cases c
  case some.some.some => exact congrArg some (Int.min_assoc ..)
  all_goals rfl

theorem HEntry.join_comm (a b : HEntry) : a.join b = b.join a := by
  unfold HEntry.join
  rw [optMax_comm, optMin_comm, Bool.or_comm]

theorem HEntry.join_assoc (a b c : HEntry) : (a.join b).join c = a.join (b.join c) := by
  unfold HEntry.join
  rw [optMax_assoc, optMin_assoc, Bool.or_assoc]

/-- Settles O52. That ARRIVE is sent again each microsecond until the final tally is the model's choice (log entry 115). -/
theorem collectivePacketsActOnTheirOperation : Obligations.CollectivePacketsActOnTheirOperation := by
  unfold Obligations.CollectivePacketsActOnTheirOperation
  intro s g _ hmoves
  refine ⟨fun s0 rtype k r s1 end_ hs0 htake hend => ?records, fun ckind k f s1 o end_ htake hop hruns hsize hend => ?frags,
    fun ckind k f s1 t htake hnone ht => ?dropped, fun p s1 => exec_swContribReceive hmoves, fun p s1 htake => ?capacity,
    fun p s1 k o ch htake hk hchunk => exec_swResultReceive hmoves hk htake hchunk,
    fun p s1 s2 k o ch htake hk hs2 hchunk => ?refused,
    fun c i k o ch s1 hk hchunk => ⟨fun t => exec_swRetryBackoffExpire hmoves hk hchunk, fun htree hsent hwait hdown htime => ?timeout⟩,
    fun c k o s1 hk => exec_arriveResendExpire hmoves hk, fun j t hj hrun hcap => ?expire, fun k st o => State.collAbort_op st,
    fun u v w => ⟨TallyEntry.join_comm fun hu hv => ?emax, TallyEntry.join_assoc ..⟩, fun a b c => ⟨HEntry.join_comm .., HEntry.join_assoc ..⟩⟩
  case records =>
    simp only [hend]
    have acts (f : State → Nat → CRecord → State) := State.onRecord_acts hmoves hs0 htake f
    have late (f : State → Nat → CRecord → State) := State.onRecord_late hmoves hs0 htake f
    refine ⟨fun hk hrun => ⟨fun hr => ?_, fun hr o hop => ?_, fun hr => ?_⟩, fun hlate => ⟨fun hr => ?_, fun hr => ?_, fun hr => ?_⟩⟩ <;> subst hr
    · exact congrArg Host.Outcome.next (acts _ hk hrun)
    · refine congrArg Host.Outcome.next ((acts _ hk hrun).trans ?_)
      simp only [hop]
    · exact congrArg Host.Outcome.next (acts _ hk hrun)
    · exact congrArg Host.Outcome.next (late _ hlate)
    · exact congrArg Host.Outcome.next (late _ hlate)
    · exact congrArg Host.Outcome.next (late _ hlate)
  case frags =>
    simp only [hend]
    have acts {t : State} (act : State → Nat → CollOp → Frag → State) (hact : act s1 k o f = t) : Host.Outcome.next (s.onFrag g ckind act) =
        (.next ((t.collSettle g).touch (s.gateAt g)) : Host.Outcome State Fault Refusal) :=
      congrArg Host.Outcome.next (hact ▸ State.onFrag_acts hmoves htake act hop hruns hsize)
    refine ⟨fun hc hstray => ?_, fun hc hchild t ht => ⟨fun hagree => ?_, fun hagree => ?_⟩, fun hc hparent hfresh o1 ho1 =>
      ⟨fun hmore => ?_, fun hwhole => ?_⟩, fun hc hstray => ?_, fun hc hstray => ?_, fun ch hch => ⟨fun hc => ?_, fun hc hparent => ?_⟩⟩ <;>
      subst hc
    · refine acts _ ?_
      rcases hstray with h | h
      · exact if_pos (by simp only [h]; decide)
      · simp only [h]
        exact ite_self _
    · refine acts _ ((if_neg (by simp only [hchild]; decide)).trans ?_)
      simp only [ht]
      exact if_neg (by simp [hagree])
    · refine acts _ ((if_neg (by simp only [hchild]; decide)).trans ?_)
      simp only [ht]
      exact if_pos (by simp [hagree])
    · subst ho1
      exact acts _ ((if_neg (by simp [hparent, hfresh])).trans (if_neg (by simp [hmore])))
    · subst ho1
      exact acts _ ((if_neg (by simp [hparent, hfresh])).trans (if_pos hwhole))
    · exact acts _ (if_pos hstray)
    · refine acts _ ?_
      split
      · exact if_neg hstray
      · rfl
    · refine acts _ ?_
      simp only [hch]
    · refine acts _ ?_
      simp only [hch]
      exact if_pos hparent
  case dropped =>
    subst ht
    have drops (act : State → Nat → CollOp → Frag → State) := State.onFrag_drops hmoves htake act hnone
    refine ⟨fun hc => ?_, fun hc => ?_, fun hc => ?_, fun hc => ?_⟩ <;> subst hc
    all_goals exact congrArg Host.Outcome.next (drops _)
  case capacity =>
    have hobj : ∀ k, s1.obj k = s.obj k := fun k => by rw [State.obj_congr (State.takeSwitched_objs htake)]
    refine ⟨_, exec_swCapacityReceive hmoves htake, fun j hj hvalid htag => ?_, fun i hi => ?_⟩
    · exact State.takeCaps_at s1 g _ _ hj (by rw [hobj, hvalid]) (by rw [hobj, htag])
    · refine (State.takeCaps_frame s1 g _ _ fun j hj heq => ?_).trans (hobj i)
      rw [hobj]
      exact hi j hj heq
  case refused =>
    rw [exec_swRefuseReceive hmoves hk htake hs2 hchunk]
    exact ⟨fun hmore => by rw [if_pos hmore], fun hspent => by rw [if_neg (Nat.not_lt.mpr hspent)]⟩
  case timeout =>
    rw [exec_swAttemptTimeout hmoves hk hchunk htree hsent hwait hdown htime]
    exact ⟨fun hspent => by rw [if_pos hspent], fun hleft => by rw [if_neg (Nat.not_lt.mpr hleft)]⟩
  case expire => exact ⟨_, exec_swCapExpire hj hrun hcap, rfl, by simp only [Tbl.get_set_same]⟩
  case emax => rw [TallyEntry.ofWord_emax_of_none hu, TallyEntry.ofWord_emax_of_none hv]

end Sys2Proof.Machine
end

section
/-! PROOFS. Start-up: what a reset keeps, the release, the image, the cores and their watchdog. -/

namespace Sys2Proof.Machine

/-! ## What a reset of the whole die keeps -/

theorem Obj.afterReset_dflt (c : Cls) (k : Nat) : Obj.afterReset c k (Obj.dflt k) = Obj.dflt k := by
  unfold Obj.afterReset
  rw [← BitVec.and_or_distrib_left, BitVec.or_not_self, BitVec.and_allOnes]

theorem Tbl.wfFrom_above {α : Type} [DecidableEq α] {dfl : Nat → α} : ∀ {t : Tbl α} {l : Nat}, Tbl.wfFrom dfl (some l) t = true → ∀ p ∈ t, l < p.1
  | [], _, _, _, hp => absurd hp List.not_mem_nil
  | q :: t, l, h, p, hp => by
    simp only [Tbl.wfFrom, Bool.and_eq_true, decide_eq_true_eq] at h
    obtain ⟨⟨hq, -⟩, ht⟩ := h
    rcases List.mem_cons.mp hp with rfl | hmem
    · exact hq
    · exact Nat.lt_trans hq (Tbl.wfFrom_above ht p hmem)

section
variable {α : Type} [DecidableEq α] {dfl : Nat → α} {f : Nat → α → α} {k : Nat}

/-- A table that is written anew, entry by entry, with other values. -/
def Tbl.rewrite (dfl : Nat → α) (f : Nat → α → α) (t acc : Tbl α) : Tbl α := t.foldl (fun a p => Tbl.set (dfl p.1) a p.1 (f p.1 p.2)) acc

theorem Tbl.get_rewrite_absent (t : Tbl α) : ∀ acc, (∀ p ∈ t, p.1 ≠ k) → Tbl.get (dfl k) (Tbl.rewrite dfl f t acc) k = Tbl.get (dfl k) acc k := by
  induction t with
  | nil => exact fun _ _ => rfl
  | cons p t ih =>
    intro acc hne
    obtain ⟨hp, ht⟩ := List.forall_mem_cons.mp hne
    exact (ih _ ht).trans (Tbl.get_set_ne _ _ _ _ hp.symm)

/-- Read back, it holds at each key the new value of what stood there, where an unlisted key's default stays. -/
theorem Tbl.get_rewrite (hf : f k (dfl k) = dfl k) (t : Tbl α) : ∀ lo acc, Tbl.wfFrom dfl lo t = true → Tbl.get (dfl k) acc k = dfl k →
    Tbl.get (dfl k) (Tbl.rewrite dfl f t acc) k = f k (Tbl.get (dfl k) t k) := by
  induction t with
  | nil => exact fun _ acc _ hacc => hacc.trans hf.symm
  | cons p t ih =>
    intro lo acc hwf hacc
    simp only [Tbl.wfFrom, Bool.and_eq_true] at hwf
    obtain ⟨-, ht⟩ := hwf
    by_cases hp : p.1 = k
    · subst hp
      refine (Tbl.get_rewrite_absent t _ fun q hq => Nat.ne_of_gt (Tbl.wfFrom_above ht q hq)).trans ?_
      rw [Tbl.get_set_same, Tbl.get, if_pos rfl]
    · rw [Tbl.get, if_neg hp]
      exact ih _ _ ht ((Tbl.get_set_ne _ _ _ _ (Ne.symm hp)).trans hacc)
end

/-- Of a table in canonical form each object keeps what its class lets it keep. -/
theorem State.get_keptObjs {s : State} (hcanon : s.canonical = true) (c : Cls) (k : Nat) :
    Tbl.get (Obj.dflt k) (s.keptObjs c) k = Obj.afterReset c k (s.obj k) :=
  Tbl.get_rewrite (dfl := Obj.dflt) (f := Obj.afterReset c) (Obj.afterReset_dflt c k) s.objs none [] hcanon rfl

/-! ## The reset pins -/

section
variable {s : State} {pin : ResetPin} {ns : Nat}

/-- The level that a reset pin shows. -/
def PinState.lowered (p : PinState) : ResetPin → PinState
  | .resetN => { p with rstN := false }
  | .pwrOk => { p with pwrOk := false }

theorem exec_powerOnResetAssert (hlong : 100 ≤ ns) : exec (.powerOnResetAssert pin ns) s = .next (if s.pin.inReset
    then { s with pin := s.pin.lowered pin }
    else ({ s with pin := s.pin.lowered pin } : State).powerOnReset (if pin = .resetN then 0 else 1)) := by
  refine congrArg Host.Outcome.next ((if_neg (Nat.not_lt.mpr hlong)).trans ?_)
  cases pin <;> rfl

theorem State.powerOnReset_obj (hcanon : s.canonical = true) (source : Nat) {k : Nat} (hk : k ≠ Obj.resetCause) :
    (s.powerOnReset source).obj k = Obj.afterReset .p k (s.obj k) :=
  (State.obj_wr_ne _ _ _ _ hk).trans (State.get_keptObjs hcanon .p k)

theorem State.powerOnReset_source (s : State) {source : Nat} (hsource : source < 16) : (s.powerOnReset source).rd .causeSource = source :=
  (State.rd_wr_same _ _ _ (by decide)).trans (Nat.mod_eq_of_lt hsource)
end

/-! ## The release -/

section
variable (s : State)

theorem State.obj_withPwr (s : State) (x : PowerState) (k : Nat) : ({ s with pwr := x } : State).obj k = s.obj k := rfl

theorem State.rd_withPwr (s : State) (x : PowerState) (f : Fld) : ({ s with pwr := x } : State).rd f = s.rd f := rfl

theorem State.holdRegions_pin : s.holdRegions.pin = s.pin :=
  List.foldlRecOn (motive := fun t : State => t.pin = s.pin) (List.range s.cfg.regions)
    (fun a k => a.wr (.regionSt k) (if a.pwr.down.contains k then 0 else 1)) rfl (fun _ ht _ _ => ht)

theorem State.holdRegions_boot : s.holdRegions.boot = s.boot :=
  List.foldlRecOn (motive := fun t : State => t.boot = s.boot) (List.range s.cfg.regions)
    (fun a k => a.wr (.regionSt k) (if a.pwr.down.contains k then 0 else 1)) rfl (fun _ ht _ _ => ht)

theorem State.holdRegions_obj {i : Nat} (hi : ∀ k < s.cfg.regions, i ≠ Obj.regionState k) : s.holdRegions.obj i = s.obj i :=
  (State.obj_withPwr ..).trans (List.foldlRecOn (motive := fun t : State => t.obj i = s.obj i) (List.range s.cfg.regions)
    (fun a k => a.wr (.regionSt k) (if a.pwr.down.contains k then 0 else 1)) rfl
    (fun t ht k hk => (State.obj_wr_ne t (.regionSt k) _ i (hi k (List.mem_range.mp hk))).trans ht))

theorem State.holdRegions_regionSt {k : Nat} (hk : k < s.cfg.regions) :
    s.holdRegions.rd (.regionSt k) = if s.pwr.down.contains k then 0 else 1 := by
  refine (State.rd_withPwr ..).trans (foldl_holds_of_mem (I := fun t : State => t.pwr = s.pwr)
    (P := fun (t : State) k => t.rd (.regionSt k) = if s.pwr.down.contains k then 0 else 1) ?inv ?make ?keep rfl (.inl (List.mem_range.mpr hk)))
  case inv => exact fun t k _ ht => ht
  case make =>
    intro t k _ ht
    rw [State.rd_wr_same _ _ _ (by simp [Fld.regionSt]), ht]
    split <;> rfl
  case keep =>
    intro t j _ i ht hi
    by_cases heq : i = j
    · rw [heq, State.rd_wr_same _ _ _ (by simp [Fld.regionSt]), ht]
      split <;> rfl
    · rw [State.rd_wr_obj_ne _ _ _ _ (by simpa [Fld.regionSt, Obj.regionState] using heq), hi]

theorem State.sense_inReset : s.sense.pin.inReset = s.pin.inReset := by
  unfold State.sense
  dsimp only
  split
  · rfl
  · rfl

theorem State.sense_cfg : s.sense.cfg = s.cfg := by
  unfold State.sense
  dsimp only
  split
  · rfl
  · rfl

theorem State.sense_pwr : s.sense.pwr = s.pwr := by
  unfold State.sense
  dsimp only
  split
  · rfl
  · rfl

theorem State.sense_boot : s.sense.boot = s.boot := by
  unfold State.sense
  dsimp only
  split
  · rfl
  · rfl

theorem State.sense_objs : s.sense.objs =
    ((s.setObj Obj.lifecycle (BitVec.ofNat 64 s.boot.lifecycle)).setObj Obj.pathCap (BitVec.ofNat 64 s.caps)).objs := by
  unfold State.sense
  dsimp only
  split
  · rfl
  · rfl

theorem State.sense_obj {k : Nat} (hlife : k ≠ Obj.lifecycle) (hcap : k ≠ Obj.pathCap) : s.sense.obj k = s.obj k := by
  rw [State.obj_congr s.sense_objs, State.obj_setObj_ne _ _ hcap, State.obj_setObj_ne _ _ hlife]

theorem State.latchStraps_strapLatch (straps : BitVec 4) : (s.latchStraps straps).obj Obj.strapLatch = straps.setWidth 64 :=
  (State.obj_setObj_ne _ _ (by decide)).trans (State.obj_setObj_same ..)

/-- Factory test mode is entered where it is asked for and may be. -/
theorem bootWord_factory (safe low asked may : Bool) :
    (BitVec.ofNat 64 ((if safe then 2 ^ 31 else 0) + (if low then 2 ^ 30 else 0) + (if asked && may then 2 ^ 29 else 0) +
      (if asked && !may then 2 ^ 28 else 0))).getLsbD 29 = (asked && may) := by
  cases safe <;> cases low <;> cases asked <;> cases may <;> decide

theorem State.latchStraps_factoryMode (straps : BitVec 4) : (s.latchStraps straps).factoryMode = true ↔
    straps.getLsbD 0 = true ∧ s.boot.lifecycle ≤ 1 ∧ s.obj Obj.debugDisable = 0 := by
  unfold State.factoryMode State.latchStraps
  rw [State.obj_setObj_same, bootWord_factory, Bool.and_eq_true, Bool.and_eq_true, decide_eq_true_eq, beq_iff_eq]
  exact and_congr_right' (and_congr_right' (BitVec.toNat_inj (y := 0#64)).symm.symm)

/-- The die as the release of its reset leaves it, before anything is recorded or raised. -/
def State.startedUp (straps : BitVec 4) (romOk : Bool) : State :=
  ((({ s with
    pin := { s.pin with inReset := false, rstN := true, pwrOk := true, sync := straps.getLsbD 1, syncAt := some s.now }
    flt := { s.flt with scanning := true }
    boot := { s.boot with romOk := romOk } } : State).latchStraps straps).sense).holdRegions

theorem Obj.ne_regionState {i : Nat} (hi : i < 0x212101) (k : Nat) : i ≠ Obj.regionState k := by
  intro h
  rw [h] at hi
  simp only [Obj.regionState] at hi
  omega

section
variable (straps : BitVec 4) (romOk : Bool)

theorem State.startedUp_running : (s.startedUp straps romOk).running = true := by
  unfold State.running State.startedUp
  rw [State.holdRegions_pin, State.sense_inReset]
  rfl

theorem State.startedUp_strapLatch : (s.startedUp straps romOk).obj Obj.strapLatch = straps.setWidth 64 := by
  unfold State.startedUp
  rw [State.holdRegions_obj _ fun k _ => Obj.ne_regionState (by decide) k, State.sense_obj _ (by decide) (by decide)]
  exact State.latchStraps_strapLatch ..

theorem State.startedUp_unstarted : (s.startedUp straps romOk).pwr.unstarted = List.range s.cfg.regions :=
  congrArg (fun c : Integration => List.range c.regions) (State.sense_cfg _)

theorem State.startedUp_factoryMode : (s.startedUp straps romOk).factoryMode = true ↔
    straps.getLsbD 0 = true ∧ s.boot.lifecycle ≤ 1 ∧ s.obj Obj.debugDisable = 0 := by
  have hboot : (s.startedUp straps romOk).factoryMode = (({ s with
      pin := { s.pin with inReset := false, rstN := true, pwrOk := true, sync := straps.getLsbD 1, syncAt := some s.now }
      flt := { s.flt with scanning := true }
      boot := { s.boot with romOk := romOk } } : State).latchStraps straps).factoryMode := by
    unfold State.factoryMode State.startedUp
    rw [State.holdRegions_obj _ fun k _ => Obj.ne_regionState (by decide) k, State.sense_obj _ (by decide) (by decide)]
  rw [hboot]
  exact State.latchStraps_factoryMode ..

theorem State.startedUp_regionSt {k : Nat} (hk : k < s.cfg.regions) :
    (s.startedUp straps romOk).rd (.regionSt k) = if s.pwr.down.contains k then 0 else 1 := by
  refine (State.holdRegions_regionSt _ (by rw [State.sense_cfg]; exact hk)).trans ?_
  rw [State.sense_pwr]
  rfl

theorem State.startedUp_lifecycle : (s.startedUp straps romOk).boot.lifecycle = s.boot.lifecycle := by
  unfold State.startedUp
  rw [State.holdRegions_boot, State.sense_boot]
  rfl
end
end

section
variable {s : State} {straps : BitVec 4} {romOk : Bool}

theorem exec_resetRelease (hreset : s.pin.inReset = true) (hbelow : s.pwr.below.contains 8 = false) (hdown : s.pwr.down.contains 8 = false)
    {s1 s2 : State} (hs1 : s1 = s.startedUp straps romOk)
    (hs2 : s2 = if s1.factoryMode then s1.recordEvent 0x0032 s1.boot.lifecycle 0 false else s1) :
    exec (.resetRelease straps romOk) s = .next (if romOk then s2 else s2.raise (Cause.plain 0x004)) := by
  subst hs1 hs2
  have hopen : ¬ (!s.pin.inReset ∨ s.pwr.below.contains 8 ∨ s.pwr.down.contains 8) := by rw [hreset, hbelow, hdown]; decide
  exact congrArg Host.Outcome.next (if_neg hopen)

theorem exec_resetRelease_waits (h : s.pin.inReset = false ∨ s.pwr.below.contains 8 = true ∨ s.pwr.down.contains 8 = true) :
    exec (.resetRelease straps romOk) s = .next s := by
  have hclosed : !s.pin.inReset ∨ s.pwr.below.contains 8 ∨ s.pwr.down.contains 8 := h.imp_left fun h => by rw [h]; rfl
  exact congrArg Host.Outcome.next (if_pos hclosed)

/-! ## Regions in turn -/

theorem State.trainBegin_obj (s : State) (b : Nat) {i : Nat} (hi : i ≠ Obj.bridgeStatus b) : (s.trainBegin b).obj i = s.obj i := by
  unfold State.trainBegin
  split
  · exact State.obj_wr_ne _ _ _ _ hi
  · rfl

theorem State.trainBegin_pwr (s : State) (b : Nat) : (s.trainBegin b).pwr = s.pwr := by
  unfold State.trainBegin
  split <;> rfl

theorem State.foldl_trainBegin_obj (bs : List Nat) {i : Nat} (hi : ∀ b ∈ bs, i ≠ Obj.bridgeStatus b) (s : State) :
    (bs.foldl State.trainBegin s).obj i = s.obj i :=
  List.foldlRecOn (motive := fun t : State => t.obj i = s.obj i) bs _ rfl (fun t ht b hb => (t.trainBegin_obj b (hi b hb)).trans ht)

theorem State.foldl_trainBegin_pwr (bs : List Nat) (s : State) : (bs.foldl State.trainBegin s).pwr = s.pwr :=
  List.foldlRecOn (motive := fun t : State => t.pwr = s.pwr) bs _ rfl (fun t ht b _ => (t.trainBegin_pwr b).trans ht)

theorem Obj.regionState_ne_bridgeStatus (k : Nat) {b : Nat} (hb : b < 4) : Obj.regionState k ≠ Obj.bridgeStatus b := by
  intro h
  simp only [Obj.regionState, Obj.bridgeStatus] at h
  omega

section
variable {k : Nat} (hrun : s.running = true) (hturn : s.pwr.unstarted.head? = some k) (hbelow : s.pwr.below.contains k = false)
  (hdown : s.pwr.down.contains k = false)
include hrun hturn hbelow hdown

/-- The region whose turn it is, released. -/
def State.regionStarted (s : State) (k : Nat) : State :=
  ({ s with pwr := { s.pwr with unstarted := s.pwr.unstarted.tail, lastActive := Tbl.set 0 s.pwr.lastActive k s.now } } : State).wr (.regionSt k) 2

theorem exec_regionStartRelease : exec (.regionStartRelease k) s = .next ((s.bridgesIn k).foldl State.trainBegin (s.regionStarted k)) := by
  have hopen : ¬ (!s.running ∨ s.pwr.unstarted.head? ≠ some k ∨ s.pwr.below.contains k ∨ s.pwr.down.contains k) := by
    rw [hrun, hturn, hbelow, hdown]
    simp
  exact congrArg Host.Outcome.next (if_neg hopen)

omit hrun hturn hbelow hdown

theorem State.bridgesIn_lt {b : Nat} (hb : b ∈ s.bridgesIn k) : b < 4 := List.mem_range.mp (List.mem_filter.mp hb).1

theorem State.regionStarted_obj {i : Nat} (hi : i ≠ Obj.regionState k) : (s.regionStarted k).obj i = s.obj i :=
  (State.obj_wr_ne _ _ _ _ hi).trans (State.obj_withPwr ..)
end

/-! ## The image -/

theorem exec_fwImageStart (hboot : s.bootRuns = true) (himage : s.boot.image ≠ []) (hfactory : s.factoryMode = false) (hhold : s.boot.holdAsked = false)
    (hsafe : s.safeStart = false ∨ s.boot.startAsked = true) : exec .fwImageStart s =
    .next ((({ (s.setDom Obj.measFw (sha384 s.boot.image)).bump .starts 1 with boot := { s.boot with startAsked := false } } : State).wr
      .coreState 4).armWatchdog) := by
  have hopen : ¬ (!s.bootRuns ∨ s.boot.image.isEmpty ∨ s.factoryMode ∨ s.boot.holdAsked ∨ (s.safeStart ∧ !s.boot.startAsked)) := by
    rw [hboot, hfactory, hhold]
    rcases hsafe with h | h <;> simp [himage, h]
  exact congrArg Host.Outcome.next (if_neg hopen)

theorem exec_fwImageStart_held (h : s.bootRuns = false ∨ s.boot.image = [] ∨ s.factoryMode = true ∨ s.boot.holdAsked = true ∨
    (s.safeStart = true ∧ s.boot.startAsked = false)) : exec .fwImageStart s = .next s := by
  have hclosed : !s.bootRuns ∨ s.boot.image.isEmpty ∨ s.factoryMode ∨ s.boot.holdAsked ∨ (s.safeStart ∧ !s.boot.startAsked) := by
    simpa using h
  exact congrArg Host.Outcome.next (if_pos hclosed)

theorem State.rd_withBoot (s : State) (x : BootState) (f : Fld) : ({ s with boot := x } : State).rd f = s.rd f := rfl

theorem State.obj_withBoot (s : State) (x : BootState) (k : Nat) : ({ s with boot := x } : State).obj k = s.obj k := rfl

theorem State.dom?_withBoot (s : State) (x : BootState) (k : Nat) : ({ s with boot := x } : State).dom? k = s.dom? k := rfl

theorem State.dom?_wr (s : State) (f : Fld) (x k : Nat) : (s.wr f x).dom? k = s.dom? k := rfl

theorem State.dom?_armWatchdog (s : State) (k : Nat) : s.armWatchdog.dom? k = s.dom? k := rfl

theorem State.dom?_setDom_same (s : State) (k : Nat) (bs : List Byte) : (s.setDom k bs).dom? k = some bs := by
  unfold State.dom? State.setDom
  simp only [Tbl.get_set_same]

theorem State.armWatchdog_wdt (s : State) : s.armWatchdog.boot.wdt = some (s.now + 1000 * (s.obj Obj.wdtPeriod).toNat) := rfl

theorem State.rd_armWatchdog (s : State) (f : Fld) : s.armWatchdog.rd f = s.rd f := rfl

theorem State.rd_setDom (s : State) (k : Nat) (bs : List Byte) (f : Fld) : (s.setDom k bs).rd f = s.rd f := rfl

theorem exec_firmwareRunning {rel : BitVec 32} (hrun : s.running = true) (hst : s.rd .coreState = 4) : exec (.firmwareRunning rel) s =
    .next (({ (s.wr .coreState 1).setObj Obj.fwRelease (rel.setWidth 64) with
      boot := { s.boot with expired := false } } : State).answerHeld.servePaths.firmwareBegins) := by
  have hopen : ¬ (!s.running ∨ s.rd .coreState ≠ 4) := by simp [hrun, hst]
  exact congrArg Host.Outcome.next (if_neg hopen)

/-! ## The watchdog -/

theorem exec_watchdogExpire {t0 : Nat} {s1 : State} (hwdt : s.boot.wdt = some t0) (hrun : s.running = true)
    (hs1 : s1 = (((s.advanceTo t0).bump .coreExpiries 1).raise (Cause.plain 0x001)).coreDown) : exec .watchdogExpire s =
    .next (if !s1.boot.expired then { s1.wr .coreState 2 with boot := { s1.boot with expired := true, coreHold := some (s1.now + 10000) } }
      else if s1.rd .coreSpare = 0 then s1.selectSpare else s1.stopCores.tierFell s.serviceTier) := by
  have hopen : ¬ (!s.running) = true := by simp [hrun]
  subst hs1
  simp only [exec, execWatchdogExpire, Boot.watchdog, hwdt, if_neg hopen]
  rfl

theorem exec_coreResetHoldExpire {t0 : Nat} (hhold : s.boot.coreHold = some t0) : exec .coreResetHoldExpire s =
    .next { ((s.advanceTo t0).wr .coreState 0).bump .coreRestarts 1 with boot := { s.boot with coreHold := none } } := by
  simp only [exec, execCoreResetHoldExpire, Boot.coreHeld, hhold]
  rfl

/-! ## Commands of the cores -/

theorem Boot.start_accepted (hboot : s.bootRuns = true) (himage : s.boot.image ≠ []) (hfactory : s.factoryMode = false) :
    Boot.start s = .ok (({ s with boot := { s.boot with startAsked := true, holdAsked := false } } : State).setObj Obj.fwCtrl 1) := by
  have hopen : ¬ (!s.bootRuns ∨ s.boot.image.isEmpty ∨ s.factoryMode) := by
    rw [hboot, hfactory]
    simp [himage]
  exact if_neg hopen

theorem Boot.start_refused (h : s.bootRuns = false ∨ s.boot.image = [] ∨ s.factoryMode = true) : Boot.start s = .error .badState := by
  have hclosed : !s.bootRuns ∨ s.boot.image.isEmpty ∨ s.factoryMode := by simpa using h
  exact if_pos hclosed

/-- A write that is refused has no further effect. -/
theorem State.serveThen_refused {acc : Access} {k : Nat} {r : ObjRow} {v : Val} {eff : Val → Effect} {after : State → State} {a : Abort}
    (h : s.MayWrite acc k r) (he : eff (s.value acc k r v) s = .error a) :
    s.serveThen acc k v eff after = s.abortRequest acc 2 (k / 256) (k % 256) 0 a := by
  obtain ⟨hserves, hcheck⟩ := h
  unfold State.value at he
  simp [State.serveThen, hserves, hcheck, he]

section
variable {acc : Access} {v : BitVec 8} {r : ObjRow} {x : Val} {a : State}

theorem exec_coreSelWrite_refused (hmay : s.MayWrite acc Obj.coreSel r) (hx : x = s.value acc Obj.coreSel r (v.setWidth 64))
    (hzero : fget x 0 1 = 0) (hspare : s.rd .coreSpare = 1) : exec (.coreSelWrite acc v) s =
    .next (s.abortRequest acc 2 (Obj.coreSel / 256) (Obj.coreSel % 256) 0 .badState) := by
  subst hx
  exact congrArg Host.Outcome.next (State.serveThen_refused (eff := Boot.selectMay) hmay (if_pos ⟨hzero, hspare⟩))

theorem exec_coreSelWrite_accepted (hmay : s.MayWrite acc Obj.coreSel r) (hx : x = s.value acc Obj.coreSel r (v.setWidth 64))
    (ha : a = s.written acc Obj.coreSel r.ty) (hsel : fget x 0 1 = 1 ∨ s.rd .coreSpare = 0) : exec (.coreSelWrite acc v) s =
    .next (if v.getLsbD 0 ∧ a.rd .coreSpare = 0 then a.coreDown.selectSpare else a) := by
  subst hx ha
  exact congrArg Host.Outcome.next (State.serveThen_next (eff := Boot.selectMay) hmay (if_neg (by omega)))
end
end

/-- Settles O54. START in factory test mode, the use of CORE_SEL while the spare is active, and the regions RESET at the release are the
model's choices (log entries 42 and 45). -/
theorem startUpReachesFirmware : Obligations.StartUpReachesFirmware := by
  unfold Obligations.StartUpReachesFirmware
  intro s
  refine ⟨fun pin ns => ⟨fun hshort => congrArg _ (if_pos hshort), fun hlong hheld => ?held, fun hlong hup hcanon => ?assert⟩,
    fun straps romOk s1 hreset hbelow hdown hs1 => ?release, fun straps romOk => exec_resetRelease_waits,
    fun k hrun hturn hbelow hdown => ?region, fun hboot himage hfactory hhold hsafe => ?image, exec_fwImageStart_held,
    fun rel => exec_firmwareRunning, fun t0 s1 hwdt hrun hs1 => ?watchdog, fun t0 hhold => ?restart,
    fun acc r hmay => ⟨fun hboot himage hfactory => ?start, fun hno => ?noStart, ?hold⟩,
    fun acc v r x a hmay hx ha => ⟨exec_coreSelWrite_refused hmay hx, fun hsel => ?select⟩,
    fun acc v r x hmay hx => ⟨fun hkick => ?kick, fun hother => ?noKick⟩⟩
  case held =>
    rw [exec_powerOnResetAssert hlong, if_pos hheld]
    cases pin <;> rfl
  case assert =>
    have hnot : ¬ s.pin.inReset = true := by simp [hup]
    refine ⟨_, (exec_powerOnResetAssert hlong).trans (congrArg _ (if_neg hnot)), rfl, rfl, ?_, rfl, rfl, fun k hk => ?_⟩
    · exact State.powerOnReset_source _ (by split <;> decide)
    · exact State.powerOnReset_obj hcanon _ hk
  case release =>
    have hup : s1 = s.startedUp straps romOk := hs1
    have hlife : s1.boot.lifecycle = s.boot.lifecycle := hup ▸ s.startedUp_lifecycle straps romOk
    refine ⟨hup ▸ s.startedUp_running .., hup ▸ s.startedUp_strapLatch .., hup ▸ s.startedUp_unstarted .., hup ▸ s.startedUp_factoryMode ..,
      fun k hk => hup ▸ s.startedUp_regionSt _ _ hk, fun hrom hfactory => ?_, fun hrom hfactory => ?_, fun hrom hfactory => ?_,
      fun hrom hfactory => ?_⟩
    · rw [exec_resetRelease hreset hbelow hdown hup rfl, hrom, if_pos rfl, if_neg (by simp [hfactory])]
    · rw [exec_resetRelease hreset hbelow hdown hup rfl, hrom, if_pos rfl, if_pos hfactory, hlife]
    · rw [exec_resetRelease hreset hbelow hdown hup rfl, hrom, if_neg (by decide), if_neg (by simp [hfactory])]
    · rw [exec_resetRelease hreset hbelow hdown hup rfl, hrom, if_neg (by decide), if_pos hfactory, hlife]
  case region =>
    refine ⟨_, exec_regionStartRelease hrun hturn hbelow hdown, ?_, ?_, fun i hi hbridges => ?_⟩
    · refine (State.rd_of_obj (State.foldl_trainBegin_obj _ (fun b hb => Obj.regionState_ne_bridgeStatus k (State.bridgesIn_lt hb)) _)).trans ?_
      exact State.rd_wr_same _ _ _ (by simp [Fld.regionSt])
    · rw [State.foldl_trainBegin_pwr]
      rfl
    · rw [State.foldl_trainBegin_obj _ hbridges, State.regionStarted_obj hi]
  case image =>
    refine ⟨_, exec_fwImageStart hboot himage hfactory hhold hsafe, ?_, ?_, ?_, ?_⟩
    · rw [State.rd_armWatchdog, State.rd_wr_same _ _ _ (by decide)]
      rfl
    · rw [State.dom?_armWatchdog, State.dom?_wr, State.dom?_withBoot, State.bump, State.dom?_wr]
      exact State.dom?_setDom_same ..
    · refine (State.armWatchdog_wdt _).trans (congrArg (fun v : Val => some (s.now + 1000 * v.toNat)) ?_)
      rw [State.obj_wr_ne _ _ _ _ (by decide), State.obj_withBoot, State.bump, State.obj_wr_ne _ _ _ _ (by decide), State.obj_setDom]
    · rw [State.rd_armWatchdog, State.rd_wr_obj_ne _ _ _ _ (by decide), State.rd_withBoot, State.rd_bump_same _ _ _ (by decide), State.rd_setDom]
      rfl
  case watchdog =>
    have hexec := exec_watchdogExpire hwdt hrun hs1
    refine ⟨fun hfirst => ?_, fun hagain hspare => ?_, fun hagain hspare => ?_⟩
    · refine ⟨_, hexec.trans (congrArg _ (if_pos (by simp [hfirst]))), ?_, rfl, rfl⟩
      rw [State.rd_withBoot, State.rd_wr_same _ _ _ (by decide)]
      rfl
    · rw [hexec, if_neg (by simp [hagain]), if_pos hspare]
    · rw [hexec, if_neg (by simp [hagain]), if_neg hspare]
  case restart =>
    refine ⟨_, exec_coreResetHoldExpire hhold, ?_, rfl⟩
    rw [State.rd_withBoot, State.bump, State.rd_wr_apart _ _ _ _ (by decide) (by decide) (by decide), State.rd_wr_same _ _ _ (by decide)]
    rfl
  case start => exact congrArg _ (State.serveKey_next (eff := fun _ => Boot.start) hmay (Boot.start_accepted hboot himage hfactory))
  case noStart => exact congrArg _ (State.serveKey_refused (eff := fun _ => Boot.start) hmay (Boot.start_refused hno))
  case hold => exact congrArg _ (State.serveThen_next (eff := fun _ => storeVal Obj.fwCtrl 2) hmay rfl)
  case select =>
    have hexec := exec_coreSelWrite_accepted hmay hx ha hsel
    exact ⟨fun hv hspare => by rw [hexec, if_pos ⟨hv, hspare⟩], fun hno => by rw [hexec, if_neg (by rintro ⟨hv, hs⟩; simp_all)]⟩
  case kick =>
    subst hx
    exact congrArg _ (State.serveKey_next (eff := Boot.kick) hmay (if_neg (Classical.not_not.mpr hkick)))
  case noKick =>
    subst hx
    exact congrArg _ (State.serveKey_refused (eff := Boot.kick) hmay (if_pos hother))

end Sys2Proof.Machine
end

section
/-! PROOFS. Resets of the die and the package, and the fuses. -/

namespace Sys2Proof.Machine

/-! ## The parts of a restart -/

section
variable (s : State)

/-- A pass whose steps write objects writes objects. -/
theorem State.foldl_objs {α : Type} {f : State → α → State} (hf : ∀ (t : State) a, ∃ objs, f t a = { t with objs := objs }) (xs : List α) :
    ∃ objs, xs.foldl f s = { s with objs := objs } :=
  List.foldlRecOn (motive := fun t : State => ∃ objs, t = { s with objs := objs }) _ _ ⟨s.objs, rfl⟩ fun t ⟨objs, ht⟩ a _ => by
    obtain ⟨objs', h⟩ := hf t a
    exact ⟨objs', by rw [h, ht]⟩

/-- Holding the regions changes objects, and which regions wait for their release. -/
theorem State.holdRegions_eq : ∃ objs, s.holdRegions = { s with objs := objs, pwr := { s.pwr with unstarted := List.range s.cfg.regions } } := by
  obtain ⟨objs, h⟩ := s.foldl_objs (f := fun a k => a.wr (.regionSt k) (if a.pwr.down.contains k then 0 else 1)) (fun t k => ⟨_, rfl⟩)
    (List.range s.cfg.regions)
  exact ⟨objs, congrArg (fun t : State => { t with pwr := { t.pwr with unstarted := List.range s.cfg.regions } }) h⟩

/-- Sensing the fuses changes objects, and draws the random bits of the provisional identifier. -/
theorem State.sense_eq : ∃ objs pin drawn, s.sense = { s with objs := objs, pin := pin, drawn := drawn } := by
  unfold State.sense
  dsimp only
  split
  · exact ⟨_, _, _, rfl⟩
  · exact ⟨_, _, _, rfl⟩

theorem State.settleSplit_eq : ∃ objs, s.settleSplit = { s with objs := objs, flt := { s.flt with split := [] } } := by
  unfold State.settleSplit
  extract_lets s1
  obtain ⟨objs, h⟩ : ∃ objs, s1 = { s with objs := objs } := s.foldl_objs (fun t p => ⟨_, rfl⟩) _
  exact ⟨objs, congrArg (fun t : State => { t with flt := { t.flt with split := [] } }) h⟩

/-- The die with what a reset of class D leaves, before its start. -/
def State.restored : State :=
  { s.settleSplit.resetTo .d with
    flt := { (s.settleSplit.resetTo .d).flt with
      lastCount := s.settleSplit.flt.lastCount, queue := s.settleSplit.flt.queue, scanning := s.settleSplit.flt.scanning }
    obs := { (s.settleSplit.resetTo .d).obs with
      store := s.settleSplit.obs.store, seq := s.settleSplit.obs.seq, left := s.settleSplit.obs.left }
    brg := { (s.settleSplit.resetTo .d).brg with pos := s.settleSplit.brg.pos }
    boot := { (s.settleSplit.resetTo .d).boot with remeasure := true } }

/-- The restored die with its cores: those that have stopped stay so. -/
def State.restoredCores : State := (if s.restored.rd .coreState = 3 then s.restored else s.restored.wr .coreState 0).setObj Obj.fwRelease 0

theorem State.restartDie_unfold : s.restartDie =
    if (List.range s.cfg.regions).any (fun k => decide ((s.obj (Obj.railTarget k)).toNat < 750))
    then s.restoredCores.sense.holdRegions.tbPeriodFrom.ibi 0x52 else s.restoredCores.sense.holdRegions.tbPeriodFrom := rfl

theorem State.restoredCores_eq : ∃ objs, s.restoredCores = { s.restored with objs := objs } := by
  unfold State.restoredCores
  split
  · exact ⟨_, rfl⟩
  · exact ⟨_, rfl⟩

theorem State.ibi_eq (b : Byte) : ∃ out, s.ibi b = { s with out := out } := by
  unfold State.ibi
  split
  · exact ⟨s.out, rfl⟩
  · exact ⟨_, rfl⟩

/-- A restarted die is the restored one, started up to where its regions wait. -/
theorem State.restartDie_eq : ∃ objs pin drawn out brg, s.restartDie = { s.restored with
    objs := objs, pin := pin, drawn := drawn, out := out, brg := brg, pwr := { s.restored.pwr with unstarted := List.range s.restored.cfg.regions } } := by
  obtain ⟨objs, hcores⟩ := s.restoredCores_eq
  obtain ⟨objs1, pin, drawn, hsense⟩ := s.restoredCores.sense_eq
  obtain ⟨objs2, hhold⟩ := s.restoredCores.sense.holdRegions_eq
  rw [hsense, hcores] at hhold
  rw [State.restartDie_unfold]
  split
  · obtain ⟨out, hibi⟩ := s.restoredCores.sense.holdRegions.tbPeriodFrom.ibi_eq 0x52
    rw [hibi, hsense, hcores, hhold]
    exact ⟨_, _, _, _, _, rfl⟩
  · rw [hsense, hcores, hhold]
    exact ⟨_, _, _, _, _, rfl⟩

theorem State.restored_shows : s.restored.now = 0 ∧ s.restored.pending = s.pending ∧ s.restored.cfg = s.cfg ∧ s.restored.wards = [] := by
  obtain ⟨objs, h⟩ := s.settleSplit_eq
  unfold State.restored
  rw [h]
  exact ⟨rfl, rfl, rfl, rfl⟩

theorem State.restartDie_shows : s.restartDie.now = 0 ∧ s.restartDie.pending = s.pending ∧ s.restartDie.cfg = s.cfg ∧
    s.restartDie.pwr.unstarted = List.range s.cfg.regions ∧ s.restartDie.wards = [] := by
  obtain ⟨hnow, hpending, hcfg, hwards⟩ := s.restored_shows
  obtain ⟨objs, pin, drawn, out, brg, h⟩ := s.restartDie_eq
  rw [h]
  exact ⟨hnow, hpending, hcfg, congrArg (fun c : Integration => List.range c.regions) hcfg, hwards⟩
end

/-! ## The objects of a restarted die -/

section
variable {s : State} (hcanon : s.canonical = true) (hsplit : s.flt.split = [])
include hcanon hsplit

theorem State.restored_obj (k : Nat) : s.restored.obj k = Obj.afterReset .d k (s.obj k) := by
  have hsame : s.settleSplit = { s with flt := { s.flt with split := [] } } := by
    unfold State.settleSplit
    rw [hsplit]
    rfl
  have hkept := State.get_keptObjs (s := s.settleSplit) (by rw [hsame]; exact hcanon) .d k
  rw [hsame] at hkept
  refine Eq.trans ?_ hkept
  unfold State.restored
  rw [hsame]
  rfl

theorem State.restored_coreState : s.restored.rd .coreState = s.rd .coreState := by
  refine State.rd_of_obj ((State.restored_obj hcanon hsplit Obj.coreState).trans ?_)
  have hkeeps : Obj.keeps .d Obj.coreState = BitVec.allOnes 64 := by decide
  unfold Obj.afterReset
  rw [hkeeps, BitVec.and_allOnes, BitVec.not_allOnes, BitVec.and_zero, BitVec.or_zero]
  rfl

theorem State.restoredCores_coreState : s.restoredCores.rd .coreState = if s.rd .coreState = 3 then 3 else 0 := by
  unfold State.restoredCores
  rw [State.restored_coreState hcanon hsplit, State.rd_setObj_ne _ _ _ _ (by decide)]
  split
  next h => rw [State.restored_coreState hcanon hsplit, h]
  next => exact State.rd_wr_same _ _ _ (by decide)

theorem State.restoredCores_obj {k : Nat} (hcore : k ≠ Obj.coreState) (hrelease : k ≠ Obj.fwRelease) :
    s.restoredCores.obj k = Obj.afterReset .d k (s.obj k) := by
  unfold State.restoredCores
  rw [State.obj_setObj_ne _ _ hrelease]
  split
  · exact State.restored_obj hcanon hsplit k
  · exact (State.obj_wr_ne _ _ _ _ hcore).trans (State.restored_obj hcanon hsplit k)

omit hcanon hsplit

theorem State.obj_tbPeriodFrom (s : State) (k : Nat) : s.tbPeriodFrom.obj k = s.obj k := rfl

theorem State.restartDie_obj {k : Nat} (hlife : k ≠ Obj.lifecycle) (hcap : k ≠ Obj.pathCap) (hregions : ∀ i < s.cfg.regions, k ≠ Obj.regionState i) :
    s.restartDie.obj k = s.restoredCores.obj k := by
  have hcfg : s.restoredCores.sense.cfg = s.cfg := by
    obtain ⟨objs, hcores⟩ := s.restoredCores_eq
    rw [State.sense_cfg, hcores]
    exact s.restored_shows.2.2.1
  have hstart : s.restoredCores.sense.holdRegions.tbPeriodFrom.obj k = s.restoredCores.obj k := by
    rw [State.obj_tbPeriodFrom, State.holdRegions_obj _ (by rw [hcfg]; exact hregions), State.sense_obj _ hlife hcap]
  rw [State.restartDie_unfold]
  split
  · rw [State.obj_congr (State.ibi_objs ..), hstart]
  · exact hstart
end

/-! ## Resets -/

section
variable {s : State} {acc : Access} {v : BitVec 8} {r : ObjRow}

theorem State.packageReset_eq (s : State) (source : Nat) :
    ∃ (t : State) (boot : BootState), s.packageReset source = { t.restartDie with brg := BridgeState.reset, boot := boot } := by
  unfold State.packageReset
  extract_lets s1 s2 s3 s4
  exact ⟨{ s3 with objs := s3.keptObjs .k, doms := s3.keptDoms .k }, { s4.boot with remeasure := false }, rfl⟩

theorem State.packageReset_shows (s : State) (source : Nat) : (s.packageReset source).brg = BridgeState.reset ∧ (s.packageReset source).now = 0 := by
  obtain ⟨t, boot, h⟩ := s.packageReset_eq source
  rw [h]
  exact ⟨rfl, t.restartDie_shows.1⟩

theorem exec_pkgResetReceive (hrun : s.running = true) : exec .pkgResetReceive s = .next (s.packageReset 4) :=
  congrArg Host.Outcome.next (if_pos hrun)

/-! ## Fuses -/

section
variable {x : Val}

theorem Fuse.writeCaps_again (h : s.boot.capsFused = true) : Fuse.writeCaps x s = .error .inUse := if_pos h

theorem Fuse.writeCaps_late (h : s.boot.capsFused = false) (hlife : s.lifecycle ≠ 0) : Fuse.writeCaps x s = .error .badState :=
  (if_neg (by simp [h])).trans (if_pos hlife)

theorem Fuse.writeCaps_blank (h : s.boot.capsFused = false) (hlife : s.lifecycle = 0) : Fuse.writeCaps x s =
    if 3 < fget x 0 3 ∨ 3 < fget x 3 3 ∨ (fget x 6 3 ≠ 0 ∧ fget x 6 3 ≠ 1 ∧ fget x 6 3 ≠ 7) then .error .outOfRange
    else .ok (({ s with boot := { s.boot with capsFused := true } } : State).setObj Obj.fuseCaps x) :=
  (if_neg (by simp [h])).trans (if_neg (Classical.not_not.mpr hlife))

theorem Fuse.advance_retired (h : s.lifecycle = 3) : Fuse.advance x s = .error .badState := if_pos h

theorem Fuse.advance_outOfRange (h : s.lifecycle ≠ 3) (hx : x.toNat ≠ s.lifecycle + 1) : Fuse.advance x s = .error .outOfRange :=
  (if_neg h).trans (if_pos hx)

theorem Fuse.advance_unready (hx : x.toNat = s.lifecycle + 1) (h : (s.lifecycle = 0 ∧ (s.boot.capsFused = false ∨ s.boot.provFused = false)) ∨
    (s.lifecycle = 1 ∧ (s.boot.certFused = false ∨ s.boot.keyFused = false))) : Fuse.advance x s = .error .badState := by
  have hneeds : (s.lifecycle = 0 ∧ !(s.boot.capsFused ∧ s.boot.provFused)) ∨ (s.lifecycle = 1 ∧ !(s.boot.certFused ∧ s.boot.keyFused)) := by
    refine h.imp (And.imp_right fun h => ?_) (And.imp_right fun h => ?_)
    · rcases h with h | h <;> simp [h]
    · rcases h with h | h <;> simp [h]
  exact (if_neg (by omega)).trans ((if_neg (Classical.not_not.mpr hx)).trans (if_pos hneeds))

theorem Fuse.advance_ready (hx : x.toNat = s.lifecycle + 1) (h : (s.lifecycle = 0 ∧ s.boot.capsFused = true ∧ s.boot.provFused = true) ∨
    (s.lifecycle = 1 ∧ s.boot.certFused = true ∧ s.boot.keyFused = true) ∨ s.lifecycle = 2) {s1 : State}
    (hs1 : s1 = { s with boot := { s.boot with lifecycle := max s.boot.lifecycle (s.lifecycle + 1) } }) : Fuse.advance x s =
    .ok ((if s.lifecycle = 1 then s1.setObj Obj.debugDisable 1 else s1).recordEvent 0x0033 (s.lifecycle + 1) 0 false) := by
  subst hs1
  have hneeds : ¬ ((s.lifecycle = 0 ∧ !(s.boot.capsFused ∧ s.boot.provFused)) ∨ (s.lifecycle = 1 ∧ !(s.boot.certFused ∧ s.boot.keyFused))) := by
    rcases h with ⟨hl, h, h'⟩ | ⟨hl, h, h'⟩ | hl
    · simp [hl, h, h']
    · simp [hl, h, h']
    · simp [hl]
  exact (if_neg (by omega)).trans ((if_neg (Classical.not_not.mpr hx)).trans (if_neg hneeds))
end
end

/-- Settles O55. That the answer comes before the reset and the die starts at once, and that LIFECYCLE is compared with the sensed value, are
the model's choices (log entries 40 and 41). -/
theorem resetsRestoreAndFusesHold : Obligations.ResetsRestoreAndFusesHold := by
  unfold Obligations.ResetsRestoreAndFusesHold
  intro s
  obtain ⟨hnow, hpending, hcfg, hunstarted, hwards⟩ := s.restartDie_shows
  refine ⟨fun acc v r hmay => ⟨fun hgood => congrArg _ (State.serveThen_next (eff := Boot.resetMay 0xD1) hmay (if_pos hgood)),
      fun hbad => congrArg _ (State.serveThen_refused (eff := Boot.resetMay 0xD1) hmay (if_neg hbad))⟩,
    fun acc v r hmay => ⟨fun hgood => congrArg _ (State.serveThen_next (eff := Boot.resetMay 0xA5) hmay (if_pos hgood)),
      fun hbad => congrArg _ (State.serveThen_refused (eff := Boot.resetMay 0xA5) hmay (if_neg hbad))⟩,
    exec_pkgResetReceive, s.packageReset_shows, ⟨hnow, hpending, hcfg, hunstarted, hwards, fun hcanon hsplit => ⟨?cores, ?kept⟩⟩,
    fun acc v r x refused hmay hx hrefused => ?caps,
    fun acc v r x hmay hx => hx ▸ congrArg _ (State.serveKey_next (eff := Fuse.writeDebug) hmay rfl),
    fun acc v r x refused hmay hx hrefused => ?lifecycle⟩
  case cores =>
    rw [State.rd_of_obj (f := .coreState) (State.restartDie_obj (by decide) (by decide) fun i _ => Obj.ne_regionState (by decide) i)]
    exact State.restoredCores_coreState hcanon hsplit
  case kept =>
    intro k hcore hrelease hlife hcap hregions
    rw [State.restartDie_obj hlife hcap hregions, State.restoredCores_obj hcanon hsplit hcore hrelease]
  case caps =>
    simp only [hrefused]
    have taken {t : State} (heff : Fuse.writeCaps x s = .ok t) : exec (.fuseCaps acc v) s = .next (t.written acc Obj.fuseCaps r.ty) :=
      congrArg _ (State.serveKey_next (eff := Fuse.writeCaps) hmay (hx ▸ heff))
    have bad {a : Abort} (heff : Fuse.writeCaps x s = .error a) : exec (.fuseCaps acc v) s =
        .next (s.abortRequest acc 2 (Obj.fuseCaps / 256) (Obj.fuseCaps % 256) 0 a) :=
      congrArg _ (State.serveKey_refused (eff := Fuse.writeCaps) hmay (hx ▸ heff))
    exact ⟨fun h => bad (Fuse.writeCaps_again h), fun h hlife => bad (Fuse.writeCaps_late h hlife), fun h hlife =>
      ⟨fun hbus hbox hband => taken ((Fuse.writeCaps_blank h hlife).trans (if_neg (by omega))),
        fun hout => bad ((Fuse.writeCaps_blank h hlife).trans (if_pos hout))⟩⟩
  case lifecycle =>
    simp only [hrefused]
    have taken {t : State} (heff : Fuse.advance x s = .ok t) : exec (.lifecycleAdvance acc v) s = .next (t.written acc Obj.lifecycleAdvance r.ty) :=
      congrArg _ (State.serveKey_next (eff := Fuse.advance) hmay (hx ▸ heff))
    have bad {a : Abort} (heff : Fuse.advance x s = .error a) : exec (.lifecycleAdvance acc v) s =
        .next (s.abortRequest acc 2 (Obj.lifecycleAdvance / 256) (Obj.lifecycleAdvance % 256) 0 a) :=
      congrArg _ (State.serveKey_refused (eff := Fuse.advance) hmay (hx ▸ heff))
    exact ⟨fun h => bad (Fuse.advance_retired h), fun h hne => bad (Fuse.advance_outOfRange h hne), fun hval h => bad (Fuse.advance_unready hval h),
      fun hval h s1 hs1 => taken (Fuse.advance_ready hval h hs1)⟩

end Sys2Proof.Machine
end

-- ==== PROOFS: O56, pins, clocks and adapter resets ====
section
/-! PROOFS. What comes in at SYNC, TIMEREF, the port clocks and the adapter resets (O56). -/

namespace Sys2Proof.Machine

section
variable {s : State} {n : Nat} {side : Side}

/-! ## SYNC and TIMEREF -/

/-- The state in which a rising edge of SYNC has been latched and counted. -/
def State.syncLatched (s : State) : State :=
  (({ s with pin := { s.pin with sync := true, syncAt := some s.now } } : State).setObj Obj.syncTime
    (BitVec.ofNat 64 s.now)).bumpWrap ⟨Obj.syncCount, 0, 32⟩ 1

theorem State.syncLatched_obj {k : Nat} (htime : k ≠ Obj.syncTime) (hcount : k ≠ Obj.syncCount) : s.syncLatched.obj k = s.obj k := by
  unfold State.syncLatched State.bumpWrap
  rw [State.obj_wr_ne _ _ _ _ hcount, State.obj_setObj_ne _ _ htime]
  rfl

theorem State.syncLatched_syncTime : s.syncLatched.obj Obj.syncTime = BitVec.ofNat 64 s.now := by
  unfold State.syncLatched State.bumpWrap
  rw [State.obj_wr_ne _ _ _ _ (show Obj.syncTime ≠ Obj.syncCount by decide), State.obj_setObj_same]

theorem State.syncLatched_syncCount :
    s.syncLatched.rd ⟨Obj.syncCount, 0, 32⟩ = (s.rd ⟨Obj.syncCount, 0, 32⟩ + 1) % 2 ^ 32 := by
  unfold State.syncLatched
  rw [State.rd_bumpWrap_same _ _ _ (by decide), State.rd_setObj_ne _ _ _ _ (show Obj.syncCount ≠ Obj.syncTime by decide)]
  rfl

theorem State.syncLatched_syncFreeze : s.syncLatched.rd .syncFreeze = s.rd .syncFreeze :=
  State.rd_of_obj (State.syncLatched_obj (by decide) (by decide))

theorem State.syncLatched_frozen : s.syncLatched.frozen = s.frozen := by
  simp only [State.frozen, State.rd_of_obj (f := .freezeState) (State.syncLatched_obj (s := s) (by decide) (by decide))]

theorem exec_syncEdge (hrunning : s.running = true) (hmode : s.factoryMode = false) : exec .syncEdge s =
    .next (if s.syncLatched.rd .syncFreeze = 1 ∧ !s.syncLatched.frozen then s.syncLatched.freezeBegin 1 2 else s.syncLatched) :=
  congrArg Host.Outcome.next (if_neg (by simp [hrunning, hmode]))

theorem exec_syncEdge_freezes (hrunning : s.running = true) (hmode : s.factoryMode = false) (hset : s.rd .syncFreeze = 1)
    (hfree : s.frozen = false) : exec .syncEdge s = .next (s.syncLatched.freezeBegin 1 2) := by
  rw [exec_syncEdge hrunning hmode, if_pos ⟨by rw [State.syncLatched_syncFreeze, hset], by rw [State.syncLatched_frozen, hfree]; rfl⟩]

theorem exec_syncEdge_counts (hrunning : s.running = true) (hmode : s.factoryMode = false) (h : s.rd .syncFreeze ≠ 1 ∨ s.frozen = true) :
    exec .syncEdge s = .next s.syncLatched := by
  rw [exec_syncEdge hrunning hmode, if_neg]
  rintro ⟨hset, hfree⟩
  rw [State.syncLatched_syncFreeze] at hset
  rw [State.syncLatched_frozen] at hfree
  rcases h with h | h
  · exact h hset
  · simp [h] at hfree

theorem exec_syncEdge_unheeded (h : s.running = false ∨ s.factoryMode = true) : exec .syncEdge s = .next s :=
  congrArg Host.Outcome.next (if_pos (by rcases h with h | h <;> simp [h]))

theorem exec_timerefLoss (hrunning : s.running = true) (hok : s.pin.timerefOk = true) : exec .timerefLoss s =
    .next (((({ s with pin := { s.pin with timerefOk := false } } : State).bump ⟨Obj.timerefLoss, 0, 16⟩ 1).raise
      (Cause.plain 0x005)).tierFell s.serviceTier) :=
  congrArg Host.Outcome.next (if_neg (by simp [hrunning, hok]))

/-- The state in which what is measured from TIMEREF begins anew: the hall's offset at the master, the die's own elsewhere. -/
def State.timerefBack (s1 : State) : State :=
  if s1.isMaster then (s1.setObj Obj.hallError 0xFFFFFFFF).hallBegin else s1.setObj Obj.tbError 0xFFFFFFFF

theorem exec_timerefReturn (hrunning : s.running = true) (hgone : s.pin.timerefOk = false) {s2 : State}
    (hs2 : s2 = ({ s with pin := { s.pin with timerefOk := true } } : State).timerefBack) :
    exec .timerefReturn s = .next (if s2.enumerated then s2.measureAgain else s2) := by
  have hopen : ¬ (!s.running ∨ s.pin.timerefOk = true) := by simp [hrunning, hgone]
  refine congrArg Host.Outcome.next ((if_neg hopen).trans ?_)
  subst hs2
  unfold State.timerefBack
  dsimp only
  split <;> rfl

/-- The state once the oscillator has been trimmed at `t` (R67). -/
def State.trimmedAt (s : State) (t : Nat) : State :=
  { s.advanceTo t with pin := { (s.advanceTo t).pin with lastTrim := (s.advanceTo t).now } }

theorem State.trimmedAt_now (s : State) (t : Nat) : (s.trimmedAt t).now = max s.now t := by
  change s.now + (t - s.now) = max s.now t
  omega

theorem State.trimmedAt_lastTrim (s : State) (t : Nat) : (s.trimmedAt t).pin.lastTrim = (s.trimmedAt t).now := rfl

theorem State.trimmedAt_objs (s : State) (t : Nat) : (s.trimmedAt t).objs = s.objs := rfl

theorem exec_oscillatorTrim (hrunning : s.running = true) (hok : s.pin.timerefOk = true) :
    exec .oscillatorTrim s = .next (s.trimmedAt (s.pin.lastTrim + 1000000)) :=
  congrArg Host.Outcome.next (if_neg (by simp [hrunning, hok]))

/-! ## Port clocks -/

theorem exec_adapterClockStop (hthere : s.cfg.hasAdapter n side = true) (hruns : s.clockStopped n side = false) :
    exec (.adapterClockStop n side) s =
      .next (({ s with pin := { s.pin with stopped := s.pin.stopped ++ [adapterKey n side] } } : State).setObj (clockKey n side) 0) :=
  congrArg Host.Outcome.next (if_neg (by simp [hthere, hruns]))

theorem exec_adapterClockStart (hstopped : s.clockStopped n side = true) : exec (.adapterClockStart n side) s =
    .next (({ s with pin := { s.pin with stopped := s.pin.stopped.erase (adapterKey n side) } } : State).adapterResumes n side) :=
  congrArg Host.Outcome.next (if_neg (by simp [hstopped]))

theorem exec_adapterClockMeasure {mhz : BitVec 16} (hthere : s.cfg.hasAdapter n side = true) (hrunning : s.running = true) :
    exec (.adapterClockMeasure n side mhz) s =
      .next (s.setObj (clockKey n side) (if s.clockStopped n side then 0 else mhz.setWidth 64)) :=
  congrArg Host.Outcome.next (if_neg (by simp [hthere, hrunning]))

/-! ## Adapter resets -/

theorem exec_adapterResetAssert (hthere : s.cfg.hasAdapter n side = true) (hfree : s.adapterHeld n side = false) {s1 : State}
    (hs1 : s1 = { s with pin := { s.pin with held := s.pin.held ++ [adapterKey n side] } }) :
    exec (.adapterResetAssert n side) s = .next (if s1.running then s1.portReset n side else s1) :=
  hs1 ▸ congrArg Host.Outcome.next (if_neg (by simp [hthere, hfree]))

theorem exec_adapterResetRelease (hheld : s.adapterHeld n side = true) : exec (.adapterResetRelease n side) s =
    .next (({ s with pin := { s.pin with held := s.pin.held.erase (adapterKey n side) } } : State).adapterResumes n side) :=
  congrArg Host.Outcome.next (if_neg (by simp [hheld]))

theorem State.loseDelivery_dlv : (s.loseDelivery n side).dlv n (sidePort side) = TDlv.zero :=
  Tbl.get_set_same TDlv.zero s.ten.dlvs (8 * n + sidePort side) TDlv.zero

theorem State.loseDelivery_waitFirst : adapterKey n side ∈ (s.loseDelivery n side).pin.waitFirst := by
  change adapterKey n side ∈ (if s.pin.waitFirst.contains (adapterKey n side) then s.pin.waitFirst else s.pin.waitFirst ++ [adapterKey n side])
  split
  case isTrue h => exact List.contains_iff_mem.mp h
  case isFalse h => exact List.mem_append_right _ (List.mem_singleton.mpr rfl)

theorem State.sock_setSock_zero {k m : Nat} (h : s.sock n m = Sock.zero) : (s.setSock n k Sock.zero).sock n m = Sock.zero := by
  by_cases hkm : k = m
  · rw [hkm, State.sock_setSock_same]
  · exact (Tbl.get_set_ne Sock.zero Sock.zero s.ctl.socks Sock.zero (by unfold sockKey; omega)).trans h

theorem State.emptySockets_sock {k : Nat} (hk : k < s.cfg.sockets n) : (s.emptySockets n).sock n k = Sock.zero :=
  foldl_holds_of_mem (I := fun _ => True) (P := fun (t : State) m => t.sock n m = Sock.zero) (fun _ _ _ _ => trivial)
    (fun _ _ _ _ => State.sock_setSock_same _ Sock.zero) (fun t _ _ _ _ h => State.sock_setSock_zero (s := t.bump _ _) h) trivial
    (.inl (List.mem_range.mpr hk))
end

/-- Settles O56. -/
theorem pinsClocksAndAdapterResetsAct : Obligations.PinsClocksAndAdapterResetsAct := by
  unfold Obligations.PinsClocksAndAdapterResetsAct
  intro s
  refine ⟨fun hrunning hmode s1 hs1 => ?sync, fun hrunning hok s1 hs1 => ?loss, fun hrunning hgone s1 hs1 s2 hs2 => ?back, exec_syncEdge_unheeded,
    fun hrunning hok => ⟨_, exec_oscillatorTrim hrunning hok, ?trim⟩, fun n side hthere => ⟨fun hruns => ⟨_, exec_adapterClockStop hthere hruns, ?stop⟩,
      exec_adapterClockStart, fun mhz => exec_adapterClockMeasure hthere, fun hfree s1 hs1 => ?reset, exec_adapterResetRelease⟩,
    fun n side => ⟨State.loseDelivery_dlv, State.loseDelivery_waitFirst⟩, fun n k => State.emptySockets_sock⟩
  case sync =>
    rw [show s1 = s.syncLatched from hs1]
    exact ⟨⟨State.syncLatched_syncTime, State.syncLatched_syncCount, fun k => State.syncLatched_obj⟩, exec_syncEdge_freezes hrunning hmode,
      exec_syncEdge_counts hrunning hmode⟩
  case loss =>
    refine ⟨hs1 ▸ exec_timerefLoss hrunning hok, by rw [hs1]; rfl, ?_⟩
    rw [hs1, State.rd_bump_same _ _ _ (by decide)]
    rfl
  case back =>
    have hexec := exec_timerefReturn hrunning hgone (show s2 = _ by rw [hs2, hs1]; rfl)
    exact ⟨fun henum => by rw [hexec, if_pos henum], fun hnot => by rw [hexec, if_neg (by simp [hnot])]⟩
  case trim =>
    exact ⟨State.trimmedAt_now _ _, State.trimmedAt_lastTrim _ _, State.trimmedAt_objs _ _⟩
  case stop =>
    refine ⟨?_, State.obj_setObj_same _ _ _, fun k hk => State.obj_setObj_ne _ _ hk⟩
    change (s.pin.stopped ++ [adapterKey n side]).contains (adapterKey n side) = true
    simp
  case reset =>
    have hexec := exec_adapterResetAssert hthere hfree hs1
    have hsame : s1.running = s.running := by rw [hs1]; rfl
    refine ⟨?_, fun hrunning => by rw [hexec, if_pos (hsame.trans hrunning)],
      fun hstill => by rw [hexec, if_neg (by rw [hsame, hstill]; exact Bool.false_ne_true)]⟩
    rw [hs1]
    change (s.pin.held ++ [adapterKey n side]).contains (adapterKey n side) = true
    simp

end Sys2Proof.Machine
end

-- ==== PROOFS: O57, faults, injection, the scrubber and the recorder ====
section
/-! PROOFS. Fault statuses and severities, injections, the collector's copies, the patrol scrubber and the event recorder (O57). -/

namespace Sys2Proof.Machine

/-! ## Bytes and bits -/

theorem leBytes_length (n x : Nat) : (leBytes n x).length = n := by
  induction n generalizing x with
  | zero => rfl
  | succ n ih => simp [leBytes, ih]

theorem ofLe_leBytes (n x : Nat) : ofLe (leBytes n x) = x % 256 ^ n := by
  induction n generalizing x with
  | zero => simp [leBytes, ofLe, Nat.mod_one]
  | succ n ih =>
    have hb : (BitVec.ofNat 8 x).toNat = x % 256 := BitVec.toNat_ofNat ..
    rw [leBytes, ofLe, ih, hb, Nat.pow_succ', Nat.mod_mul]

theorem fget_bit_eq_zero {v : Val} {i : Nat} (h : fget v i 1 ≠ 1) : fget v i 1 = 0 := by
  rw [fget_mod _ _ _ (by decide)] at h ⊢
  omega

section
variable {s : State} {acc : Access} {r : ObjRow}

/-! ## Statuses, severities and the threshold -/

theorem Obj.faultStatus_inj {i j : Nat} (h : Obj.faultStatus i = Obj.faultStatus j) : i = j := by
  unfold Obj.faultStatus at h
  omega

theorem State.clearBar_absent {i : Nat} (h : s.sourcePresent i = false) : s.clearBar i = some .outOfRange := by
  simp [State.clearBar, h]

theorem State.clearBar_active {i : Nat} (hthere : s.sourcePresent i = true) (h : s.causeActive i = true) : s.clearBar i = some .inUse := by
  simp [State.clearBar, hthere, h]

theorem State.clearBar_safe {i : Nat} (hthere : s.sourcePresent i = true) (hgone : s.causeActive i = false) (hsafe : s.safe = true)
    (h : s.rd (.stSev i) = 3) : s.clearBar i = some .badState := by
  simp [State.clearBar, hthere, hgone, hsafe, h]

theorem State.clearBar_free {i : Nat} (hthere : s.sourcePresent i = true) (hgone : s.causeActive i = false)
    (h : s.safe = false ∨ s.rd (.stSev i) ≠ 3) : s.clearBar i = none := by
  rcases h with h | h <;> simp [State.clearBar, hthere, hgone, h]

theorem Faults.clear_one {x : Val} (hx : x ≠ 0xFFFF) : Faults.clear x s =
    match s.clearBar x.toNat with
    | some a => .error a
    | none => .ok (s.clearStatus x.toNat) := by
  unfold Faults.clear
  rw [if_neg hx] <;> rfl

theorem Faults.clear_barred {x : Val} {a : Abort} (hx : x ≠ 0xFFFF) (h : s.clearBar x.toNat = some a) : Faults.clear x s = .error a := by
  simp only [Faults.clear_one hx, h]

theorem Faults.clear_free {x : Val} (hx : x ≠ 0xFFFF) (h : s.clearBar x.toNat = none) : Faults.clear x s = .ok (s.clearStatus x.toNat) := by
  simp only [Faults.clear_one hx, h]

theorem State.clearStatus_obj (i k : Nat) : (s.clearStatus i).obj k = if k = Obj.faultStatus i then 0 else s.obj k := by
  unfold State.clearStatus
  split
  case isTrue h => rw [h, State.obj_setObj_same]
  case isFalse h =>
    rw [State.obj_setObj_ne _ _ h]
    rfl

/-- Clearing the statuses of a list of sources sets just these to 0. -/
theorem State.foldl_clearStatus_obj (l : List Nat) (s : State) (k : Nat) :
    (l.foldl State.clearStatus s).obj k = if k ∈ l.map Obj.faultStatus then 0 else s.obj k := by
  induction l generalizing s with
  | nil => simp
  | cons i l ih =>
    rw [List.foldl_cons, ih, State.clearStatus_obj, List.map_cons]
    by_cases hl : k ∈ l.map Obj.faultStatus
    · rw [if_pos hl, if_pos (List.mem_cons_of_mem _ hl)]
    · rw [if_neg hl]
      by_cases hk : k = Obj.faultStatus i
      · rw [if_pos hk, if_pos (hk ▸ List.mem_cons_self)]
      · rw [if_neg hk, if_neg (by simpa [hk] using hl)]

/-- The sources that 0xFFFF clears. -/
def State.clearable (s : State) : List Nat :=
  (List.range 512).filter (fun i => (s.clearBar i).isNone && s.obj (Obj.faultStatus i) != 0)

theorem State.mem_clearable {i : Nat} : i ∈ s.clearable ↔ i < 512 ∧ s.clearBar i = none ∧ s.obj (Obj.faultStatus i) ≠ 0 := by
  simp [State.clearable]

theorem State.clearAll_status {j : Nat} (hj : j < 512) : (s.clearable.foldl State.clearStatus s).obj (Obj.faultStatus j) =
    if s.clearBar j = none then 0 else s.obj (Obj.faultStatus j) := by
  have hmem : Obj.faultStatus j ∈ s.clearable.map Obj.faultStatus ↔ s.clearBar j = none ∧ s.obj (Obj.faultStatus j) ≠ 0 := by
    rw [List.mem_map]
    constructor
    · rintro ⟨i, hi, heq⟩
      obtain ⟨_, hbar, hne⟩ := State.mem_clearable.mp (Obj.faultStatus_inj heq ▸ hi)
      exact ⟨hbar, hne⟩
    · rintro ⟨hbar, hne⟩
      exact ⟨j, State.mem_clearable.mpr ⟨hj, hbar, hne⟩, rfl⟩
  rw [State.foldl_clearStatus_obj]
  by_cases hbar : s.clearBar j = none
  · by_cases hzero : s.obj (Obj.faultStatus j) = 0
    · rw [if_pos hbar, hzero, ite_self]
    · rw [if_pos hbar, if_pos (hmem.mpr ⟨hbar, hzero⟩)]
  · rw [if_neg hbar, if_neg fun h => hbar (hmem.mp h).1]

theorem State.clearAll_other {k : Nat} (hk : ∀ j < 512, k ≠ Obj.faultStatus j) :
    (s.clearable.foldl State.clearStatus s).obj k = s.obj k := by
  rw [State.foldl_clearStatus_obj, if_neg]
  intro hmem
  obtain ⟨i, hi, heq⟩ := List.mem_map.mp hmem
  exact hk i (State.mem_clearable.mp hi).1 heq.symm

theorem Faults.setSev_refused {src : Nat} {x : Val} (h : src = 0 ∨ (fget x 0 2 = 2 ∧ Fault.hasWard src = false)) :
    Faults.setSev src x s = .error .outOfRange := if_pos (by simpa using h)

theorem Faults.setSev_taken {src : Nat} {x : Val} (hsrc : src ≠ 0) (h : fget x 0 2 ≠ 2 ∨ Fault.hasWard src = true) :
    Faults.setSev src x s = .ok (s.setObj (Obj.faultSev src) x) :=
  if_neg (by rcases h with h | h <;> simp [hsrc, h])

/-! ## Injection and the collector's copies -/

/-- INJECT with the value written, and what fires at once. -/
def State.armed (s : State) (x : Val) : State :=
  if (fget x 63 1 == 1) = true ∧ fget x 48 8 = 0x0B then (s.setObj Obj.inject x).injectFired.collectorFails true else s.setObj Obj.inject x

theorem State.armed_later {x : Val} (h : fget x 63 1 = 0 ∨ fget x 48 8 ≠ 0x0B) : s.armed x = s.setObj Obj.inject x :=
  if_neg (by rcases h with h | h <;> simp [h])

theorem State.armed_fires {x : Val} (harm : fget x 63 1 = 1) (hkind : fget x 48 8 = 0x0B) :
    s.armed x = (s.setObj Obj.inject x).injectFired.collectorFails true := if_pos ⟨by rw [harm]; rfl, hkind⟩

variable {x : Val} {present : Bool}

theorem Faults.arm_inUse (harmed : s.rd .injArm = 1) (harm : fget x 63 1 = 1) : Faults.arm x s = .error .inUse :=
  if_pos ⟨harmed, by rw [harm]; rfl⟩

section
variable (hpresent : present = s.checkerPresent (fget x 48 8) (fget x 41 7) (fget x 38 3) (fget x 32 6))
  (hfree : s.rd .injArm ≠ 1 ∨ fget x 63 1 = 0)
include hpresent hfree

theorem Faults.arm_outOfRange (h : (fget x 61 1 = 1 ∧ s.factoryMode = false) ∨ (fget x 63 1 = 1 ∧ present = false)) :
    Faults.arm x s = .error .outOfRange := by
  subst hpresent
  have hopen : ¬ (s.rd .injArm = 1 ∧ (fget x 63 1 == 1) = true) := by rcases hfree with h | h <;> simp [h]
  refine (if_neg hopen).trans ?_
  rcases h with ⟨hwrong, hmode⟩ | ⟨harm, hgone⟩
  · exact if_pos ⟨hwrong, by simp [hmode]⟩
  · exact (ite_eq_left_iff.mpr fun _ => if_pos ⟨by rw [harm]; rfl, by simp [hgone]⟩)

theorem Faults.arm_taken (hmode : fget x 61 1 = 0 ∨ s.factoryMode = true) (hthere : fget x 63 1 = 0 ∨ present = true) :
    Faults.arm x s = .ok (s.armed x) := by
  subst hpresent
  have hopen : ¬ (s.rd .injArm = 1 ∧ (fget x 63 1 == 1) = true) := by rcases hfree with h | h <;> simp [h]
  refine (if_neg hopen).trans ((if_neg ?_).trans (if_neg ?_))
  · rcases hmode with h | h <;> simp [h]
  · rcases hthere with h | h <;> simp [h]
end

theorem exec_testPortInjectAccess {v : BitVec 64} (hrunning : s.running = true) (hmode : s.factoryMode = true)
    (hx : x = v &&& 0xE0FFFFFF00000000) (harm : Faults.arm x s = .ok (s.armed x)) : exec (.testPortInjectAccess v) s = .next (s.armed x) := by
  subst hx
  have hopen : ¬ (!s.running ∨ !s.factoryMode) := by simp [hrunning, hmode]
  exact congrArg Host.Outcome.next ((if_neg hopen).trans (by simp only [harm]))

theorem exec_testPortInjectAccess_refused {v : BitVec 64} {a : Abort} (hx : x = v &&& 0xE0FFFFFF00000000)
    (harm : Faults.arm x s = .error a) : exec (.testPortInjectAccess v) s = .next s := by
  subst hx
  exact congrArg Host.Outcome.next (ite_eq_left_iff.mpr fun _ => by simp only [harm])

theorem exec_testPortInjectAccess_closed {v : BitVec 64} (h : s.running = false ∨ s.factoryMode = false) :
    exec (.testPortInjectAccess v) s = .next s :=
  congrArg Host.Outcome.next (if_pos (by rcases h with h | h <;> simp [h]))

theorem exec_collectorCompareMismatch {key : Nat} {a b : Option (BitVec 64)} (hrunning : s.running = true) (hkey : collectorKey key = true)
    (h : a = none ∨ a ≠ b) : exec (.collectorCompareMismatch key a b) s =
      .next (({ s with flt := { s.flt with split := Tbl.set (none, none) s.flt.split key (a, b) } } : State).collectorFails false) :=
  congrArg Host.Outcome.next (if_neg (by rcases h with h | h <;> simp [hrunning, hkey, h]))

/-! ## The patrol scrubber -/

section
variable {w : StoreWord} {flips : List Nat} {kind n d c : Nat} (hword : s.wordAt w = some (kind, n, d, c))
include hword

theorem exec_patrolScrubRead (hrunning : s.running = true) (hperiod : s.obj Obj.scrubPeriod ≠ 0)
    (hactive : kind = 7 ∨ s.junctionActive n = true) : exec (.patrolScrubRead w flips) s = .next
      (if (s.storeDecode n kind d c flips).bad then
        ((s.storeRead n kind d c flips).wordBad n w (s.storeInjected n kind)).rowBad n kind w
      else if (s.storeDecode n kind d c flips).corrected.isSome then
        ((s.storeRead n kind d c flips).wordWrong n w (s.storeDecode n kind d c flips).wrong).scrubNote n kind w
      else (s.storeRead n kind d c flips).wordWrong n w (s.storeDecode n kind d c flips).wrong) := by
  have hopen : ¬ (!s.running ∨ s.obj Obj.scrubPeriod = 0 ∨ (kind ≠ 7 ∧ !s.junctionActive n)) := by
    rintro (h | h | ⟨hkind, hoff⟩)
    · simp [hrunning] at h
    · exact hperiod h
    · simp [hactive.resolve_left hkind] at hoff
  simp only [exec, execPatrolScrubRead, Faults.patrol, hword, if_neg hopen]

theorem exec_patrolScrubRead_closed (h : s.running = false ∨ s.obj Obj.scrubPeriod = 0 ∨ (kind ≠ 7 ∧ s.junctionActive n = false)) :
    exec (.patrolScrubRead w flips) s = .next s := by
  have hclosed : !s.running ∨ s.obj Obj.scrubPeriod = 0 ∨ (kind ≠ 7 ∧ !s.junctionActive n) := by simpa using h
  simp only [exec, execPatrolScrubRead, Faults.patrol, hword, if_pos hclosed]
end

/-! ## The event recorder -/

theorem EventRec.body_length (q : EventRec) (cycles hours : Nat) : (q.body cycles hours).length = 28 := by
  simp [EventRec.body, leBytes_length]

theorem EventRec.slotValid_bytes (q : EventRec) (cycles hours : Nat) : slotValid (q.bytes cycles hours) = true := by
  have hlen := q.body_length cycles hours
  unfold EventRec.bytes slotValid
  generalize q.body cycles hours = b at hlen ⊢
  have hvalid : (b ++ leBytes 2 (crc16 b).toNat ++ [0, 0xFF]).getD 31 0 = 0xFF := by
    rw [List.getD_eq_getElem?_getD, List.getElem?_append_right (by simp [hlen, leBytes_length])]
    simp [hlen, leBytes_length]
  have hcheck : leAt (b ++ leBytes 2 (crc16 b).toNat ++ [0, 0xFF]) 28 2 = (crc16 b).toNat := by
    unfold leAt
    rw [List.append_assoc, List.drop_append_of_le_length (by omega), List.drop_eq_nil_of_le (by omega), List.nil_append,
      List.take_append_of_le_length (by simp [leBytes_length]), List.take_of_length_le (by simp [leBytes_length]), ofLe_leBytes]
    exact Nat.mod_eq_of_lt (crc16 b).isLt
  have hbody : (b ++ leBytes 2 (crc16 b).toNat ++ [0, 0xFF]).take 28 = b := by
    rw [List.append_assoc, List.take_append_of_le_length (by omega), List.take_of_length_le (by omega)]
  rw [hvalid, hcheck, hbody]
  simp

theorem State.recordAt_room {i : Nat} (h : i < 8192) : s.recordAt i = s.wr .recNext i := if_pos h

theorem State.recordAt_full {i : Nat} (h : 8192 ≤ i) {b : State} (hb : b = (s.wr .recNext i).bump .recLost s.flt.queue.length) :
    s.recordAt i = ({ b with flt := { b.flt with queue := [] } } : State).raiseRecorder := hb ▸ if_neg (by omega)

section
variable {q : EventRec} {rest : List EventRec} {i : Nat} (hqueue : s.flt.queue = q :: rest) (hrunning : s.running = true)
  (hscan : s.flt.scanning = false) (hpower : s.pwr.below.contains 8 = false) (hi : i = s.freeSlot 8192 (s.rd .recNext))
include hqueue hrunning hscan hpower hi

/-- The writer at work: what it does with the first free slot. -/
theorem exec_recordWriteComplete (verified : Bool) : exec (.recordWriteComplete verified) s =
    .next (if 8192 ≤ i then s.recordAt 8192
      else if 7936 ≤ i ∧ !q.reserved then ((s.recordDone.wr .recNext i).bump .recLost 1).raiseRecorder
      else if verified then
        ({ s.recordDone with flt := { s.recordDone.flt with
          slots := Tbl.set [] s.flt.slots i (q.bytes (s.obj Obj.powerCycles).toNat (s.obj Obj.opHours).toNat) } } : State).recordAt (i + 1)
      else (((({ s with flt := { s.flt with
        slots := Tbl.set [] s.flt.slots i (padTo 31 (Config.freeBytes s.drawn 31) ++ [0xFF]) } } : State).draw).raiseRecorder).recordAt
          (i + 1))) := by
  subst hi
  have hopen : ¬ (!s.running ∨ s.flt.scanning = true ∨ s.pwr.below.contains 8 = true) := by
    rw [hrunning, hscan, hpower]
    decide
  simp only [exec, execRecordWriteComplete, Recorder.write, hqueue, if_neg hopen]

theorem exec_recordWriteComplete_full (verified : Bool) (hfull : 8192 ≤ i) :
    exec (.recordWriteComplete verified) s = .next (s.recordAt 8192) := by
  rw [exec_recordWriteComplete hqueue hrunning hscan hpower hi, if_pos hfull]

theorem exec_recordWriteComplete_lost (verified : Bool) (hroom : i < 8192) (hlast : 7936 ≤ i) (hq : q.reserved = false) :
    exec (.recordWriteComplete verified) s =
      .next ((({ s with flt := { s.flt with queue := rest } } : State).wr .recNext i).bump .recLost 1).raiseRecorder := by
  rw [exec_recordWriteComplete hqueue hrunning hscan hpower hi, if_neg (by omega), if_pos ⟨hlast, by rw [hq]; rfl⟩, State.recordDone, hqueue,
    List.drop_one, List.tail_cons]

section
variable (hroom : i < 8192) (hmay : i < 7936 ∨ q.reserved = true)
include hroom hmay

theorem exec_recordWriteComplete_verified {t : State} {bs : List Byte}
    (hbs : bs = q.bytes (s.obj Obj.powerCycles).toNat (s.obj Obj.opHours).toNat)
    (ht : t = { s with flt := { s.flt with queue := rest, slots := Tbl.set [] s.flt.slots i bs } }) :
    exec (.recordWriteComplete true) s = .next (t.recordAt (i + 1)) := by
  have hopen : ¬ (7936 ≤ i ∧ (!q.reserved) = true) := by
    rcases hmay with h | h
    · exact fun h' => by omega
    · simp [h]
  rw [exec_recordWriteComplete hqueue hrunning hscan hpower hi, if_neg (by omega), if_neg hopen, if_pos rfl, ht, hbs, State.recordDone, hqueue,
    List.drop_one, List.tail_cons]

theorem exec_recordWriteComplete_failed : exec (.recordWriteComplete false) s =
    .next (((({ s with flt := { s.flt with slots := Tbl.set [] s.flt.slots i (padTo 31 (Config.freeBytes s.drawn 31) ++ [0xFF]) } } :
      State).draw).raiseRecorder).recordAt (i + 1)) := by
  have hopen : ¬ (7936 ≤ i ∧ (!q.reserved) = true) := by
    rcases hmay with h | h
    · exact fun h' => by omega
    · simp [h]
  rw [exec_recordWriteComplete hqueue hrunning hscan hpower hi, if_neg (by omega), if_neg hopen, if_neg Bool.false_ne_true]
end
end

/-- The state that the scan leaves: hours and power cycles of the valid records, and the first slot after the used ones. -/
def State.scanned (s : State) (next cycles hours : Nat) : State :=
  let s1 := (s.setObj Obj.opHours (BitVec.ofNat 64 hours)).setObj Obj.powerCycles (BitVec.ofNat 64 cycles)
  ({ s1 with flt := { s1.flt with scanning := false } } : State).wr .recNext next

section
variable {next cycles hours : Nat}

theorem State.scanned_obj {k : Nat} (hk : k ≠ Obj.recNext) : (s.scanned next cycles hours).obj k =
    ((s.setObj Obj.opHours (BitVec.ofNat 64 hours)).setObj Obj.powerCycles (BitVec.ofNat 64 cycles)).obj k := by
  unfold State.scanned
  exact State.obj_wr_ne _ _ _ _ hk

theorem State.scanned_powerCycles : (s.scanned next cycles hours).obj Obj.powerCycles = BitVec.ofNat 64 cycles := by
  rw [State.scanned_obj (by decide), State.obj_setObj_same]

theorem State.scanned_opHours : (s.scanned next cycles hours).obj Obj.opHours = BitVec.ofNat 64 hours := by
  rw [State.scanned_obj (by decide), State.obj_setObj_ne _ _ (show Obj.opHours ≠ Obj.powerCycles by decide), State.obj_setObj_same]

theorem State.scanned_other {k : Nat} (hnext : k ≠ Obj.recNext) (hcycles : k ≠ Obj.powerCycles) (hhours : k ≠ Obj.opHours) :
    (s.scanned next cycles hours).obj k = s.obj k := by
  rw [State.scanned_obj hnext, State.obj_setObj_ne _ _ hcycles, State.obj_setObj_ne _ _ hhours]

theorem State.scanned_recNext (h : next < 8192) : (s.scanned next cycles hours).rd .recNext = next := by
  unfold State.scanned
  exact (State.rd_wr_same _ _ _ (by decide)).trans (Nat.mod_eq_of_lt (Nat.lt_trans h (by decide)))

theorem State.scanned_powerOnDetail : (s.scanned next cycles hours).powerOnDetail = s.powerOnDetail := by
  simp only [State.powerOnDetail, State.scanned_other (s := s) (show Obj.strapLatch ≠ Obj.recNext by decide) (by decide) (by decide),
    State.scanned_other (s := s) (show Obj.lifecycle ≠ Obj.recNext by decide) (by decide) (by decide)]
end

/-- The slot after the last one in use. -/
def State.scanNext (s : State) : Nat := (((s.flt.slots.filter (fun p => slotUsed p.2)).map (·.1)).map (· + 1)).foldl max 0

/-- The records that VALID and CHECK bear out. -/
def State.scanValid (s : State) : List (List Byte) := (s.flt.slots.filter (fun p => slotValid p.2)).map (·.2)

/-- What the scan finds, in the state it leaves. -/
def State.scanFound (s : State) : State :=
  s.scanned s.scanNext (min ((s.scanValid.map (fun b => leAt b 6 2)).foldl max 0 + 1) 0xFFFF) ((s.scanValid.map (fun b => leAt b 8 4)).foldl max 0)

theorem exec_recorderScanComplete (hrunning : s.running = true) (hscan : s.flt.scanning = true) : exec .recorderScanComplete s =
    .next ((if s.scanNext < 8192 then s.scanFound else s.scanFound.raiseRecorder).recordEvent 0x0001 (s.obj Obj.resetCause).toNat
      s.powerOnDetail true) := by
  have hopen : ¬ (!s.running ∨ !s.flt.scanning) := by simp [hrunning, hscan]
  have hcause : s.scanFound.obj Obj.resetCause = s.obj Obj.resetCause := State.scanned_other (by decide) (by decide) (by decide)
  have hdetail : s.scanFound.powerOnDetail = s.powerOnDetail := State.scanned_powerOnDetail
  rw [← hcause, ← hdetail]
  exact congrArg Host.Outcome.next (if_neg hopen)

theorem exec_operatingHourTick (hrunning : s.running = true) (hok : s.pin.pwrOk = true) {s1 : State}
    (hs1 : s1 = s.bump ⟨Obj.opHours, 0, 32⟩ 1) : exec .operatingHourTick s =
      .next (if (s1.obj Obj.opHours).toNat % 16 = 0 then s1.recordEvent 0x0002 0 0 false else s1) :=
  hs1 ▸ congrArg Host.Outcome.next (if_neg (by simp [hrunning, hok]))
end

/-- Settles O57. That a write of INJECT which disarms is not checked for its KIND, and that KIND 0x0B fires at once, are the model's choices
(log entry 54). -/
theorem faultsAreClearedInjectedAndRecorded : Obligations.FaultsAreClearedInjectedAndRecorded := by
  unfold Obligations.FaultsAreClearedInjectedAndRecorded
  intro s
  refine ⟨fun acc v r x i refused hmay hx hi hrefused => ⟨fun hne => ?clearOne, fun hall => ?clearAll⟩,
    fun acc src v r x hmay hx => ⟨fun h => ?sevOut, fun hsrc h => ?sevIn⟩,
    fun acc v r x hmay hx => ⟨fun hlow hhigh => ?thrIn, fun h => ?thrOut⟩,
    fun v x present hpresent => ⟨fun acc r hmay hx => ?inject, fun hx hrunning hmode hfree hthere => ?port, fun hx h => ?portShut⟩,
    fun key a b hrunning hkey h => exec_collectorCompareMismatch hrunning hkey h,
    fun w flips kind n d c hword hrunning hperiod hactive x s1 hx hs1 => ?patrol, fun w flips kind n d c hword => exec_patrolScrubRead_closed hword,
    fun q rest i verified hqueue hrunning hscan hpower hi => ⟨exec_recordWriteComplete_full hqueue hrunning hscan hpower hi verified,
      exec_recordWriteComplete_lost hqueue hrunning hscan hpower hi verified, fun hroom hmay => ⟨fun t bs hbs ht => ?record,
        exec_recordWriteComplete_failed hqueue hrunning hscan hpower hi hroom hmay⟩⟩,
    fun i b hb => ⟨State.recordAt_room, fun h => State.recordAt_full h hb⟩, EventRec.slotValid_bytes,
    fun next valid hrunning hscan hnext hvalid => ⟨s.scanFound, ?scan⟩, fun hrunning hok s1 hs1 => ?hour⟩
  case clearOne =>
    subst hi
    have bad {a : Abort} (hbar : s.clearBar x.toNat = some a) : exec (.faultClear acc v) s = refused a := by
      rw [hrefused]
      exact congrArg _ (State.serveKey_refused (eff := Faults.clear) hmay (hx ▸ Faults.clear_barred hne hbar))
    exact ⟨fun h => bad (State.clearBar_absent h), fun hthere h => bad (State.clearBar_active hthere h), fun hthere hgone =>
      ⟨fun hsafe h => bad (State.clearBar_safe hthere hgone hsafe h), fun h =>
        congrArg _ (State.serveKey_next (eff := Faults.clear) hmay (hx ▸ Faults.clear_free hne (State.clearBar_free hthere hgone h)))⟩⟩
  case clearAll =>
    exact ⟨_, congrArg _ (State.serveKey_next (eff := Faults.clear) hmay (hx ▸ if_pos hall)), fun j => State.clearAll_status,
      fun k => State.clearAll_other⟩
  case sevOut => exact congrArg _ (State.serveKey_refused (eff := Faults.setSev src) hmay (Faults.setSev_refused (hx ▸ h)))
  case sevIn => exact congrArg _ (State.serveKey_next (eff := Faults.setSev src) hmay (hx ▸ Faults.setSev_taken hsrc h))
  case thrIn => exact congrArg _ (State.serveKey_next (eff := Faults.setThreshold) hmay (hx ▸ if_neg (by omega)))
  case thrOut => exact congrArg _ (State.serveKey_refused (eff := Faults.setThreshold) hmay (hx ▸ if_pos (by omega)))
  case inject =>
    have bad {a : Abort} (heff : Faults.arm x s = .error a) :
        exec (.inject acc v) s = .next (s.abortRequest acc 2 (Obj.inject / 256) (Obj.inject % 256) 0 a) :=
      congrArg _ (State.serveKey_refused (eff := Faults.arm) hmay (hx ▸ heff))
    have taken (heff : Faults.arm x s = .ok (s.armed x)) : exec (.inject acc v) s = .next ((s.armed x).written acc Obj.inject r.ty) :=
      congrArg _ (State.serveKey_next (eff := Faults.arm) hmay (hx ▸ heff))
    refine ⟨fun harmed harm => bad (Faults.arm_inUse harmed harm), fun hfree => ⟨fun h => bad (Faults.arm_outOfRange hpresent hfree h),
      fun hmode hthere => ?_⟩⟩
    have hexec := taken (Faults.arm_taken hpresent hfree hmode hthere)
    exact ⟨fun h => State.armed_later (s := s) h ▸ hexec, fun harm hkind => State.armed_fires (s := s) harm hkind ▸ hexec⟩
  case port =>
    have htest : fget x 61 1 = 0 ∨ s.factoryMode = true := .inr hmode
    have hexec := exec_testPortInjectAccess hrunning hmode hx (Faults.arm_taken hpresent hfree htest hthere)
    exact ⟨fun h => State.armed_later (s := s) h ▸ hexec, fun harm hkind => State.armed_fires (s := s) harm hkind ▸ hexec⟩
  case portShut =>
    rcases h with h | h | ⟨harmed, harm⟩ | ⟨harm, hgone⟩
    · exact exec_testPortInjectAccess_closed (.inl h)
    · exact exec_testPortInjectAccess_closed (.inr h)
    · exact exec_testPortInjectAccess_refused hx (Faults.arm_inUse harmed harm)
    · by_cases harmed : s.rd .injArm = 1
      · exact exec_testPortInjectAccess_refused hx (Faults.arm_inUse harmed harm)
      · exact exec_testPortInjectAccess_refused hx (Faults.arm_outOfRange hpresent (.inl harmed) (.inr ⟨harm, hgone⟩))
  case patrol =>
    subst hx hs1
    have hexec := exec_patrolScrubRead (flips := flips) hword hrunning hperiod hactive
    refine ⟨fun hbad => by rw [hexec, if_pos hbad], fun hgood s2 hs2 => ⟨fun hcorrected => ?_, fun hclean => ?_⟩⟩
    · rw [hexec, if_neg (by simp [hgood]), if_pos hcorrected, hs2]
    · rw [hexec, if_neg (by simp [hgood]), if_neg (by simp [hclean]), hs2]
  case record =>
    refine ⟨exec_recordWriteComplete_verified hqueue hrunning hscan hpower hi hroom hmay hbs ht, ?_, fun j hj => ?_⟩
    · rw [ht]
      exact Tbl.get_set_same [] s.flt.slots i _
    · rw [ht]
      exact Tbl.get_set_ne [] [] s.flt.slots _ hj
  case scan =>
    rw [show next = s.scanNext from hnext, show valid = s.scanValid from hvalid, exec_recorderScanComplete hrunning hscan]
    exact ⟨fun hroom => ⟨by rw [if_pos hroom], State.scanned_recNext hroom⟩, fun hfull => by rw [if_neg (by omega)], rfl,
      State.scanned_powerCycles, State.scanned_opHours⟩
  case hour =>
    have hexec := exec_operatingHourTick hrunning hok hs1
    refine ⟨?_, fun h => by rw [hexec, if_pos h], fun h => by rw [hexec, if_neg h]⟩
    rw [hs1, State.rd_bump_same _ _ _ (by decide)]

end Sys2Proof.Machine
end

-- ==== PROOFS: O58, spares and wear ====
section
/-! PROOFS. The commands of SISTER_CTRL, retirements, the stages of a steering, and wear (O58). -/

namespace Sys2Proof.Machine

/-! ## LINK_WEAR -/

theorem ofLe_append_zeros (bs : List Byte) (n : Nat) : ofLe (bs ++ List.replicate n 0) = ofLe bs := by
  have hzeros : ofLe (List.replicate n 0) = 0 := by
    induction n with
    | zero => rfl
    | succ n ih =>
      rw [List.replicate_succ, ofLe, ih]
      rfl
  induction bs with
  | nil => exact hzeros
  | cons b bs ih => rw [List.cons_append, ofLe, ofLe, ih]

theorem ofLe_drop (bs : List Byte) (n : Nat) : ofLe (bs.drop n) = ofLe bs / 256 ^ n := by
  induction n generalizing bs with
  | zero => simp
  | succ n ih =>
    cases bs with
    | nil => simp [ofLe]
    | cons b bs =>
      have hb : b.toNat < 256 := b.isLt
      rw [List.drop_succ_cons, ih, ofLe, Nat.pow_succ', ← Nat.div_div_eq_div_mul]
      congr 1
      omega

theorem ofLe_take (bs : List Byte) (n : Nat) : ofLe (bs.take n) = ofLe bs % 256 ^ n := by
  induction n generalizing bs with
  | zero => simp [ofLe, Nat.mod_one]
  | succ n ih =>
    cases bs with
    | nil => simp [ofLe]
    | cons b bs =>
      have hb : b.toNat < 256 := b.isLt
      rw [List.take_succ_cons, ofLe, ofLe, ih, Nat.pow_succ', Nat.mod_mul]
      congr 2
      · omega
      · congr 2
        omega

theorem leAt_eq (bs : List Byte) (at_ k : Nat) : leAt bs at_ k = ofLe bs / 256 ^ at_ % 256 ^ k := by
  rw [leAt, ofLe_take, ofLe_drop]

/-- Zero bytes behind a value do not change what is read within it. -/
theorem leAt_padTo {n at_ k : Nat} (bs : List Byte) (h : at_ + k ≤ n) : leAt (padTo n bs) at_ k = leAt bs at_ k := by
  obtain ⟨m, rfl⟩ := Nat.exists_eq_add_of_le h
  rw [leAt_eq, leAt_eq, padTo, ofLe_take, ofLe_append_zeros, Nat.add_assoc, Nat.pow_add, Nat.mod_mul_right_div_self, Nat.pow_add,
    Nat.mod_mul_right_mod]

theorem leAt_splice_same {bs : List Byte} {i : Nat} (v : Nat) (hlen : 4 * i + 4 ≤ bs.length) :
    leAt (bs.take (4 * i) ++ leBytes 4 v ++ bs.drop (4 * i + 4)) (4 * i) 4 = v % 2 ^ 32 := by
  have htake : (bs.take (4 * i)).length = 4 * i := List.length_take_of_le (by omega)
  unfold leAt
  rw [List.append_assoc, List.drop_append_of_le_length (by omega), List.drop_eq_nil_of_le (by omega), List.nil_append,
    List.take_append_of_le_length (Nat.le_of_eq (leBytes_length 4 v).symm), List.take_of_length_le (Nat.le_of_eq (leBytes_length 4 v)), ofLe_leBytes,
    show 256 ^ 4 = 2 ^ 32 by rfl]

theorem leAt_splice_apart {bs : List Byte} {i j : Nat} (v : Nat) (hij : j ≠ i) (hlen : 4 * i + 4 ≤ bs.length) :
    leAt (bs.take (4 * i) ++ leBytes 4 v ++ bs.drop (4 * i + 4)) (4 * j) 4 = leAt bs (4 * j) 4 := by
  unfold leAt
  congr 1
  apply List.ext_getElem?
  intro m
  have hl := leBytes_length 4 v
  have ht : (bs.take (4 * i)).length = 4 * i := List.length_take_of_le (by omega)
  simp only [List.getElem?_take, List.getElem?_drop, List.getElem?_append, List.length_append, hl, ht]
  split
  case isFalse => rfl
  case isTrue hm =>
    by_cases hlow : j < i
    · rw [if_pos (by omega), if_pos (by omega), if_pos (by omega)]
    · rw [if_neg (by omega)]
      congr 1
      omega

section
variable {s : State} {n : Nat}

theorem State.wear_setWear_same {i : Nat} (v : Nat) (hi : i < 4) : (s.setWear n i v).wear n i = v % 2 ^ 32 := by
  unfold State.wear State.setWear State.dom
  rw [State.dom?_setDom_same]
  exact leAt_splice_same v (by rw [padTo_length]; omega)

theorem State.wear_setWear_apart {i j : Nat} (v : Nat) (hi : i < 4) (hj : j < 4) (hij : j ≠ i) :
    (s.setWear n i v).wear n j = s.wear n j := by
  unfold State.wear State.setWear
  rw [State.dom, State.dom?_setDom_same]
  exact (leAt_splice_apart v hij (by rw [padTo_length]; omega)).trans (leAt_padTo _ (by omega))

theorem State.dom?_setDom_ne {k j : Nat} (t : State) (bs : List Byte) (h : j ≠ k) : (t.setDom k bs).dom? j = t.dom? j :=
  Tbl.get_set_ne none none t.doms (some bs) h

theorem State.wear_setWear_ne {m : Nat} (i j v : Nat) (h : n ≠ m) : (s.setWear m i v).wear n j = s.wear n j := by
  have hdom : (s.setWear m i v).dom? (Obj.linkWear n) = s.dom? (Obj.linkWear n) :=
    State.dom?_setDom_ne _ _ (by unfold Obj.linkWear; omega)
  unfold State.wear State.dom
  rw [hdom]

theorem State.wear_unwritten {i : Nat} (hi : i < 4) (h : s.dom? (Obj.linkWear n) = none) : s.wear n i = 0 := by
  unfold State.wear State.dom
  rw [h]
  change leAt (List.replicate 16 0) (4 * i) 4 = 0
  obtain rfl | rfl | rfl | rfl : i = 0 ∨ i = 1 ∨ i = 2 ∨ i = 3 := by omega
  all_goals rfl

theorem wearCount_restart (suspect candidate margin : Nat) (hc : candidate < 2) :
    wearCount (wearOf suspect 0 candidate margin % 2 ^ 32) = 0 := by
  unfold wearCount wearOf
  omega

/-- The counts of one junction's inputs restart, its other wear stays. -/
def State.restartInputs (s : State) (n : Nat) : State :=
  (List.range 4).foldl (fun (c : State) i =>
    c.setWear n i (wearOf (wearSuspect (c.wear n i)) 0 (wearCandidate (c.wear n i)) (wearMargin (c.wear n i)))) s

/-- The counts of a junction restart where its LINK_WEAR has been written. -/
def State.restartCounts (s : State) (n : Nat) : State := if (s.dom? (Obj.linkWear n)).isNone then s else s.restartInputs n

theorem State.restartInputs_count {i : Nat} (hi : i < 4) : wearCount ((s.restartInputs n).wear n i) = 0 := by
  have hmake (t : State) {j : Nat} (hj : j < 4) : wearCount ((t.setWear n j (wearOf (wearSuspect (t.wear n j)) 0
      (wearCandidate (t.wear n j)) (wearMargin (t.wear n j)))).wear n j) = 0 := by
    rw [State.wear_setWear_same _ hj]
    exact wearCount_restart _ (wearCandidate (t.wear n j)) _ (Nat.mod_lt _ (by decide))
  refine foldl_holds_of_mem (I := fun _ => True) (P := fun (t : State) j => j < 4 → wearCount (t.wear n j) = 0) (fun _ _ _ _ => trivial)
    (fun t j hj _ _ => hmake t (List.mem_range.mp hj)) (fun t j hj m _ hP hm => ?_) trivial (.inl (List.mem_range.mpr hi)) hi
  by_cases hmj : m = j
  · rw [hmj]
    exact hmake t (List.mem_range.mp hj)
  · rw [State.wear_setWear_apart _ (List.mem_range.mp hj) hm hmj]
    exact hP hm

theorem State.restartInputs_wear_ne {m : Nat} (i : Nat) (h : n ≠ m) : (s.restartInputs m).wear n i = s.wear n i :=
  List.foldlRecOn (motive := fun t : State => t.wear n i = s.wear n i) _ _ rfl fun _ ht _ _ => (State.wear_setWear_ne _ _ _ h).trans ht

theorem State.restartCounts_count {i : Nat} (hi : i < 4) : wearCount ((s.restartCounts n).wear n i) = 0 := by
  unfold State.restartCounts
  split
  case isTrue h =>
    rw [State.wear_unwritten hi (Option.isNone_iff_eq_none.mp h)]
    rfl
  case isFalse => exact State.restartInputs_count hi

theorem State.restartCounts_wear_ne {m : Nat} (i : Nat) (h : n ≠ m) : (s.restartCounts m).wear n i = s.wear n i := by
  unfold State.restartCounts
  split
  · rfl
  · exact State.restartInputs_wear_ne i h

theorem State.restartCounts_objs : (s.restartCounts n).objs = s.objs := by
  unfold State.restartCounts
  split
  · rfl
  · exact List.foldlRecOn (motive := fun t : State => t.objs = s.objs) _ _ rfl fun _ ht _ _ => ht

/-- Every junction's counts restart. -/
def State.restartWear (s : State) : State := (List.range s.cfg.njs).foldl State.restartCounts s

theorem State.restartWear_objs : s.restartWear.objs = s.objs :=
  List.foldlRecOn (motive := fun t : State => t.objs = s.objs) _ _ rfl fun _ ht _ _ => State.restartCounts_objs.trans ht

theorem State.restartWear_count (hn : n < s.cfg.njs) {i : Nat} (hi : i < 4) : wearCount (s.restartWear.wear n i) = 0 := by
  refine foldl_holds_of_mem (I := fun _ => True) (P := fun (t : State) m => ∀ i < 4, wearCount (t.wear m i) = 0) (fun _ _ _ _ => trivial)
    (fun t m _ _ i hi => State.restartCounts_count hi) (fun t m _ k _ hP i hi => ?_) trivial (.inl (List.mem_range.mpr hn)) i hi
  by_cases hkm : k = m
  · rw [hkm]
    exact State.restartCounts_count hi
  · rw [State.restartCounts_wear_ne i hkm]
    exact hP i hi

theorem Tbl.get_foldl_range (v : Nat → Nat) {b k : Nat} (hb : b < k) :
    Tbl.get 0 ((List.range k).foldl (fun t b => Tbl.set 0 t b (v b)) []) b = v b := by
  have h := Tbl.get_foldl_set 0 0 (fun _ => true) v [] k hb rfl
  simpa only [Nat.zero_add, if_true] using h

/-- The state that the hour leaves, before firmware looks at its candidates. -/
def State.hourPassed (s : State) : State :=
  { s.restartWear with sp := { s.restartWear.sp with
      residues := []
      fecBase := (List.range 4).foldl (fun t b => Tbl.set 0 t b (s.restartWear.rd (.fecCount b))) []
      fecMods := [] } }

theorem exec_suspectHourExpire (hrunning : s.running = true) : exec .suspectHourExpire s = .next s.hourPassed.autoRetire :=
  congrArg Host.Outcome.next (if_neg (by simp [hrunning]))

theorem State.hourPassed_fecBase {b : Nat} (hb : b < 4) : Tbl.get 0 s.hourPassed.sp.fecBase b = s.rd (.fecCount b) := by
  refine (Tbl.get_foldl_range (fun b => s.restartWear.rd (.fecCount b)) hb).trans ?_
  exact State.rd_congr State.restartWear_objs _

/-! ## SISTER_CTRL -/

theorem Spares.control_busy {x : Val} (h : s.rd .sisterState = 1 ∨ s.rd .sisterState = 4) : Spares.control x s = .error .inUse := if_pos h

theorem Spares.control_fits {x : Val} (h : s.rd .sisterState ≠ 1) (h' : s.rd .sisterState ≠ 4) (hfits : s.sisterFits x = true) :
    Spares.control x s = .ok (((s.setObj Obj.sisterCtrl x).sisterEnd 1 0).sisterStart) :=
  (if_neg (not_or_intro h h')).trans (if_neg (by simp [hfits]))

theorem Spares.control_refused {x : Val} (h : s.rd .sisterState ≠ 1) (h' : s.rd .sisterState ≠ 4) (hfits : s.sisterFits x = false) :
    Spares.control x s = .error .outOfRange :=
  (if_neg (not_or_intro h h')).trans (if_pos (by simp [hfits]))

section
variable {acc : Access} {r : ObjRow} (hmay : s.MayWrite acc Obj.sisterCtrl r) (v : Val)
include hmay

theorem State.serveSister_busy (h : s.rd .sisterState = 1 ∨ s.rd .sisterState = 4) : s.serveKey acc Obj.sisterCtrl v Spares.control =
    s.abortRequest acc 2 (Obj.sisterCtrl / 256) (Obj.sisterCtrl % 256) 0 .inUse :=
  State.serveKey_refused (eff := Spares.control) hmay (Spares.control_busy h)

/-- A command that none precedes does what its word asks for. -/
theorem State.serveSister_start (h : s.rd .sisterState ≠ 1) (h' : s.rd .sisterState ≠ 4) {out : Host.Outcome State Fault Refusal}
    (hstart : ∀ x, x = s.value acc Obj.sisterCtrl r v →
      (s.sisterFits x = true → out = .next ((((s.setObj Obj.sisterCtrl x).sisterEnd 1 0).sisterStart).written acc Obj.sisterCtrl r.ty)) ∧
      (s.sisterFits x = false → out = .next (s.abortRequest acc 2 (Obj.sisterCtrl / 256) (Obj.sisterCtrl % 256) 0 .outOfRange))) :
    Host.Outcome.next (s.serveKey acc Obj.sisterCtrl v Spares.control) = out := by
  obtain ⟨htaken, hout⟩ := hstart _ rfl
  cases hfits : s.sisterFits (s.value acc Obj.sisterCtrl r v) with
  | true => rw [htaken hfits, State.serveKey_next (eff := Spares.control) hmay (Spares.control_fits h h' hfits)]
  | false => rw [hout hfits, State.serveKey_refused (eff := Spares.control) hmay (Spares.control_refused h h' hfits)]
end

/-! ## Retirements -/

theorem exec_retirementResume (h : s.rd .sisterState = 1 ∨ s.rd .sisterState = 4) (hcmd : s.rd .sisterCmd ≤ 2)
    (hspan : s.spanSwaps = false) : exec .retirementResume s = .next s.retire :=
  congrArg Host.Outcome.next (if_pos ⟨h, hcmd, by rw [hspan]; rfl⟩)

theorem exec_retirementResume_none (h : (s.rd .sisterState ≠ 1 ∧ s.rd .sisterState ≠ 4) ∨ 2 < s.rd .sisterCmd ∨ s.spanSwaps = true) :
    exec .retirementResume s = .next s.autoRetire := by
  refine congrArg Host.Outcome.next (if_neg ?_)
  rintro ⟨hstate, hcmd, hspan⟩
  rcases h with ⟨h, h'⟩ | h | h
  · exact hstate.elim h h'
  · omega
  · simp [h] at hspan

theorem State.autoRetire_off (h : s.rd .autoRetire = 0) : s.autoRetire = s := if_pos (.inl h)

section
variable (hauto : s.rd .autoRetire = 1) (hruns : s.firmwareRuns = true) (hfree : s.frozen = false) (hidle : s.rd .sisterState ≠ 1)
  (hidle' : s.rd .sisterState ≠ 4)
include hauto hruns hfree hidle hidle'

theorem State.autoRetire_on : s.autoRetire =
    match s.retireNext with
    | some v => ((s.setObj Obj.sisterCtrl v).sisterEnd 1 0).retire
    | none => s := by
  have hopen : ¬ (s.rd .autoRetire = 0 ∨ !s.firmwareRuns ∨ s.frozen = true ∨ s.rd .sisterState = 1 ∨ s.rd .sisterState = 4) := by
    simp [hauto, hruns, hfree, hidle, hidle']
  exact if_neg hopen

theorem State.autoRetire_none (hnext : s.retireNext = none) : s.autoRetire = s := by
  simp only [State.autoRetire_on hauto hruns hfree hidle hidle', hnext]

theorem State.autoRetire_some {v : Val} (hnext : s.retireNext = some v) :
    s.autoRetire = ((s.setObj Obj.sisterCtrl v).sisterEnd 1 0).retire := by
  simp only [State.autoRetire_on hauto hruns hfree hidle hidle', hnext]
end

/-- The line chosen is a candidate's column or row, and nothing bars it. -/
theorem State.retireNext_shows {v : Val} (hnext : s.retireNext = some v) : (s.setObj Obj.sisterCtrl v).retireBar = none ∧
    ∃ n i, n < s.cfg.njs ∧ i < 4 ∧ wearCandidate (s.wear n i) = 1 ∧
      (v = sisterWord 1 0 0 0 (s.physOf n).1 ∨ v = sisterWord 2 0 0 0 (s.physOf n).2) := by
  obtain ⟨n, hn, hfind⟩ := List.exists_of_findSome?_eq_some hnext
  obtain ⟨hnjs, hwear⟩ := List.mem_filter.mp hn
  obtain ⟨i, hi, hcandidate⟩ := List.any_eq_true.mp hwear
  have hbar := List.find?_some hfind
  refine ⟨Option.isNone_iff_eq_none.mp ((Bool.and_eq_true _ _).mp hbar).1, n, i, List.mem_range.mp hnjs, List.mem_range.mp hi,
    beq_iff_eq.mp hcandidate, ?_⟩
  simpa using List.mem_of_find?_eq_some hfind

section
variable (hfree : s.frozen = false) (hruns : s.firmwareRuns = true)
include hfree hruns

theorem State.retire_barred {reason : Nat} (hbar : s.retireBar = some reason) : s.retire = s.sisterEnd 3 reason := by
  have hopen : ¬ (((s.frozen && !s.safe) || !s.firmwareRuns) = true) := by simp [hfree, hruns]
  exact (if_neg hopen).trans (by simp only [hbar])

theorem State.retire_free (hbar : s.retireBar = none) :
    s.retire = if s.spanSwaps then s.sisterEnd 4 0 else (s.wr .sisterState 1).retireSteps := by
  have hopen : ¬ (((s.frozen && !s.safe) || !s.firmwareRuns) = true) := by simp [hfree, hruns]
  exact (if_neg hopen).trans (by simp only [hbar])
end

/-- The first of three causes that stands. -/
theorem firstOfThree_range {a b c : Prop} [Decidable a] [Decidable b] [Decidable c] {reason : Nat}
    (h : (if a then some 1 else if b then some 2 else if c then some 3 else none) = some reason) : 1 ≤ reason ∧ reason ≤ 3 := by
  split at h
  · cases h
    decide
  split at h
  · cases h
    decide
  split at h <;> cases h
  decide

theorem State.retireBar_range {reason : Nat} (hbar : s.retireBar = some reason) : 1 ≤ reason ∧ reason ≤ 3 := firstOfThree_range hbar

/-! ## Steering -/

section
variable {point : Nat} {x : Steer} (hmoves : s.moves n = true)
  (hfind : s.sp.steering.find? (fun x => x.n == n && x.point == point) = some x)
include hmoves hfind

theorem exec_wireSteerStage (ok : Bool) : exec (.wireSteerStage n point ok) s = .next (if ok then s.steerOn x else s.steerAgain x) := by
  have hopen : ¬ ((!s.moves n) = true) := by rw [hmoves]; decide
  simp only [exec, execWireSteerStage, Spares.stage, hfind, if_neg hopen]

theorem exec_wireSteerStage_first (hstage : x.stage = 0) : exec (.wireSteerStage n point true) s =
    .next { s with sp := { s.sp with steering := s.sp.steering.erase x ++ [⟨x.n, x.point, x.wire, x.spare, 1⟩] } } := by
  rw [exec_wireSteerStage hmoves hfind, if_pos rfl, State.steerOn, if_pos hstage]

theorem exec_wireSteerStage_last (hstage : x.stage ≠ 0) {s1 : State}
    (hs1 : s1 = { s with sp := { s.sp with steering := s.sp.steering.erase x } }) : exec (.wireSteerStage n point true) s =
      .next ((s1.spareRecord 3 x.n x.point 0x1F x.wire (32 - s1.rd (.wiresUsed x.n x.point))).sisterDone 3 x.n
        (s1.rd .sisterPoint == x.point && s1.rd .sisterWire == x.wire)) := by
  rw [exec_wireSteerStage hmoves hfind, if_pos rfl, State.steerOn, if_neg hstage, hs1]
end

/-! ## Margins, drift and FEC corrections -/

theorem exec_marginMeasure {point m : Nat} {steps : BitVec 8} {s1 : State} (hrunning : s.running = true) (hactive : s.junctionActive n = true)
    (hthere : (s.cfg.neighbour n point).isSome = true) (hm : m = if 32 ≤ s.rd (.wiresUsed n point) then 0xFF else steps.toNat)
    (hs1 : s1 = s.setWear n point (wearOf (wearSuspect (s.wear n point)) (wearCount (s.wear n point)) (wearCandidate (s.wear n point)) m)) :
    exec (.marginMeasure n point steps) s =
      .next (if m < s1.rd .marginMin ∧ s1.suspectsSteered n point then s1.candidate n else s1).autoRetire := by
  subst hm hs1
  have hopen : ¬ (!s.running ∨ !s.junctionActive n ∨ (s.cfg.neighbour n point).isNone = true) := by
    rw [Option.isNone_eq_false_iff.mpr hthere]
    simp [hrunning, hactive]
  exact congrArg Host.Outcome.next (if_neg hopen)

theorem exec_paceDriftMeasure {k : Nat} {drift : BitVec 16} {s1 : State} (hrunning : s.running = true) (hk : k < s.cfg.regions)
    (hactive : s.regionStateOf k = 2) (hs1 : s1 = s.setObj (Obj.paceDrift k) (drift.setWidth 64)) :
    exec (.paceDriftMeasure k drift) s = .next (if s1.drifted k then s1.raise ⟨0x00A, none, 0x7F, 7, k, drift.toNat, false⟩ else s1) :=
  hs1 ▸ congrArg Host.Outcome.next (if_neg (by simp [hrunning, hactive, Nat.not_le.mpr hk]))

theorem exec_autoBridgeCheck {b : Nat} (hauto : s.rd .autoBridge = 1) (hruns : s.firmwareRuns = true) (hup : s.rd (.bridgeState b) = 2)
    (hmany : 2 ^ 20 < s.fecThisHour b) : exec (.autoBridgeCheck b) s = .next (s.bridgeRetrain b (Tbl.get 0 s.sp.fecMods b)) :=
  congrArg Host.Outcome.next (if_pos ⟨hauto, hruns, hup, hmany⟩)
end

/-- Settles O58. WEAR_DRIFT at each measurement, the modules that AUTO_BRIDGE retrains, the candidates of a margin and which line of theirs
is retired first are the model's choices (log entries 59, 169, 58 and 142). -/
theorem sparesAreTakenAndWearIsWatched : Obligations.SparesAreTakenAndWearIsWatched := by
  unfold Obligations.SparesAreTakenAndWearIsWatched
  intro s
  refine ⟨fun acc r n point wire lane phys start hmay hstart => ⟨fun h h' => ⟨?col, ?row, ?wire, ?lane⟩, fun h c hc => ?busy⟩,
    exec_retirementResume, exec_retirementResume_none, State.autoRetire_off,
    fun hauto hruns hfree hidle hidle' => ⟨State.autoRetire_none hauto hruns hfree hidle hidle', fun v hnext =>
      ⟨State.autoRetire_some hauto hruns hfree hidle hidle' hnext, State.retireNext_shows hnext⟩⟩,
    fun hfree hruns => ⟨fun reason hbar => ⟨State.retire_barred hfree hruns hbar, State.retireBar_range hbar⟩,
      fun hbar hspan => (State.retire_free hfree hruns hbar).trans (if_pos hspan), fun hbar hspan => ?steps⟩,
    fun n point x hmoves hfind => ⟨fun hstage => ⟨_, exec_wireSteerStage_first hmoves hfind hstage, rfl, rfl⟩,
      fun hstage s1 => exec_wireSteerStage_last hmoves hfind hstage, exec_wireSteerStage hmoves hfind false⟩,
    fun n point steps v m s1 hrunning hactive hthere hv hm hs1 => ?margin, fun k drift s1 hrunning hk hactive hs1 => ?drift,
    fun hrunning => ⟨_, exec_suspectHourExpire hrunning, rfl, State.restartWear_objs, fun b => State.hourPassed_fecBase,
      fun n hn i => State.restartWear_count hn⟩,
    fun b hauto hruns hup count base hcount hbase hmany => exec_autoBridgeCheck hauto hruns hup (by rw [hcount, hbase] at hmany; exact hmany)⟩
  case col => exact State.serveSister_start hmay _ h h' (hstart _)
  case row => exact State.serveSister_start hmay _ h h' (hstart _)
  case wire => exact State.serveSister_start hmay _ h h' (hstart _)
  case lane => exact State.serveSister_start hmay _ h h' (hstart _)
  case busy => rcases hc with rfl | rfl | rfl | rfl <;> exact congrArg _ (State.serveSister_busy hmay _ h)
  case steps => exact (State.retire_free hfree hruns hbar).trans (if_neg (by rw [hspan]; exact Bool.false_ne_true))
  case margin =>
    subst hv
    have hexec := exec_marginMeasure hrunning hactive hthere hm hs1
    refine ⟨fun hlow hsteered => by rw [hexec, if_pos ⟨hlow, hsteered⟩], fun h => ?_⟩
    rw [hexec, if_neg]
    rintro ⟨hlow, hsteered⟩
    rcases h with h | h
    · omega
    · simp [h] at hsteered
  case drift =>
    have hexec := exec_paceDriftMeasure hrunning hk hactive hs1
    exact ⟨fun h => by rw [hexec, if_pos h], fun h => by rw [hexec, if_neg (by simp [h])]⟩

end Sys2Proof.Machine
end

-- ==== PROOFS: O59, counters, trace and the hall's time ====
section
/-! PROOFS. Counters and their events, the trace store, and the hall's time base (O59). -/

namespace Sys2Proof.Machine

/-! ## Bit maps -/

theorem leBytes_getD {n i : Nat} (x : Nat) (hi : i < n) : (leBytes n x).getD i 0 = BitVec.ofNat 8 (x / 256 ^ i) := by
  induction n generalizing i x with
  | zero => omega
  | succ n ih =>
    cases i with
    | zero => simp [leBytes]
    | succ i => rw [leBytes, List.getD_cons_succ, ih _ (by omega), Nat.div_div_eq_div_mul, Nat.pow_succ']

theorem bitOf_leBytes {n e : Nat} (x : Nat) (he : e < 8 * n) : bitOf (leBytes n x) e = x.testBit e := by
  unfold bitOf
  rw [leBytes_getD x (by omega), BitVec.getLsbD_ofNat, show 256 = 2 ^ 8 by decide, ← Nat.pow_mul, Nat.testBit_div_two_pow,
    show e % 8 + 8 * (e / 8) = e by omega]
  simp [Nat.mod_lt]

theorem Tbl.drop_all {α : Type} (t : Tbl α) : Tbl.drop (fun _ => true) t = [] := by
  induction t with
  | nil => rfl
  | cons p t ih => exact ih

section
variable {s : State} {acc : Access} {r : ObjRow}

/-! ## Downloads in one command -/

section
variable {k : Nat} {bs : List Byte} {eff : List Byte → Effect} (hserves : s.serves acc = true)
  (hcheck : s.check acc (k / 256) (k % 256) .download bs.length = .ok r)
include hserves hcheck

theorem State.serveDomain_next {t : State} (heff : eff bs s = .ok t) :
    s.serveDomain acc k bs eff = t.respond acc 5 (k / 256) (k % 256) (Reply.done r.ty 0 0x80000000 []) := by
  have hopen : ¬ ((!s.serves acc) = true) := by simp [hserves]
  simp only [State.serveDomain, if_neg hopen, hcheck, heff]

theorem State.serveDomain_refused {a : Abort} (heff : eff bs s = .error a) :
    s.serveDomain acc k bs eff = s.abortRequest acc 5 (k / 256) (k % 256) 0 a := by
  have hopen : ¬ ((!s.serves acc) = true) := by simp [hserves]
  simp only [State.serveDomain, if_neg hopen, hcheck, heff]
end

/-! ## Counters -/

theorem exec_counterGather (hrunning : s.running = true) : exec .counterGather s = .next s.gather := congrArg Host.Outcome.next (if_pos hrunning)

theorem State.gather_shows : s.gather.obs.counts = [] ∧ s.gather.obs.fresh = [] ∧ s.gather.obj Obj.gatherTime = BitVec.ofNat 64 s.now := by
  refine ⟨?_, rfl, State.obj_setObj_same _ _ _⟩
  exact Tbl.drop_all _

/-- The state in which slot `k` counts what `x` says, from zero. -/
def State.slotSet (s : State) (k : Nat) (x : Val) : State :=
  let s1 := (s.setObj (Obj.cntCfg k) x).setObj (Obj.cntValue k) 0
  { s1 with obs := { s1.obs with fresh := if s1.obs.fresh.contains k then s1.obs.fresh else s1.obs.fresh ++ [k] } }

theorem State.slotSet_fresh (k : Nat) (x : Val) : k ∈ (s.slotSet k x).obs.fresh := by
  change k ∈ if s.obs.fresh.contains k then s.obs.fresh else s.obs.fresh ++ [k]
  split
  case isTrue h => exact List.contains_iff_mem.mp h
  case isFalse => exact List.mem_append_right _ (List.mem_singleton.mpr rfl)

theorem Observe.setSlot_listed {k : Nat} {x : Val} (h : eventListed (fget x 0 8) = true) : Observe.setSlot k x s = .ok (s.slotSet k x) :=
  if_neg (by simp [h])

theorem Observe.setSlot_unlisted {k : Nat} {x : Val} (h : eventListed (fget x 0 8) = false) : Observe.setSlot k x s = .error .outOfRange :=
  if_pos (by simp [h])

/-- An event that a ward may not enable. -/
def eventBarred (e : Nat) : Bool := !eventListed e || e == 0x35

theorem Observe.setEvents_bits (w : Nat) (bits : BitVec 128) : Observe.setEvents w (leBytes 16 bits.toNat) s =
    if (List.range 128).any (fun e => bits.getLsbD e && eventBarred e) then .error .outOfRange
    else .ok (s.setDom (Obj.wardEvtEn w) (leBytes 16 bits.toNat)) := by
  have hbits : ∀ e ∈ List.range 128, (bitOf (leBytes 16 bits.toNat) e && (!eventListed e || e == 0x35)) =
      (bits.getLsbD e && eventBarred e) := by
    intro e he
    rw [bitOf_leBytes _ (List.mem_range.mp he)]
    rfl
  have hany : (List.range 128).any (fun e => bitOf (leBytes 16 bits.toNat) e && (!eventListed e || e == 0x35)) =
      (List.range 128).any (fun e => bits.getLsbD e && eventBarred e) := by
    rw [Bool.eq_iff_iff, List.any_eq_true, List.any_eq_true]
    exact exists_congr fun e => and_congr_right fun he => by rw [hbits e he]
  unfold Observe.setEvents
  rw [if_neg (by simp [leBytes_length]), hany]

theorem Observe.setEvents_taken (w : Nat) {bits : BitVec 128} (h : ∀ e < 128, bits.getLsbD e = true → eventListed e = true ∧ e ≠ 0x35) :
    Observe.setEvents w (leBytes 16 bits.toNat) s = .ok (s.setDom (Obj.wardEvtEn w) (leBytes 16 bits.toNat)) := by
  rw [Observe.setEvents_bits, if_neg]
  rw [List.any_eq_true]
  rintro ⟨e, he, hbit⟩
  rw [Bool.and_eq_true] at hbit
  obtain ⟨hlisted, hne⟩ := h e (List.mem_range.mp he) hbit.1
  simp [eventBarred, hlisted, hne] at hbit

theorem Observe.setEvents_refused (w : Nat) {bits : BitVec 128} {e : Nat} (he : e < 128) (hbit : bits.getLsbD e = true)
    (h : eventListed e = false ∨ e = 0x35) : Observe.setEvents w (leBytes 16 bits.toNat) s = .error .outOfRange := by
  have hbar : eventBarred e = true := by rcases h with h | h <;> simp [eventBarred, h]
  rw [Observe.setEvents_bits, if_pos (List.any_eq_true.mpr ⟨e, List.mem_range.mpr he, by rw [hbit, hbar]; rfl⟩)]

/-! ## Trace -/

theorem find?_ofThree {p : Nat → Bool} {n j : Nat} (hj : j < 3) (hnone : ∀ i < j, p (n + i) = false) (h : p (n + j) = true) :
    [n, n + 1, n + 2].find? p = some (n + j) := by
  obtain rfl | rfl | rfl : j = 0 ∨ j = 1 ∨ j = 2 := by omega
  · exact List.find?_cons_of_pos (a := n) h
  · exact (List.find?_cons_of_neg (a := n) (ne_true_of_eq_false (hnone 0 (by omega)))).trans (List.find?_cons_of_pos h)
  · exact (List.find?_cons_of_neg (a := n) (ne_true_of_eq_false (hnone 0 (by omega)))).trans
      ((List.find?_cons_of_neg (ne_true_of_eq_false (hnone 1 (by omega)))).trans (List.find?_cons_of_pos h))

/-- The first of a junction's three queues that holds a record. -/
theorem State.firstQueue {n j : Nat} (hj : j < 3) (hempty : ∀ i < j, Tbl.get [] s.obs.queues (3 * n + i) = [])
    (hfull : Tbl.get [] s.obs.queues (3 * n + j) ≠ []) :
    [3 * n, 3 * n + 1, 3 * n + 2].find? (fun k => !(Tbl.get [] s.obs.queues k).isEmpty) = some (3 * n + j) :=
  find?_ofThree hj (fun i hi => by rw [hempty i hi]; rfl) (by simpa using hfull)

theorem exec_traceRecordStore {n j : Nat} {q : TraceRec} {rest : List TraceRec} (hj : j < 3)
    (hempty : ∀ i < j, Tbl.get [] s.obs.queues (3 * n + i) = []) (hqueue : Tbl.get [] s.obs.queues (3 * n + j) = q :: rest) :
    exec (.traceRecordStore n) s = .next (State.traceArrive { s with
      obs := { s.obs with queues := Tbl.set [] s.obs.queues (3 * n + j) rest } } q) := by
  have hfind := State.firstQueue hj hempty (by rw [hqueue]; exact List.cons_ne_nil _ _)
  simp only [exec, execTraceRecordStore, Observe.store, hfind, hqueue]

section
variable {x : Val}

theorem Observe.traceControl_inUse (hset : x.getLsbD 31 = true) (h : s.rd .traceState = 2) : Observe.traceControl x s = .error .inUse :=
  if_pos ⟨h, hset⟩

theorem Observe.traceControl_starts (hset : x.getLsbD 31 = true) (h : s.rd .traceState = 0) :
    Observe.traceControl x s = .ok ((s.setObj Obj.traceCtrl x).wr .traceState 1) := by
  have hset' : ¬ ((!x.getLsbD 31) = true) := by simp [hset]
  exact (if_neg (by omega)).trans (congrArg Except.ok ((if_neg hset').trans (if_pos h)))

theorem Observe.traceControl_stays (hset : x.getLsbD 31 = true) (h : s.rd .traceState = 1 ∨ s.rd .traceState = 3) :
    Observe.traceControl x s = .ok (s.setObj Obj.traceCtrl x) := by
  have hset' : ¬ ((!x.getLsbD 31) = true) := by simp [hset]
  exact (if_neg (by omega)).trans (congrArg Except.ok ((if_neg hset').trans (if_neg (by omega))))

theorem Observe.traceControl_off (hclear : x.getLsbD 31 = false) :
    Observe.traceControl x s = .ok ((s.setObj Obj.traceCtrl x).wr .traceState 0) := by
  have hclear' : (!x.getLsbD 31) = true := by rw [hclear]; rfl
  exact (if_neg fun h => by rw [hclear] at h; exact Bool.false_ne_true h.2).trans (congrArg Except.ok (if_pos hclear'))

/-! ## The hall's time base -/

theorem Observe.hallRef_notMaster (h : s.isMaster = false) : Observe.hallRef x s = .error .notPresent := if_pos (by simp [h])

theorem Observe.hallRef_master (h : s.isMaster = true) : Observe.hallRef x s =
    .ok (if x.getLsbD 31 then (if (fget x 16 12 != (s.obj Obj.pkgNumber).toNat) = true then (s.setObj Obj.hallRef x).setObj Obj.hallError 0xFFFFFFFF
      else s.setObj Obj.hallRef x).hallBegin else s.setObj Obj.hallRef x) := if_neg (by simp [h])

theorem Observe.hallRef_cleared (h : s.isMaster = true) (hclear : x.getLsbD 31 = false) :
    Observe.hallRef x s = .ok (s.setObj Obj.hallRef x) := by
  rw [Observe.hallRef_master h, if_neg (by rw [hclear]; exact Bool.false_ne_true)]

theorem Observe.hallRef_own (h : s.isMaster = true) (hset : x.getLsbD 31 = true) (hown : fget x 16 12 = (s.obj Obj.pkgNumber).toNat) :
    Observe.hallRef x s = .ok (s.setObj Obj.hallRef x).hallBegin := by
  rw [Observe.hallRef_master h, if_pos hset, if_neg (by simp [hown])]

theorem Observe.hallRef_other (h : s.isMaster = true) (hset : x.getLsbD 31 = true) (hother : fget x 16 12 ≠ (s.obj Obj.pkgNumber).toNat) :
    Observe.hallRef x s = .ok ((s.setObj Obj.hallRef x).setObj Obj.hallError 0xFFFFFFFF).hallBegin := by
  rw [Observe.hallRef_master h, if_pos hset, if_pos (by simpa using hother)]
end

section
variable {t1 t2 t3 t4 : Int} {e : BitVec 32} {s1 : State} (hmaster : s.isMaster = true) (hfrom : s.obs.hallFrom ≠ none)
  (hs1 : s1 = { s with obs := { s.obs with hall := s.obs.hall ++
        [(-exchangeOffset t1 t2 t3 t4, (exchangeTrip t1 t2 t3 t4).toNat, e.toNat)] } })
include hmaster hfrom hs1

theorem exec_hallTimeRespReceive : exec (.hallTimeRespReceive t1 t2 t3 t4 e) s =
    .next (if 8 ≤ s1.obs.hall.length then s1.hallDone else s1) :=
  hs1 ▸ congrArg Host.Outcome.next (if_neg (by simp [hmaster, hfrom]))

theorem exec_hallTimeRespReceive_more (h : s.obs.hall.length < 7) : exec (.hallTimeRespReceive t1 t2 t3 t4 e) s = .next s1 := by
  rw [exec_hallTimeRespReceive hmaster hfrom hs1, if_neg (by rw [hs1]; simp; omega)]

theorem exec_hallTimeRespReceive_last (h : 7 ≤ s.obs.hall.length) : exec (.hallTimeRespReceive t1 t2 t3 t4 e) s = .next s1.hallDone := by
  rw [exec_hallTimeRespReceive hmaster hfrom hs1, if_pos (by rw [hs1]; simp; omega)]
end

/-- The exchange with the least trip, the first of these. -/
def leastTrip (e : Int × Nat × Nat) (es : List (Int × Nat × Nat)) : Int × Nat × Nat :=
  es.foldl (fun x y => if y.2.1 < x.2.1 then y else x) e

theorem leastTrip_shows (e : Int × Nat × Nat) (es : List (Int × Nat × Nat)) :
    leastTrip e es ∈ e :: es ∧ ∀ x ∈ e :: es, (leastTrip e es).2.1 ≤ x.2.1 := by
  induction es generalizing e with
  | nil => simp [leastTrip]
  | cons y ys ih =>
    obtain ⟨hmem, hle⟩ := ih (if y.2.1 < e.2.1 then y else e)
    rw [show leastTrip e (y :: ys) = leastTrip (if y.2.1 < e.2.1 then y else e) ys from rfl]
    have hfirst := hle _ List.mem_cons_self
    have hboth : (if y.2.1 < e.2.1 then y else e).2.1 ≤ e.2.1 ∧ (if y.2.1 < e.2.1 then y else e).2.1 ≤ y.2.1 := by
      split <;> omega
    constructor
    · rcases List.mem_cons.mp hmem with h | h
      · rw [h]
        split <;> simp
      · exact List.mem_cons_of_mem _ (List.mem_cons_of_mem _ h)
    · intro x hx
      rcases List.mem_cons.mp hx with rfl | hx
      · exact Nat.le_trans hfirst hboth.1
      · rcases List.mem_cons.mp hx with rfl | hx
        · exact Nat.le_trans hfirst hboth.2
        · exact hle x (List.mem_cons_of_mem _ hx)

theorem State.hallDone_shows (h : s.obs.hall ≠ []) : ∃ b ∈ s.obs.hall, (∀ x ∈ s.obs.hall, b.2.1 ≤ x.2.1) ∧ s.hallDone =
    ({ s with obs := { s.obs with hall := [], hallFrom := none } } : State).hallSet b.1 (b.2.1 / 2 + b.2.2 + 2) := by
  obtain ⟨e, es, hall⟩ := List.exists_cons_of_ne_nil h
  obtain ⟨hmem, hle⟩ := leastTrip_shows e es
  refine ⟨leastTrip e es, hall ▸ hmem, hall ▸ hle, ?_⟩
  simp only [State.hallDone, hall, leastTrip]

theorem exec_hallMeasureTimeout {t0 : Nat} (hfrom : s.obs.hallFrom = some t0) : exec .hallMeasureTimeout s =
    .next { (s.advanceTo (t0 + 10000000)).hallDone with
      obs := { (s.advanceTo (t0 + 10000000)).hallDone.obs with hall := [], hallFrom := none } } := by
  simp only [exec, execHallMeasureTimeout, Observe.hallTimeout, hfrom]
end

/-- Settles O59. HALL_OFFSET as minus the value of R324's formula, the use of what was exchanged when 10 ms have passed, and the free ARG0 of
a commanded trigger are the model's choices (log entries 74 and 79). -/
theorem countersTraceAndHallTimeAct : Obligations.CountersTraceAndHallTimeAct := by
  unfold Obligations.CountersTraceAndHallTimeAct
  intro s
  refine ⟨fun hrunning => ⟨s.gather, exec_counterGather hrunning, State.gather_shows⟩, fun acc k v r x hmay hx => ⟨fun h => ⟨s.slotSet k x, ?slot,
      State.slotSet_fresh k x, rfl⟩, fun h => ?unlisted⟩, fun acc w bits r key hkey hserves hcheck => ?events,
    fun n j q rest => exec_traceRecordStore, fun acc r hmay => ⟨fun hx => ?trigger, fun hx => ?restart⟩,
    fun acc v r x hmay hx => ?control, fun acc v r x s1 hmay hx hs1 => ?hall,
    fun t1 t2 t3 t4 e s1 hmaster hfrom hs1 => ⟨exec_hallTimeRespReceive_more hmaster hfrom hs1, exec_hallTimeRespReceive_last hmaster hfrom hs1⟩,
    State.hallDone_shows, fun t0 hfrom => ⟨_, exec_hallMeasureTimeout hfrom, rfl, rfl, rfl⟩⟩
  case slot => exact congrArg _ (State.serveKey_next (eff := Observe.setSlot k) hmay (hx ▸ Observe.setSlot_listed h))
  case unlisted => exact congrArg _ (State.serveKey_refused (eff := Observe.setSlot k) hmay (hx ▸ Observe.setSlot_unlisted h))
  case events =>
    subst hkey
    have hcheck' : s.check acc (Obj.wardEvtEn w.toNat / 256) (Obj.wardEvtEn w.toNat % 256) .download (leBytes 16 bits.toNat).length = .ok r := by
      rw [leBytes_length, hcheck]
    exact ⟨fun h => congrArg _ (State.serveDomain_next hserves hcheck' (Observe.setEvents_taken w.toNat h)), fun e he hbit h =>
      congrArg _ (State.serveDomain_refused hserves hcheck' (Observe.setEvents_refused w.toNat he hbit h))⟩
  case trigger => exact congrArg _ (State.serveKey_next (eff := Observe.traceCommand) hmay (by rw [hx]; rfl))
  case restart => exact congrArg _ (State.serveKey_next (eff := Observe.traceCommand) hmay (by rw [hx]; rfl))
  case control =>
    have taken {t : State} (heff : Observe.traceControl x s = .ok t) : exec (.traceCtrlWrite acc v) s = .next (t.written acc Obj.traceCtrl r.ty) :=
      congrArg _ (State.serveKey_next (eff := Observe.traceControl) hmay (hx ▸ heff))
    exact ⟨fun hset h => congrArg _ (State.serveKey_refused (eff := Observe.traceControl) hmay (hx ▸ Observe.traceControl_inUse hset h)),
      fun hset h => taken (Observe.traceControl_starts hset h), fun hset h => taken (Observe.traceControl_stays hset h),
      fun hclear => taken (Observe.traceControl_off hclear)⟩
  case hall =>
    subst hs1
    have taken {t : State} (heff : Observe.hallRef x s = .ok t) : exec (.hallRefWrite acc v) s = .next (t.written acc Obj.hallRef r.ty) :=
      congrArg _ (State.serveKey_next (eff := Observe.hallRef) hmay (hx ▸ heff))
    exact ⟨fun h => congrArg _ (State.serveKey_refused (eff := Observe.hallRef) hmay (hx ▸ Observe.hallRef_notMaster h)), fun h =>
      ⟨fun hclear => taken (Observe.hallRef_cleared h hclear), fun hset hown => taken (Observe.hallRef_own h hset hown),
        fun hset hother => taken (Observe.hallRef_other h hset hother)⟩⟩

end Sys2Proof.Machine
end

-- ==== PROOFS: O60, freeze, dump and the progress watchdog ====
section
/-! PROOFS. Freezes and their release, captures, the progress watchdog and the wait-for graph (O60). -/

namespace Sys2Proof.Machine

section
variable {s : State} {acc : Access} {r : ObjRow}

/-! ## What a request that passes its checks has met -/

theorem State.parts_of_check {i sub len : Nat} {d : Doing} (h : s.check acc i sub d len = .ok r) :
    s.checkPath acc i sub d.writes = .ok r ∧ s.checkRest acc i sub d len r = .ok () := by
  unfold State.check at h
  split at h
  · cases h
  · split at h
    · cases h
    case h_2 hpath =>
      split at h
      · cases h
      case h_2 hrest =>
        cases h
        exact ⟨hpath, hrest⟩

/-- The level that a request needs (R438). -/
def State.need (acc : Access) (i sub : Nat) (d : Doing) (r : ObjRow) : Nat :=
  if d.writes then (if isPeer acc.path && peerCopies (objKey i sub) then 3 else r.wr) else r.rd

theorem ok_of_ite_error {ε α : Type} {c : Prop} [Decidable c] {e : ε} {x : Except ε α} {y : α} (h : (if c then .error e else x) = .ok y) :
    ¬ c ∧ x = .ok y := by
  by_cases hc : c
  · rw [if_pos hc] at h
    cases h
  · exact ⟨hc, (if_neg hc).symm.trans h⟩

theorem State.met_of_checkRest {i sub len : Nat} {d : Doing} (h : s.checkRest acc i sub d len r = .ok ()) :
    s.holds acc i sub (State.need acc i sub d r) d.writes = true ∧ (d.writes && s.safe && !safeWritable (objKey i sub)) = false := by
  unfold State.checkRest at h
  extract_lets k copy need at h
  rw [show need = State.need acc i sub d r from rfl] at h
  obtain ⟨-, h⟩ := ok_of_ite_error h
  obtain ⟨hholds, h⟩ := ok_of_ite_error h
  obtain ⟨-, h⟩ := ok_of_ite_error h
  obtain ⟨-, h⟩ := ok_of_ite_error h
  obtain ⟨-, h⟩ := ok_of_ite_error h
  obtain ⟨hsafe, -⟩ := ok_of_ite_error h
  exact ⟨by simpa only [Bool.not_eq_true', Bool.not_eq_false] using hholds, by simpa only [Bool.not_eq_true] using hsafe⟩

/-! ## Freeze and release -/

/-- In the safe state FREEZE_CTRL takes no write (R450). -/
theorem State.not_mayWrite_freezeCtrl (hsafe : s.safe = true) : ¬ s.MayWrite acc Obj.freezeCtrl r := by
  rintro ⟨-, hcheck⟩
  obtain ⟨-, hopen⟩ := State.met_of_checkRest (State.parts_of_check hcheck).2
  rw [show Doing.write.writes = true from rfl, hsafe, show safeWritable (objKey (Obj.freezeCtrl / 256) (Obj.freezeCtrl % 256)) = false by decide] at hopen
  exact absurd hopen (by decide)

section
variable {x : Val}

theorem Observe.freezeControl_freeze (hcmd : fget x 0 4 = 1) : Observe.freezeControl x s =
    .ok (if s.frozen then s.setObj Obj.freezeCtrl x else (s.setObj Obj.freezeCtrl x).freezeBegin 1 1) := by
  simp only [Observe.freezeControl, hcmd]

theorem Observe.freezeControl_release (hcmd : fget x 0 4 = 2) (hsafe : ¬ s.safe = true) : Observe.freezeControl x s =
    if s.obs.capturing then .error .inUse
    else .ok (if s.frozen then (s.setObj Obj.freezeCtrl x).releaseBegin else s.setObj Obj.freezeCtrl x) := by
  simp only [Observe.freezeControl, hcmd, if_neg hsafe]
end

theorem exec_freezeComplete (h : s.rd .freezeState = 1) : exec .freezeComplete s = .next (s.wr .freezeState 2) :=
  congrArg Host.Outcome.next (if_pos h)

theorem exec_freezeComplete_none (h : s.rd .freezeState ≠ 1) : exec .freezeComplete s = .next s := congrArg Host.Outcome.next (if_neg h)

theorem exec_releaseComplete (h : s.rd .freezeState = 3) : exec .releaseComplete s = .next ((s.wr .freezeState 0).wr .freezeCause 0) :=
  congrArg Host.Outcome.next (if_pos h)

theorem exec_releaseComplete_none (h : s.rd .freezeState ≠ 3) : exec .releaseComplete s = .next s := congrArg Host.Outcome.next (if_neg h)

/-! ## FREEZE_STATE and the trace -/

theorem State.freezeState_traceWrite (t : State) (q : TraceRec) : (t.traceWrite q).obj Obj.freezeState = t.obj Obj.freezeState := by
  have hadvance (u : State) (i : Nat) : (u.traceAdvance i).obj Obj.freezeState = u.obj Obj.freezeState := by
    unfold State.traceAdvance State.bumpWrap
    split
    · rw [State.obj_wr_ne _ _ _ _ (by decide), State.obj_wr_ne _ _ _ _ (by decide)]
    · rw [State.obj_wr_ne _ _ _ _ (by decide)]
  have hcount (u : State) : u.traceCountDown.obj Obj.freezeState = u.obj Obj.freezeState := by
    unfold State.traceCountDown
    split
    · exact State.obj_wr_ne _ _ _ _ (by decide)
    · rfl
  unfold State.traceWrite
  extract_lets st i s1 s2
  have h2 : s2.obj Obj.freezeState = t.obj Obj.freezeState := by
    refine (hadvance (s1.traceStoreAt i q) i).trans ?_
    change s1.obj Obj.freezeState = _
    unfold s1
    split
    · exact State.obj_wr_ne _ _ _ _ (by decide)
    · rfl
  split
  · rfl
  · split
    · exact State.obj_wr_ne _ _ _ _ (by decide)
    · split
      · exact (hcount s2).trans h2
      · exact h2

theorem State.freezeState_traceFire (t : State) (arg0 : Nat) : (t.traceFire arg0).obj Obj.freezeState = t.obj Obj.freezeState := by
  unfold State.traceFire
  extract_lets st n s1 o s2
  have h1 : s1.obj Obj.freezeState = t.obj Obj.freezeState :=
    (State.obj_wr_ne _ _ _ _ (by decide)).trans (State.obj_wr_ne _ _ _ _ (by decide))
  split
  · rfl
  · split
    · exact State.freezeState_traceWrite _ _
    · exact (State.freezeState_traceWrite s2 _).trans h1

/-- A freeze of a die that is not frozen shows its state. -/
theorem State.freezeBegin_state {st cause : Nat} (hfree : s.frozen = false) (hst : st < 8) :
    (s.freezeBegin st cause).rd .freezeState = st := by
  have hwritten : ((s.wr .freezeState st).wr .freezeCause cause).rd .freezeState = st := by
    rw [State.rd_wr_apart _ _ _ _ (by decide) (by decide) (.inr (by decide)), State.rd_wr_same _ _ _ (by decide)]
    exact Nat.mod_eq_of_lt hst
  refine (State.rd_of_obj (f := .freezeState) ?_).trans hwritten
  change (s.freezeBegin st cause).obj Obj.freezeState = ((s.wr .freezeState st).wr .freezeCause cause).obj Obj.freezeState
  unfold State.freezeBegin
  rw [if_neg (by rw [hfree]; exact Bool.false_ne_true)]
  extract_lets s1 o s2 s3
  have h3 : s3.obj Obj.freezeState = s1.obj Obj.freezeState := by
    unfold s3
    split
    · exact State.freezeState_traceWrite _ _
    · rfl
  split
  · exact (State.freezeState_traceFire s3 _).trans h3
  · exact h3

/-! ## Dump -/

theorem Observe.capture_frozen {x : Val} (hx : x = 1) (h : s.rd .freezeState = 2 ∨ s.rd .freezeState = 4) : Observe.capture x s =
    .ok { s with obs := { s.obs with capturing := true } } := by
  subst hx
  exact (if_neg (by decide)).trans (if_neg (by omega))

theorem Observe.capture_running {x : Val} (hx : x = 1) (h : s.rd .freezeState ≠ 2) (h' : s.rd .freezeState ≠ 4) :
    Observe.capture x s = .error .badState := by
  subst hx
  exact (if_neg (by decide)).trans (if_pos ⟨h, h'⟩)

theorem exec_captureComplete (hcapturing : s.obs.capturing = true) (hruns : s.firmwareRuns = true) : exec .captureComplete s =
    .next (({ s.setDom Obj.dump s.dumpBytes with obs := { s.obs with capturing := false } } : State).recordEvent 0x0050
      (s.rd .freezeCause * 2 ^ 28 + s.heldLatches % 2 ^ 16) (s.obs.freezeStart % 2 ^ 32) false) :=
  congrArg Host.Outcome.next (if_neg (by simp [hcapturing, hruns]))

/-! ## The progress watchdog and its graph -/

section
variable {now : List Stall} {due : Stall → Bool} {s1 : State} (hrunning : s.running = true) (htimers : s.timersStopped = false)
  (hnow : now = s.stalledNow.map s.stallOf)
  (hdue : ∀ x : Stall, due x = (!x.counted && decide (s.watchWindow x.cls ≤ s.txnNow - x.since)))
  (hs1 : s1 = { s with obs := { s.obs with stalls := now.map (fun x => if due x then { x with counted := true } else x) } })
include hrunning htimers hnow hdue hs1

theorem exec_progressWatchExamine : exec .progressWatchExamine s = .next (match now.find? due with
    | none => s1
    | some x => s1.detect x) := by
  obtain rfl := funext hdue
  subst hnow hs1
  exact congrArg Host.Outcome.next (if_neg (by simp [hrunning, htimers]))

theorem exec_progressWatchExamine_none (hnone : now.find? due = none) : exec .progressWatchExamine s = .next s1 := by
  rw [exec_progressWatchExamine hrunning htimers hnow hdue hs1, hnone]

theorem exec_progressWatchExamine_some {x : Stall} (hsome : now.find? due = some x) : exec .progressWatchExamine s = .next (s1.detect x) := by
  rw [exec_progressWatchExamine hrunning htimers hnow hdue hs1, hsome]
end

theorem exec_waitGraphComplete (hfrom : s.obs.graphFrom ≠ none) (hruns : s.firmwareRuns = true) : exec .waitGraphComplete s =
    .next { s.setDom Obj.waitGraph (s.graphBytes s.obs.graphSeeds) with
      obs := { (s.setDom Obj.waitGraph (s.graphBytes s.obs.graphSeeds)).obs with graphFrom := none, graphSeeds := [] } } :=
  congrArg Host.Outcome.next (if_neg (by simp [hfrom, hruns]))

/-- Nodes that are found stay within the room of the graph. -/
theorem State.graphNodes_length (k : Nat) (todo found : List WaitNode) (h : found.length ≤ graphMost) :
    (s.graphNodes k todo found).1.length ≤ graphMost := by
  induction k generalizing todo found with
  | zero => exact h
  | succ k ih =>
    cases todo with
    | nil => exact h
    | cons x todo =>
      unfold State.graphNodes
      extract_lets new room
      have hroom : room.length = min (graphMost - found.length) new.length := List.length_take
      split
      · change (found ++ room).length ≤ graphMost
        rw [List.length_append]
        omega
      · refine ih _ _ ?_
        rw [List.length_append]
        omega

theorem State.graphNodes_seeds (seeds : List WaitNode) :
    (s.graphNodes graphMost (seeds.take graphMost) (seeds.take graphMost)).1.length ≤ 4096 :=
  State.graphNodes_length _ _ _ (List.length_take_le _ _)
end

/-- Settles O60. That RELEASE_COMPLETE clears CAUSE, and that a RELEASE of a die that is not frozen is taken without effect, are the model's
choices (log entry 70). -/
theorem theDieIsFrozenDumpedAndWatched : Obligations.TheDieIsFrozenDumpedAndWatched := by
  unfold Obligations.TheDieIsFrozenDumpedAndWatched
  intro s
  refine ⟨fun acc r x s1 refused hmay hs1 hrefused => ⟨fun hx hcmd => ?freeze, fun hx hcmd => ?release⟩,
    fun acc hsafe => ⟨fun r => State.not_mayWrite_freezeCtrl hsafe, fun hserves hcheck => ⟨congrArg _ (State.serveKey_barred hserves hcheck),
      congrArg _ (State.serveKey_barred hserves hcheck)⟩⟩,
    fun st cause => State.freezeBegin_state, exec_freezeComplete, exec_releaseComplete, exec_freezeComplete_none, exec_releaseComplete_none,
    fun acc r hmay hx => ⟨fun h => congrArg _ (State.serveKey_next (eff := Observe.capture) hmay (Observe.capture_frozen hx h)),
      fun h h' => congrArg _ (State.serveKey_refused (eff := Observe.capture) hmay (Observe.capture_running hx h h'))⟩,
    exec_captureComplete, fun now due s1 hrunning htimers hnow hdue hs1 => ⟨exec_progressWatchExamine_none hrunning htimers hnow hdue hs1,
      fun x => exec_progressWatchExamine_some hrunning htimers hnow hdue hs1⟩,
    fun hfrom hruns => ⟨_, exec_waitGraphComplete hfrom hruns, State.dom?_setDom_same _ _ _, rfl, rfl, rfl⟩, s.graphNodes_seeds⟩
  case freeze =>
    subst hs1
    have taken {t : State} (heff : Observe.freezeControl x s = .ok t) : exec (.freeze acc) s = .next (t.written acc Obj.freezeCtrl r.ty) :=
      congrArg _ (State.serveKey_next (eff := Observe.freezeControl) hmay (hx ▸ heff))
    have heff := Observe.freezeControl_freeze (s := s) hcmd
    exact ⟨fun hfrozen => taken (by rw [heff, if_pos hfrozen]), fun hfree => taken (by rw [heff, if_neg (by simp [hfree])])⟩
  case release =>
    subst hs1
    have taken {t : State} (heff : Observe.freezeControl x s = .ok t) : exec (.release acc) s = .next (t.written acc Obj.freezeCtrl r.ty) :=
      congrArg _ (State.serveKey_next (eff := Observe.freezeControl) hmay (hx ▸ heff))
    have heff := Observe.freezeControl_release (s := s) hcmd fun hsafe => State.not_mayWrite_freezeCtrl hsafe hmay
    refine ⟨fun hbusy => ?_, fun hidle => ⟨fun hfrozen => taken ?_, fun hfree => taken ?_⟩⟩
    · rw [hrefused]
      exact congrArg _ (State.serveKey_refused (eff := Observe.freezeControl) hmay (hx ▸ heff.trans (if_pos hbusy)))
    · rw [heff, if_neg (by simp [hidle]), if_pos hfrozen]
    · rw [heff, if_neg (by simp [hidle]), if_neg (by simp [hfree])]

end Sys2Proof.Machine
end

-- ==== PROOFS: O53, wards ====
section
/-! PROOFS. The refutation of O53. Its clause on the scrub holds as long as no unit sits at a junction past the 120 of R8; but it speaks of
every state, and so of a floorplan in which host port 0 sits at junction 130,048. That junction's B_PORT_STATUS has the key of BANK_STATE of
junction 0. When the revocation closes the ward's coherent window, the home at the port goes on, a FENCE that nobody waits for ends there,
and the discard that is counted carries into the owner of junction 0. The scrub then passes junction 0 by, and its bank stays. -/

namespace Sys2Proof.Machine

/-! ## A host port far out -/

section
variable {s : State}

theorem Txn.windowDone_ready {p i : Nat} {c : CohWait} (hfind : s.txn.cohWaits.find? (fun c => c.port == p && c.index == i) = some c)
    (hready : s.windowReady c = true) : Txn.windowDone p i s =
      (({ s with txn := { s.txn with cohWaits := s.txn.cohWaits.filter (fun x => x != c) } } : State).setObj (Obj.cohWindow p i) c.value).serve
        (0x90 + p) := by
  have hopen : ¬ ((!s.windowReady c) = true) := by simp [hready]
  simp only [Txn.windowDone, hfind, if_neg hopen]

/-- A target that has one request to take up takes it up. -/
theorem State.serveFrom_one {u k : Nat} {x : Slot} (hfirst : nextSlot (s.target u).slots [] = some x)
    (hmoved : ((s.serveSlot u x).target u).slots ≠ (s.target u).slots) (hlast : nextSlot ((s.serveSlot u x).target u).slots [] = none) :
    s.serveFrom u (k + 2) = s.serveSlot u x := by
  simp only [State.serveFrom, hfirst, if_neg hmoved, hlast]

theorem State.serveSlot_home {x : Slot} {p : TPkt} {a b : Nat} {w : Val} (hrq : x.rq = some p) (hdata : x.data = none)
    (hwindow : s.cohWindowOf p.off = some (a, b, w)) (hdie : fget w 62 1 = 0) : s.serveSlot 0x90 x = s.serveHome 0 x p w := by
  have hgo : State.serveSlot.go s 0x90 x p = s.serveHost 0 x p := rfl
  have hhost : s.serveHost 0 x p = s.serveHome 0 x p w := by simp only [State.serveHost, hwindow, if_pos hdie]
  simp only [State.serveSlot, hrq, hdata, hgo, hhost]

/-- The home's transaction of a request that no line of holds back. -/
def State.homeOf (s : State) (pt : Nat) (p : TPkt) (w : Val) : HomeTxn :=
  ⟨p.src, p.tag, BitVec.ofNat 4 (fget w 58 4), p.lines, s.freeStag pt, [], s.txnNow, [], false, false, false⟩

/-- The state in which the home has taken up the request. -/
def State.homeBegun (s : State) (pt : Nat) (x : Slot) (p : TPkt) (w : Val) : State :=
  let s1 := s.setSlot (0x90 + pt) x { x with since := some s.txnNow }
  { s1 with txn := { s1.txn with homes := s1.txn.homes ++ [(pt, s.homeOf pt p w)] } }

theorem State.homeNext_unsnooped {pt k : Nat} {p : TPkt} {x : Slot} {h : HomeTxn} (hsnoop : homeSnoop p.op = none) :
    s.homeNext pt p x (k + 1) h = s.homeMemory pt h p x := by
  unfold State.homeNext
  rw [hsnoop]
  cases h.lines <;> rfl

theorem State.homeWriteDirty_clean {pt : Nat} {p : TPkt} {h : HomeTxn} (hdirty : h.dirty = []) : s.homeWriteDirty pt p h = s :=
  if_pos (by rw [hdirty]; rfl)

theorem State.homeMemory_reads {pt : Nat} {p : TPkt} {x : Slot} {h : HomeTxn} (hfailed : h.failed = false) (hspoilt : h.spoilt = false)
    (hdirty : h.dirty = []) (hop : p.op = 15) : s.homeMemory pt h p x =
      (s.dropHome pt h).homeAsk pt p 0 (p.addr.toNat / 2 ^ 41 * 2 ^ 41 + p.off / 128 * 128) [] [] (.onward p.src p.tag p.gen) := by
  unfold State.homeMemory
  extract_lets u s1 die own bs l b
  rw [if_neg (by simp [hfailed]), if_neg (by simp [hspoilt]), if_neg (by rw [hop]; decide), if_neg (by rw [hop]; decide),
    if_neg (by rw [hop]; decide), State.homeWriteDirty_clean hdirty]

/-- A request that calls for no snoop, and is no write, reaches memory as a read. -/
theorem State.serveHome_reads {pt : Nat} {x : Slot} {p : TPkt} {w : Val} (hward : fget w 58 4 = p.ward.toNat)
    (hbusy : s.lineBusy pt p.lines = false) (hbars : p.lines.any (s.windowBars pt) = false) (hop : p.op = 15) : s.serveHome pt x p w =
      ((s.homeBegun pt x p w).dropHome pt (s.homeOf pt p w)).homeAsk pt p 0 (p.addr.toNat / 2 ^ 41 * 2 ^ 41 + p.off / 128 * 128) [] []
        (.onward p.src p.tag p.gen) := by
  have hown : ¬ (fget w 58 4 ≠ p.ward.toNat ∧ !s.fromTile p) := fun h => h.1 hward
  have hfree : ¬ (s.lineBusy pt p.lines || p.lines.any (s.windowBars pt)) = true := by rw [hbusy, hbars]; decide
  have hsnoop : homeSnoop p.op = none := by rw [hop]; rfl
  calc s.serveHome pt x p w
    _ = (s.homeBegun pt x p w).homeNext pt p { x with since := some s.txnNow } (p.lines.length + 2) (s.homeOf pt p w) :=
        (if_neg hown).trans (if_neg hfree)
    _ = (s.homeBegun pt x p w).homeMemory pt (s.homeOf pt p w) p { x with since := some s.txnNow } := State.homeNext_unsnooped hsnoop
    _ = _ := State.homeMemory_reads rfl rfl rfl hop

/-- The home's read towards attachment `a` joins its order. -/
def State.homeReads (s : State) (pt a : Nat) (p : TPkt) (addr : Nat) (owner : TxnOwner) (tag : BitVec 10) : State :=
  let u := 0x90 + pt
  let x := s.tinit u
  let gen := Tbl.get 0 x.gens tag.toNat
  let s1 := s.setTinit u { x with gens := Tbl.set 0 x.gens tag.toNat (gen + 1) }
  let y := s1.tinit u
  s1.setTinit u { y with open_ := y.open_ ++ [(⟨0, BitVec.ofNat 64 addr, BitVec.ofNat 5 ((p.bytes + 127) / 128 - 1), p.level, p.ward, [], []⟩ :
    TAsk).toOpen tag gen (s.ep (0xA0 + a)) s1.txnNow owner] }

theorem State.homeAsk_opens {pt a : Nat} {p : TPkt} {addr : Nat} {owner : TxnOwner} {tag : BitVec 10}
    (htag : (s.tinit (0x90 + pt)).freeTag 1024 = some tag) (hmemory : s.cfg.memoryAt p.off = some a) :
    s.homeAsk pt p 0 addr [] [] owner = (s.homeReads pt a p addr owner tag).txnGo (0x90 + pt) := by
  unfold State.homeAsk
  simp only [htag, hmemory]
  rfl

/-- A transaction leaves the order of its port. -/
def State.closeTxn (s : State) (u : Nat) (o : OpenTxn) : State :=
  s.setTinit u { s.tinit u with open_ := (s.tinit u).open_.filter (fun y => y.tag != o.tag) }

/-- A transaction of a host port or an engine that nobody waits for ends: its answer is discarded and counted. -/
theorem State.endTxn_dropped {u : Nat} {o : OpenTxn} (howner : o.owner = .dropped) (hu : 0x78 ≤ u) (hread : isReadOp o.op = false)
    (hstage : o.stage = 0) : s.endTxn u o Status.okay [] =
      (s.closeTxn u o).bump (.bDiscards ((s.cfg.unitJunction u).getD 0)) 1 := by
  have hkeep : ¬ (o.stage = 2 ∧ o.keep = true) := fun h => by omega
  have hrefused : ¬ (Status.okay = Status.wardRefused ∧ u < 0x78) := fun h => by omega
  have hfar : ¬ u < 0x78 := by omega
  simp only [State.endTxn, if_neg hkeep, State.answerOwner, howner, if_neg hrefused, hread, Bool.false_eq_true, false_and, and_false, if_false,
    if_neg hfar]
  rfl

/-- A port whose regulator has no rate waits for no tokens. -/
theorem State.tokenWait_unregulated {u key : Nat} (hkey : regKey u = some key) (hrate : fget (s.obj key) 16 16 = 0) (o : OpenTxn) :
    s.tokenWait u o = (0, s.tinit u) := by
  simp only [State.tokenWait, hkey, hrate, true_or, or_true, if_true]

/-- A reservation that is on its way is not made again. -/
theorem State.reserveFor_reserving {u k : Nat} (h : (Tbl.get Claim.zero (s.tinit u).claims k).reserving = true) : s.reserveFor u k = s := by
  unfold State.reserveFor
  simp only [h]
  split
  · rfl
  · exact if_pos (.inl trivial)

theorem State.txnNext_unregulated {u : Nat} (h : ∀ o, s.tokenWait u o = (0, s.tinit u)) : s.txnNext u =
    (((s.tinit u).open_.takeWhile (fun o => o.stage != 0 || o.op != 6)).filter (fun o => o.stage == 0)).head? := by
  have hnone (l : List OpenTxn) : l.find? (s.tokensShort u) = none :=
    List.find?_eq_none.mpr fun o _ => by simp [State.tokensShort, h]
  simp only [State.txnNext, hnone]

theorem State.txnPump_fence {u k : Nat} {o : OpenTxn} (hfence : s.fenceReady u = some o) :
    s.txnPump u (k + 1) = ((s.setTinit u (s.tokenWait u o).2).endTxn u o Status.okay []).txnPump u k := by
  simp only [State.txnPump, hfence]

theorem State.txnPump_next {u k : Nat} {o : OpenTxn} (hfence : s.fenceReady u = none) (hnext : s.txnNext u = some o) :
    s.txnPump u (k + 1) = ((s.setTinit u ((s.tokenWait u o).2.replace { o with stage := 1 })).reserveFor u
      (claimKey o.target o.level)).txnPump u k := by
  simp only [State.txnPump, hfence, hnext]

theorem State.txnPump_none {u k : Nat} (hfence : s.fenceReady u = none) (hnext : s.txnNext u = none) : s.txnPump u (k + 1) = s := by
  simp only [State.txnPump, hfence, hnext]
end

/-! ## The state of the refutation -/

/-- ATTACH_MAP with a memory attachment at the first junction, and a host port after `n` that have neither. -/
def wideAttach (n : Nat) : List (BitVec 16) := 0x1000 :: (List.replicate n 0 ++ [0x3000])

/-- A floorplan of 130,049 junctions: a memory attachment at the first, host port 0 at the last. -/
def wideFloorplan : Integration :=
  { Integration.reference with
    cols := 130049
    rows := 1
    attach := wideAttach 130047
    physRegion := []
    memMap := [1] }

/-- A request of ward 1 that asks for no snoop, in a slot of the home, which has not taken it up. -/
def wideRequest : TPkt := { TPkt.blank with op := 15, ward := 1 }

def wideSlot : Slot := ⟨0, 0, some wideRequest, none, none, 0⟩

/-- A FENCE that nobody waits for. -/
def wideFence : OpenTxn := ⟨6, 0, 0, 5, 0, 0, 0, [], [], 0, 0, 0, 0, false, .dropped⟩

/-- The home's own request towards memory. -/
def wideAsk (stage : Nat) : OpenTxn := ⟨0, 0, 0, 0, 0, 0, 1, [], [], 0xA0, 0, stage, 0, false, .onward 0 0 0⟩

/-- What the home has open, with a reservation towards the attachment on its way. -/
def wideInit (gens : Tbl (BitVec 4)) (os : List OpenTxn) : TInit := { TInit.zero with open_ := os, claims := [(640, ⟨true, 0⟩)], gens := gens }

def wideTarget (since : Option Nat) : TTarget := { TTarget.zero with slots := [{ wideSlot with since := since }] }

/-- A bank that is not null. -/
def wideBank : Bank := { Bank.null with joins := [[]] }

/-- The die of floorplan `c`, while ward 0 is scrubbed for a revocation: BANK_STATE of junction 0, which shows the ward as its owner, holds
`owner`; `windows` are its coherent windows. -/
def wideDie (c : Integration) (owner : Val) (windows : Tbl Val) (x : TInit) (since : Option Nat) (waits : List CohWait) : State :=
  { State.reset with
    cfg := c
    pin := { PinState.reset with inReset := false }
    objs := (Obj.bankState 0, owner) :: (windows ++ [(Obj.wardState 0, 0x14000000), (Obj.coreState, 0x8000000)])
    flt := { FaultState.reset with scanning := true }
    wards := [(0, some ⟨true, 0, 0, 0, false⟩)]
    ten := { TensorState.reset with banks := [(0, wideBank)] }
    txn := { TxnState.reset with inits := [(0x90, x)], targets := [(0x90, wideTarget since)], cohWaits := waits } }

/-- The window of ward 0, which the revocation closes, and one of ward 1. -/
def wideWindows (closed : Bool) : Tbl Val :=
  (if closed then [] else [(Obj.cohWindow 0 0, 0x8000000000000000)]) ++ [(Obj.cohWindow 0 1, 0x8400000000000000)]

/-- Before the window of ward 0 is closed. -/
def wideBefore (c : Integration) : State :=
  wideDie c 0xFF0000 (wideWindows false) (wideInit [] [wideFence]) none [⟨0, 0, 0, none, 0, 0, 0, [], 0, false⟩]

/-- Once the write of the window has had its effect. -/
def wideOpen (c : Integration) : State := wideDie c 0xFF0000 (wideWindows true) (wideInit [] [wideFence]) none []

/-- Once the home has taken the request up. -/
def wideTaken (c : Integration) : State := wideDie c 0xFF0000 (wideWindows true) (wideInit [] [wideFence]) (some 0) []

/-- Once the home has asked memory. -/
def wideAsked (c : Integration) : State :=
  wideDie c 0xFF0000 (wideWindows true) (wideInit [(0, 1)] [wideFence, wideAsk 0]) (some 0) []

/-- Once the FENCE has ended, and once the home's request waits for its slot. -/
def wideAfter (c : Integration) (stage : Nat) : State :=
  wideDie c 0x1000000 (wideWindows true) (wideInit [(0, 1)] [wideAsk stage]) (some 0) []

section
variable (c : Integration)

theorem wideBefore_windows : (wideBefore c).wardWindows 0 = [0] :=
  Eq.trans (b := (wideBefore Integration.reference).wardWindows 0) rfl (by decide +kernel)

theorem wideBefore_close : (wideBefore c).closeWindows 0 = (wideOpen c).serve 0x90 := by
  have hready : (wideBefore c).windowReady ⟨0, 0, 0, none, 0, 0, 0, [], 0, false⟩ = true :=
    Eq.trans (b := (wideBefore Integration.reference).windowReady ⟨0, 0, 0, none, 0, 0, 0, [], 0, false⟩) rfl (by decide +kernel)
  have hobjs : ((wideBefore c).setObj (Obj.cohWindow 0 0) 0).objs = (wideOpen c).objs :=
    Eq.trans (b := ((wideBefore Integration.reference).setObj (Obj.cohWindow 0 0) 0).objs) rfl
      (Eq.trans (b := (wideOpen Integration.reference).objs) (by decide +kernel) rfl)
  have hdone : Txn.windowDone 0 0 (wideBefore c) = (wideOpen c).serve 0x90 := by
    rw [Txn.windowDone_ready (c := ⟨0, 0, 0, none, 0, 0, 0, [], 0, false⟩) rfl hready]
    exact congrArg (fun o : Tbl Val => State.serve { wideOpen c with objs := o } 0x90) hobjs
  simp only [State.closeWindows, wideBefore_windows, List.foldl_cons, List.foldl_nil]
  exact hdone


/-- States that differ in their transaction planes at most are equal when these are. -/
theorem State.eq_of_txn {t u : State} (h : t.txn = u.txn) (hrest : t = { u with txn := t.txn }) : t = u := hrest.trans (h ▸ rfl)

theorem State.eq_of_txn_objs {t u : State} (htxn : t.txn = u.txn) (hobjs : t.objs = u.objs)
    (hrest : t = { u with txn := t.txn, objs := t.objs }) : t = u := hrest.trans (htxn ▸ hobjs ▸ rfl)

theorem wideOpen_takes (c : Integration) : ((wideOpen c).homeBegun 0 wideSlot wideRequest 0x8400000000000000).dropHome 0
    ((wideOpen c).homeOf 0 wideRequest 0x8400000000000000) = wideTaken c := by
  refine State.eq_of_txn ?_ rfl
  exact Eq.trans (b := (((wideOpen Integration.reference).homeBegun 0 wideSlot wideRequest 0x8400000000000000).dropHome 0
    ((wideOpen Integration.reference).homeOf 0 wideRequest 0x8400000000000000)).txn) rfl
    (Eq.trans (b := (wideTaken Integration.reference).txn) (by decide +kernel) rfl)

theorem wideTaken_asks {c : Integration} (hmemory : c.memoryAt 0 = some 0) :
    (wideTaken c).homeAsk 0 wideRequest 0 0 [] [] (.onward 0 0 0) = (wideAsked c).txnGo 0x90 := by
  have htag : ((wideTaken c).tinit (0x90 + 0)).freeTag 1024 = some 0 :=
    Eq.trans (b := ((wideTaken Integration.reference).tinit (0x90 + 0)).freeTag 1024) rfl (by decide +kernel)
  rw [State.homeAsk_opens htag (show (wideTaken c).cfg.memoryAt wideRequest.off = some 0 from hmemory)]
  refine congrArg (fun t : State => t.txnGo 0x90) (State.eq_of_txn ?_ rfl)
  exact Eq.trans (b := ((wideTaken Integration.reference).homeReads 0 0 wideRequest 0 (.onward 0 0 0) 0).txn) rfl
    (Eq.trans (b := (wideAsked Integration.reference).txn) (by decide +kernel) rfl)

/-- The home takes up the request and asks memory. -/
theorem wideOpen_serveSlot {c : Integration} (hmemory : c.memoryAt 0 = some 0) :
    (wideOpen c).serveSlot 0x90 wideSlot = (wideAsked c).txnGo 0x90 := by
  have hwindow : (wideOpen c).cohWindowOf wideRequest.off = some (0, 1, 0x8400000000000000) :=
    Eq.trans (b := (wideOpen Integration.reference).cohWindowOf wideRequest.off) rfl (by decide +kernel)
  have hbusy : (wideOpen c).lineBusy 0 wideRequest.lines = false := rfl
  have hbars : wideRequest.lines.any ((wideOpen c).windowBars 0) = false :=
    Eq.trans (b := wideRequest.lines.any ((wideOpen Integration.reference).windowBars 0)) rfl (by decide +kernel)
  rw [State.serveSlot_home (p := wideRequest) rfl rfl hwindow (by decide), State.serveHome_reads (by decide) hbusy hbars rfl,
    wideOpen_takes]
  exact wideTaken_asks hmemory

/-! ## The FENCE ends, and its discard is counted far out -/

theorem wideAsked_fence (c : Integration) : (wideAsked c).fenceReady 0x90 = some wideFence :=
  Eq.trans (b := (wideAsked Integration.reference).fenceReady 0x90) rfl (by decide +kernel)

theorem wideAsked_tokens (c : Integration) (o : OpenTxn) : (wideAsked c).tokenWait 0x90 o = (0, (wideAsked c).tinit 0x90) := by
  have hrate : fget ((wideAsked c).obj (Obj.regCfgSide 1 0)) 16 16 = 0 :=
    Eq.trans (b := fget ((wideAsked Integration.reference).obj (Obj.regCfgSide 1 0)) 16 16) rfl (by decide +kernel)
  exact State.tokenWait_unregulated (by decide) hrate o

theorem wideAfter_tokens (c : Integration) (stage : Nat) (o : OpenTxn) :
    (wideAfter c stage).tokenWait 0x90 o = (0, (wideAfter c stage).tinit 0x90) := by
  have hrate : fget ((wideAfter c stage).obj (Obj.regCfgSide 1 0)) 16 16 = 0 :=
    Eq.trans (b := fget ((wideAfter Integration.reference 0).obj (Obj.regCfgSide 1 0)) 16 16) rfl (by decide +kernel)
  exact State.tokenWait_unregulated (by decide) hrate o

theorem wideAfter_fence (c : Integration) (stage : Nat) (hstage : stage ≤ 1) : (wideAfter c stage).fenceReady 0x90 = none := by
  obtain rfl | rfl : stage = 0 ∨ stage = 1 := by omega
  · exact Eq.trans (b := (wideAfter Integration.reference 0).fenceReady 0x90) rfl (by decide +kernel)
  · exact Eq.trans (b := (wideAfter Integration.reference 1).fenceReady 0x90) rfl (by decide +kernel)

theorem wideAfter_next (c : Integration) : (wideAfter c 0).txnNext 0x90 = some (wideAsk 0) :=
  (State.txnNext_unregulated (wideAfter_tokens c 0)).trans (by rfl)

theorem wideAfter_done (c : Integration) : (wideAfter c 1).txnNext 0x90 = none :=
  (State.txnNext_unregulated (wideAfter_tokens c 1)).trans (by rfl)

/-- The discard at junction 130,048 is counted in the object of the owner of junction 0. -/
theorem wideAsked_endTxn {c : Integration} (hport : c.unitJunction 0x90 = some 130048) :
    ((wideAsked c).setTinit 0x90 ((wideAsked c).tokenWait 0x90 wideFence).2).endTxn 0x90 wideFence Status.okay [] = wideAfter c 0 := by
  have hfar : Fld.bDiscards ((c.unitJunction 0x90).getD 0) = ⟨Obj.bankState 0, 16, 16⟩ := by
    rw [hport]
    rfl
  have hsame : (wideAsked c).setTinit 0x90 ((wideAsked c).tinit 0x90) = wideAsked c := by
    refine State.eq_of_txn ?_ rfl
    exact Eq.trans (b := ((wideAsked Integration.reference).setTinit 0x90 ((wideAsked Integration.reference).tinit 0x90)).txn) rfl
      (Eq.trans (b := (wideAsked Integration.reference).txn) (by decide +kernel) rfl)
  rw [wideAsked_tokens, hsame, State.endTxn_dropped rfl (by decide) (by decide) rfl]
  change ((wideAsked c).closeTxn 0x90 wideFence).bump (.bDiscards ((c.unitJunction 0x90).getD 0)) 1 = wideAfter c 0
  rw [hfar]
  refine State.eq_of_txn_objs ?_ ?_ rfl
  · exact Eq.trans (b := ((wideAsked Integration.reference).closeTxn 0x90 wideFence).txn) rfl
      (Eq.trans (b := (wideAfter Integration.reference 0).txn) (by decide +kernel) rfl)
  · exact Eq.trans (b := (((wideAsked Integration.reference).closeTxn 0x90 wideFence).bump ⟨Obj.bankState 0, 16, 16⟩ 1).objs) rfl
      (Eq.trans (b := (wideAfter Integration.reference 0).objs) (by decide +kernel) rfl)

theorem wideAfter_waits (c : Integration) : ((wideAfter c 0).setTinit 0x90 (((wideAfter c 0).tokenWait 0x90 (wideAsk 0)).2.replace
    { wideAsk 0 with stage := 1 })).reserveFor 0x90 (claimKey (wideAsk 0).target (wideAsk 0).level) = wideAfter c 1 := by
  have hwaits : (wideAfter c 0).setTinit 0x90 (((wideAfter c 0).tinit 0x90).replace { wideAsk 0 with stage := 1 }) = wideAfter c 1 := by
    refine State.eq_of_txn ?_ rfl
    exact Eq.trans (b := ((wideAfter Integration.reference 0).setTinit 0x90 (((wideAfter Integration.reference 0).tinit 0x90).replace
      { wideAsk 0 with stage := 1 })).txn) rfl (Eq.trans (b := (wideAfter Integration.reference 1).txn) (by decide +kernel) rfl)
  rw [wideAfter_tokens, hwaits]
  exact State.reserveFor_reserving rfl

theorem wideAsked_goes {c : Integration} (hport : c.unitJunction 0x90 = some 130048) : (wideAsked c).txnGo 0x90 = wideAfter c 1 := by
  have hfuel : (wideAsked c).txnGo 0x90 = (wideAsked c).txnPump 0x90 3 := rfl
  rw [hfuel, State.txnPump_fence (wideAsked_fence c), wideAsked_endTxn hport, State.txnPump_next (wideAfter_fence c 0 (by decide)) (wideAfter_next c),
    wideAfter_waits, State.txnPump_none (wideAfter_fence c 1 (by decide)) (wideAfter_done c)]

theorem wideBefore_closed {c : Integration} (hmemory : c.memoryAt 0 = some 0) (hport : c.unitJunction 0x90 = some 130048) :
    (wideBefore c).closeWindows 0 = wideAfter c 1 := by
  have hserves := (wideOpen_serveSlot hmemory).trans (wideAsked_goes hport)
  have hfirst : nextSlot ((wideOpen c).target 0x90).slots [] = some wideSlot := rfl
  have hslots : ((wideOpen c).serve 0x90) = (wideOpen c).serveFrom 0x90 2 := rfl
  have hmoved : ((wideAfter c 1).target 0x90).slots ≠ ((wideOpen c).target 0x90).slots := by
    change [{ wideSlot with since := some 0 }] ≠ [wideSlot]
    decide
  rw [wideBefore_close, hslots, State.serveFrom_one hfirst (by rw [hserves]; exact hmoved) (by rw [hserves]; rfl), hserves]
end

end Sys2Proof.Machine
end

-- ==== PROOFS: O53, the scrub passes a junction by ====
section
/-! PROOFS. The refutation of O53, continued: what the scrub does to the bank of a junction that its ward does not own, and the clause that
fails. -/

namespace Sys2Proof.Machine

/-! ## What the scrub leaves: the banks of other junctions -/

/-- `t` holds the banks and the recorder's state that `s` holds. -/
structure State.BanksKept (s t : State) : Prop where
  banks : t.ten.banks = s.ten.banks
  flt : t.flt = s.flt

namespace State

variable {s₀ s t : State}

theorem BanksKept.refl (s : State) : s.BanksKept s := ⟨rfl, rfl⟩

theorem BanksKept.to (h : s₀.BanksKept s) (hbanks : t.ten.banks = s.ten.banks) (hflt : t.flt = s.flt) : s₀.BanksKept t :=
  ⟨hbanks.trans h.banks, hflt.trans h.flt⟩

theorem BanksKept.ite {c : Prop} [Decidable c] (h : s₀.BanksKept s) (h' : s₀.BanksKept t) : s₀.BanksKept (if c then s else t) := by
  split
  · exact h
  · exact h'

theorem BanksKept.foldl {α : Type} {f : State → α → State} {l : List α} (h : s₀.BanksKept s)
    (hf : ∀ {t a}, s₀.BanksKept t → s₀.BanksKept (f t a)) : s₀.BanksKept (l.foldl f s) :=
  List.foldlRecOn l f h (fun _ ht _ _ => hf ht)

theorem BanksKept.setObj {k : Nat} {v : Val} (h : s₀.BanksKept s) : s₀.BanksKept (s.setObj k v) := h.to rfl rfl

theorem BanksKept.setTinit {u : Nat} {x : TInit} (h : s₀.BanksKept s) : s₀.BanksKept (s.setTinit u x) := h.to rfl rfl

theorem BanksKept.setTarget {u : Nat} {x : TTarget} (h : s₀.BanksKept s) : s₀.BanksKept (s.setTarget u x) := h.to rfl rfl

theorem BanksKept.setChoice {u pl : Nat} {c : Option (BitVec 16)} (h : s₀.BanksKept s) : s₀.BanksKept (s.setChoice u pl c) := h.setTarget

theorem BanksKept.txnFrom {u : Nat} {p : TPkt} (h : s₀.BanksKept s) : s₀.BanksKept (s.txnFrom u p) := by
  unfold State.txnFrom
  split
  · exact h.to rfl rfl
  · exact h

theorem BanksKept.grantSlot {u : Nat} {r : TPkt} (h : s₀.BanksKept s) : s₀.BanksKept (s.grantSlot u r) := .ite h.setTarget h.setTarget.txnFrom

theorem BanksKept.backOff {u : Nat} {r : TPkt} (h : s₀.BanksKept s) : s₀.BanksKept (s.backOff u r) := by
  have htold : s₀.BanksKept (if u = 0xC1 then s.bump ⟨Obj.accessStat, 8, 16⟩ 1 else s) := .ite h.setObj h
  exact .ite (htold.to rfl rfl) htold.setTarget.txnFrom

theorem BanksKept.arbGrant {u pl : Nat} (h : s₀.BanksKept s) : s₀.BanksKept (s.arbGrant u pl) := by
  simp only [State.arbGrant]
  split
  · exact h
  split
  · exact h.setChoice
  · exact h.grantSlot.setChoice.foldl fun h' => h'.backOff

theorem BanksKept.arbStep {u pl : Nat} (h : s₀.BanksKept s) : s₀.BanksKept (s.arbStep u pl) := by
  unfold State.arbStep
  refine .ite h (.ite h.arbGrant ?_)
  split
  · exact h.grantSlot
  · exact h

theorem BanksKept.arbitrate {u pl : Nat} (h : s₀.BanksKept s) : s₀.BanksKept (s.arbitrate u pl) := h.foldl fun h' => h'.arbStep

theorem BanksKept.wardForget {un : Nat → Bool} (h : s₀.BanksKept s) : s₀.BanksKept (s.wardForget un) :=
  h.foldl fun h' => h'.setTarget.foldl fun h'' => h''.arbitrate

theorem BanksKept.clearChannels {w : BitVec 4} (h : s₀.BanksKept s) : s₀.BanksKept (s.clearChannels w) := by
  have hleft : s₀.BanksKept ((s.wardColls w).foldl State.storeLeave s) := h.foldl fun h' => h'.to rfl rfl
  have hdropped : s₀.BanksKept ((s.wardChans w).foldl (fun (a : State) k => a.dropDones (engineUnit k) k)
    ((s.wardColls w).foldl State.storeLeave s)) := hleft.foldl fun h' => h'.to rfl rfl
  exact hdropped.to rfl rfl

theorem BanksKept.clearFabric {w : BitVec 4} (h : s₀.BanksKept s) : s₀.BanksKept (s.clearFabric w) := h.foldl fun h' => h'.to rfl rfl

theorem BanksKept.clearCounts {w : BitVec 4} (h : s₀.BanksKept s) : s₀.BanksKept (s.clearCounts w) := h.to rfl rfl

theorem BanksKept.settleDefaults {w : BitVec 4} (h : s₀.BanksKept s) : s₀.BanksKept (s.settleDefaults w) := h.foldl fun h' => h'.setTinit

theorem BanksKept.scrubObjects {w : BitVec 4} (h : s₀.BanksKept s) : s₀.BanksKept (s.scrubObjects w) :=
  (h.foldl fun h' => h'.setObj).foldl fun h' => h'.to rfl rfl

theorem BanksKept.setPlat {i : Nat} {v : BitVec 64} (h : s₀.BanksKept s) : s₀.BanksKept (s.setPlat i v) := h.to rfl rfl

theorem BanksKept.platCount (h : s₀.BanksKept s) : s₀.BanksKept s.platCount := h.setObj.setObj

theorem BanksKept.unassign {w : BitVec 4} (h : s₀.BanksKept s) : s₀.BanksKept (s.unassign w) :=
  (((h.foldl fun h' => h'.setObj).foldl fun h' => h'.setObj).foldl fun h' => h'.setPlat).platCount

/-- Emptying the stores of other junctions. -/
theorem bank_clearStores_ne {n m : Nat} (h : m ≠ n) (sel : Nat) (hsel : sel < 2) : (s.clearStores n).bank m sel = s.bank m sel := by
  change Tbl.get Bank.null (Tbl.set Bank.null (Tbl.set Bank.null s.ten.banks (2 * n + 0) Bank.null) (2 * n + 1) Bank.null) (2 * m + sel) = _
  rw [Tbl.get_set_ne _ _ _ _ (by omega), Tbl.get_set_ne _ _ _ _ (by omega)]
  rfl

theorem flt_clearStores (n : Nat) : (s.clearStores n).flt = s.flt := by
  unfold State.clearStores
  rfl

theorem foldl_clearStores {m : Nat} (l : List Nat) (h : m ∉ l) : (l.foldl State.clearStores s).bank m 0 = s.bank m 0 ∧
    (l.foldl State.clearStores s).flt = s.flt := by
  induction l generalizing s with
  | nil => exact ⟨rfl, rfl⟩
  | cons n l ih =>
    rw [List.mem_cons, not_or] at h
    obtain ⟨hbank, hflt⟩ := ih (s := s.clearStores n) h.2
    rw [List.foldl_cons, hbank, hflt, bank_clearStores_ne h.1 0 (by decide), flt_clearStores]
    exact ⟨rfl, rfl⟩

/-- What follows the emptying of the ward's own stores. -/
theorem scrub_keeps (s : State) (w : BitVec 4) : ((s.wardJunctions w).foldl State.clearStores (s.dropChecks w)).BanksKept (s.scrub w) :=
  (BanksKept.refl _).clearChannels.clearFabric.clearCounts.settleDefaults.scrubObjects

/-- A record joins the queue while the slots are scanned. -/
theorem reclaimRecord_ten {w : BitVec 4} {q : WardSeq} (hscan : s.flt.scanning = true) (hqueue : s.flt.queue = []) :
    (s.reclaimRecord w q).ten = s.ten := by
  have htaken : s.recordTaken false = true := by simp [State.recordTaken, hscan, hqueue]
  unfold State.reclaimRecord State.record
  rw [if_pos htaken]
  rfl

theorem wardEnd_ten {w : BitVec 4} {q : WardSeq} : (s.wardEnd w q).ten = s.ten := by
  unfold State.wardEnd
  rfl

/-- The end of a revocation: scrub, assignments, record and table. -/
def revoked (s : State) (w : BitVec 4) (q : WardSeq) : State :=
  ((((s.scrub w).wardForget (fun u => (s.scrub w).wardOf u == some w)).unassign w).reclaimRecord w q).wardEnd w q

/-- Without pending checks, and while the recorder's slots are scanned and its queue is empty, a revocation leaves the bank of a junction
that the ward does not own. -/
theorem bank_revoked {w : BitVec 4} {q : WardSeq} {m : Nat} (hchecks : s.ctl.checks = []) (hscan : s.flt.scanning = true)
    (hqueue : s.flt.queue = []) (hm : m ∉ s.wardJunctions w) : (s.revoked w q).bank m 0 = s.bank m 0 := by
  have hdrop : (s.dropChecks w).bank m 0 = s.bank m 0 ∧ (s.dropChecks w).flt = s.flt := by
    unfold State.dropChecks
    rw [hchecks]
    exact ⟨rfl, rfl⟩
  obtain ⟨hbank, hflt⟩ := foldl_clearStores (s := s.dropChecks w) (s.wardJunctions w) hm
  have hkept := ((s.scrub_keeps w).wardForget (un := fun u => (s.scrub w).wardOf u == some w)).unassign (w := w)
  have hflt' := hkept.flt.trans (hflt.trans hdrop.2)
  have hten := reclaimRecord_ten (w := w) (q := q) (by rw [hflt', hscan]) (by rw [hflt', hqueue])
  unfold State.revoked State.bank
  rw [wardEnd_ten, hten, hkept.banks]
  exact hbank.trans hdrop.1
end State

/-! ## The floorplan -/

theorem wideAttach_middle {n i : Nat} (hpos : 0 < i) (hi : i ≤ n) : (wideAttach n).getD i 0 = 0 := by
  obtain ⟨m, rfl⟩ := Nat.exists_eq_add_of_le' hpos
  rw [wideAttach, List.getD_cons_succ, List.getD_eq_getElem?_getD, List.getElem?_append_left (by rw [List.length_replicate]; omega),
    List.getElem?_replicate_of_lt (by omega)]
  rfl

theorem wideAttach_last (n : Nat) : (wideAttach n).getD (n + 1) 0 = 0x3000 := by
  rw [wideAttach, List.getD_cons_succ, List.getD_eq_getElem?_getD, List.getElem?_append_right (Nat.le_of_eq List.length_replicate), List.length_replicate, Nat.sub_self]
  rfl

theorem wideFloorplan_attachAt (n : Nat) : wideFloorplan.attachAt n = ((wideAttach 130047).getD n 0).toNat := rfl

theorem wideFloorplan_attach {n : Nat} (hpos : 0 < n) (hn : n < 130048) : wideFloorplan.attachAt n = 0 := by
  rw [wideFloorplan_attachAt, wideAttach_middle hpos (Nat.le_of_lt_succ hn)]
  rfl

theorem wideFloorplan_last : wideFloorplan.attachAt 130048 = 0x3000 := by
  rw [wideFloorplan_attachAt, wideAttach_last]
  rfl

theorem Integration.unitJunction_hostPort (c : Integration) : c.unitJunction 0x90 = c.unitAt 3 0 := rfl

theorem Integration.hostPort_of_attach {c : Integration} {n : Nat} (h : c.attachAt n = 0x3000) : (c.bKind n == 3 && c.bIndex n == 0) = true := by
  simp only [Integration.bKind, Integration.bIndex, h]
  decide

theorem Integration.no_hostPort_of_attach {c : Integration} {n : Nat} (h : c.attachAt n < 0x3000) :
    (!(c.bKind n == 3 && c.bIndex n == 0)) = true := by
  have hkind : c.bKind n ≠ 3 := by
    unfold Integration.bKind
    omega
  simp [hkind]

theorem wideFloorplan_port : wideFloorplan.unitJunction 0x90 = some 130048 := by
  rw [Integration.unitJunction_hostPort]
  unfold Integration.unitAt
  rw [List.find?_range_eq_some]
  refine ⟨Integration.hostPort_of_attach wideFloorplan_last, List.mem_range.mpr (by decide), fun n hn => Integration.no_hostPort_of_attach ?_⟩
  rcases Nat.eq_zero_or_pos n with rfl | hpos
  · decide
  · rw [wideFloorplan_attach hpos hn]
    decide

theorem wideFloorplan_memory : wideFloorplan.memoryAt 0 = some 0 := by
  have hfirst : wideFloorplan.unitAt 1 0 = some 0 := by
    unfold Integration.unitAt
    rw [List.find?_range_eq_some]
    exact ⟨rfl, List.mem_range.mpr (by decide), fun n hn => absurd hn (Nat.not_lt_zero n)⟩
  unfold Integration.memoryAt
  rw [List.find?_range_eq_some]
  refine ⟨?_, List.mem_range.mpr (by decide), fun n hn => absurd hn (Nat.not_lt_zero n)⟩
  rw [hfirst]
  rfl

/-! ## The refutation -/

theorem wideBefore_asleep : ((wideBefore wideFloorplan).wardRegions 0).filter
    (fun k => decide (3 ≤ (wideBefore wideFloorplan).regionStateOf k)) = [] := by
  have hactive : (wideBefore wideFloorplan).regionStateOf 0 = 2 :=
    Eq.trans (b := (wideBefore Integration.reference).regionStateOf 0) rfl (by decide +kernel)
  have hregion (n : Nat) : (wideBefore wideFloorplan).regionOf n = 0 := rfl
  rw [List.filter_eq_nil_iff]
  intro k hk
  obtain ⟨n, -, rfl⟩ := List.mem_map.mp (List.mem_eraseDups.mp hk)
  rw [hregion, hactive]
  decide

theorem exec_wardScrubComplete_revoked {s : State} {w : BitVec 4} {q : WardSeq} (hq : Tbl.get none s.wards w.toNat = some q)
    (hphase : s.rd (.wardPhase w.toNat) = 5) (hfree : s.frozen = false) (hruns : s.firmwareRuns = true)
    (hawake : (s.wardRegions w).filter (fun k => decide (3 ≤ s.regionStateOf k)) = []) (hrevoke : q.revoke = true)
    (hwindows : (s.closeWindows w).wardWindows w = []) : exec (.wardScrubComplete w) s = .next ((s.closeWindows w).revoked w q) := by
  have hopen : ¬ (s.rd (.wardPhase w.toNat) ≠ 5 ∨ s.frozen = true ∨ (!s.firmwareRuns) = true) := by simp [hphase, hfree, hruns]
  have hnone : ¬ ((!((s.wardRegions w).filter (fun k => decide (3 ≤ s.regionStateOf k))).isEmpty) = true) := by rw [hawake]; decide
  have hclosed : ¬ ((true && !((s.closeWindows w).wardWindows w).isEmpty) = true) := by rw [hwindows]; decide
  simp only [exec, execWardScrubComplete, Ward.scrubbed, hq, if_neg hopen, if_neg hnone, hrevoke, if_true, if_neg hclosed]
  rfl

/-- Before, the ward owns junction 0; after its window is closed, it does not. -/
theorem wideBefore_owns : 0 ∈ (wideBefore wideFloorplan).wardJunctions 0 := by
  have howner : (wideBefore wideFloorplan).wardOf 0 = some 0 :=
    Eq.trans (b := (wideBefore Integration.reference).wardOf 0) rfl (by decide +kernel)
  refine List.mem_filter.mpr ⟨List.mem_range.mpr ?_, by rw [howner]; rfl⟩
  change 0 < 130049 * 1
  decide

theorem wideAfter_disowned : 0 ∉ (wideAfter wideFloorplan 1).wardJunctions 0 := by
  have howner : (wideAfter wideFloorplan 1).wardOf 0 = none :=
    Eq.trans (b := (wideAfter Integration.reference 1).wardOf 0) rfl (by decide +kernel)
  intro hmem
  have hown := (List.mem_filter.mp hmem).2
  rw [howner] at hown
  exact absurd hown (by decide)

/-- Refutes O53: in a floorplan of 130,049 junctions a discard counted at host port 0 carries into the owner of junction 0 (`wideAsked_endTxn`),
while the revocation of ward 0 closes its window. The scrub then passes junction 0, which the ward owned, by: its bank is not emptied. -/
theorem not_wardsFormActivateAndEnd : ¬ Obligations.WardsFormActivateAndEnd := by
  unfold Obligations.WardsFormActivateAndEnd
  intro h
  obtain ⟨-, -, hend, -, -⟩ := h (wideBefore wideFloorplan) 0
  have hq : Tbl.get none (wideBefore wideFloorplan).wards (0 : BitVec 4).toNat = some ⟨true, 0, 0, 0, false⟩ := rfl
  have hphase : (wideBefore wideFloorplan).rd (.wardPhase (0 : BitVec 4).toNat) = 5 :=
    Eq.trans (b := (wideBefore Integration.reference).rd (.wardPhase 0)) rfl (by decide +kernel)
  have hfree : (wideBefore wideFloorplan).frozen = false :=
    Eq.trans (b := (wideBefore Integration.reference).frozen) rfl (by decide +kernel)
  have hruns : (wideBefore wideFloorplan).firmwareRuns = true :=
    Eq.trans (b := (wideBefore Integration.reference).firmwareRuns) rfl (by decide +kernel)
  have hclosed := wideBefore_closed wideFloorplan_memory wideFloorplan_port
  have hwindows : ((wideBefore wideFloorplan).closeWindows 0).wardWindows 0 = [] := by
    rw [hclosed]
    exact Eq.trans (b := (wideAfter Integration.reference 1).wardWindows 0) rfl (by decide +kernel)
  obtain ⟨-, hend⟩ := hend _ hq
  obtain ⟨-, -, hend⟩ := hend hphase hfree hruns _ rfl
  obtain ⟨t, hexec, -, -, -, hbanks⟩ := hend wideBefore_asleep (.inr hwindows)
  rw [exec_wardScrubComplete_revoked hq hphase hfree hruns wideBefore_asleep rfl hwindows, hclosed] at hexec
  have hbank := (hbanks 0 wideBefore_owns).1
  rw [← Host.Outcome.next.inj hexec, State.bank_revoked rfl rfl rfl wideAfter_disowned] at hbank
  exact absurd (show wideBank = Bank.null from hbank) (by decide)

end Sys2Proof.Machine
end
